-- ==== Sys2Proof/Word.lean ====
section
/-! DEFINITION. The words of the D9640: bytes, 64-bit scalar words and 512-bit stile and vector words,
and the type of a sparse table of like things. -/

namespace Sys2Proof

/-- One byte. -/
abbrev Byte := BitVec 8

/-- A 64-bit word: a scalar register, an 8-byte register access unit. -/
abbrev Word := BitVec 64

/-- A 512-bit word: a stile word (Table 01-3), a vector register. -/
abbrev Wide := BitVec 512

/-- A sparse table of like things by number: keys strictly rising, and no entry equal to what an
unlisted key reads as. The operations are in Machine/Store.lean. -/
abbrev Table (α : Type) := List (Nat × α)

end Sys2Proof
end

