-- ==== Sys2Proof/Types.lean ====
section
/-! DEFINITION. The shapes of the things commands carry and the state holds: frames, records, queue
entries, messages. Plain data throughout. -/

namespace Sys2Proof.Machine

/-- A raise as the event unit holds it: the source, the info bits, the time of the cause (96-bit
Reckoning time), and for TIME_STEP the pre-step time as well (R450, R451). -/
structure EvRec where
  src : Nat
  info : Nat
  time : Nat
  pre : Option Nat := none
deriving DecidableEq, Repr

/-- One island's replica of Reckoning time: its value in units of 2^-48 ns, the increment per tree
cycle it counts with, the calibrated delay in beads, and whether it has been aligned. -/
structure Replica where
  value : Int := 0
  incr : Int := 281474976710656
  delay : Int := 0
  aligned : Bool := false
deriving DecidableEq, Repr

/-- A step request that waits for the next marker (R588): a value of 96 bits to set, or an offset in
beads. -/
inductive StepReq where
  | set (raw : Nat)
  | step (ofs : Int)
deriving DecidableEq, Repr

/-- The settings of a sync output, active copy. -/
structure SyncSet where
  mode : Nat := 0
  inv : Nat := 0
  num : Nat := 1
  den : Nat := 1
  width : Nat := 100000
  phase : Int := 0
  dly : Int := 0
deriving DecidableEq, Repr

/-- A frame on the wire: its bytes from the destination address to the last byte of the FCS, and what the
physical layer found of it. -/
structure Frame where
  bytes : List Byte
  fcsBad : Bool := false
  icrcBad : Bool := false
  /-- It holds blocks of an uncorrectable FEC codeword (R89). -/
  uncorr : Bool := false
deriving DecidableEq, Repr

/-- A frame in the ingress buffer with its metadata: sub-port, 96-bit ingress timestamp and its valid
flag, priority, cells. -/
structure IngFrame where
  bytes : List Byte
  port : Nat
  sp : Nat
  ts : Nat
  tsValid : Bool
  pri : Nat
  cells : Nat
deriving DecidableEq, Repr

/-- A frame on its way to a drover or a fabric island, with what R153 stage 5 and Table 06-4 deliver with
it. -/
structure RxFrame where
  frame : IngFrame
  sid : Nat := 0
  tenant : Nat := 0
  acct : Bool := false
  xseq : Nat := 0
  /-- Routed by an entry, not by a default. -/
  byEntry : Bool := false
  leg : Nat := 0
  p27 : Bool := false
  rxCtx : Nat := 0
  part : Nat := 7
  chanBlock : Nat := 0
  chanCount : Nat := 0
  /-- The sender marked the frame bad. -/
  err : Bool := false
  migIn : Bool := false
  /-- A marker without a frame (R204). -/
  migOut : Bool := false
  /-- The drover that sent it. -/
  srcDrv : Option Nat := none
  /-- A fabric island sent it. -/
  srcFab : Bool := false
deriving DecidableEq, Repr

/-- The frame in progress on a sub-port: the cells it holds, its priority, and whether it was dropped
for want of a cell (R100). -/
structure InProg where
  cells : Nat := 0
  pri : Nat := 0
  dropped : Bool := false
deriving DecidableEq, Repr

/-- A halter that passed the checks of R107: controller, arrival sub-port, source MAC address, the
64-byte record, its PSN. -/
structure Halter where
  ctrl : Nat
  sp : Nat
  mac : Nat
  record : Nat
  psn : Nat
deriving DecidableEq, Repr

/-- Where a frame to be sent comes from. -/
inductive EgSrc where
  | stream | sacon | herdsman | halter
deriving DecidableEq, Repr

/-- A frame in an egress queue: length, source, priority, sub-port, the stream and the media data it
carries, the eligible time in beads, the sender's timestamp request (drover, tag), the input stamps. -/
structure EgFrame where
  bytes : List Byte := []
  len : Nat
  src : EgSrc
  pri : Nat
  sp : Nat
  stream : Nat := 0
  /-- Eligible time E, beads (R186). -/
  elig : Option Nat := none
  /-- Drover, or 96 + 2 × island + port, and tag that asked for the egress timestamp (R211, R299). -/
  tsTo : Option (Nat × Nat) := none
  /-- RTP timestamp to set (R179). -/
  rtpTs : Option Nat := none
  /-- Cut through from ingress. -/
  cut : Bool := false
  /-- A PTP message (step 1 of R99). -/
  ptp : Bool := false
  /-- Offsets of the RTP header and of the RTP payload when the frame was rewritten (R178). -/
  rtpAt : Option (Nat × Nat) := none
deriving DecidableEq, Repr

/-- What a route cache line holds: its content is that of DDR4 (R132), so the line names it: stream entry,
channel entry, change record `j` of slot `s`, or the negative result of a key. -/
inductive LineTag where
  | stream (i : Nat)
  | chan (i : Nat)
  | record (s j : Nat)
  | neg (key : Nat)
deriving DecidableEq, Repr

/-- A route cache line: its way, pinned for an entry's pin bit, pinned by the salvo of a slot, and the hit
state it holds for a stream entry. -/
structure CacheLine where
  way : Nat
  tag : LineTag
  pinE : Bool := false
  pinS : Option Nat := none
  hit : Bool := false
deriving DecidableEq, Repr

/-- A set of the route cache: its lines and the 15 tree bits. -/
structure CacheSet where
  lines : List CacheLine := []
  plru : Nat := 0
deriving DecidableEq, Repr

/-- What a salvo in a slot has reached: the frame period of SALVO_ARM, changes pre-warmed, swapped,
whether retirement has begun, SALVO_COMMITTED raised. -/
structure SalvoRun where
  num : Nat := 0
  den : Nat := 0
  prePos : Nat := 0
  swapPos : Nat := 0
  retiring : Bool := false
  raised : Bool := false
deriving DecidableEq, Repr

/-- A slot of a frame store: the media frame it holds. -/
structure StoreSlot where
  used : Bool := false
  rtpTs : Nat := 0
  /-- Extended sequence number of record 0. -/
  first : Nat := 0
  /-- Index of the marker frame plus one, once it arrived. -/
  count : Option Nat := none
  /-- Records present, by index. -/
  present : List Nat := []
  /-- Media index n (R174). -/
  index : Nat := 0
  locked : Bool := false
  /-- Order in which the media frames were taken, newest largest. -/
  order : Nat := 0
  /-- A release of this media frame has started or ended. -/
  released : Bool := false
deriving DecidableEq, Repr

/-- A release in progress: port and stream it feeds, the slot, the next record, the output frame index. -/
structure Release where
  ctx : Nat
  slot : Nat
  frameIndex : Option Nat := none
  /-- A repeat of the last frame released. -/
  again : Bool := false
deriving DecidableEq, Repr

/-- A frame on its way to an egress stream: what its sender supplies with it. -/
structure EgReq where
  stream : Nat
  bytes : List Byte
  /-- Media frame index N (R186). -/
  index : Option Nat := none
  /-- Eligible time, beads (GIVEN). -/
  elig : Option Nat := none
  /-- Ingress timestamp, beads, when valid (INGRESS). -/
  ingress : Option Nat := none
  tsTo : Option (Nat × Nat) := none
  /-- The frame store release it belongs to: context and slot. -/
  rel : Option (Nat × Nat) := none
  cut : Bool := false
  /-- The priority a cut-through frame came with. -/
  pri : Option Nat := none
  /-- An audio packet of the assembly ring: `bytes` is the RTP payload alone (R169). -/
  asm : Bool := false
deriving DecidableEq, Repr

/-- Where a frame store stands: the slot last taken plus one, whether a marker has been seen, the first
and count of the media frame last taken, the order number reached, the RTP timestamp of the last frame that
overran, the order of the last frame released plus one, the next SYNC boundary. -/
structure StoreCur where
  slot : Nat := 0
  armed : Bool := false
  first : Nat := 0
  count : Nat := 1
  nextFirst : Option Nat := none
  order : Nat := 0
  overTs : Option Nat := none
  released : Nat := 0
  boundary : Option Nat := none
deriving DecidableEq, Repr

/-- A pending move of a sid between drovers (R501): since when, in beads, and a frame boundary has come. -/
structure Move where
  sid : Nat
  old : Nat
  new : Nat
  since : Nat
  ready : Bool := false
deriving DecidableEq, Repr

/-- A window in a drover's crib: its first buffer, the buffers it holds (the skipped ones counted in `took`),
the sid, the thread it was given to, whether it was freed (R201, R202, R204). -/
structure Window where
  first : Nat
  count : Nat
  took : Nat
  sid : Nat := 0
  given : Bool := false
  freed : Bool := false
deriving DecidableEq, Repr

/-- A DMA descriptor (R260). -/
structure DmaDesc where
  src : Nat
  dst : Nat
  len : Nat
deriving DecidableEq, Repr

/-- A DMA channel: its descriptors, oldest first, the accumulated status, busy_seen, and BUS_ERR already
raised as a fault (R260). -/
structure DmaChan where
  queue : List DmaDesc := []
  status : Nat := 0
  busySeen : Bool := false
  busRaised : Bool := false
deriving DecidableEq, Repr

/-- An entry of a timestamp FIFO (R254). -/
structure TsEntry where
  ts : Nat
  tag : Nat
  dropped : Bool
deriving DecidableEq, Repr

/-- The audio deinterleave state of a thread (R246). -/
structure Deint where
  src : Nat := 0
  dst : Nat := 0
  fmt : Nat := 0
  chans : Nat := 0
  spp : Nat := 0
  done : Nat := 0
  k : Nat := 0
  carry : List Byte := []
deriving DecidableEq, Repr

/-- How a Quobaler instruction is issued: the drover, the thread, and what the physical layer finds in the
words it reads: 0 good, 1 a corrected error, 2 an uncorrectable one, for the fetch and for the data
(R200). -/
structure Issue where
  n : Fin 96
  t : Fin 8
  fetchEcc : Fin 3 := 0
  dataEcc : Fin 3 := 0
deriving DecidableEq, Repr

/-- A message on the AUDIO tap path: its count, egress port and stream, RTP timestamp, egress timestamp
(96 bits), RTP payload (Table 16-1). -/
structure TapAudio where
  count : Nat
  port : Nat
  stream : Nat
  rtpTs : Nat
  ts : Nat
  payload : List Byte
deriving DecidableEq, Repr

/-- A message on the ACCT tap path: its count, tenant, sid, ingress port, frame length, timestamp. -/
structure TapAcct where
  count : Nat
  tenant : Nat
  sid : Nat
  port : Nat
  len : Nat
  ts : Nat
deriving DecidableEq, Repr

/-- An exact number num / 2^k, num ≥ 0 (the rates of R414). -/
structure Dyad where
  num : Nat := 0
  k : Nat := 0
deriving DecidableEq, Repr

/-- A command queue pair beside its registers: its keys, the peer's addresses, the congestion state of R414,
the retries the REQ allows. -/
structure Qp where
  setupKey : Nat := 0
  doorKey : Nat := 0
  src : Nat := 0
  mac : Nat := 0
  port : Nat := 0
  alpha : Dyad := ⟨1, 0⟩
  rate : Dyad := {}
  target : Dyad := {}
  stage : Nat := 0
  /-- Beads plus one of the last cut. -/
  tCut : Nat := 0
  /-- A CNP came since the last timer. -/
  cnp : Bool := false
  limit : Nat := 0
deriving DecidableEq, Repr

/-- The descriptor a ring executes: its words, its ring index, the beads at which its time runs out plus
one, the value last polled, its acquire waits at the semaphore unit. -/
structure CurDesc where
  desc : Nat
  index : Nat
  deadline : Nat := 0
  value : Nat := 0
  asked : Bool := false
deriving DecidableEq, Repr

/-- A command ring beside its registers: the descriptors fetched and not executed, the one in execution,
whether it waits for room in its completion ring, whether it stops after its descriptor. -/
structure Ring where
  fetched : List Nat := []
  cur : Option CurDesc := none
  full : Bool := false
  stopping : Bool := false
deriving DecidableEq, Repr

/-- An access to one DDR4 line: input, write, address, bytes read, bytes to write, and the symbols of the
codeword the read finds in error, each with the difference (R395). -/
structure DdrAcc where
  inp : Nat
  write : Bool
  addr : Nat
  len : Nat
  data : List Byte := []
  errs : List (Nat × Nat) := []
deriving DecidableEq, Repr

/-- What the sense of an NV codeword finds (R358, R359): whether the read buffers did not hold it, the bits
corrected at the first sense (none: it does not decode), the retry that decodes it and the bits it corrects,
the raw bits a margin or failing read returns. -/
structure NvFind where
  sensed : Bool := true
  first : Option Nat := some 0
  retry : Option (Nat × Nat) := none
  raw : List Byte := []
deriving DecidableEq, Repr

/-- A program or erase in progress in an NV bank: its kind (1 program, 2 erase), the row or sector, the protect
bit as sampled, the buffer's bytes that are not 0xFF. -/
structure NvOp where
  kind : Nat
  unit : Nat
  prot : Bool
  buf : Table Byte := []
deriving DecidableEq, Repr

/-- A measurement of the Herdsman (Table 15-3): rail power and voltage in mW and mV, the total of the rails, island
power, utilisation and slack in percent, the route cache hit ratio per mille, the path delay variation in ns. -/
inductive Measure where
  | rail (n : Fin 10) (mw mv : BitVec 32)
  | total (mw : BitVec 32)
  | islandPower (i : Fin 76) (mw : BitVec 16)
  | util (i : Fin 76) (pct : BitVec 7)
  | slack (i : Fin 76) (pct : BitVec 7)
  | hitRatio (pm : BitVec 10)
  | pdv (ns : Nat)
deriving DecidableEq, Repr

/-- A record of a configuration image (Table 09-3): type, target, payload, its segment, and the byte of the
segment's ciphertext at which the payload begins. -/
structure ImgRec where
  type : Nat
  target : Nat
  data : List Byte
  seg : Nat
  pos : Nat
deriving DecidableEq, Repr

/-- Where the NV copy of a frame is (R353, R354): the address of its 256 ciphertext bytes, its segment, the
first 16-byte block of the segment's keystream that covers it. -/
structure FrameSrc where
  addr : Nat
  seg : Nat
  blk : Nat
deriving DecidableEq, Repr

/-- The key of a segment that the controller keeps from the load: key, IV, whether the image is encrypted. -/
structure SegKey where
  key : Nat
  iv : Nat
  enc : Bool
deriving DecidableEq, Repr

/-- A partial reconfiguration slot: the staged image's header, records, segment keys and, when it came from the
NV array, its address; of the apply: target, source, move, the time asked for and the instant at which it may
start (beads). -/
structure PrSlot where
  hdr : List Byte := []
  recs : List ImgRec := []
  keys : List SegKey := []
  base : Option Nat := none
  from_ : Nat := 0
  target : Nat := 0
  source : Nat := 0
  move : Bool := false
  at_ : Nat := 0
  startAt : Nat := 0
deriving DecidableEq, Repr

/-- The slave port (R325 to R329): ready, the sync sequence seen, a high nibble held, the last four bytes, the
image bytes taken (newest first), bytes in the input FIFO, a byte was dropped, beads of the last byte, the
level of CFG_BUSY. -/
structure SlavePort where
  ready : Bool := false
  synced : Bool := false
  nib : Option Nat := none
  last : List Byte := []
  got : List Byte := []
  fifo : Nat := 0
  beyond : Bool := false
  at_ : Nat := 0
  busy : Bool := true
deriving DecidableEq, Repr

/-- A fabric island: its clock lines run, its global reset is asserted, its granary ports are enabled, its
stile and management ports are open, a user reset runs. -/
structure FabIsl where
  clk : Bool := false
  reset : Bool := true
  gran : Bool := false
  ports : Bool := false
  ureset : Bool := false
deriving DecidableEq, Repr

/-- A response to a fabric island (R299): kind, status, tag, timestamp and dropped flag of a TS, data. -/
structure FabResp where
  kind : Nat
  status : Nat
  tag : Nat
  ts : Nat := 0
  dropped : Bool := false
  data : List Byte := []
deriving DecidableEq, Repr

/-- A running self-test slice (R561 to R565): runs, the index of the next macro to start, the macros under test
(global numbers), those that repeat their test after a repair, beads of START, beads plus one of a retry due,
a macro ended INCOMPLETE, the retries made. -/
structure SliceRun where
  on : Bool := false
  tries : Nat := 0
  next : Nat := 0
  act : List Nat := []
  again : List Nat := []
  start : Nat := 0
  retryAt : Nat := 0
  cut : Bool := false
deriving DecidableEq, Repr

/-- The Tally's parameters (R534): TLY_CFG, the programme slots, the last cmd_seq, audit_count, sealed. -/
structure TlyParams where
  cfg : Nat := 600 + 3600 * 2 ^ 16 + 60 * 2 ^ 32 + 1000 * 2 ^ 64
  progs : Table Nat := []
  cmdSeq : Nat := 0
  audit : Nat := 0
  sealed : Bool := false
deriving DecidableEq, Repr

/-- A channel of a programme: the samples taken, by index; the memory of its K-weighting filter; the true-peak
of the period, plus one. -/
structure TlyChan where
  samples : Table (Option Int) := []
  filt : Nat := 0
  tp : Nat := 0
deriving DecidableEq, Repr

/-- What a programme has reached: the next step of 4,800 samples plus one, the weighted energies of the last
30 steps (newest first), the energies of the blocks and the short-term energies since the integration began,
those of the period, missing samples and format errors of the period. -/
structure TlyRun where
  next : Nat := 0
  energy : List Nat := []
  blocks : List Nat := []
  shorts : List Nat := []
  perBlocks : List Nat := []
  perShorts : List Nat := []
  missing : Nat := 0
  fmtErr : Bool := false
deriving DecidableEq, Repr

/-- A tapped egress stream's rate check (R520): the second, the first and last RTP timestamp and egress time
(beads) seen in it, and its frames. -/
structure TlyRate where
  frames : Nat := 1
  sec : Nat
  rtp0 : Nat
  t0 : Nat
  rtp1 : Nat
  t1 : Nat
deriving DecidableEq, Repr

/-- Service counts of a tenant, port and period (R525). -/
structure TlySvc where
  frames : Nat := 0
  bytes : Nat := 0
  secs : Nat := 0
deriving DecidableEq, Repr

/-- Time-interval error statistics of a period (R527): edges, the seconds that received one, minimum, maximum
and sum in beads, the alarm was raised. -/
structure TlyTie where
  edges : Nat := 0
  secs : List Nat := []
  lo : Int := 0
  hi : Int := 0
  sum : Int := 0
  alarmed : Bool := false
deriving DecidableEq, Repr

/-- A record created and not committed (R529): type, time_valid, sealed, time (96 bits), payload. -/
structure TlyRec where
  type : Nat
  valid : Bool
  sealed : Bool
  time : Nat
  payload : List Byte
deriving DecidableEq, Repr

/-- What leaves the device, as the model records it (log entry 5). -/
inductive Out where
  /-- The completion of a register access: input, status, value read (0 for a write). -/
  | access (inp status value : Nat)
  /-- An edge of a sync output: output, time in beads, width in ns, inverted. -/
  | syncEdge (n time width : Nat) (inv : Bool)
  /-- A PTP message sent: port, message type, its fields. -/
  | ptp (port type : Nat) (fields : List Nat)
  /-- A PFC frame sent: port, sub-port, priority, pause time in quanta. -/
  | pfc (port sp pri quanta : Nat)
  /-- A congestion notification to the peer of QP `i` of controller `c` (R415). -/
  | cnp (c i : Nat)
  /-- A halter acknowledgement or NAK: port, sub-port, destination MAC, PSN, code (0 acknowledge, 1 PSN
  sequence error, 2 remote access error). -/
  | halterAck (port sp mac psn code : Nat)
  /-- An RDMA WRITE into host memory: controller, QP index, address, R_Key, bytes. -/
  | hostWrite (c qp addr rkey : Nat) (bytes : List Byte)
  /-- A datagram or message of the Sacon engine: port, sub-port, kind, destination address and UDP port or
  QP number, bytes. -/
  | sacon (port sp : Nat) (vlan : Option Nat) (kind dst dport : Nat) (bytes : List Byte)
  /-- A frame sent: port, sub-port, its bytes, the egress timestamp, stomped. -/
  | frame (port sp : Nat) (f : EgFrame) (ts : Nat) (stomped : Bool)
  /-- A message taken by the user logic of island `i` on its input port `k`: virtual channel, header or metadata
  word, the bytes that follow it. -/
  | stile (i k vc word : Nat) (bytes : List Byte)
  /-- The response to a management request of island `i`: status, value. -/
  | mgmt (i status value : Nat)
  /-- A level driven on a pin: FLOCK_DONE, CFG_BUSY. -/
  | flock (low : Bool)
  /-- Bits shifted out of TDO: width, value captured in the selected data register. -/
  | tdo (width value : Nat)
deriving DecidableEq, Repr

end Sys2Proof.Machine
end

