-- ==== Sys2Proof/Syntax.lean ====
section
/-! DEFINITION. The commands of the D9640: one constructor for each row of the table of operations and
events. An operand is what the event brings from outside the machine: which unit it concerns, the data
that arrives, a measured or physical outcome, a firmware decision (log entries 1 and 2). -/

namespace Sys2Proof

open Sys2Proof.Machine

/-- The commands. -/
inductive Instr where
  /-- REGISTER_WRITE (R14): A write to a setup register that has no row of its own sets each field by its access code and completes with a status. -/
  | registerWrite (inp : Fin 101) (desc : Bool) (a : BitVec 21) (be : BitVec 8) (v : BitVec 64)
  /-- STILE_TIMEOUT (R23): A stile word waiting for a gated or powered-off island is discarded when SYS_STILE_TMO.tmo_ns passes, and the timeout is logged and raised. -/
  | stileTimeout (i : Fin 112)
  /-- SYNTHESISER_STEP (R19): An island's synthesiser steps to a new frequency while its stiles pause, and no word is lost. -/
  | synthesiserStep (i : Fin 76)
  /-- MARKER_EDGE (R53): Every 256 timebase cycles the master sends a marker word, and the replicas slew or step to it, applying pending steps and rate changes. -/
  | markerEdge
  /-- TIM_SET_GO (R588): A write of TIM_SET.go requests that TIM_SET.value be loaded at the next marker. -/
  | timSetGo (inp : Fin 101)
  /-- TIM_STEP (R588): A write of TIM_STEP requests a signed step in beads at the next marker. -/
  | timStep (inp : Fin 101) (ofs : BitVec 64)
  /-- TIM_FREQ_ADJ_WRITE (R70): A write of TIM_FREQ_ADJ sets the free-running rate correction, or is dropped while a servo source is selected. -/
  | timFreqAdjWrite (inp : Fin 101) (desc : Bool) (adj : BitVec 36)
  /-- COMPARATOR_FIRE (R52): A replica comparator fires at the first tree clock edge at which the replica reaches its target. -/
  | comparatorFire (n : Fin 96) (t : Fin 8) (fine : Fin 256)
  /-- SERVO_SRC_WRITE (R66): A write of TIM_SERVO_CFG.src selects or deselects a servo source and moves the servo state. -/
  | servoSrcWrite (inp : Fin 101) (desc : Bool) (src : BitVec 2)
  /-- SERVO_SAMPLE (R65): The servo takes a phase sample, adjusts the rate, may step time in ACQUIRING and changes state as Table 02-2 states. -/
  | servoSample (ofs : Int)
  /-- ANNOUNCE_RECEIPT_TIMEOUT (R68): No Sync arrives within announceReceiptTimeout Announce intervals, so the PTP source is lost. -/
  | announceReceiptTimeout (p : Fin 2) (st : Fin 10)
  /-- PPS_SOURCE_LOST (R68): No accepted SYNC_IN0 edge arrives for two expected seconds, so the PPS source is lost. -/
  | ppsSourceLost
  /-- HOLDOVER_SPEC (R62): The time since the servo left LOCKED passes TIM_HOLD_CFG.spec_s, so clockClass moves from 7 to 187. -/
  | holdoverSpec
  /-- PTP_MESSAGE_RX (R60): A PTP message is received, queued for the Herdsman, or dropped and counted when unsupported. -/
  | ptpMessageRx (p : Fin 2) (sp : Fin 4) (type : BitVec 4) (domain : BitVec 8) (len : Nat) (cls : BitVec 8) (tlv : Option (BitVec 512)) (st : Fin 10) (chg : Bool)
  /-- PTP_SYNC_TX (R61): At its interval a master port sends Sync, one-step with hardware timestamp or two-step with a Follow_Up. -/
  | ptpSyncTx (p : Fin 2) (fine : Nat)
  /-- SMPTE_TLV_TX (R63): At the interval tlv_log a grandmaster sends the SMPTE metadata TLV on each master port. -/
  | smpteTlvTx (p : Fin 2)
  /-- SYNC_IN_EDGE (R71): An edge on a sync input is stamped and placed in its FIFO, or dropped when the FIFO is full. -/
  | syncInEdge (n : Fin 4) (fine : Nat) (rise : Bool)
  /-- SIN_TS_READ (R71): A read of TIM_SIN_TS returns and removes the oldest captured edge. -/
  | sinTsRead (inp : Fin 101) (n : Fin 4)
  /-- SYNC_OUT_EDGE (R74): A sync output produces an edge at the grid point nearest its ideal time. -/
  | syncOutEdge (n : Fin 8)
  /-- SOUT_COMMIT (R77): A write of TIM_SOUT_CFG.commit requests that the shadow settings become active at the next whole second. -/
  | soutCommit (inp : Fin 101) (n : Fin 8)
  /-- SOUT_COMMIT_APPLY (R76): At the whole second the shadow settings are copied to the active copy, or refused and bad set when invalid. -/
  | soutCommitApply (n : Fin 8)
  /-- PLL_LOCK (R79): The timebase PLL locks and the replicas load marker words with uncalibrated delays. -/
  | pllLock
  /-- TIME_TREE_CAL_DONE (R79): Time tree calibration ends, delays are applied by a step and SYS_READY.time sets. -/
  | timeTreeCalDone (sums errs : List Int)
  /-- PORT_TS_CAL_DONE (R79): A sub-port's timestamp path calibration ends after PCS lock and TIM_PORT_STAT.ts_valid sets. -/
  | portTsCalDone (p : Fin 2) (sp : Fin 4)
  /-- BACKGROUND_CAL (R80): A periodic or temperature-triggered recalibration run applies new delays by slew. -/
  | backgroundCal (temp : Bool) (sums errs : List Int)
  /-- PRT_CFG_WRITE (R86): A write of PRT_CFG sets mode, enables and other fields, checking the lane map when a sub-port is enabled. -/
  | prtCfgWrite (inp : Fin 101) (desc : Bool) (q : Fin 2) (v : BitVec 32)
  /-- PRT_BUF_LIM_WRITE (R101): A write of PRT_BUF_LIM sets buffer limits or is dropped with buf_cfg_err when the minimums exceed the pool. -/
  | prtBufLimWrite (inp : Fin 101) (desc : Bool) (q : Fin 2) (p : Fin 8) (v : BitVec 64)
  /-- SERDES_CAL_DONE (R91): The SerDes finish calibration and the SerDes flag of SYS_READY sets. -/
  | serdesCalDone
  /-- CDR_LOCK (R91): A sub-port's receiver CDR locks on a valid signal and equaliser adaptation starts. -/
  | cdrLock (q : Fin 2) (sp : Fin 4)
  /-- FEC_LOCK (R91): Adaptation completes and the sub-port gains FEC alignment-marker lock. -/
  | fecLock (q : Fin 2) (sp : Fin 4)
  /-- PCS_LOCK (R91): The sub-port gains PCS lock and comes up. -/
  | pcsLock (q : Fin 2) (sp : Fin 4)
  /-- PCS_LOCK_LOSS (R92): A sub-port loses PCS lock, goes down, drops the frame in progress and returns to step 3. -/
  | pcsLockLoss (q : Fin 2) (sp : Fin 4) (busy : Bool)
  /-- FAULT_CHANGE (R90): Local or remote fault ordered sets start or stop arriving, stopping or resuming transmission on the sub-port. -/
  | faultChange (q : Fin 2) (sp : Fin 4) (l r : Bool)
  /-- FEC_CODEWORD (R89): The FEC decoder corrects a codeword or marks it uncorrectable. -/
  | fecCodeword (q : Fin 2) (sp : Fin 4) (r : Option Nat)
  /-- FRAME_RX (R93): A received frame is checked by the MAC and parser and sent to the halter unit, a buffer, the PTP queue or dropped. -/
  | frameRx (q : Fin 2) (sp : Fin 4) (f : Frame) (fine : Nat)
  /-- INGRESS_CELL_ALLOC (R100): A frame's request for an ingress buffer cell is served against occupancy, or the frame is dropped whole. -/
  | ingressCellAlloc (q : Fin 2) (sp : Fin 4) (p : Fin 7)
  /-- PFC_REFRESH (R103): Half the pause time passes with occupancy at or above xon and the PFC frame is repeated. -/
  | pfcRefresh (q : Fin 2) (p : Fin 8)
  /-- PFC_FRAME_RX (R104): A PFC frame arrives and pauses or releases frames of the named priorities. -/
  | pfcFrameRx (q : Fin 2) (sp : Fin 4) (en : BitVec 8) (times : List Nat)
  /-- PFC_PAUSE_EXPIRE (R104): A received pause time runs out and the priority resumes. -/
  | pfcPauseExpire (q : Fin 2) (sp : Fin 4) (p : Fin 8)
  /-- EGRESS_QUEUE_ENTER (R591): A frame enters a port's 2 MiB egress queue, or is dropped or made to wait by source. -/
  | egressQueueEnter (q : Fin 2) (f : EgFrame)
  /-- EGRESS_QUEUE_WAIT_ADMIT (R591): Room frees in the egress queue and a waiting Sacon, Herdsman or halter frame enters it. -/
  | egressQueueWaitAdmit (q : Fin 2)
  /-- EGRESS_START (R99): The scheduler chooses the next eligible frame to start on a free sub-port. -/
  | egressStart (q : Fin 2) (sp : Fin 4) (fine : Nat) (bad : Bool)
  /-- EGRESS_STOP (R111): An executed halter with action EGRESS_STOP stops frames starting on the named sub-ports. -/
  | egressStop (q : Fin 2) (fine : Nat)
  /-- EGRESS_RELEASE (R111): An executed halter with action EGRESS_RELEASE clears the named egress stops. -/
  | egressRelease (q : Fin 2) (fine : Nat)
  /-- INGRESS_DROP (R111): An executed halter with action INGRESS_DROP drops later frames of the named sub-ports before the shared buffer. -/
  | ingressDrop (q : Fin 2) (fine : Nat)
  /-- INGRESS_RELEASE (R111): An executed halter with action INGRESS_RELEASE clears the named ingress drops. -/
  | ingressRelease (q : Fin 2) (fine : Nat)
  /-- STREAM_STOP (R111): An executed halter with action STREAM_STOP sets the egress stream's halt bit. -/
  | streamStop (q : Fin 2) (fine : Nat)
  /-- STREAM_RELEASE (R111): An executed halter with action STREAM_RELEASE clears the egress stream's halt bit. -/
  | streamRelease (q : Fin 2) (fine : Nat)
  /-- DROVER_HALT (R113): An executed halter with action DROVER_HALT asserts a halt request to each named drover. -/
  | droverHalt (q : Fin 2) (fine : Nat)
  /-- HALTER_SALVO_CANCEL (R114): An executed halter with action SALVO_CANCEL cancels named OPEN salvos and ARMED salvos not yet at T_eff. -/
  | halterSalvoCancel (q : Fin 2) (fine : Nat)
  /-- HALT_STATE_CLEAR (R112): A write of 1 to a PRT_HALT_STATE bit clears the matching halter stop. -/
  | haltStateClear (inp : Fin 101) (q : Fin 2) (v : BitVec 8)
  /-- FRAME_ROUTE (R142): The route engine looks up a frame's key, selects the image in force, runs the media stages and steers the frame. -/
  | frameRoute (q : Fin 2)
  /-- MISS_LOOKUP_DONE (R134): A miss engine table lookup ends and the waiting frames of the key are routed or take a default. -/
  | missLookupDone (n : Nat)
  /-- RTE_CFG_WRITE (R117): A write of RTE_CFG enables the route engine or sets hash_log, subject to the clear and ECC conditions. -/
  | rteCfgWrite (inp : Fin 101) (desc : Bool) (v : BitVec 32)
  /-- ROUTE_TABLE_CLEAR (R117): A write of RTE_CTL.clear starts zeroing the route table and digests and invalidates the route cache. -/
  | routeTableClear (inp : Fin 101)
  /-- ROUTE_CLEAR_DONE (R117): The route table clear finishes and RTE_STATUS.clearing clears. -/
  | routeClearDone
  /-- AGER_VISIT (R140): The ager visits a stream entry, removing it when idle or clearing its hit bit. -/
  | agerVisit (i : Fin 16777216)
  /-- LEARN_LOG_READ (R139): A read of RTE_LEARN_LOG returns and removes the oldest learned entry. -/
  | learnLogRead (inp : Fin 101) (u : Fin 8)
  /-- PREWARM_STEP (R144): Salvo pre-warm loads one change's entry and record into the cache pinned, or counts a prewarm miss. -/
  | prewarmStep (slot : Fin 4)
  /-- SALVO_COMMIT (R146): Reckoning time reaches T_eff, the salvo becomes COMMITTED and SALVO_COMMITTED is raised. -/
  | salvoCommit (slot : Fin 4)
  /-- SALVO_SWAP (R145): After T_eff the engine swaps one change's new image into its entry and the old image into its record. -/
  | salvoSwap (slot : Fin 4)
  /-- SALVO_RETIRE (R145): At the later of the last swap and T_eff plus drain_us the salvo starts retiring. -/
  | salvoRetire (slot : Fin 4)
  /-- SALVO_RETIRE_DONE (R145): Retirement ends, SALVO_RETIRED is raised and the slot becomes FREE. -/
  | salvoRetireDone (slot : Fin 4)
  /-- SALVO_CANCEL_DONE (R147): CANCELLING restores every entry, SALVO_CANCELLED is raised and the slot becomes FREE. -/
  | salvoCancelDone (slot : Fin 4)
  /-- STREAM_STALL (R158): No frame passes the checks for stall_ms and a receiving context enters STALLED. -/
  | streamStall (ctx : Fin 65536)
  /-- MERGE_LEG_TIMEOUT (R163): No frame arrives from a leg for leg_tmo_ms and the leg is marked down. -/
  | mergeLegTimeout (pair : Fin 65536) (leg : Fin 2)
  /-- STORE_RELEASE_DELAY (R174): In mode DELAY a stored frame's media time plus delay is reached and its release starts. -/
  | storeReleaseDelay (ctx : Fin 65536)
  /-- STORE_SYNC_BOUNDARY (R175): At an output frame boundary in mode SYNC the store releases, repeats or skips a frame. -/
  | storeSyncBoundary (ctx : Fin 65536)
  /-- STORE_RELEASE_DONE (R176): The last record of a release enters the egress queue and the slot unlocks. -/
  | storeReleaseDone (ctx : Fin 65536)
  /-- ASM_PACKET_CLOSE (R169): At eligible time minus asm_ns an audio packet closes, its buffer is read and zeroed and the packet queued. -/
  | asmPacketClose (q : Fin 2) (e : Fin 16384) (chans : Fin 65) (fmt : Fin 3)
  /-- EGRESS_STREAM_ENQUEUE (R177): A frame reaches an egress stream and joins its queue or is dropped. -/
  | egressStreamEnqueue (q : Fin 2)
  /-- TX_STARVED (R181): A sending stream's queue stays empty for starve_ms and it enters STARVED. -/
  | txStarved (q : Fin 2) (e : Fin 16384)
  /-- ROSTER_SLOT (R187): At a slot beginning the head frame of the named stream joins the pending FIFO when eligible. -/
  | rosterSlot (q : Fin 2)
  /-- ROSTER_COMMIT (R183): A write of MED_ROSTER_CFG.commit sets pending for the next period wrap. -/
  | rosterCommit (inp : Fin 101) (q : Fin 2)
  /-- ROSTER_SWAP (R183): At the first period wrap after a commit the shadow roster becomes active and ROSTER_COMMITTED is raised. -/
  | rosterSwap (q : Fin 2)
  /-- ROSTER_COPY_DONE (R183): The new shadow is filled from the new active copy and copying clears. -/
  | rosterCopyDone (q : Fin 2)
  /-- ROSTER_WIN_WRITE (R184): A write through MED_ROSTER_WIN changes a slot in the shadow or active roster copy. -/
  | rosterWinWrite (inp : Fin 101) (desc : Bool) (e : Fin 2048) (v : BitVec 16)
  /-- TX_HALT_CLEAR (R180): A write of 1 to a MED_TX_HALT bit clears the stream's halt. -/
  | txHaltClear (inp : Fin 101) (q : Fin 2) (e : Fin 16384)
  /-- CTX_READ (R191): MED_CTX_CMD op READ reads a whole context into MED_CTX_DATA. -/
  | ctxRead (inp : Fin 101) (desc : Bool) (kind : Fin 4) (port : Fin 2) (index : BitVec 18)
  /-- CTX_WRITE (R192): MED_CTX_CMD op WRITE replaces a context's configuration half, or refuses it. -/
  | ctxWrite (inp : Fin 101) (desc : Bool) (kind : Fin 4) (port : Fin 2) (index : BitVec 18)
  /-- CLR_SID (R152): MED_CTX_CMD op CLR_SID zeroes the four counters of one sid. -/
  | clrSid (inp : Fin 101) (desc : Bool) (sid : BitVec 18)
  /-- CTX_CMD_DONE (R191): A context operation ends and MED_CTX_CMD.busy clears. -/
  | ctxCmdDone
  /-- DROVER_FRAME_RX (R201): A frame arrives at a drover and is placed in window buffers, dropped or held. -/
  | droverFrameRx (n : Fin 96)
  /-- WINDOW_HOLD_RELEASE (R202): Window buffers become available and a frame held at the drove's input is delivered. -/
  | windowHoldRelease (n : Fin 96)
  /-- SEND_QUEUE_ISSUE (R207): A send queue starts its next entry once the previous has entered the droveway or the stile unfreezes. -/
  | sendQueueIssue (n : Fin 96) (q : Fin 4)
  /-- LONG_OP_COMPLETE (R196): A remote memory, DDR4, register, channel read or other long operation completes and unblocks its thread. -/
  | longOpComplete (n : Fin 96) (t : Fin 8) (ecc : Fin 3) (errs : List (Nat × Nat)) (f : NvFind)
  /-- DMA_UNIT_DONE (R217): A drover DMA descriptor completes or ends with a failure status. -/
  | dmaUnitDone (n : Fin 96) (c : Fin 4) (bad : Option (Nat × Fin 3)) (f : NvFind)
  /-- DRV_WATCHDOG (R223): A watched thread fails to kick within period_us and the watchdog acts by DRV_WDOG.action. -/
  | drvWatchdog (n : Fin 96) (t : Fin 8)
  /-- DRV_HALT (R224): A write of DRV_CTL.halt latches a drover halt and stops issue. -/
  | drvHalt (inp : Fin 101) (n : Fin 96)
  /-- DRV_HALT_QUIET (R224): In-flight accesses of a halting drover complete, quiet sets and the halted event is raised. -/
  | drvHaltQuiet (n : Fin 96)
  /-- DRV_RESUME (R226): A write of DRV_CTL.resume releases a halted drover. -/
  | drvResume (inp : Fin 101) (n : Fin 96)
  /-- DRV_RESET (R227): A write of DRV_CTL.reset puts every thread of a halted drover in IDLE and discards its queues. -/
  | drvReset (inp : Fin 101) (n : Fin 96)
  /-- DRV_START (R231): A write of DRV_CTL.start puts every IDLE enabled thread in READY at its start vector. -/
  | drvStart (inp : Fin 101) (n : Fin 96)
  /-- IMEM_FILL (R229): A write of DRV_IMEM_LOAD.go starts an instruction memory fill, or is refused while one runs. -/
  | imemFill (inp : Fin 101) (desc : Bool) (n : Fin 96) (src : BitVec 38) (dst : BitVec 16) (len : BitVec 17)
  /-- IMEM_FILL_DONE (R230): An instruction memory fill ends with its status. -/
  | imemFillDone (n : Fin 96) (bad : Option Nat)
  /-- ADD (R238): ALU ADD writes ra + rb. -/
  | add (i : Issue)
  /-- SUB (R238): ALU SUB writes ra − rb. -/
  | sub (i : Issue)
  /-- AND (R238): ALU AND writes the bitwise AND. -/
  | and (i : Issue)
  /-- OR (R238): ALU OR writes the bitwise OR. -/
  | or (i : Issue)
  /-- XOR (R238): ALU XOR writes the bitwise XOR. -/
  | xor (i : Issue)
  /-- SLL (R238): ALU SLL shifts ra left by rb[5:0]. -/
  | sll (i : Issue)
  /-- SRL (R238): ALU SRL shifts ra right logically. -/
  | srl (i : Issue)
  /-- SRA (R238): ALU SRA shifts ra right arithmetically. -/
  | sra (i : Issue)
  /-- CLT (R238): ALU CLT writes all ones when ra < rb signed. -/
  | clt (i : Issue)
  /-- CLTU (R238): ALU CLTU writes all ones when ra < rb unsigned. -/
  | cltu (i : Issue)
  /-- MIN (R238): ALU MIN writes the signed minimum. -/
  | min (i : Issue)
  /-- MAX (R238): ALU MAX writes the signed maximum. -/
  | max (i : Issue)
  /-- MINU (R238): ALU MINU writes the unsigned minimum. -/
  | minu (i : Issue)
  /-- MAXU (R238): ALU MAXU writes the unsigned maximum. -/
  | maxu (i : Issue)
  /-- CLZ (R238): ALU CLZ writes the count of leading zeros of ra. -/
  | clz (i : Issue)
  /-- POPC (R238): ALU POPC writes the count of set bits of ra. -/
  | popc (i : Issue)
  /-- BSWAP_D (R238): ALU BSWAP.D reverses the bytes of ra[63:0]. -/
  | bswapD (i : Issue)
  /-- BSWAP_W (R238): ALU BSWAP.W reverses the bytes of ra[31:0], zero-extended. -/
  | bswapW (i : Issue)
  /-- BSWAP_H (R238): ALU BSWAP.H reverses the bytes of ra[15:0], zero-extended. -/
  | bswapH (i : Issue)
  /-- BFX (R238): ALU BFX extracts a bit field of ra. -/
  | bfx (i : Issue)
  /-- BFI (R238): ALU BFI inserts ra into a bit field of rd. -/
  | bfi (i : Issue)
  /-- MUL (R238): MULDIV MUL writes the low 64 bits of the product. -/
  | mul (i : Issue)
  /-- MULH (R238): MULDIV MULH writes the high 64 bits of the signed product. -/
  | mulh (i : Issue)
  /-- MULHU (R238): MULDIV MULHU writes the high 64 bits of the unsigned product. -/
  | mulhu (i : Issue)
  /-- DIV (R238): MULDIV DIV writes the signed quotient or faults DIV_ZERO. -/
  | div (i : Issue)
  /-- DIVU (R238): MULDIV DIVU writes the unsigned quotient or faults DIV_ZERO. -/
  | divu (i : Issue)
  /-- REM (R238): MULDIV REM writes the signed remainder or faults DIV_ZERO. -/
  | rem (i : Issue)
  /-- REMU (R238): MULDIV REMU writes the unsigned remainder or faults DIV_ZERO. -/
  | remu (i : Issue)
  /-- ADDI (R238): ADDI adds the sign-extended imm15 to ra. -/
  | addi (i : Issue)
  /-- ANDI (R238): ANDI ANDs ra with the zero-extended imm15. -/
  | andi (i : Issue)
  /-- ORI (R238): ORI ORs ra with the zero-extended imm15. -/
  | ori (i : Issue)
  /-- XORI (R238): XORI XORs ra with the zero-extended imm15. -/
  | xori (i : Issue)
  /-- SLLI (R238): SHI SLLI shifts ra left by an immediate. -/
  | slli (i : Issue)
  /-- SRLI (R238): SHI SRLI shifts ra right logically by an immediate. -/
  | srli (i : Issue)
  /-- SRAI (R238): SHI SRAI shifts ra right arithmetically by an immediate. -/
  | srai (i : Issue)
  /-- CLTI (R238): CLTI writes all ones when ra is below imm15, signed. -/
  | clti (i : Issue)
  /-- CLTUI (R238): CLTUI writes all ones when ra is below imm15, unsigned. -/
  | cltui (i : Issue)
  /-- SETK (R236): SETK loads the sign-extended imm20 into rd. -/
  | setk (i : Issue)
  /-- SHK (R236): SHK shifts rd left by 20 and ORs in imm20. -/
  | shk (i : Issue)
  /-- BEQ (R240): BR with cond EQ branches when ra equals rb. -/
  | beq (i : Issue)
  /-- BNE (R240): BR with cond NE branches when ra differs from rb. -/
  | bne (i : Issue)
  /-- BLT (R240): BR with cond LT branches when ra < rb signed. -/
  | blt (i : Issue)
  /-- BGE (R240): BR with cond GE branches when ra ≥ rb signed. -/
  | bge (i : Issue)
  /-- BLTU (R240): BR with cond LTU branches when ra < rb unsigned. -/
  | bltu (i : Issue)
  /-- BGEU (R240): BR with cond GEU branches when ra ≥ rb unsigned. -/
  | bgeu (i : Issue)
  /-- LNK (R240): LNK saves pc + 4 and jumps by a 20-bit offset. -/
  | lnk (i : Issue)
  /-- LNKR (R240): LNKR saves pc + 4 and jumps to ra + imm15. -/
  | lnkr (i : Issue)
  /-- LB (R239): LB loads a sign-extended byte. -/
  | lb (i : Issue)
  /-- LBU (R239): LBU loads a zero-extended byte. -/
  | lbu (i : Issue)
  /-- LH (R239): LH loads a sign-extended halfword. -/
  | lh (i : Issue)
  /-- LHU (R239): LHU loads a zero-extended halfword. -/
  | lhu (i : Issue)
  /-- LW (R239): LW loads a sign-extended word. -/
  | lw (i : Issue)
  /-- LWU (R239): LWU loads a zero-extended word. -/
  | lwu (i : Issue)
  /-- LD (R239): LD loads a doubleword. -/
  | ld (i : Issue)
  /-- SB (R239): SB stores a byte. -/
  | sb (i : Issue)
  /-- SH (R239): SH stores a halfword. -/
  | sh (i : Issue)
  /-- SW (R239): SW stores a word. -/
  | sw (i : Issue)
  /-- SD (R239): SD stores a doubleword. -/
  | sd (i : Issue)
  /-- AADD_W (R241): ATOM AADD.W adds rb to a 32-bit word and returns the old value. -/
  | aaddW (i : Issue)
  /-- AADD_D (R241): ATOM AADD.D adds rb to a 64-bit word and returns the old value. -/
  | aaddD (i : Issue)
  /-- ASWP_W (R241): ATOM ASWP.W swaps rb into a 32-bit word. -/
  | aswpW (i : Issue)
  /-- ASWP_D (R241): ATOM ASWP.D swaps rb into a 64-bit word. -/
  | aswpD (i : Issue)
  /-- ACAS_W (R241): ATOM ACAS.W compares and swaps a 32-bit word. -/
  | acasW (i : Issue)
  /-- ACAS_D (R241): ATOM ACAS.D compares and swaps a 64-bit word. -/
  | acasD (i : Issue)
  /-- VLD (R243): VLD loads 64 aligned bytes into a vector register. -/
  | vld (i : Issue)
  /-- VST (R243): VST stores a vector register to 64 aligned bytes. -/
  | vst (i : Issue)
  /-- VADD (R243): VALU VADD adds lanes, wrapping. -/
  | vadd (i : Issue)
  /-- VSUB (R243): VALU VSUB subtracts lanes, wrapping. -/
  | vsub (i : Issue)
  /-- VADDS (R243): VALU VADDS adds lanes with signed saturation. -/
  | vadds (i : Issue)
  /-- VSUBS (R243): VALU VSUBS subtracts lanes with signed saturation. -/
  | vsubs (i : Issue)
  /-- VAND (R243): VALU VAND ANDs lanes. -/
  | vand (i : Issue)
  /-- VOR (R243): VALU VOR ORs lanes. -/
  | vor (i : Issue)
  /-- VXOR (R243): VALU VXOR XORs lanes. -/
  | vxor (i : Issue)
  /-- VSLL (R243): VALU VSLL shifts lanes left. -/
  | vsll (i : Issue)
  /-- VSRL (R243): VALU VSRL shifts lanes right logically. -/
  | vsrl (i : Issue)
  /-- VSRA (R243): VALU VSRA shifts lanes right arithmetically. -/
  | vsra (i : Issue)
  /-- VMIN (R243): VALU VMIN takes the signed minimum per lane. -/
  | vmin (i : Issue)
  /-- VMAX (R243): VALU VMAX takes the signed maximum per lane. -/
  | vmax (i : Issue)
  /-- VMINU (R243): VALU VMINU takes the unsigned minimum per lane. -/
  | vminu (i : Issue)
  /-- VMAXU (R243): VALU VMAXU takes the unsigned maximum per lane. -/
  | vmaxu (i : Issue)
  /-- VCEQ (R243): VALU VCEQ sets lanes to all ones where equal. -/
  | vceq (i : Issue)
  /-- VCLT (R243): VALU VCLT sets lanes to all ones where less, signed. -/
  | vclt (i : Issue)
  /-- VCLTU (R243): VALU VCLTU sets lanes to all ones where less, unsigned. -/
  | vcltu (i : Issue)
  /-- VBSW (R243): VALU VBSW reverses the bytes of each element. -/
  | vbsw (i : Issue)
  /-- VMUL (R243): VMULG VMUL writes the low bits of each lane product. -/
  | vmul (i : Issue)
  /-- VMULH (R243): VMULG VMULH writes the high bits of each signed lane product. -/
  | vmulh (i : Issue)
  /-- VMULHU (R243): VMULG VMULHU writes the high bits of each unsigned lane product. -/
  | vmulhu (i : Issue)
  /-- VMAC (R243): VMULG VMAC adds each lane product to vd. -/
  | vmac (i : Issue)
  /-- VSPL_B (R243): VMISC VSPL.b splats the low byte of ra into every lane. -/
  | vsplB (i : Issue)
  /-- VSPL_H (R243): VMISC VSPL.h splats the low halfword of ra into every lane. -/
  | vsplH (i : Issue)
  /-- VSPL_W (R243): VMISC VSPL.w splats the low word of ra into every lane. -/
  | vsplW (i : Issue)
  /-- VSPL_D (R243): VMISC VSPL.d splats ra into every 64-bit lane. -/
  | vsplD (i : Issue)
  /-- VEXT (R243): VMISC VEXT extracts a 64-bit lane into rd. -/
  | vext (i : Issue)
  /-- VINS (R243): VMISC VINS inserts ra into a 64-bit lane of vd. -/
  | vins (i : Issue)
  /-- VMOV (R243): VMISC VMOV copies a vector register. -/
  | vmov (i : Issue)
  /-- VXFW (R247): VMISC VXFW writes eight crossfade weights from the fixed table. -/
  | vxfw (i : Issue)
  /-- MTM (R243): VMISC MTM writes a mask register from ra. -/
  | mtm (i : Issue)
  /-- MFM (R243): VMISC MFM reads a mask register into rd. -/
  | mfm (i : Issue)
  /-- MLEN (R243): VMISC MLEN sets a mask of the low min(ra, 64) bits. -/
  | mlen (i : Issue)
  /-- VAADD (R244): VATOM VAADD adds enabled lanes to a drove memory line, saturating and indivisibly. -/
  | vaadd (i : Issue)
  /-- VAPUT (R249): VATOM VAPUT swaps enabled lanes into a line and reports collisions. -/
  | vaput (i : Issue)
  /-- UNPK_P10 (R245): MEDIA UNPK.P10 unpacks eight 10-bit 4:2:2 pgroups into 16-bit lanes. -/
  | unpkP10 (i : Issue)
  /-- PK_P10 (R245): MEDIA PK.P10 packs 16-bit lanes into eight 10-bit pgroups. -/
  | pkP10 (i : Issue)
  /-- ADCFG (R246): MEDIA ADCFG sets the thread's audio deinterleave state. -/
  | adcfg (i : Issue)
  /-- ADEINT (R246): MEDIA ADEINT converts up to 64 payload bytes into staged 32-bit samples. -/
  | adeint (i : Issue)
  /-- AMIX (R248): MEDIA AMIX multiplies eight samples by gain and weight factors into 64-bit contributions. -/
  | amix (i : Issue)
  /-- AMOV (R249): MEDIA AMOV puts eight AES3 subframes into an assembly ring line by VAPUT. -/
  | amov (i : Issue)
  /-- CRC_C (R259): CRC.C updates a CRC-32C state with the masked bytes of a vector. -/
  | crcC (i : Issue)
  /-- PKT_NEXT (R250): PKT.NEXT gives the thread the next window, blocking while there is none. -/
  | pktNext (i : Issue)
  /-- PKT_NEXT_NB (R250): PKT.NEXT.NB gives the thread the next window or 0 without blocking. -/
  | pktNextNb (i : Issue)
  /-- PKT_FREE (R251): PKT.FREE frees a given window's buffers or faults WINDOW. -/
  | pktFree (i : Issue)
  /-- PKT_SEND (R252): PKT.SEND checks a send descriptor and queues it, blocking while the queue is full. -/
  | pktSend (i : Issue)
  /-- PKT_SQFLUSH (R253): PKT.SQFLUSH removes unstarted entries of a send queue and writes their descriptors. -/
  | pktSqflush (i : Issue)
  /-- PKT_TSRD (R254): PKT.TSRD removes the oldest entry of the timestamp FIFO without blocking. -/
  | pktTsrd (i : Issue)
  /-- CHRD (R255): CHRD reads a channel entry through the route cache's second port, returning old and new images. -/
  | chrd (i : Issue)
  /-- STAMP (R256): STAMP writes the drove's replica of Reckoning time into a time pair. -/
  | stamp (i : Issue) (fine : Fin 256)
  /-- STAMP_LATE (R256): STAMP.LATE returns and clears the thread's late flag. -/
  | stampLate (i : Issue)
  /-- WAITU (R215): WAITU blocks the thread until its comparator fires for the target time. -/
  | waitu (i : Issue) (fine : Fin 256)
  /-- TADD (R257): TADD adds a signed bead count to a time pair. -/
  | tadd (i : Issue)
  /-- TCMP (R257): TCMP compares two time pairs. -/
  | tcmp (i : Issue)
  /-- TIDX_C (R258): TIDX.C converts a time to the ceiling index at a rational rate. -/
  | tidxC (i : Issue)
  /-- TIDX_F (R258): TIDX.F converts a time to the floor index at a rational rate. -/
  | tidxF (i : Issue)
  /-- TAT (R258): TAT converts an index to the time of its start. -/
  | tat (i : Issue)
  /-- DMA_GO (R260): DMA.GO checks and queues a DMA descriptor on a channel. -/
  | dmaGo (i : Issue)
  /-- DMA_WAIT (R260): DMA.WAIT blocks until the channel is idle and returns its status. -/
  | dmaWait (i : Issue)
  /-- DMA_POLL (R260): DMA.POLL returns the channel's status without blocking. -/
  | dmaPoll (i : Issue)
  /-- SEM_ACQ (R219): SEM.ACQ blocks the thread until the semaphore unit grants the semaphore to the drover. -/
  | semAcq (i : Issue)
  /-- SEM_TRY (R219): SEM.TRY tries to acquire a semaphore and returns the result at once. -/
  | semTry (i : Issue)
  /-- SEM_REL (R219): SEM.REL releases a semaphore the thread holds. -/
  | semRel (i : Issue)
  /-- FENCE (R242): FENCE completes when every earlier access of the thread is visible to every requester. -/
  | fence (i : Issue)
  /-- WDOG_KICK (R223): WDOG.KICK restarts the thread's watchdog period. -/
  | wdogKick (i : Issue)
  /-- EVT_RAISE (R242): EVT.RAISE sets DRV_EVT.sw after acting as FENCE. -/
  | evtRaise (i : Issue)
  /-- TRET (R261): TRET clears the trap-active flag and continues at the given offset. -/
  | tret (i : Issue)
  /-- BRK (R261): BRK raises fault BREAK. -/
  | brk (i : Issue)
  /-- RDID (R261): RDID writes 8 × drover number + thread. -/
  | rdid (i : Issue)
  /-- RDCYC (R261): RDCYC writes the drove clock cycle count. -/
  | rdcyc (i : Issue)
  /-- FAB_URESET (R282): A write of FAB_ISL_CTL.ureset asserts the island's global reset and ends stile messages cleanly. -/
  | fabUreset (inp : Fin 101) (i : Fin 64) (mid : BitVec 2)
  /-- URESET_RELEASE (R282): After 16 cycles of CL0 the user reset is released. -/
  | uresetRelease (i : Fin 64)
  /-- CLKSEL_WRITE (R280): A write of FAB_ISL_CLKSEL changes clock line sources without glitches. -/
  | clkselWrite (inp : Fin 101) (desc : Bool) (i : Fin 64) (v : BitVec 32)
  /-- FRAME_EGRESS (R297): A fabric output message FRAME_EGRESS sends a frame to an egress stream. -/
  | frameEgress (i : Fin 64) (k : Fin 2) (h : BitVec 512) (data : List Byte) (words : Nat)
  /-- FRAME_DROVER (R297): A fabric output message FRAME_DROVER sends a frame to a drover. -/
  | frameDrover (i : Fin 64) (k : Fin 2) (h : BitVec 512) (data : List Byte) (words : Nat) (err : Bool)
  /-- FRAME_FABRIC (R297): A fabric output message FRAME_FABRIC sends a frame to another fabric island. -/
  | frameFabric (i : Fin 64) (k : Fin 2) (h : BitVec 512) (data : List Byte) (words : Nat) (err : Bool)
  /-- STILE_MEM_READ (R298): A fabric output message MEM_READ reads drove memory or DDR4 and returns READ_DATA. -/
  | stileMemRead (i : Fin 64) (k : Fin 2) (h : BitVec 512) (ecc : Fin 3) (errs : List (Fin 72 × Byte))
  /-- STILE_MEM_WRITE (R298): A fabric output message MEM_WRITE writes drove memory or DDR4 and returns WRITE_ACK. -/
  | stileMemWrite (i : Fin 64) (k : Fin 2) (h : BitVec 512) (data : List Byte) (words : Nat)
  /-- MEM_ADD (R297): A fabric output message MEM_ADD adds saturating lanes into drove memory. -/
  | memAdd (i : Fin 64) (k : Fin 2) (h : BitVec 512) (data : List Byte) (words : Nat) (ecc : Fin 3)
  /-- FABRIC_FRAME_IN (R295): A frame message arrives on a fabric island input stile port. -/
  | fabricFrameIn (i : Fin 64) (k : Fin 2)
  /-- STILE_RESPONSE (R299): A response message arrives at a fabric island for an earlier request. -/
  | stileResponse (i : Fin 64) (k : Fin 2)
  /-- FAB_MGMT_REQUEST (R303): A fabric island's management request is served as arbitration input 96. -/
  | fabMgmtRequest (i : Fin 64) (write : Bool) (a : BitVec 21) (be : BitVec 8) (v : BitVec 64)
  /-- FAB_USER_EVENT (R449): A rising edge of an island's user event output sets its FAB_USER_EVT bit. -/
  | fabUserEvent (i : Fin 64)
  /-- LOAD_DONE (R332): A full configuration load ends; on OK FLOCK_DONE is released, otherwise frames are cleared. -/
  | loadDone (bad : Option Nat)
  /-- SLAVE_TIMEOUT (R329): No image byte arrives on a slave port for tmo_ms and the load ends TRUNCATED. -/
  | slaveTimeout
  /-- FLOCK_DONE_HIGH (R333): A device that has released FLOCK_DONE sees the line high. -/
  | flockDoneHigh
  /-- BELL_WAIT_EXPIRE (R333): The bellwether's bell_wait passes and it drives the pacing pulse. -/
  | bellWaitExpire
  /-- PACING_EDGE (R333): A device detects the falling pacing edge of FLOCK_DONE. -/
  | pacingEdge
  /-- STARTUP_PHASE (R334): Phase k of start-up takes place phase[k] cycles after the pacing edge. -/
  | startupPhase
  /-- RELOAD (R337): A write of CFG_CMD.reload halts drovers, unconfigures islands and starts a full load. -/
  | reload (inp : Fin 101) (desc : Bool) (src : BitVec 3)
  /-- STAGE (R339): CFG_PR_CMD op STAGE starts decrypting a partial image into a staging buffer. -/
  | stage (inp : Fin 101) (desc : Bool) (k : Fin 4) (nv : Bool) (addr : BitVec 38)
  /-- STAGE_DONE (R339): Staging ends STAGED or FAILED with its result. -/
  | stageDone (k : Fin 4) (bad : Option Nat)
  /-- APPLY (R340): CFG_PR_CMD op APPLY arms a staged slot to apply at at_time. -/
  | apply (inp : Fin 101) (desc : Bool) (k : Fin 4) (move : Bool) (target source : BitVec 6) (t : BitVec 96)
  /-- APPLY_START (R340): At at_time, or when the previous apply ends, an apply starts and makes its checks. -/
  | applyStart
  /-- APPLY_DONE (R343): An apply or move releases its island and raises PR_DONE, or fails. -/
  | applyDone (k : Fin 4) (freeze : BitVec 32) (bad : Bool)
  /-- RELEASE_SRC (R346): CFG_PR_CMD op RELEASE_SRC discards a HELD source's words, gates it and sets the slot DONE. -/
  | releaseSrc (inp : Fin 101) (k : Fin 4)
  /-- ABORT (R348): CFG_PR_CMD op ABORT ends a STAGING or WAITING slot with ABORTED. -/
  | abort (inp : Fin 101) (k : Fin 4)
  /-- CLEAR (R348): CFG_PR_CMD op CLEAR returns a DONE or FAILED slot to IDLE. -/
  | clear (inp : Fin 101) (k : Fin 4)
  /-- FRAME_READBACK (R349): CFG_RB_CMD kind FRAME reads back a configuration frame when permitted. -/
  | frameReadback (inp : Fin 101) (f : BitVec 18)
  /-- SNAP (R350): CFG_RB_CMD kind SNAP briefly stops an island and copies its flip-flop states. -/
  | snap (inp : Fin 101) (i : BitVec 6)
  /-- SNAP_READ (R350): CFG_RB_CMD kind SNAP_READ returns one chunk of the snapshot. -/
  | snapRead (inp : Fin 101) (c : BitVec 6)
  /-- SHEPHERD_FRAME_READ (R351): The Shepherd reads the next frame, corrects single-bit errors or flags the frame for reload or as fatal. -/
  | shepherdFrameRead (err : Fin 3)
  /-- SHEPHERD_RELOAD (R353): The Shepherd's NV read of a frame's copy returns and the frame is rewritten or declared fatal. -/
  | shepherdReload (f : NvFind)
  /-- NV_DATA_READ (R363): A data read of the NV aperture returns decoded data, or the status word when the bank is busy. -/
  | nvDataRead (inp : Fin 101) (a : BitVec 38) (len : Fin 65) (f : NvFind)
  /-- NV_FETCH (R363): An instruction fetch from the NV array returns data or stalls on a busy bank. -/
  | nvFetch (a : BitVec 38) (len : Fin 65) (f : NvFind) (handler : Bool)
  /-- NV_PREFIX (R366): A prefix sequence write advances an input's NV command sequence state. -/
  | nvPrefix (inp : Fin 101) (a : BitVec 38) (data : List Byte)
  /-- PROGRAM (R370): Command byte PROGRAM claims the bank's program buffer and fills it with 0xFF. -/
  | program (inp : Fin 101) (a : BitVec 38) (data : List Byte)
  /-- PROGRAM_DATA (R370): A data write fills the program buffer within one row. -/
  | programData (inp : Fin 101) (a : BitVec 38) (data : List Byte)
  /-- PROGRAM_CONFIRM (R371): The 0xD0 confirm starts programming the row, or is refused. -/
  | programConfirm (inp : Fin 101) (a : BitVec 38) (data : List Byte)
  /-- ERASE (R372): Command byte ERASE prepares a sector erase. -/
  | erase (inp : Fin 101) (a : BitVec 38) (data : List Byte)
  /-- ERASE_CONFIRM (R372): The 0xD0 confirm starts erasing the sector, or is refused. -/
  | eraseConfirm (inp : Fin 101) (a : BitVec 38) (data : List Byte)
  /-- READ_STATUS (R366): Command READ_STATUS makes the input's next read of the bank return the status word. -/
  | readStatus (inp : Fin 101) (a : BitVec 38) (data : List Byte)
  /-- MARGIN (R373): Command MARGIN sets the input's read mode for the bank. -/
  | margin (inp : Fin 101) (a : BitVec 38) (data : List Byte)
  /-- RESET (R368): A write of 0xF0 returns the input's NV sequence to IDLE and its read mode to normal. -/
  | reset (inp : Fin 101) (a : BitVec 38) (data : List Byte)
  /-- SEQ_TIMEOUT (R369): An input's sequence stands outside IDLE for seq_tmo_us and returns to IDLE with SEQ_ERR. -/
  | seqTimeout (inp : Fin 101)
  /-- NV_OP_END (R371): A program or erase ends, the bank clears busy and stalled reads resume. -/
  | nvOpEnd (b : Fin 4) (pulses : BitVec 4) (verified : Bool)
  /-- WP_CLR (R378): A write of NVC_WP_CLR clears protect bits. -/
  | wpClr (inp : Fin 101) (desc : Bool) (w : Fin 32) (v : BitVec 64)
  /-- BOOT_RECORD_UPDATE (R381): A write of NVC_BOOT_CMD.go starts writing a new boot record into the other area. -/
  | bootRecordUpdate (inp : Fin 101) (desc : Bool) (sel fb : BitVec 1)
  /-- BOOT_RECORD_DONE (R381): The boot record update ends OK or FAIL and NV_BOOTREC is raised. -/
  | bootRecordDone (ok : Bool)
  /-- WEAK_READ (R361): A read of NVC_WEAK returns and removes the oldest weak codeword. -/
  | weakRead (inp : Fin 101)
  /-- DDR_INIT (R390): A write of DDR_CTL.init freezes DDR_CFG and starts DDR4 start-up. -/
  | ddrInit (inp : Fin 101)
  /-- DDR_TRAIN_DONE (R392): DDR4 training ends; channels pass or enter FAILED. -/
  | ddrTrainDone (fails : List (Fin 12 × BitVec 3 × BitVec 1))
  /-- DDR_INIT_DONE (R390): Every DDR4 line is initialised, the ECC flag sets and patrol scrub starts. -/
  | ddrInitDone
  /-- DDR_RETRAIN (R392): A write of DDR_CTL.train repeats training and initialisation for failed channels. -/
  | ddrRetrain (inp : Fin 101)
  /-- DDR_ACCESS (R399): A DDR4 line access is performed, corrected, read-merged or reported uncorrectable. -/
  | ddrAccess (inp : Fin 101) (write : Bool) (addr : BitVec 38) (len : Fin 65) (data : List Byte) (errs : List (Fin 72 × Byte))
  /-- PATROL_SCRUB (R401): Patrol scrub reads the next line and writes back a correction. -/
  | patrolScrub (c : Fin 12) (errs : List (Fin 72 × Byte))
  /-- REFRESH (R403): A refresh falls due at tREFI and delays meeting accesses up to tRFC. -/
  | refresh (c : Fin 12)
  /-- SELF_REFRESH_ENTRY (R404): A channel idle for idle_us enters self-refresh. -/
  | selfRefreshEntry (c : Fin 12)
  /-- SELF_REFRESH_WAKE (R25): A channel's wake from self-refresh completes and the waiting access proceeds. -/
  | selfRefreshWake (c : Fin 12)
  /-- DISCOVERY_REQUEST (R409): A Sacon discovery request is answered with one reply, within the rate limit. -/
  | discoveryRequest (q : Fin 2) (n : Nat) (src : BitVec 128) (sport : BitVec 16) (magic : BitVec 32) (ver type : BitVec 8) (nonce : BitVec 64)
  /-- ARP_REQUEST (R408): An ARP request for a Sacon address is answered by the Sacon engine. -/
  | arpRequest (q : Fin 2) (spa tpa : BitVec 32)
  /-- NEIGHBOUR_SOLICITATION (R408): An IPv6 Neighbour Solicitation for a Sacon address is answered. -/
  | neighbourSolicitation (q : Fin 2) (src target : BitVec 128)
  /-- CM_REQ (R410): A connection REQ is accepted with a REP carrying keys, or rejected with a REJ code. -/
  | cmReq (q : Fin 2) (n : Nat) (src : BitVec 128) (mac : BitVec 48) (pd : BitVec 32) (mtu : BitVec 16) (rc : Bool) (peer psn : BitVec 24) (limit : BitVec 3)
  /-- CM_RTU (R410): An RTU completes a connection and the QP enters RTS. -/
  | cmRtu (q : Fin 2) (n : Nat) (c : Fin 2) (i : Fin 16)
  /-- CM_DREQ (R410): A DREQ disconnects a QP and is answered with DREP. -/
  | cmDreq (q : Fin 2) (n : Nat) (c : Fin 2) (i : Fin 16)
  /-- ACK_TIMEOUT (R412): A QP's ACK timeout passes; it retries or, when retries are exhausted, enters ERROR. -/
  | ackTimeout (c : Fin 2) (i : Fin 16) (made : BitVec 3)
  /-- NAK_RX (R412): A NAK arrives on a QP; a fatal NAK puts it in ERROR and stops its rings. -/
  | nakRx (q : Fin 2) (n : Nat) (c : Fin 2) (i : Fin 16) (fatal : Bool)
  /-- SEND_RX (R412): A SEND on a connected QP receives a NAK. -/
  | sendRx (q : Fin 2) (n : Nat) (c : Fin 2) (i : Fin 16)
  /-- DIRECT_RDMA_WRITE (R416): A direct RDMA WRITE under the setup key performs 8-byte register writes in order. -/
  | directRdmaWrite (q : Fin 2) (n : Nat) (c : Fin 2) (i : Fin 15) (key : BitVec 32) (va : BitVec 64) (l : List Byte)
  /-- DIRECT_RDMA_READ (R417): A direct RDMA READ performs 8-byte register reads in order. -/
  | directRdmaRead (q : Fin 2) (n : Nat) (c : Fin 2) (i : Fin 15) (key : BitVec 32) (va : BitVec 64) (len : BitVec 32)
  /-- CNP_RX (R414): A received CNP cuts the QP's rate. -/
  | cnpRx (q : Fin 2) (n : Nat) (c : Fin 2) (i : Fin 16)
  /-- RATE_TIMER (R414): Every timer_us a QP's congestion state decays and its rate recovers. -/
  | rateTimer (c : Fin 2) (i : Fin 16)
  /-- COMMAND_DOORBELL (R420): A command ring doorbell sets the tail and starts fetching, or stops the ring on overflow. -/
  | commandDoorbell (c : Fin 2) (r : Fin 8) (v : BitVec 32)
  /-- COMPLETION_DOORBELL (R422): A completion ring doorbell advances consumed or is dropped. -/
  | completionDoorbell (c : Fin 2) (r : Fin 8) (v : BitVec 32)
  /-- EVENT_DOORBELL (R422): An event ring doorbell advances consumed or is dropped. -/
  | eventDoorbell (c e : Fin 2) (v : BitVec 32)
  /-- HEARTBEAT (R437): A heartbeat doorbell restarts the controller's loss timer. -/
  | heartbeat (c : Fin 2) (v : BitVec 32)
  /-- HEARTBEAT_TIMEOUT (R437): No heartbeat arrives for hb_ms and the controller is lost. -/
  | heartbeatTimeout (c : Fin 2)
  /-- DESCRIPTOR_FETCH (R423): An RDMA READ of command descriptors returns and the descriptors wait to execute. -/
  | descriptorFetch (c : Fin 2) (r : Fin 8) (descs : List (BitVec 512)) (ok : Bool)
  /-- NOP (R426): Descriptor NOP completes with result 0. -/
  | nop (c : Fin 2) (r : Fin 8)
  /-- REG_READ (R426): Descriptor REG_READ reads a register. -/
  | regRead (c : Fin 2) (r : Fin 8)
  /-- REG_WRITE (R427): Descriptor REG_WRITE writes enabled bytes of a register through the block's command interface. -/
  | regWrite (c : Fin 2) (r : Fin 8)
  /-- REG_RMW (R427): Descriptor REG_RMW reads, masks and writes a register holding the window. -/
  | regRmw (c : Fin 2) (r : Fin 8)
  /-- REG_POLL (R427): Descriptor REG_POLL starts polling a register until it matches or times out. -/
  | regPoll (c : Fin 2) (r : Fin 8)
  /-- REG_POLL_READ (R427): Every 1 µs a polling descriptor reads its register and completes on a match or timeout. -/
  | regPollRead (c : Fin 2) (r : Fin 8)
  /-- MEM_READ (R428): Descriptor MEM_READ moves bytes from the device address space to host memory. -/
  | memRead (c : Fin 2) (r : Fin 8) (errs : List (List (Nat × Nat))) (find : List NvFind) (fail : Option Nat)
  /-- MEM_WRITE (R429): Descriptor MEM_WRITE moves bytes from host memory or inline data into the device address space. -/
  | memWrite (c : Fin 2) (r : Fin 8) (host : List Byte) (errs : List (List (Nat × Nat)))
  /-- ROUTE_INSERT (R430): Descriptor ROUTE_INSERT inserts a stream entry directly or as a salvo change. -/
  | routeInsert (c : Fin 2) (r : Fin 8) (img : Option (BitVec 512))
  /-- ROUTE_MODIFY (R430): Descriptor ROUTE_MODIFY modifies a stream entry directly or as a salvo change. -/
  | routeModify (c : Fin 2) (r : Fin 8) (img : Option (BitVec 512))
  /-- ROUTE_DELETE (R430): Descriptor ROUTE_DELETE deletes a stream entry directly or as a salvo change. -/
  | routeDelete (c : Fin 2) (r : Fin 8) (img : Option (BitVec 512))
  /-- ROUTE_LOOKUP (R430): Descriptor ROUTE_LOOKUP looks up a key and writes the stored entry to host memory. -/
  | routeLookup (c : Fin 2) (r : Fin 8) (key : Option (BitVec 320)) (ok : Bool)
  /-- CHAN_WRITE (R430): Descriptor CHAN_WRITE writes a channel entry directly or as a salvo change. -/
  | chanWrite (c : Fin 2) (r : Fin 8) (img : Option (BitVec 512))
  /-- CHAN_READ (R430): Descriptor CHAN_READ writes a stored channel entry to host memory. -/
  | chanRead (c : Fin 2) (r : Fin 8) (ok : Bool)
  /-- SALVO_OPEN (R141): Descriptor SALVO_OPEN takes the lowest FREE salvo slot. -/
  | salvoOpen (c : Fin 2) (r : Fin 8)
  /-- SALVO_ARM (R143): Descriptor SALVO_ARM fixes T_eff, arms the salvo and starts pre-warm. -/
  | salvoArm (c : Fin 2) (r : Fin 8)
  /-- SALVO_CANCEL (R147): Descriptor SALVO_CANCEL starts cancelling an OPEN salvo or an ARMED salvo before T_eff. -/
  | salvoCancel (c : Fin 2) (r : Fin 8)
  /-- SEM_ACQ_DESCRIPTOR (R439): Descriptor SEM_ACQ acquires a semaphore, waiting at the unit while it is held. -/
  | semAcqDescriptor (c : Fin 2) (r : Fin 8)
  /-- SEM_TRY_DESCRIPTOR (R438): Descriptor SEM_TRY tries to acquire a semaphore. -/
  | semTryDescriptor (c : Fin 2) (r : Fin 8)
  /-- SEM_REL_DESCRIPTOR (R438): Descriptor SEM_REL releases a semaphore and grants it to the highest waiter. -/
  | semRelDescriptor (c : Fin 2) (r : Fin 8)
  /-- SEM_ACQ_TIMEOUT (R439): A SEM_ACQ timeout passes, the acquire is withdrawn and it completes with TIMEOUT. -/
  | semAcqTimeout (c : Fin 2) (r : Fin 8)
  /-- WAIT_UNTIL (R431): Descriptor WAIT_UNTIL holds its ring until a Reckoning time. -/
  | waitUntil (c : Fin 2) (r : Fin 8)
  /-- WAIT_UNTIL_REACHED (R431): Reckoning time reaches a WAIT_UNTIL target and the descriptor completes. -/
  | waitUntilReached (c : Fin 2) (r : Fin 8)
  /-- RING_START (R425): SAC_RING_CTL.start resumes a ring at head. -/
  | ringStart (inp : Fin 101) (desc : Bool) (c : Fin 2) (r : BitVec 5)
  /-- RING_STOP (R425): SAC_RING_CTL.stop stops a ring after its current descriptor. -/
  | ringStop (inp : Fin 101) (desc : Bool) (c : Fin 2) (r : BitVec 5)
  /-- RING_RESET (R425): SAC_RING_CTL.reset zeroes a DISABLED or STOPPED ring's indices. -/
  | ringReset (inp : Fin 101) (desc : Bool) (c : Fin 2) (r : BitVec 5)
  /-- RING_LOCK (R434): A write of SYS_RING_LOCK.lock sets ring lock and raises RING_LOCKED. -/
  | ringLock (inp : Fin 101)
  /-- SEM_TRY_READ (R438): A read of SEM_TRY acquires the semaphore for the reading input when it is free. -/
  | semTryRead (inp : Fin 101) (sem : BitVec 8)
  /-- SEM_REL_WRITE (R438): A write of 1 to SEM_REL releases the semaphore. -/
  | semRelWrite (inp : Fin 101) (sem : BitVec 8)
  /-- SEM_FORCE (R442): A write of SEM_FORCE by inputs 97 to 100 releases a semaphore whatever its owner. -/
  | semForce (inp : Fin 101) (v : BitVec 32)
  /-- DEADLOCK_SEARCH (R440): Every 1 µs the semaphore unit searches the wait-for graph and logs or breaks new cycles. -/
  | deadlockSearch
  /-- EVENT_ACCEPT (R454): The event unit accepts one queued raise and delivers records to its destinations. -/
  | eventAccept
  /-- COALESCE_WINDOW_END (R455): A coalescing window ends and one record for held-back raises is delivered. -/
  | coalesceWindowEnd (src : Fin 320)
  /-- CAUSE_ENABLE_WRITE (R449): A write of an event enable register raises sources whose enable bits go from 0 to 1 with cause set. -/
  | causeEnableWrite (inp : Fin 101) (desc : Bool) (src : Fin 320) (be : BitVec 8) (v : BitVec 64)
  /-- POWER_ON_RESET_RELEASE (R465): Power-on reset is released, straps are sampled and start-up begins with the life-cycle check. -/
  | powerOnResetRelease (mode : BitVec 2) (bell pull : Bool) (cut : Option Nat)
  /-- POR_N_ASSERT (R464): POR_N goes low and the device enters OFF. -/
  | porNAssert
  /-- RAIL_WINDOW_EXIT (R463): A rail leaves its monitor window and RAIL_ALARM is raised. -/
  | railWindowExit (n : Fin 10)
  /-- RAIL_COLLAPSE (R463): A key rail stays below 85 % for 2 µs and the device enters OFF. -/
  | railCollapse (n : Fin 10)
  /-- NV_AWAKE (R465): The NV array wakes, the nv flag sets, the Herdsman starts and the boot pointer is read. -/
  | nvAwake
  /-- STARTUP_SELF_TEST (R567): After repair loading the self-test controller starts slices 0 to 10. -/
  | startupSelfTest
  /-- PWR_REQ_RUN (R476): PWR_CTL.req RUN in a low-power state or during entry is the wake REQ. -/
  | pwrReqRun (inp : Fin 101)
  /-- PWR_REQ_IDLE (R476): PWR_CTL.req IDLE starts entry to IDLE or is refused. -/
  | pwrReqIdle (inp : Fin 101)
  /-- PWR_REQ_DOZE (R476): PWR_CTL.req DOZE starts entry to DOZE or is refused. -/
  | pwrReqDoze (inp : Fin 101)
  /-- PWR_REQ_HIBERNATE (R476): PWR_CTL.req HIBERNATE starts entry to HIBERNATE or is refused. -/
  | pwrReqHibernate (inp : Fin 101)
  /-- ENTRY_CONTINUE (R477): A waiting entry resumes after an apply ends or no NV bank is busy and passes the point of no return. -/
  | entryContinue
  /-- WAKE_LATCH (R478): An enabled wake source is latched and aborts entry or starts exit. -/
  | wakeLatch
  /-- WAKE_N_LOW (R475): WAKE_N has been low for 1 µs and fires wake source WAKE_N. -/
  | wakeNLow
  /-- ALARM (R475): Reckoning time reaches PWR_WAKE_AT.at while armed and ALARM fires. -/
  | alarm
  /-- EXIT_RELOAD_DONE (R479): The exit reload of the running image ends and the start-up phases follow. -/
  | exitReloadDone (bad : Option Nat)
  /-- TEMPERATURE_SAMPLE (R482): The junction temperature is measured and THERM_WARN or THERM_CRIT may be raised. -/
  | temperatureSample (l : List (BitVec 8))
  /-- MEASUREMENT_UPDATE (R491): The Herdsman updates a periodic measurement and publishes it. -/
  | measurementUpdate (m : Measure)
  /-- HRD_RESTART (R486): A write of HRD_CTL.restart restarts the Herdsman cores from the chosen firmware slot. -/
  | hrdRestart (inp : Fin 101)
  /-- LOCKSTEP_MISMATCH (R486): The two Herdsman cores disagree, HRD_LOCKSTEP is raised and the Herdsman restarts. -/
  | lockstepMismatch
  /-- HRD_WATCHDOG_EXPIRE (R486): HRD_WDOG.period_ms passes without a kick and the Herdsman restarts. -/
  | hrdWatchdogExpire
  /-- HRD_WDOG_KICK (R486): A write of HRD_WDOG.kick by input 99 restarts the Herdsman watchdog. -/
  | hrdWdogKick (inp : Fin 101)
  /-- DVFS_DECISION (R496): At the end of each interval the DVFS loop steps island frequencies and trims under the power cap. -/
  | dvfsDecision
  /-- REQ_MHZ_WRITE (R494): A write of HRD_ISL_OP.req_mhz by input 99 requests a new island frequency and voltage. -/
  | reqMhzWrite (inp : Fin 101) (i : Fin 76) (mhz : BitVec 12)
  /-- DDR_REFRESH_DECISION (R497): Each second the firmware chooses the DDR4 refresh mode from the temperature estimate. -/
  | ddrRefreshDecision (mpr : BitVec 8)
  /-- ROUTE_CACHE_DECISION (R498): Each second the firmware sets or clears pin bits to meet the hit ratio target. -/
  | routeCacheDecision
  /-- HRD_PREWARM (R499): A write of HRD_CTL.prewarm, or exit from a low-power state, starts a pre-warm of pinned entries. -/
  | hrdPrewarm (inp : Fin 101)
  /-- HRD_PREWARM_STEP (R499): The Herdsman pre-warm loads the next pinned entry into the cache. -/
  | hrdPrewarmStep
  /-- LOAD_BALANCE (R500): Every 10 ms the firmware may start moving one sid between drovers of a group. -/
  | loadBalance (g : Fin 4) (u : List (BitVec 7)) (fr : List (BitVec 18 × Nat))
  /-- MIGRATION_TIMEOUT (R501): No frame boundary arrives within tmo_ms and the move is abandoned. -/
  | migrationTimeout (sid : BitVec 18)
  /-- RECAL_DECISION (R504): The firmware sets the calibration period and repeats a run after REPLICA_ALIGN. -/
  | recalDecision
  /-- TALLY_START (R514): VCC_TLY enters its window and the Tally checks its ROM, derives its key and commits a START record. -/
  | tallyStart (romOk : Bool)
  /-- ROM_CHECK (R515): Every 3,600 s the Tally checks its ROM and enters FAULT on failure. -/
  | romCheck (ok : Bool)
  /-- REPLICA_ALIGNED (R517): The Tally's replica becomes aligned after an unaligned span and a GAP record is created. -/
  | replicaAligned
  /-- AUDIO_TAP (R518): An AUDIO tap message supplies samples of an audio egress frame to the loudness measurement. -/
  | audioTap (q : Fin 2)
  /-- ACCT_TAP (R525): An ACCT tap message adds a frame to its tenant's service counts. -/
  | acctTap
  /-- PPS_TAP (R527): A PPS tap message adds an edge's time-interval error to the TIE statistics. -/
  | ppsTap
  /-- ACK (R533): Inbox kind ACK raises ack_seq. -/
  | ack
  /-- REPLAY (R533): Inbox kind REPLAY sets the replay window base. -/
  | replay
  /-- CONFIG (R534): Signed inbox kind CONFIG sets TLY_CFG and creates an AUDIT record. -/
  | config
  /-- PROG (R534): Signed inbox kind PROG sets a programme slot and restarts its integration. -/
  | prog
  /-- SEAL (R534): Signed inbox kind SEAL moves the Tally to SEALED. -/
  | seal
  /-- UNSEAL (R534): Signed inbox kind UNSEAL moves the Tally to OPEN. -/
  | unseal
  /-- RESTART_PROG (R534): Signed inbox kind RESTART_PROG restarts a programme's running integration. -/
  | restartProg
  /-- LOUDNESS_BLOCK (R521): At each 100 ms block boundary the Tally computes block and short-term loudness. -/
  | loudnessBlock (p : Fin 256)
  /-- LOUDNESS_RECORD (R523): Two seconds after a loudness period ends a LOUDNESS record is created per enabled programme. -/
  | loudnessRecord
  /-- SERVICE_RECORD (R526): Two seconds after a service period ends SERVICE records are created. -/
  | serviceRecord
  /-- TIE_RECORD (R527): At the end of each tie period a TIE record is created. -/
  | tieRecord
  /-- RECORD_COMMIT (R529): The Tally assigns seq, programs and verifies a record and publishes it. -/
  | recordCommit
  /-- NONCE (R548): LCS_CMD op NONCE generates a new nonce. -/
  | nonce (inp : Fin 101)
  /-- DEBUG (R549): LCS_CMD op DEBUG starts checking the buffered DEBUG certificate. -/
  | debug (inp : Fin 101)
  /-- TRANSITION (R549): LCS_CMD op TRANSITION starts checking the buffered TRANSITION certificate. -/
  | transition (inp : Fin 101)
  /-- CLOSE (R550): LCS_CMD op CLOSE closes the debug session. -/
  | close (inp : Fin 101)
  /-- CERT_CHECK_DONE (R549): A certificate check ends, opening a session or committing a transition record, or failing. -/
  | certCheckDone
  /-- LC_RESET (R541): Within 10 µs of a transition commit the device resets itself except island 101. -/
  | lcReset (mode : BitVec 2) (bell pull : Bool) (cut : Option Nat)
  /-- DEBUG_SESSION_EXPIRE (R550): A debug session reaches not_after or its dur_s elapses and it closes. -/
  | debugSessionExpire
  /-- NONCE_LAPSE (R548): A nonce lapses 600 s after generation. -/
  | nonceLapse
  /-- EXTEST (R554): JTAG EXTEST drives and samples the boundary scan register. -/
  | extest (cap v : Nat)
  /-- SAMPLE_PRELOAD (R554): JTAG SAMPLE/PRELOAD samples or preloads the boundary scan register. -/
  | samplePreload (cap v : Nat)
  /-- IDCODE (R554): JTAG IDCODE selects the 32-bit IDCODE register. -/
  | idcode
  /-- CLAMP (R554): JTAG CLAMP holds outputs and selects the bypass register. -/
  | clamp
  /-- HIGHZ (R554): JTAG HIGHZ places outputs in high impedance and selects bypass. -/
  | highz
  /-- LC_STATUS (R554): JTAG LC_STATUS returns LCS_STATE and the last life-cycle result. -/
  | lcStatus
  /-- NONCE_GET (R548): JTAG NONCE_GET generates and returns a new nonce at Capture-DR. -/
  | nonceGet
  /-- CERT_LOAD (R554): JTAG CERT_LOAD writes the certificate buffer and starts the check of its kind. -/
  | certLoad (cert : BitVec 4096)
  /-- LC_REQUEST (R538): JTAG LC_REQUEST requests a transition that needs no certificate. -/
  | lcRequest (target : BitVec 3)
  /-- DBG_ACCESS (R555): JTAG DBG_ACCESS performs one access as input 100 at Update-DR. -/
  | dbgAccess (v : BitVec 113) (errs : List (Nat × Nat)) (find : NvFind)
  /-- DBG_HALT (R554): JTAG DBG_HALT sends halt requests to the named drovers. -/
  | dbgHalt (v : BitVec 96)
  /-- DBG_CLOSE (R550): JTAG DBG_CLOSE closes the debug session. -/
  | dbgClose
  /-- WAKE (R475): JTAG WAKE fires wake source DEBUG. -/
  | wake
  /-- SCAN_ENTER (R574): JTAG SCAN_ENTER clears secrets when required and enters scan, or is refused. -/
  | scanEnter (clean : Bool)
  /-- TLY_READ (R513): JTAG TLY_READ reads 256 bytes of the Tally plane under TLY_VIEW. -/
  | tlyRead (off : BitVec 24)
  /-- OTP_WRITE (R545): JTAG OTP_WRITE burns vendor OTP bits in VENDOR_TEST. -/
  | otpWrite (first : BitVec 13) (n : BitVec 11) (data : BitVec 384)
  /-- COMPAT_UNLOCK (R553): JTAG COMPAT_UNLOCK with the D3220 word requests the COMPAT transition. -/
  | compatUnlock (word : BitVec 32)
  /-- BYPASS (R554): JTAG BYPASS, or any unlisted code, selects the 1-bit bypass register. -/
  | bypass (code : BitVec 8)
  /-- TRST (R579): TRST_N low resets the TAP and selects IDCODE. -/
  | trst
  /-- START (R561): BST_CMD op START starts a self-test slice, or refuses it with BUSY. -/
  | start (inp : Fin 101) (k : Fin 64)
  /-- STOP (R562): BST_CMD op STOP stops a slice at its next step boundary and it ends INCOMPLETE. -/
  | stop (inp : Fin 101) (k : Fin 64)
  /-- SAVE_REPAIR (R571): BST_CMD op SAVE_REPAIR starts writing the soft repairs into the other repair table area. -/
  | saveRepair (inp : Fin 101)
  /-- SAVE_REPAIR_DONE (R571): The repair table write ends OK or FAIL. -/
  | saveRepairDone (ok : Bool)
  /-- MACRO_TEST_DONE (R559): A macro's march ends, repairs may be applied and its result is decided. -/
  | macroTestDone (k : Fin 64) (g : Fin 29824) (steps : Nat) (fails : List (Fin 6 × Fin 1024 × BitVec 72)) (sigBad served : Bool)
  /-- SLICE_BUDGET_EXPIRE (R562): A slice's budget_us passes and it ends INCOMPLETE. -/
  | sliceBudgetExpire (k : Fin 64)
  /-- SLICE_RETRY (R565): retry_us after ABORTED_BY_SERVICE the slice starts again from its first macro. -/
  | sliceRetry (k : Fin 64)
  /-- FAIL_LOG_READ (R573): A read of BST_FAIL_LOG returns and removes the oldest fail entry. -/
  | failLogRead (inp : Fin 101) (u : Fin 2)
  /-- ANNOUNCE_TX (R62): At its logAnnounceInterval a master PTP port sends Announce carrying clockClass and the TIM_PTP_GM fields. -/
  | announceTx (p : Fin 2)
  /-- DELAY_REQ_TX (R60): At its logMinDelayReqInterval a slave PTP port sends Delay_Req, multicast or unicast to the master. -/
  | delayReqTx (p : Fin 2)
  /-- CFG_CLK_EDGE (R325): A rising edge of CFG_CLK with CFG_CS_N low delivers slave-port bytes to the input FIFO, handling sync, overflow and CFG_BUSY. -/
  | cfgClkEdge (data : BitVec 32) (drain : Nat) (checking : Bool)
  /-- ARB_STARVE (R444): An input's waiting request reaches SEM_ARB_THR arbiter cycles and ARB_STARVE is raised once for it. -/
  | arbStarve (r : Fin 3) (inp : Fin 101) (age : BitVec 32)
  /-- GRANARY_ECC_READ (R288): User logic reads an ECC-mode granary that holds a single or double-bit error, which is counted and GRANARY_ECC is raised. -/
  | granaryEccRead (i : Fin 64) (g : Fin 40) (two : Bool)
  /-- TALLY_POWER_LOSS (R529): VCC_TLY leaves its window, the Tally stops and records not yet committed are lost. -/
  | tallyPowerLoss
  /-- UNASSIGNED_ENCODING (R237): A drover thread issues a word with an unassigned major opcode, func or cond value, or a non-zero required-zero field, and takes fault ILLEGAL_OP. -/
  | unassignedEncoding (i : Issue)
  /-- BAD_OPCODE (R426): A command ring executes a descriptor whose opcode is not in Table 12-6, and it completes with status BAD_OPCODE. -/
  | badOpcode (c : Fin 2) (r : Fin 8)
  /-- INBOX_BAD_KIND (R533): The Tally takes an inbox message whose kind is not in Table 16-5 and refuses it with BAD_FORMAT. -/
  | inboxBadKind
deriving DecidableEq, Repr

end Sys2Proof
end

