-- ==== Sys2Proof/Decode.lean ====
section
/-! DEFINITION. The table of operations gives no row bits: a command is no word, and no word spells one. -/

namespace Sys2Proof

/-- The command that a word of the table spells: none, since no row has bits. -/
def decodeTableWord (_nbits _w : Nat) : Option Instr := none

end Sys2Proof
end

