-- ==== Sys2Proof/Config.lean ====
section
/-! DEFINITION. What the spec leaves open: constants without a body, so that no proof can see a value. -/

namespace Sys2Proof.Config

/-- A free value: the `n`-th drawn (log entry 4). -/
opaque freeValue : Nat → BitVec 512

/-- The rate correction the servo's proportional-integral loop reaches from a phase offset in beads, the
correction before, and the two gains, before the limits of R45 and R67: the spec names the loop and gives
no formula. -/
opaque servoOutput : Int → Int → Nat → Nat → Int

/-- The fused asymmetry of an island's time tree path, beads (Table 02-4 step 3). -/
opaque treeAsymmetry : Nat → Int

/-- The island that holds temperature sensor `k` (HRD_TEMP.island). -/
opaque sensorIsland : Nat → BitVec 7

/-- The length of the boundary scan register. -/
opaque boundaryLen : Nat

/-! The standard functions the spec names without defining: SHA-384, ECDSA P-384 verification (public key,
message, signature), AES-256 key unwrap (RFC 3394: key, wrapped key; none when the integrity check fails),
the AES-256-GCM tag (key, IV, additional data, ciphertext), the AES-256-GCM counter-mode keystream of a
16-byte block of a segment (key, IV, block index). -/

opaque sha384 : List Byte → BitVec 384
opaque ecdsaP384 : BitVec 768 → List Byte → BitVec 768 → Bool
opaque aesUnwrap : BitVec 256 → BitVec 320 → Option (BitVec 256)
opaque gcmTag : BitVec 256 → BitVec 96 → List Byte → List Byte → BitVec 128
opaque gcmStream : BitVec 256 → BitVec 96 → Nat → BitVec 128

/-! The Tally: the P-384 public key it derives from TLY_SEED (R514), its deterministic signature (seed,
digest; R528), the checksum, the identification and the version of its ROM (R508). -/

opaque tallyKey : BitVec 384 → BitVec 768
opaque tallySign : BitVec 384 → BitVec 384 → BitVec 768
opaque romSum : BitVec 384
opaque romId : BitVec 128
opaque romVersion : BitVec 32

/-! The measures of ITU-R BS.1770-4 and EBU Tech 3342, which the spec names without giving their filters: the
K-weighting filter over 4,800 samples (filter memory, samples; new memory, sum of squares), the loudness of a
mean energy over a number of samples in 0.01 LUFS, the integrated loudness of block energies, the loudness
range of short-term energies, the blocks that pass both gates, the true-peak of samples as a magnitude, and
its value in 0.01 dBTP. -/

opaque kFilter : Nat → List Int → Nat × Nat
opaque lufs : Nat → Nat → Option Int
opaque integrated : List Nat → Option Int
opaque loudRange : List Nat → Option Int
opaque gated : List Nat → Nat
opaque truePeak : List Int → Nat
opaque dbtp : Nat → Option Int

end Sys2Proof.Config
end

