-- ==== Sys2Proof/Machine/Bits.lean ====
section
/-! DEFINITION. Bit fields, sign extension, byte order: the helpers of every operation. -/

namespace Sys2Proof.Machine

/-- `w` ones. -/
def ones (w : Nat) : Nat := 2 ^ w - 1

/-- Bits [lo+w-1 : lo] of `v`. -/
def bits (v lo w : Nat) : Nat := v / 2 ^ lo % 2 ^ w

/-- `v` with bits [lo+w-1 : lo] replaced by the low `w` bits of `x`. -/
def putBits (v lo w x : Nat) : Nat :=
  v / 2 ^ (lo + w) * 2 ^ (lo + w) + x % 2 ^ w * 2 ^ lo + v % 2 ^ lo

/-- The two's-complement reading of the low `w` bits. -/
def toSigned (w v : Nat) : Int :=
  if v % 2 ^ w < 2 ^ (w - 1) then (v % 2 ^ w : Nat) else (v % 2 ^ w : Nat) - (2 ^ w : Nat)

/-- The low `w` bits of an integer in two's complement. -/
def ofSigned (w : Nat) (x : Int) : Nat := (x % (2 ^ w : Nat)).toNat

/-- `x` held to the range of a signed `w`-bit number. -/
def satSigned (w : Nat) (x : Int) : Int :=
  if x < -(2 ^ (w - 1) : Nat) then -(2 ^ (w - 1) : Nat)
  else if x > (2 ^ (w - 1) : Nat) - 1 then (2 ^ (w - 1) : Nat) - 1 else x

/-- `x` held to [lo, hi]. -/
def clampInt (lo hi x : Int) : Int := if x < lo then lo else if x > hi then hi else x

/-- A counter of `w` bits that holds at its maximum. -/
def satInc (w v n : Nat) : Nat := if v + n > ones w then ones w else v + n

/-- A counter of `w` bits that wraps. -/
def wrapInc (w v n : Nat) : Nat := (v + n) % 2 ^ w

/-- The `n` low bytes of `v`, byte 0 first (R9, little-endian). -/
def leBytes (n v : Nat) : List Byte :=
  match n with
  | 0 => []
  | n + 1 => BitVec.ofNat 8 v :: leBytes n (v / 256)

/-- The number little-endian bytes spell. -/
def ofLe (l : List Byte) : Nat :=
  match l with
  | [] => 0
  | b :: r => b.toNat + 256 * ofLe r

/-- The `n` low bytes of `v`, most significant first (network byte order). -/
def beBytes (n v : Nat) : List Byte := (leBytes n v).reverse

/-- The number network-order bytes spell. -/
def ofBe (l : List Byte) : Nat := ofLe l.reverse

/-- Ceiling division of integers by a positive number. -/
def ceilDiv (a : Int) (b : Nat) : Int := -((-a) / (b : Int))

/-- The numbers 0 … n-1 whose bit is set in `v`. -/
def setBitsOf (n v : Nat) : List Nat := (List.range n).filter fun i => v.testBit i

/-- `v` with bit `i` set. -/
def withBit (v i : Nat) : Nat := v ||| 2 ^ i

/-- `v` with bit `i` clear. -/
def withoutBit (v i : Nat) : Nat := if v.testBit i then v - 2 ^ i else v

/-- A Bool as a bit. -/
def bit (b : Bool) : Nat := if b then 1 else 0

/-- The bits `m` replaced by those of `v`. -/
def mix (w old m v : Nat) : Nat := (old &&& (ones w - m % 2 ^ w)) ||| (v &&& m % 2 ^ w)

end Sys2Proof.Machine
end

