-- ==== Sys2Proof/Machine/Regs.lean ====
section
/-! DEFINITION. The setup registers: one `Field` for each field of each register table of the spec
(position, width, access code, reset value, strides of its instances), and one `Register` for each
register table. Reserved bits (R10) have no field: they read zero and ignore writes. Where the Reset
column gives "fused", "strap", "boot", "OTP" or "Tally" the value here is the model's (log entry 3). -/

namespace Sys2Proof.Machine

/-- Register access codes, Table 00-6. -/
inductive Acc where
  | ro | rw | wo | w1c | w1s | rwl | rwt
deriving DecidableEq, Repr

/-- One field of a setup register: `pos` is the bit address (8 × byte address + low bit) of its
instance 0, `rst` the reset value as a function of the last instance index, `dims` the (stride in
bits, count) of each instance index, outermost first. -/
structure Field where
  pos : Nat
  width : Nat
  acc : Acc
  rst : Nat → Nat
  dims : List (Nat × Nat)

/-- One register table: the bit address of its instance 0, its width in bits, its instances, its fields. -/
structure Register where
  pos : Nat
  width : Nat
  dims : List (Nat × Nat)
  fields : List Field

/-- The sources whose default is C in Tables 13-1 and 13-2: event ring 0 of both controllers and the
Herdsman. -/
def evtDefaultC (n : Nat) : Nat :=
  if n < 40 then (if n ∈ [0, 2, 4, 5, 16, 17, 18, 25, 26, 27, 28, 29, 30] then 1 else 0)
  else if n < 104 then (if (n - 40) % 32 < 4 then 1 else 0)
  else if n < 152 then
    (if n ∈ [104, 105, 106, 109, 110, 111, 112, 113, 114, 120, 121, 122, 123, 124, 125, 127, 129]
      then 1 else 0)
  else if n < 255 then 1
  else if n ∈ [255, 258, 259, 260, 261, 262, 263, 302, 303, 308, 310, 314, 319] then 0
  else if n < 320 then 1 else 0

/-- The sources of Tables 13-1 and 13-2 that are not reserved: each has the Herdsman by default. -/
def evtDefaultH (n : Nat) : Nat :=
  if evtDefaultC n = 1 then 1
  else if n < 40 then (if n ∈ [1, 3, 19, 20, 21, 22, 23, 24] then 1 else 0)
  else if n < 104 then (if (n - 40) % 32 < 10 then 1 else 0)
  else if n ∈ [107, 108, 126, 128, 255, 308, 310, 314] then 1 else 0

namespace R

/-- SYS_ID.device -/ def SYS_ID_device : Field := ⟨0x0, 16, .ro, fun _ => 38464, []⟩
/-- SYS_ID.family -/ def SYS_ID_family : Field := ⟨0x10, 16, .ro, fun _ => 17625, []⟩
/-- SYS_ID.rev -/ def SYS_ID_rev : Field := ⟨0x20, 4, .ro, fun _ => 0, []⟩
/-- SYS_ID.grade -/ def SYS_ID_grade : Field := ⟨0x24, 4, .ro, fun _ => 2, []⟩
/-- SYS_ID.temp -/ def SYS_ID_temp : Field := ⟨0x28, 1, .ro, fun _ => 0, []⟩
/-- SYS_UID.uid -/ def SYS_UID_uid : Field := ⟨0x80, 128, .ro, fun _ => 0, []⟩
/-- SYS_STILE_TMO.tmo_ns -/ def SYS_STILE_TMO_tmo_ns : Field := ⟨0x100, 20, .rwl, fun _ => 1000, []⟩
/-- SYS_STILE_TMO_LOG.island -/ def SYS_STILE_TMO_LOG_island : Field := ⟨0x120, 7, .ro, fun _ => 0, []⟩
/-- SYS_STILE_TMO_LOG.valid -/ def SYS_STILE_TMO_LOG_valid : Field := ⟨0x127, 1, .w1c, fun _ => 0, []⟩
/-- SYS_STILE_TMO_LOG.count -/ def SYS_STILE_TMO_LOG_count : Field := ⟨0x128, 16, .ro, fun _ => 0, []⟩
/-- TIM_NOW.now -/ def TIM_NOW_now : Field := ⟨0x80000, 96, .ro, fun _ => 0, []⟩
/-- TIM_STATUS.cal_done -/ def TIM_STATUS_cal_done : Field := ⟨0x80080, 1, .ro, fun _ => 0, []⟩
/-- TIM_STATUS.servo -/ def TIM_STATUS_servo : Field := ⟨0x80081, 3, .ro, fun _ => 0, []⟩
/-- TIM_STATUS.step_count -/ def TIM_STATUS_step_count : Field := ⟨0x80088, 24, .ro, fun _ => 0, []⟩
/-- TIM_FREQ_ADJ.adj -/ def TIM_FREQ_ADJ_adj : Field := ⟨0x80100, 36, .rwl, fun _ => 0, []⟩
/-- TIM_STEP.ofs -/ def TIM_STEP_ofs : Field := ⟨0x80180, 64, .wo, fun _ => 0, []⟩
/-- TIM_SET.value -/ def TIM_SET_value : Field := ⟨0x80200, 96, .rwl, fun _ => 0, []⟩
/-- TIM_SET.go -/ def TIM_SET_go : Field := ⟨0x80260, 1, .wo, fun _ => 0, []⟩
/-- TIM_CLK_CFG.role -/ def TIM_CLK_CFG_role : Field := ⟨0x80400, 2, .rwl, fun _ => 0, []⟩
/-- TIM_CLK_CFG.slave_only -/ def TIM_CLK_CFG_slave_only : Field := ⟨0x80402, 1, .rwl, fun _ => 0, []⟩
/-- TIM_CLK_CFG.oc_port -/ def TIM_CLK_CFG_oc_port : Field := ⟨0x80403, 1, .rwl, fun _ => 0, []⟩
/-- TIM_SERVO_CFG.src -/ def TIM_SERVO_CFG_src : Field := ⟨0x80800, 2, .rwl, fun _ => 0, []⟩
/-- TIM_SERVO_CFG.lock_ns -/ def TIM_SERVO_CFG_lock_ns : Field := ⟨0x80802, 14, .rwl, fun _ => 100, []⟩
/-- TIM_SERVO_CFG.step_ns -/ def TIM_SERVO_CFG_step_ns : Field := ⟨0x80810, 24, .rwl, fun _ => 1000, []⟩
/-- TIM_SERVO_CFG.slew_ppm -/ def TIM_SERVO_CFG_slew_ppm : Field := ⟨0x80828, 8, .rwl, fun _ => 50, []⟩
/-- TIM_SERVO_KP.gain -/ def TIM_SERVO_KP_gain : Field := ⟨0x80840, 32, .rw, fun _ => 0x4000, []⟩
/-- TIM_SERVO_KI.gain -/ def TIM_SERVO_KI_gain : Field := ⟨0x80860, 32, .rw, fun _ => 0x400, []⟩
/-- TIM_SERVO_STAT.offset -/ def TIM_SERVO_STAT_offset : Field := ⟨0x80880, 48, .ro, fun _ => 0, []⟩
/-- TIM_SERVO_STAT.samples -/ def TIM_SERVO_STAT_samples : Field := ⟨0x808B0, 16, .ro, fun _ => 0, []⟩
/-- TIM_HOLD_CFG.avg_s -/ def TIM_HOLD_CFG_avg_s : Field := ⟨0x80900, 12, .rwl, fun _ => 60, []⟩
/-- TIM_HOLD_CFG.spec_s -/ def TIM_HOLD_CFG_spec_s : Field := ⟨0x8090C, 20, .rwl, fun _ => 3600, []⟩
/-- TIM_PTP_CFG.en -/ def TIM_PTP_CFG_en : Field := ⟨0x81000, 1, .rwl, fun _ => 0, [(512, 2)]⟩
/-- TIM_PTP_CFG.subport -/ def TIM_PTP_CFG_subport : Field := ⟨0x81001, 2, .rwl, fun _ => 0, [(512, 2)]⟩
/-- TIM_PTP_CFG.ipv6 -/ def TIM_PTP_CFG_ipv6 : Field := ⟨0x81003, 1, .rwl, fun _ => 0, [(512, 2)]⟩
/-- TIM_PTP_CFG.one_step -/ def TIM_PTP_CFG_one_step : Field := ⟨0x81004, 1, .rwl, fun _ => 0, [(512, 2)]⟩
/-- TIM_PTP_CFG.dreq_ucast -/ def TIM_PTP_CFG_dreq_ucast : Field := ⟨0x81005, 1, .rwl, fun _ => 0, [(512, 2)]⟩
/-- TIM_PTP_CFG.domain -/ def TIM_PTP_CFG_domain : Field := ⟨0x81006, 7, .rwl, fun _ => 127, [(512, 2)]⟩
/-- TIM_PTP_CFG.sync_log -/ def TIM_PTP_CFG_sync_log : Field := ⟨0x8100D, 4, .rw, fun _ => 13, [(512, 2)]⟩
/-- TIM_PTP_CFG.ann_log -/ def TIM_PTP_CFG_ann_log : Field := ⟨0x81011, 4, .rwl, fun _ => 14, [(512, 2)]⟩
/-- TIM_PTP_CFG.dreq_log -/ def TIM_PTP_CFG_dreq_log : Field := ⟨0x81015, 4, .rw, fun _ => 13, [(512, 2)]⟩
/-- TIM_PTP_CFG.ann_tmo -/ def TIM_PTP_CFG_ann_tmo : Field := ⟨0x81019, 4, .rwl, fun _ => 3, [(512, 2)]⟩
/-- TIM_PTP_CFG.prio1 -/ def TIM_PTP_CFG_prio1 : Field := ⟨0x8101D, 8, .rwl, fun _ => 128, [(512, 2)]⟩
/-- TIM_PTP_CFG.prio2 -/ def TIM_PTP_CFG_prio2 : Field := ⟨0x81025, 8, .rwl, fun _ => 128, [(512, 2)]⟩
/-- TIM_PTP_STAT.state -/ def TIM_PTP_STAT_state : Field := ⟨0x81040, 4, .ro, fun _ => 0, [(512, 2)]⟩
/-- TIM_PTP_STAT.ignored -/ def TIM_PTP_STAT_ignored : Field := ⟨0x81044, 28, .ro, fun _ => 0, [(512, 2)]⟩
/-- TIM_PTP_GM.utc_ofs -/ def TIM_PTP_GM_utc_ofs : Field := ⟨0x81400, 16, .rw, fun _ => 37, []⟩
/-- TIM_PTP_GM.leap59 -/ def TIM_PTP_GM_leap59 : Field := ⟨0x81410, 1, .rw, fun _ => 0, []⟩
/-- TIM_PTP_GM.leap61 -/ def TIM_PTP_GM_leap61 : Field := ⟨0x81411, 1, .rw, fun _ => 0, []⟩
/-- TIM_PTP_GM.tlv_log -/ def TIM_PTP_GM_tlv_log : Field := ⟨0x81412, 4, .rwl, fun _ => 0, []⟩
/-- TIM_SMPTE_TLV.tlv -/ def TIM_SMPTE_TLV_tlv : Field := ⟨0x81600, 512, .rw, fun _ => 0, []⟩
/-- TIM_PDLY_RX.dly -/ def TIM_PDLY_RX_dly : Field := ⟨0x81800, 32, .rwl, fun _ => 0, [(256, 2)]⟩
/-- TIM_PDLY_TX.dly -/ def TIM_PDLY_TX_dly : Field := ⟨0x81820, 32, .rwl, fun _ => 0, [(256, 2)]⟩
/-- TIM_PORT_STAT.ts_valid -/ def TIM_PORT_STAT_ts_valid : Field := ⟨0x81840, 4, .ro, fun _ => 0, [(256, 2)]⟩
/-- TIM_CAL_CFG.period_s -/ def TIM_CAL_CFG_period_s : Field := ⟨0x82000, 16, .rw, fun _ => 10, []⟩
/-- TIM_CAL_CFG.temp_c -/ def TIM_CAL_CFG_temp_c : Field := ⟨0x82010, 8, .rw, fun _ => 5, []⟩
/-- TIM_CAL_STAT.island -/ def TIM_CAL_STAT_island : Field := ⟨0x82020, 7, .ro, fun _ => 0, []⟩
/-- TIM_CAL_STAT.alarm -/ def TIM_CAL_STAT_alarm : Field := ⟨0x82027, 1, .w1c, fun _ => 0, []⟩
/-- TIM_CAL_STAT.runs -/ def TIM_CAL_STAT_runs : Field := ⟨0x82028, 24, .ro, fun _ => 0, []⟩
/-- TIM_REPL_ERR.err -/ def TIM_REPL_ERR_err : Field := ⟨0x84000, 32, .ro, fun _ => 0, [(32, 112)]⟩
/-- TIM_SIN_CFG.mode -/ def TIM_SIN_CFG_mode : Field := ⟨0x85000, 2, .rwl, fun _ => 0, [(256, 4)]⟩
/-- TIM_SIN_CFG.fall -/ def TIM_SIN_CFG_fall : Field := ⟨0x85002, 1, .rwl, fun _ => 0, [(256, 4)]⟩
/-- TIM_SIN_CFG.ovf -/ def TIM_SIN_CFG_ovf : Field := ⟨0x85020, 16, .ro, fun _ => 0, [(256, 4)]⟩
/-- TIM_SIN_CFG.rej -/ def TIM_SIN_CFG_rej : Field := ⟨0x85030, 16, .ro, fun _ => 0, [(256, 4)]⟩
/-- TIM_SIN_DLY.dly -/ def TIM_SIN_DLY_dly : Field := ⟨0x85040, 32, .rwl, fun _ => 0, [(256, 4)]⟩
/-- TIM_SIN_TS.ts -/ def TIM_SIN_TS_ts : Field := ⟨0x85080, 96, .ro, fun _ => 0, [(256, 4)]⟩
/-- TIM_SIN_TS.valid -/ def TIM_SIN_TS_valid : Field := ⟨0x850E0, 1, .ro, fun _ => 0, [(256, 4)]⟩
/-- TIM_SIN0_TOD.sec -/ def TIM_SIN0_TOD_sec : Field := ⟨0x85400, 48, .rw, fun _ => 0, []⟩
/-- TIM_SOUT_CFG.mode -/ def TIM_SOUT_CFG_mode : Field := ⟨0x86000, 2, .rwl, fun _ => 0, [(512, 8)]⟩
/-- TIM_SOUT_CFG.inv -/ def TIM_SOUT_CFG_inv : Field := ⟨0x86002, 1, .rwl, fun _ => 0, [(512, 8)]⟩
/-- TIM_SOUT_CFG.commit -/ def TIM_SOUT_CFG_commit : Field := ⟨0x86003, 1, .wo, fun _ => 0, [(512, 8)]⟩
/-- TIM_SOUT_CFG.bad -/ def TIM_SOUT_CFG_bad : Field := ⟨0x86004, 1, .w1c, fun _ => 0, [(512, 8)]⟩
/-- TIM_SOUT_CFG.dly -/ def TIM_SOUT_CFG_dly : Field := ⟨0x86020, 32, .rwl, fun _ => 0, [(512, 8)]⟩
/-- TIM_SOUT_NUM.val -/ def TIM_SOUT_NUM_val : Field := ⟨0x86040, 32, .rwl, fun _ => 1, [(512, 8)]⟩
/-- TIM_SOUT_DEN.val -/ def TIM_SOUT_DEN_val : Field := ⟨0x86060, 32, .rwl, fun _ => 1, [(512, 8)]⟩
/-- TIM_SOUT_WIDTH.ns -/ def TIM_SOUT_WIDTH_ns : Field := ⟨0x86080, 32, .rwl, fun _ => 100000, [(512, 8)]⟩
/-- TIM_SOUT_PHASE.ofs -/ def TIM_SOUT_PHASE_ofs : Field := ⟨0x860C0, 64, .rwl, fun _ => 0, [(512, 8)]⟩
/-- PRT_CFG.mode -/ def PRT_CFG_mode : Field := ⟨0x100000, 3, .rwl, fun _ => 0, [(524288, 2)]⟩
/-- PRT_CFG.en -/ def PRT_CFG_en : Field := ⟨0x100003, 4, .rwl, fun _ => 0, [(524288, 2)]⟩
/-- PRT_CFG.max_len -/ def PRT_CFG_max_len : Field := ⟨0x100007, 14, .rwl, fun _ => 9600, [(524288, 2)]⟩
/-- PRT_CFG.untag_pri -/ def PRT_CFG_untag_pri : Field := ⟨0x100015, 3, .rwl, fun _ => 0, [(524288, 2)]⟩
/-- PRT_CFG.promisc -/ def PRT_CFG_promisc : Field := ⟨0x100018, 1, .rwl, fun _ => 0, [(524288, 2)]⟩
/-- PRT_LANE_MAP.tx_map -/ def PRT_LANE_MAP_tx_map : Field := ⟨0x100040, 24, .rwl, fun _ => 16434824, [(524288, 2)]⟩
/-- PRT_LANE_MAP.rx_map -/ def PRT_LANE_MAP_rx_map : Field := ⟨0x100058, 24, .rwl, fun _ => 16434824, [(524288, 2)]⟩
/-- PRT_LANE_MAP.tx_inv -/ def PRT_LANE_MAP_tx_inv : Field := ⟨0x100070, 8, .rwl, fun _ => 0, [(524288, 2)]⟩
/-- PRT_LANE_MAP.rx_inv -/ def PRT_LANE_MAP_rx_inv : Field := ⟨0x100078, 8, .rwl, fun _ => 0, [(524288, 2)]⟩
/-- PRT_STATUS.link -/ def PRT_STATUS_link : Field := ⟨0x100080, 4, .ro, fun _ => 0, [(524288, 2)]⟩
/-- PRT_STATUS.pcs_lock -/ def PRT_STATUS_pcs_lock : Field := ⟨0x100084, 4, .ro, fun _ => 0, [(524288, 2)]⟩
/-- PRT_STATUS.fec_lock -/ def PRT_STATUS_fec_lock : Field := ⟨0x100088, 4, .ro, fun _ => 0, [(524288, 2)]⟩
/-- PRT_STATUS.lfault -/ def PRT_STATUS_lfault : Field := ⟨0x10008C, 4, .ro, fun _ => 0, [(524288, 2)]⟩
/-- PRT_STATUS.rfault -/ def PRT_STATUS_rfault : Field := ⟨0x100090, 4, .ro, fun _ => 0, [(524288, 2)]⟩
/-- PRT_STATUS.buf_cfg_err -/ def PRT_STATUS_buf_cfg_err : Field := ⟨0x100094, 1, .w1c, fun _ => 0, [(524288, 2)]⟩
/-- PRT_STATUS.map_err -/ def PRT_STATUS_map_err : Field := ⟨0x100095, 1, .w1c, fun _ => 0, [(524288, 2)]⟩
/-- PRT_MAC_ADDR.addr -/ def PRT_MAC_ADDR_addr : Field := ⟨0x100100, 48, .rwl, fun _ => 0, [(524288, 2), (64, 4)]⟩
/-- PRT_PFC_CFG.tx_en -/ def PRT_PFC_CFG_tx_en : Field := ⟨0x100200, 8, .rwl, fun _ => 128, [(524288, 2)]⟩
/-- PRT_PFC_CFG.rx_en -/ def PRT_PFC_CFG_rx_en : Field := ⟨0x100208, 8, .rwl, fun _ => 255, [(524288, 2)]⟩
/-- PRT_PFC_CFG.quanta -/ def PRT_PFC_CFG_quanta : Field := ⟨0x100210, 16, .rwl, fun _ => 65535, [(524288, 2)]⟩
/-- PRT_BUF_LIM.min -/ def PRT_BUF_LIM_min : Field := ⟨0x100400, 17, .rwl, fun _ => 1024, [(524288, 2), (128, 8)]⟩
/-- PRT_BUF_LIM.max -/ def PRT_BUF_LIM_max : Field := ⟨0x100420, 17, .rwl, fun p => if p < 7 then 98304 else 1024, [(524288, 2), (128, 8)]⟩
/-- PRT_BUF_PFC.xoff -/ def PRT_BUF_PFC_xoff : Field := ⟨0x100440, 17, .rwl, fun p => if p < 7 then 96000 else 768, [(524288, 2), (128, 8)]⟩
/-- PRT_BUF_PFC.xon -/ def PRT_BUF_PFC_xon : Field := ⟨0x100460, 17, .rwl, fun p => if p < 7 then 94000 else 512, [(524288, 2), (128, 8)]⟩
/-- PRT_BUF_OCC.cells -/ def PRT_BUF_OCC_cells : Field := ⟨0x100C00, 17, .ro, fun _ => 0, [(524288, 2), (64, 8)]⟩
/-- PRT_BUF_OCC.peak -/ def PRT_BUF_OCC_peak : Field := ⟨0x100C20, 17, .rw, fun _ => 0, [(524288, 2), (64, 8)]⟩
/-- PRT_EGR_WRR.w -/ def PRT_EGR_WRR_w : Field := ⟨0x101000, 56, .rw, fun _ => 282578800148737, [(524288, 2)]⟩
/-- PRT_P7_RATE.mbps -/ def PRT_P7_RATE_mbps : Field := ⟨0x101040, 20, .rwl, fun _ => 0, [(524288, 2)]⟩
/-- PRT_P7_RATE.burst -/ def PRT_P7_RATE_burst : Field := ⟨0x101054, 16, .rwl, fun _ => 16384, [(524288, 2)]⟩
/-- PRT_HALT_STATE.egr_stop -/ def PRT_HALT_STATE_egr_stop : Field := ⟨0x101800, 4, .w1c, fun _ => 0, [(524288, 2)]⟩
/-- PRT_HALT_STATE.ingr_drop -/ def PRT_HALT_STATE_ingr_drop : Field := ⟨0x101804, 4, .w1c, fun _ => 0, [(524288, 2)]⟩
/-- PRT_HALT_QP.qpn -/ def PRT_HALT_QP_qpn : Field := ⟨0x101880, 24, .ro, fun _ => 0, [(524288, 2), (128, 2)]⟩
/-- PRT_HALT_QP.peer_qpn -/ def PRT_HALT_QP_peer_qpn : Field := ⟨0x101898, 24, .ro, fun _ => 0, [(524288, 2), (128, 2)]⟩
/-- PRT_HALT_QP.epsn -/ def PRT_HALT_QP_epsn : Field := ⟨0x1018B0, 24, .ro, fun _ => 0, [(524288, 2), (128, 2)]⟩
/-- PRT_HALT_QP.valid -/ def PRT_HALT_QP_valid : Field := ⟨0x1018C8, 1, .ro, fun _ => 0, [(524288, 2), (128, 2)]⟩
/-- PRT_HALT_LOG.time -/ def PRT_HALT_LOG_time : Field := ⟨0x101A00, 96, .ro, fun _ => 0, [(524288, 2)]⟩
/-- PRT_HALT_LOG.seq -/ def PRT_HALT_LOG_seq : Field := ⟨0x101A60, 32, .ro, fun _ => 0, [(524288, 2)]⟩
/-- PRT_HALT_LOG.action -/ def PRT_HALT_LOG_action : Field := ⟨0x101A80, 8, .ro, fun _ => 0, [(524288, 2)]⟩
/-- PRT_HALT_LOG.ctrl -/ def PRT_HALT_LOG_ctrl : Field := ⟨0x101A88, 1, .ro, fun _ => 0, [(524288, 2)]⟩
/-- PRT_HALT_LOG.result -/ def PRT_HALT_LOG_result : Field := ⟨0x101A89, 3, .ro, fun _ => 0, [(524288, 2)]⟩
/-- PRT_HALT_CNT.accepted -/ def PRT_HALT_CNT_accepted : Field := ⟨0x101B00, 32, .ro, fun _ => 0, [(524288, 2)]⟩
/-- PRT_HALT_CNT.rejected -/ def PRT_HALT_CNT_rejected : Field := ⟨0x101B20, 32, .ro, fun _ => 0, [(524288, 2)]⟩
/-- PRT_DROP_PRI.count -/ def PRT_DROP_PRI_count : Field := ⟨0x102000, 64, .ro, fun _ => 0, [(524288, 2), (64, 8)]⟩
/-- PRT_CNT.count -/ def PRT_CNT_count : Field := ⟨0x108000, 64, .ro, fun _ => 0, [(524288, 2), (4096, 4), (64, 35)]⟩
/-- RTE_CFG.en -/ def RTE_CFG_en : Field := ⟨0x200000, 1, .rwl, fun _ => 0, []⟩
/-- RTE_CFG.hash_log -/ def RTE_CFG_hash_log : Field := ⟨0x200001, 5, .rwl, fun _ => 17, []⟩
/-- RTE_CTL.clear -/ def RTE_CTL_clear : Field := ⟨0x200020, 1, .wo, fun _ => 0, []⟩
/-- RTE_STATUS.active -/ def RTE_STATUS_active : Field := ⟨0x200040, 1, .ro, fun _ => 0, []⟩
/-- RTE_STATUS.clearing -/ def RTE_STATUS_clearing : Field := ⟨0x200041, 1, .ro, fun _ => 0, []⟩
/-- RTE_STATUS.en_refused -/ def RTE_STATUS_en_refused : Field := ⟨0x200042, 1, .w1c, fun _ => 0, []⟩
/-- RTE_STATUS.streams -/ def RTE_STATUS_streams : Field := ⟨0x200043, 19, .ro, fun _ => 0, []⟩
/-- RTE_KEY_CFG.no_src -/ def RTE_KEY_CFG_no_src : Field := ⟨0x200100, 1, .rwl, fun _ => 0, [(32, 2)]⟩
/-- RTE_KEY_CFG.no_port -/ def RTE_KEY_CFG_no_port : Field := ⟨0x200101, 1, .rwl, fun _ => 0, [(32, 2)]⟩
/-- RTE_KEY_CFG.no_vid -/ def RTE_KEY_CFG_no_vid : Field := ⟨0x200102, 1, .rwl, fun _ => 0, [(32, 2)]⟩
/-- RTE_KEY_CFG.no_sport -/ def RTE_KEY_CFG_no_sport : Field := ⟨0x200103, 1, .rwl, fun _ => 0, [(32, 2)]⟩
/-- RTE_DEFAULT.kind -/ def RTE_DEFAULT_kind : Field := ⟨0x200200, 4, .rwl, fun _ => 0, [(64, 5)]⟩
/-- RTE_DEFAULT.id -/ def RTE_DEFAULT_id : Field := ⟨0x200204, 8, .rwl, fun _ => 0, [(64, 5)]⟩
/-- RTE_DEFAULT.stile -/ def RTE_DEFAULT_stile : Field := ⟨0x20020C, 1, .rwl, fun _ => 0, [(64, 5)]⟩
/-- RTE_DEFAULT.rx_ctx -/ def RTE_DEFAULT_rx_ctx : Field := ⟨0x200220, 16, .rwl, fun _ => 0, [(64, 5)]⟩
/-- RTE_CACHE_CFG.pin_ways -/ def RTE_CACHE_CFG_pin_ways : Field := ⟨0x200400, 4, .rwl, fun _ => 8, []⟩
/-- RTE_CACHE_CFG.prewarm_mps -/ def RTE_CACHE_CFG_prewarm_mps : Field := ⟨0x200404, 7, .rwl, fun _ => 100, []⟩
/-- RTE_MISS_LIM.level -/ def RTE_MISS_LIM_level : Field := ⟨0x200800, 17, .rwl, fun p => 16384 + 8192 * p, [(32, 7)]⟩
/-- RTE_MISS_STORM.on -/ def RTE_MISS_STORM_on : Field := ⟨0x200900, 17, .rwl, fun _ => 32768, []⟩
/-- RTE_MISS_STORM.off -/ def RTE_MISS_STORM_off : Field := ⟨0x200920, 17, .rwl, fun _ => 16384, []⟩
/-- RTE_MISS_OCC.frames -/ def RTE_MISS_OCC_frames : Field := ⟨0x200A00, 17, .ro, fun _ => 0, [(64, 2)]⟩
/-- RTE_MISS_OCC.peak -/ def RTE_MISS_OCC_peak : Field := ⟨0x200A20, 17, .rw, fun _ => 0, [(64, 2)]⟩
/-- RTE_LEARN.en -/ def RTE_LEARN_en : Field := ⟨0x201000, 2, .rwl, fun _ => 0, []⟩
/-- RTE_LEARN.kind -/ def RTE_LEARN_kind : Field := ⟨0x201002, 4, .rwl, fun _ => 0, []⟩
/-- RTE_LEARN.id -/ def RTE_LEARN_id : Field := ⟨0x201006, 8, .rwl, fun _ => 0, []⟩
/-- RTE_LEARN.stile -/ def RTE_LEARN_stile : Field := ⟨0x20100E, 1, .rwl, fun _ => 0, []⟩
/-- RTE_LEARN.sid_base -/ def RTE_LEARN_sid_base : Field := ⟨0x20100F, 18, .rwl, fun _ => 0, []⟩
/-- RTE_LEARN.sid_count -/ def RTE_LEARN_sid_count : Field := ⟨0x201021, 18, .rwl, fun _ => 0, []⟩
/-- RTE_LEARN.rate -/ def RTE_LEARN_rate : Field := ⟨0x201033, 13, .rwl, fun _ => 1000, []⟩
/-- RTE_LEARN_LOG.key -/ def RTE_LEARN_LOG_key : Field := ⟨0x201040, 320, .ro, fun _ => 0, []⟩
/-- RTE_LEARN_LOG.index -/ def RTE_LEARN_LOG_index : Field := ⟨0x201180, 24, .ro, fun _ => 0, []⟩
/-- RTE_LEARN_LOG.valid -/ def RTE_LEARN_LOG_valid : Field := ⟨0x201198, 1, .ro, fun _ => 0, []⟩
/-- RTE_AGE.period_s -/ def RTE_AGE_period_s : Field := ⟨0x201280, 16, .rwl, fun _ => 300, []⟩
/-- RTE_SALVO_CFG.late_us -/ def RTE_SALVO_CFG_late_us : Field := ⟨0x201800, 16, .rwl, fun _ => 1000, []⟩
/-- RTE_SALVO_CFG.drain_us -/ def RTE_SALVO_CFG_drain_us : Field := ⟨0x201810, 16, .rwl, fun _ => 2000, []⟩
/-- RTE_SALVO_STAT.state -/ def RTE_SALVO_STAT_state : Field := ⟨0x202000, 3, .ro, fun _ => 0, [(512, 4)]⟩
/-- RTE_SALVO_STAT.late -/ def RTE_SALVO_STAT_late : Field := ⟨0x202003, 1, .ro, fun _ => 0, [(512, 4)]⟩
/-- RTE_SALVO_STAT.partial -/ def RTE_SALVO_STAT_partial : Field := ⟨0x202004, 1, .ro, fun _ => 0, [(512, 4)]⟩
/-- RTE_SALVO_STAT.cancelled -/ def RTE_SALVO_STAT_cancelled : Field := ⟨0x202005, 1, .ro, fun _ => 0, [(512, 4)]⟩
/-- RTE_SALVO_STAT.all -/ def RTE_SALVO_STAT_all : Field := ⟨0x202006, 1, .ro, fun _ => 0, [(512, 4)]⟩
/-- RTE_SALVO_STAT.changes -/ def RTE_SALVO_STAT_changes : Field := ⟨0x202008, 21, .ro, fun _ => 0, [(512, 4)]⟩
/-- RTE_SALVO_STAT.stale -/ def RTE_SALVO_STAT_stale : Field := ⟨0x202020, 32, .ro, fun _ => 0, [(512, 4)]⟩
/-- RTE_SALVO_STAT.t_req -/ def RTE_SALVO_STAT_t_req : Field := ⟨0x202080, 96, .ro, fun _ => 0, [(512, 4)]⟩
/-- RTE_SALVO_STAT.t_eff -/ def RTE_SALVO_STAT_t_eff : Field := ⟨0x202100, 96, .ro, fun _ => 0, [(512, 4)]⟩
/-- RTE_SALVO_STAT.prewarmed -/ def RTE_SALVO_STAT_prewarmed : Field := ⟨0x202180, 21, .ro, fun _ => 0, [(512, 4)]⟩
/-- RTE_SALVO_STAT.prewarm_miss -/ def RTE_SALVO_STAT_prewarm_miss : Field := ⟨0x2021A0, 21, .ro, fun _ => 0, [(512, 4)]⟩
/-- RTE_SALVO_STAT.swapped -/ def RTE_SALVO_STAT_swapped : Field := ⟨0x2021C0, 21, .ro, fun _ => 0, [(512, 4)]⟩
/-- RTE_SALVO_STAT.swap_fail -/ def RTE_SALVO_STAT_swap_fail : Field := ⟨0x2021E0, 21, .ro, fun _ => 0, [(512, 4)]⟩
/-- RTE_ECC_LOG.rod -/ def RTE_ECC_LOG_rod : Field := ⟨0x202800, 21, .ro, fun _ => 0, []⟩
/-- RTE_ECC_LOG.valid -/ def RTE_ECC_LOG_valid : Field := ⟨0x202815, 1, .w1c, fun _ => 0, []⟩
/-- RTE_ECC_LOG.count -/ def RTE_ECC_LOG_count : Field := ⟨0x202820, 32, .ro, fun _ => 0, []⟩
/-- RTE_MISS_DROP.count -/ def RTE_MISS_DROP_count : Field := ⟨0x203000, 64, .ro, fun _ => 0, [(512, 2), (64, 7)]⟩
/-- RTE_CNT.count -/ def RTE_CNT_count : Field := ⟨0x204000, 64, .ro, fun _ => 0, [(64, 15)]⟩
/-- MED_CFG.en -/ def MED_CFG_en : Field := ⟨0x280000, 1, .rwl, fun _ => 0, []⟩
/-- MED_CTX_CMD.op -/ def MED_CTX_CMD_op : Field := ⟨0x280200, 2, .rwl, fun _ => 0, []⟩
/-- MED_CTX_CMD.kind -/ def MED_CTX_CMD_kind : Field := ⟨0x280202, 2, .rwl, fun _ => 0, []⟩
/-- MED_CTX_CMD.port -/ def MED_CTX_CMD_port : Field := ⟨0x280204, 1, .rwl, fun _ => 0, []⟩
/-- MED_CTX_CMD.index -/ def MED_CTX_CMD_index : Field := ⟨0x280205, 18, .rwl, fun _ => 0, []⟩
/-- MED_CTX_CMD.busy -/ def MED_CTX_CMD_busy : Field := ⟨0x280217, 1, .ro, fun _ => 0, []⟩
/-- MED_CTX_CMD.err -/ def MED_CTX_CMD_err : Field := ⟨0x280218, 1, .w1c, fun _ => 0, []⟩
/-- MED_CTX_DATA.cfg -/ def MED_CTX_DATA_cfg : Field := ⟨0x280400, 512, .rwl, fun _ => 0, []⟩
/-- MED_CTX_DATA.stat -/ def MED_CTX_DATA_stat : Field := ⟨0x280600, 512, .ro, fun _ => 0, []⟩
/-- MED_ROSTER_CFG.len_m1 -/ def MED_ROSTER_CFG_len_m1 : Field := ⟨0x280800, 16, .rwl, fun _ => 65535, [(512, 2)]⟩
/-- MED_ROSTER_CFG.width -/ def MED_ROSTER_CFG_width : Field := ⟨0x280810, 5, .rwl, fun _ => 0, [(512, 2)]⟩
/-- MED_ROSTER_CFG.guard -/ def MED_ROSTER_CFG_guard : Field := ⟨0x280815, 1, .rwl, fun _ => 0, [(512, 2)]⟩
/-- MED_ROSTER_CFG.commit -/ def MED_ROSTER_CFG_commit : Field := ⟨0x280816, 1, .wo, fun _ => 0, [(512, 2)]⟩
/-- MED_ROSTER_CFG.en -/ def MED_ROSTER_CFG_en : Field := ⟨0x280817, 1, .rwl, fun _ => 0, [(512, 2)]⟩
/-- MED_ROSTER_CFG.phase -/ def MED_ROSTER_CFG_phase : Field := ⟨0x280820, 64, .rwl, fun _ => 0, [(512, 2)]⟩
/-- MED_ROSTER_STAT.act_len_m1 -/ def MED_ROSTER_STAT_act_len_m1 : Field := ⟨0x280880, 16, .ro, fun _ => 65535, [(512, 2)]⟩
/-- MED_ROSTER_STAT.act_width -/ def MED_ROSTER_STAT_act_width : Field := ⟨0x280890, 5, .ro, fun _ => 0, [(512, 2)]⟩
/-- MED_ROSTER_STAT.pending -/ def MED_ROSTER_STAT_pending : Field := ⟨0x280895, 1, .ro, fun _ => 0, [(512, 2)]⟩
/-- MED_ROSTER_STAT.copying -/ def MED_ROSTER_STAT_copying : Field := ⟨0x280896, 1, .ro, fun _ => 0, [(512, 2)]⟩
/-- MED_ROSTER_STAT.commits -/ def MED_ROSTER_STAT_commits : Field := ⟨0x2808A0, 16, .ro, fun _ => 0, [(512, 2)]⟩
/-- MED_ROSTER_SEL.port -/ def MED_ROSTER_SEL_port : Field := ⟨0x281000, 1, .rwl, fun _ => 0, []⟩
/-- MED_ROSTER_SEL.bank -/ def MED_ROSTER_SEL_bank : Field := ⟨0x281001, 1, .rwl, fun _ => 0, []⟩
/-- MED_ROSTER_SEL.page -/ def MED_ROSTER_SEL_page : Field := ⟨0x281002, 5, .rwl, fun _ => 0, []⟩
/-- MED_ROSTER_WIN.stream -/ def MED_ROSTER_WIN_stream : Field := ⟨0x288000, 14, .rwl, fun _ => 0, [(16, 2048)]⟩
/-- MED_ROSTER_WIN.en -/ def MED_ROSTER_WIN_en : Field := ⟨0x28800E, 1, .rwl, fun _ => 0, [(16, 2048)]⟩
/-- MED_TX_HALT.halt -/ def MED_TX_HALT_halt : Field := ⟨0x2C0000, 64, .w1c, fun _ => 0, [(16384, 2), (64, 256)]⟩
/-- MED_CNT.count -/ def MED_CNT_count : Field := ⟨0x282000, 64, .ro, fun _ => 0, [(64, 17)]⟩
/-- DRV_CFG.thr_en -/ def DRV_CFG_thr_en : Field := ⟨0x1000000, 8, .rwl, fun _ => 0, [(32768, 96)]⟩
/-- DRV_CFG.trap_en -/ def DRV_CFG_trap_en : Field := ⟨0x1000008, 8, .rwl, fun _ => 0, [(32768, 96)]⟩
/-- DRV_CFG.autostart -/ def DRV_CFG_autostart : Field := ⟨0x1000010, 1, .rwl, fun _ => 0, [(32768, 96)]⟩
/-- DRV_CTL.halt -/ def DRV_CTL_halt : Field := ⟨0x1000020, 1, .wo, fun _ => 0, [(32768, 96)]⟩
/-- DRV_CTL.resume -/ def DRV_CTL_resume : Field := ⟨0x1000021, 1, .wo, fun _ => 0, [(32768, 96)]⟩
/-- DRV_CTL.reset -/ def DRV_CTL_reset : Field := ⟨0x1000022, 1, .wo, fun _ => 0, [(32768, 96)]⟩
/-- DRV_CTL.start -/ def DRV_CTL_start : Field := ⟨0x1000023, 1, .wo, fun _ => 0, [(32768, 96)]⟩
/-- DRV_STATUS.thr_state -/ def DRV_STATUS_thr_state : Field := ⟨0x1000040, 16, .ro, fun _ => 0, [(32768, 96)]⟩
/-- DRV_STATUS.halted -/ def DRV_STATUS_halted : Field := ⟨0x1000050, 1, .ro, fun _ => 0, [(32768, 96)]⟩
/-- DRV_STATUS.quiet -/ def DRV_STATUS_quiet : Field := ⟨0x1000051, 1, .ro, fun _ => 0, [(32768, 96)]⟩
/-- DRV_STATUS.halt_cause -/ def DRV_STATUS_halt_cause : Field := ⟨0x1000052, 4, .ro, fun _ => 0, [(32768, 96)]⟩
/-- DRV_STATUS.pwr_off -/ def DRV_STATUS_pwr_off : Field := ⟨0x1000056, 8, .w1c, fun _ => 0, [(32768, 96)]⟩
/-- DRV_STATUS.late -/ def DRV_STATUS_late : Field := ⟨0x100005E, 8, .ro, fun _ => 0, [(32768, 96)]⟩
/-- DRV_EVT.fault -/ def DRV_EVT_fault : Field := ⟨0x1000080, 1, .w1c, fun _ => 0, [(32768, 96)]⟩
/-- DRV_EVT.wdog -/ def DRV_EVT_wdog : Field := ⟨0x1000081, 1, .w1c, fun _ => 0, [(32768, 96)]⟩
/-- DRV_EVT.halted -/ def DRV_EVT_halted : Field := ⟨0x1000082, 1, .w1c, fun _ => 0, [(32768, 96)]⟩
/-- DRV_EVT.fill_done -/ def DRV_EVT_fill_done : Field := ⟨0x1000083, 1, .w1c, fun _ => 0, [(32768, 96)]⟩
/-- DRV_EVT.rx_full -/ def DRV_EVT_rx_full : Field := ⟨0x1000084, 1, .w1c, fun _ => 0, [(32768, 96)]⟩
/-- DRV_EVT.ts_lost -/ def DRV_EVT_ts_lost : Field := ⟨0x1000085, 1, .w1c, fun _ => 0, [(32768, 96)]⟩
/-- DRV_EVT.frozen -/ def DRV_EVT_frozen : Field := ⟨0x1000086, 1, .w1c, fun _ => 0, [(32768, 96)]⟩
/-- DRV_EVT.sw -/ def DRV_EVT_sw : Field := ⟨0x1000087, 1, .w1c, fun _ => 0, [(32768, 96)]⟩
/-- DRV_EVT_EN.fault -/ def DRV_EVT_EN_fault : Field := ⟨0x10000A0, 1, .rw, fun _ => 1, [(32768, 96)]⟩
/-- DRV_EVT_EN.wdog -/ def DRV_EVT_EN_wdog : Field := ⟨0x10000A1, 1, .rw, fun _ => 1, [(32768, 96)]⟩
/-- DRV_EVT_EN.halted -/ def DRV_EVT_EN_halted : Field := ⟨0x10000A2, 1, .rw, fun _ => 1, [(32768, 96)]⟩
/-- DRV_EVT_EN.fill_done -/ def DRV_EVT_EN_fill_done : Field := ⟨0x10000A3, 1, .rw, fun _ => 0, [(32768, 96)]⟩
/-- DRV_EVT_EN.rx_full -/ def DRV_EVT_EN_rx_full : Field := ⟨0x10000A4, 1, .rw, fun _ => 0, [(32768, 96)]⟩
/-- DRV_EVT_EN.ts_lost -/ def DRV_EVT_EN_ts_lost : Field := ⟨0x10000A5, 1, .rw, fun _ => 0, [(32768, 96)]⟩
/-- DRV_EVT_EN.frozen -/ def DRV_EVT_EN_frozen : Field := ⟨0x10000A6, 1, .rw, fun _ => 0, [(32768, 96)]⟩
/-- DRV_EVT_EN.sw -/ def DRV_EVT_EN_sw : Field := ⟨0x10000A7, 1, .rw, fun _ => 0, [(32768, 96)]⟩
/-- DRV_THR_VEC.start -/ def DRV_THR_VEC_start : Field := ⟨0x1000200, 16, .rwl, fun _ => 0, [(32768, 96), (64, 8)]⟩
/-- DRV_THR_VEC.trap -/ def DRV_THR_VEC_trap : Field := ⟨0x1000210, 16, .rwl, fun _ => 0, [(32768, 96), (64, 8)]⟩
/-- DRV_THR_PC.pc -/ def DRV_THR_PC_pc : Field := ⟨0x1000400, 16, .ro, fun _ => 0, [(32768, 96), (32, 8)]⟩
/-- DRV_THR_FAULT.code -/ def DRV_THR_FAULT_code : Field := ⟨0x1000800, 4, .ro, fun _ => 0, [(32768, 96), (256, 8)]⟩
/-- DRV_THR_FAULT.active -/ def DRV_THR_FAULT_active : Field := ⟨0x1000804, 1, .ro, fun _ => 0, [(32768, 96), (256, 8)]⟩
/-- DRV_THR_FAULT.pc -/ def DRV_THR_FAULT_pc : Field := ⟨0x1000810, 16, .ro, fun _ => 0, [(32768, 96), (256, 8)]⟩
/-- DRV_THR_FAULT.addr -/ def DRV_THR_FAULT_addr : Field := ⟨0x1000820, 40, .ro, fun _ => 0, [(32768, 96), (256, 8)]⟩
/-- DRV_THR_FAULT.time -/ def DRV_THR_FAULT_time : Field := ⟨0x1000880, 96, .ro, fun _ => 0, [(32768, 96), (256, 8)]⟩
/-- DRV_WDOG.period_us -/ def DRV_WDOG_period_us : Field := ⟨0x1001000, 24, .rwl, fun _ => 0, [(32768, 96)]⟩
/-- DRV_WDOG.thr_mask -/ def DRV_WDOG_thr_mask : Field := ⟨0x1001018, 8, .rwl, fun _ => 0, [(32768, 96)]⟩
/-- DRV_WDOG.action -/ def DRV_WDOG_action : Field := ⟨0x1001020, 2, .rwl, fun _ => 0, [(32768, 96)]⟩
/-- DRV_RX_CFG.full_act -/ def DRV_RX_CFG_full_act : Field := ⟨0x1001080, 1, .rwl, fun _ => 0, [(32768, 96)]⟩
/-- DRV_RX_CFG.affinity -/ def DRV_RX_CFG_affinity : Field := ⟨0x1001081, 1, .rwl, fun _ => 0, [(32768, 96)]⟩
/-- DRV_RX_CFG.thr_mask -/ def DRV_RX_CFG_thr_mask : Field := ⟨0x1001082, 8, .rwl, fun _ => 255, [(32768, 96)]⟩
/-- DRV_SQ_STAT.depth -/ def DRV_SQ_STAT_depth : Field := ⟨0x1001100, 16, .ro, fun _ => 0, [(32768, 96)]⟩
/-- DRV_SQ_STAT.frozen -/ def DRV_SQ_STAT_frozen : Field := ⟨0x1001110, 4, .ro, fun _ => 0, [(32768, 96)]⟩
/-- DRV_IMEM_LOAD.src -/ def DRV_IMEM_LOAD_src : Field := ⟨0x1001800, 38, .rwl, fun _ => 0, [(32768, 96)]⟩
/-- DRV_IMEM_LOAD.dst -/ def DRV_IMEM_LOAD_dst : Field := ⟨0x1001830, 16, .rwl, fun _ => 0, [(32768, 96)]⟩
/-- DRV_IMEM_LOAD.len -/ def DRV_IMEM_LOAD_len : Field := ⟨0x1001840, 17, .rwl, fun _ => 0, [(32768, 96)]⟩
/-- DRV_IMEM_LOAD.go -/ def DRV_IMEM_LOAD_go : Field := ⟨0x1001851, 1, .wo, fun _ => 0, [(32768, 96)]⟩
/-- DRV_IMEM_LOAD.busy -/ def DRV_IMEM_LOAD_busy : Field := ⟨0x1001852, 1, .ro, fun _ => 0, [(32768, 96)]⟩
/-- DRV_IMEM_LOAD.status -/ def DRV_IMEM_LOAD_status : Field := ⟨0x1001853, 2, .ro, fun _ => 0, [(32768, 96)]⟩
/-- DRV_IMEM_LOAD.refused -/ def DRV_IMEM_LOAD_refused : Field := ⟨0x1001855, 1, .w1c, fun _ => 0, [(32768, 96)]⟩
/-- DRV_CNT.count -/ def DRV_CNT_count : Field := ⟨0x1004000, 64, .ro, fun _ => 0, [(32768, 96), (64, 15)]⟩
/-- DRV_DROVE_STAT.mhz -/ def DRV_DROVE_STAT_mhz : Field := ⟨0x1300000, 12, .ro, fun _ => 0, [(32768, 12)]⟩
/-- DRV_DROVE_STAT.halted -/ def DRV_DROVE_STAT_halted : Field := ⟨0x130000C, 8, .ro, fun _ => 0, [(32768, 12)]⟩
/-- DRV_DROVE_ECC_LOG.addr -/ def DRV_DROVE_ECC_LOG_addr : Field := ⟨0x1300080, 22, .ro, fun _ => 0, [(32768, 12)]⟩
/-- DRV_DROVE_ECC_LOG.uncorr -/ def DRV_DROVE_ECC_LOG_uncorr : Field := ⟨0x1300096, 1, .ro, fun _ => 0, [(32768, 12)]⟩
/-- DRV_DROVE_ECC_LOG.valid -/ def DRV_DROVE_ECC_LOG_valid : Field := ⟨0x1300097, 1, .w1c, fun _ => 0, [(32768, 12)]⟩
/-- DRV_DROVE_ECC_LOG.corr -/ def DRV_DROVE_ECC_LOG_corr : Field := ⟨0x13000A0, 32, .ro, fun _ => 0, [(32768, 12)]⟩
/-- DRV_DROVE_ECC_LOG.uncorr_count -/ def DRV_DROVE_ECC_LOG_uncorr_count : Field := ⟨0x13000C0, 32, .ro, fun _ => 0, [(32768, 12)]⟩
/-- FAB_USER_EVT.evt -/ def FAB_USER_EVT_evt : Field := ⟨0x300080, 64, .w1c, fun _ => 0, []⟩
/-- FAB_USER_EVT_EN.en -/ def FAB_USER_EVT_EN_en : Field := ⟨0x3000C0, 64, .rw, fun _ => 0, []⟩
/-- FAB_MGMT_STAT.last -/ def FAB_MGMT_STAT_last : Field := ⟨0x300100, 6, .ro, fun _ => 0, []⟩
/-- FAB_MGMT_STAT.busy -/ def FAB_MGMT_STAT_busy : Field := ⟨0x300106, 1, .ro, fun _ => 0, []⟩
/-- FAB_MGMT_STAT.served -/ def FAB_MGMT_STAT_served : Field := ⟨0x300120, 32, .ro, fun _ => 0, []⟩
/-- FAB_ISL_STAT.state -/ def FAB_ISL_STAT_state : Field := ⟨0x308000, 3, .ro, fun _ => 0, [(512, 64)]⟩
/-- FAB_ISL_STAT.sect_rcfg -/ def FAB_ISL_STAT_sect_rcfg : Field := ⟨0x308008, 8, .ro, fun _ => 0, [(512, 64)]⟩
/-- FAB_ISL_STAT.mhz -/ def FAB_ISL_STAT_mhz : Field := ⟨0x308010, 12, .ro, fun _ => 0, [(512, 64)]⟩
/-- FAB_ISL_CTL.ureset -/ def FAB_ISL_CTL_ureset : Field := ⟨0x308020, 1, .wo, fun _ => 0, [(512, 64)]⟩
/-- FAB_ISL_CLKSEL.src -/ def FAB_ISL_CLKSEL_src : Field := ⟨0x308040, 32, .rwl, fun _ => 0, [(512, 64)]⟩
/-- FAB_ISL_CLKDIV.div -/ def FAB_ISL_CLKDIV_div : Field := ⟨0x308060, 12, .rwl, fun _ => 0, [(512, 64)]⟩
/-- FAB_ISL_CLKDIV.tb_m -/ def FAB_ISL_CLKDIV_tb_m : Field := ⟨0x30806C, 6, .rwl, fun _ => 0, [(512, 64)]⟩
/-- FAB_ISL_CLKDIV.pin -/ def FAB_ISL_CLKDIV_pin : Field := ⟨0x308072, 1, .rw, fun _ => 0, [(512, 64)]⟩
/-- FAB_ISL_CLKDIV.fmax_mhz -/ def FAB_ISL_CLKDIV_fmax_mhz : Field := ⟨0x308073, 12, .ro, fun _ => 0, [(512, 64)]⟩
/-- FAB_ISL_CFG.tclk -/ def FAB_ISL_CFG_tclk : Field := ⟨0x308080, 3, .ro, fun _ => 0, [(512, 64)]⟩
/-- FAB_ISL_CFG.sclk -/ def FAB_ISL_CFG_sclk : Field := ⟨0x308083, 12, .ro, fun _ => 0, [(512, 64)]⟩
/-- FAB_ISL_CFG.mclk -/ def FAB_ISL_CFG_mclk : Field := ⟨0x30808F, 3, .ro, fun _ => 0, [(512, 64)]⟩
/-- FAB_ISL_WAND.value -/ def FAB_ISL_WAND_value : Field := ⟨0x3080C0, 32, .ro, fun _ => 4294967295, [(512, 64)]⟩
/-- FAB_ISL_WAND.force -/ def FAB_ISL_WAND_force : Field := ⟨0x3080E0, 32, .rw, fun _ => 0, [(512, 64)]⟩
/-- FAB_ISL_STILE.frozen -/ def FAB_ISL_STILE_frozen : Field := ⟨0x308100, 4, .ro, fun _ => 0, [(512, 64)]⟩
/-- FAB_ISL_STILE.bad -/ def FAB_ISL_STILE_bad : Field := ⟨0x308110, 16, .ro, fun _ => 0, [(512, 64)]⟩
/-- FAB_ISL_STILE.tmo -/ def FAB_ISL_STILE_tmo : Field := ⟨0x308120, 16, .ro, fun _ => 0, [(512, 64)]⟩
/-- FAB_ISL_STILE.trunc -/ def FAB_ISL_STILE_trunc : Field := ⟨0x308130, 16, .ro, fun _ => 0, [(512, 64)]⟩
/-- FAB_ISL_WCNT.words_in -/ def FAB_ISL_WCNT_words_in : Field := ⟨0x308140, 64, .ro, fun _ => 0, [(512, 64)]⟩
/-- FAB_ISL_WCNT.words_out -/ def FAB_ISL_WCNT_words_out : Field := ⟨0x308180, 64, .ro, fun _ => 0, [(512, 64)]⟩
/-- FAB_ISL_ECC.granary -/ def FAB_ISL_ECC_granary : Field := ⟨0x3081C0, 6, .ro, fun _ => 0, [(512, 64)]⟩
/-- FAB_ISL_ECC.uncorr -/ def FAB_ISL_ECC_uncorr : Field := ⟨0x3081C6, 1, .ro, fun _ => 0, [(512, 64)]⟩
/-- FAB_ISL_ECC.valid -/ def FAB_ISL_ECC_valid : Field := ⟨0x3081C7, 1, .w1c, fun _ => 0, [(512, 64)]⟩
/-- FAB_ISL_ECC.corr -/ def FAB_ISL_ECC_corr : Field := ⟨0x3081C8, 28, .ro, fun _ => 0, [(512, 64)]⟩
/-- FAB_ISL_ECC.uncorr_count -/ def FAB_ISL_ECC_uncorr_count : Field := ⟨0x3081E4, 28, .ro, fun _ => 0, [(512, 64)]⟩
/-- CFG_STATUS.state -/ def CFG_STATUS_state : Field := ⟨0x380000, 3, .ro, fun _ => 0, []⟩
/-- CFG_STATUS.src -/ def CFG_STATUS_src : Field := ⟨0x380003, 3, .ro, fun _ => 5, []⟩
/-- CFG_STATUS.result -/ def CFG_STATUS_result : Field := ⟨0x380006, 5, .ro, fun _ => 0, []⟩
/-- CFG_STATUS.fallback -/ def CFG_STATUS_fallback : Field := ⟨0x38000B, 1, .ro, fun _ => 0, []⟩
/-- CFG_STATUS.phase -/ def CFG_STATUS_phase : Field := ⟨0x38000C, 4, .ro, fun _ => 0, []⟩
/-- CFG_STATUS.done_in -/ def CFG_STATUS_done_in : Field := ⟨0x380010, 1, .ro, fun _ => 0, []⟩
/-- CFG_STATUS.bell -/ def CFG_STATUS_bell : Field := ⟨0x380011, 1, .ro, fun _ => 0, []⟩
/-- CFG_STATUS.mode -/ def CFG_STATUS_mode : Field := ⟨0x380012, 2, .ro, fun _ => 0, []⟩
/-- CFG_STATUS.pull -/ def CFG_STATUS_pull : Field := ⟨0x380014, 1, .ro, fun _ => 0, []⟩
/-- CFG_STATUS.boot_result -/ def CFG_STATUS_boot_result : Field := ⟨0x380015, 5, .ro, fun _ => 0, []⟩
/-- CFG_LOAD_LOG.t_end -/ def CFG_LOAD_LOG_t_end : Field := ⟨0x380080, 96, .ro, fun _ => 0, []⟩
/-- CFG_LOAD_LOG.bytes -/ def CFG_LOAD_LOG_bytes : Field := ⟨0x380100, 32, .ro, fun _ => 0, []⟩
/-- CFG_LOAD_LOG.fail_off -/ def CFG_LOAD_LOG_fail_off : Field := ⟨0x380120, 32, .ro, fun _ => 0, []⟩
/-- CFG_IMG_ID.build_id -/ def CFG_IMG_ID_build_id : Field := ⟨0x380200, 256, .ro, fun _ => 0, []⟩
/-- CFG_PHASE.phase -/ def CFG_PHASE_phase : Field := ⟨0x380300, 128, .ro, fun _ => 0, []⟩
/-- CFG_PHASE.bell_wait -/ def CFG_PHASE_bell_wait : Field := ⟨0x380380, 16, .ro, fun _ => 0, []⟩
/-- CFG_SLV_TMO.tmo_ms -/ def CFG_SLV_TMO_tmo_ms : Field := ⟨0x380400, 16, .rwl, fun _ => 100, []⟩
/-- CFG_CMD.reload -/ def CFG_CMD_reload : Field := ⟨0x380420, 1, .wo, fun _ => 0, []⟩
/-- CFG_CMD.src -/ def CFG_CMD_src : Field := ⟨0x380421, 3, .rwl, fun _ => 0, []⟩
/-- CFG_PR_CMD.op -/ def CFG_PR_CMD_op : Field := ⟨0x380800, 3, .wo, fun _ => 0, [(1024, 4)]⟩
/-- CFG_PR_CMD.src_nv -/ def CFG_PR_CMD_src_nv : Field := ⟨0x380803, 1, .rwl, fun _ => 0, [(1024, 4)]⟩
/-- CFG_PR_CMD.move -/ def CFG_PR_CMD_move : Field := ⟨0x380804, 1, .rwl, fun _ => 0, [(1024, 4)]⟩
/-- CFG_PR_CMD.target -/ def CFG_PR_CMD_target : Field := ⟨0x380810, 6, .rwl, fun _ => 0, [(1024, 4)]⟩
/-- CFG_PR_CMD.source -/ def CFG_PR_CMD_source : Field := ⟨0x380818, 6, .rwl, fun _ => 0, [(1024, 4)]⟩
/-- CFG_PR_CMD.addr -/ def CFG_PR_CMD_addr : Field := ⟨0x380840, 38, .rwl, fun _ => 0, [(1024, 4)]⟩
/-- CFG_PR_CMD.at_time -/ def CFG_PR_CMD_at_time : Field := ⟨0x380880, 96, .rwl, fun _ => 0, [(1024, 4)]⟩
/-- CFG_PR_STAT.state -/ def CFG_PR_STAT_state : Field := ⟨0x380A00, 3, .ro, fun _ => 0, [(1024, 4)]⟩
/-- CFG_PR_STAT.result -/ def CFG_PR_STAT_result : Field := ⟨0x380A03, 5, .ro, fun _ => 0, [(1024, 4)]⟩
/-- CFG_PR_STAT.late -/ def CFG_PR_STAT_late : Field := ⟨0x380A08, 1, .ro, fun _ => 0, [(1024, 4)]⟩
/-- CFG_PR_STAT.island -/ def CFG_PR_STAT_island : Field := ⟨0x380A10, 6, .ro, fun _ => 0, [(1024, 4)]⟩
/-- CFG_PR_STAT.sect -/ def CFG_PR_STAT_sect : Field := ⟨0x380A16, 8, .ro, fun _ => 0, [(1024, 4)]⟩
/-- CFG_PR_STAT.freeze_ns -/ def CFG_PR_STAT_freeze_ns : Field := ⟨0x380A20, 32, .ro, fun _ => 0, [(1024, 4)]⟩
/-- CFG_PR_STAT.dropped_words -/ def CFG_PR_STAT_dropped_words : Field := ⟨0x380A40, 32, .ro, fun _ => 0, [(1024, 4)]⟩
/-- CFG_PR_STAT.t_done -/ def CFG_PR_STAT_t_done : Field := ⟨0x380A80, 96, .ro, fun _ => 0, [(1024, 4)]⟩
/-- CFG_SCRUB_CFG.en -/ def CFG_SCRUB_CFG_en : Field := ⟨0x382000, 1, .rwl, fun _ => 1, []⟩
/-- CFG_SCRUB_CFG.fatal_act -/ def CFG_SCRUB_CFG_fatal_act : Field := ⟨0x382001, 1, .rwl, fun _ => 0, []⟩
/-- CFG_SCRUB_STAT.passes -/ def CFG_SCRUB_STAT_passes : Field := ⟨0x382040, 32, .ro, fun _ => 0, []⟩
/-- CFG_SCRUB_STAT.corrected -/ def CFG_SCRUB_STAT_corrected : Field := ⟨0x382060, 32, .ro, fun _ => 0, []⟩
/-- CFG_SCRUB_STAT.reloaded -/ def CFG_SCRUB_STAT_reloaded : Field := ⟨0x382080, 32, .ro, fun _ => 0, []⟩
/-- CFG_SCRUB_STAT.fatal -/ def CFG_SCRUB_STAT_fatal : Field := ⟨0x3820A0, 32, .ro, fun _ => 0, []⟩
/-- CFG_SCRUB_STAT.pass_us -/ def CFG_SCRUB_STAT_pass_us : Field := ⟨0x3820C0, 32, .ro, fun _ => 0, []⟩
/-- CFG_SCRUB_LOG.frame -/ def CFG_SCRUB_LOG_frame : Field := ⟨0x382200, 18, .ro, fun _ => 0, []⟩
/-- CFG_SCRUB_LOG.kind -/ def CFG_SCRUB_LOG_kind : Field := ⟨0x382212, 2, .ro, fun _ => 0, []⟩
/-- CFG_SCRUB_LOG.valid -/ def CFG_SCRUB_LOG_valid : Field := ⟨0x382214, 1, .w1c, fun _ => 0, []⟩
/-- CFG_SCRUB_LOG.time -/ def CFG_SCRUB_LOG_time : Field := ⟨0x382280, 96, .ro, fun _ => 0, []⟩
/-- CFG_RB_CMD.frame -/ def CFG_RB_CMD_frame : Field := ⟨0x382800, 18, .rw, fun _ => 0, []⟩
/-- CFG_RB_CMD.kind -/ def CFG_RB_CMD_kind : Field := ⟨0x382812, 2, .rw, fun _ => 0, []⟩
/-- CFG_RB_CMD.island -/ def CFG_RB_CMD_island : Field := ⟨0x382814, 6, .rw, fun _ => 0, []⟩
/-- CFG_RB_CMD.chunk -/ def CFG_RB_CMD_chunk : Field := ⟨0x38281A, 6, .rw, fun _ => 0, []⟩
/-- CFG_RB_CMD.go -/ def CFG_RB_CMD_go : Field := ⟨0x382820, 1, .wo, fun _ => 0, []⟩
/-- CFG_RB_CMD.busy -/ def CFG_RB_CMD_busy : Field := ⟨0x382821, 1, .ro, fun _ => 0, []⟩
/-- CFG_RB_CMD.status -/ def CFG_RB_CMD_status : Field := ⟨0x382822, 2, .ro, fun _ => 0, []⟩
/-- CFG_RB_DATA.data -/ def CFG_RB_DATA_data : Field := ⟨0x383000, 2048, .ro, fun _ => 0, []⟩
/-- NVC_CFG.weak_thr -/ def NVC_CFG_weak_thr : Field := ⟨0x400000, 6, .rwl, fun _ => 24, []⟩
/-- NVC_CFG.retry_en -/ def NVC_CFG_retry_en : Field := ⟨0x400006, 1, .rwl, fun _ => 1, []⟩
/-- NVC_CFG.seq_tmo_us -/ def NVC_CFG_seq_tmo_us : Field := ⟨0x400008, 10, .rwl, fun _ => 1000, []⟩
/-- NVC_CFG.stall_evt_us -/ def NVC_CFG_stall_evt_us : Field := ⟨0x400012, 14, .rw, fun _ => 1000, []⟩
/-- NVC_BANK_STAT.status -/ def NVC_BANK_STAT_status : Field := ⟨0x400080, 64, .ro, fun _ => 5644790803197853696, [(64, 4)]⟩
/-- NVC_REQ_SEQ.state -/ def NVC_REQ_SEQ_state : Field := ⟨0x400800, 3, .ro, fun _ => 0, [(32, 101)]⟩
/-- NVC_REQ_SEQ.bank -/ def NVC_REQ_SEQ_bank : Field := ⟨0x400803, 2, .ro, fun _ => 0, [(32, 101)]⟩
/-- NVC_REQ_SEQ.result -/ def NVC_REQ_SEQ_result : Field := ⟨0x400805, 3, .ro, fun _ => 0, [(32, 101)]⟩
/-- NVC_REQ_SEQ.rmode -/ def NVC_REQ_SEQ_rmode : Field := ⟨0x400808, 2, .ro, fun _ => 0, [(32, 101)]⟩
/-- NVC_REQ_SEQ.rmode_bank -/ def NVC_REQ_SEQ_rmode_bank : Field := ⟨0x40080A, 2, .ro, fun _ => 0, [(32, 101)]⟩
/-- NVC_BUF_OWN.owner -/ def NVC_BUF_OWN_owner : Field := ⟨0x401800, 7, .ro, fun _ => 0, [(32, 4)]⟩
/-- NVC_BUF_OWN.valid -/ def NVC_BUF_OWN_valid : Field := ⟨0x401807, 1, .ro, fun _ => 0, [(32, 4)]⟩
/-- NVC_BUF_OWN.row -/ def NVC_BUF_OWN_row : Field := ⟨0x401808, 13, .ro, fun _ => 0, [(32, 4)]⟩
/-- NVC_WP.prot -/ def NVC_WP_prot : Field := ⟨0x402000, 64, .w1s, fun w => if w = 31 then 0xFFFFFFFFFFFFFFFF else 0, [(64, 32)]⟩
/-- NVC_WP_CLR.clr -/ def NVC_WP_CLR_clr : Field := ⟨0x402800, 64, .rwl, fun _ => 0, [(64, 32)]⟩
/-- NVC_BOOT.sel -/ def NVC_BOOT_sel : Field := ⟨0x403000, 1, .ro, fun _ => 0, []⟩
/-- NVC_BOOT.fb_en -/ def NVC_BOOT_fb_en : Field := ⟨0x403001, 1, .ro, fun _ => 0, []⟩
/-- NVC_BOOT.rec_valid -/ def NVC_BOOT_rec_valid : Field := ⟨0x403002, 2, .ro, fun _ => 0, []⟩
/-- NVC_BOOT.cur_area -/ def NVC_BOOT_cur_area : Field := ⟨0x403004, 1, .ro, fun _ => 0, []⟩
/-- NVC_BOOT.seq -/ def NVC_BOOT_seq : Field := ⟨0x403020, 32, .ro, fun _ => 0, []⟩
/-- NVC_BOOT_CMD.new_sel -/ def NVC_BOOT_CMD_new_sel : Field := ⟨0x403040, 1, .rwl, fun _ => 0, []⟩
/-- NVC_BOOT_CMD.new_fb -/ def NVC_BOOT_CMD_new_fb : Field := ⟨0x403041, 1, .rwl, fun _ => 0, []⟩
/-- NVC_BOOT_CMD.go -/ def NVC_BOOT_CMD_go : Field := ⟨0x403042, 1, .wo, fun _ => 0, []⟩
/-- NVC_BOOT_CMD.busy -/ def NVC_BOOT_CMD_busy : Field := ⟨0x403043, 1, .ro, fun _ => 0, []⟩
/-- NVC_BOOT_CMD.result -/ def NVC_BOOT_CMD_result : Field := ⟨0x403044, 2, .ro, fun _ => 0, []⟩
/-- NVC_PMAP_NEW.map -/ def NVC_PMAP_NEW_map : Field := ⟨0x403800, 64, .rwl, fun w => if w = 31 then 0xFFFFFFFFFFFFFFFF else 0, [(64, 32)]⟩
/-- NVC_ERR_LOG.cw -/ def NVC_ERR_LOG_cw : Field := ⟨0x404000, 19, .ro, fun _ => 0, []⟩
/-- NVC_ERR_LOG.bits -/ def NVC_ERR_LOG_bits : Field := ⟨0x404013, 6, .ro, fun _ => 0, []⟩
/-- NVC_ERR_LOG.retries -/ def NVC_ERR_LOG_retries : Field := ⟨0x404019, 3, .ro, fun _ => 0, []⟩
/-- NVC_ERR_LOG.uncorr -/ def NVC_ERR_LOG_uncorr : Field := ⟨0x40401C, 1, .ro, fun _ => 0, []⟩
/-- NVC_ERR_LOG.valid -/ def NVC_ERR_LOG_valid : Field := ⟨0x40401D, 1, .w1c, fun _ => 0, []⟩
/-- NVC_ERR_LOG.time -/ def NVC_ERR_LOG_time : Field := ⟨0x404020, 96, .ro, fun _ => 0, []⟩
/-- NVC_WEAK.cw -/ def NVC_WEAK_cw : Field := ⟨0x404100, 19, .ro, fun _ => 0, []⟩
/-- NVC_WEAK.valid -/ def NVC_WEAK_valid : Field := ⟨0x404113, 1, .ro, fun _ => 0, []⟩
/-- NVC_CNT.count -/ def NVC_CNT_count : Field := ⟨0x404800, 64, .ro, fun _ => 0, [(64, 16)]⟩
/-- DDR_CFG.speed -/ def DDR_CFG_speed : Field := ⟨0x480000, 2, .rwl, fun _ => 0, []⟩
/-- DDR_CFG.x4 -/ def DDR_CFG_x4 : Field := ⟨0x480002, 1, .rwl, fun _ => 0, []⟩
/-- DDR_CFG.ranks2 -/ def DDR_CFG_ranks2 : Field := ⟨0x480003, 1, .rwl, fun _ => 0, []⟩
/-- DDR_CFG.density -/ def DDR_CFG_density : Field := ⟨0x480004, 2, .rwl, fun _ => 1, []⟩
/-- DDR_CFG.wb_demand -/ def DDR_CFG_wb_demand : Field := ⟨0x480006, 1, .rwl, fun _ => 1, []⟩
/-- DDR_CTL.init -/ def DDR_CTL_init : Field := ⟨0x480020, 1, .wo, fun _ => 0, []⟩
/-- DDR_CTL.train -/ def DDR_CTL_train : Field := ⟨0x480021, 1, .wo, fun _ => 0, []⟩
/-- DDR_STATUS.trained -/ def DDR_STATUS_trained : Field := ⟨0x480040, 1, .ro, fun _ => 0, []⟩
/-- DDR_STATUS.ecc_ready -/ def DDR_STATUS_ecc_ready : Field := ⟨0x480041, 1, .ro, fun _ => 0, []⟩
/-- DDR_STATUS.failed -/ def DDR_STATUS_failed : Field := ⟨0x480042, 12, .ro, fun _ => 0, []⟩
/-- DDR_STATUS.chan_gib -/ def DDR_STATUS_chan_gib : Field := ⟨0x48004E, 5, .ro, fun _ => 0, []⟩
/-- DDR_REF.mode -/ def DDR_REF_mode : Field := ⟨0x480080, 1, .rw, fun _ => 0, []⟩
/-- DDR_REF.zq_ms -/ def DDR_REF_zq_ms : Field := ⟨0x480090, 16, .rwl, fun _ => 128, []⟩
/-- DDR_SR.idle_us -/ def DDR_SR_idle_us : Field := ⟨0x4800C0, 20, .rw, fun _ => 0, []⟩
/-- DDR_SCRUB.period_h -/ def DDR_SCRUB_period_h : Field := ⟨0x480100, 8, .rwl, fun _ => 24, []⟩
/-- DDR_SCRUB_STAT.passes -/ def DDR_SCRUB_STAT_passes : Field := ⟨0x480140, 32, .ro, fun _ => 0, []⟩
/-- DDR_SCRUB_STAT.last_s -/ def DDR_SCRUB_STAT_last_s : Field := ⟨0x480160, 32, .ro, fun _ => 0, []⟩
/-- DDR_CH_STAT.state -/ def DDR_CH_STAT_state : Field := ⟨0x488000, 3, .ro, fun _ => 0, [(2048, 12)]⟩
/-- DDR_CH_STAT.fail_step -/ def DDR_CH_STAT_fail_step : Field := ⟨0x488003, 3, .ro, fun _ => 0, [(2048, 12)]⟩
/-- DDR_CH_STAT.fail_rank -/ def DDR_CH_STAT_fail_rank : Field := ⟨0x488006, 1, .ro, fun _ => 0, [(2048, 12)]⟩
/-- DDR_CH_EVT.corr_thr -/ def DDR_CH_EVT_corr_thr : Field := ⟨0x488040, 1, .w1c, fun _ => 0, [(2048, 12)]⟩
/-- DDR_CH_EVT.uncorr -/ def DDR_CH_EVT_uncorr : Field := ⟨0x488041, 1, .w1c, fun _ => 0, [(2048, 12)]⟩
/-- DDR_CH_EVT.train_fail -/ def DDR_CH_EVT_train_fail : Field := ⟨0x488042, 1, .w1c, fun _ => 0, [(2048, 12)]⟩
/-- DDR_CH_EVT.scrub_pass -/ def DDR_CH_EVT_scrub_pass : Field := ⟨0x488043, 1, .w1c, fun _ => 0, [(2048, 12)]⟩
/-- DDR_CH_EVT_EN.corr_thr -/ def DDR_CH_EVT_EN_corr_thr : Field := ⟨0x488060, 1, .rw, fun _ => 1, [(2048, 12)]⟩
/-- DDR_CH_EVT_EN.uncorr -/ def DDR_CH_EVT_EN_uncorr : Field := ⟨0x488061, 1, .rw, fun _ => 1, [(2048, 12)]⟩
/-- DDR_CH_EVT_EN.train_fail -/ def DDR_CH_EVT_EN_train_fail : Field := ⟨0x488062, 1, .rw, fun _ => 1, [(2048, 12)]⟩
/-- DDR_CH_EVT_EN.scrub_pass -/ def DDR_CH_EVT_EN_scrub_pass : Field := ⟨0x488063, 1, .rw, fun _ => 0, [(2048, 12)]⟩
/-- DDR_CH_THR.thr -/ def DDR_CH_THR_thr : Field := ⟨0x488080, 16, .rw, fun _ => 256, [(2048, 12)]⟩
/-- DDR_ERR_LOG.choff -/ def DDR_ERR_LOG_choff : Field := ⟨0x488100, 35, .ro, fun _ => 0, [(2048, 12)]⟩
/-- DDR_ERR_LOG.uncorr -/ def DDR_ERR_LOG_uncorr : Field := ⟨0x488123, 1, .ro, fun _ => 0, [(2048, 12)]⟩
/-- DDR_ERR_LOG.scrub -/ def DDR_ERR_LOG_scrub : Field := ⟨0x488124, 1, .ro, fun _ => 0, [(2048, 12)]⟩
/-- DDR_ERR_LOG.valid -/ def DDR_ERR_LOG_valid : Field := ⟨0x488125, 1, .w1c, fun _ => 0, [(2048, 12)]⟩
/-- DDR_ERR_LOG.symbols -/ def DDR_ERR_LOG_symbols : Field := ⟨0x488126, 3, .ro, fun _ => 0, [(2048, 12)]⟩
/-- DDR_ERR_LOG.nibbles -/ def DDR_ERR_LOG_nibbles : Field := ⟨0x488129, 18, .ro, fun _ => 0, [(2048, 12)]⟩
/-- DDR_ERR_LOG.time -/ def DDR_ERR_LOG_time : Field := ⟨0x488180, 96, .ro, fun _ => 0, [(2048, 12)]⟩
/-- DDR_NIB_CNT.count -/ def DDR_NIB_CNT_count : Field := ⟨0x488200, 16, .rw, fun _ => 0, [(2048, 12), (288, 2), (16, 18)]⟩
/-- DDR_CH_CNT.count -/ def DDR_CH_CNT_count : Field := ⟨0x488480, 64, .ro, fun _ => 0, [(2048, 12), (64, 9)]⟩
/-- SYS_RING_LOCK.lock -/ def SYS_RING_LOCK_lock : Field := ⟨0x800, 1, .w1s, fun _ => 0, []⟩
/-- SYS_RING_LOCK.by -/ def SYS_RING_LOCK_by : Field := ⟨0x801, 7, .ro, fun _ => 0, []⟩
/-- SAC_CFG.disc_en -/ def SAC_CFG_disc_en : Field := ⟨0x500000, 1, .rwl, fun _ => 1, []⟩
/-- SAC_CFG.g_log -/ def SAC_CFG_g_log : Field := ⟨0x500004, 4, .rwl, fun _ => 8, []⟩
/-- SAC_CFG.rai_mbps -/ def SAC_CFG_rai_mbps : Field := ⟨0x500008, 16, .rwl, fun _ => 40, []⟩
/-- SAC_CFG.min_mbps -/ def SAC_CFG_min_mbps : Field := ⟨0x500018, 16, .rwl, fun _ => 100, []⟩
/-- SAC_CFG.timer_us -/ def SAC_CFG_timer_us : Field := ⟨0x500028, 8, .rwl, fun _ => 55, []⟩
/-- SAC_CFG.cnp_us -/ def SAC_CFG_cnp_us : Field := ⟨0x500030, 8, .rwl, fun _ => 50, []⟩
/-- SAC_NET.ipv4 -/ def SAC_NET_ipv4 : Field := ⟨0x500200, 32, .rwl, fun _ => 0, [(512, 2)]⟩
/-- SAC_NET.ipv6 -/ def SAC_NET_ipv6 : Field := ⟨0x500220, 128, .rwl, fun _ => 0, [(512, 2)]⟩
/-- SAC_NET.vid -/ def SAC_NET_vid : Field := ⟨0x5002A0, 12, .rwl, fun _ => 0, [(512, 2)]⟩
/-- SAC_NET.tagged -/ def SAC_NET_tagged : Field := ⟨0x5002AC, 1, .rwl, fun _ => 0, [(512, 2)]⟩
/-- SAC_NET.subport -/ def SAC_NET_subport : Field := ⟨0x5002AD, 2, .rwl, fun _ => 0, [(512, 2)]⟩
/-- SAC_PEER.en -/ def SAC_PEER_en : Field := ⟨0x500800, 1, .rwl, fun _ => 0, [(512, 2)]⟩
/-- SAC_PEER.ipv6 -/ def SAC_PEER_ipv6 : Field := ⟨0x500801, 1, .rwl, fun _ => 0, [(512, 2)]⟩
/-- SAC_PEER.prefix -/ def SAC_PEER_prefix : Field := ⟨0x500802, 8, .rwl, fun _ => 0, [(512, 2)]⟩
/-- SAC_PEER.addr -/ def SAC_PEER_addr : Field := ⟨0x50080A, 128, .rwl, fun _ => 0, [(512, 2)]⟩
/-- SAC_CTRL.bound -/ def SAC_CTRL_bound : Field := ⟨0x501000, 1, .ro, fun _ => 0, [(512, 2)]⟩
/-- SAC_CTRL.lost -/ def SAC_CTRL_lost : Field := ⟨0x501001, 1, .w1c, fun _ => 0, [(512, 2)]⟩
/-- SAC_CTRL.hb_ms -/ def SAC_CTRL_hb_ms : Field := ⟨0x501002, 16, .rwl, fun _ => 0, [(512, 2)]⟩
/-- SAC_CTRL.rel_on_loss -/ def SAC_CTRL_rel_on_loss : Field := ⟨0x501012, 1, .rwl, fun _ => 0, [(512, 2)]⟩
/-- SAC_CTRL.qps -/ def SAC_CTRL_qps : Field := ⟨0x501013, 5, .ro, fun _ => 0, [(512, 2)]⟩
/-- SAC_CTRL.last_hb -/ def SAC_CTRL_last_hb : Field := ⟨0x501020, 96, .ro, fun _ => 0, [(512, 2)]⟩
/-- SAC_RING_CTL.ring -/ def SAC_RING_CTL_ring : Field := ⟨0x501800, 5, .wo, fun _ => 0, [(64, 2)]⟩
/-- SAC_RING_CTL.start -/ def SAC_RING_CTL_start : Field := ⟨0x501805, 1, .wo, fun _ => 0, [(64, 2)]⟩
/-- SAC_RING_CTL.stop -/ def SAC_RING_CTL_stop : Field := ⟨0x501806, 1, .wo, fun _ => 0, [(64, 2)]⟩
/-- SAC_RING_CTL.reset -/ def SAC_RING_CTL_reset : Field := ⟨0x501807, 1, .wo, fun _ => 0, [(64, 2)]⟩
/-- SAC_DIRECT_LOG.off -/ def SAC_DIRECT_LOG_off : Field := ⟨0x502000, 24, .ro, fun _ => 0, [(256, 2)]⟩
/-- SAC_DIRECT_LOG.status -/ def SAC_DIRECT_LOG_status : Field := ⟨0x502018, 8, .ro, fun _ => 0, [(256, 2)]⟩
/-- SAC_DIRECT_LOG.write -/ def SAC_DIRECT_LOG_write : Field := ⟨0x502020, 1, .ro, fun _ => 0, [(256, 2)]⟩
/-- SAC_DIRECT_LOG.valid -/ def SAC_DIRECT_LOG_valid : Field := ⟨0x502021, 1, .w1c, fun _ => 0, [(256, 2)]⟩
/-- SAC_DIRECT_LOG.count -/ def SAC_DIRECT_LOG_count : Field := ⟨0x502060, 32, .ro, fun _ => 0, [(256, 2)]⟩
/-- SAC_DIRECT_LOG.time -/ def SAC_DIRECT_LOG_time : Field := ⟨0x502080, 96, .ro, fun _ => 0, [(256, 2)]⟩
/-- SAC_QP.qpn -/ def SAC_QP_qpn : Field := ⟨0x508000, 24, .ro, fun _ => 0, [(8192, 2), (512, 16)]⟩
/-- SAC_QP.peer_qpn -/ def SAC_QP_peer_qpn : Field := ⟨0x508018, 24, .ro, fun _ => 0, [(8192, 2), (512, 16)]⟩
/-- SAC_QP.state -/ def SAC_QP_state : Field := ⟨0x508030, 3, .ro, fun _ => 0, [(8192, 2), (512, 16)]⟩
/-- SAC_QP.mtu -/ def SAC_QP_mtu : Field := ⟨0x508033, 2, .ro, fun _ => 0, [(8192, 2), (512, 16)]⟩
/-- SAC_QP.sq_psn -/ def SAC_QP_sq_psn : Field := ⟨0x508038, 24, .ro, fun _ => 0, [(8192, 2), (512, 16)]⟩
/-- SAC_QP.rq_psn -/ def SAC_QP_rq_psn : Field := ⟨0x508050, 24, .ro, fun _ => 0, [(8192, 2), (512, 16)]⟩
/-- SAC_QP.rate_mbps -/ def SAC_QP_rate_mbps : Field := ⟨0x508068, 32, .ro, fun _ => 0, [(8192, 2), (512, 16)]⟩
/-- SAC_RING.base -/ def SAC_RING_base : Field := ⟨0x510000, 64, .rwl, fun _ => 0, [(16384, 2), (512, 18)]⟩
/-- SAC_RING.rkey -/ def SAC_RING_rkey : Field := ⟨0x510040, 32, .rwl, fun _ => 0, [(16384, 2), (512, 18)]⟩
/-- SAC_RING.qp -/ def SAC_RING_qp : Field := ⟨0x510060, 4, .rwl, fun _ => 0, [(16384, 2), (512, 18)]⟩
/-- SAC_RING.size_log -/ def SAC_RING_size_log : Field := ⟨0x510064, 5, .rwl, fun _ => 6, [(16384, 2), (512, 18)]⟩
/-- SAC_RING.en -/ def SAC_RING_en : Field := ⟨0x510069, 1, .rwl, fun _ => 0, [(16384, 2), (512, 18)]⟩
/-- SAC_RING.stop_on_err -/ def SAC_RING_stop_on_err : Field := ⟨0x51006A, 1, .rwl, fun _ => 0, [(16384, 2), (512, 18)]⟩
/-- SAC_RING.err_evt -/ def SAC_RING_err_evt : Field := ⟨0x51006B, 1, .rwl, fun _ => 0, [(16384, 2), (512, 18)]⟩
/-- SAC_RING.cpl_ring -/ def SAC_RING_cpl_ring : Field := ⟨0x51006C, 3, .rwl, fun _ => 0, [(16384, 2), (512, 18)]⟩
/-- SAC_RING.dev_idx -/ def SAC_RING_dev_idx : Field := ⟨0x510080, 32, .ro, fun _ => 0, [(16384, 2), (512, 18)]⟩
/-- SAC_RING.host_idx -/ def SAC_RING_host_idx : Field := ⟨0x5100A0, 32, .ro, fun _ => 0, [(16384, 2), (512, 18)]⟩
/-- SAC_RING.state -/ def SAC_RING_state : Field := ⟨0x5100C0, 3, .ro, fun _ => 0, [(16384, 2), (512, 18)]⟩
/-- SAC_CNT.count -/ def SAC_CNT_count : Field := ⟨0x504000, 64, .ro, fun _ => 0, [(2048, 2), (64, 16)]⟩
/-- SEM_CFG.break_en -/ def SEM_CFG_break_en : Field := ⟨0x580000, 1, .rwl, fun _ => 0, []⟩
/-- SEM_CFG.search_en -/ def SEM_CFG_search_en : Field := ⟨0x580001, 1, .rwl, fun _ => 1, []⟩
/-- SEM_DL_LOG.len -/ def SEM_DL_LOG_len : Field := ⟨0x580800, 7, .ro, fun _ => 0, []⟩
/-- SEM_DL_LOG.valid -/ def SEM_DL_LOG_valid : Field := ⟨0x580807, 1, .w1c, fun _ => 0, []⟩
/-- SEM_DL_LOG.members -/ def SEM_DL_LOG_members : Field := ⟨0x580808, 56, .ro, fun _ => 0, []⟩
/-- SEM_DL_LOG.sem -/ def SEM_DL_LOG_sem : Field := ⟨0x580840, 8, .ro, fun _ => 0, []⟩
/-- SEM_DL_LOG.broken -/ def SEM_DL_LOG_broken : Field := ⟨0x580848, 1, .ro, fun _ => 0, []⟩
/-- SEM_DL_LOG.time -/ def SEM_DL_LOG_time : Field := ⟨0x580880, 96, .ro, fun _ => 0, []⟩
/-- SEM_ARB_THR.thr -/ def SEM_ARB_THR_thr : Field := ⟨0x581000, 24, .rw, fun _ => 0, [(64, 3)]⟩
/-- SEM_FORCE.sem -/ def SEM_FORCE_sem : Field := ⟨0x581800, 8, .wo, fun _ => 0, []⟩
/-- SEM_FORCE.go -/ def SEM_FORCE_go : Field := ⟨0x581808, 1, .wo, fun _ => 0, []⟩
/-- SEM_STATE.owner -/ def SEM_STATE_owner : Field := ⟨0x588000, 7, .ro, fun _ => 0, [(256, 256)]⟩
/-- SEM_STATE.held -/ def SEM_STATE_held : Field := ⟨0x588007, 1, .ro, fun _ => 0, [(256, 256)]⟩
/-- SEM_STATE.revoked -/ def SEM_STATE_revoked : Field := ⟨0x588008, 1, .w1c, fun _ => 0, [(256, 256)]⟩
/-- SEM_STATE.waiters -/ def SEM_STATE_waiters : Field := ⟨0x588040, 101, .ro, fun _ => 0, [(256, 256)]⟩
/-- SEM_TRY.granted -/ def SEM_TRY_granted : Field := ⟨0x598000, 1, .ro, fun _ => 0, [(64, 256)]⟩
/-- SEM_TRY.owner -/ def SEM_TRY_owner : Field := ⟨0x598001, 7, .ro, fun _ => 0, [(64, 256)]⟩
/-- SEM_REL.rel -/ def SEM_REL_rel : Field := ⟨0x59C000, 1, .wo, fun _ => 0, [(64, 256)]⟩
/-- SEM_ARB_AGE.cur -/ def SEM_ARB_AGE_cur : Field := ⟨0x5A0000, 32, .ro, fun _ => 0, [(8192, 3), (64, 101)]⟩
/-- SEM_ARB_AGE.max -/ def SEM_ARB_AGE_max : Field := ⟨0x5A0020, 32, .rw, fun _ => 0, [(8192, 3), (64, 101)]⟩
/-- EVT_CFG.en -/ def EVT_CFG_en : Field := ⟨0x600000, 1, .rw, fun _ => 1, []⟩
/-- EVT_STAT.q_occ -/ def EVT_STAT_q_occ : Field := ⟨0x600040, 13, .ro, fun _ => 0, []⟩
/-- EVT_STAT.q_lost -/ def EVT_STAT_q_lost : Field := ⟨0x600060, 16, .ro, fun _ => 0, []⟩
/-- EVT_STAT.mring_lost -/ def EVT_STAT_mring_lost : Field := ⟨0x600070, 16, .ro, fun _ => 0, []⟩
/-- EVT_PEND.pend -/ def EVT_PEND_pend : Field := ⟨0x600800, 64, .w1c, fun _ => 0, [(64, 5)]⟩
/-- EVT_HPEND.pend -/ def EVT_HPEND_pend : Field := ⟨0x600A00, 64, .w1c, fun _ => 0, [(64, 5)]⟩
/-- EVT_MRING.base -/ def EVT_MRING_base : Field := ⟨0x601000, 38, .rwl, fun _ => 0, []⟩
/-- EVT_MRING.size_log -/ def EVT_MRING_size_log : Field := ⟨0x601028, 5, .rwl, fun _ => 6, []⟩
/-- EVT_MRING.en -/ def EVT_MRING_en : Field := ⟨0x60102D, 1, .rwl, fun _ => 0, []⟩
/-- EVT_MRING.produced -/ def EVT_MRING_produced : Field := ⟨0x601040, 32, .ro, fun _ => 0, []⟩
/-- EVT_MRING_CONS.consumed -/ def EVT_MRING_CONS_consumed : Field := ⟨0x601080, 32, .rw, fun _ => 0, []⟩
/-- EVT_SRC.ring_a0 -/ def EVT_SRC_ring_a0 : Field := ⟨0x608000, 1, .rw, evtDefaultC, [(64, 320)]⟩
/-- EVT_SRC.ring_a1 -/ def EVT_SRC_ring_a1 : Field := ⟨0x608001, 1, .rw, fun _ => 0, [(64, 320)]⟩
/-- EVT_SRC.ring_b0 -/ def EVT_SRC_ring_b0 : Field := ⟨0x608002, 1, .rw, evtDefaultC, [(64, 320)]⟩
/-- EVT_SRC.ring_b1 -/ def EVT_SRC_ring_b1 : Field := ⟨0x608003, 1, .rw, fun _ => 0, [(64, 320)]⟩
/-- EVT_SRC.hrd -/ def EVT_SRC_hrd : Field := ⟨0x608004, 1, .rw, evtDefaultH, [(64, 320)]⟩
/-- EVT_SRC.mring -/ def EVT_SRC_mring : Field := ⟨0x608005, 1, .rw, fun _ => 0, [(64, 320)]⟩
/-- EVT_SRC.coal_us -/ def EVT_SRC_coal_us : Field := ⟨0x608008, 16, .rw, fun _ => 0, [(64, 320)]⟩
/-- EVT_SRC.coalesced -/ def EVT_SRC_coalesced : Field := ⟨0x608020, 16, .rw, fun _ => 0, [(64, 320)]⟩
/-- SYS_READY.lc -/ def SYS_READY_lc : Field := ⟨0x200, 1, .ro, fun _ => 0, []⟩
/-- SYS_READY.repair -/ def SYS_READY_repair : Field := ⟨0x201, 1, .ro, fun _ => 0, []⟩
/-- SYS_READY.nv -/ def SYS_READY_nv : Field := ⟨0x202, 1, .ro, fun _ => 0, []⟩
/-- SYS_READY.fabric -/ def SYS_READY_fabric : Field := ⟨0x203, 1, .ro, fun _ => 0, []⟩
/-- SYS_READY.time -/ def SYS_READY_time : Field := ⟨0x204, 1, .ro, fun _ => 0, []⟩
/-- SYS_READY.serdes -/ def SYS_READY_serdes : Field := ⟨0x205, 1, .ro, fun _ => 0, []⟩
/-- SYS_READY.ddr_trained -/ def SYS_READY_ddr_trained : Field := ⟨0x206, 1, .ro, fun _ => 0, []⟩
/-- SYS_READY.ddr_ecc -/ def SYS_READY_ddr_ecc : Field := ⟨0x207, 1, .ro, fun _ => 0, []⟩
/-- SYS_READY_EN.en -/ def SYS_READY_EN_en : Field := ⟨0x240, 8, .rwl, fun _ => 255, []⟩
/-- SYS_READY_EN.ready -/ def SYS_READY_EN_ready : Field := ⟨0x248, 1, .ro, fun _ => 0, []⟩
/-- PWR_CTL.req -/ def PWR_CTL_req : Field := ⟨0x680000, 3, .wo, fun _ => 0, []⟩
/-- PWR_STAT.state -/ def PWR_STAT_state : Field := ⟨0x680040, 3, .ro, fun _ => 0, []⟩
/-- PWR_STAT.entering -/ def PWR_STAT_entering : Field := ⟨0x680043, 1, .ro, fun _ => 0, []⟩
/-- PWR_STAT.exiting -/ def PWR_STAT_exiting : Field := ⟨0x680044, 1, .ro, fun _ => 0, []⟩
/-- PWR_STAT.result -/ def PWR_STAT_result : Field := ⟨0x680048, 3, .ro, fun _ => 0, []⟩
/-- PWR_STAT.entries -/ def PWR_STAT_entries : Field := ⟨0x680060, 32, .ro, fun _ => 0, []⟩
/-- PWR_RET.gran_grp -/ def PWR_RET_gran_grp : Field := ⟨0x680080, 8, .rwl, fun _ => 0, []⟩
/-- PWR_RET.drove -/ def PWR_RET_drove : Field := ⟨0x680088, 12, .rwl, fun _ => 0, []⟩
/-- PWR_WAKE_EN.en -/ def PWR_WAKE_EN_en : Field := ⟨0x6800C0, 32, .rwl, fun _ => 65, []⟩
/-- PWR_WAKE_AT.at -/ def PWR_WAKE_AT_at : Field := ⟨0x680100, 96, .rwl, fun _ => 0, []⟩
/-- PWR_WAKE_AT.arm -/ def PWR_WAKE_AT_arm : Field := ⟨0x680160, 1, .rw, fun _ => 0, []⟩
/-- PWR_LAST_WAKE.source -/ def PWR_LAST_WAKE_source : Field := ⟨0x680300, 5, .ro, fun _ => 0, []⟩
/-- PWR_LAST_WAKE.during_entry -/ def PWR_LAST_WAKE_during_entry : Field := ⟨0x680305, 1, .ro, fun _ => 0, []⟩
/-- PWR_LAST_WAKE.aborted -/ def PWR_LAST_WAKE_aborted : Field := ⟨0x680306, 1, .ro, fun _ => 0, []⟩
/-- PWR_LAST_WAKE.valid -/ def PWR_LAST_WAKE_valid : Field := ⟨0x680307, 1, .w1c, fun _ => 0, []⟩
/-- PWR_LAST_WAKE.input -/ def PWR_LAST_WAKE_input : Field := ⟨0x680308, 7, .ro, fun _ => 0, []⟩
/-- PWR_LAST_WAKE.from -/ def PWR_LAST_WAKE_from : Field := ⟨0x68030F, 3, .ro, fun _ => 0, []⟩
/-- PWR_LAST_WAKE.time -/ def PWR_LAST_WAKE_time : Field := ⟨0x680380, 96, .ro, fun _ => 0, []⟩
/-- PWR_THERM.warn_c -/ def PWR_THERM_warn_c : Field := ⟨0x680200, 8, .rw, fun _ => 95, []⟩
/-- PWR_THERM.crit_c -/ def PWR_THERM_crit_c : Field := ⟨0x680208, 8, .rw, fun _ => 105, []⟩
/-- PWR_THERM.temp_c -/ def PWR_THERM_temp_c : Field := ⟨0x680210, 8, .ro, fun _ => 0, []⟩
/-- PWR_RAIL.alarm -/ def PWR_RAIL_alarm : Field := ⟨0x680240, 10, .w1c, fun _ => 0, []⟩
/-- PWR_RAIL.in_win -/ def PWR_RAIL_in_win : Field := ⟨0x68024A, 10, .ro, fun _ => 0, []⟩
/-- PWR_DROP.count -/ def PWR_DROP_count : Field := ⟨0x680280, 64, .ro, fun _ => 0, [(64, 2)]⟩
/-- HRD_STAT.state -/ def HRD_STAT_state : Field := ⟨0x700000, 2, .ro, fun _ => 0, []⟩
/-- HRD_STAT.slot -/ def HRD_STAT_slot : Field := ⟨0x700002, 1, .ro, fun _ => 0, []⟩
/-- HRD_STAT.resets -/ def HRD_STAT_resets : Field := ⟨0x700010, 16, .ro, fun _ => 0, []⟩
/-- HRD_STAT.fw_ver -/ def HRD_STAT_fw_ver : Field := ⟨0x700020, 32, .ro, fun _ => 0, []⟩
/-- HRD_CTL.restart -/ def HRD_CTL_restart : Field := ⟨0x700040, 1, .wo, fun _ => 0, []⟩
/-- HRD_CTL.prewarm -/ def HRD_CTL_prewarm : Field := ⟨0x700041, 1, .wo, fun _ => 0, []⟩
/-- HRD_PIN.pin -/ def HRD_PIN_pin : Field := ⟨0x700080, 6, .rw, fun _ => 0, []⟩
/-- HRD_ISL_PIN.pin -/ def HRD_ISL_PIN_pin : Field := ⟨0x700180, 76, .rw, fun _ => 0, []⟩
/-- HRD_FW.fault_vec -/ def HRD_FW_fault_vec : Field := ⟨0x700100, 19, .rw, fun _ => 0, []⟩
/-- HRD_FW.fetch_faults -/ def HRD_FW_fetch_faults : Field := ⟨0x700120, 16, .ro, fun _ => 0, []⟩
/-- HRD_WDOG.period_ms -/ def HRD_WDOG_period_ms : Field := ⟨0x700140, 16, .rwl, fun _ => 100, []⟩
/-- HRD_WDOG.kick -/ def HRD_WDOG_kick : Field := ⟨0x700150, 1, .wo, fun _ => 0, []⟩
/-- HRD_POWER.cap_w -/ def HRD_POWER_cap_w : Field := ⟨0x700200, 10, .rwl, fun _ => 300, []⟩
/-- HRD_POWER.margin_pct -/ def HRD_POWER_margin_pct : Field := ⟨0x70020A, 5, .rwl, fun _ => 3, []⟩
/-- HRD_POWER.p_mw -/ def HRD_POWER_p_mw : Field := ⟨0x700220, 32, .ro, fun _ => 0, []⟩
/-- HRD_DVFS.interval_us -/ def HRD_DVFS_interval_us : Field := ⟨0x700240, 16, .rwl, fun _ => 1000, []⟩
/-- HRD_DVFS.up_pct -/ def HRD_DVFS_up_pct : Field := ⟨0x700250, 7, .rwl, fun _ => 85, []⟩
/-- HRD_DVFS.down_pct -/ def HRD_DVFS_down_pct : Field := ⟨0x700257, 7, .rwl, fun _ => 60, []⟩
/-- HRD_DVFS.step_mhz -/ def HRD_DVFS_step_mhz : Field := ⟨0x70025E, 10, .rwl, fun _ => 100, []⟩
/-- HRD_DDR.hi_c -/ def HRD_DDR_hi_c : Field := ⟨0x700300, 8, .rwl, fun _ => 80, []⟩
/-- HRD_DDR.lo_c -/ def HRD_DDR_lo_c : Field := ⟨0x700308, 8, .rwl, fun _ => 75, []⟩
/-- HRD_DDR.ofs_c -/ def HRD_DDR_ofs_c : Field := ⟨0x700310, 8, .rwl, fun _ => 10, []⟩
/-- HRD_DDR.mpr_en -/ def HRD_DDR_mpr_en : Field := ⟨0x700318, 1, .rwl, fun _ => 0, []⟩
/-- HRD_DDR.force2x -/ def HRD_DDR_force2x : Field := ⟨0x700319, 1, .rwl, fun _ => 0, []⟩
/-- HRD_RC.target_pm -/ def HRD_RC_target_pm : Field := ⟨0x700340, 10, .rwl, fun _ => 990, []⟩
/-- HRD_RC.prewarm_en -/ def HRD_RC_prewarm_en : Field := ⟨0x70034A, 1, .rwl, fun _ => 1, []⟩
/-- HRD_RC.min_fps -/ def HRD_RC_min_fps : Field := ⟨0x70034B, 21, .rwl, fun _ => 100, []⟩
/-- HRD_RC.idle_s -/ def HRD_RC_idle_s : Field := ⟨0x700360, 16, .rwl, fun _ => 60, []⟩
/-- HRD_RC.hit_pm -/ def HRD_RC_hit_pm : Field := ⟨0x700370, 10, .ro, fun _ => 0, []⟩
/-- HRD_LB.en -/ def HRD_LB_en : Field := ⟨0x700380, 4, .rwl, fun _ => 0, []⟩
/-- HRD_LB.hi_pct -/ def HRD_LB_hi_pct : Field := ⟨0x700384, 7, .rwl, fun _ => 80, []⟩
/-- HRD_LB.lo_pct -/ def HRD_LB_lo_pct : Field := ⟨0x70038B, 7, .rwl, fun _ => 50, []⟩
/-- HRD_LB.max_moves -/ def HRD_LB_max_moves : Field := ⟨0x700392, 10, .rwl, fun _ => 10, []⟩
/-- HRD_LB.tmo_ms -/ def HRD_LB_tmo_ms : Field := ⟨0x70039C, 16, .rwl, fun _ => 100, []⟩
/-- HRD_LB_GRP.drovers -/ def HRD_LB_GRP_drovers : Field := ⟨0x700400, 96, .rwl, fun _ => 0, [(128, 4)]⟩
/-- HRD_SERVO.pdv_hi_ns -/ def HRD_SERVO_pdv_hi_ns : Field := ⟨0x700600, 16, .rwl, fun _ => 50, []⟩
/-- HRD_SERVO.pdv_lo_ns -/ def HRD_SERVO_pdv_lo_ns : Field := ⟨0x700610, 16, .rwl, fun _ => 20, []⟩
/-- HRD_SERVO.dreq_min_log -/ def HRD_SERVO_dreq_min_log : Field := ⟨0x700620, 4, .rwl, fun _ => 9, []⟩
/-- HRD_SERVO.dreq_max_log -/ def HRD_SERVO_dreq_max_log : Field := ⟨0x700624, 4, .rwl, fun _ => 13, []⟩
/-- HRD_SERVO.pdv_ns -/ def HRD_SERVO_pdv_ns : Field := ⟨0x700628, 24, .ro, fun _ => 0, []⟩
/-- HRD_CAL.period_s -/ def HRD_CAL_period_s : Field := ⟨0x700640, 16, .rwl, fun _ => 10, []⟩
/-- HRD_CAL.fast_dcps -/ def HRD_CAL_fast_dcps : Field := ⟨0x700650, 8, .rwl, fun _ => 5, []⟩
/-- HRD_ALERT.code -/ def HRD_ALERT_code : Field := ⟨0x700680, 4, .ro, fun _ => 0, []⟩
/-- HRD_ALERT.valid -/ def HRD_ALERT_valid : Field := ⟨0x700684, 1, .w1c, fun _ => 0, []⟩
/-- HRD_ALERT.time -/ def HRD_ALERT_time : Field := ⟨0x7006A0, 96, .ro, fun _ => 0, []⟩
/-- HRD_RAIL_P.mw -/ def HRD_RAIL_P_mw : Field := ⟨0x700800, 32, .ro, fun _ => 0, [(64, 10)]⟩
/-- HRD_RAIL_P.mv -/ def HRD_RAIL_P_mv : Field := ⟨0x700820, 32, .ro, fun _ => 0, [(64, 10)]⟩
/-- HRD_TEMP.temp_c -/ def HRD_TEMP_temp_c : Field := ⟨0x701000, 8, .ro, fun _ => 0, [(16, 128)]⟩
/-- HRD_TEMP.island -/ def HRD_TEMP_island : Field := ⟨0x701008, 7, .ro, fun _ => 0, [(16, 128)]⟩
/-- HRD_ISL_OBJ.floor_mhz -/ def HRD_ISL_OBJ_floor_mhz : Field := ⟨0x708000, 12, .rwl, fun _ => 500, [(64, 76)]⟩
/-- HRD_ISL_OBJ.ceil_mhz -/ def HRD_ISL_OBJ_ceil_mhz : Field := ⟨0x70800C, 12, .rwl, fun _ => 4095, [(64, 76)]⟩
/-- HRD_ISL_OBJ.prio -/ def HRD_ISL_OBJ_prio : Field := ⟨0x708018, 2, .rwl, fun _ => 1, [(64, 76)]⟩
/-- HRD_ISL_OP.req_mhz -/ def HRD_ISL_OP_req_mhz : Field := ⟨0x70A000, 12, .rw, fun _ => 500, [(128, 76)]⟩
/-- HRD_ISL_OP.trim -/ def HRD_ISL_OP_trim : Field := ⟨0x70A00C, 4, .rw, fun _ => 0, [(128, 76)]⟩
/-- HRD_ISL_OP.mhz -/ def HRD_ISL_OP_mhz : Field := ⟨0x70A010, 12, .ro, fun _ => 500, [(128, 76)]⟩
/-- HRD_ISL_OP.mv -/ def HRD_ISL_OP_mv : Field := ⟨0x70A01C, 10, .ro, fun _ => 750, [(128, 76)]⟩
/-- HRD_ISL_OP.mw -/ def HRD_ISL_OP_mw : Field := ⟨0x70A026, 16, .ro, fun _ => 0, [(128, 76)]⟩
/-- HRD_ISL_OP.util_pct -/ def HRD_ISL_OP_util_pct : Field := ⟨0x70A036, 7, .ro, fun _ => 0, [(128, 76)]⟩
/-- HRD_ISL_OP.slack_pct -/ def HRD_ISL_OP_slack_pct : Field := ⟨0x70A040, 7, .ro, fun _ => 0, [(128, 76)]⟩
/-- HRD_CNT.count -/ def HRD_CNT_count : Field := ⟨0x704000, 64, .ro, fun _ => 0, [(64, 12)]⟩
/-- TLY_STAT.seal -/ def TLY_STAT_seal : Field := ⟨0x880000, 2, .ro, fun _ => 0, []⟩
/-- TLY_STAT.state -/ def TLY_STAT_state : Field := ⟨0x880002, 2, .ro, fun _ => 0, []⟩
/-- TLY_STAT.time_valid -/ def TLY_STAT_time_valid : Field := ⟨0x880004, 1, .ro, fun _ => 0, []⟩
/-- TLY_STAT.audit_count -/ def TLY_STAT_audit_count : Field := ⟨0x880020, 32, .ro, fun _ => 0, []⟩
/-- TLY_STAT.head_seq -/ def TLY_STAT_head_seq : Field := ⟨0x880040, 64, .ro, fun _ => 0, []⟩
/-- TLY_RING.ack_seq -/ def TLY_RING_ack_seq : Field := ⟨0x880080, 64, .ro, fun _ => 0, []⟩
/-- TLY_RING.oldest_seq -/ def TLY_RING_oldest_seq : Field := ⟨0x8800C0, 64, .ro, fun _ => 0, []⟩
/-- TLY_SWID.id -/ def TLY_SWID_id : Field := ⟨0x880200, 128, .ro, fun _ => 0, []⟩
/-- TLY_SWID.checksum -/ def TLY_SWID_checksum : Field := ⟨0x880280, 384, .ro, fun _ => 0, []⟩
/-- TLY_PUBKEY.key -/ def TLY_PUBKEY_key : Field := ⟨0x880400, 768, .ro, fun _ => 0, []⟩
/-- TLY_CFG.loud_period_s -/ def TLY_CFG_loud_period_s : Field := ⟨0x880800, 16, .rwt, fun _ => 600, []⟩
/-- TLY_CFG.svc_period_s -/ def TLY_CFG_svc_period_s : Field := ⟨0x880810, 16, .rwt, fun _ => 3600, []⟩
/-- TLY_CFG.tie_period_s -/ def TLY_CFG_tie_period_s : Field := ⟨0x880820, 16, .rwt, fun _ => 60, []⟩
/-- TLY_CFG.tie_limit_ns -/ def TLY_CFG_tie_limit_ns : Field := ⟨0x880840, 32, .rwt, fun _ => 1000, []⟩
/-- TLY_AUTH.cmd_seq -/ def TLY_AUTH_cmd_seq : Field := ⟨0x880900, 64, .ro, fun _ => 0, []⟩
/-- TLY_AUTH.result -/ def TLY_AUTH_result : Field := ⟨0x880940, 4, .ro, fun _ => 0, []⟩
/-- TLY_AUTH.kind -/ def TLY_AUTH_kind : Field := ⟨0x880944, 8, .ro, fun _ => 0, []⟩
/-- TLY_REPLAY.base -/ def TLY_REPLAY_base : Field := ⟨0x880980, 64, .ro, fun _ => 0, []⟩
/-- TLY_CNT.count -/ def TLY_CNT_count : Field := ⟨0x881000, 64, .ro, fun _ => 0, [(64, 10)]⟩
/-- TLY_PROG.chan -/ def TLY_PROG_chan : Field := ⟨0x888000, 512, .rwt, fun _ => 0, [(1024, 256)]⟩
/-- TLY_PROG.ts_ofs -/ def TLY_PROG_ts_ofs : Field := ⟨0x888200, 32, .rwt, fun _ => 0, [(1024, 256)]⟩
/-- TLY_PROG.limit -/ def TLY_PROG_limit : Field := ⟨0x888220, 16, .rwt, fun _ => 32768, [(1024, 256)]⟩
/-- TLY_PROG.tp_limit -/ def TLY_PROG_tp_limit : Field := ⟨0x888230, 16, .rwt, fun _ => 32768, [(1024, 256)]⟩
/-- TLY_PROG.en -/ def TLY_PROG_en : Field := ⟨0x888240, 1, .rwt, fun _ => 0, [(1024, 256)]⟩
/-- TLY_PROG.name -/ def TLY_PROG_name : Field := ⟨0x888280, 256, .rwt, fun _ => 0, [(1024, 256)]⟩
/-- TLY_LIVE.m -/ def TLY_LIVE_m : Field := ⟨0x8C8000, 16, .ro, fun _ => 0, [(64, 256)]⟩
/-- TLY_LIVE.s -/ def TLY_LIVE_s : Field := ⟨0x8C8010, 16, .ro, fun _ => 0, [(64, 256)]⟩
/-- TLY_LIVE.tp -/ def TLY_LIVE_tp : Field := ⟨0x8C8020, 16, .ro, fun _ => 0, [(64, 256)]⟩
/-- TLY_WIN.rec -/ def TLY_WIN_rec : Field := ⟨0x8D0000, 2048, .ro, fun _ => 0, [(2048, 64)]⟩
/-- TLY_RWIN.rec -/ def TLY_RWIN_rec : Field := ⟨0x8F0000, 2048, .ro, fun _ => 0, [(2048, 32)]⟩
/-- LCS_STATE.state -/ def LCS_STATE_state : Field := ⟨0x780000, 3, .ro, fun _ => 0, []⟩
/-- LCS_STATE.pending -/ def LCS_STATE_pending : Field := ⟨0x780003, 1, .ro, fun _ => 0, []⟩
/-- LCS_STATE.target -/ def LCS_STATE_target : Field := ⟨0x780004, 3, .ro, fun _ => 0, []⟩
/-- LCS_STATE.path -/ def LCS_STATE_path : Field := ⟨0x780007, 4, .ro, fun _ => 0, []⟩
/-- LCS_STATE.step -/ def LCS_STATE_step : Field := ⟨0x78000B, 5, .ro, fun _ => 0, []⟩
/-- LCS_STATE.records -/ def LCS_STATE_records : Field := ⟨0x780010, 4, .ro, fun _ => 0, []⟩
/-- LCS_STATE.torn -/ def LCS_STATE_torn : Field := ⟨0x780014, 1, .ro, fun _ => 0, []⟩
/-- LCS_STATE.slot -/ def LCS_STATE_slot : Field := ⟨0x780015, 1, .ro, fun _ => 0, []⟩
/-- LCS_STATE.slots_used -/ def LCS_STATE_slots_used : Field := ⟨0x780016, 2, .ro, fun _ => 0, []⟩
/-- LCS_STATE.test_guard -/ def LCS_STATE_test_guard : Field := ⟨0x780018, 2, .ro, fun _ => 0, []⟩
/-- LCS_STATE.sig_req -/ def LCS_STATE_sig_req : Field := ⟨0x78001A, 1, .ro, fun _ => 0, []⟩
/-- LCS_STATE.compat_dis -/ def LCS_STATE_compat_dis : Field := ⟨0x78001B, 1, .ro, fun _ => 0, []⟩
/-- LCS_STATE.ven_dbg -/ def LCS_STATE_ven_dbg : Field := ⟨0x78001C, 1, .ro, fun _ => 0, []⟩
/-- LCS_STATE.tly_auth -/ def LCS_STATE_tly_auth : Field := ⟨0x78001D, 1, .ro, fun _ => 0, []⟩
/-- LCS_DEBUG.open -/ def LCS_DEBUG_open : Field := ⟨0x780080, 1, .ro, fun _ => 0, []⟩
/-- LCS_DEBUG.compat -/ def LCS_DEBUG_compat : Field := ⟨0x780081, 1, .ro, fun _ => 0, []⟩
/-- LCS_DEBUG.issuer -/ def LCS_DEBUG_issuer : Field := ⟨0x780082, 1, .ro, fun _ => 0, []⟩
/-- LCS_DEBUG.rights -/ def LCS_DEBUG_rights : Field := ⟨0x7800A0, 32, .ro, fun _ => 0, []⟩
/-- LCS_DEBUG.not_after -/ def LCS_DEBUG_not_after : Field := ⟨0x7800C0, 48, .ro, fun _ => 0, []⟩
/-- LCS_DEBUG.remaining_s -/ def LCS_DEBUG_remaining_s : Field := ⟨0x780100, 32, .ro, fun _ => 0, []⟩
/-- LCS_NONCE.nonce -/ def LCS_NONCE_nonce : Field := ⟨0x780200, 256, .ro, fun _ => 0, []⟩
/-- LCS_CMD.op -/ def LCS_CMD_op : Field := ⟨0x780400, 3, .wo, fun _ => 0, []⟩
/-- LCS_CMD.busy -/ def LCS_CMD_busy : Field := ⟨0x780403, 1, .ro, fun _ => 0, []⟩
/-- LCS_CMD.result -/ def LCS_CMD_result : Field := ⟨0x780404, 4, .ro, fun _ => 0, []⟩
/-- LCS_CERT.cert -/ def LCS_CERT_cert : Field := ⟨0x780800, 4096, .rw, fun _ => 0, []⟩
/-- LCS_REC.rec -/ def LCS_REC_rec : Field := ⟨0x782000, 128, .ro, fun _ => 0, [(128, 8)]⟩
/-- LCS_OTP_VALID.uid -/ def LCS_OTP_VALID_uid : Field := ⟨0x782800, 1, .ro, fun _ => 0, []⟩
/-- LCS_OTP_VALID.ven_key -/ def LCS_OTP_VALID_ven_key : Field := ⟨0x782801, 1, .ro, fun _ => 0, []⟩
/-- LCS_OTP_VALID.ven_auth -/ def LCS_OTP_VALID_ven_auth : Field := ⟨0x782802, 1, .ro, fun _ => 0, []⟩
/-- LCS_OTP_VALID.own_key -/ def LCS_OTP_VALID_own_key : Field := ⟨0x782803, 2, .ro, fun _ => 0, []⟩
/-- LCS_OTP_VALID.own_destroyed -/ def LCS_OTP_VALID_own_destroyed : Field := ⟨0x782805, 2, .ro, fun _ => 0, []⟩
/-- LCS_OTP_VALID.img_hash -/ def LCS_OTP_VALID_img_hash : Field := ⟨0x782807, 2, .ro, fun _ => 0, []⟩
/-- LCS_OTP_VALID.own_auth -/ def LCS_OTP_VALID_own_auth : Field := ⟨0x782809, 2, .ro, fun _ => 0, []⟩
/-- LCS_OTP_VALID.tly_seed -/ def LCS_OTP_VALID_tly_seed : Field := ⟨0x78280B, 1, .ro, fun _ => 0, []⟩
/-- BST_CFG.max_par -/ def BST_CFG_max_par : Field := ⟨0x800000, 13, .rwl, fun _ => 4096, []⟩
/-- BST_CFG.retry_max -/ def BST_CFG_retry_max : Field := ⟨0x80000D, 4, .rwl, fun _ => 3, []⟩
/-- BST_CFG.retry_us -/ def BST_CFG_retry_us : Field := ⟨0x800011, 15, .rwl, fun _ => 1000, []⟩
/-- BST_CMD.slice -/ def BST_CMD_slice : Field := ⟨0x800040, 6, .wo, fun _ => 0, []⟩
/-- BST_CMD.op -/ def BST_CMD_op : Field := ⟨0x800046, 3, .wo, fun _ => 0, []⟩
/-- BST_CMD.busy -/ def BST_CMD_busy : Field := ⟨0x800049, 1, .ro, fun _ => 0, []⟩
/-- BST_CMD.result -/ def BST_CMD_result : Field := ⟨0x80004A, 3, .ro, fun _ => 0, []⟩
/-- BST_STAT.running -/ def BST_STAT_running : Field := ⟨0x800080, 64, .ro, fun _ => 0, []⟩
/-- BST_STAT.active -/ def BST_STAT_active : Field := ⟨0x8000C0, 16, .ro, fun _ => 0, []⟩
/-- BST_STAT.log_lost -/ def BST_STAT_log_lost : Field := ⟨0x8000D0, 16, .ro, fun _ => 0, []⟩
/-- BST_REPAIR.fuse -/ def BST_REPAIR_fuse : Field := ⟨0x800100, 7, .ro, fun _ => 0, []⟩
/-- BST_REPAIR.soft -/ def BST_REPAIR_soft : Field := ⟨0x800107, 11, .ro, fun _ => 0, []⟩
/-- BST_REPAIR.soft_ignored -/ def BST_REPAIR_soft_ignored : Field := ⟨0x800112, 10, .ro, fun _ => 0, []⟩
/-- BST_REPAIR.pending -/ def BST_REPAIR_pending : Field := ⟨0x80011C, 11, .ro, fun _ => 0, []⟩
/-- BST_REPAIR.table_valid -/ def BST_REPAIR_table_valid : Field := ⟨0x800127, 1, .ro, fun _ => 0, []⟩
/-- BST_REPAIR.seq -/ def BST_REPAIR_seq : Field := ⟨0x800128, 24, .ro, fun _ => 0, []⟩
/-- BST_GUARD.test_guard -/ def BST_GUARD_test_guard : Field := ⟨0x800180, 2, .ro, fun _ => 0, []⟩
/-- BST_GUARD.cleared -/ def BST_GUARD_cleared : Field := ⟨0x800182, 1, .ro, fun _ => 0, []⟩
/-- BST_GUARD.clear_fail -/ def BST_GUARD_clear_fail : Field := ⟨0x800183, 1, .ro, fun _ => 0, []⟩
/-- BST_FAIL_LOG.macro -/ def BST_FAIL_LOG_macro : Field := ⟨0x800800, 15, .ro, fun _ => 0, []⟩
/-- BST_FAIL_LOG.element -/ def BST_FAIL_LOG_element : Field := ⟨0x80080F, 3, .ro, fun _ => 0, []⟩
/-- BST_FAIL_LOG.word -/ def BST_FAIL_LOG_word : Field := ⟨0x800812, 10, .ro, fun _ => 0, []⟩
/-- BST_FAIL_LOG.repaired -/ def BST_FAIL_LOG_repaired : Field := ⟨0x80081C, 1, .ro, fun _ => 0, []⟩
/-- BST_FAIL_LOG.valid -/ def BST_FAIL_LOG_valid : Field := ⟨0x80081D, 1, .ro, fun _ => 0, []⟩
/-- BST_FAIL_LOG.bits -/ def BST_FAIL_LOG_bits : Field := ⟨0x800820, 72, .ro, fun _ => 0, []⟩
/-- BST_SLICE.cls -/ def BST_SLICE_cls : Field := ⟨0x808000, 4, .rwl, fun k => if k ≤ 10 then k else 0, [(256, 64)]⟩
/-- BST_SLICE.first -/ def BST_SLICE_first : Field := ⟨0x808004, 15, .rwl, fun _ => 0, [(256, 64)]⟩
/-- BST_SLICE.count -/ def BST_SLICE_count : Field := ⟨0x808013, 14, .rwl, fun _ => 0, [(256, 64)]⟩
/-- BST_SLICE.alg -/ def BST_SLICE_alg : Field := ⟨0x808021, 2, .rwl, fun k => if k ≤ 10 then 0 else 1, [(256, 64)]⟩
/-- BST_SLICE.bg -/ def BST_SLICE_bg : Field := ⟨0x808023, 2, .rwl, fun _ => 0, [(256, 64)]⟩
/-- BST_SLICE.shadow -/ def BST_SLICE_shadow : Field := ⟨0x808025, 1, .rwl, fun _ => 0, [(256, 64)]⟩
/-- BST_SLICE.rep -/ def BST_SLICE_rep : Field := ⟨0x808026, 1, .rwl, fun _ => 1, [(256, 64)]⟩
/-- BST_SLICE.budget_us -/ def BST_SLICE_budget_us : Field := ⟨0x808040, 32, .rwl, fun k => if k ≤ 10 then 500 else 0, [(256, 64)]⟩
/-- BST_SLICE_RES.result -/ def BST_SLICE_RES_result : Field := ⟨0x808080, 3, .ro, fun _ => 0, [(256, 64)]⟩
/-- BST_SLICE_RES.retries -/ def BST_SLICE_RES_retries : Field := ⟨0x808083, 3, .ro, fun _ => 0, [(256, 64)]⟩
/-- BST_SLICE_RES.repairs -/ def BST_SLICE_RES_repairs : Field := ⟨0x808086, 10, .ro, fun _ => 0, [(256, 64)]⟩
/-- BST_SLICE_RES.failed -/ def BST_SLICE_RES_failed : Field := ⟨0x808090, 16, .ro, fun _ => 0, [(256, 64)]⟩
/-- BST_SLICE_RES.steps -/ def BST_SLICE_RES_steps : Field := ⟨0x8080A0, 32, .ro, fun _ => 0, [(256, 64)]⟩
/-- BST_SLICE_RES.expected -/ def BST_SLICE_RES_expected : Field := ⟨0x8080C0, 32, .ro, fun _ => 0, [(256, 64)]⟩

end R

/-- Registers of the block at setup offset 0x00_0000. -/
def regsBlock00a : List Register := [
  ⟨0x0, 64, [], [R.SYS_ID_device, R.SYS_ID_family, R.SYS_ID_rev, R.SYS_ID_grade, R.SYS_ID_temp]⟩,
  ⟨0x80, 128, [], [R.SYS_UID_uid]⟩,
  ⟨0x100, 32, [], [R.SYS_STILE_TMO_tmo_ns]⟩,
  ⟨0x120, 32, [], [R.SYS_STILE_TMO_LOG_island, R.SYS_STILE_TMO_LOG_valid, R.SYS_STILE_TMO_LOG_count]⟩,
  ⟨0x800, 32, [], [R.SYS_RING_LOCK_lock, R.SYS_RING_LOCK_by]⟩,
  ⟨0x200, 32, [], [R.SYS_READY_lc, R.SYS_READY_repair, R.SYS_READY_nv, R.SYS_READY_fabric, R.SYS_READY_time, R.SYS_READY_serdes, R.SYS_READY_ddr_trained, R.SYS_READY_ddr_ecc]⟩,
  ⟨0x240, 32, [], [R.SYS_READY_EN_en, R.SYS_READY_EN_ready]⟩]

/-- Registers of the block at setup offset 0x01_0000. -/
def regsBlock01a : List Register := [
  ⟨0x80000, 128, [], [R.TIM_NOW_now]⟩,
  ⟨0x80080, 32, [], [R.TIM_STATUS_cal_done, R.TIM_STATUS_servo, R.TIM_STATUS_step_count]⟩,
  ⟨0x80100, 64, [], [R.TIM_FREQ_ADJ_adj]⟩,
  ⟨0x80180, 64, [], [R.TIM_STEP_ofs]⟩,
  ⟨0x80200, 128, [], [R.TIM_SET_value, R.TIM_SET_go]⟩,
  ⟨0x80400, 32, [], [R.TIM_CLK_CFG_role, R.TIM_CLK_CFG_slave_only, R.TIM_CLK_CFG_oc_port]⟩,
  ⟨0x80800, 64, [], [R.TIM_SERVO_CFG_src, R.TIM_SERVO_CFG_lock_ns, R.TIM_SERVO_CFG_step_ns, R.TIM_SERVO_CFG_slew_ppm]⟩,
  ⟨0x80840, 32, [], [R.TIM_SERVO_KP_gain]⟩,
  ⟨0x80860, 32, [], [R.TIM_SERVO_KI_gain]⟩,
  ⟨0x80880, 64, [], [R.TIM_SERVO_STAT_offset, R.TIM_SERVO_STAT_samples]⟩,
  ⟨0x80900, 32, [], [R.TIM_HOLD_CFG_avg_s, R.TIM_HOLD_CFG_spec_s]⟩,
  ⟨0x81000, 64, [(512, 2)], [R.TIM_PTP_CFG_en, R.TIM_PTP_CFG_subport, R.TIM_PTP_CFG_ipv6, R.TIM_PTP_CFG_one_step, R.TIM_PTP_CFG_dreq_ucast, R.TIM_PTP_CFG_domain, R.TIM_PTP_CFG_sync_log, R.TIM_PTP_CFG_ann_log, R.TIM_PTP_CFG_dreq_log, R.TIM_PTP_CFG_ann_tmo, R.TIM_PTP_CFG_prio1, R.TIM_PTP_CFG_prio2]⟩,
  ⟨0x81040, 64, [(512, 2)], [R.TIM_PTP_STAT_state, R.TIM_PTP_STAT_ignored]⟩,
  ⟨0x81400, 32, [], [R.TIM_PTP_GM_utc_ofs, R.TIM_PTP_GM_leap59, R.TIM_PTP_GM_leap61, R.TIM_PTP_GM_tlv_log]⟩,
  ⟨0x81600, 512, [], [R.TIM_SMPTE_TLV_tlv]⟩,
  ⟨0x81800, 32, [(256, 2)], [R.TIM_PDLY_RX_dly]⟩,
  ⟨0x81820, 32, [(256, 2)], [R.TIM_PDLY_TX_dly]⟩,
  ⟨0x81840, 32, [(256, 2)], [R.TIM_PORT_STAT_ts_valid]⟩,
  ⟨0x82000, 32, [], [R.TIM_CAL_CFG_period_s, R.TIM_CAL_CFG_temp_c]⟩,
  ⟨0x82020, 32, [], [R.TIM_CAL_STAT_island, R.TIM_CAL_STAT_alarm, R.TIM_CAL_STAT_runs]⟩]

/-- Registers of the block at setup offset 0x01_0000. -/
def regsBlock01b : List Register := [
  ⟨0x84000, 32, [(32, 112)], [R.TIM_REPL_ERR_err]⟩,
  ⟨0x85000, 64, [(256, 4)], [R.TIM_SIN_CFG_mode, R.TIM_SIN_CFG_fall, R.TIM_SIN_CFG_ovf, R.TIM_SIN_CFG_rej]⟩,
  ⟨0x85040, 32, [(256, 4)], [R.TIM_SIN_DLY_dly]⟩,
  ⟨0x85080, 128, [(256, 4)], [R.TIM_SIN_TS_ts, R.TIM_SIN_TS_valid]⟩,
  ⟨0x85400, 64, [], [R.TIM_SIN0_TOD_sec]⟩,
  ⟨0x86000, 64, [(512, 8)], [R.TIM_SOUT_CFG_mode, R.TIM_SOUT_CFG_inv, R.TIM_SOUT_CFG_commit, R.TIM_SOUT_CFG_bad, R.TIM_SOUT_CFG_dly]⟩,
  ⟨0x86040, 32, [(512, 8)], [R.TIM_SOUT_NUM_val]⟩,
  ⟨0x86060, 32, [(512, 8)], [R.TIM_SOUT_DEN_val]⟩,
  ⟨0x86080, 32, [(512, 8)], [R.TIM_SOUT_WIDTH_ns]⟩,
  ⟨0x860C0, 64, [(512, 8)], [R.TIM_SOUT_PHASE_ofs]⟩]

/-- Registers of the block at setup offset 0x02_0000. -/
def regsBlock02a : List Register := [
  ⟨0x100000, 32, [(524288, 2)], [R.PRT_CFG_mode, R.PRT_CFG_en, R.PRT_CFG_max_len, R.PRT_CFG_untag_pri, R.PRT_CFG_promisc]⟩,
  ⟨0x100040, 64, [(524288, 2)], [R.PRT_LANE_MAP_tx_map, R.PRT_LANE_MAP_rx_map, R.PRT_LANE_MAP_tx_inv, R.PRT_LANE_MAP_rx_inv]⟩,
  ⟨0x100080, 32, [(524288, 2)], [R.PRT_STATUS_link, R.PRT_STATUS_pcs_lock, R.PRT_STATUS_fec_lock, R.PRT_STATUS_lfault, R.PRT_STATUS_rfault, R.PRT_STATUS_buf_cfg_err, R.PRT_STATUS_map_err]⟩,
  ⟨0x100100, 64, [(524288, 2), (64, 4)], [R.PRT_MAC_ADDR_addr]⟩,
  ⟨0x100200, 32, [(524288, 2)], [R.PRT_PFC_CFG_tx_en, R.PRT_PFC_CFG_rx_en, R.PRT_PFC_CFG_quanta]⟩,
  ⟨0x100400, 64, [(524288, 2), (128, 8)], [R.PRT_BUF_LIM_min, R.PRT_BUF_LIM_max]⟩,
  ⟨0x100440, 64, [(524288, 2), (128, 8)], [R.PRT_BUF_PFC_xoff, R.PRT_BUF_PFC_xon]⟩,
  ⟨0x100C00, 64, [(524288, 2), (64, 8)], [R.PRT_BUF_OCC_cells, R.PRT_BUF_OCC_peak]⟩,
  ⟨0x101000, 64, [(524288, 2)], [R.PRT_EGR_WRR_w]⟩,
  ⟨0x101040, 64, [(524288, 2)], [R.PRT_P7_RATE_mbps, R.PRT_P7_RATE_burst]⟩,
  ⟨0x101800, 32, [(524288, 2)], [R.PRT_HALT_STATE_egr_stop, R.PRT_HALT_STATE_ingr_drop]⟩,
  ⟨0x101880, 128, [(524288, 2), (128, 2)], [R.PRT_HALT_QP_qpn, R.PRT_HALT_QP_peer_qpn, R.PRT_HALT_QP_epsn, R.PRT_HALT_QP_valid]⟩,
  ⟨0x101A00, 256, [(524288, 2)], [R.PRT_HALT_LOG_time, R.PRT_HALT_LOG_seq, R.PRT_HALT_LOG_action, R.PRT_HALT_LOG_ctrl, R.PRT_HALT_LOG_result]⟩,
  ⟨0x101B00, 64, [(524288, 2)], [R.PRT_HALT_CNT_accepted, R.PRT_HALT_CNT_rejected]⟩,
  ⟨0x102000, 64, [(524288, 2), (64, 8)], [R.PRT_DROP_PRI_count]⟩,
  ⟨0x108000, 64, [(524288, 2), (4096, 4), (64, 35)], [R.PRT_CNT_count]⟩]

/-- Registers of the block at setup offset 0x04_0000. -/
def regsBlock04a : List Register := [
  ⟨0x200000, 32, [], [R.RTE_CFG_en, R.RTE_CFG_hash_log]⟩,
  ⟨0x200020, 32, [], [R.RTE_CTL_clear]⟩,
  ⟨0x200040, 32, [], [R.RTE_STATUS_active, R.RTE_STATUS_clearing, R.RTE_STATUS_en_refused, R.RTE_STATUS_streams]⟩,
  ⟨0x200100, 32, [(32, 2)], [R.RTE_KEY_CFG_no_src, R.RTE_KEY_CFG_no_port, R.RTE_KEY_CFG_no_vid, R.RTE_KEY_CFG_no_sport]⟩,
  ⟨0x200200, 64, [(64, 5)], [R.RTE_DEFAULT_kind, R.RTE_DEFAULT_id, R.RTE_DEFAULT_stile, R.RTE_DEFAULT_rx_ctx]⟩,
  ⟨0x200400, 32, [], [R.RTE_CACHE_CFG_pin_ways, R.RTE_CACHE_CFG_prewarm_mps]⟩,
  ⟨0x200800, 32, [(32, 7)], [R.RTE_MISS_LIM_level]⟩,
  ⟨0x200900, 64, [], [R.RTE_MISS_STORM_on, R.RTE_MISS_STORM_off]⟩,
  ⟨0x200A00, 64, [(64, 2)], [R.RTE_MISS_OCC_frames, R.RTE_MISS_OCC_peak]⟩,
  ⟨0x201000, 64, [], [R.RTE_LEARN_en, R.RTE_LEARN_kind, R.RTE_LEARN_id, R.RTE_LEARN_stile, R.RTE_LEARN_sid_base, R.RTE_LEARN_sid_count, R.RTE_LEARN_rate]⟩,
  ⟨0x201040, 512, [], [R.RTE_LEARN_LOG_key, R.RTE_LEARN_LOG_index, R.RTE_LEARN_LOG_valid]⟩,
  ⟨0x201280, 32, [], [R.RTE_AGE_period_s]⟩,
  ⟨0x201800, 32, [], [R.RTE_SALVO_CFG_late_us, R.RTE_SALVO_CFG_drain_us]⟩,
  ⟨0x202000, 512, [(512, 4)], [R.RTE_SALVO_STAT_state, R.RTE_SALVO_STAT_late, R.RTE_SALVO_STAT_partial, R.RTE_SALVO_STAT_cancelled, R.RTE_SALVO_STAT_all, R.RTE_SALVO_STAT_changes, R.RTE_SALVO_STAT_stale, R.RTE_SALVO_STAT_t_req, R.RTE_SALVO_STAT_t_eff, R.RTE_SALVO_STAT_prewarmed, R.RTE_SALVO_STAT_prewarm_miss, R.RTE_SALVO_STAT_swapped, R.RTE_SALVO_STAT_swap_fail]⟩,
  ⟨0x202800, 64, [], [R.RTE_ECC_LOG_rod, R.RTE_ECC_LOG_valid, R.RTE_ECC_LOG_count]⟩,
  ⟨0x203000, 64, [(512, 2), (64, 7)], [R.RTE_MISS_DROP_count]⟩,
  ⟨0x204000, 64, [(64, 15)], [R.RTE_CNT_count]⟩]

/-- Registers of the block at setup offset 0x05_0000. -/
def regsBlock05a : List Register := [
  ⟨0x280000, 32, [], [R.MED_CFG_en]⟩,
  ⟨0x280200, 32, [], [R.MED_CTX_CMD_op, R.MED_CTX_CMD_kind, R.MED_CTX_CMD_port, R.MED_CTX_CMD_index, R.MED_CTX_CMD_busy, R.MED_CTX_CMD_err]⟩,
  ⟨0x280400, 1024, [], [R.MED_CTX_DATA_cfg, R.MED_CTX_DATA_stat]⟩,
  ⟨0x280800, 128, [(512, 2)], [R.MED_ROSTER_CFG_len_m1, R.MED_ROSTER_CFG_width, R.MED_ROSTER_CFG_guard, R.MED_ROSTER_CFG_commit, R.MED_ROSTER_CFG_en, R.MED_ROSTER_CFG_phase]⟩,
  ⟨0x280880, 64, [(512, 2)], [R.MED_ROSTER_STAT_act_len_m1, R.MED_ROSTER_STAT_act_width, R.MED_ROSTER_STAT_pending, R.MED_ROSTER_STAT_copying, R.MED_ROSTER_STAT_commits]⟩,
  ⟨0x281000, 32, [], [R.MED_ROSTER_SEL_port, R.MED_ROSTER_SEL_bank, R.MED_ROSTER_SEL_page]⟩,
  ⟨0x288000, 16, [(16, 2048)], [R.MED_ROSTER_WIN_stream, R.MED_ROSTER_WIN_en]⟩,
  ⟨0x2C0000, 64, [(16384, 2), (64, 256)], [R.MED_TX_HALT_halt]⟩,
  ⟨0x282000, 64, [(64, 17)], [R.MED_CNT_count]⟩]

/-- Registers of the block at setup offset 0x06_0000. -/
def regsBlock06a : List Register := [
  ⟨0x300080, 64, [], [R.FAB_USER_EVT_evt]⟩,
  ⟨0x3000C0, 64, [], [R.FAB_USER_EVT_EN_en]⟩,
  ⟨0x300100, 64, [], [R.FAB_MGMT_STAT_last, R.FAB_MGMT_STAT_busy, R.FAB_MGMT_STAT_served]⟩,
  ⟨0x308000, 32, [(512, 64)], [R.FAB_ISL_STAT_state, R.FAB_ISL_STAT_sect_rcfg, R.FAB_ISL_STAT_mhz]⟩,
  ⟨0x308020, 32, [(512, 64)], [R.FAB_ISL_CTL_ureset]⟩,
  ⟨0x308040, 32, [(512, 64)], [R.FAB_ISL_CLKSEL_src]⟩,
  ⟨0x308060, 32, [(512, 64)], [R.FAB_ISL_CLKDIV_div, R.FAB_ISL_CLKDIV_tb_m, R.FAB_ISL_CLKDIV_pin, R.FAB_ISL_CLKDIV_fmax_mhz]⟩,
  ⟨0x308080, 32, [(512, 64)], [R.FAB_ISL_CFG_tclk, R.FAB_ISL_CFG_sclk, R.FAB_ISL_CFG_mclk]⟩,
  ⟨0x3080C0, 64, [(512, 64)], [R.FAB_ISL_WAND_value, R.FAB_ISL_WAND_force]⟩,
  ⟨0x308100, 64, [(512, 64)], [R.FAB_ISL_STILE_frozen, R.FAB_ISL_STILE_bad, R.FAB_ISL_STILE_tmo, R.FAB_ISL_STILE_trunc]⟩,
  ⟨0x308140, 128, [(512, 64)], [R.FAB_ISL_WCNT_words_in, R.FAB_ISL_WCNT_words_out]⟩,
  ⟨0x3081C0, 64, [(512, 64)], [R.FAB_ISL_ECC_granary, R.FAB_ISL_ECC_uncorr, R.FAB_ISL_ECC_valid, R.FAB_ISL_ECC_corr, R.FAB_ISL_ECC_uncorr_count]⟩]

/-- Registers of the block at setup offset 0x07_0000. -/
def regsBlock07a : List Register := [
  ⟨0x380000, 64, [], [R.CFG_STATUS_state, R.CFG_STATUS_src, R.CFG_STATUS_result, R.CFG_STATUS_fallback, R.CFG_STATUS_phase, R.CFG_STATUS_done_in, R.CFG_STATUS_bell, R.CFG_STATUS_mode, R.CFG_STATUS_pull, R.CFG_STATUS_boot_result]⟩,
  ⟨0x380080, 256, [], [R.CFG_LOAD_LOG_t_end, R.CFG_LOAD_LOG_bytes, R.CFG_LOAD_LOG_fail_off]⟩,
  ⟨0x380200, 256, [], [R.CFG_IMG_ID_build_id]⟩,
  ⟨0x380300, 256, [], [R.CFG_PHASE_phase, R.CFG_PHASE_bell_wait]⟩,
  ⟨0x380400, 32, [], [R.CFG_SLV_TMO_tmo_ms]⟩,
  ⟨0x380420, 32, [], [R.CFG_CMD_reload, R.CFG_CMD_src]⟩,
  ⟨0x380800, 256, [(1024, 4)], [R.CFG_PR_CMD_op, R.CFG_PR_CMD_src_nv, R.CFG_PR_CMD_move, R.CFG_PR_CMD_target, R.CFG_PR_CMD_source, R.CFG_PR_CMD_addr, R.CFG_PR_CMD_at_time]⟩,
  ⟨0x380A00, 256, [(1024, 4)], [R.CFG_PR_STAT_state, R.CFG_PR_STAT_result, R.CFG_PR_STAT_late, R.CFG_PR_STAT_island, R.CFG_PR_STAT_sect, R.CFG_PR_STAT_freeze_ns, R.CFG_PR_STAT_dropped_words, R.CFG_PR_STAT_t_done]⟩,
  ⟨0x382000, 32, [], [R.CFG_SCRUB_CFG_en, R.CFG_SCRUB_CFG_fatal_act]⟩,
  ⟨0x382040, 256, [], [R.CFG_SCRUB_STAT_passes, R.CFG_SCRUB_STAT_corrected, R.CFG_SCRUB_STAT_reloaded, R.CFG_SCRUB_STAT_fatal, R.CFG_SCRUB_STAT_pass_us]⟩,
  ⟨0x382200, 256, [], [R.CFG_SCRUB_LOG_frame, R.CFG_SCRUB_LOG_kind, R.CFG_SCRUB_LOG_valid, R.CFG_SCRUB_LOG_time]⟩,
  ⟨0x382800, 64, [], [R.CFG_RB_CMD_frame, R.CFG_RB_CMD_kind, R.CFG_RB_CMD_island, R.CFG_RB_CMD_chunk, R.CFG_RB_CMD_go, R.CFG_RB_CMD_busy, R.CFG_RB_CMD_status]⟩,
  ⟨0x383000, 2048, [], [R.CFG_RB_DATA_data]⟩]

/-- Registers of the block at setup offset 0x08_0000. -/
def regsBlock08a : List Register := [
  ⟨0x400000, 32, [], [R.NVC_CFG_weak_thr, R.NVC_CFG_retry_en, R.NVC_CFG_seq_tmo_us, R.NVC_CFG_stall_evt_us]⟩,
  ⟨0x400080, 64, [(64, 4)], [R.NVC_BANK_STAT_status]⟩,
  ⟨0x400800, 32, [(32, 101)], [R.NVC_REQ_SEQ_state, R.NVC_REQ_SEQ_bank, R.NVC_REQ_SEQ_result, R.NVC_REQ_SEQ_rmode, R.NVC_REQ_SEQ_rmode_bank]⟩,
  ⟨0x401800, 32, [(32, 4)], [R.NVC_BUF_OWN_owner, R.NVC_BUF_OWN_valid, R.NVC_BUF_OWN_row]⟩,
  ⟨0x402000, 64, [(64, 32)], [R.NVC_WP_prot]⟩,
  ⟨0x402800, 64, [(64, 32)], [R.NVC_WP_CLR_clr]⟩,
  ⟨0x403000, 64, [], [R.NVC_BOOT_sel, R.NVC_BOOT_fb_en, R.NVC_BOOT_rec_valid, R.NVC_BOOT_cur_area, R.NVC_BOOT_seq]⟩,
  ⟨0x403040, 32, [], [R.NVC_BOOT_CMD_new_sel, R.NVC_BOOT_CMD_new_fb, R.NVC_BOOT_CMD_go, R.NVC_BOOT_CMD_busy, R.NVC_BOOT_CMD_result]⟩,
  ⟨0x403800, 64, [(64, 32)], [R.NVC_PMAP_NEW_map]⟩,
  ⟨0x404000, 128, [], [R.NVC_ERR_LOG_cw, R.NVC_ERR_LOG_bits, R.NVC_ERR_LOG_retries, R.NVC_ERR_LOG_uncorr, R.NVC_ERR_LOG_valid, R.NVC_ERR_LOG_time]⟩,
  ⟨0x404100, 32, [], [R.NVC_WEAK_cw, R.NVC_WEAK_valid]⟩,
  ⟨0x404800, 64, [(64, 16)], [R.NVC_CNT_count]⟩]

/-- Registers of the block at setup offset 0x09_0000. -/
def regsBlock09a : List Register := [
  ⟨0x480000, 32, [], [R.DDR_CFG_speed, R.DDR_CFG_x4, R.DDR_CFG_ranks2, R.DDR_CFG_density, R.DDR_CFG_wb_demand]⟩,
  ⟨0x480020, 32, [], [R.DDR_CTL_init, R.DDR_CTL_train]⟩,
  ⟨0x480040, 32, [], [R.DDR_STATUS_trained, R.DDR_STATUS_ecc_ready, R.DDR_STATUS_failed, R.DDR_STATUS_chan_gib]⟩,
  ⟨0x480080, 32, [], [R.DDR_REF_mode, R.DDR_REF_zq_ms]⟩,
  ⟨0x4800C0, 32, [], [R.DDR_SR_idle_us]⟩,
  ⟨0x480100, 32, [], [R.DDR_SCRUB_period_h]⟩,
  ⟨0x480140, 64, [], [R.DDR_SCRUB_STAT_passes, R.DDR_SCRUB_STAT_last_s]⟩,
  ⟨0x488000, 32, [(2048, 12)], [R.DDR_CH_STAT_state, R.DDR_CH_STAT_fail_step, R.DDR_CH_STAT_fail_rank]⟩,
  ⟨0x488040, 32, [(2048, 12)], [R.DDR_CH_EVT_corr_thr, R.DDR_CH_EVT_uncorr, R.DDR_CH_EVT_train_fail, R.DDR_CH_EVT_scrub_pass]⟩,
  ⟨0x488060, 32, [(2048, 12)], [R.DDR_CH_EVT_EN_corr_thr, R.DDR_CH_EVT_EN_uncorr, R.DDR_CH_EVT_EN_train_fail, R.DDR_CH_EVT_EN_scrub_pass]⟩,
  ⟨0x488080, 32, [(2048, 12)], [R.DDR_CH_THR_thr]⟩,
  ⟨0x488100, 256, [(2048, 12)], [R.DDR_ERR_LOG_choff, R.DDR_ERR_LOG_uncorr, R.DDR_ERR_LOG_scrub, R.DDR_ERR_LOG_valid, R.DDR_ERR_LOG_symbols, R.DDR_ERR_LOG_nibbles, R.DDR_ERR_LOG_time]⟩,
  ⟨0x488200, 16, [(2048, 12), (288, 2), (16, 18)], [R.DDR_NIB_CNT_count]⟩,
  ⟨0x488480, 64, [(2048, 12), (64, 9)], [R.DDR_CH_CNT_count]⟩]

/-- Registers of the block at setup offset 0x0A_0000. -/
def regsBlock0Aa : List Register := [
  ⟨0x500000, 64, [], [R.SAC_CFG_disc_en, R.SAC_CFG_g_log, R.SAC_CFG_rai_mbps, R.SAC_CFG_min_mbps, R.SAC_CFG_timer_us, R.SAC_CFG_cnp_us]⟩,
  ⟨0x500200, 256, [(512, 2)], [R.SAC_NET_ipv4, R.SAC_NET_ipv6, R.SAC_NET_vid, R.SAC_NET_tagged, R.SAC_NET_subport]⟩,
  ⟨0x500800, 256, [(512, 2)], [R.SAC_PEER_en, R.SAC_PEER_ipv6, R.SAC_PEER_prefix, R.SAC_PEER_addr]⟩,
  ⟨0x501000, 128, [(512, 2)], [R.SAC_CTRL_bound, R.SAC_CTRL_lost, R.SAC_CTRL_hb_ms, R.SAC_CTRL_rel_on_loss, R.SAC_CTRL_qps, R.SAC_CTRL_last_hb]⟩,
  ⟨0x501800, 32, [(64, 2)], [R.SAC_RING_CTL_ring, R.SAC_RING_CTL_start, R.SAC_RING_CTL_stop, R.SAC_RING_CTL_reset]⟩,
  ⟨0x502000, 256, [(256, 2)], [R.SAC_DIRECT_LOG_off, R.SAC_DIRECT_LOG_status, R.SAC_DIRECT_LOG_write, R.SAC_DIRECT_LOG_valid, R.SAC_DIRECT_LOG_count, R.SAC_DIRECT_LOG_time]⟩,
  ⟨0x508000, 256, [(8192, 2), (512, 16)], [R.SAC_QP_qpn, R.SAC_QP_peer_qpn, R.SAC_QP_state, R.SAC_QP_mtu, R.SAC_QP_sq_psn, R.SAC_QP_rq_psn, R.SAC_QP_rate_mbps]⟩,
  ⟨0x510000, 256, [(16384, 2), (512, 18)], [R.SAC_RING_base, R.SAC_RING_rkey, R.SAC_RING_qp, R.SAC_RING_size_log, R.SAC_RING_en, R.SAC_RING_stop_on_err, R.SAC_RING_err_evt, R.SAC_RING_cpl_ring, R.SAC_RING_dev_idx, R.SAC_RING_host_idx, R.SAC_RING_state]⟩,
  ⟨0x504000, 64, [(2048, 2), (64, 16)], [R.SAC_CNT_count]⟩]

/-- Registers of the block at setup offset 0x0B_0000. -/
def regsBlock0Ba : List Register := [
  ⟨0x580000, 32, [], [R.SEM_CFG_break_en, R.SEM_CFG_search_en]⟩,
  ⟨0x580800, 256, [], [R.SEM_DL_LOG_len, R.SEM_DL_LOG_valid, R.SEM_DL_LOG_members, R.SEM_DL_LOG_sem, R.SEM_DL_LOG_broken, R.SEM_DL_LOG_time]⟩,
  ⟨0x581000, 32, [(64, 3)], [R.SEM_ARB_THR_thr]⟩,
  ⟨0x581800, 32, [], [R.SEM_FORCE_sem, R.SEM_FORCE_go]⟩,
  ⟨0x588000, 256, [(256, 256)], [R.SEM_STATE_owner, R.SEM_STATE_held, R.SEM_STATE_revoked, R.SEM_STATE_waiters]⟩,
  ⟨0x598000, 64, [(64, 256)], [R.SEM_TRY_granted, R.SEM_TRY_owner]⟩,
  ⟨0x59C000, 64, [(64, 256)], [R.SEM_REL_rel]⟩,
  ⟨0x5A0000, 64, [(8192, 3), (64, 101)], [R.SEM_ARB_AGE_cur, R.SEM_ARB_AGE_max]⟩]

/-- Registers of the block at setup offset 0x0C_0000. -/
def regsBlock0Ca : List Register := [
  ⟨0x600000, 32, [], [R.EVT_CFG_en]⟩,
  ⟨0x600040, 64, [], [R.EVT_STAT_q_occ, R.EVT_STAT_q_lost, R.EVT_STAT_mring_lost]⟩,
  ⟨0x600800, 64, [(64, 5)], [R.EVT_PEND_pend]⟩,
  ⟨0x600A00, 64, [(64, 5)], [R.EVT_HPEND_pend]⟩,
  ⟨0x601000, 128, [], [R.EVT_MRING_base, R.EVT_MRING_size_log, R.EVT_MRING_en, R.EVT_MRING_produced]⟩,
  ⟨0x601080, 32, [], [R.EVT_MRING_CONS_consumed]⟩,
  ⟨0x608000, 64, [(64, 320)], [R.EVT_SRC_ring_a0, R.EVT_SRC_ring_a1, R.EVT_SRC_ring_b0, R.EVT_SRC_ring_b1, R.EVT_SRC_hrd, R.EVT_SRC_mring, R.EVT_SRC_coal_us, R.EVT_SRC_coalesced]⟩]

/-- Registers of the block at setup offset 0x0D_0000. -/
def regsBlock0Da : List Register := [
  ⟨0x680000, 32, [], [R.PWR_CTL_req]⟩,
  ⟨0x680040, 64, [], [R.PWR_STAT_state, R.PWR_STAT_entering, R.PWR_STAT_exiting, R.PWR_STAT_result, R.PWR_STAT_entries]⟩,
  ⟨0x680080, 32, [], [R.PWR_RET_gran_grp, R.PWR_RET_drove]⟩,
  ⟨0x6800C0, 32, [], [R.PWR_WAKE_EN_en]⟩,
  ⟨0x680100, 128, [], [R.PWR_WAKE_AT_at, R.PWR_WAKE_AT_arm]⟩,
  ⟨0x680300, 256, [], [R.PWR_LAST_WAKE_source, R.PWR_LAST_WAKE_during_entry, R.PWR_LAST_WAKE_aborted, R.PWR_LAST_WAKE_valid, R.PWR_LAST_WAKE_input, R.PWR_LAST_WAKE_from, R.PWR_LAST_WAKE_time]⟩,
  ⟨0x680200, 32, [], [R.PWR_THERM_warn_c, R.PWR_THERM_crit_c, R.PWR_THERM_temp_c]⟩,
  ⟨0x680240, 32, [], [R.PWR_RAIL_alarm, R.PWR_RAIL_in_win]⟩,
  ⟨0x680280, 64, [(64, 2)], [R.PWR_DROP_count]⟩]

/-- Registers of the block at setup offset 0x0E_0000. -/
def regsBlock0Ea : List Register := [
  ⟨0x700000, 64, [], [R.HRD_STAT_state, R.HRD_STAT_slot, R.HRD_STAT_resets, R.HRD_STAT_fw_ver]⟩,
  ⟨0x700040, 32, [], [R.HRD_CTL_restart, R.HRD_CTL_prewarm]⟩,
  ⟨0x700080, 32, [], [R.HRD_PIN_pin]⟩,
  ⟨0x700180, 128, [], [R.HRD_ISL_PIN_pin]⟩,
  ⟨0x700100, 64, [], [R.HRD_FW_fault_vec, R.HRD_FW_fetch_faults]⟩,
  ⟨0x700140, 32, [], [R.HRD_WDOG_period_ms, R.HRD_WDOG_kick]⟩,
  ⟨0x700200, 64, [], [R.HRD_POWER_cap_w, R.HRD_POWER_margin_pct, R.HRD_POWER_p_mw]⟩,
  ⟨0x700240, 64, [], [R.HRD_DVFS_interval_us, R.HRD_DVFS_up_pct, R.HRD_DVFS_down_pct, R.HRD_DVFS_step_mhz]⟩,
  ⟨0x700300, 32, [], [R.HRD_DDR_hi_c, R.HRD_DDR_lo_c, R.HRD_DDR_ofs_c, R.HRD_DDR_mpr_en, R.HRD_DDR_force2x]⟩,
  ⟨0x700340, 64, [], [R.HRD_RC_target_pm, R.HRD_RC_prewarm_en, R.HRD_RC_min_fps, R.HRD_RC_idle_s, R.HRD_RC_hit_pm]⟩,
  ⟨0x700380, 64, [], [R.HRD_LB_en, R.HRD_LB_hi_pct, R.HRD_LB_lo_pct, R.HRD_LB_max_moves, R.HRD_LB_tmo_ms]⟩,
  ⟨0x700400, 128, [(128, 4)], [R.HRD_LB_GRP_drovers]⟩,
  ⟨0x700600, 64, [], [R.HRD_SERVO_pdv_hi_ns, R.HRD_SERVO_pdv_lo_ns, R.HRD_SERVO_dreq_min_log, R.HRD_SERVO_dreq_max_log, R.HRD_SERVO_pdv_ns]⟩,
  ⟨0x700640, 32, [], [R.HRD_CAL_period_s, R.HRD_CAL_fast_dcps]⟩,
  ⟨0x700680, 128, [], [R.HRD_ALERT_code, R.HRD_ALERT_valid, R.HRD_ALERT_time]⟩,
  ⟨0x700800, 64, [(64, 10)], [R.HRD_RAIL_P_mw, R.HRD_RAIL_P_mv]⟩,
  ⟨0x701000, 16, [(16, 128)], [R.HRD_TEMP_temp_c, R.HRD_TEMP_island]⟩,
  ⟨0x708000, 32, [(64, 76)], [R.HRD_ISL_OBJ_floor_mhz, R.HRD_ISL_OBJ_ceil_mhz, R.HRD_ISL_OBJ_prio]⟩,
  ⟨0x70A000, 128, [(128, 76)], [R.HRD_ISL_OP_req_mhz, R.HRD_ISL_OP_trim, R.HRD_ISL_OP_mhz, R.HRD_ISL_OP_mv, R.HRD_ISL_OP_mw, R.HRD_ISL_OP_util_pct, R.HRD_ISL_OP_slack_pct]⟩,
  ⟨0x704000, 64, [(64, 12)], [R.HRD_CNT_count]⟩]

/-- Registers of the block at setup offset 0x0F_0000. -/
def regsBlock0Fa : List Register := [
  ⟨0x780000, 64, [], [R.LCS_STATE_state, R.LCS_STATE_pending, R.LCS_STATE_target, R.LCS_STATE_path, R.LCS_STATE_step, R.LCS_STATE_records, R.LCS_STATE_torn, R.LCS_STATE_slot, R.LCS_STATE_slots_used, R.LCS_STATE_test_guard, R.LCS_STATE_sig_req, R.LCS_STATE_compat_dis, R.LCS_STATE_ven_dbg, R.LCS_STATE_tly_auth]⟩,
  ⟨0x780080, 192, [], [R.LCS_DEBUG_open, R.LCS_DEBUG_compat, R.LCS_DEBUG_issuer, R.LCS_DEBUG_rights, R.LCS_DEBUG_not_after, R.LCS_DEBUG_remaining_s]⟩,
  ⟨0x780200, 256, [], [R.LCS_NONCE_nonce]⟩,
  ⟨0x780400, 32, [], [R.LCS_CMD_op, R.LCS_CMD_busy, R.LCS_CMD_result]⟩,
  ⟨0x780800, 4096, [], [R.LCS_CERT_cert]⟩,
  ⟨0x782000, 128, [(128, 8)], [R.LCS_REC_rec]⟩,
  ⟨0x782800, 32, [], [R.LCS_OTP_VALID_uid, R.LCS_OTP_VALID_ven_key, R.LCS_OTP_VALID_ven_auth, R.LCS_OTP_VALID_own_key, R.LCS_OTP_VALID_own_destroyed, R.LCS_OTP_VALID_img_hash, R.LCS_OTP_VALID_own_auth, R.LCS_OTP_VALID_tly_seed]⟩]

/-- Registers of the block at setup offset 0x10_0000. -/
def regsBlock10a : List Register := [
  ⟨0x800000, 32, [], [R.BST_CFG_max_par, R.BST_CFG_retry_max, R.BST_CFG_retry_us]⟩,
  ⟨0x800040, 32, [], [R.BST_CMD_slice, R.BST_CMD_op, R.BST_CMD_busy, R.BST_CMD_result]⟩,
  ⟨0x800080, 128, [], [R.BST_STAT_running, R.BST_STAT_active, R.BST_STAT_log_lost]⟩,
  ⟨0x800100, 64, [], [R.BST_REPAIR_fuse, R.BST_REPAIR_soft, R.BST_REPAIR_soft_ignored, R.BST_REPAIR_pending, R.BST_REPAIR_table_valid, R.BST_REPAIR_seq]⟩,
  ⟨0x800180, 32, [], [R.BST_GUARD_test_guard, R.BST_GUARD_cleared, R.BST_GUARD_clear_fail]⟩,
  ⟨0x800800, 128, [], [R.BST_FAIL_LOG_macro, R.BST_FAIL_LOG_element, R.BST_FAIL_LOG_word, R.BST_FAIL_LOG_repaired, R.BST_FAIL_LOG_valid, R.BST_FAIL_LOG_bits]⟩,
  ⟨0x808000, 128, [(256, 64)], [R.BST_SLICE_cls, R.BST_SLICE_first, R.BST_SLICE_count, R.BST_SLICE_alg, R.BST_SLICE_bg, R.BST_SLICE_shadow, R.BST_SLICE_rep, R.BST_SLICE_budget_us]⟩,
  ⟨0x808080, 128, [(256, 64)], [R.BST_SLICE_RES_result, R.BST_SLICE_RES_retries, R.BST_SLICE_RES_repairs, R.BST_SLICE_RES_failed, R.BST_SLICE_RES_steps, R.BST_SLICE_RES_expected]⟩]

/-- Registers of the block at setup offset 0x11_0000. -/
def regsBlock11a : List Register := [
  ⟨0x880000, 128, [], [R.TLY_STAT_seal, R.TLY_STAT_state, R.TLY_STAT_time_valid, R.TLY_STAT_audit_count, R.TLY_STAT_head_seq]⟩,
  ⟨0x880080, 128, [], [R.TLY_RING_ack_seq, R.TLY_RING_oldest_seq]⟩,
  ⟨0x880200, 512, [], [R.TLY_SWID_id, R.TLY_SWID_checksum]⟩,
  ⟨0x880400, 768, [], [R.TLY_PUBKEY_key]⟩,
  ⟨0x880800, 128, [], [R.TLY_CFG_loud_period_s, R.TLY_CFG_svc_period_s, R.TLY_CFG_tie_period_s, R.TLY_CFG_tie_limit_ns]⟩,
  ⟨0x880900, 128, [], [R.TLY_AUTH_cmd_seq, R.TLY_AUTH_result, R.TLY_AUTH_kind]⟩,
  ⟨0x880980, 64, [], [R.TLY_REPLAY_base]⟩,
  ⟨0x881000, 64, [(64, 10)], [R.TLY_CNT_count]⟩,
  ⟨0x888000, 1024, [(1024, 256)], [R.TLY_PROG_chan, R.TLY_PROG_ts_ofs, R.TLY_PROG_limit, R.TLY_PROG_tp_limit, R.TLY_PROG_en, R.TLY_PROG_name]⟩,
  ⟨0x8C8000, 64, [(64, 256)], [R.TLY_LIVE_m, R.TLY_LIVE_s, R.TLY_LIVE_tp]⟩,
  ⟨0x8D0000, 2048, [(2048, 64)], [R.TLY_WIN_rec]⟩,
  ⟨0x8F0000, 2048, [(2048, 32)], [R.TLY_RWIN_rec]⟩]

/-- Registers of the block at setup offset 0x20_0000. -/
def regsBlock20a : List Register := [
  ⟨0x1000000, 32, [(32768, 96)], [R.DRV_CFG_thr_en, R.DRV_CFG_trap_en, R.DRV_CFG_autostart]⟩,
  ⟨0x1000020, 32, [(32768, 96)], [R.DRV_CTL_halt, R.DRV_CTL_resume, R.DRV_CTL_reset, R.DRV_CTL_start]⟩,
  ⟨0x1000040, 64, [(32768, 96)], [R.DRV_STATUS_thr_state, R.DRV_STATUS_halted, R.DRV_STATUS_quiet, R.DRV_STATUS_halt_cause, R.DRV_STATUS_pwr_off, R.DRV_STATUS_late]⟩,
  ⟨0x1000080, 32, [(32768, 96)], [R.DRV_EVT_fault, R.DRV_EVT_wdog, R.DRV_EVT_halted, R.DRV_EVT_fill_done, R.DRV_EVT_rx_full, R.DRV_EVT_ts_lost, R.DRV_EVT_frozen, R.DRV_EVT_sw]⟩,
  ⟨0x10000A0, 32, [(32768, 96)], [R.DRV_EVT_EN_fault, R.DRV_EVT_EN_wdog, R.DRV_EVT_EN_halted, R.DRV_EVT_EN_fill_done, R.DRV_EVT_EN_rx_full, R.DRV_EVT_EN_ts_lost, R.DRV_EVT_EN_frozen, R.DRV_EVT_EN_sw]⟩,
  ⟨0x1000200, 64, [(32768, 96), (64, 8)], [R.DRV_THR_VEC_start, R.DRV_THR_VEC_trap]⟩,
  ⟨0x1000400, 32, [(32768, 96), (32, 8)], [R.DRV_THR_PC_pc]⟩,
  ⟨0x1000800, 256, [(32768, 96), (256, 8)], [R.DRV_THR_FAULT_code, R.DRV_THR_FAULT_active, R.DRV_THR_FAULT_pc, R.DRV_THR_FAULT_addr, R.DRV_THR_FAULT_time]⟩,
  ⟨0x1001000, 64, [(32768, 96)], [R.DRV_WDOG_period_us, R.DRV_WDOG_thr_mask, R.DRV_WDOG_action]⟩,
  ⟨0x1001080, 32, [(32768, 96)], [R.DRV_RX_CFG_full_act, R.DRV_RX_CFG_affinity, R.DRV_RX_CFG_thr_mask]⟩,
  ⟨0x1001100, 32, [(32768, 96)], [R.DRV_SQ_STAT_depth, R.DRV_SQ_STAT_frozen]⟩,
  ⟨0x1001800, 128, [(32768, 96)], [R.DRV_IMEM_LOAD_src, R.DRV_IMEM_LOAD_dst, R.DRV_IMEM_LOAD_len, R.DRV_IMEM_LOAD_go, R.DRV_IMEM_LOAD_busy, R.DRV_IMEM_LOAD_status, R.DRV_IMEM_LOAD_refused]⟩,
  ⟨0x1004000, 64, [(32768, 96), (64, 15)], [R.DRV_CNT_count]⟩,
  ⟨0x1300000, 32, [(32768, 12)], [R.DRV_DROVE_STAT_mhz, R.DRV_DROVE_STAT_halted]⟩,
  ⟨0x1300080, 128, [(32768, 12)], [R.DRV_DROVE_ECC_LOG_addr, R.DRV_DROVE_ECC_LOG_uncorr, R.DRV_DROVE_ECC_LOG_valid, R.DRV_DROVE_ECC_LOG_corr, R.DRV_DROVE_ECC_LOG_uncorr_count]⟩]

/-- The registers of the block that holds setup byte offset `a` (Table 01-9). -/
def regsOf (a : Nat) : List Register :=
  match a / 0x10000 with
  | 0x0 => regsBlock00a
  | 0x1 => regsBlock01a ++ regsBlock01b
  | 0x2 => regsBlock02a
  | 0x3 => regsBlock02a
  | 0x4 => regsBlock04a
  | 0x5 => regsBlock05a
  | 0x6 => regsBlock06a
  | 0x7 => regsBlock07a
  | 0x8 => regsBlock08a
  | 0x9 => regsBlock09a
  | 0xA => regsBlock0Aa
  | 0xB => regsBlock0Ba
  | 0xC => regsBlock0Ca
  | 0xD => regsBlock0Da
  | 0xE => regsBlock0Ea
  | 0xF => regsBlock0Fa
  | 0x10 => regsBlock10a
  | 0x11 => regsBlock11a
  | 0x20 => regsBlock20a
  | 0x21 => regsBlock20a
  | 0x22 => regsBlock20a
  | 0x23 => regsBlock20a
  | 0x24 => regsBlock20a
  | 0x25 => regsBlock20a
  | 0x26 => regsBlock20a
  | _ => []

end Sys2Proof.Machine
end

