-- ==== Sys2Proof/Machine/State.lean ====
section
/-! DEFINITION. The state of the machine: the queue of waiting commands and the device, plain data. The
device holds its setup registers in `regs`, keyed by bit address (Regs.lean), each register absent from
the table at its reset value; what the spec gives the machine beside its registers stands in the
structures below, one for each block. Beads that a duration is counted from or to are beads of the timebase
clock (log entry 160); a target, an eligible time or a time recorded for software is Reckoning time. -/

namespace Sys2Proof.Machine

/-- Chapter 02: the timebase, the servo, PTP, the sync inputs and outputs. -/
structure TimSt where
  /-- The master counter at the last marker, in units of 2^-48 ns (R45). -/
  now : Nat := 0
  /-- The rate correction in use, in units of 2^-48 (R45). -/
  rate : Int := 0
  /-- Controller step requests for the next marker, in the order written (R588). -/
  stepReqs : List StepReq := []
  /-- The servo's step for the next marker, beads (R67, R588). -/
  servoStep : Option Int := none
  /-- The replicas of islands 0 to 111. -/
  replicas : List Replica := List.replicate 112 {}
  /-- Consecutive samples within lock_ns in ACQUIRING (Table 02-2). -/
  lockRun : Nat := 0
  /-- Consecutive samples beyond 8 × lock_ns in LOCKED (Table 02-2). -/
  unlockRun : Nat := 0
  /-- A reference was ever locked since reset (R62). -/
  everLocked : Bool := false
  /-- Beads of the timebase clock at which the servo last left LOCKED (R62). -/
  leftLocked : Nat := 0
  /-- HOLDOVER_SPEC has been raised since the servo left LOCKED. -/
  specDone : Bool := false
  /-- The corrections of LOCKED, newest first, each with its time in beads of the timebase clock (R69). -/
  corr : List (Nat × Int) := []
  /-- Bytes in the PTP queue of each port, of 65,536. -/
  ptpQ : Table Nat := []
  /-- Beads of the timebase clock at the last Sync on each port (R68). -/
  lastSync : Table Nat := []
  /-- The clockClass of the master followed (R62). -/
  masterClass : Nat := 248
  /-- Beads of the timebase clock at the last accepted edge of SYNC_IN0 (R68). -/
  lastPps : Nat := 0
  /-- The phase sample of the last accepted edge of SYNC_IN0, beads (R72). -/
  ppsSample : Option Int := none
  /-- The capture FIFO of each sync input, oldest first: 96-bit times (R71). -/
  sinFifo : Table (List Nat) := []
  /-- The active copy of each sync output (R77). -/
  sout : Table SyncSet := []
  /-- The second at which a requested commit of each output applies (R77), plus one; 0 for none. -/
  soutCommit : Table Nat := []
  /-- Beads from which each output seeks its next edge (R74, R78). -/
  soutFrom : Table Nat := []
  /-- Beads at which the pulse in progress of each output ends (R78). -/
  soutHigh : Table Nat := []
  /-- The always-on monotonic counter: markers since power-on reset (R548, R550). -/
  mono : Nat := 0
  /-- Calibration step reached (Table 02-4): 0 before PLL lock, 2 after it, 4 calibrated. -/
  calStep : Nat := 0
deriving DecidableEq, Repr

/-- Chapter 13: the event unit. -/
structure EvtSt where
  /-- Raises accepted into the queue and not yet taken, oldest first; at most 4,096 (R454). -/
  queue : List EvRec := []
  /-- Raises held in always-on logic while island 105 is without power (R459). -/
  latched : List EvRec := []
  /-- The raise held back in each source's open window, if any (R455). -/
  held : Table (Option EvRec) := []
  /-- The end of each source's coalescing window, beads plus one; 0 when none is open (R455). -/
  window : Table Nat := []
  /-- The lost flag that the next record of the memory ring carries (R456). -/
  mringLost : Bool := false
deriving DecidableEq, Repr

/-- Chapter 03: the ports. Sub-port `s` of port `q` is key 4q + s, priority `p` of port `q` key 8q + p. -/
structure PrtSt where
  /-- Bring-up step of each sub-port (Table 03-2): 0 not enabled or waiting for the SerDes, 2 to 5. -/
  step : Table Nat := []
  /-- The frame being received on each sub-port. -/
  prog : Table InProg := []
  /-- Frames in the shared ingress buffer of each port that wait for the route engine, oldest first. -/
  ingress : Table (List IngFrame) := []
  /-- Frames in the priority 7 buffer of each port, oldest first. -/
  p7 : Table (List IngFrame) := []
  /-- PFC XOFF stands for each priority: the last PFC frame sent had a pause time (R103). -/
  xoff : Table Bool := []
  /-- Beads until which each sub-port and priority is paused, key 8 × (4q + s) + p; 0 for none (R104). -/
  paused : Table Nat := []
  /-- Halters that passed R107 and wait for their action, by port. -/
  halters : Table (List Halter) := []
  /-- R_Key of controller `c`'s halter queue pair, and the controller's IP address. -/
  haltKey : Table Nat := []
  haltIp : Table Nat := []
  /-- Frames of steps 1 and 2 of R99 and of unpaced streams, waiting in the egress queue of each port. -/
  egq : Table (List EgFrame) := []
  /-- Frames that wait at their source for room in the egress queue of each port (R591). -/
  egWait : Table (List EgFrame) := []
  /-- The pending FIFO of paced frames of each sub-port (R187). -/
  fifo : Table (List EgFrame) := []
  /-- Deficit round-robin credit of each sub-port and priority (R99), key 8 × (4q + s) + p. -/
  credit : Table Nat := []
  /-- The priority whose turn it is on each sub-port. -/
  turn : Table Nat := []
  /-- Priority 7 shaper: tokens in bytes, and the beads at which they were last counted. -/
  bucket : Table Nat := []
  bucketAt : Table Nat := []
  /-- Bytes in the egress queue of each port, and those of egress streams (R591). -/
  egBytes : Table Nat := []
  egStreamBytes : Table Nat := []
  /-- When each sub-port is free again (R590), in 1/400 of a bead (a bit time at 400 Gbit/s is 65,536 of
  them). -/
  txEnd : Table Nat := []
deriving DecidableEq, Repr

/-- Chapter 04: the route engine. -/
structure RteSt where
  /-- The route cache, by set (R128). -/
  cache : Table CacheSet := []
  /-- Frames in the miss queue of each port, oldest first, with their keys (R134). -/
  missQ : Table (List (IngFrame × Nat)) := []
  /-- Keys whose table lookup is in flight, oldest first. -/
  inflight : List Nat := []
  /-- MISS_STORM stands for the port: raised and not fallen to off (R136). -/
  storm : Table Bool := []
  /-- The learn log: key, entry index, oldest first, at most 16. -/
  learnLog : List (Nat × Nat) := []
  /-- The second of Reckoning time and the entries learned in it (R139). -/
  learnSec : Nat := 0
  learnCount : Nat := 0
  /-- The entry index plus one that holds each sid (R119). -/
  sids : Table Nat := []
  /-- What each salvo slot has reached. -/
  salvo : Table SalvoRun := []
  /-- Moves of sids between drovers that wait for a frame boundary (R501). -/
  moves : List Move := []
  /-- Kind of each change, key 2^20 s + j: 1 insert, 2 modify, 3 delete, 4 channel, 5 an insert whose swap
  failed (R142, R145). -/
  chgKind : Table Nat := []
  /-- Entry index of each change. -/
  chgEntry : Table Nat := []
deriving DecidableEq, Repr

/-- Chapter 05: the media unit. Egress stream `e` of port `q` is key 16384 q + e. -/
structure MedSt where
  /-- Receive contexts: configuration half, status half; context 0 is at reset enabled, RAW, WAITING. -/
  rx : Table (Nat × Nat) := []
  /-- Pair contexts. -/
  pair : Table (Nat × Nat) := []
  /-- base and late_run of each pair (R160), and beads plus one of the last frame of leg `l`, key
  2 × pair + l (R163). -/
  pairBase : Table Nat := []
  lateRun : Table Nat := []
  legSeen : Table Nat := []
  /-- Beads of the timebase clock at the last frame of each receive context that passed R155 (R158). -/
  rxSeen : Table Nat := []
  /-- The on-chip history pool: units of 256 bits (R161). -/
  hist : Table Nat := []
  /-- Egress contexts. -/
  egr : Table (Nat × Nat) := []
  /-- The paced frames queued on each egress stream, oldest first (R177). -/
  egrQ : Table (List EgFrame) := []
  /-- Beads of the timebase clock plus one since which each stream's queue is empty (R181). -/
  emptyAt : Table Nat := []
  /-- Frames on the droveway to the egress streams of each port, oldest first. -/
  egrIn : Table (List EgReq) := []
  /-- VIDEO schedule of each stream: media frame index N plus one, index of its next frame, its RTP
  timestamp (R186). -/
  vidN : Table Nat := []
  vidJ : Table Nat := []
  vidTs : Table Nat := []
  /-- First sample index of the next audio packet of each stream, plus one (R169). -/
  audNext : Table Nat := []
  /-- Frame store slots, key 65536 × context + slot, the cursor of each store, releases in progress. -/
  slots : Table StoreSlot := []
  cur : Table StoreCur := []
  releases : List Release := []
  /-- The active and shadow copies of the roster slots, key 65536 q + i (R183). -/
  rosAct : Table Nat := []
  rosShad : Table Nat := []
  /-- Active phase of each port's roster, beads. -/
  rosPhase : Table Int := []
  /-- Number of the next slot to serve, counted from the phase, plus one (R182). -/
  rosAt : Table Nat := []
  /-- Beads plus one of the period wrap a pending commit waits for (R183). -/
  rosWrap : Table Nat := []
  /-- Shadow writes that wait while copying is set: input, slot key (131072 + q for MED_ROSTER_CFG), value
  (R183). -/
  rosWait : List (Nat × Nat × Nat) := []
  /-- Frames on the droveway to drovers (by drover) and to fabric islands (2 × island + stile). -/
  drvIn : Table (List RxFrame) := []
  fabIn : Table (List RxFrame) := []
deriving DecidableEq, Repr

/-- A thread of a drover (R233). -/
structure Thr where
  pc : Nat := 0
  /-- Scalar, vector and mask registers. -/
  s : Table Nat := []
  v : Table Nat := []
  m : Table Nat := []
  /-- The instruction word in whose long operation or wait the thread is blocked. -/
  wait : Option Nat := none
  /-- The thread's access has been accepted elsewhere: its semaphore request waits at the unit. -/
  asked : Bool := false
  /-- The target of the thread's comparator, beads, while it is armed (R215). -/
  cmp : Option Nat := none
  /-- Faults due at the next instruction boundary: 0 SEM_REVOKED, 1 WATCHDOG, 2 BREAK (R263). -/
  due : Nat := 0
  /-- Reckoning time, beads, at which the watchdog period in progress began (R223). -/
  kick : Nat := 0
  deint : Deint := {}
deriving DecidableEq, Repr

/-- A drover: windows in allocation order, the last buffer allocated plus one, a frame held at its input,
the send queues, the timestamp FIFO, the DMA channels, the thread that holds each semaphore plus one, and
the Reckoning time, in beads, at which a halt stopped its watchdog. -/
structure Drv where
  wins : List Window := []
  nextBuf : Nat := 0
  held : Bool := false
  sq : Table (List Nat) := []
  ts : List TsEntry := []
  dma : Table DmaChan := []
  sem : Table Nat := []
  haltAt : Nat := 0
  /-- Source, offset and length of the fill in progress, as they stood at go (R229). -/
  fillSrc : Nat := 0
  fillDst : Nat := 0
  fillLen : Nat := 0
deriving DecidableEq, Repr

/-- Chapters 06 and 07: the drovers. Thread `t` of drover `n` is key 8n + t. -/
structure DrvSt where
  thr : Table Thr := []
  drv : Table Drv := []
deriving DecidableEq, Repr

/-- Chapter 11, what is not in registers: DDR4. -/
structure DdrSt where
  /-- 64-byte lines whose stored data is uncorrectable, by address (R399). -/
  bad : List Nat := []
  /-- DDR_CTL.init has been written (R390). -/
  inited : Bool := false
  /-- Beads plus one of the last access of each channel (R404). -/
  lastAcc : Table Nat := []
  /-- Accesses that wait for the wake of each channel, oldest first (R25). -/
  waiting : Table (List DdrAcc) := []
  /-- Patrol scrub: the next line of each channel, beads at which its pass began (R401). -/
  scrubAt : Table Nat := []
  scrubFrom : Table Nat := []
  /-- Beads of the last refresh of each channel, and those at which its tRFC ends (R403). -/
  refAt : Table Nat := []
  refEnd : Table Nat := []
deriving DecidableEq, Repr

/-- Chapter 10, what is not in registers: the NV controller. -/
structure NvcSt where
  /-- Beads of the last write of each input's sequence (R369). -/
  seqAt : Table Nat := []
  /-- The bank, plus one, whose next read by an input returns the status word (READ_STATUS). -/
  statNext : Table Nat := []
  /-- The program buffer of each bank: bytes that are not 0xFF, by offset in the row. -/
  buf : Table (Table Byte) := []
  /-- A data write has fixed the row of the bank's buffer. -/
  rowSet : Table Bool := []
  /-- The operation in progress in each bank. -/
  op : Table (Option NvOp) := []
  /-- The weak codewords, oldest first, at most 16 (R361). -/
  weak : List Nat := []
  /-- Fetches and configuration reads that stand stalled on a busy bank: input (101 configuration), address,
  bytes, beads since which. -/
  stalled : List (Nat × Nat × Nat × Nat) := []
  /-- The boot record areas 0 and 1: their 276 record bytes as a number, erased at reset (R380). -/
  area0 : Nat := 2 ^ 2208 - 1
  area1 : Nat := 2 ^ 2208 - 1
  /-- The record being written and the input that asked for it. -/
  update : Option (Nat × Nat) := none
deriving DecidableEq, Repr

/-- Chapter 12, what is not in registers: the Sacon engine. QP `i` of controller `c` is key 16c + i. -/
structure SacSt where
  /-- Beads plus one of the last CNP sent on each QP (R415). -/
  lastCnp : Table Nat := []
  /-- Ring `r` of controller `c` is key 32c + r. -/
  ring : Table Ring := []
  qp : Table Qp := []
  /-- The next record of an event ring carries lost, key 2c + e; EVT_OVERFLOW stands raised for it. -/
  evtLost : Table Bool := []
  /-- The address that bound each controller (R411), plus one. -/
  bind : Table Nat := []
  /-- The controller's loss has been acted on since its last QP entered RTS. -/
  gone : Table Bool := []
  /-- The value last written to each controller's heartbeat doorbell (R420), and the beads from which its silence
  counts (R437). -/
  hbVal : Table Nat := []
  hbFrom : Table Nat := []
  /-- The second and the replies to discovery requests sent in it, by port (R409). -/
  discSec : Table Nat := []
  discCount : Table Nat := []
  /-- The cycles the last search found (R440). -/
  cycles : List (List Nat) := []
  /-- Requests already reported by ARB_STARVE, key 128 × resource + input (R444). -/
  starved : Table Bool := []
deriving DecidableEq, Repr

/-- Chapter 09, what is not in registers: configuration memory, the load, the slots, the Shepherd. -/
structure CfgSt where
  /-- Configuration frames of 2,048 bits by address; all-zero ones are not listed (R306, R307). -/
  frames : Table Nat := []
  /-- Frames with an uncorrectable word or a CRC that does not match. -/
  bad : List Nat := []
  /-- The NV copy of each frame that has one (R354). -/
  src : Table (Option FrameSrc) := []
  /-- Granary contents by 40 × island + granary, 73,728 bits (R290). -/
  gran : Table Nat := []
  /-- The segment keys kept from the load, by segment (R353). -/
  keys : List SegKey := []
  /-- The load in progress: 0 none, 1 boot, 2 RELOAD, 3 exit from a low-power state; it is the golden load. -/
  load : Nat := 0
  golden : Bool := false
  /-- island_mask of the running full image. -/
  mask : Nat := 0
  /-- Fallback is enabled for the load in progress (R322). -/
  fb : Bool := false
  /-- A result found before any image byte was needed (a slave timeout). -/
  cut : Bool := false
  slave : SlavePort := {}
  /-- The device drives FLOCK_DONE low; the line was seen high since its release; beads plus one of that; the
  bellwether's pulse has been driven; beads plus one of the pacing edge. -/
  flockLow : Bool := true
  seenHigh : Bool := false
  seenAt : Nat := 0
  pulsed : Bool := false
  pacedAt : Nat := 0
  /-- User I/O follow their configuration (phase 4). -/
  io : Bool := false
  slots : Table PrSlot := []
  /-- state_map_id of the image running in each island, plus one. -/
  mapId : Table Nat := []
  /-- Islands that took a partial apply since the last full load (R479). -/
  part : List Nat := []
  /-- The snapshot buffer, 76,800 bits (R350). -/
  snap : Nat := 0
  /-- Sections that fatal_act holds stopped, 8 × island + section (R354). -/
  stopped : List Nat := []
  /-- The Shepherd runs; its next frame, beads at which its pass began, SCRUB_CORRECTED was raised in the pass,
  a frame whose NV read is in flight. -/
  shep : Bool := false
  shepNext : Nat := 0
  shepFrom : Nat := 0
  shepCorr : Bool := false
  shepWait : Option Nat := none
deriving DecidableEq, Repr

/-- Chapter 08, what is not in registers: the fabric islands, and the responses on their way to each by
2 × island + port (R299, R300). -/
structure FabSt where
  isl : Table FabIsl := []
  resp : Table (List FabResp) := []
  /-- Flip-flop states last captured from or restored to each island (R343), 76,800 bits. -/
  ff : Table Nat := []
deriving DecidableEq, Repr

/-- Chapter 15, what is not in registers: the Herdsman. -/
structure HrdSt where
  /-- Its SRAM since the last restart: the number of the drawing that stands for its undefined contents plus
  one; 0 all zero. -/
  sram : Nat := 0
  /-- Beads plus one of the restarts, newest first (R486); the last kick, beads; the fetch-fault handler runs. -/
  restarts : List Nat := []
  kick : Nat := 0
  trap : Bool := false
  /-- CAP_UNMET was raised and the cap is still not met (R496). -/
  capUnmet : Bool := false
  /-- Beads plus one since which the DRAM estimate has stood at or below lo_c (R497). -/
  coolAt : Nat := 0
  /-- Entries pinned by the firmware; frames counter of each sid at the last decision; the second in which its
  sid last had frames (R498). -/
  pins : List Nat := []
  frames : Table Nat := []
  seen : Table Nat := []
  /-- The next entry of the pre-warm in progress plus one: stream entries, then channel entries (R499). -/
  warm : Nat := 0
  /-- Beads plus one of the last move of each sid; the second and the moves of each group in it (R500). -/
  moved : Table Nat := []
  lbSec : Nat := 0
  lbCount : Table Nat := []
  /-- Temperatures of the last 10 s with their beads; REPLICA_ALIGN has been raised and no repeat run asked for;
  the repeat run is under way (R504). -/
  temps : List (Nat × Int) := []
  alarmed : Bool := false
  again : Bool := false
deriving DecidableEq, Repr

/-- Chapter 18, what is not in registers: self-test and repair. -/
structure BstSt where
  slices : Table SliceRun := []
  /-- Repairs in force: fuse entries, soft entries (Table 18-3); how many of the soft ones are saved. -/
  fuse : List Nat := []
  soft : List Nat := []
  saved : List Nat := []
  /-- The two areas of the repair table: seq and entries of a valid one (R571). -/
  area0 : Option (Nat × List Nat) := none
  area1 : Option (Nat × List Nat) := none
  /-- The table being written. -/
  saving : Option (Nat × List Nat) := none
  /-- The fail log: 128-bit entries, oldest first (R573). -/
  log : List Nat := []
deriving DecidableEq, Repr

/-- Chapter 16: the Tally domain. -/
structure TlySt where
  /-- VCC_TLY is in its window and the Tally runs. -/
  on : Bool := false
  /-- Its replica is aligned; beads plus one since which it is, or at which it last was. -/
  aligned : Bool := false
  alignedAt : Nat := 0
  /-- The parameter block: the current area, its contents and those of the other one (R534). -/
  area : Nat := 0
  params : TlyParams := {}
  other : TlyParams := {}
  /-- Records committed since manufacture, records created and not committed, the digest of the last one. -/
  count : Nat := 0
  created : List TlyRec := []
  prev : Nat := 0
  /-- The count each path is expected to bring next, plus one (R511). -/
  expect : Table Nat := []
  /-- Channel `m` of programme `p` is key 16p + m. -/
  chans : Table TlyChan := []
  runs : Table TlyRun := []
  /-- Rate checks by port and egress stream, key 16384 q + e. -/
  rates : Table (Option TlyRate) := []
  /-- Service counts, key (4096 period + tenant) × 2 + port; the (second, sid, tenant, port) credited. -/
  svc : Table TlySvc := []
  credited : List (Nat × Nat × Nat × Nat) := []
  /-- Time-interval error by period. -/
  tie : Table TlyTie := []
  /-- The periods open: loudness, service, TIE, each plus one. -/
  loudP : Nat := 0
  svcP : Nat := 0
  tieP : Nat := 0
  /-- Tap messages on their way to the Tally, oldest first: AUDIO by port, ACCT, PPS (count, 96-bit
  time) (Table 16-1). -/
  audioQ : Table (List TapAudio) := []
  acctQ : List TapAcct := []
  ppsQ : List (Nat × Nat) := []
  /-- The 16-bit count each tap source has reached, by path number (R511). -/
  sent : Table Nat := []
  /-- Inbox messages queued, oldest first (R512). -/
  inbox : List (List Byte) := []
deriving DecidableEq, Repr

/-- A debug session (R550, R551). -/
structure Session where
  rights : Nat
  issuer : Nat := 0
  notAfter : Nat := 0
  dur : Nat := 0
  /-- The monotonic counter at its opening. -/
  opened : Nat := 0
  compat : Bool := false
deriving DecidableEq, Repr

/-- Chapter 17: the life-cycle controller, OTP, debug authorisation, JTAG. -/
structure LcsSt where
  /-- The 8,192 OTP bits (R545), unburned at reset (log entry 3). -/
  otp : Nat := 0
  /-- The certificate in the life-cycle stash of the NV boot block. -/
  stash : Nat := 0
  /-- The monotonic counter when the nonce in force was generated, plus one; 0 for none. -/
  nonceAt : Nat := 0
  /-- The certificate check in progress: its kind and its copy of the buffer. -/
  check : Option (Nat × Nat) := none
  session : Option Session := none
  /-- The JTAG instruction register. -/
  ir : Nat := 2
  /-- The boundary scan register and its update latches (R554). -/
  bsr : Nat := 0
  bsrOut : Nat := 0
  /-- Pins: 0 functional, 1 EXTEST, 2 CLAMP, 3 HIGHZ. -/
  pinMode : Nat := 0
  /-- The last data register value captured for the debugger, and the last DBG_ACCESS status. -/
  dr : Nat := 0
  dbgStatus : Nat := 0
  /-- The device is in scan (R552). -/
  scan : Bool := false
deriving DecidableEq, Repr

/-- Chapter 14: power. -/
structure PwrSt where
  /-- The device is in OFF (R464). -/
  off : Bool := false
  /-- The state an entry in progress goes to. -/
  target : Nat := 0
  /-- The last step of Table 14-7 taken in an entry: 0 none, 2, 3, 5 (the point of no return). -/
  stage : Nat := 0
  /-- The drovers and the fabric clocks are stopped by step 3 of an entry. -/
  stopped : Bool := false
  /-- Reckoning time of that step 3, beads. -/
  stoppedAt : Nat := 0
  /-- Power-on reset release has been taken, and the life-cycle check ended. -/
  started : Bool := false
  /-- Wake sources that fired and wait for the latch: source, requesting input, 96-bit time, oldest
  first (R478). -/
  fired : List (Nat × Nat × Nat) := []
  /-- A wake latched after the point of no return (R478). -/
  latched : Option (Nat × Nat × Nat) := none
  /-- The state the exit in progress leaves. -/
  exitFrom : Nat := 0
  /-- Raises already reported: THERM_WARN, THERM_CRIT (R482). -/
  thermWarn : Bool := false
  thermCrit : Bool := false
deriving DecidableEq, Repr

/-- The device: everything but the queue of commands. -/
structure Dev where
  /-- The setup registers that are not at their reset value, by bit address. -/
  regs : Table Nat := []
  /-- The bytes of the device address space that are not at what an unwritten byte reads as. -/
  mem : List Host.Cell := []
  /-- The condition of each island: 0 running, 1 clock gated, 2 powered off. -/
  isl : Table Nat := []
  /-- Islands whose stiles have timed out since their clock stopped (R23). -/
  tmo : List Nat := []
  /-- How many free values the model has drawn (log entry 4; the model's own field). -/
  free : Nat := 0
  /-- What left the device, newest first (log entry 5; the model's own field). -/
  out : List Out := []
  tim : TimSt := {}
  evt : EvtSt := {}
  prt : PrtSt := {}
  rte : RteSt := {}
  drv : DrvSt := {}
  ddr : DdrSt := {}
  nvc : NvcSt := {}
  med : MedSt := {}
  sac : SacSt := {}
  cfg : CfgSt := {}
  fab : FabSt := {}
  hrd : HrdSt := {}
  bst : BstSt := {}
  tly : TlySt := {}
  pwr : PwrSt := {}
  lcs : LcsSt := {}
deriving DecidableEq, Repr

/-- Why a run stops with a fault. -/
inductive Fault where
  /-- No command raises it: every fault of the spec is state of the machine (a drover's fault code, a
  status, an event), and the run goes on. Safe. -/
  | none
deriving DecidableEq, Repr

/-- Why a command has no meaning. -/
inductive Refusal where
  /-- Raised by the dispatch for a command not modelled yet, by its name in the table. Safe. -/
  | notModelled (mnemonic : String)
deriving DecidableEq, Repr

/-- The machine: the commands that wait, first in first out, and the device. -/
structure State where
  pending : List Instr := []
  dev : Dev := {}
deriving DecidableEq, Repr

/-- The machine at power-on reset: no command waits, every register at its reset value. -/
def State.reset : State := {}

end Sys2Proof.Machine
end

