-- ==== Sys2Proof/Machine/Store.lean ====
section
/-! DEFINITION. Sparse tables (`Table`): reading, writing, the canonical form. -/

namespace Sys2Proof.Machine

variable {α : Type}

/-- What key `k` holds: the first entry of `k`, or `d` where `k` is not listed. -/
def tget (d : α) (t : Table α) (k : Nat) : α :=
  match t with
  | [] => d
  | (k', v) :: r => if k' = k then v else tget d r k

/-- The table without key `k`. -/
def terase (t : Table α) (k : Nat) : Table α :=
  match t with
  | [] => []
  | e :: r => if e.1 = k then terase r k else e :: terase r k

/-- `(k, v)` put before the first larger key. -/
def tinsert (t : Table α) (k : Nat) (v : α) : Table α :=
  match t with
  | [] => [(k, v)]
  | e :: r => if k < e.1 then (k, v) :: e :: r else e :: tinsert r k v

/-- Key `k` set to `v`; the value `d` an unlisted key reads as is not listed. -/
def tset [DecidableEq α] (d : α) (t : Table α) (k : Nat) (v : α) : Table α :=
  if v = d then terase t k else tinsert (terase t k) k v

/-- Keys strictly rising. -/
def rising : Table α → Bool
  | [] => true
  | [_] => true
  | a :: b :: r => decide (a.1 < b.1) && rising (b :: r)

/-- The canonical form of a table whose unlisted keys read as `d`. -/
def tableWf [DecidableEq α] (d : Nat → α) (t : Table α) : Bool :=
  rising t && t.all fun e => decide (e.2 ≠ d e.1)

end Sys2Proof.Machine
end

