-- ==== Sys2Proof/Machine/Ops.lean ====
section
/-! DEFINITION. The shared operations over the state: registers, memory, the next state. -/

namespace Sys2Proof.Machine

/-- The state with its device changed; the queue stands. -/
def State.upd (s : State) (f : Dev → Dev) : State := { s with dev := f s.dev }

/-- The next state of a command that acts in OFF as well: the device changed by `f`. -/
def runAlways (s : State) (f : Dev → Dev) : Host.Outcome State Fault Refusal := .next (s.upd f)

/-- The next state of a command: the device changed by `f`; in OFF nothing but island 101 runs (R464). -/
def run (s : State) (f : Dev → Dev) : Host.Outcome State Fault Refusal :=
  runAlways s fun d => if d.pwr.off then d else f d

/-! ### Registers -/

/-- The bit address of the field's instance `ix`. -/
def Field.key (f : Field) (ix : List Nat) : Nat :=
  f.pos + (f.dims.zip ix).foldl (fun a p => a + p.1.1 * p.2) 0

/-- The reset value of instance `ix`: a function of its last index. -/
def Field.reset (f : Field) (ix : List Nat) : Nat := f.rst (ix.getLastD 0)

/-- The value a field holds. -/
def Dev.rd (d : Dev) (f : Field) (ix : List Nat := []) : Nat :=
  tget (f.reset ix) d.regs (f.key ix)

/-- The device with a field set to the low bits of `v`. -/
def Dev.wr (d : Dev) (f : Field) (ix : List Nat) (v : Nat) : Dev :=
  { d with regs := tset (f.reset ix) d.regs (f.key ix) (v % 2 ^ f.width) }

/-- A field counts up by `n` and holds at its maximum. -/
def Dev.bump (d : Dev) (f : Field) (ix : List Nat) (n : Nat := 1) : Dev :=
  d.wr f ix (satInc f.width (d.rd f ix) n)

/-- A field counts up by one and wraps. -/
def Dev.bumpWrap (d : Dev) (f : Field) (ix : List Nat) (n : Nat := 1) : Dev :=
  d.wr f ix (d.rd f ix + n)

/-- The signed reading of a field. -/
def Dev.rdS (d : Dev) (f : Field) (ix : List Nat := []) : Int := toSigned f.width (d.rd f ix)

/-- A field set to a signed value. -/
def Dev.wrS (d : Dev) (f : Field) (ix : List Nat) (v : Int) : Dev := d.wr f ix (ofSigned f.width v)

/-- A field read as a flag: set is 1. -/
def Dev.flag (d : Dev) (f : Field) (ix : List Nat := []) : Bool := d.rd f ix != 0

/-- Bit `b` of a field set. -/
def Dev.setBit (d : Dev) (f : Field) (ix : List Nat) (b : Nat) : Dev := d.wr f ix (withBit (d.rd f ix) b)

/-- Bit `b` of a field cleared. -/
def Dev.clearBit (d : Dev) (f : Field) (ix : List Nat) (b : Nat) : Dev :=
  d.wr f ix (withoutBit (d.rd f ix) b)

/-! ### Memory -/

/-- What a byte of the device address space that nothing has written reads as: 0xFF in the NV aperture
(erased flash), 0 elsewhere (log entry 6). -/
def memDefault (a : Nat) : Byte := if 0x10000000 ≤ a ∧ a < 0x30000000 then 0xFF else 0

/-- The byte at address `a`. -/
def Dev.byte (d : Dev) (a : Nat) : Byte := tget (memDefault a) d.mem a

/-- The byte at address `a` set. -/
def Dev.setByte (d : Dev) (a : Nat) (b : Byte) : Dev :=
  { d with mem := tset (memDefault a) d.mem a b }

/-- `n` bytes from address `a`. -/
def Dev.bytes (d : Dev) (a n : Nat) : List Byte := (List.range n).map fun i => d.byte (a + i)

/-- Bytes stored from address `a` on. -/
def Dev.setBytes (d : Dev) (a : Nat) (l : List Byte) : Dev :=
  match l with
  | [] => d
  | b :: r => (d.setByte a b).setBytes (a + 1) r

/-- The little-endian number of `n` bytes at `a`. -/
def Dev.load (d : Dev) (a n : Nat) : Nat := ofLe (d.bytes a n)

/-- The `n` low bytes of `v` stored little-endian at `a`. -/
def Dev.store (d : Dev) (a n v : Nat) : Dev := d.setBytes a (leBytes n v)

/-- Memory's canonical form. -/
def memWf (m : List Host.Cell) : Bool := tableWf memDefault m

/-! ### Free values, outputs, islands -/

/-- A free value of `w` bits drawn (log entry 4). -/
def Dev.draw (d : Dev) (w : Nat) : Dev × Nat :=
  ({ d with free := d.free + 1 }, (Config.freeValue d.free).toNat % 2 ^ w)

/-- `n` bytes from `a` take undefined contents: free values. -/
def Dev.loseMem (d : Dev) (a n : Nat) : Dev :=
  (List.range n).foldl (fun (d : Dev) i => let (d, v) := d.draw 8; d.setByte (a + i) (BitVec.ofNat 8 v)) d

/-- `n` free values of 512 bits, side by side. -/
def Dev.drawWide (d : Dev) (n : Nat) : Dev × Nat :=
  (List.range n).foldl (fun (p : Dev × Nat) i => let (d, v) := p.1.draw 512; (d, p.2 + v * 2 ^ (512 * i))) (d, 0)

/-- The bytes of addresses [a, a + n) back at what unwritten bytes read as. -/
def Dev.wipe (d : Dev) (a n : Nat) : Dev :=
  { d with mem := d.mem.filter fun (c : Host.Cell) => !decide (a ≤ c.1 ∧ c.1 < a + n) }

/-- Where the model keeps the private memories of drover `n`: its view of 0xFF_xxxx_xxxx, above the device
address space. -/
def droverPrivate (n : Nat) : Nat := 2 ^ 48 + n * 2 ^ 32

/-- What leaves the device. -/
def Dev.emit (d : Dev) (o : Out) : Dev := { d with out := o :: d.out }

/-- The condition of an island: 0 running, 1 clock gated, 2 powered off. -/
def Dev.island (d : Dev) (i : Nat) : Nat := tget 0 d.isl i

/-- An island's condition set. -/
def Dev.setIsland (d : Dev) (i c : Nat) : Dev :=
  { d with isl := tset 0 d.isl i c, tmo := if c = 0 then d.tmo.filter (· ≠ i) else d.tmo }

/-- The power state beside its registers changed. -/
def Dev.withPwr (d : Dev) (f : PwrSt → PwrSt) : Dev := { d with pwr := f d.pwr }

/-! ### Reckoning time -/

/-- Beads in a second. -/
def beadsPerSec : Nat := 65536000000000

/-- Beads after which the seconds wrap (R53). -/
def beadWrap : Nat := 281474976710656 * beadsPerSec

/-- The instant a 96-bit value names, in beads, normalised (R587). -/
def rawToBeads (r : Nat) : Nat :=
  (bits r 48 48 * beadsPerSec + bits r 16 32 * 65536 + bits r 0 16) % beadWrap

/-- The 96-bit value of an instant in beads (R42). -/
def beadsToRaw (b : Nat) : Nat :=
  b / beadsPerSec % 281474976710656 * 281474976710656
    + b % beadsPerSec / 65536 * 65536 + b % 65536

/-- Reckoning time at the last marker, beads. -/
def Dev.now (d : Dev) : Nat := d.tim.now / 4294967296

/-- Reckoning time at the last marker, 96 bits. -/
def Dev.nowRaw (d : Dev) : Nat := beadsToRaw d.now

/-- Reckoning time is at or after a target, both in beads (R43). -/
def Dev.reached (d : Dev) (target : Nat) : Bool := decide (target ≤ d.now)

/-- The grid point of 2,048 beads `fine` steps after the last marker: a port or sync timestamp (R51). -/
def Dev.stampAt (d : Dev) (fine : Nat) : Nat := d.now / 2048 * 2048 + fine * 2048

/-- The beads counted by the timebase clock since power-on reset: what durations are measured by, since a step
of Reckoning time does not change it (log entry 160). A marker is 256 ns. -/
def Dev.clock (d : Dev) : Nat := d.tim.mono * 16777216

/-- The timebase clock is at or after a count, both in beads. -/
def Dev.passed (d : Dev) (target : Nat) : Bool := decide (target ≤ d.clock)

/-- The count `fine` steps of 2,048 beads after the last marker. -/
def Dev.clockAt (d : Dev) (fine : Nat) : Nat := d.clock + fine * 2048

end Sys2Proof.Machine
end

