-- ==== Sys2Proof/Machine/Operands.lean ====
section
/-! DEFINITION. The operands of the drovers' instructions: a thread's registers, and the fields of an instruction
word in its formats (chapter 07). -/

namespace Sys2Proof.Machine

/-! ### Registers (R233 to R235) -/

/-- Scalar register `i`: s0 reads as zero (R233). -/
def Thr.sreg (x : Thr) (i : Nat) : Nat := if i = 0 then 0 else tget 0 x.s i % 2 ^ 64

/-- Scalar register `i` set; a write of s0 is discarded. -/
def Thr.setS (x : Thr) (i v : Nat) : Thr := if i = 0 then x else { x with s := tset 0 x.s i (v % 2 ^ 64) }
def Thr.vreg (x : Thr) (i : Nat) : Nat := tget 0 x.v i % 2 ^ 512
def Thr.setV (x : Thr) (i v : Nat) : Thr := { x with v := tset 0 x.v i (v % 2 ^ 512) }
/-- Mask register `i`: m0 reads as all ones. -/
def Thr.mreg (x : Thr) (i : Nat) : Nat := if i = 0 then ones 64 else tget 0 x.m i % 2 ^ 64
def Thr.setM (x : Thr) (i v : Nat) : Thr := if i = 0 then x else { x with m := tset 0 x.m i (v % 2 ^ 64) }

/-- The 96-bit value of the time pair that begins at even register `i` (R235). -/
def Thr.timeReg (x : Thr) (i : Nat) : Nat := x.sreg i + x.sreg (i + 1) % 2 ^ 32 * 2 ^ 64
def Thr.setTime (x : Thr) (i raw : Nat) : Thr := (x.setS i raw).setS (i + 1) (bits raw 64 32)

/-! ### Instruction words (R236, R237) -/

/-- Fields of an instruction word in the REG format (Table 07-1). -/
def wMajor (w : Nat) : Nat := bits w 0 7
def wRd (w : Nat) : Nat := bits w 7 5
def wRa (w : Nat) : Nat := bits w 12 5
def wRb (w : Nat) : Nat := bits w 17 5
def wMk (w : Nat) : Nat := bits w 22 3
def wFunc (w : Nat) : Nat := bits w 25 7

/-- imm15 of the IMM and STO formats, sign-extended; as it stands; imm20; the offsets of BR and JMP. -/
def wImm (w : Nat) : Int := toSigned 15 (bits w 17 15)
def wImmU (w : Nat) : Nat := bits w 17 15
def wImm20 (w : Nat) : Nat := bits w 12 20
def wOff12 (w : Nat) : Int := toSigned 12 (bits w 20 12)
def wCond (w : Nat) : Nat := bits w 17 3

/-- The number of an operation within its major opcode: what Table 07-2 and the func tables tell apart. -/
def opSub (w : Nat) : Nat :=
  let m := wMajor w
  if m = 0x06 then bits w 23 2
  else if m = 0x0C then wCond w
  else if m = 0x22 ∨ m = 0x23 then wFunc w / 4
  else if m = 0x32 then wFunc w / 4
  else if m = 0x01 ∨ m = 0x0B ∨ m = 0x1C ∨ m = 0x24 ∨ m = 0x25 ∨ m = 0x28 ∨ m = 0x29 ∨ m = 0x30 ∨ m = 0x31 ∨ m = 0x33
  then wFunc w
  else 0

/-- The operations assigned in a major opcode: a number of subs, counted from 0; none for a reserved major. -/
def opCount (m : Nat) : Nat :=
  if m = 0x01 then 0x16 else if 0x02 ≤ m ∧ m ≤ 0x05 then 1 else if m = 0x06 then 3 else if 0x07 ≤ m ∧ m ≤ 0x0A then 1
  else if m = 0x0B then 7 else if m = 0x0C then 6 else if m = 0x0D ∨ m = 0x0E then 1
  else if 0x10 ≤ m ∧ m ≤ 0x16 then 1 else if 0x18 ≤ m ∧ m ≤ 0x1B then 1 else if m = 0x1C then 6
  else if m = 0x20 ∨ m = 0x21 then 1 else if m = 0x22 then 18 else if m = 0x23 then 4 else if m = 0x24 then 0x0B
  else if m = 0x25 then 2 else if m = 0x28 then 6 else if m = 0x29 then 1 else if m = 0x30 then 7
  else if m = 0x31 then 8 else if m = 0x32 then 3 else if m = 0x33 then 0x0A else 0

/-- The REG format instructions that take a mask, or name a mask register in mk. -/
def takesMask (m sub : Nat) : Bool :=
  m == 0x22 || m == 0x23 || m == 0x25 || m == 0x29 || (m == 0x28 && (sub == 4 || sub == 5)) ||
    (m == 0x24 && (sub == 8 || sub == 9 || sub == 10))

/-- The majors of the REG format. -/
def isReg (m : Nat) : Bool :=
  m ∈ [0x01, 0x0B, 0x1C, 0x22, 0x23, 0x24, 0x25, 0x28, 0x29, 0x30, 0x31, 0x32, 0x33]

end Sys2Proof.Machine
end

