-- ==== Sys2Proof/Machine/Flags.lean ====
section
/-! DEFINITION. Events, cause flags, readiness flags, wake sources, completion statuses: what every block
reports. -/

namespace Sys2Proof.Machine

/-! ### Event source numbers (Tables 13-1, 13-2, 10-9, 12-11) -/

namespace Ev
def readyUp := 0
def readyFlag := 1
def stileTimeout := 2
def accessDenied := 3
def hrdAlert := 4
def hrdLockstep := 5
def timeStep := 16
def servoState := 17
def replicaAlign := 18
def calDone := 19
def syncIn := 20
def syncInOvf := 24
def ppsReject := 25
def soutRefused := 26
def holdoverSpec := 27
def ptpState := 28
def ptpMaster := 30
def rodFull := 104
def missStorm := 105
def routeEcc := 106
def routeLearned := 107
def routeAged := 108
def salvoArmed := 109
def salvoLate := 110
def salvoPrewarmPartial := 111
def salvoCommitted := 112
def salvoRetired := 113
def salvoCancelled := 114
def streamUp := 120
def streamStall := 121
def mergeLegDown := 122
def mergeLegUp := 123
def mergeResync := 124
def storeOverrun := 125
def txSending := 126
def txStarved := 127
def rosterCommitted := 128
def ctxRefused := 129
def drover := 152
def fabricUser := 248
def granaryEcc := 249
def cfgDone := 250
def cfgFailed := 251
def cfgFallback := 252
def prDone := 253
def prFailed := 254
def scrubCorrected := 255
def scrubReloaded := 256
def scrubFatal := 257
def nvOpDone := 264
def nvOpFail := 265
def nvOpRefused := 266
def nvSeqErr := 267
def nvWeak := 268
def nvUncorr := 269
def nvBootrec := 270
def nvStall := 271
def ddr := 272
def cmdError := 284
def ringStopped := 285
def rdmaFault := 286
def qpState := 287
def ctrlLost := 288
def directErr := 289
def cplFull := 290
def evtOverflow := 291
def ringLocked := 292
def semDeadlock := 293
def semRevoked := 294
def arbStarve := 295
def tlyRingWrap := 296
def tlyTapGap := 297
def tlyLoudAlarm := 298
def tlyTieAlarm := 299
def tlySeal := 300
def tlySelfcheck := 301
def lcTransition := 304
def lcResumed := 305
def debugOpen := 306
def debugClosed := 307
def bstDone := 308
def bstFail := 309
def bstAborted := 310
def repair := 311
def pwrState := 312
def pwrWake := 313
def pwrCap := 314
def thermWarn := 315
def thermCrit := 316
def railAlarm := 317
def entryAborted := 318
/-- Port event `k` of port `q` (Table 13-2). -/
def port (q k : Nat) : Nat := 40 + 32 * q + k
end Ev

/-- A raise behind those queued, but ahead of the last of them that are of its own cycle, by their times, and of
higher sources (R454, log entry 161). -/
def queueRaise (r : EvRec) : List EvRec → List EvRec
  | [] => [r]
  | e :: q =>
    if (e :: q).all fun x => x.time == r.time && decide (r.src < x.src) then r :: e :: q else e :: queueRaise r q

/-- A raise enters the queue of 4,096, put where `put` says, or is counted in q_lost (R454). -/
def Dev.acceptRaise (d : Dev) (put : List EvRec → List EvRec) : Dev :=
  if d.evt.queue.length < 4096 then { d with evt := { d.evt with queue := put d.evt.queue } }
  else d.bump R.EVT_STAT_q_lost []

/-- A source raises with a record time of its own: it sets its bit of EVT_PEND (R452), and of EVT_HPEND
where hrd is set (R458), and the raise is queued while EVT_CFG.en is set; while island 105 is without
power it is latched, in source order (R459). A reserved source is never raised (R448). -/
def Dev.raiseAt (d : Dev) (src info time : Nat) (pre : Option Nat := none) : Dev :=
  if evtDefaultH src = 0 then d else
  let d := d.setBit R.EVT_PEND_pend [src / 64] (src % 64)
  let d := if d.flag R.EVT_SRC_hrd [src] then d.setBit R.EVT_HPEND_pend [src / 64] (src % 64) else d
  let r : EvRec := { src := src, info := info % 65536, time := time, pre := pre }
  if d.flag R.EVT_CFG_en then
    (if d.island 105 = 2 then { d with evt := { d.evt with latched := d.evt.latched.filter (·.src ≤ r.src) ++ [r] ++ d.evt.latched.filter (r.src < ·.src) } }
     else d.acceptRaise (queueRaise r))
  else d

/-- A source raises now (R450). -/
def Dev.raise (d : Dev) (src info : Nat) : Dev := d.raiseAt src info d.nowRaw

/-- Bits of a cause register set; the source raises with the bits newly set whose enable is set (R449). -/
def Dev.setCause (d : Dev) (cause en : Field) (ix : List Nat) (src bits : Nat) : Dev :=
  let old := d.rd cause ix
  let new := bits &&& (ones cause.width - (old &&& ones cause.width))
  let fire := new &&& d.rd en ix
  let d := d.wr cause ix (old ||| bits)
  if fire = 0 then d else d.raise src fire

/-! ### Readiness (R465, R468, R469) -/

/-- The flags of SYS_READY, in bit order. -/
def readyFields : List Field :=
  [R.SYS_READY_lc, R.SYS_READY_repair, R.SYS_READY_nv, R.SYS_READY_fabric, R.SYS_READY_time,
   R.SYS_READY_serdes, R.SYS_READY_ddr_trained, R.SYS_READY_ddr_ecc]

/-- SYS_READY as a number. -/
def Dev.readyWord (d : Dev) : Nat :=
  d.rd R.SYS_READY_lc + 2 * d.rd R.SYS_READY_repair + 4 * d.rd R.SYS_READY_nv
    + 8 * d.rd R.SYS_READY_fabric + 16 * d.rd R.SYS_READY_time + 32 * d.rd R.SYS_READY_serdes
    + 64 * d.rd R.SYS_READY_ddr_trained + 128 * d.rd R.SYS_READY_ddr_ecc

/-- The level of READY follows the flags; a rising edge raises READY_UP (R469). -/
def Dev.followReady (d : Dev) : Dev :=
  let en := d.rd R.SYS_READY_EN_en
  let level := bit (d.readyWord &&& en == en)
  let old := d.rd R.SYS_READY_EN_ready
  let d := d.wr R.SYS_READY_EN_ready [] level
  if level = 1 ∧ old = 0 then d.raise Ev.readyUp d.readyWord else d

/-- A SYS_READY flag set or cleared; a change raises READY_FLAG (R468). -/
def Dev.setReady (d : Dev) (b v : Nat) : Dev :=
  let f := readyFields.getD b R.SYS_READY_lc
  if d.rd f = v then d
  else ((d.wr f [] v).raise Ev.readyFlag (b + 32768 * v)).followReady

/-! ### The Herdsman's firmware (R487, R492, R505) -/

/-- The loops run: the firmware runs and its fetches do not stand stalled. -/
def Dev.hrdRuns (d : Dev) : Bool := d.rd R.HRD_STAT_state == 1 && !(d.nvc.stalled.any fun x => x.1 == 99)

/-- Herdsman counter `k` counts (Table 15-7). -/
def Dev.hrdCount (d : Dev) (k : Nat) (n : Nat := 1) : Dev := d.bumpWrap R.HRD_CNT_count [k] n

/-- A loop's bit in HRD_PIN is set. -/
def Dev.loopPinned (d : Dev) (k : Nat) : Bool := (d.rd R.HRD_PIN_pin).testBit k

/-- HRD_ALERT is raised with a code. -/
def Dev.hrdAlert (d : Dev) (code : Nat) : Dev :=
  (((d.wr R.HRD_ALERT_code [] code).wr R.HRD_ALERT_valid [] 1).wr R.HRD_ALERT_time [] d.nowRaw).raise Ev.hrdAlert code

/-! ### Wake sources (R475, R478, R481) -/

/-- The states in which a wake source may wake the device (Table 14-6). -/
def wakeStates (src : Nat) : List Nat :=
  if 7 ≤ src ∧ src ≤ 10 then [1] else if src ≤ 11 then [1, 2, 3] else []

/-- A wake source fires: it waits for the latch while the device is in, or enters, a state the source
may wake, the source is enabled, and no exit runs. -/
def Dev.fireWake (d : Dev) (src inp : Nat) : Dev :=
  let st := if d.flag R.PWR_STAT_entering then d.pwr.target else d.rd R.PWR_STAT_state
  if st ∈ wakeStates src ∧ (src = 6 ∨ (d.rd R.PWR_WAKE_EN_en).testBit src) ∧
      d.rd R.PWR_STAT_exiting = 0 then
    { d with pwr := { d.pwr with fired := d.pwr.fired ++ [(src, inp, d.nowRaw)] } }
  else d

/-! ### Stiles into stopped islands (R23) -/

/-- A word for an island whose clock is gated or whose power is off has waited tmo_ns: it is discarded,
counted and logged, STILE_TIMEOUT raised. -/
def stileTimeout (i : Nat) (d : Dev) : Dev :=
  if d.island i = 0 then d else
  let d := { d with tmo := if i ∈ d.tmo then d.tmo else d.tmo ++ [i] }
  (((d.bump R.SYS_STILE_TMO_LOG_count []).wr R.SYS_STILE_TMO_LOG_island [] i).wr
    R.SYS_STILE_TMO_LOG_valid [] 1).raise Ev.stileTimeout i

/-- Further words for the island are discarded without a wait, until its clock runs again. -/
def Dev.stileGone (d : Dev) (i : Nat) : Bool := decide (i ∈ d.tmo)

/-! ### Taps into the Tally (Table 16-1, R511) -/

/-- The next count of tap path `n`: a 16-bit count that wraps. -/
def Dev.tapCount (d : Dev) (n : Nat) : Nat := (tget 0 d.tly.sent n + 1) % 65536

/-- The count of path `n` advanced. -/
def Dev.tapSent (d : Dev) (n : Nat) : Dev :=
  { d with tly := { d.tly with sent := tset 0 d.tly.sent n (d.tapCount n) } }

/-- Each edge stamped on SYNC_IN0 goes to the Tally (path 3). -/
def Dev.tapPps (d : Dev) (ts : Nat) : Dev :=
  let c := d.tapCount 3
  let d := d.tapSent 3
  { d with tly := { d.tly with ppsQ := d.tly.ppsQ ++ [(c, ts)] } }

/-- A frame handed on is accounted (path 2). -/
def Dev.tapAcct (d : Dev) (tenant sid port len ts : Nat) : Dev :=
  let c := d.tapCount 2
  let d := d.tapSent 2
  { d with tly := { d.tly with acctQ := d.tly.acctQ ++ [⟨c, tenant, sid, port, len, ts⟩] } }

/-- An audio frame that starts transmission goes to the Tally (paths 0 and 1). -/
def Dev.tapAudio (d : Dev) (port stream rtpTs ts : Nat) (payload : List Byte) : Dev :=
  let c := d.tapCount port
  let d := d.tapSent port
  let q := tget [] d.tly.audioQ port ++ [⟨c, port, stream, rtpTs, ts, payload⟩]
  { d with tly := { d.tly with audioQ := tset [] d.tly.audioQ port q } }

/-- An inbox frame's payload goes to the Tally, which queues 16 and counts those it drops (R512). -/
def Dev.tapInbox (d : Dev) (l : List Byte) : Dev :=
  if d.tly.on = false then d
  else if 16 ≤ d.tly.inbox.length then d.bumpWrap R.TLY_CNT_count [2]
  else { d.bumpWrap R.TLY_CNT_count [1] with tly := { d.tly with inbox := d.tly.inbox ++ [l] } }

/-! ### Access to registers: the requester and the status (Table 12-3) -/

/-- Who accesses a register: the arbitration input, and whether a descriptor does it (R427). -/
structure Req where
  inp : Nat
  desc : Bool
deriving DecidableEq, Repr

namespace Sts
def ok := 0
def unmapped := 1
def poweredOff := 2
def protected_ := 3
def locked := 4
def tallyOnly := 5
def notReady := 6
def uncorrectable := 7
def nvBusy := 8
def nvSeqErr := 9
def badDescriptor := 10
def badOpcode := 11
def rdmaError := 12
def timeout := 13
def notOwner := 14
def revoked := 15
def busy := 27
def aborted := 28
end Sts

/-- Ring lock stands against this requester's writes to RWL fields (R434, R427). -/
def Dev.locked (d : Dev) (q : Req) : Bool := d.flag R.SYS_RING_LOCK_lock && !q.desc

/-- An access by input `inp` completed with a status: UNMAPPED, PROTECTED and LOCKED raise ACCESS_DENIED
(Table 13-1). -/
def Dev.denied (d : Dev) (inp status : Nat) : Dev :=
  if status = Sts.unmapped ∨ status = Sts.protected_ ∨ status = Sts.locked
  then d.raise Ev.accessDenied (inp + 256 * status) else d

/-- An access completes: the completion leaves for the requester. -/
def Dev.complete (d : Dev) (q : Req) (status value : Nat) : Dev :=
  (d.emit (.access q.inp status value)).denied q.inp status

/-- A register access to an island: POWERED_OFF while its clock or power is off (R24). -/
def runOn (i : Nat) (q : Req) (s : State) (f : Dev → Dev) : Host.Outcome State Fault Refusal :=
  run s fun d => if d.island i ≠ 0 then d.complete q Sts.poweredOff 0 else f d

/-- The lower of two statuses other than OK (R419). -/
def worst (a b : Nat) : Nat := if a = 0 then b else if b = 0 then a else min a b

end Sys2Proof.Machine
end

