-- ==== Sys2Proof/Machine/Ports.lean ====
section
/-! DEFINITION. Chapter 03: sub-port bring-up, the MAC and its parser, ingress buffers, priority flow
control, the entry to the egress queue. -/

namespace Sys2Proof.Machine

/-- The ports changed. -/
def Dev.withPrt (d : Dev) (f : PrtSt → PrtSt) : Dev := { d with prt := f d.prt }

/-- Counter `k` of sub-port `s` of port `q` counts (Table 03-6). -/
def Dev.prtCount (d : Dev) (q s k : Nat) (n : Nat := 1) : Dev := d.bumpWrap R.PRT_CNT_count [q, s, k] n

/-! ### Modes, enables, bring-up -/

/-- Sub-ports of a mode (Table 03-1). -/
def subports (mode : Nat) : Nat := if mode < 2 then 1 else if mode < 4 then 2 else 4

/-- Nominal rate of a sub-port in Gbit/s. -/
def rateGbps (mode : Nat) : Nat := if mode < 2 then 400 else if mode < 4 then 200 else 100

/-- The beads after which `n` bit times have passed on a sub-port. -/
def bitBeads (mode n : Nat) : Nat := (n * 65536 + rateGbps mode - 1) / rateGbps mode

/-- A lane map names eight different lanes (R85). -/
def laneMapOk (m : Nat) : Bool :=
  let l := (List.range 8).map fun n => bits m (3 * n) 3
  l.all fun x => decide ((l.filter (· == x)).length = 1)

/-- Sub-port `s` of port `q` is up. -/
def Dev.linkUp (d : Dev) (q s : Nat) : Bool := (d.rd R.PRT_STATUS_link [q]).testBit s

/-- Sub-port `s` receives local or remote fault (R90). -/
def Dev.faulted (d : Dev) (q s : Nat) : Bool :=
  (d.rd R.PRT_STATUS_lfault [q] ||| d.rd R.PRT_STATUS_rfault [q]).testBit s

/-- The bring-up step of a sub-port set. -/
def Dev.setStep (d : Dev) (q s n : Nat) : Dev :=
  d.withPrt fun p => { p with step := tset 0 p.step (4 * q + s) n }

/-- The link of a sub-port clears: LINK_DOWN, timestamps not valid (R91, R92, R81). -/
def Dev.linkDown (d : Dev) (q s : Nat) : Dev :=
  let was := d.linkUp q s
  let d := (((d.clearBit R.PRT_STATUS_link [q] s).clearBit R.PRT_STATUS_pcs_lock [q] s).clearBit
    R.PRT_STATUS_fec_lock [q] s).clearBit R.TIM_PORT_STAT_ts_valid [q] s
  if was then (d.raise (Ev.port q 1) s).fireWake (9 + q) 0 else d

/-- A sub-port's enable becomes `on`: set, it starts at step 2 once the SerDes are ready; clear, it goes
down. -/
def Dev.enableSub (d : Dev) (q s : Nat) (on : Bool) : Dev :=
  if on then d.setStep q s (if d.flag R.SYS_READY_serdes then 2 else 0)
  else (d.linkDown q s).setStep q s 0

/-- A write of PRT_CFG (R83, R85, R86): `m` masks the bits written, `v` holds them. -/
def writePrtCfg (r : Req) (q m v : Nat) (d : Dev) : Dev × Nat :=
  if d.locked r then (d, Sts.locked) else
  let oldEn := d.rd R.PRT_CFG_en [q]
  let mode := bits v 0 3
  let wantsMode := bits m 0 3 ≠ 0
  let modeBusy := wantsMode && (oldEn != 0 || decide (mode ≥ 6))
  let d := if wantsMode ∧ modeBusy = false then d.wr R.PRT_CFG_mode [q] mode else d
  let part := fun (d : Dev) (f : Field) (lo : Nat) =>
    let mm := bits m lo f.width
    d.wr f [q] ((d.rd f [q] &&& (ones f.width - mm)) ||| (bits v lo f.width &&& mm))
  let d := part d R.PRT_CFG_max_len 7
  let d := part d R.PRT_CFG_untag_pri 21
  let d := part d R.PRT_CFG_promisc 24
  let mm := bits m 3 4
  let n := subports (d.rd R.PRT_CFG_mode [q])
  let newEn := ((oldEn &&& (15 - mm)) ||| (bits v 3 4 &&& mm)) &&& ones n
  let rises := newEn &&& (15 - oldEn) != 0
  let mapBad := !(laneMapOk (d.rd R.PRT_LANE_MAP_tx_map [q]) && laneMapOk (d.rd R.PRT_LANE_MAP_rx_map [q]))
  if rises && mapBad then
    (((d.wr R.PRT_STATUS_map_err [q] 1).raise (Ev.port q 8) 0), Sts.busy)
  else
    let d := d.wr R.PRT_CFG_en [q] newEn
    let d := (List.range 4).foldl (fun d s =>
      if newEn.testBit s != oldEn.testBit s then d.enableSub q s (newEn.testBit s) else d) d
    (d, if modeBusy then Sts.busy else Sts.ok)

/-- The SerDes are calibrated: enabled sub-ports that waited start (Table 03-2 steps 1 and 2). -/
def serdesCalDone (d : Dev) : Dev :=
  if 2 ≤ d.rd R.PWR_STAT_state ∧ d.flag R.PWR_STAT_exiting = false then d else
  let d := d.setReady 5 1
  [0, 1, 2, 3, 4, 5, 6, 7].foldl (fun d k =>
    if (d.rd R.PRT_CFG_en [k / 4]).testBit (k % 4) ∧ tget 0 d.prt.step k = 0
    then d.setStep (k / 4) (k % 4) 2 else d) d

/-- The CDR locks (step 3). -/
def cdrLock (q s : Nat) (d : Dev) : Dev :=
  if tget 0 d.prt.step (4 * q + s) = 2 then d.setStep q s 3 else d

/-- FEC alignment-marker lock (step 4). -/
def fecLock (q s : Nat) (d : Dev) : Dev :=
  if tget 0 d.prt.step (4 * q + s) = 3 then (d.setBit R.PRT_STATUS_fec_lock [q] s).setStep q s 4 else d

/-- PCS lock: the sub-port comes up (step 5). -/
def pcsLock (q s : Nat) (d : Dev) : Dev :=
  if tget 0 d.prt.step (4 * q + s) = 4 then
    let d := (d.setBit R.PRT_STATUS_pcs_lock [q] s).setBit R.PRT_STATUS_link [q] s
    (((d.setStep q s 5).raise (Ev.port q 0) s)).fireWake (9 + q) 0
  else d

/-! ### Ingress buffers (R100 to R102) and priority flow control (R103, R104) -/

/-- A PFC frame for priority `p` leaves on every up sub-port of port `q` that receives no fault (R103, R90)
and is counted as sent, an XOFF frame also by its priority. -/
def Dev.sendPfc (d : Dev) (q p quanta : Nat) : Dev :=
  (List.range 4).foldl (fun d s =>
    if d.linkUp q s && !d.faulted q s then
      let d := (d.emit (.pfc q s p quanta)).prtCount q s 14 |>.prtCount q s 15 64
      if quanta = 0 then d else d.prtCount q s (27 + p)
    else d) d

/-- Cells free in the shared pool of port `q`, and cells kept back by unused minimums. -/
def Dev.poolFree (d : Dev) (q : Nat) : Nat :=
  98304 - ((List.range 7).map fun p => d.rd R.PRT_BUF_OCC_cells [q, p]).sum
def Dev.poolKept (d : Dev) (q : Nat) : Nat :=
  ((List.range 7).map fun p => d.rd R.PRT_BUF_LIM_min [q, p] - d.rd R.PRT_BUF_OCC_cells [q, p]).sum

/-- A cell can be given to priority `p` (R100, R102). -/
def Dev.cellFree (d : Dev) (q p : Nat) : Bool :=
  let occ := d.rd R.PRT_BUF_OCC_cells [q, p]
  if p = 7 then decide (occ < 1024)
  else decide (occ < d.rd R.PRT_BUF_LIM_max [q, p]) &&
    (decide (occ < d.rd R.PRT_BUF_LIM_min [q, p]) || decide (d.poolKept q < d.poolFree q))

/-- A cell given: occupancy, peak, XOFF when the threshold is reached. -/
def Dev.takeCell (d : Dev) (q p : Nat) : Dev :=
  let occ := d.rd R.PRT_BUF_OCC_cells [q, p] + 1
  let d := d.wr R.PRT_BUF_OCC_cells [q, p] occ
  let d := if d.rd R.PRT_BUF_OCC_peak [q, p] < occ then d.wr R.PRT_BUF_OCC_peak [q, p] occ else d
  if (d.rd R.PRT_PFC_CFG_tx_en [q]).testBit p ∧ d.rd R.PRT_BUF_PFC_xoff [q, p] ≤ occ ∧
      tget false d.prt.xoff (8 * q + p) = false then
    (d.withPrt fun s => { s with xoff := tset false s.xoff (8 * q + p) true }).sendPfc q p
      (d.rd R.PRT_PFC_CFG_quanta [q])
  else d

/-- Cells freed: occupancy falls, and XON is sent when it falls below xon (R103). -/
def Dev.freeCells (d : Dev) (q p n : Nat) : Dev :=
  let occ := d.rd R.PRT_BUF_OCC_cells [q, p] - n
  let d := d.wr R.PRT_BUF_OCC_cells [q, p] occ
  if tget false d.prt.xoff (8 * q + p) = true ∧ occ < d.rd R.PRT_BUF_PFC_xon [q, p] then
    (d.withPrt fun s => { s with xoff := tset false s.xoff (8 * q + p) false }).sendPfc q p 0
  else d

/-- A frame of priority `p` dropped for lack of buffer, from any cause (PRT_DROP_PRI, BUF_DROP). -/
def Dev.dropPri (d : Dev) (q p : Nat) : Dev :=
  (d.bumpWrap R.PRT_DROP_PRI_count [q, p]).raise (Ev.port q 5) p

/-- The frame in progress on a sub-port set. -/
def Dev.setProg (d : Dev) (q s : Nat) (i : InProg) : Dev :=
  d.withPrt fun p => { p with prog := tset {} p.prog (4 * q + s) i }

/-- The frame in progress on sub-port `s` asks for one cell of priority `p`; when none can be given the
frame is dropped whole and its cells are freed (R100). -/
def cellAlloc (q s p : Nat) (d : Dev) : Dev :=
  let i := tget {} d.prt.prog (4 * q + s)
  if i.dropped then d
  else if d.cellFree q p then (d.takeCell q p).setProg q s { cells := i.cells + 1, pri := p }
  else ((d.freeCells q i.pri i.cells).setProg q s { pri := p, dropped := true }).dropPri q p

/-- The cells a frame of `n` bytes occupies. -/
def cellsOf (n : Nat) : Nat := (n + 16 + 255) / 256

/-- The frame in progress asks for the cells it still lacks. -/
def cellsAlloc (q s p : Nat) (n : Nat) (d : Dev) : Dev :=
  match n with
  | 0 => d
  | n + 1 => cellsAlloc q s p n (cellAlloc q s p d)

/-- The frame in progress ends without the buffer: its cells are freed. -/
def Dev.endProg (d : Dev) (q s : Nat) : Dev :=
  let i := tget {} d.prt.prog (4 * q + s)
  (if i.cells = 0 then d else d.freeCells q i.pri i.cells).setProg q s {}

/-- A write of PRT_BUF_LIM of priority `p` (R101): both fields as they would stand. -/
def writeBufLim (r : Req) (q p m v : Nat) (d : Dev) : Dev × Nat :=
  if d.locked r then (d, Sts.locked) else
  let mix := fun (old lo : Nat) => (old &&& (ones 17 - bits m lo 17)) ||| (bits v lo 17 &&& bits m lo 17)
  let newMin := mix (d.rd R.PRT_BUF_LIM_min [q, p]) 0
  let newMax := mix (d.rd R.PRT_BUF_LIM_max [q, p]) 32
  let sum := ((List.range 7).map fun k => if k = p then newMin else d.rd R.PRT_BUF_LIM_min [q, k]).sum
  if p < 7 ∧ sum > 98304 then
    ((d.wr R.PRT_STATUS_buf_cfg_err [q] 1).raise (Ev.port q 9) 0, Sts.busy)
  else ((d.wr R.PRT_BUF_LIM_min [q, p] newMin).wr R.PRT_BUF_LIM_max [q, p] newMax, Sts.ok)

/-- Half the pause time has passed: XOFF is repeated while occupancy is at or above xon (R103). -/
def pfcRefresh (q p : Nat) (d : Dev) : Dev :=
  if tget false d.prt.xoff (8 * q + p) = true ∧
      d.rd R.PRT_BUF_PFC_xon [q, p] ≤ d.rd R.PRT_BUF_OCC_cells [q, p] then
    d.sendPfc q p (d.rd R.PRT_PFC_CFG_quanta [q])
  else d

/-- A PFC frame of 64 bytes arrives and is counted as received: `en` names priorities, `times` their pause
times in quanta of 512 bit times (R104, Table 03-6). -/
def pfcFrameRx (q s en : Nat) (times : List Nat) (d : Dev) : Dev :=
  if d.linkUp q s = false then d else
  let mode := d.rd R.PRT_CFG_mode [q]
  (List.range 8).foldl (fun d p =>
    if en.testBit p then
      let t := times.getD p 0 % 65536
      let d := if t = 0 then d else d.prtCount q s (19 + p)
      if (d.rd R.PRT_PFC_CFG_rx_en [q]).testBit p then
        let until_ := if t = 0 then 0 else d.clock + bitBeads mode (512 * t)
        d.withPrt fun x => { x with paused := tset 0 x.paused (8 * (4 * q + s) + p) until_ }
      else d
    else d) ((d.prtCount q s 0).prtCount q s 1 64)

/-- A pause time runs out (R104). -/
def pfcExpire (q s p : Nat) (d : Dev) : Dev :=
  if d.passed (tget 0 d.prt.paused (8 * (4 * q + s) + p)) then
    d.withPrt fun x => { x with paused := tset 0 x.paused (8 * (4 * q + s) + p) 0 }
  else d

/-! ### FEC and faults -/

/-- A codeword decoded: `some n` corrected with `n` symbols, `none` uncorrectable (R89). -/
def fecCodeword (q s : Nat) (r : Option Nat) (d : Dev) : Dev :=
  match r with
  | some 0 => d
  | some n => (d.prtCount q s 10).prtCount q s 13 n
  | none => (d.prtCount q s 11).raise (Ev.port q 4) s

/-- Local and remote fault ordered sets start or stop arriving (R90). -/
def faultChange (q s : Nat) (l r : Bool) (d : Dev) : Dev :=
  let one := fun (d : Dev) (f : Field) (k : Nat) (on : Bool) =>
    let was := (d.rd f [q]).testBit s
    if on then (if was then d else (d.setBit f [q] s).raise (Ev.port q k) s)
    else d.clearBit f [q] s
  one (one d R.PRT_STATUS_lfault 6 l) R.PRT_STATUS_rfault 7 r

/-- PCS lock lost: the sub-port goes down and returns to step 3; a frame being received is dropped
(R92). -/
def pcsLockLoss (q s : Nat) (busy : Bool) (d : Dev) : Dev :=
  if tget 0 d.prt.step (4 * q + s) = 5 then
    let d := (d.linkDown q s).setStep q s 3
    if busy then (d.endProg q s).prtCount q s 8 else d
  else d

/-! ### The parser (R95, R96, R106, R120) -/

/-- `n` bytes from offset `o`, as a big-endian number. -/
def be (l : List Byte) (o n : Nat) : Nat := ofBe ((l.drop o).take n)

/-- What the parser extracts from a frame. -/
structure Parsed where
  tagged : Bool
  tpid : Nat
  vid : Nat
  pcp : Nat
  etherType : Nat
  /-- Offset of the network header. -/
  l3 : Nat
  /-- 4, 6, or 0 when the frame is not IP. -/
  ip : Nat
  src : Nat
  dst : Nat
  ce : Bool
  frag : Bool
  /-- UDP directly above IP, no fragment and no IPv6 extension header. -/
  udp : Bool
  sport : Nat
  dport : Nat
  /-- Offset of the UDP payload and the payload itself. -/
  data : Nat
  payload : List Byte
deriving DecidableEq, Repr

/-- The parser: at most one VLAN tag, TPID 0x8100 (R95); IPv4 options skipped by the header length. -/
def parse (b : List Byte) : Parsed :=
  let tpid := be b 12 2
  let tagged := tpid == 0x8100
  let l3 := if tagged then 18 else 14
  let et := be b (l3 - 2) 2
  let ver := be b l3 1 / 16
  let ip := if et = 0x0800 ∧ ver = 4 then 4 else if et = 0x86DD ∧ ver = 6 then 6 else 0
  let ihl := if ip = 4 then be b l3 1 % 16 * 4 else 40
  let frag := ip == 4 && be b (l3 + 6) 2 % 0x4000 != 0
  let proto := if ip = 4 then be b (l3 + 9) 1 else be b (l3 + 6) 1
  let u := l3 + ihl
  let isUdp := ip != 0 && !frag && proto == 17
  let ulen := be b (u + 4) 2
  { tagged := tagged, tpid := tpid, vid := if tagged then be b 14 2 % 4096 else 0,
    pcp := if tagged then be b 14 2 / 8192 else 0, etherType := et, l3 := l3, ip := ip,
    src := if ip = 4 then be b (l3 + 12) 4 else be b (l3 + 8) 16,
    dst := if ip = 4 then be b (l3 + 16) 4 else be b (l3 + 24) 16,
    ce := if ip = 4 then be b (l3 + 1) 1 % 4 == 3 else ip == 6 && be b l3 2 / 16 % 4 == 3,
    frag := frag, udp := isUdp, sport := be b u 2, dport := be b (u + 2) 2, data := u + 8,
    payload := ((b.take (b.length - 4)).drop (u + 8)).take (ulen - 8) }

/-- FE80::/64 with the interface identifier of SYS_UID (R407). -/
def Dev.linkLocal (d : Dev) : Nat := 0xFE80 * 2 ^ 112 + bits (d.rd R.SYS_UID_uid) 0 64

/-- An address is the Sacon address of port `q` (R407). -/
def Dev.isSacon (d : Dev) (q ip a : Nat) : Bool :=
  if ip = 4 then a != 0 && a == d.rd R.SAC_NET_ipv4 [q]
  else if ip = 6 then (a != 0 && a == d.rd R.SAC_NET_ipv6 [q]) || a == d.linkLocal
  else false

/-- The group FF02::1, part of the Sacon address for discovery datagrams only (R407). -/
def groupAllNodes : Nat := 0xFF02 * 2 ^ 112 + 1

/-- RoCEv2 to the port's Sacon address. -/
def Dev.isRoce (d : Dev) (q : Nat) (p : Parsed) : Bool :=
  p.udp && p.dport == 4791 && d.isSacon q p.ip p.dst

/-- A Sacon discovery datagram to the port. -/
def Dev.isDiscovery (d : Dev) (q : Nat) (p : Parsed) : Bool :=
  p.udp && p.dport == 47230 && (d.isSacon q p.ip p.dst || (p.ip == 6 && p.dst == groupAllNodes))

/-- An ARP request or Neighbour Solicitation for a Sacon address, on the Sacon sub-port (R408). -/
def Dev.isArpNs (d : Dev) (q s : Nat) (p : Parsed) (b : List Byte) : Bool :=
  s == d.rd R.SAC_NET_subport [q] &&
  ((p.etherType == 0x0806 && be b (p.l3 + 6) 2 == 1 && d.isSacon q 4 (be b (p.l3 + 24) 4)) ||
   (p.ip == 6 && be b (p.l3 + 6) 1 == 58 && be b (p.l3 + 40) 1 == 135 &&
     d.isSacon q 6 (be b (p.l3 + 48) 16)))

/-- The controller whose halter queue pair a RoCEv2 frame addresses as R106 says, if any. -/
def Dev.halterOf (d : Dev) (q : Nat) (p : Parsed) : Option Nat :=
  if d.isRoce q p && be p.payload 0 1 == 0x0A then
    [0, 1].find? fun c =>
      d.flag R.PRT_HALT_QP_valid [q, c] && be p.payload 5 3 == d.rd R.PRT_HALT_QP_qpn [q, c] &&
        p.src == tget 0 d.prt.haltIp c
  else none

/-- A frame's priority (R95). -/
def Dev.priOf (d : Dev) (q : Nat) (p : Parsed) : Nat :=
  if p.tagged then p.pcp else d.rd R.PRT_CFG_untag_pri [q]

/-- The ingress timestamp of a frame on port `q`, 96 bits (R56, R57). -/
def Dev.rxStamp (d : Dev) (q fine : Nat) : Nat :=
  beadsToRaw (((d.stampAt fine : Int) - d.rdS R.TIM_PDLY_RX_dly [q]).toNat % beadWrap)

/-- The longest frame the MAC passes (PRT_CFG.max_len as it acts). -/
def Dev.maxLen (d : Dev) (q : Nat) : Nat := min 9600 (max 1518 (d.rd R.PRT_CFG_max_len [q]))

/-! ### Egress queue entry (R591, R97) -/

/-- The source of a frame may use any free space of the queue of 2 MiB. -/
def Dev.egFits (d : Dev) (q len : Nat) : Bool := decide (tget 0 d.prt.egBytes q + len ≤ 2097152)

/-- A frame of the Sacon engine, the Herdsman or the halter unit put into the queue of port `q`. -/
def Dev.egPut (d : Dev) (q : Nat) (f : EgFrame) : Dev :=
  d.withPrt fun p => { p with
    egq := tset [] p.egq q (tget [] p.egq q ++ [f])
    egBytes := tset 0 p.egBytes q (tget 0 p.egBytes q + f.len) }

/-- A frame of one of these three sources enters, waits at its source, or is dropped for a sub-port that
is down or faulted (R97, R591). -/
def Dev.egEnter (d : Dev) (q : Nat) (f : EgFrame) : Dev :=
  if d.linkUp q f.sp = false ∨ d.faulted q f.sp = true then d.prtCount q f.sp 16
  else if d.egFits q f.len && ((tget [] d.prt.egWait q).filter (·.src = f.src)).isEmpty then d.egPut q f
  else d.withPrt fun p => { p with egWait := tset [] p.egWait q (tget [] p.egWait q ++ [f]) }

/-- The first of the waiting frames that fits, taken out. -/
def firstFit (room : Nat) (l : List EgFrame) : Option (EgFrame × List EgFrame) :=
  match l with
  | [] => none
  | f :: r => if f.len ≤ room then some (f, r) else (firstFit room r).map fun x => (x.1, f :: x.2)

/-- Room has been freed: a waiting frame enters (R591). -/
def egAdmit (q : Nat) (d : Dev) : Dev :=
  match firstFit (2097152 - tget 0 d.prt.egBytes q) (tget [] d.prt.egWait q) with
  | some (f, r) => (d.withPrt fun p => { p with egWait := tset [] p.egWait q r }).egPut q f
  | none => d

/-- Length of a RoCEv2 acknowledgement: Ethernet, tag, IP, UDP, BTH, AETH, ICRC, FCS. -/
def Dev.ackLen (d : Dev) (q ip : Nat) : Nat :=
  14 + 4 * d.rd R.SAC_NET_tagged [q] + (if ip = 6 then 40 else 20) + 8 + 12 + 4 + 4 + 4

/-- The halter unit sends an acknowledgement or NAK on the arrival sub-port (R592, R99 step 1). -/
def Dev.halterReply (d : Dev) (q s ip mac psn code : Nat) : Dev :=
  (d.emit (.halterAck q s mac psn code)).egEnter q
    { len := max 64 (d.ackLen q ip), src := .halter, pri := 7, sp := s }

/-! ### Halters at the parser (R107, R108, R111) -/

/-- The halter log and the event of a halter that was refused or executed. -/
def Dev.halterLog (d : Dev) (q c time seq action result : Nat) : Dev :=
  ((((d.wr R.PRT_HALT_LOG_time [q] time).wr R.PRT_HALT_LOG_seq [q] seq).wr
    R.PRT_HALT_LOG_action [q] action).wr R.PRT_HALT_LOG_ctrl [q] c).wr R.PRT_HALT_LOG_result [q] result

/-- info of the halter events: action; [8] controller; [11:9] result. -/
def halterInfo (c action result : Nat) : Nat := action + 256 * c + 512 * result

/-- A halter refused: counted, logged, HALTER_REJECTED. -/
def Dev.halterReject (d : Dev) (q c time seq action result : Nat) : Dev :=
  ((d.bumpWrap R.PRT_HALT_CNT_rejected [q]).halterLog q c time seq action result).raiseAt
    (Ev.port q 3) (halterInfo c action result) time

/-- Table 03-5 names the action. -/
def halterAction (a : Nat) : Bool := decide (1 ≤ a ∧ a ≤ 8)

/-- A halter frame of controller `c` passes through the checks of R107; a record with a wrong tag or an
unknown action is refused here (R111), the rest wait for their action. -/
def halterRx (q s c : Nat) (f : Frame) (p : Parsed) (fine : Nat) (d : Dev) : Dev :=
  if f.icrcBad then d else
  let psn := be p.payload 9 3
  let epsn := d.rd R.PRT_HALT_QP_epsn [q, c]
  let mac := ofLe ((f.bytes.drop 6).take 6)
  let time := beadsToRaw (d.stampAt fine)
  if psn ≠ epsn then
    (if (epsn + 2 ^ 24 - psn) % 2 ^ 24 ≤ 2 ^ 23 then d.halterReply q s p.ip mac psn 0
     else d.halterReply q s p.ip mac psn 1)
  else
    let va := be p.payload 12 8
    let page := 0xF80000 + 0x1000 * c
    let data := (p.payload.drop 28).take (p.payload.length - 32)
    let rec_ := ofLe data
    if page ≤ va ∧ va < page + 0x1000 ∧ va % 64 = 0 ∧ be p.payload 24 4 = 64 ∧ data.length = 64 ∧
        be p.payload 20 4 = tget 0 d.prt.haltKey c then
      let d := d.wr R.PRT_HALT_QP_epsn [q, c] (epsn + 1)
      let d := d.fireWake 8 0
      let action := bits rec_ 16 8
      if bits rec_ 0 16 ≠ 0x4C48 then
        (d.halterReject q c time (bits rec_ 32 32) action 4).halterReply q s p.ip mac psn 0
      else if halterAction action = false then
        (d.halterReject q c time (bits rec_ 32 32) action 2).halterReply q s p.ip mac psn 0
      else
        let h : Halter := ⟨c, s, mac, rec_, psn⟩
        d.withPrt fun x => { x with halters := tset [] x.halters q (tget [] x.halters q ++ [h]) }
    else
      (d.halterReject q c time 0 (if data.length < 3 then 0 else be data 2 1) 5).halterReply q s p.ip
        mac psn 2

/-! ### A frame received -/

/-- The QP of either controller, in RTS, that a RoCEv2 frame names. -/
def Dev.qpOf (d : Dev) (qpn : Nat) : Option (Nat × Nat) :=
  ((List.range 32).map fun k => (k / 16, k % 16)).find? fun x =>
    d.rd R.SAC_QP_state [x.1, x.2] == 2 && d.rd R.SAC_QP_qpn [x.1, x.2] == qpn

/-- A frame marked CE on a QP is answered by a CNP, at most one per QP in each cnp_us (R415). -/
def Dev.cnpTx (d : Dev) (qpn : Nat) : Dev :=
  match d.qpOf qpn with
  | none => d
  | some (c, i) =>
    let last := tget 0 d.sac.lastCnp (16 * c + i)
    if last = 0 ∨ d.passed (last - 1 + d.rd R.SAC_CFG_cnp_us * 65536000) = true then
      ({ d with sac := { d.sac with lastCnp := tset 0 d.sac.lastCnp (16 * c + i) (d.clock + 1) } }).emit
        (.cnp c i)
    else d

/-- The device passes only control traffic: state IDLE, or entry under way (R472). -/
def Dev.controlOnly (d : Dev) : Bool :=
  d.flag R.PWR_STAT_entering || d.rd R.PWR_STAT_state != 0

/-- A frame that passed the MAC is handed to the halter unit, the PTP queue, the Sacon engine, the Tally's
inbox, the priority 7 buffer or the shared buffer, or dropped (R96, R102, R106, R111, R472, R512). -/
def frameAccept (q s : Nat) (f : Frame) (fine : Nat) (d : Dev) : Dev :=
  let p := parse f.bytes
  let pri := d.priOf q p
  let ing (d : Dev) (cells : Nat) : IngFrame :=
    ⟨f.bytes, q, s, d.rxStamp q fine, (d.rd R.TIM_PORT_STAT_ts_valid [q]).testBit s, pri, cells⟩
  if p.udp && (p.dport == 319 || p.dport == 320) then d.endProg q s
  else match d.halterOf q p with
  | some c =>
    if pri = 7 then halterRx q s c f p fine (d.endProg q s) else (d.endProg q s).prtCount q s 7
  | none =>
    if d.isArpNs q s p f.bytes then d.endProg q s
    else if pri = 7 then
      let d := d.endProg q s
      if d.isRoce q p || d.isDiscovery q p then
        let d := cellsAlloc q s 7 (cellsOf f.bytes.length) d
        let i := tget {} d.prt.prog (4 * q + s)
        let d := d.setProg q s {}
        if i.dropped then d else
        let d := d.withPrt fun x => { x with p7 := tset [] x.p7 q (tget [] x.p7 q ++ [ing d i.cells]) }
        if p.ce && d.isRoce q p then d.cnpTx (be p.payload 5 3) else d
      else d.prtCount q s 7
    else if p.udp && p.dport == 47231 && d.isSacon q p.ip p.dst then
      (d.endProg q s).tapInbox p.payload
    else if (d.rd R.PRT_HALT_STATE_ingr_drop [q]).testBit s then (d.endProg q s).prtCount q s 9
    else if d.controlOnly then (d.endProg q s).bumpWrap R.PWR_DROP_count [q]
    else
      let i := tget {} d.prt.prog (4 * q + s)
      let d := cellsAlloc q s pri (cellsOf f.bytes.length - i.cells) d
      let i := tget {} d.prt.prog (4 * q + s)
      let d := d.setProg q s {}
      if i.dropped then d
      else d.withPrt fun x => { x with ingress := tset [] x.ingress q (tget [] x.ingress q ++ [ing d i.cells]) }

/-- A received frame ends on sub-port `s` of port `q`: the MAC's checks, in the order length, FCS, address,
tag (R93, R94, R95, R89), then `frameAccept`. -/
def frameRx (q s : Nat) (f : Frame) (fine : Nat) (d : Dev) : Dev :=
  let n := f.bytes.length
  let p := parse f.bytes
  let dst := ofLe (f.bytes.take 6)
  if d.linkUp q s = false then d
  else if n < 64 then (d.endProg q s).prtCount q s 3
  else if n > d.maxLen q then (d.endProg q s).prtCount q s 4
  else if f.uncorr then ((d.endProg q s).prtCount q s 2).prtCount q s 12
  else if f.fcsBad then (d.endProg q s).prtCount q s 2
  else if dst % 2 = 0 ∧ dst ≠ d.rd R.PRT_MAC_ADDR_addr [q, s] ∧ d.flag R.PRT_CFG_promisc [q] = false then
    (d.endProg q s).prtCount q s 5
  else if p.tpid = 0x88A8 ∨ p.tpid = 0x9100 then (d.endProg q s).prtCount q s 6
  else frameAccept q s f fine ((d.prtCount q s 0).prtCount q s 1 n)

/-! ### The commands -/

/-- PRT_CFG_WRITE. -/
def execPrtCfgWrite (inp : Fin 101) (desc : Bool) (q : Fin 2) (v : BitVec 32) (s : State) :
    Host.Outcome State Fault Refusal :=
  runOn (76 + q) ⟨inp, desc⟩ s fun d => let r := writePrtCfg ⟨inp, desc⟩ q (ones 32) v.toNat d; r.1.complete ⟨inp, desc⟩ r.2 0

/-- PRT_BUF_LIM_WRITE. -/
def execPrtBufLimWrite (inp : Fin 101) (desc : Bool) (q : Fin 2) (p : Fin 8) (v : BitVec 64) (s : State) :
    Host.Outcome State Fault Refusal :=
  runOn (76 + q) ⟨inp, desc⟩ s fun d => let r := writeBufLim ⟨inp, desc⟩ q p (ones 64) v.toNat d; r.1.complete ⟨inp, desc⟩ r.2 0

/-- SERDES_CAL_DONE. -/
def execSerdesCalDone (s : State) : Host.Outcome State Fault Refusal := run s serdesCalDone

/-- CDR_LOCK. -/
def execCdrLock (q : Fin 2) (sp : Fin 4) (s : State) : Host.Outcome State Fault Refusal := run s (cdrLock q sp)

/-- FEC_LOCK. -/
def execFecLock (q : Fin 2) (sp : Fin 4) (s : State) : Host.Outcome State Fault Refusal := run s (fecLock q sp)

/-- PCS_LOCK. -/
def execPcsLock (q : Fin 2) (sp : Fin 4) (s : State) : Host.Outcome State Fault Refusal := run s (pcsLock q sp)

/-- PCS_LOCK_LOSS. -/
def execPcsLockLoss (q : Fin 2) (sp : Fin 4) (busy : Bool) (s : State) :
    Host.Outcome State Fault Refusal := run s (pcsLockLoss q sp busy)

/-- FAULT_CHANGE. -/
def execFaultChange (q : Fin 2) (sp : Fin 4) (l r : Bool) (s : State) :
    Host.Outcome State Fault Refusal := run s (faultChange q sp l r)

/-- FEC_CODEWORD. -/
def execFecCodeword (q : Fin 2) (sp : Fin 4) (r : Option Nat) (s : State) :
    Host.Outcome State Fault Refusal := run s (fecCodeword q sp r)

/-- FRAME_RX. -/
def execFrameRx (q : Fin 2) (sp : Fin 4) (f : Frame) (fine : Nat) (s : State) :
    Host.Outcome State Fault Refusal := run s (frameRx q sp f fine)

/-- INGRESS_CELL_ALLOC. -/
def execIngressCellAlloc (q : Fin 2) (sp : Fin 4) (p : Fin 7) (s : State) :
    Host.Outcome State Fault Refusal := run s (cellAlloc q sp p)

/-- PFC_REFRESH. -/
def execPfcRefresh (q : Fin 2) (p : Fin 8) (s : State) : Host.Outcome State Fault Refusal :=
  run s (pfcRefresh q p)

/-- PFC_FRAME_RX. -/
def execPfcFrameRx (q : Fin 2) (sp : Fin 4) (en : BitVec 8) (times : List Nat) (s : State) :
    Host.Outcome State Fault Refusal := run s (pfcFrameRx q sp en.toNat times)

/-- PFC_PAUSE_EXPIRE. -/
def execPfcPauseExpire (q : Fin 2) (sp : Fin 4) (p : Fin 8) (s : State) :
    Host.Outcome State Fault Refusal := run s (pfcExpire q sp p)

/-- EGRESS_QUEUE_ENTER: a frame of the Sacon engine, the Herdsman or the halter unit. Frames of egress
streams enter by EGRESS_STREAM_ENQUEUE. -/
def execEgressQueueEnter (q : Fin 2) (f : EgFrame) (s : State) : Host.Outcome State Fault Refusal :=
  run s fun d => d.egEnter q f

/-- EGRESS_QUEUE_WAIT_ADMIT. -/
def execEgressQueueWaitAdmit (q : Fin 2) (s : State) : Host.Outcome State Fault Refusal := run s (egAdmit q)

end Sys2Proof.Machine
end

