-- ==== Sys2Proof/Machine/SelfTest.lean ====
section
/-! DEFINITION. Chapter 18: the self-test controller, repairs, the fail log. -/

namespace Sys2Proof.Machine

def Dev.withBst (d : Dev) (f : BstSt → BstSt) : Dev := { d with bst := f d.bst }
def Dev.slice (d : Dev) (k : Nat) : SliceRun := tget {} d.bst.slices k
def Dev.setSlice (d : Dev) (k : Nat) (x : SliceRun) : Dev :=
  d.withBst fun b => { b with slices := tset {} b.slices k x }

/-! ### Macros (Table 18-1) -/

/-- Macros of a class. -/
def classSize (c : Nat) : Nat := [768, 3072, 6144, 2560, 2048, 6144, 64, 512, 256, 64, 8192].getD c 0
/-- Global number of a class's first macro. -/
def classBase (c : Nat) : Nat :=
  [0, 768, 3840, 9984, 12544, 14592, 20736, 20800, 21312, 21568, 21632].getD c 29824
/-- The class of a global number, and the index in it. -/
def macroOf (g : Nat) : Nat × Nat :=
  let c := ((List.range 11).reverse.find? fun c => decide (classBase c ≤ g)).getD 0
  (c, g - classBase c)

/-- The island that powers a macro. -/
def macroIsland (c m : Nat) : Nat :=
  match c with
  | 0 => 64 + m / 64
  | 1 => 64 + m / 256
  | 2 => 64 + m / 512
  | 3 => m / 40
  | 4 => 78
  | 5 => 76 + m / 3072
  | 6 => 76 + m / 32
  | 7 => 76 + m / 256
  | 8 => 78
  | 9 => 99
  | _ => m / 128

/-- The shadow group of a macro: droves 0 to 11, ports 12 and 13, islands 14 to 77, route cache 78, merge 79,
Herdsman 80; none for granaries. -/
def shadowGroup (c m : Nat) : Option Nat :=
  match c with
  | 3 => none
  | 4 => some 78
  | 5 => some (12 + m / 3072)
  | 6 => some (12 + m / 32)
  | 7 => some (12 + m / 256)
  | 8 => some 79
  | 9 => some 80
  | 10 => some (14 + m / 128)
  | _ => some (macroIsland c m - 64)

/-- The bytes of the model's memory that a macro of classes 0 to 2 holds: a macro is 1,024 words of 64 data
bits. -/
def macroBytes (c m : Nat) : Option Nat :=
  match c with
  | 0 => some (droverPrivate (m / 8) + 0x100000 + 8192 * (m % 8))
  | 1 => some (droverPrivate (m / 32) + 8192 * (m % 32))
  | 2 => some (0x40000000 + 8192 * m)
  | _ => none

/-- The macro that holds a byte of the model's memory. -/
def macroAt (a : Nat) : Option Nat :=
  if 0x40000000 ≤ a ∧ a < 0x43000000 then some (3840 + (a - 0x40000000) / 8192)
  else if 2 ^ 48 ≤ a then
    let n := (a - 2 ^ 48) / 2 ^ 32
    let o := a % 2 ^ 32
    if o < 0x40000 then some (768 + 32 * n + o / 8192)
    else if 0x100000 ≤ o ∧ o < 0x110000 then some (8 * n + (o - 0x100000) / 8192) else none
  else none

/-- The clearing pass: every word of the macro zero (R560). -/
def Dev.clearMacro (d : Dev) (c m : Nat) : Dev :=
  match macroBytes c m with
  | some a => d.wipe a 8192
  | none =>
    if c = 3 then { d with cfg := { d.cfg with gran := tset 0 d.cfg.gran m 0 } }
    else if c = 10 then
      let mine := fun (f : Nat) => f / 32 == m
      { d with cfg := { d.cfg with frames := d.cfg.frames.filter fun (e : Nat × Nat) => !mine e.1, bad := d.cfg.bad.filter fun f => !mine f } }
    else if c = 4 then
      let mine := fun (s : Nat) => s / 8 == m
      { d with rte := { d.rte with cache := d.rte.cache.filter fun (e : Nat × CacheSet) => !mine e.1 } }
    else if c = 9 then { d with hrd := { d.hrd with sram := 0 } }
    else d

/-- A macro whose test stopped before completion keeps undefined contents (R560). -/
def Dev.loseMacro (d : Dev) (c m : Nat) : Dev :=
  match macroBytes c m with
  | some a => d.loseMem a 8192
  | none =>
    if c = 3 then
      let (d, v) := d.drawWide 144
      { d with cfg := { d.cfg with gran := tset 0 d.cfg.gran m (v % 2 ^ 73728) } }
    else if c = 10 then
      { d with cfg := { d.cfg with bad := d.cfg.bad ++ ((List.range 32).map fun i => 32 * m + i).filter fun f => decide (f ∉ d.cfg.bad) } }
    else d.clearMacro c m

/-! ### Slices (R561 to R565) -/

/-- The class and the range of indexes a slice names. -/
def Dev.sliceCls (d : Dev) (k : Nat) : Nat := d.rd R.BST_SLICE_cls [k]
def Dev.sliceEnd (d : Dev) (k : Nat) : Nat :=
  let size := classSize (d.sliceCls k)
  let n := d.rd R.BST_SLICE_count [k]
  if n = 0 then size else min size (d.rd R.BST_SLICE_first [k] + n)
def Dev.sliceNamed (d : Dev) (k : Nat) : Nat := d.sliceEnd k - d.rd R.BST_SLICE_first [k]

/-- The slice uses shadows. -/
def Dev.shadowed (d : Dev) (k : Nat) : Bool := d.flag R.BST_SLICE_shadow [k] && d.sliceCls k != 3

/-- Macros under test. -/
def Dev.underTest (d : Dev) : List Nat := (d.bst.slices.map fun (e : Nat × SliceRun) => e.2.act).flatten

/-- A shadow group is in use by a running slice. -/
def Dev.groupBusy (d : Dev) (g : Nat) : Bool :=
  d.bst.slices.any fun (e : Nat × SliceRun) =>
    d.shadowed e.1 && e.2.act.any fun a => let p := macroOf a; shadowGroup p.1 p.2 == some g

/-- BST_STAT shows the running slices and the macros under test. -/
def Dev.showBst (d : Dev) : Dev :=
  let run := (d.bst.slices.filter fun (e : Nat × SliceRun) => e.2.on).foldl (fun v (e : Nat × SliceRun) => withBit v e.1) 0
  (d.wr R.BST_STAT_running [] run).wr R.BST_STAT_active [] d.underTest.length

/-- The next macro of a slice, when it can start now. -/
def Dev.startMacro (d : Dev) (k : Nat) : Dev :=
  let x := d.slice k
  if x.on = false ∨ d.sliceEnd k ≤ x.next then d else
  let c := d.sliceCls k
  let g := classBase c + x.next
  if d.island (macroIsland c x.next) = 2 then d.setSlice k { x with next := x.next + 1 }
  else if max 1 (d.rd R.BST_CFG_max_par) ≤ d.underTest.length ∨ g ∈ d.underTest then d
  else if d.shadowed k = true ∧ (shadowGroup c x.next).any d.groupBusy = true then d
  else d.setSlice k { x with next := x.next + 1, act := x.act ++ [g] }

/-- A slice ends: 1 PASS, 2 FAIL, 3 INCOMPLETE, 4 ABORTED_BY_SERVICE. -/
def Dev.endSlice (d : Dev) (k result : Nat) : Dev :=
  let x := d.slice k
  let again := decide (result = 4 ∧ x.tries < d.rd R.BST_CFG_retry_max)
  let at_ := if again then d.clock + d.rd R.BST_CFG_retry_us * 65536000 + 1 else 0
  let d := (d.setSlice k { x with on := false, act := [], again := [], retryAt := at_ }).wr R.BST_SLICE_RES_result [k] result
  d.raise (if result = 1 then Ev.bstDone else if result = 4 then Ev.bstAborted else Ev.bstFail) k

/-- Slices take the macros they can; one with none left ends. -/
def Dev.fillSlice (d : Dev) (k : Nat) : Dev :=
  let d := (List.range (d.sliceEnd k - (d.slice k).next)).foldl (fun (d : Dev) _ => d.startMacro k) d
  let x := d.slice k
  if x.on = true ∧ x.act = [] ∧ d.sliceEnd k ≤ x.next then
    d.endSlice k (if x.cut then 3 else if d.rd R.BST_SLICE_RES_failed [k] ≠ 0 then 2 else 1)
  else d
def Dev.fillSlices (d : Dev) : Dev :=
  ((d.bst.slices.map Prod.fst).foldl (fun (d : Dev) k => d.fillSlice k) d).showBst

/-- The run of a slice begins with its first macro. -/
def Dev.beginSlice (d : Dev) (k tries : Nat) : Dev :=
  let d := d.setSlice k { on := true, next := d.rd R.BST_SLICE_first [k], start := d.clock, tries := tries }
  let d := ((d.wr R.BST_SLICE_RES_result [k] 5).wr R.BST_SLICE_RES_steps [k] 0).wr R.BST_SLICE_RES_failed [k] 0
  ((d.wr R.BST_SLICE_RES_repairs [k] 0).wr R.BST_SLICE_RES_retries [k] tries).wr R.BST_SLICE_RES_expected [k]
    (6144 * d.sliceNamed k)

/-- START (R561). -/
def Dev.startSlice (d : Dev) (k : Nat) : Dev × Nat :=
  let busy := decide (11 ≤ d.sliceCls k) || (d.slice k).on || d.flag R.PWR_STAT_entering || d.flag R.PWR_STAT_exiting
  if busy then (d.wr R.BST_CMD_result [] 1, Sts.busy)
  else (((d.wr R.BST_CMD_result [] 0).beginSlice k 0).fillSlices, Sts.ok)

/-- Every macro of a slice stops at its next element-step boundary; how many steps each has then made is a free
value below 6,144. -/
def Dev.haltSlice (d : Dev) (k result : Nat) : Dev :=
  let x := d.slice k
  if x.on = false then d else
  let shadow := d.shadowed k
  let d := x.act.foldl (fun (d : Dev) g =>
    let p := macroOf g
    let d := if shadow then d else d.loseMacro p.1 p.2
    let (d, v) := d.draw 32
    d.wr R.BST_SLICE_RES_steps [k] (d.rd R.BST_SLICE_RES_steps [k] + v % 6144)) d
  (d.endSlice k result).fillSlices

/-- A functional access reaches a macro under test: an unshadowed slice stops (R564). -/
def Dev.service (d : Dev) (g : Nat) : Dev :=
  match d.bst.slices.find? fun (e : Nat × SliceRun) => e.2.on && decide (g ∈ e.2.act) && !d.shadowed e.1 with
  | some e => d.haltSlice e.1 4
  | none => d
def Dev.serviceAt (d : Dev) (a : Nat) : Dev :=
  match macroAt a with
  | some g => if d.bst.slices = [] then d else d.service g
  | none => d
/-- An access to a range of at most 8 KiB. -/
def Dev.serviceRange (d : Dev) (a n : Nat) : Dev := (d.serviceAt a).serviceAt (a + n - 1)

/-! ### Repairs (R569 to R571, Table 18-3) -/

def entMacro (e : Nat) : Nat := bits e 0 15
def entKind (e : Nat) : Nat := bits e 15 1
def entSpare (e : Nat) : Nat := bits e 16 1
def entAddr (e : Nat) : Nat := bits e 17 7
def entValid (e : Nat) : Bool := bits e 30 2 != 0
def makeEnt (g kind spare addr : Nat) : Nat := g + kind * 2 ^ 15 + spare * 2 ^ 16 + addr * 2 ^ 17 + 3 * 2 ^ 30
/-- Two entries name one spare. -/
def sameSpare (a b : Nat) : Bool := bits a 0 17 == bits b 0 17

/-- The spares of a kind that macro `g` has left. -/
def Dev.spares (d : Dev) (g kind : Nat) : List Nat :=
  [0, 1].filter fun s => !(d.bst.fuse ++ d.bst.soft).any fun e => entMacro e == g && entKind e == kind && entSpare e == s

/-- Rows and column groups of the failures, each once, ascending. -/
def failCells (fails : List (Nat × Nat × Nat)) : List (Nat × Nat) :=
  (fails.map fun f => (setBitsOf 72 f.2.2).map fun b => (f.2.1 / 16, b)).flatten
def rowsOf (l : List (Nat × Nat)) : List Nat := (List.range 64).filter fun r => l.any fun p => p.1 == r
def colsOf (l : List (Nat × Nat)) : List Nat := (List.range 72).filter fun c => l.any fun p => p.2 == c

/-- The analysis: the rows and the column groups that take spares, when they cover every failure. -/
def analyse (cells : List (Nat × Nat)) (rowSpares colSpares : Nat) : Option (List Nat × List Nat) :=
  let bad := (rowsOf cells).filter fun r => decide (2 < (colsOf (cells.filter fun p => p.1 == r)).length)
  let left := cells.filter fun p => decide (p.1 ∉ bad)
  let badC := (colsOf left).filter fun c => decide (2 < (rowsOf (left.filter fun p => p.2 == c)).length)
  let left := left.filter fun p => decide (p.2 ∉ badC)
  let more := (rowsOf left).take (rowSpares - bad.length)
  let left := left.filter fun p => decide (p.1 ∉ more)
  let moreC := colsOf left
  if bad.length ≤ rowSpares ∧ badC.length + moreC.length ≤ colSpares then some (bad ++ more, badC ++ moreC) else none

/-- BST_REPAIR shows the soft repairs not yet saved. -/
def Dev.showPending (d : Dev) : Dev :=
  d.wr R.BST_REPAIR_pending [] (d.bst.soft.filter fun e => decide (e ∉ d.bst.saved)).length

/-- A mismatch enters the fail log of 32, or is lost (R573). -/
def Dev.logFail (d : Dev) (g element word failing : Nat) (repaired : Bool) : Dev :=
  if d.bst.log.length < 32 then
    d.withBst fun b => { b with log := b.log ++ [g + element * 2 ^ 15 + word * 2 ^ 18 + bit repaired * 2 ^ 28 + 2 ^ 29 + failing * 2 ^ 32] }
  else d.bump R.BST_STAT_log_lost []

/-- The macro leaves its slice. -/
def Dev.macroOut (d : Dev) (k g : Nat) : Dev :=
  let x := d.slice k
  (d.setSlice k { x with act := x.act.filter (· ≠ g), again := x.again.filter (· ≠ g) }).fillSlices

/-- The march of a macro ends with the steps made, the mismatches found (element, word, failing bits) and
whether the signature differs; or a functional access stopped the slice (R559, R564, R569). -/
def macroTestDone (k g steps : Nat) (fails : List (Nat × Nat × Nat)) (sigBad served : Bool) (d : Dev) : Dev :=
  let x := d.slice k
  if x.on = false ∨ g ∉ x.act then d
  else if served ∧ d.shadowed k = false then d.haltSlice k 4
  else
    let p := macroOf g
    let shadow := d.shadowed k
    let steps := min steps 6144
    let count := fun (d : Dev) => d.wr R.BST_SLICE_RES_steps [k] (d.rd R.BST_SLICE_RES_steps [k] + steps)
    if steps < 6144 then
      let d := if shadow then d else d.loseMacro p.1 p.2
      ((count d).setSlice k { d.slice k with cut := true }).macroOut k g
    else
      let cells := failCells fails
      let rs := d.spares g 0
      let cs := d.spares g 1
      let plan := if d.flag R.BST_SLICE_rep [k] = true ∧ cells ≠ [] ∧ g ∉ x.again then analyse cells rs.length cs.length else none
      let d := fails.foldl (fun (d : Dev) f => d.logFail g f.1 f.2.1 f.2.2 plan.isSome) d
      match plan with
      | some (rows, cols) =>
        let ents := (rs.zip rows).map (fun q => makeEnt g 0 q.1 q.2) ++ (cs.zip cols).map fun q => makeEnt g 1 q.1 q.2
        let d := (d.withBst fun b => { b with soft := b.soft ++ ents }).showPending
        let d := d.wr R.BST_SLICE_RES_repairs [k] (d.rd R.BST_SLICE_RES_repairs [k] + ents.length)
        (d.raise Ev.repair g).setSlice k { x with again := x.again ++ [g] }
      | none =>
        let d := if shadow then d else d.clearMacro p.1 p.2
        let d := if sigBad ∨ cells ≠ [] then d.wr R.BST_SLICE_RES_failed [k] (d.rd R.BST_SLICE_RES_failed [k] + 1) else d
        (count d).macroOut k g

/-- The budget of a slice passes (R562). -/
def sliceBudget (k : Nat) (d : Dev) : Dev :=
  let us := d.rd R.BST_SLICE_budget_us [k]
  if us = 0 ∨ d.clock < (d.slice k).start + us * 65536000 then d else d.haltSlice k 3

/-- A slice starts again after ABORTED_BY_SERVICE (R565). -/
def sliceRetry (k : Nat) (d : Dev) : Dev :=
  let x := d.slice k
  if x.retryAt = 0 ∨ x.on = true ∨ d.clock + 1 < x.retryAt then d
  else (d.beginSlice k (x.tries + 1)).fillSlices

/-- Every running slice stops, at an entry to a low-power state (R566). -/
def Dev.stopSlices (d : Dev) : Dev := (List.range 64).foldl (fun (d : Dev) k => d.haltSlice k 3) d

/-! ### The repair table (R570, R571) -/

/-- The current area of the repair table. -/
def Dev.repairArea (d : Dev) : Option Nat :=
  match d.bst.area0, d.bst.area1 with
  | some a, some b => some (if a.1 < b.1 then 1 else 0)
  | some _, none => some 0
  | none, some _ => some 1
  | none, none => none
def Dev.repairTable (d : Dev) : Nat × List Nat :=
  match d.repairArea with
  | some 0 => d.bst.area0.getD (0, [])
  | some _ => d.bst.area1.getD (0, [])
  | none => (0, [])

/-- Fuse entries, then the soft entries of the current table that no fuse entry stands against. -/
def Dev.loadRepairs (d : Dev) : Dev :=
  let fuse := ((List.range 64).map fun i => bits d.lcs.otp (0x1800 + 32 * i) 32).filter entValid
  let t := d.repairTable
  let soft := t.2.filter fun e => entValid e && !fuse.any fun f => sameSpare e f
  let ignored := (t.2.filter entValid).length - soft.length
  let d := d.withBst fun b => { b with fuse := fuse, soft := soft, saved := soft }
  let d := ((d.wr R.BST_REPAIR_fuse [] fuse.length).wr R.BST_REPAIR_soft [] soft.length).wr R.BST_REPAIR_soft_ignored [] ignored
  ((d.wr R.BST_REPAIR_table_valid [] (bit d.repairArea.isSome)).wr R.BST_REPAIR_seq [] t.1).showPending

/-- SAVE_REPAIR. -/
def Dev.saveRepair (d : Dev) : Dev × Nat :=
  if d.flag R.BST_CMD_busy then (d.wr R.BST_CMD_result [] 1, Sts.busy)
  else if 1024 < d.bst.soft.length then (d.wr R.BST_CMD_result [] 3, Sts.busy)
  else
    let d := d.withBst fun b => { b with saving := some (d.repairTable.1 + 1, b.soft) }
    ((d.wr R.BST_CMD_busy [] 1).wr R.BST_CMD_result [] 0, Sts.ok)

/-- The write of the repair table ends. -/
def saveRepairDone (ok : Bool) (d : Dev) : Dev :=
  match d.bst.saving with
  | none => d
  | some t =>
    let into := match d.repairArea with | some k => 1 - k | none => 0
    let new := if ok then some t else none
    let d := d.withBst fun b => if into = 0 then { b with saving := none, area0 := new } else { b with saving := none, area1 := new }
    let d := (d.wr R.BST_CMD_busy [] 0).wr R.BST_CMD_result [] (if ok then 0 else 2)
    if ok then
      let d := d.withBst fun b => { b with saved := t.2 }
      ((d.wr R.BST_REPAIR_table_valid [] 1).wr R.BST_REPAIR_seq [] t.1).showPending
    else d

/-- A read of unit `u` of BST_FAIL_LOG: the unit that holds valid removes the entry. -/
def readFailLog (u : Nat) (d : Dev) : Dev × Nat :=
  match d.bst.log with
  | [] => (d, 0)
  | e :: r => (if u = 0 then d.withBst fun b => { b with log := r } else d, bits e (64 * u) 64)

/-- A write of BST_CMD: 9 bits. -/
def writeBstCmd (v : Nat) (d : Dev) : Dev × Nat :=
  let k := bits v 0 6
  match bits v 6 3 with
  | 1 => d.startSlice k
  | 2 => ((d.wr R.BST_CMD_result [] 0).haltSlice k 3, Sts.ok)
  | 3 => d.saveRepair
  | 0 => (d, Sts.ok)
  | _ => (d, Sts.busy)

/-! ### The commands -/

/-- START: a write of BST_CMD with op START. -/
def execStart (inp : Fin 101) (k : Fin 64) (s : State) : Host.Outcome State Fault Refusal :=
  runOn 104 ⟨inp, false⟩ s fun d => let r := writeBstCmd (k + 64) d; r.1.complete ⟨inp, false⟩ r.2 0

/-- STOP. -/
def execStop (inp : Fin 101) (k : Fin 64) (s : State) : Host.Outcome State Fault Refusal :=
  runOn 104 ⟨inp, false⟩ s fun d => let r := writeBstCmd (k + 128) d; r.1.complete ⟨inp, false⟩ r.2 0

/-- SAVE_REPAIR. -/
def execSaveRepair (inp : Fin 101) (s : State) : Host.Outcome State Fault Refusal :=
  runOn 104 ⟨inp, false⟩ s fun d => let r := writeBstCmd 192 d; r.1.complete ⟨inp, false⟩ r.2 0

/-- SAVE_REPAIR_DONE. -/
def execSaveRepairDone (ok : Bool) (s : State) : Host.Outcome State Fault Refusal := run s (saveRepairDone ok)

/-- MACRO_TEST_DONE: slice, global macro number, steps made, mismatches, signature, service. -/
def execMacroTestDone (k : Fin 64) (g : Fin 29824) (steps : Nat) (fails : List (Fin 6 × Fin 1024 × BitVec 72))
    (sigBad served : Bool) (s : State) : Host.Outcome State Fault Refusal :=
  run s (macroTestDone k g steps (fails.map fun f => (f.1.val, f.2.1.val, f.2.2.toNat)) sigBad served)

/-- SLICE_BUDGET_EXPIRE. -/
def execSliceBudgetExpire (k : Fin 64) (s : State) : Host.Outcome State Fault Refusal := run s (sliceBudget k)

/-- SLICE_RETRY. -/
def execSliceRetry (k : Fin 64) (s : State) : Host.Outcome State Fault Refusal := run s (sliceRetry k)

/-- FAIL_LOG_READ: a read of 8-byte unit `u` of BST_FAIL_LOG. -/
def execFailLogRead (inp : Fin 101) (u : Fin 2) (s : State) : Host.Outcome State Fault Refusal :=
  runOn 104 ⟨inp, false⟩ s fun d => let r := readFailLog u d; r.1.complete ⟨inp, false⟩ Sts.ok r.2

/-- STARTUP_SELF_TEST: slices 0 to 10 start after repair loading, classes 0 to 3, 9 and 10 first (R567). -/
def execStartupSelfTest (s : State) : Host.Outcome State Fault Refusal :=
  run s fun d =>
    if d.flag R.SYS_READY_repair = false ∨ d.bst.slices ≠ [] then d
    else
      let d := [0, 1, 2, 3, 9, 10, 4, 5, 6, 7, 8].foldl (fun (d : Dev) k => (d.beginSlice k 0).fillSlice k) d
      d.showBst

end Sys2Proof.Machine
end

