-- ==== Sys2Proof/Machine/Droves.lean ====
section
/-! DEFINITION. Chapter 06: what a drover is beside its instructions: its address map, thread states,
faults, windows, timestamp FIFO, halts. -/

namespace Sys2Proof.Machine

/-- The drovers changed. -/
def Dev.withDrv (d : Dev) (f : DrvSt → DrvSt) : Dev := { d with drv := f d.drv }

def Dev.thr (d : Dev) (n t : Nat) : Thr := tget {} d.drv.thr (8 * n + t)
def Dev.setThr (d : Dev) (n t : Nat) (x : Thr) : Dev :=
  d.withDrv fun r => { r with thr := tset {} r.thr (8 * n + t) x }
def Dev.drover (d : Dev) (n : Nat) : Drv := tget {} d.drv.drv n
def Dev.setDrover (d : Dev) (n : Nat) (x : Drv) : Dev :=
  d.withDrv fun r => { r with drv := tset {} r.drv n x }

/-- The island of a drover's drove. -/
def droveIsland (n : Nat) : Nat := 64 + n / 8

/-- Counter `k` of a drover counts (Table 06-10). -/
def Dev.drvCount (d : Dev) (n k : Nat) (m : Nat := 1) : Dev := d.bumpWrap R.DRV_CNT_count [n, k] m

/-- The bits of DRV_EVT and of DRV_EVT_EN. -/
def drvEvtFields : List Field :=
  [R.DRV_EVT_fault, R.DRV_EVT_wdog, R.DRV_EVT_halted, R.DRV_EVT_fill_done, R.DRV_EVT_rx_full,
   R.DRV_EVT_ts_lost, R.DRV_EVT_frozen, R.DRV_EVT_sw]
def drvEnFields : List Field :=
  [R.DRV_EVT_EN_fault, R.DRV_EVT_EN_wdog, R.DRV_EVT_EN_halted, R.DRV_EVT_EN_fill_done,
   R.DRV_EVT_EN_rx_full, R.DRV_EVT_EN_ts_lost, R.DRV_EVT_EN_frozen, R.DRV_EVT_EN_sw]

/-- Cause bit `b` of DRV_EVT sets; newly set and enabled, it raises DROVERn (R449). -/
def Dev.drvCause (d : Dev) (n b : Nat) : Dev :=
  let c := drvEvtFields.getD b R.DRV_EVT_sw
  let e := drvEnFields.getD b R.DRV_EVT_EN_sw
  if d.flag c [n] then d
  else
    let d := d.wr c [n] 1
    if d.flag e [n] then d.raise (Ev.drover + n) (2 ^ b) else d

/-! ### The address map (R198, Table 06-3) -/

def cribBase : Nat := 0xFF00000000
def imemBase : Nat := 0xFF00100000
def droveAlias : Nat := 0xFF00200000
def regAlias : Nat := 0xFF00800000

/-- What a drover address names. -/
inductive Place where
  /-- Crib, or drove memory (by its device address): atomics act here. -/
  | crib (key : Nat)
  | drove (key : Nat)
  | imem (key : Nat)
  /-- A drover's own registers, by device address. -/
  | own (addr : Nat)
  /-- The rest of the device address space. -/
  | device (addr : Nat)
  | nowhere
deriving DecidableEq, Repr

def place (n a : Nat) : Place :=
  if a < 0x4000000000 then
    (if 0x40000000 ≤ a ∧ a < 0x43000000 then .drove a else .device a)
  else if cribBase ≤ a ∧ a < cribBase + 0x40000 then .crib (droverPrivate n + (a - cribBase))
  else if imemBase ≤ a ∧ a < imemBase + 0x10000 then .imem (droverPrivate n + (a - cribBase))
  else if droveAlias ≤ a ∧ a < droveAlias + 0x400000 then
    .drove (0x40000000 + n / 8 * 0x400000 + (a - droveAlias))
  else if regAlias ≤ a ∧ a < regAlias + 0x1000 then .own (0x200000 + n * 0x1000 + (a - regAlias))
  else .nowhere

/-- The memory key of a crib or drove memory address. -/
def placeKey (n a : Nat) : Nat :=
  match place n a with
  | .crib k => k
  | .drove k => k
  | .imem k => k
  | _ => 0

/-- A range lies wholly in the crib, or wholly in one drove memory. -/
def inCrib (a len : Nat) : Bool := decide (cribBase ≤ a ∧ a + len ≤ cribBase + 0x40000)
def inOneDrove (n a len : Nat) : Bool :=
  match place n a, place n (a + len - 1) with
  | .drove x, .drove y => decide ((x - 0x40000000) / 0x400000 = (y - 0x40000000) / 0x400000)
  | _, _ => false

/-- The address of instruction memory offset `o` of drover `n`. -/
def imemKey (n o : Nat) : Nat := droverPrivate n + 0x100000 + o

/-- The address of the metadata of the window that starts at buffer `b` (R250). -/
def windowAddr (b : Nat) : Nat := 0xFF00020000 + 4096 * b

/-! ### Threads (R197, R222, R263) -/

/-- The state of thread `t`: 0 IDLE, 1 READY, 2 BLOCKED, 3 FAULTED. -/
def Dev.thrState (d : Dev) (n t : Nat) : Nat := bits (d.rd R.DRV_STATUS_thr_state [n]) (2 * t) 2
def Dev.setThrState (d : Dev) (n t x : Nat) : Dev :=
  d.wr R.DRV_STATUS_thr_state [n] (putBits (d.rd R.DRV_STATUS_thr_state [n]) (2 * t) 2 x)

def Dev.halted (d : Dev) (n : Nat) : Bool := d.flag R.DRV_STATUS_halted [n]

/-- The drove of drover `n` runs. -/
def Dev.droveRuns (d : Dev) (n : Nat) : Bool := d.island (droveIsland n) == 0

/-- A thread faults at its instruction: recorded, counted, DRV_EVT.fault set, trapped or stopped (R222). A fault
without a faulting address records a free value (log entry 135). -/
def Dev.fault (d : Dev) (n t code : Nat) (at_ : Option Nat) : Dev :=
  let x := d.thr n t
  let (d, addr) := match at_ with | some a => (d, a) | none => d.draw 40
  let active := d.flag R.DRV_THR_FAULT_active [n, t]
  let code := if active then 9 else code
  let d := (((d.wr R.DRV_THR_FAULT_code [n, t] code).wr R.DRV_THR_FAULT_pc [n, t] x.pc).wr
    R.DRV_THR_FAULT_addr [n, t] addr).wr R.DRV_THR_FAULT_time [n, t] d.nowRaw
  let d := (d.drvCount n 10).drvCause n 0
  if active = false ∧ (d.rd R.DRV_CFG_trap_en [n]).testBit t then
    ((d.wr R.DRV_THR_FAULT_active [n, t] 1).setThr n t
      { x with pc := d.rd R.DRV_THR_VEC_trap [n, t] / 4 * 4, wait := none, asked := false, cmp := none }).setThrState n t 1
  else (d.setThr n t { x with wait := none, asked := false, cmp := none, due := 0 }).setThrState n t 3

/-- The faults due at an instruction boundary: the first in the order of R263 is taken. -/
def Dev.takeDue (d : Dev) (n t : Nat) : Dev :=
  let x := d.thr n t
  match [(0, 8), (1, 7), (2, 10)].find? fun p => x.due.testBit p.1 with
  | none => d
  | some p => (d.setThr n t { x with due := withoutBit x.due p.1 }).fault n t p.2 none

/-- The wait of a blocked thread is one that a due fault ends: SEM.ACQ, PKT.NEXT, WAITU, DMA.WAIT (R263). -/
def leavable (w : Nat) : Bool :=
  let major := bits w 0 7
  let func := bits w 25 7
  (major == 0x33 && func == 0) || (major == 0x30 && func == 0) || (major == 0x31 && func == 2) ||
    (major == 0x32 && func / 4 == 1)

/-- A fault becomes due; a thread blocked in a wait it ends takes it at once, unless its drover is halted. -/
def Dev.makeDue (d : Dev) (n t b : Nat) : Dev :=
  let st := d.thrState n t
  if st = 0 ∨ st = 3 then d else
  let x := d.thr n t
  let d := d.setThr n t { x with due := withBit x.due b }
  if st = 2 ∧ d.halted n = false ∧ leavable (x.wait.getD 0) = true then d.takeDue n t else d

/-! ### The timestamp FIFO (R211) -/

def Dev.tsPush (d : Dev) (n : Nat) (e : TsEntry) : Dev :=
  let x := d.drover n
  if x.ts.length < 16 then d.setDrover n { x with ts := x.ts ++ [e] }
  else (d.drvCount n 7).drvCause n 5

/-- A response for user logic joins those of output port `k` of island `i`, numbered 2 i + k (R299). -/
def Dev.fabResp (d : Dev) (ik : Nat) (r : FabResp) : Dev :=
  { d with fab := { d.fab with resp := tset [] d.fab.resp ik (tget [] d.fab.resp ik ++ [r]) } }

/-- The sender of an egress frame that asked for its timestamp gets it. -/
def Dev.tsReturn (d : Dev) (toward : Option (Nat × Nat)) (ts : Nat) (dropped : Bool) : Dev :=
  match toward with
  | none => d
  | some (n, tag) =>
    if n < 96 then d.tsPush n ⟨ts, tag, dropped⟩
    else d.fabResp (n - 96) { kind := 3, status := 0, tag := tag, ts := ts, dropped := dropped }

/-! ### Windows (R201, R202, Table 06-4) -/

/-- Buffers of windows not yet available again. -/
def Drv.usedBufs (x : Drv) : Nat := (x.wins.map (·.took)).sum

/-- Windows freed at the front of the allocation order become available. -/
def reclaim : List Window → List Window
  | [] => []
  | w :: r => if w.freed then reclaim r else w :: r

/-- The first buffer a frame of `k` buffers takes, and what it takes with skipped buffers. -/
def Drv.fit (x : Drv) (k : Nat) : Nat × Nat :=
  if x.nextBuf + k > 32 then (0, 32 - x.nextBuf + k) else (x.nextBuf, k)

/-- The bits of a window's metadata for which the spec states no value (log entry 37): what Table 06-4 says of a
routed frame only, in one sent by a drover or a fabric island; what it says of an entry, in a frame that took a
default; what it says of the frame, in a mig_out window; the leg of a frame that is not merged, RTP fields of
part 7, header offsets of headers that are not there. -/
def RxFrame.openBits (r : RxFrame) (p : Parsed) : Nat :=
  if r.srcDrv.isSome || r.srcFab then ones 99 + 2 ^ 102 + 127 * 2 ^ 104 + ones 50 * 2 ^ 128 + ones 63 * 2 ^ 192 + ones 25 * 2 ^ 256
  else if r.migOut then
    ones 97 + bit (!r.p27) * 2 ^ 97 + 2 ^ 102 + 127 * 2 ^ 104 + ones 32 * 2 ^ 128 + ones 24 * 2 ^ 224
  else
    bit (!r.byEntry || !r.p27) * 2 ^ 97 + bit (!r.byEntry || r.part == 7) * (2 ^ 102 + ones 32 * 2 ^ 128)
      + bit (!r.byEntry) * (2 ^ 98 + ones 18 * 2 ^ 160 + ones 32 * 2 ^ 192 + ones 8 * 2 ^ 240 + ones 25 * 2 ^ 256)
      + bit (p.ip == 0) * ones 8 * 2 ^ 224 + bit (!p.udp) * ones 8 * 2 ^ 232

/-- The metadata of a window (Table 06-4). -/
def Dev.windowMeta (d : Dev) (r : RxFrame) : Dev × Nat :=
  let b := r.frame.bytes
  let p := parse (b ++ [0, 0, 0, 0])
  let len := if r.migOut then 0 else b.length
  let common := bit r.err * 2 ^ 99 + bit r.migIn * 2 ^ 100 + bit r.migOut * 2 ^ 101 + len * 2 ^ 112
  let routed :=
    r.frame.ts + bit r.frame.tsValid * 2 ^ 96 + r.leg * 2 ^ 97 + bit r.p27 * 2 ^ 98
      + bit (be p.payload 1 1 / 128 == 1) * 2 ^ 102 + r.frame.port * 2 ^ 104
      + r.frame.sp * 2 ^ 105 + r.frame.pri * 2 ^ 107 + r.xseq * 2 ^ 128 + r.sid * 2 ^ 160
      + r.rxCtx * 2 ^ 192 + r.tenant * 2 ^ 208 + bit r.acct * 2 ^ 220 + r.part * 2 ^ 221
      + p.l3 * 2 ^ 224 + (p.data - 8) * 2 ^ 232
      + (if r.part = 7 then 0 else p.data * 2 ^ 240) + r.chanBlock * 2 ^ 256 + r.chanCount * 2 ^ 274
  let (d, f) := d.draw 281
  (d, common + mix 281 routed (r.openBits p) f + match r.srcDrv with
    | some n => 2 ^ 103 + n * 2 ^ 288
    | none => 0)

/-- A window filled and put last in the allocation order; the buffers must be available. -/
def Dev.fillWindow (d : Dev) (n : Nat) (r : RxFrame) : Dev :=
  let x := d.drover n
  let len := if r.migOut then 0 else r.frame.bytes.length
  let k := (len + 64 + 4095) / 4096
  let (first, took) := x.fit k
  let (d, m) := d.windowMeta r
  let a := droverPrivate n + 0x20000 + 4096 * first
  let d := d.store a 64 m
  let d := if r.migOut then d else d.setBytes (a + 64) r.frame.bytes
  let d := d.serviceRange a (if r.migOut then 64 else 64 + r.frame.bytes.length)
  let w : Window := { first := first, count := k, took := took, sid := if r.byEntry then r.sid else bits m 160 18 }
  let d := d.setDrover n { x with wins := x.wins ++ [w], nextBuf := (first + k) % 32, held := false }
  let d := if r.migOut then d else d.drvCount n 0
  if r.err then d.drvCount n 3 else d

/-- The buffers a frame needs are available. -/
def Dev.windowFits (d : Dev) (n : Nat) (r : RxFrame) : Bool :=
  let x := d.drover n
  let len := if r.migOut then 0 else r.frame.bytes.length
  decide (x.usedBufs + (x.fit ((len + 64 + 4095) / 4096)).2 ≤ 32)

/-- The frames on the droveway to a drover. -/
def Dev.setDrvIn (d : Dev) (n : Nat) (l : List RxFrame) : Dev :=
  { d with med := { d.med with drvIn := tset [] d.med.drvIn n l } }
def Dev.pushDrv (d : Dev) (n : Nat) (r : RxFrame) : Dev := d.setDrvIn n (tget [] d.med.drvIn n ++ [r])

/-- A frame arrives at a drover (R201, R202, R225): dropped in a stopped drove or a halted drover, placed,
dropped, or held, which keeps the frames of the drove's other drovers back. -/
def droverFrameRx (n : Nat) (d : Dev) : Dev :=
  match tget [] d.med.drvIn n with
  | [] => d
  | r :: rest =>
    if (List.range 8).any fun i => (d.drover (n / 8 * 8 + i)).held then d
    else if d.droveRuns n = false then
      (if d.stileGone (droveIsland n) then d.setDrvIn n rest else d)
    else if d.halted n then (d.setDrvIn n rest).drvCount n 2
    else if d.windowFits n r then (d.setDrvIn n rest).fillWindow n r
    else if d.rd R.DRV_RX_CFG_full_act [n] = 0 then ((d.setDrvIn n rest).drvCount n 1).drvCause n 4
    else d.setDrover n { d.drover n with held := true }

/-- Buffers have become available for the frame held at the drove's input, or the drover was halted. -/
def windowHoldRelease (n : Nat) (d : Dev) : Dev :=
  match tget [] d.med.drvIn n with
  | [] => d
  | r :: rest =>
    if (d.drover n).held = false then d
    else
      let off := d.setDrover n { d.drover n with held := false }
      if d.droveRuns n = false then
        (if d.stileGone (droveIsland n) then off.setDrvIn n rest else d)
      else if d.halted n then (off.setDrvIn n rest).drvCount n 2
      else if d.windowFits n r then (d.setDrvIn n rest).fillWindow n r
      else d

/-- The threads of affinity: the lowest m' threads named, in ascending order (R204). -/
def affinityThreads (mask : Nat) : List Nat :=
  let l := setBitsOf 8 (if mask = 0 then 1 else mask)
  let m := if l.length = 8 then 8 else if l.length ≥ 4 then 4 else if l.length ≥ 2 then 2 else 1
  l.take m

/-- Thread `t` may be given a window of sid `sid`. -/
def Dev.mayTake (d : Dev) (n t sid : Nat) : Bool :=
  if d.flag R.DRV_RX_CFG_affinity [n] then
    let l := affinityThreads (d.rd R.DRV_RX_CFG_thr_mask [n])
    l[sid % l.length]? == some t
  else true

/-- The oldest window not yet given that thread `t` may take, marked given; its metadata address. -/
def Dev.nextWindow (d : Dev) (n t : Nat) : Option (Dev × Nat) :=
  let x := d.drover n
  match x.wins.find? fun w => !w.given && d.mayTake n t w.sid with
  | none => none
  | some w =>
    let ws := x.wins.map fun y => if y.first = w.first ∧ y.freed = false then { y with given := true } else y
    some (d.setDrover n { x with wins := ws }, windowAddr w.first)

/-- The window given and not freed in which a range lies (R252). -/
def Dev.windowAt (d : Dev) (n a len : Nat) : Option Window :=
  (d.drover n).wins.find? fun w => w.given && !w.freed &&
    decide (windowAddr w.first ≤ a ∧ a + len ≤ windowAddr (w.first + w.count))

/-- The window given and not freed whose metadata address is `a`, freed (R251). -/
def Dev.freeWindow (d : Dev) (n a : Nat) : Option Dev :=
  let x := d.drover n
  if x.wins.any fun w => w.given && !w.freed && windowAddr w.first == a then
    let ws := x.wins.map fun w =>
      if w.given ∧ w.freed = false ∧ windowAddr w.first = a then { w with freed := true } else w
    some (d.setDrover n { x with wins := reclaim ws })
  else none

/-! ### Halts (R224 to R228) -/

/-- The number of halted drovers shown for the drove. -/
def Dev.showHalted (d : Dev) (n : Nat) : Dev :=
  let v := d.rd R.DRV_DROVE_STAT_halted [n / 8]
  d.wr R.DRV_DROVE_STAT_halted [n / 8] (if d.halted n then withBit v (n % 8) else withoutBit v (n % 8))

/-- A halt request from source `c` (0 halter, 1 DRV_CTL, 2 debug, 3 watchdog) is latched. -/
def Dev.haltReq (d : Dev) (n c : Nat) : Dev :=
  let d := d.setBit R.DRV_STATUS_halt_cause [n] c
  if d.halted n then d
  else ((d.wr R.DRV_STATUS_halted [n] 1).setDrover n { d.drover n with haltAt := d.now }).showHalted n

/-- The instruction words whose execution is an access in flight: everything a thread can be blocked in but
the waits of R225 and of other events (PKT.NEXT, PKT.SEND, SEM.ACQ, WAITU, DMA). -/
def inFlight (w : Nat) : Bool :=
  let major := bits w 0 7
  let func := bits w 25 7
  !((major == 0x33 && func == 0) || (major == 0x30 && (func == 0 || func == 3)) ||
    (major == 0x31 && func == 2) || major == 0x32)

/-- Accesses in flight are complete: quiet sets, and the event is raised (Table 06-8 step 4). -/
def droverQuiet (n : Nat) (d : Dev) : Dev :=
  let busy := (List.range 8).any fun t =>
    d.thrState n t == 2 && inFlight ((d.thr n t).wait.getD 0)
  if d.halted n = true ∧ d.flag R.DRV_STATUS_quiet [n] = false ∧ busy = false then
    (d.wr R.DRV_STATUS_quiet [n] 1).drvCause n 2
  else d

/-- The word is a SEM.ACQ. -/
def isSemAcq (w : Nat) : Bool := wMajor w == 0x33 && wFunc w == 0

/-- The semaphore a thread is blocked acquiring. -/
def Thr.semWait (x : Thr) : Option Nat :=
  match x.wait with
  | none => none
  | some w => if isSemAcq w then some (x.sreg (wRa w) % 256) else none

/-- A blocked thread goes on with its next instruction. -/
def Dev.threadGo (d : Dev) (n t : Nat) : Dev :=
  let x := d.thr n t
  (d.setThr n t { x with pc := x.pc + 4, wait := none, asked := false, cmp := none }).setThrState n t 1

/-- The word is a WAITU. -/
def isWaitu (w : Nat) : Bool := wMajor w == 0x31 && wFunc w == 2

/-- A thread goes on after a halt: its watchdog period is longer by the halt; the semaphore it waited for
may have been granted, its comparator may have fired, which leaves it late; a fault that became due ends its
wait. -/
def Dev.thrResume (d : Dev) (n t gone : Nat) : Dev :=
  let x := d.thr n t
  let d := d.setThr n t { x with kick := x.kick + gone }
  let w := x.wait.getD 0
  if d.thrState n t ≠ 2 then d
  else if leavable w = true ∧ x.due ≠ 0 then d.takeDue n t
  else if x.semWait.any fun s => tget 0 (d.drover n).sem s == t + 1 then d.threadGo n t
  else if isWaitu w = true ∧ x.cmp = none then (d.setBit R.DRV_STATUS_late [n] t).threadGo n t
  else d

/-- A release of a halted drover (R226). -/
def Dev.resume (d : Dev) (n : Nat) : Dev :=
  if d.halted n = false then d else
  let gone := d.now - (d.drover n).haltAt
  let d := (((d.wr R.DRV_STATUS_halted [n] 0).wr R.DRV_STATUS_quiet [n] 0).wr
    R.DRV_STATUS_halt_cause [n] 0).showHalted n
  (List.range 8).foldl (fun d t => d.thrResume n t gone) d

/-- Every IDLE thread named in thr_en starts at its vector, all its registers zero (R231). -/
def Dev.startDrover (d : Dev) (n : Nat) : Dev :=
  (List.range 8).foldl (fun d t =>
    if (d.rd R.DRV_CFG_thr_en [n]).testBit t ∧ d.thrState n t = 0 then
      (d.setThr n t { pc := d.rd R.DRV_THR_VEC_start [n, t] / 4 * 4, kick := d.now }).setThrState n t 1
    else d) d

/-! ### The commands -/

/-- STILE_TIMEOUT. -/
def execStileTimeout (i : Fin 112) (s : State) : Host.Outcome State Fault Refusal := run s (stileTimeout i)

/-- DROVER_FRAME_RX. -/
def execDroverFrameRx (n : Fin 96) (s : State) : Host.Outcome State Fault Refusal := run s (droverFrameRx n)

/-- WINDOW_HOLD_RELEASE. -/
def execWindowHoldRelease (n : Fin 96) (s : State) : Host.Outcome State Fault Refusal :=
  run s (windowHoldRelease n)

/-- DRV_HALT_QUIET. -/
def execDrvHaltQuiet (n : Fin 96) (s : State) : Host.Outcome State Fault Refusal := run s (droverQuiet n)

end Sys2Proof.Machine
end

