-- ==== Sys2Proof/Machine/RouteTable.lean ====
section
/-! DEFINITION. Chapter 04: the route region, keys, hashes, rods and digests, entries, the route cache. -/

namespace Sys2Proof.Machine

/-- The route engine changed. -/
def Dev.withRte (d : Dev) (f : RteSt → RteSt) : Dev := { d with rte := f d.rte }

/-- Route engine counter `k` counts (Table 04-11). -/
def Dev.rteCount (d : Dev) (k : Nat) (n : Nat := 1) : Dev := d.bumpWrap R.RTE_CNT_count [k] n

/-! ### CRC-32C (R121) -/

/-- Steps of a reflected CRC of polynomial `poly` on a state with a byte already folded in. -/
def crcShift (poly n c : Nat) : Nat :=
  match n with
  | 0 => c
  | n + 1 => crcShift poly n (if c % 2 = 1 then (c / 2) ^^^ poly else c / 2)

/-- A CRC state updated with bytes, without the initial and final inversions. -/
def crcBytes (poly c : Nat) (l : List Byte) : Nat :=
  match l with
  | [] => c
  | b :: r => crcBytes poly (crcShift poly 8 (c ^^^ b.toNat)) r

/-- CRC-32C: initial value and final XOR 0xFFFF_FFFF. -/
def crc32c (l : List Byte) : Nat := crcBytes 0x82F63B78 0xFFFFFFFF l ^^^ 0xFFFFFFFF

/-- The CRC of the Ethernet FCS. -/
def crc32 (l : List Byte) : Nat := crcBytes 0xEDB88320 0xFFFFFFFF l ^^^ 0xFFFFFFFF

/-- The two hashes of a key of 40 bytes. -/
def hash0 (key : Nat) : Nat := crc32c (leBytes 4 0 ++ leBytes 40 key)
def hash1 (key : Nat) : Nat := crc32c (leBytes 4 0x9640D96F ++ leBytes 40 key)

/-- hash_log as it acts. -/
def Dev.hashLog (d : Dev) : Nat := min 21 (max 15 (d.rd R.RTE_CFG_hash_log))

def Dev.rodA (d : Dev) (key : Nat) : Nat := hash0 key % 2 ^ d.hashLog
def Dev.rodB (d : Dev) (key : Nat) : Nat := hash1 key % 2 ^ d.hashLog
def fingerprint (key : Nat) : Nat := hash1 key / 2 ^ 24 * 128 + hash0 key / 2 ^ 25
def cacheSetOf (key : Nat) : Nat := hash0 key % 0x4000

/-! ### The route region (Table 04-1) -/

def entryAddr (i : Nat) : Nat := 0x1000000000 + 64 * i
def digestAddr (r k : Nat) : Nat := 0x1040000000 + 16 * r + 2 * k
def recordAddr (s j : Nat) : Nat := 0x1044000000 + s * 0x04000000 + 64 * j
/-- The range the route engine owns (R116) and the one of the sid counters (R151). -/
def inRouteRegion (a : Nat) : Bool := decide (0x1000000000 ≤ a ∧ a < 0x1054000000)
def inSidRegion (a : Nat) : Bool := decide (0x1054000000 ≤ a ∧ a < 0x1054800000)

def Dev.entry (d : Dev) (i : Nat) : Nat := d.load (entryAddr i) 64
def Dev.record (d : Dev) (s j : Nat) : Nat := d.load (recordAddr s j) 64
def Dev.setEntry (d : Dev) (i v : Nat) : Dev := d.store (entryAddr i) 64 v
def Dev.setRecord (d : Dev) (s j v : Nat) : Dev := d.store (recordAddr s j) 64 v
def Dev.digest (d : Dev) (r k : Nat) : Nat := d.load (digestAddr r k) 2

/-- The line of an address reads uncorrectable (R399). -/
def Dev.lineBad (d : Dev) (a : Nat) : Bool := decide (a / 64 * 64 ∈ d.ddr.bad)

/-- Fields of an entry or image (Tables 04-4, 04-5). -/
def eType (e : Nat) : Nat := bits e 0 8
def eKey (e : Nat) : Nat := bits e 0 320
def ePendSlot (e : Nat) : Nat := bits e 320 3
def eGen (e : Nat) : Nat := bits e 323 1
def eLearned (e : Nat) : Nat := bits e 324 1
def eAgeEn (e : Nat) : Nat := bits e 325 1
def eHit (e : Nat) : Nat := bits e 326 1
def ePin (e : Nat) : Nat := bits e 327 1
def ePendIdx (e : Nat) : Nat := bits e 328 20
def eKind (e : Nat) : Nat := bits e 348 4
def eDest (e : Nat) : Nat := bits e 352 8
def eStile (e : Nat) : Nat := bits e 360 1
def eP27 (e : Nat) : Nat := bits e 361 1
def ePair (e : Nat) : Nat := bits e 362 16
def eLeg (e : Nat) : Nat := bits e 378 1
def eSid (e : Nat) : Nat := bits e 379 18
def eChanBlock (e : Nat) : Nat := bits e 397 18
def eChanCount (e : Nat) : Nat := bits e 415 7
def eStream (e : Nat) : Nat := bits e 422 14
def eEgrPort (e : Nat) : Nat := bits e 436 1
def eTenant (e : Nat) : Nat := bits e 437 12
def eCtx (e : Nat) : Nat := bits e 449 16
def eAcct (e : Nat) : Nat := bits e 465 1

/-- A stream entry's type. -/
def isStream (e : Nat) : Bool := eType e == 1 || eType e == 2

/-! ### Keys (R120, Table 04-3) -/

/-- The key of a frame from sub-port `s` of port `q`, little-endian over its 40 bytes; none for a frame
that has no key. -/
def Dev.keyOf (d : Dev) (q s : Nat) (p : Parsed) : Option Nat :=
  if p.udp = false then none else
  let port := if d.flag R.RTE_KEY_CFG_no_port [q] then 0 else q + 2 * s
  let vid := if d.flag R.RTE_KEY_CFG_no_vid [q] then 0 else p.vid
  let src := if d.flag R.RTE_KEY_CFG_no_src [q] then 0 else p.src
  let sport := if d.flag R.RTE_KEY_CFG_no_sport [q] then 0 else p.sport
  let n := if p.ip = 4 then 4 else 16
  some (ofLe ([BitVec.ofNat 8 (if p.ip = 4 then 1 else 2), BitVec.ofNat 8 port] ++ leBytes 2 vid
    ++ beBytes n src ++ beBytes n p.dst ++ beBytes 2 sport ++ beBytes 2 p.dport))

/-! ### Table lookup and slots (R122 to R124) -/

/-- The slots of the two rods in search order, as (rod, slot). -/
def Dev.searchOrder (d : Dev) (key : Nat) : List (Nat × Nat) :=
  let a := d.rodA key
  let b := d.rodB key
  (List.range 8).map (fun k => (a, k)) ++ (if a = b then [] else (List.range 8).map fun k => (b, k))

/-- What a table lookup finds; the count is of entries read whose key differed. -/
inductive Found where
  | entry (i reads : Nat)
  | none (reads : Nat)
  | ecc (rod : Nat)
deriving DecidableEq, Repr

/-- Entries read in order until one holds the key. -/
def Dev.searchSlots (d : Dev) (key : Nat) (l : List (Nat × Nat)) (reads : Nat) : Found :=
  match l with
  | [] => .none reads
  | (r, k) :: rest =>
    let h := d.digest r k
    if h / 32768 = 1 ∧ h % 32768 = fingerprint key then
      (if d.lineBad (entryAddr (8 * r + k)) then .ecc r
       else if eKey (d.entry (8 * r + k)) = key ∧ isStream (d.entry (8 * r + k)) then .entry (8 * r + k) reads
       else d.searchSlots key rest (reads + 1))
    else d.searchSlots key rest reads

/-- A table lookup (R124, R138). -/
def Dev.tableLookup (d : Dev) (key : Nat) : Found :=
  let a := d.rodA key
  let b := d.rodB key
  if d.lineBad (digestAddr a 0) then .ecc a
  else if d.lineBad (digestAddr b 0) then .ecc b
  else d.searchSlots key (d.searchOrder key) 0

/-- Used slots of a rod, and its lowest free slot: a slot with any type other than free is used (R125). -/
def Dev.usedSlots (d : Dev) (r : Nat) : Nat :=
  ((List.range 8).filter fun k => decide (eType (d.entry (8 * r + k)) ≠ 0)).length
def Dev.freeSlot (d : Dev) (r : Nat) : Option Nat :=
  (List.range 8).find? fun k => decide (eType (d.entry (8 * r + k)) = 0)

/-- The entry index an insert takes: the rod with fewer used slots, rod_a on a tie, its lowest free slot
(R123). -/
def Dev.insertSlot (d : Dev) (key : Nat) : Option Nat :=
  let a := d.rodA key
  let b := d.rodB key
  let r := if d.usedSlots b < d.usedSlots a then b else a
  (d.freeSlot r).map fun k => 8 * r + k

/-- A stream entry written with its digest halfword in one operation (R122). -/
def Dev.putStream (d : Dev) (i image : Nat) : Dev :=
  (d.setEntry i image).store (digestAddr (i / 8) (i % 8)) 2 (32768 + fingerprint (eKey image))

/-- A slot made free, with its digest halfword. -/
def Dev.freeEntry (d : Dev) (i : Nat) : Dev :=
  (d.setEntry i 0).store (digestAddr (i / 8) (i % 8)) 2 0

/-- The sid of an entry taken or released, with the count of installed entries (R119). -/
def Dev.holdSid (d : Dev) (sid i : Nat) : Dev :=
  (d.withRte fun r => { r with sids := tset 0 r.sids sid (i + 1) }).wr R.RTE_STATUS_streams []
    (d.rd R.RTE_STATUS_streams + 1)
def Dev.dropSid (d : Dev) (sid : Nat) : Dev :=
  (d.withRte fun r => { r with sids := tset 0 r.sids sid 0 }).wr R.RTE_STATUS_streams []
    (d.rd R.RTE_STATUS_streams - 1)

/-! ### The route cache (R128, R130, R131, R133) -/

/-- pin_ways as it acts. -/
def Dev.pinWays (d : Dev) : Nat := min 12 (d.rd R.RTE_CACHE_CFG_pin_ways)

/-- A line is pinned. -/
def CacheLine.pinned (l : CacheLine) : Bool := l.pinE || l.pinS.isSome

/-- The walk of tree pseudo-LRU over `size` ways from `lo`, root `node`, choosing among the ways `ok`: it
turns as the bit says where that subtree holds a way to choose, to the other subtree otherwise. -/
def plruWalk (plru : Nat) (ok : List Nat) (depth node lo size : Nat) : Nat :=
  match depth with
  | 0 => lo
  | depth + 1 =>
    let h := size / 2
    let left := ok.any fun w => decide (lo ≤ w ∧ w < lo + h)
    let right := ok.any fun w => decide (lo + h ≤ w ∧ w < lo + size)
    let goRight := if plru.testBit node then right else !left
    if goRight then plruWalk plru ok depth (2 * node + 2) (lo + h) h
    else plruWalk plru ok depth (2 * node + 1) lo h

/-- The tree bits after a use of a way: every node on its path points away from it. -/
def plruTouch (plru depth node lo size way : Nat) : Nat :=
  match depth with
  | 0 => plru
  | depth + 1 =>
    let h := size / 2
    if way < lo + h then plruTouch (withBit plru node) depth (2 * node + 1) lo h way
    else plruTouch (withoutBit plru node) depth (2 * node + 2) (lo + h) h way

def Dev.cset (d : Dev) (n : Nat) : CacheSet := tget {} d.rte.cache n
def Dev.setCset (d : Dev) (n : Nat) (c : CacheSet) : Dev :=
  d.withRte fun r => { r with cache := tset {} r.cache n c }

/-- A line found by its tag. -/
def CacheSet.find (c : CacheSet) (t : LineTag) : Option CacheLine := c.lines.find? fun l => l.tag = t

/-- A line replaced by its way, and the set with the way used. -/
def CacheSet.put (c : CacheSet) (l : CacheLine) : CacheSet :=
  { lines := (c.lines.filter fun x => x.way ≠ l.way) ++ [l], plru := plruTouch c.plru 4 0 0 16 l.way }

/-- A stream line leaves the cache: its hit state is written to DDR4 (R140). -/
def Dev.writeBackHit (d : Dev) (l : CacheLine) : Dev :=
  match l.tag with
  | .stream i => if l.hit then d.setEntry i (putBits (d.entry i) 326 1 1) else d
  | _ => d

/-- The line with a tag removed from a set. -/
def Dev.dropLine (d : Dev) (set : Nat) (t : LineTag) : Dev :=
  let c := d.cset set
  match c.find t with
  | none => d
  | some l => (d.writeBackHit l).setCset set { c with lines := c.lines.filter fun x => x.way ≠ l.way }

/-- A way for a new line: an empty one, else the walk over unpinned lines; with its old line written
back. -/
def Dev.victim (d : Dev) (set : Nat) : Option Nat :=
  let c := d.cset set
  match (List.range 16).find? fun w => !(c.lines.any fun l => l.way == w) with
  | some w => some w
  | none =>
    let ok := (c.lines.filter fun l => !l.pinned).map (·.way)
    if ok.isEmpty then none else some (plruWalk c.plru ok 4 0 0 16)

/-- A line loaded, unpinned or pinned for an entry's pin bit when the set has room (R133); a line already
there is used. -/
def Dev.loadLine (d : Dev) (set : Nat) (t : LineTag) (pin hit : Bool) : Dev :=
  let c := d.cset set
  let room := decide ((c.lines.filter (·.pinned)).length < d.pinWays)
  match c.find t with
  | some l => d.setCset set (c.put { l with hit := l.hit || hit, pinE := l.pinE || (pin && room) })
  | none =>
    match d.victim set with
    | none => d
    | some w =>
      let d := match c.lines.find? fun l => l.way == w with
        | some old => d.writeBackHit old
        | none => d
      d.setCset set (c.put { way := w, tag := t, pinE := pin && room, hit := hit })

/-- A salvo's pre-warm pins a line: it may unpin one line pinned only for an entry's pin bit, never one
pinned by a salvo; false when there is no room (R130). -/
def Dev.pinForSalvo (d : Dev) (set : Nat) (t : LineTag) (slot : Nat) : Dev × Bool :=
  let c := d.cset set
  let pinnedN := (c.lines.filter (·.pinned)).length
  let already := match c.find t with
    | some l => l.pinned
    | none => false
  let soft := (c.lines.filter fun l => l.pinE && l.pinS.isNone).map (·.way)
  let (c, ok) :=
    if already = true ∨ pinnedN < d.pinWays then (c, true)
    else if soft.isEmpty = true ∨ d.pinWays = 0 then (c, false)
    else
      let w := plruWalk c.plru soft 4 0 0 16
      ({ c with lines := c.lines.map fun l => if l.way = w then { l with pinE := false } else l }, true)
  if ok = false then (d, false) else
  let d := (d.setCset set c).loadLine set t false false
  let c := d.cset set
  match c.find t with
  | none => (d, false)
  | some l => (d.setCset set (c.put { l with pinS := some slot }), true)

/-- The lines a slot's salvo pinned are unpinned; one whose entry has pin set stays pinned for it (R130). -/
def Dev.unpinSalvo (d : Dev) (slot : Nat) : Dev :=
  d.withRte fun r => { r with cache := r.cache.map fun e => (e.1, { e.2 with
    lines := e.2.lines.map fun l =>
      if l.pinS = some slot then
        { l with pinS := none, pinE := l.pinE || (match l.tag with
            | .stream i => ePin (d.entry i) == 1
            | .chan i => ePin (d.entry i) == 1
            | _ => false) }
      else l }) }

/-- The cache set in which an entry lives (R128). -/
def Dev.setOfEntry (d : Dev) (i : Nat) : Nat :=
  let e := d.entry i
  if isStream e then cacheSetOf (eKey e) else i % 0x4000

end Sys2Proof.Machine
end

