-- ==== Sys2Proof/Machine/Media.lean ====
section
/-! DEFINITION. Chapter 05, receive side: sid counters, receive contexts, the ST 2022-7 merge, the frame
store. -/

namespace Sys2Proof.Machine

/-- The media unit changed. -/
def Dev.withMed (d : Dev) (f : MedSt → MedSt) : Dev := { d with med := f d.med }

/-- Media counter `k` counts (Table 05-15). -/
def Dev.medCount (d : Dev) (k : Nat) (n : Nat := 1) : Dev := d.bumpWrap R.MED_CNT_count [k] n

/-! ### sid counters (R152) -/

def sidAddr (sid : Nat) : Nat := 0x1054000000 + 32 * sid

/-- A 64-bit counter in memory counts up and wraps. -/
def Dev.count64 (d : Dev) (a n : Nat) : Dev := d.store a 8 (d.load a 8 + n)

/-- A frame of `bytes` bytes routed by an entry is counted in its sid; `drop` and `bad` count it as
dropped or failing R155. An uncorrectable line is written anew. -/
def Dev.sidCount (d : Dev) (sid bytes : Nat) (drop bad : Bool) : Dev :=
  if d.rd R.SYS_READY_ddr_ecc = 0 then d else
  let a := sidAddr sid
  let d := if d.lineBad a then
      ({ d.store (a / 64 * 64) 64 0 with
         ddr := { d.ddr with bad := d.ddr.bad.filter (· ≠ a / 64 * 64) } }).medCount 16
    else d
  let d := (d.count64 a 1).count64 (a + 8) bytes
  let d := if drop then d.count64 (a + 16) 1 else d
  if bad then d.count64 (a + 24) 1 else d

/-- A frame already counted is dropped: the sid's dropped counter (R152). -/
def Dev.sidDrop (d : Dev) (sid : Nat) : Dev :=
  if d.rd R.SYS_READY_ddr_ecc = 0 then d else d.count64 (sidAddr sid + 16) 1

/-! ### Contexts (Tables 05-11 to 05-14) -/

def rxReset (i : Nat) : Nat × Nat := if i = 0 then (15, 1) else (0, 0)
def Dev.rxCtx (d : Dev) (i : Nat) : Nat × Nat := tget (rxReset i) d.med.rx i
def Dev.setRx (d : Dev) (i : Nat) (c : Nat × Nat) : Dev :=
  d.withMed fun m => { m with rx := tset (rxReset i) m.rx i c }
def Dev.pairCtx (d : Dev) (i : Nat) : Nat × Nat := tget (0, 0) d.med.pair i
def Dev.setPair (d : Dev) (i : Nat) (c : Nat × Nat) : Dev :=
  d.withMed fun m => { m with pair := tset (0, 0) m.pair i c }
def Dev.egrCtx (d : Dev) (k : Nat) : Nat × Nat := tget (0, 0) d.med.egr k
def Dev.setEgr (d : Dev) (k : Nat) (c : Nat × Nat) : Dev :=
  d.withMed fun m => { m with egr := tset (0, 0) m.egr k c }

/-- A status field of a receive context set, or counted up and wrapped. -/
def Dev.rxStat (d : Dev) (i lo w v : Nat) : Dev :=
  let c := d.rxCtx i
  d.setRx i (c.1, putBits c.2 lo w v)
def Dev.rxBump (d : Dev) (i lo w : Nat) (n : Nat := 1) : Dev :=
  d.rxStat i lo w (bits (d.rxCtx i).2 lo w + n)
def Dev.pairStat (d : Dev) (i lo w v : Nat) : Dev :=
  let c := d.pairCtx i
  d.setPair i (c.1, putBits c.2 lo w v)
def Dev.pairBump (d : Dev) (i lo w : Nat) (n : Nat := 1) : Dev :=
  d.pairStat i lo w (bits (d.pairCtx i).2 lo w + n)

/-! ### RTP (R155) -/

/-- The RTP header of a UDP payload. -/
structure Rtp where
  ver : Nat
  pt : Nat
  marker : Bool
  seq : Nat
  ts : Nat
  ssrc : Nat
  /-- Header length, and whether the payload is long enough to hold it. -/
  hdr : Nat
  whole : Bool
  /-- RTP payload length, and the extended sequence number of ST 2110-20. -/
  plen : Nat
  ext : Nat
deriving DecidableEq, Repr

def rtpOf (l : List Byte) : Rtp :=
  let b0 := be l 0 1
  let cc := 12 + 4 * (b0 % 16)
  let hdr := if b0 / 16 % 2 = 1 then cc + 4 + 4 * be l (cc + 2) 2 else cc
  { ver := b0 / 64, pt := be l 1 1 % 128, marker := be l 1 1 / 128 == 1, seq := be l 2 2, ts := be l 4 4,
    ssrc := be l 8 4, hdr := hdr,
    whole := decide (12 ≤ l.length ∧ cc + (if b0 / 16 % 2 = 1 then 4 else 0) ≤ l.length ∧ hdr ≤ l.length),
    plen := l.length - hdr, ext := be l hdr 2 }

/-- The part of ST 2110 a context handles; 5 and 6 act as RAW. -/
def rxPart (cfg : Nat) : Nat := if bits cfg 1 3 ≥ 5 then 7 else bits cfg 1 3

/-- Bytes of a sample: L16, L24, or a subframe of part 3. -/
def sampleBytes (cfg : Nat) : Nat := if rxPart cfg = 3 then 4 else if bits cfg 14 1 = 1 then 3 else 2

/-- The frame fails the RTP checks of its context (R155). -/
def rtpFails (cfg : Nat) (r : Rtp) : Bool :=
  let part := rxPart cfg
  if part = 7 then false else
  !r.whole || r.ver != 2 || (bits cfg 11 1 == 1 && r.pt != bits cfg 4 7) ||
    (bits cfg 12 1 == 1 && r.ssrc != bits cfg 32 32) ||
    ((part == 2 || part == 3) && r.plen != bits cfg 128 7 * bits cfg 135 7 * sampleBytes cfg) ||
    (part == 0 && decide (r.plen < 2))

/-- A 32-bit difference as a signed number. -/
def diff32 (x y : Nat) : Int := toSigned 32 (x + 2 ^ 32 - y % 2 ^ 32)

/-- The extended sequence number near a reference (R157). -/
def extendSeq (ref seq : Nat) : Nat :=
  let x := ref / 65536 % 65536 * 65536 + seq
  let d := diff32 x ref
  if d > 32767 then (x + 2 ^ 32 - 65536) % 2 ^ 32 else if d < -32768 then (x + 65536) % 2 ^ 32 else x

/-! ### The merge (R160 to R164) -/

/-- log2 of the history as it acts: above 15 acts as 15 on 16-bit streams. -/
def histLog (cfg part : Nat) : Nat :=
  let h := bits cfg 2 5
  if part ≠ 0 ∧ h > 15 then 15 else h

/-- History bit `b` of a pair, on chip or in DDR4. -/
def Dev.histBit (d : Dev) (cfg b : Nat) : Bool :=
  if bits cfg 7 1 = 1 then ((d.byte (bits cfg 32 38 / 4096 * 4096 + b / 8)).toNat).testBit (b % 8)
  else (tget 0 d.med.hist (bits cfg 8 16 + b / 256)).testBit (b % 256)

def Dev.setHist (d : Dev) (cfg b : Nat) (on : Bool) : Dev :=
  let put (v i : Nat) : Nat := if on then withBit v i else withoutBit v i
  if bits cfg 7 1 = 1 then
    let a := bits cfg 32 38 / 4096 * 4096 + b / 8
    d.setByte a (BitVec.ofNat 8 (put (d.byte a).toNat (b % 8)))
  else
    let u := bits cfg 8 16 + b / 256
    d.withMed fun m => { m with hist := tset 0 m.hist u (put (tget 0 m.hist u) (b % 256)) }

/-- Every history bit of a pair cleared. -/
def Dev.clearHist (d : Dev) (cfg size : Nat) : Dev :=
  (List.range size).foldl (fun d b => d.setHist cfg b false) d

/-- A pair starts, or starts again, at sequence number `x`. -/
def Dev.pairStart (d : Dev) (p cfg size x : Nat) : Dev :=
  let d := ((d.clearHist cfg size).pairStat p 0 32 x).setHist cfg (x % size) true
  d.withMed fun m => { m with pairBase := tset 0 m.pairBase p x, lateRun := tset 0 m.lateRun p 0 }

def Dev.setLate (d : Dev) (p n : Nat) : Dev :=
  d.withMed fun m => { m with lateRun := tset 0 m.lateRun p n }

/-- `n` sequence numbers were lost (R160). -/
def Dev.pairLost (d : Dev) (p n : Nat) : Dev :=
  if n = 0 then d else (d.pairBump p 192 32 n).medCount 4 n

/-- A frame forwarded by leg `l`. -/
def Dev.pairForward (d : Dev) (p l : Nat) : Dev := d.pairBump p (if l = 0 then 64 else 96) 32

/-- The window slides from H to `x`, one position at a time. -/
def Dev.slide (d : Dev) (p cfg size h n : Nat) : Dev :=
  match n with
  | 0 => d
  | n + 1 =>
    let d := d.slide p cfg size h n
    let q := (h + n + 1) % 2 ^ 32
    let gone := (q + 2 ^ 32 - size) % 2 ^ 32
    let lost := decide (diff32 gone (tget 0 d.med.pairBase p) ≥ 0) && !d.histBit cfg (q % size)
    (if lost then d.pairLost p 1 else d).setHist cfg (q % size) false

/-- Clear positions of the window since base. -/
def Dev.clearSince (d : Dev) (p cfg size h : Nat) : Nat :=
  ((List.range size).filter fun i =>
    let q := (h + 2 ^ 32 - i) % 2 ^ 32
    decide (diff32 q (tget 0 d.med.pairBase p) ≥ 0) && !d.histBit cfg (q % size)).length

/-- A leg seen: its live bit sets with its first forwarded or duplicate frame (R163). -/
def Dev.legLive (d : Dev) (p l : Nat) : Dev :=
  if bits (d.pairCtx p).2 (33 + l) 1 = 1 then d
  else (d.pairStat p (33 + l) 1 1).raise Ev.mergeLegUp p

/-- The merge of pair `p` for a frame of leg `l` with extended sequence number `x` (R160): forwarded? -/
def mergeFrame (p l x part : Nat) (d : Dev) : Dev × Bool :=
  let (cfg, stat) := d.pairCtx p
  if bits cfg 0 1 = 0 then (d.medCount 0, false) else
  let size := 2 ^ histLog cfg part
  let d := d.withMed fun m => { m with legSeen := tset 0 m.legSeen (2 * p + l) (d.clock + 1) }
  if bits stat 32 1 = 0 then
    ((((d.pairStart p cfg size x).pairStat p 32 1 1).pairForward p l).legLive p l, true)
  else
    let h := bits stat 0 32
    let df := diff32 x h
    if df > 0 then
      let n := df.toNat
      let d := if n ≥ size then
          (d.pairLost p (d.clearSince p cfg size h + (n - size))).clearHist cfg size
        else d.slide p cfg size h n
      (((((d.setHist cfg (x % size) true).pairStat p 0 32 x).setLate p 0).pairForward p l).legLive p l, true)
    else if (-df).toNat ≥ size then
      let run := tget 0 d.med.lateRun p
      if bits cfg 1 1 = 1 ∧ run = 8 then
        let d := ((d.pairStart p cfg size x).pairBump p 224 16).raise Ev.mergeResync p
        ((d.pairForward p l).legLive p l, true)
      else (((d.pairBump p 160 32).setLate p (run + 1)).medCount 3, false)
    else
      let d := d.setLate p 0
      if d.histBit cfg (x % size) then (((d.pairBump p 128 32).medCount 2).legLive p l, false)
      else (((d.setHist cfg (x % size) true).pairForward p l).legLive p l, true)

/-- No frame from a leg for leg_tmo_ms: it is marked down (R163). -/
def legTimeout (p l : Nat) (d : Dev) : Dev :=
  let (cfg, stat) := d.pairCtx p
  let tmo := bits cfg 96 16
  let seen := tget 0 d.med.legSeen (2 * p + l)
  if bits stat (33 + l) 1 = 1 ∧ tmo ≠ 0 ∧ d.passed (seen - 1 + tmo * 65536000000) = true then
    (d.pairStat p (33 + l) 1 0).raise Ev.mergeLegDown p
  else d

/-! ### The frame store (R171 to R176) -/

def slotKey (ctx k : Nat) : Nat := 65536 * ctx + k
def Dev.slotAt (d : Dev) (ctx k : Nat) : StoreSlot := tget {} d.med.slots (slotKey ctx k)
def Dev.setSlot (d : Dev) (ctx k : Nat) (s : StoreSlot) : Dev :=
  d.withMed fun m => { m with slots := tset {} m.slots (slotKey ctx k) s }
def Dev.curAt (d : Dev) (ctx : Nat) : StoreCur := tget {} d.med.cur ctx
def Dev.setCur (d : Dev) (ctx : Nat) (c : StoreCur) : Dev :=
  d.withMed fun m => { m with cur := tset {} m.cur ctx c }

/-- The media clock of a store: 90,000 Hz for parts 0, 1 and 4, the context's rate otherwise (R174). -/
def storeRate (cfg : Nat) : Nat := if rxPart cfg = 2 ∨ rxPart cfg = 3 then bits cfg 64 32 else 90000

/-- The sample index nearest floor(t × rate) that is congruent to r − ts_ofs (R166). -/
def sampleIndex (t rate r ofs : Nat) : Nat :=
  let near := t * rate / beadsPerSec
  let want := (r + 2 ^ 32 - ofs % 2 ^ 32) % 2 ^ 32
  let df := toSigned 32 (want + 2 ^ 32 - near % 2 ^ 32)
  ((near : Int) + df).toNat

/-- The time of media index `n`, beads, rounded up. -/
def mediaTime (n rate : Nat) : Nat := if rate = 0 then 0 else (ceilDiv (n * beadsPerSec : Nat) rate).toNat

/-- The address of record `j` of slot `k` (R171). -/
def recordAt (cfg k j : Nat) : Nat :=
  bits cfg 192 38 / 4096 * 4096 + (k * (bits cfg 246 16 + 1) + j) * (bits cfg 262 14 * 64)

/-- The slot after the slot last taken that is not locked (R173). -/
def Dev.nextSlot (d : Dev) (ctx n : Nat) : Option Nat :=
  let start := (d.curAt ctx).slot
  ((List.range n).map fun i => (start + i) % n).find? fun k => !(d.slotAt ctx k).locked

/-- The slot that holds a media frame, by RTP timestamp. -/
def Dev.slotOf (d : Dev) (ctx n ts : Nat) : Option Nat :=
  (List.range n).find? fun k => (d.slotAt ctx k).used && (d.slotAt ctx k).rtpTs == ts

def Dev.storeDrop (d : Dev) (ctx lo k : Nat) : Dev := (d.rxBump ctx lo 32).medCount k

/-- A record written with its header (Table 05-6). -/
def Dev.writeRecord (d : Dev) (cfg k j : Nat) (f : IngFrame) (body : List Byte) (leg xseq ts : Nat) : Dev :=
  let h := f.ts + bit f.tsValid * 2 ^ 96 + leg * 2 ^ 97 + body.length * 2 ^ 112 + xseq * 2 ^ 128 + ts * 2 ^ 160
  (d.store (recordAt cfg k j) 32 h).setBytes (recordAt cfg k j + 32) body

/-- A frame reaches the frame store of context `ctx` with extended sequence number `x`, from leg `leg`. -/
def storeFrame (ctx : Nat) (f : IngFrame) (x leg : Nat) (d : Dev) : Dev :=
  let cfg := (d.rxCtx ctx).1
  let p := parse f.bytes
  let r := rtpOf p.payload
  let body := f.bytes.take (p.data + p.payload.length)
  let single := rxPart cfg = 2 ∨ rxPart cfg = 3
  let n := bits cfg 230 16 + 1
  let maxPkts := if single then 1 else bits cfg 246 16 + 1
  let c := d.curAt ctx
  let marker := r.marker || decide single
  let place := fun (d : Dev) (k : Nat) =>
    let s := d.slotAt ctx k
    let j := diff32 x s.first
    if s.released then d.storeDrop ctx 224 5
    else if j < 0 ∨ j ≥ maxPkts then d.storeDrop ctx 256 6
    else
      let s := { s with
        present := s.present.filter (· ≠ j.toNat) ++ [j.toNat]
        count := if marker then some (j.toNat + 1) else s.count }
      let c := d.curAt ctx
      let c := if marker ∧ s.order = c.order then
          { c with nextFirst := some ((x + 1) % 2 ^ 32), count := j.toNat + 1 } else c
      ((d.writeRecord cfg k j.toNat f body leg x r.ts).setSlot ctx k s).setCur ctx c
  if body.length > bits cfg 262 14 * 64 - 32 then d.storeDrop ctx 256 6
  else match d.slotOf ctx n r.ts with
  | some k => place d k
  | none =>
    if c.armed = false ∧ ¬ single then
      (if r.marker then d.setCur ctx { c with armed := true, nextFirst := some ((x + 1) % 2 ^ 32) } else d)
    else
      let idx := sampleIndex (rawToBeads f.ts) (storeRate cfg) r.ts (bits cfg 96 32)
      if bits cfg 276 1 = 0 ∧ d.reached (mediaTime idx (storeRate cfg) + bits cfg 320 64) = true then
        d.storeDrop ctx 224 5
      else match d.nextSlot ctx n with
      | none =>
        let d := d.storeDrop ctx 256 6
        if c.overTs = some r.ts then d
        else (d.setCur ctx { c with overTs := some r.ts }).raise Ev.storeOverrun ctx
      | some k =>
        let first := if single then x else c.nextFirst.getD ((c.first + c.count) % 2 ^ 32)
        let d := d.setSlot ctx k { used := true, rtpTs := r.ts, first := first, index := idx, order := c.order + 1 }
        let d := (d.setCur ctx { c with
          slot := k + 1, first := first, nextFirst := none, order := c.order + 1, armed := true }).rxStat
          ctx 384 16 k
        place d k

/-- The records of a slot, in order of their index, go to the egress stream; absent ones are counted
(R176). -/
def Dev.startRelease (d : Dev) (ctx k : Nat) (index : Option Nat) (again : Bool) : Dev :=
  let cfg := (d.rxCtx ctx).1
  let s := d.slotAt ctx k
  let total := s.count.getD (d.curAt ctx).count
  let q := bits cfg 277 1
  let one := fun (d : Dev) (j : Nat) =>
    if j ∈ s.present then
      let a := recordAt cfg k j
      let h := d.load a 32
      let ing := if bits h 96 1 = 1 then some (rawToBeads (bits h 0 96)) else none
      let body := d.bytes (a + 32) (bits h 112 16)
      let e : EgReq := { stream := bits cfg 278 14, bytes := body, index := index, ingress := ing, rel := some (ctx, k) }
      d.withMed fun m => { m with egrIn := tset [] m.egrIn q (tget [] m.egrIn q ++ [e]) }
    else (d.rxBump ctx 288 32).medCount 7
  let d := (List.range total).foldl one d
  let d := (d.setSlot ctx k { s with locked := true, released := true }).rxStat ctx 400 16 k
  let c := d.curAt ctx
  (d.setCur ctx { c with released := s.order + 1 }).withMed fun m =>
    { m with releases := m.releases ++ [⟨ctx, k, index, again⟩] }

/-- The slots of a store that hold a media frame. -/
def Dev.storeSlots (d : Dev) (ctx : Nat) : List (Nat × StoreSlot) :=
  ((List.range (bits (d.rxCtx ctx).1 230 16 + 1)).map fun k => (k, d.slotAt ctx k)).filter fun x => x.2.used

/-- The element least by a measure. -/
def leastBy {α : Type} (f : α → Nat) : List α → Option α
  | [] => none
  | a :: r => match leastBy f r with
    | none => some a
    | some b => if f b < f a then some b else some a

/-- Mode DELAY: a stored frame's media time + delay is reached, and its release starts (R174). -/
def storeReleaseDelay (ctx : Nat) (d : Dev) : Dev :=
  let cfg := (d.rxCtx ctx).1
  let due := (d.storeSlots ctx).filter fun x => !x.2.locked && !x.2.released &&
    d.reached (mediaTime x.2.index (storeRate cfg) + bits cfg 320 64)
  if bits cfg 13 1 = 0 ∨ bits cfg 276 1 = 1 then d else
  match leastBy (fun x => x.2.order) due with
  | none => d
  | some x => d.startRelease ctx x.1 none false

/-- The time of SYNC boundary `k`, beads, rounded up (R175). -/
def syncBoundary (cfg k : Nat) : Int :=
  ceilDiv (k * bits cfg 384 32 * beadsPerSec : Nat) (bits cfg 416 32) + toSigned 64 (bits cfg 448 64)

/-- The first boundary at or after a time. -/
def firstBoundary (cfg t : Nat) : Nat :=
  (ceilDiv (((t : Int) - toSigned 64 (bits cfg 448 64)) * (bits cfg 416 32 : Nat))
    (bits cfg 384 32 * beadsPerSec)).toNat

/-- Mode SYNC: at an output frame boundary the store releases the newest complete frame due, releases the
last one again, or nothing (R175). -/
def storeSync (ctx : Nat) (d : Dev) : Dev :=
  let cfg := (d.rxCtx ctx).1
  if bits cfg 13 1 = 0 ∨ bits cfg 276 1 = 0 ∨ bits cfg 384 32 = 0 ∨ bits cfg 416 32 = 0 then d else
  let c := d.curAt ctx
  let k := c.boundary.getD (firstBoundary cfg d.now)
  let b := (syncBoundary cfg k).toNat
  if d.reached b = false then d else
  let d := d.setCur ctx { c with boundary := some (k + 1) }
  let due := (d.storeSlots ctx).filter fun x => !x.2.locked && x.2.count.isSome &&
    decide (mediaTime x.2.index (storeRate cfg) + bits cfg 320 64 ≤ b)
  match leastBy (fun x => c.order - x.2.order) due with
  | none => d
  | some x =>
    if x.2.order + 1 > c.released then
      let skipped := (due.filter fun y => decide (y.2.order < x.2.order ∧ c.released < y.2.order + 1)).length
      (d.startRelease ctx x.1 (some k) false).rxBump ctx 352 32 skipped
    else if x.2.order + 1 = c.released then (d.startRelease ctx x.1 (some k) true).rxBump ctx 320 32
    else d

/-- A release of the context whose records have all entered the egress queue: the slot unlocks (R176). -/
def storeReleaseDone (ctx : Nat) (d : Dev) : Dev :=
  match d.med.releases.find? fun r => r.ctx = ctx with
  | none => d
  | some r =>
    let q := bits (d.rxCtx ctx).1 277 1
    if (tget [] d.med.egrIn q).any fun e => e.rel == some (ctx, r.slot) then d
    else (d.setSlot ctx r.slot { d.slotAt ctx r.slot with locked := false }).withMed fun m =>
      { m with releases := m.releases.filter (· ≠ r) }

/-! ### The stages of a frame (R153 to R158) -/

/-- A frame passes R155: the context's state and last time (R158), and the time its stall counts from. -/
def Dev.rxPass (d : Dev) (ctx ts : Nat) : Dev :=
  let st := bits (d.rxCtx ctx).2 0 2
  let d := (d.rxStat ctx 64 96 ts).withMed fun m => { m with rxSeen := tset 0 m.rxSeen ctx d.clock }
  if st = 1 ∨ st = 3 then (d.rxStat ctx 0 2 2).raise Ev.streamUp ctx else d

/-- Sequence extension of a frame (R157): its extended number. -/
def Dev.seqExtend (d : Dev) (ctx pair : Nat) (p27 : Bool) (r : Rtp) : Dev × Nat :=
  let (cfg, stat) := d.rxCtx ctx
  let started := bits stat 2 1
  let last := bits stat 32 32
  let pst := (d.pairCtx pair).2
  let refSet := if p27 then bits pst 32 1 else started
  let ref := if p27 then bits pst 0 32 else last
  let x := if rxPart cfg = 0 then r.ext * 65536 + r.seq
    else if refSet = 0 then r.seq else extendSeq ref r.seq
  if p27 then (d, x) else
  let df := diff32 x last
  let d := if started = 1 ∧ df > 1 then d.rxBump ctx 160 32 (df.toNat - 1) else d
  let d := if started = 0 ∨ df > 0 then d.rxStat ctx 32 32 x else d
  (d.rxStat ctx 2 1 1, x)

/-- No frame passes R155 for stall_ms in RECEIVING (R158). -/
def streamStall (ctx : Nat) (d : Dev) : Dev :=
  let (cfg, stat) := d.rxCtx ctx
  let ms := bits cfg 144 16
  if bits stat 0 2 = 2 ∧ ms ≠ 0 ∧ d.passed (tget 0 d.med.rxSeen ctx + ms * 65536000000) = true then
    (d.rxStat ctx 0 2 3).raise Ev.streamStall ctx
  else d

/-! ### The commands -/

/-- STREAM_STALL. -/
def execStreamStall (ctx : Fin 65536) (s : State) : Host.Outcome State Fault Refusal := run s (streamStall ctx)

/-- MERGE_LEG_TIMEOUT. -/
def execMergeLegTimeout (pair : Fin 65536) (leg : Fin 2) (s : State) : Host.Outcome State Fault Refusal :=
  run s (legTimeout pair leg)

/-- STORE_RELEASE_DELAY. -/
def execStoreReleaseDelay (ctx : Fin 65536) (s : State) : Host.Outcome State Fault Refusal :=
  run s (storeReleaseDelay ctx)

/-- STORE_SYNC_BOUNDARY. -/
def execStoreSyncBoundary (ctx : Fin 65536) (s : State) : Host.Outcome State Fault Refusal :=
  run s (storeSync ctx)

/-- STORE_RELEASE_DONE. -/
def execStoreReleaseDone (ctx : Fin 65536) (s : State) : Host.Outcome State Fault Refusal :=
  run s (storeReleaseDone ctx)

end Sys2Proof.Machine
end

