-- ==== Sys2Proof/Machine/Egress.lean ====
section
/-! DEFINITION. Chapter 05, transmit side, and the scheduler of chapter 03: egress streams, eligible times,
the audio assembly ring, rosters, the start of frames, the context command. -/

namespace Sys2Proof.Machine

/-! ### Egress streams (R177 to R181) -/

def egrKey (q e : Nat) : Nat := 16384 * q + e

/-- A status field of an egress context set, or counted up and wrapped. -/
def Dev.egrStat (d : Dev) (k lo w v : Nat) : Dev :=
  let c := d.egrCtx k
  d.setEgr k (c.1, putBits c.2 lo w v)
def Dev.egrBump (d : Dev) (k lo w : Nat) : Dev := d.egrStat k lo w (bits (d.egrCtx k).2 lo w + 1)

def Dev.egrState (d : Dev) (k : Nat) : Nat := bits (d.egrCtx k).2 0 3
def Dev.egrDepth (d : Dev) (k : Nat) : Nat := bits (d.egrCtx k).2 16 16

/-- The stream's bit of MED_TX_HALT. -/
def Dev.txHalted (d : Dev) (q e : Nat) : Bool := (d.rd R.MED_TX_HALT_halt [q, e / 64]).testBit (e % 64)

/-- info of the TX events: stream; [14] port. -/
def txInfo (q e : Nat) : Nat := e + 16384 * q

/-- One frame fewer waits on a stream; an empty queue starts the time of R181. -/
def Dev.egrLeave (d : Dev) (k : Nat) : Dev :=
  let n := d.egrDepth k - 1
  let d := d.egrStat k 16 16 n
  if n = 0 then d.withMed fun m => { m with emptyAt := tset 0 m.emptyAt k (d.clock + 1) } else d

/-- Bytes in the egress queue of a port counted out. -/
def Dev.egFree (d : Dev) (q : Nat) (f : EgFrame) : Dev :=
  d.withPrt fun p => { p with
    egBytes := tset 0 p.egBytes q (tget 0 p.egBytes q - f.len)
    egStreamBytes := if f.src = .stream then
        tset 0 p.egStreamBytes q (tget 0 p.egStreamBytes q - f.len) else p.egStreamBytes }

def Dev.egCount (d : Dev) (q : Nat) (f : EgFrame) : Dev :=
  d.withPrt fun p => { p with
    egBytes := tset 0 p.egBytes q (tget 0 p.egBytes q + f.len)
    egStreamBytes := tset 0 p.egStreamBytes q (tget 0 p.egStreamBytes q + f.len) }

/-- Bytes `n` at offset `o` of a list replaced by a big-endian number. -/
def setBe (l : List Byte) (o n v : Nat) : List Byte := l.take o ++ beBytes n v ++ l.drop (o + n)

/-- The one's-complement sum of 16-bit words. -/
def onesSum (l : List Byte) : Nat :=
  match l with
  | [] => 0
  | [a] => a.toNat * 256
  | a :: b :: r => a.toNat * 256 + b.toNat + onesSum r

/-- The Internet checksum of bytes added to a sum. -/
def checksum (start : Nat) (l : List Byte) : Nat :=
  let s := start + onesSum l
  let s := s % 65536 + s / 65536
  let s := s % 65536 + s / 65536
  65535 - s % 65536

/-- The header template of a stream. -/
def templateAddr (k : Nat) : Nat := 0x1054800000 + 128 * k

/-- Header and payload with the lengths and the IPv4 checksum set (R178). -/
def fixLengths (b : List Byte) : List Byte :=
  let p := parse (b ++ [0, 0, 0, 0])
  let n := b.length
  if p.ip = 4 then
    let u := p.data - 8
    let b := setBe (setBe (setBe b (p.l3 + 2) 2 (n - p.l3)) (u + 4) 2 (n - u)) (p.l3 + 10) 2 0
    setBe b (p.l3 + 10) 2 (checksum 0 ((b.drop p.l3).take (u - p.l3)))
  else if p.ip = 6 then
    setBe (setBe b (p.l3 + 4) 2 (n - p.l3 - 40)) (p.data - 4) 2 (n - p.data + 8)
  else b

/-- The UDP checksum of a rewritten frame: for IPv6, and for IPv4 where the template's field is not zero
(R178). -/
def fixUdp (b : List Byte) : List Byte :=
  let p := parse (b ++ [0, 0, 0, 0])
  let u := p.data - 8
  if p.udp = false ∨ (p.ip = 4 ∧ be b (u + 6) 2 = 0) then b else
  let z := setBe b (u + 6) 2 0
  let addrs := if p.ip = 4 then (b.drop (p.l3 + 12)).take 8 else (b.drop (p.l3 + 8)).take 32
  let c := checksum (onesSum addrs + 17 + (b.length - u)) (z.drop u)
  setBe b (u + 6) 2 (if c = 0 then 65535 else c)

/-- A frame's RTP payload behind the stream's template header; the offsets of the RTP header and of its
payload. -/
def Dev.rewrite (d : Dev) (k : Nat) (payload : List Byte) : List Byte × Nat × Nat :=
  let t := d.bytes (templateAddr k) 128
  let h := be t 0 1
  (fixLengths ((t.drop 2).take h ++ payload), be t 1 1, h)

/-- The beads of frame boundary FN times den, exact (R186). -/
def boundaryNum (cfg n : Nat) : Nat := n * bits cfg 32 32 * beadsPerSec

/-- The first media frame index whose FN + tro is at or after a time. -/
def firstIndex (cfg t : Nat) : Nat :=
  (ceilDiv (((t : Int) - toSigned 64 (bits cfg 256 64)) * (bits cfg 64 32 : Nat))
    (bits cfg 32 32 * beadsPerSec)).toNat

/-- The media frame index and the index in it of a frame of a VIDEO stream, and the schedule after it
(R186). -/
def Dev.videoIndex (d : Dev) (k cfg : Nat) (req : EgReq) (ts : Nat) : Dev × Nat × Nat :=
  let cur := tget 0 d.med.vidN k
  let same := match req.index with
    | some n => cur == n + 1
    | none => cur != 0 && tget 0 d.med.vidTs k == ts
  let n := if same then cur - 1 else req.index.getD (firstIndex cfg d.now)
  let j := if same then tget 0 d.med.vidJ k else 0
  (d.withMed fun m => { m with
    vidN := tset 0 m.vidN k (n + 1), vidJ := tset 0 m.vidJ k (j + 1), vidTs := tset 0 m.vidTs k ts }, n, j)

/-- E of an audio packet, beads rounded up; none where the rate is 0. -/
def audioElig (cfg first : Nat) : Option Nat :=
  if bits cfg 96 32 = 0 then none else
  some (ceilDiv ((first + bits cfg 160 7) * beadsPerSec : Nat) (bits cfg 96 32)
    + toSigned 64 (bits cfg 256 64)).toNat

/-- A frame's eligible time, and the RTP timestamp rewriting sets (R186, R179). -/
def Dev.eligible (d : Dev) (k cfg : Nat) (req : EgReq) (ts : Nat) : Dev × Option Nat × Option Nat :=
  let kind := bits cfg 3 2
  let ofs := bits cfg 128 32
  let first := req.index.getD (sampleIndex d.now (bits cfg 96 32) ts ofs)
  let aud := if kind = 1 then some ((first + ofs) % 2 ^ 32) else none
  if kind ≥ 2 then (d, none, none)
  else match bits cfg 1 2 with
  | 0 =>
    if kind = 0 then
      let (d, n, j) := d.videoIndex k cfg req ts
      let e := ceilDiv (boundaryNum cfg n : Nat) (bits cfg 64 32) + toSigned 64 (bits cfg 256 64)
        + (j * bits cfg 192 64 / 65536 : Nat)
      (d, some e.toNat, some ((n * bits cfg 32 32 * 90000 / bits cfg 64 32 + ofs) % 2 ^ 32))
    else match audioElig cfg first with
      | some e => (d, some e, aud)
      | none =>
        let (d, e) := d.draw 96
        (d, some e, aud)
  | 2 => (d, some (match req.ingress with
      | some t => t + bits cfg 320 32 * 65536
      | none => d.now), aud)
  | _ => (d, some (req.elig.getD d.now), aud)

/-- A frame reaches egress stream `e` of port `q` (R177 to R179, R186, R591). -/
def Dev.streamEnqueue (d : Dev) (q e : Nat) (req : EgReq) : Dev :=
  let k := egrKey q e
  let (cfg, stat) := d.egrCtx k
  let gone := fun (d : Dev) => d.tsReturn req.tsTo 0 true
  if bits cfg 0 1 = 0 then gone (d.medCount 11) else
  let p := parse (req.bytes ++ [0, 0, 0, 0])
  let r := rtpOf p.payload
  let rew := req.asm || bits cfg 5 1 == 1
  let payload := if req.asm then req.bytes else p.payload.drop r.hdr
  let (nb, ro, ho) := d.rewrite k payload
  let body := if rew then nb else req.bytes
  let bp := parse (body ++ [0, 0, 0, 0])
  let len := max 64 (body.length + 4)
  if bits stat 16 16 ≥ bits cfg 16 16 then gone ((d.egrBump k 224 32).medCount 12)
  else if tget 0 d.prt.egStreamBytes q + len > 2097152 - 65536 ∨ tget 0 d.prt.egBytes q + len > 2097152 then
    gone (d.medCount 12)
  else
    let s := bits cfg 7 2
    if d.linkUp q s = false ∨ d.faulted q s = true then d.prtCount q s 16 else
    let (d, elig, rtp) := d.eligible k cfg req r.ts
    let body := match rew, rtp with
      | true, some v => setBe body (ro + 4) 4 v
      | _, _ => body
    let pri := if rew = true ∨ req.pri = none then
        (if bp.tagged then bp.pcp else d.rd R.PRT_CFG_untag_pri [q]) else req.pri.getD 0
    let ofs := if rew then some (ro, ho) else none
    let f : EgFrame :=
      { bytes := body, len := len, src := .stream, pri := pri, sp := s, stream := e, elig := elig, tsTo := req.tsTo, cut := req.cut, rtpAt := ofs }
    let d := match elig with
      | none => d
      | some t => if t < d.now then (d.egrBump k 192 32).medCount 13 else d
    let d := (d.egrStat k 16 16 (d.egrDepth k + 1)).egCount q f
    let d := d.withMed fun m => { m with emptyAt := tset 0 m.emptyAt k 0 }
    let d := if d.egrState k = 3 then (d.egrStat k 0 3 2).raise Ev.txSending (txInfo q e) else d
    match elig with
    | none => d.withPrt fun x => { x with egq := tset [] x.egq q (tget [] x.egq q ++ [f]) }
    | some _ => d.withMed fun m => { m with egrQ := tset [] m.egrQ k (tget [] m.egrQ k ++ [f]) }

/-- The oldest frame on the droveway to the egress streams of a port reaches its stream. -/
def egressEnqueue (q : Nat) (d : Dev) : Dev :=
  match tget [] d.med.egrIn q with
  | [] => d
  | r :: rest => (d.withMed fun m => { m with egrIn := tset [] m.egrIn q rest }).streamEnqueue q r.stream r

/-- The queue of a SENDING stream has been empty for starve_ms (R181). -/
def txStarved (q e : Nat) (d : Dev) : Dev :=
  let k := egrKey q e
  let ms := bits (d.egrCtx k).1 352 16
  let at_ := tget 0 d.med.emptyAt k
  if d.egrState k = 2 ∧ ms ≠ 0 ∧ d.egrDepth k = 0 ∧ at_ ≠ 0 ∧
      d.passed (at_ - 1 + ms * 65536000000) = true then
    (d.egrStat k 0 3 3).raise Ev.txStarved (txInfo q e)
  else d

/-- The stream's halt bit sets; it enters HALTED from any state but DISABLED (R180, R181). -/
def Dev.streamStop (d : Dev) (q e : Nat) : Dev :=
  let k := egrKey q e
  let d := d.setBit R.MED_TX_HALT_halt [q, e / 64] (e % 64)
  if d.egrState k = 0 then d else d.egrStat k 0 3 4

/-- The stream's halt bit clears. -/
def Dev.streamRelease (d : Dev) (q e : Nat) : Dev :=
  let k := egrKey q e
  let d := d.clearBit R.MED_TX_HALT_halt [q, e / 64] (e % 64)
  if d.egrState k = 4 then d.egrStat k 0 3 (if d.egrDepth k = 0 then 3 else 2) else d

/-- The sequence number of the next frame, and the counter after it (R179). -/
def Dev.takeSeq (d : Dev) (k : Nat) : Dev × Nat :=
  let v := bits (d.egrCtx k).2 32 32
  (d.egrStat k 32 32 (v + 1), v)

/-- A frame dropped for its stream's halt: sequence number and eligible time go on as if it had been sent
(R180). -/
def Dev.haltDrop (d : Dev) (q : Nat) (f : EgFrame) : Dev :=
  let k := egrKey q f.stream
  let (d, _) := d.takeSeq k
  let d := match f.elig with
    | some e => d.egrStat k 64 96 (beadsToRaw e)
    | none => d
  ((d.egFree q f).prtCount q f.sp 18).tsReturn f.tsTo 0 true

/-! ### Rosters (R182 to R185, R187) -/

/-- Active slot width in beads, slots, and period of a roster. -/
def Dev.rosW (d : Dev) (q : Nat) : Nat := (d.rd R.MED_ROSTER_STAT_act_width [q] + 1) * 2 * 65536
def Dev.rosL (d : Dev) (q : Nat) : Nat := d.rd R.MED_ROSTER_STAT_act_len_m1 [q] + 1

/-- The beginning of the period from which slots are counted: before the epoch, a whole number of periods
from the phase. -/
def Dev.rosBase (d : Dev) (q : Nat) : Int :=
  let lw : Int := (d.rosL q * d.rosW q : Nat)
  tget 0 d.med.rosPhase q % lw - lw

/-- The beginning of slot number `n`; its index is n mod L. -/
def Dev.slotTime (d : Dev) (q n : Nat) : Int := d.rosBase q + (n * d.rosW q : Nat)

/-- The first slot that begins at or after a time. -/
def Dev.slotFrom (d : Dev) (q : Nat) (t : Int) : Nat := (ceilDiv (t - d.rosBase q) (d.rosW q)).toNat

/-- The number of the next slot to serve. -/
def Dev.nextSlotNo (d : Dev) (q : Nat) : Nat :=
  match tget 0 d.med.rosAt q with
  | 0 => d.slotFrom q d.now
  | n + 1 => n

def Dev.setRosAt (d : Dev) (q n : Nat) : Dev := d.withMed fun m => { m with rosAt := tset 0 m.rosAt q (n + 1) }

/-- The active entry of slot number `n`: en and the stream. -/
def Dev.rosEntry (d : Dev) (q n : Nat) : Option Nat :=
  let v := tget 0 d.med.rosAct (65536 * q + n % d.rosL q)
  if bits v 14 1 = 1 then some (bits v 0 14) else none

/-- The paced frame at the head of a stream's queue served by a slot that begins at `at_` (R187, R180). -/
def Dev.serveSlot (d : Dev) (q e : Nat) (at_ : Int) : Dev :=
  let k := egrKey q e
  match tget [] d.med.egrQ k with
  | [] => d
  | f :: rest =>
    if at_ < (f.elig.getD 0 : Int) then d else
    let pop := fun (d : Dev) =>
      (d.withMed fun m => { m with egrQ := tset [] m.egrQ k rest }).egrLeave k
    let fk := 4 * q + f.sp
    if d.txHalted q e then (pop d).haltDrop q f
    else if d.linkUp q f.sp = false ∨ d.faulted q f.sp = true then ((pop d).egFree q f).prtCount q f.sp 16
    else if (tget [] d.prt.fifo fk).length ≥ 16 then d.medCount 14
    else (pop d).withPrt fun p => { p with fifo := tset [] p.fifo fk (tget [] p.fifo fk ++ [f]) }

/-- The next slot of a roster begins. A slot at or after a pending wrap waits for the swap. -/
def rosterSlot (q : Nat) (d : Dev) : Dev :=
  let n := d.nextSlotNo q
  let s := d.slotTime q n
  let wrap := tget 0 d.med.rosWrap q
  if d.flag R.MED_ROSTER_CFG_en [q] = false ∨ s > (d.now : Int) ∨ (wrap ≠ 0 ∧ s ≥ (wrap : Int) - 1) then d
  else
    let d := d.setRosAt q (n + 1)
    if d.controlOnly then d else
    match d.rosEntry q n with
    | none => d
    | some e => d.serveSlot q e s

/-- The first period wrap strictly after a time, beads. -/
def Dev.nextWrap (d : Dev) (q : Nat) (t : Nat) : Nat :=
  let lw := d.rosL q * d.rosW q
  let base := d.rosBase q
  (base + (((t : Int) - base) / (lw : Int) + 1) * (lw : Int)).toNat

/-- A write of MED_ROSTER_CFG.commit (R183). -/
def Dev.rosterCommit (d : Dev) (q : Nat) : Dev :=
  let d := d.wr R.MED_ROSTER_STAT_pending [q] 1
  d.withMed fun m => { m with rosWrap := tset 0 m.rosWrap q (d.nextWrap q d.now + 1) }

/-- The copies swap roles at the wrap (Table 05-9 step 3). -/
def Dev.rosterSwapNow (d : Dev) (q wrap : Nat) : Dev :=
  let len := d.rd R.MED_ROSTER_CFG_len_m1 [q]
  let wid := d.rd R.MED_ROSTER_CFG_width [q]
  let ph := d.rdS R.MED_ROSTER_CFG_phase [q]
  let same := len = d.rd R.MED_ROSTER_STAT_act_len_m1 [q] ∧ wid = d.rd R.MED_ROSTER_STAT_act_width [q] ∧
    ph = tget 0 d.med.rosPhase q
  let pick := fun (a b : Table Nat) =>
    (a.filter fun e => decide (e.1 / 65536 ≠ q)) ++ (b.filter fun e => decide (e.1 / 65536 = q))
  let sorted := fun (t : Table Nat) => t.foldr (fun e acc => tset 0 acc e.1 e.2) []
  let d := d.withMed fun m => { m with
    rosAct := sorted (pick m.rosAct m.rosShad)
    rosShad := sorted (pick m.rosShad m.rosAct)
    rosPhase := tset 0 m.rosPhase q ph
    rosWrap := tset 0 m.rosWrap q 0 }
  let d := (d.wr R.MED_ROSTER_STAT_act_len_m1 [q] len).wr R.MED_ROSTER_STAT_act_width [q] wid
  let d := if same then d
    else
      let lw := d.rosL q * d.rosW q
      let base := d.rosBase q
      d.setRosAt q (d.slotFrom q (base + ceilDiv ((wrap : Int) - base) lw * (lw : Int)))
  (((d.wr R.MED_ROSTER_STAT_pending [q] 0).wr R.MED_ROSTER_STAT_copying [q] 1).bumpWrap
    R.MED_ROSTER_STAT_commits [q]).raise Ev.rosterCommitted q

/-- The wrap a commit waits for has come. -/
def rosterSwap (q : Nat) (d : Dev) : Dev :=
  let wrap := tget 0 d.med.rosWrap q
  if d.flag R.MED_ROSTER_STAT_pending [q] = true ∧ wrap ≠ 0 ∧ d.reached (wrap - 1) = true
  then d.rosterSwapNow q (wrap - 1) else d

/-- len_m1, width and phase of the shadow, from the bits of a write of MED_ROSTER_CFG. -/
def Dev.rosterShadowCfg (d : Dev) (q m v : Nat) : Dev :=
  let mix := fun (d : Dev) (f : Field) (lo : Nat) =>
    let mm := bits m lo f.width
    d.wr f [q] ((d.rd f [q] &&& (ones f.width - mm)) ||| (bits v lo f.width &&& mm))
  mix (mix (mix d R.MED_ROSTER_CFG_len_m1 0) R.MED_ROSTER_CFG_width 16) R.MED_ROSTER_CFG_phase 32

/-- A write that waited for the copy: a slot, or the shadow settings (mask above bit 128 of the value). -/
def Dev.rosterLate (d : Dev) (w : Nat × Nat × Nat) : Dev :=
  let d := if w.2.1 < 131072 then d.withMed fun m => { m with rosShad := tset 0 m.rosShad w.2.1 w.2.2 }
    else d.rosterShadowCfg (w.2.1 - 131072) (w.2.2 / 2 ^ 128) (w.2.2 % 2 ^ 128)
  d.emit (.access w.1 Sts.ok 0)

/-- Whether a waiting write concerns port `q`. -/
def rosWaits (q : Nat) (w : Nat × Nat × Nat) : Bool :=
  if w.2.1 < 131072 then w.2.1 / 65536 == q else w.2.1 - 131072 == q

/-- The new shadow is filled from the new active copy; writes that waited complete (step 4). -/
def rosterCopyDone (q : Nat) (d : Dev) : Dev :=
  if d.flag R.MED_ROSTER_STAT_copying [q] = false then d else
  let fill := fun (m : MedSt) =>
    let t := (m.rosShad.filter fun e => decide (e.1 / 65536 ≠ q)) ++
      (m.rosAct.filter fun e => decide (e.1 / 65536 = q))
    { m with rosShad := t.foldr (fun e acc => tset 0 acc e.1 e.2) [] }
  let l := d.med.rosWait.filter (rosWaits q)
  let d := (d.wr R.MED_ROSTER_STAT_copying [q] 0).withMed fill
  let d := d.withMed fun m => { m with rosWait := m.rosWait.filter fun w => !rosWaits q w }
  l.foldl (fun d w => d.rosterLate w) d

/-- A write of MED_ROSTER_CFG: mask `m`, value `v`. The result none means that it completes when copying
clears. -/
def writeRosterCfg (r : Req) (q m v : Nat) (d : Dev) : Dev × Option Nat :=
  let lockedBits := m &&& (ones 22 + 2 ^ 23 + ones 64 * 2 ^ 32) != 0
  let (d, st, wait) :=
    if d.locked r then (d, if lockedBits then Sts.locked else Sts.ok, false)
    else
      let was := d.flag R.MED_ROSTER_CFG_en [q]
      let d := if m.testBit 21 then d.wr R.MED_ROSTER_CFG_guard [q] (bits v 21 1) else d
      let d := if m.testBit 23 then d.wr R.MED_ROSTER_CFG_en [q] (bits v 23 1) else d
      let d := if was = false ∧ d.flag R.MED_ROSTER_CFG_en [q] = true then d.setRosAt q (d.slotFrom q d.now) else d
      let shadow := m &&& (ones 21 + ones 64 * 2 ^ 32) != 0
      if shadow && d.flag R.MED_ROSTER_STAT_copying [q] then
        (d.withMed fun x => { x with rosWait := x.rosWait ++ [(r.inp, 131072 + q, m * 2 ^ 128 + v)] }, Sts.ok, true)
      else (d.rosterShadowCfg q m v, Sts.ok, false)
  let d := if m.testBit 22 ∧ v.testBit 22 then d.rosterCommit q else d
  (d, if wait then none else some st)

/-- A write of MED_ROSTER_WIN entry `e` (R183, R184). -/
def writeRosterWin (r : Req) (e m v : Nat) (d : Dev) : Dev × Option Nat :=
  if d.locked r then (d, some Sts.locked) else
  let q := d.rd R.MED_ROSTER_SEL_port
  let k := 65536 * q + 2048 * d.rd R.MED_ROSTER_SEL_page + e
  let mix := fun (old : Nat) => (old &&& (0x7FFF - (m &&& 0x7FFF))) ||| (v &&& m &&& 0x7FFF)
  if d.flag R.MED_ROSTER_SEL_bank then
    (d.withMed fun x => { x with rosAct := tset 0 x.rosAct k (mix (tget 0 x.rosAct k)) }, some Sts.ok)
  else if d.flag R.MED_ROSTER_STAT_copying [q] then
    (d.withMed fun x => { x with rosWait := x.rosWait ++ [(r.inp, k, mix (tget 0 x.rosShad k))] }, none)
  else (d.withMed fun x => { x with rosShad := tset 0 x.rosShad k (mix (tget 0 x.rosShad k)) }, some Sts.ok)

/-- What MED_ROSTER_WIN entry `e` reads as: the copy that the bank selects. -/
def Dev.readRosterWin (d : Dev) (e : Nat) : Nat :=
  let k := 65536 * d.rd R.MED_ROSTER_SEL_port + 2048 * d.rd R.MED_ROSTER_SEL_page + e
  tget 0 (if d.flag R.MED_ROSTER_SEL_bank then d.med.rosAct else d.med.rosShad) k

/-- Reckoning time stepped from `pre` to `post`: slots passed over are not served, and a forward step
across the wrap of a pending commit swaps at the step (R185). -/
def Dev.rosterStep (d : Dev) (q pre post : Nat) : Dev :=
  let wrap := tget 0 d.med.rosWrap q
  let due := wrap ≠ 0 ∧ pre < post ∧ wrap - 1 ≤ post
  let d := d.setRosAt q (d.slotFrom q post)
  if due then d.rosterSwapNow q (wrap - 1)
  else if wrap ≠ 0 then
    d.withMed fun m => { m with rosWrap := tset 0 m.rosWrap q (d.nextWrap q post + 1) }
  else d

/-! ### The start of a frame (R99, R188, R590) -/

/-- 1/400 beads in the wire time of a frame of `len` bytes, and in 8 byte times. -/
def bit400 (mode n : Nat) : Nat := n * 65536 * (400 / rateGbps mode)
def wire400 (mode len : Nat) : Nat := bit400 mode ((len + 20) * 8)

/-- A priority of a sub-port is paused (R104). -/
def Dev.pausedPri (d : Dev) (q s p : Nat) : Bool :=
  let u := tget 0 d.prt.paused (8 * (4 * q + s) + p)
  u != 0 && !d.passed u

/-- The step 4 frame at the head of a priority on a sub-port. -/
def Dev.headOf (d : Dev) (q s p : Nat) : Option EgFrame :=
  if d.pausedPri q s p then none else
  (tget [] d.prt.egq q).find? fun f => f.sp == s && f.pri == p && f.src != .halter && !f.ptp

/-- The beginning of the next slot with en set whose stream is on the sub-port, at or after a time. -/
def Dev.nextPaced (d : Dev) (q s t : Nat) : Option Int :=
  if d.flag R.MED_ROSTER_CFG_en [q] = false then none else
  let n0 := d.slotFrom q t
  ((List.range (d.rosL q)).find? fun i => match d.rosEntry q (n0 + i) with
    | some e => bits (d.egrCtx (egrKey q e)).1 7 2 == s
    | none => false).map fun i => d.slotTime q (n0 + i)

/-- A step 4 frame may start at `t` by the guard (R188). -/
def Dev.guardFits (d : Dev) (q s t : Nat) (f : EgFrame) : Bool :=
  if d.flag R.MED_ROSTER_CFG_guard [q] = false then true else
  let mode := d.rd R.PRT_CFG_mode [q]
  match d.nextPaced q s t with
  | none => true
  | some n => decide (((t * 400 + wire400 mode f.len : Nat) : Int) ≤ n * 400)

/-- Weight of a priority. -/
def Dev.weight (d : Dev) (q p : Nat) : Nat := bits (d.rd R.PRT_EGR_WRR_w [q]) (8 * p) 8

def creditKey (q s p : Nat) : Nat := 8 * (4 * q + s) + p
def Dev.credit (d : Dev) (q s p : Nat) : Nat := tget 0 d.prt.credit (creditKey q s p)
def Dev.setCredit (d : Dev) (q s p v : Nat) : Dev :=
  d.withPrt fun x => { x with credit := tset 0 x.credit (creditKey q s p) v }

/-- Priorities 0 to 6 of non-zero weight in round order after `p`, `p` last. -/
def Dev.roundAfter (d : Dev) (q p : Nat) : List Nat :=
  (((List.range 7).map fun i => (p + 1 + i) % 7)).filter fun x => d.weight q x != 0

/-- The round goes on until a priority's credit covers its head frame: visits in order, each adding
credit. -/
def Dev.drrVisit (d : Dev) (q s : Nat) (l : List Nat) : Dev × Option Nat :=
  match l with
  | [] => (d, none)
  | p :: r =>
    match d.headOf q s p with
    | none => d.drrVisit q s r
    | some f =>
      let d := d.setCredit q s p (d.credit q s p + d.weight q p * 9600)
      if f.len ≤ d.credit q s p then (d, some p) else d.drrVisit q s r

/-- The priority whose turn it is, by deficit round-robin; kept as the turn. -/
def Dev.drrTurn (d : Dev) (q s : Nat) : Dev × Option Nat :=
  let keep := fun (x : Dev × Option Nat) => match x.2 with
    | some p => (x.1.withPrt fun y => { y with turn := tset 0 y.turn (4 * q + s) (p + 1) }, some p)
    | none => x
  match tget 0 d.prt.turn (4 * q + s) with
  | 0 => keep (d.drrVisit q s (d.roundAfter q 6))
  | p + 1 =>
    match d.headOf q s p with
    | some f =>
      if d.weight q p ≠ 0 ∧ f.len ≤ d.credit q s p then (d, some p)
      else keep (d.drrVisit q s (d.roundAfter q p ++ d.roundAfter q p))
    | none => keep (d.drrVisit q s (d.roundAfter q p ++ d.roundAfter q p))

/-- The step 4 frame that starts at `t`: of the priority whose turn it is, or, when the guard keeps it, of
the next whose head fits and whose credit covers it; priorities of weight 0 only when no other waits. -/
def Dev.step4 (d : Dev) (q s t : Nat) : Dev × Option EgFrame :=
  let waits := (d.roundAfter q 6).any fun p => (d.headOf q s p).isSome
  if waits then
    let (d, turn) := d.drrTurn q s
    match turn with
    | none => (d, none)
    | some p =>
      let fits := fun x => match d.headOf q s x with
        | some f => d.guardFits q s t f && (x == p || decide (f.len ≤ d.credit q s x))
        | none => false
      match (p :: (d.roundAfter q p).filter (· ≠ p)).find? fits with
      | none => (d, none)
      | some x => match d.headOf q s x with
        | none => (d, none)
        | some f => (d.setCredit q s x (d.credit q s x - f.len), some f)
  else
    match ([6, 5, 4, 3, 2, 1, 0].filter fun p => d.weight q p == 0).find? fun p => (d.headOf q s p).isSome with
    | none => (d, none)
    | some p => match d.headOf q s p with
      | some f => (d, if d.guardFits q s t f then some f else none)
      | none => (d, none)

/-- Tokens of the priority 7 shaper at a time of the timebase clock, bytes (PRT_P7_RATE). -/
def Dev.p7Tokens (d : Dev) (q t : Nat) : Nat :=
  let depth := d.rd R.PRT_P7_RATE_burst [q]
  let at_ := tget 0 d.prt.bucketAt q
  if at_ = 0 then depth else
  min depth (tget 0 d.prt.bucket q + (t + 1 - at_) * d.rd R.PRT_P7_RATE_mbps [q] * 125000 / beadsPerSec)

/-- The priority 7 frame that may start, and the device after the shaper is charged. -/
def Dev.step2 (d : Dev) (q s t : Nat) : Dev × Option EgFrame :=
  if d.rd R.PRT_P7_RATE_mbps [q] = 0 then (d, d.headOf q s 7) else
  match d.headOf q s 7 with
  | none => (d, none)
  | some f =>
    let n := d.p7Tokens q t
    if f.len ≤ n then
      (d.withPrt fun x => { x with bucket := tset 0 x.bucket q (n - f.len), bucketAt := tset 0 x.bucketAt q (t + 1) },
        some f)
    else (d, none)

/-- The frame chosen to start on a sub-port at `t`, `u` by the timebase clock, and the step of R99 it comes
from. -/
def Dev.choose (d : Dev) (q s t u : Nat) : Dev × Option (EgFrame × Nat) :=
  match (tget [] d.prt.egq q).find? fun f => f.sp == s && (f.src == .halter || (f.ptp && !d.pausedPri q s f.pri)) with
  | some f => (d, some (f, 1))
  | none =>
    let (d, two) := d.step2 q s u
    match two with
    | some f => (d, some (f, 2))
    | none =>
      match (tget [] d.prt.fifo (4 * q + s)).head? with
      | some f => if d.pausedPri q s f.pri then
          let (d, four) := d.step4 q s t
          (d, four.map fun f => (f, 4))
        else (d, some (f, 3))
      | none =>
        let (d, four) := d.step4 q s t
        (d, four.map fun f => (f, 4))

/-- The chosen frame leaves the queue; a priority whose queue empties loses its credit. -/
def Dev.unqueue (d : Dev) (q s : Nat) (f : EgFrame) (step : Nat) : Dev :=
  let d := d.egFree q f
  if step = 3 then d.withPrt fun p => { p with fifo := tset [] p.fifo (4 * q + s) (tget [] p.fifo (4 * q + s)).tail }
  else
    let d := d.withPrt fun p => { p with egq := tset [] p.egq q ((tget [] p.egq q).erase f) }
    let d := if f.src = .stream then d.egrLeave (egrKey q f.stream) else d
    if step = 4 ∧ (d.headOf q s f.pri).isNone = true ∧ d.pausedPri q s f.pri = false
    then d.setCredit q s f.pri 0 else d

/-- The bytes a frame is sent with, and the device after a stream frame's sequence number is taken, whether
or not rewriting puts it into the frame (R179, R178): padded to
60 bytes, FCS appended. -/
def Dev.wireBytes (d : Dev) (q : Nat) (f : EgFrame) : Dev × List Byte :=
  let k := egrKey q f.stream
  let (d, seq) := if f.src = .stream then d.takeSeq k else (d, 0)
  let (d, b) := match f.rtpAt with
    | none => (d, f.bytes)
    | some (ro, ho) =>
      let b := setBe f.bytes (ro + 2) 2 seq
      (d, fixUdp (if bits (d.egrCtx k).1 6 1 = 1 then setBe b ho 2 (seq / 65536) else b))
  let b := b ++ List.replicate (60 - b.length) 0
  (d, b ++ leBytes 4 (crc32 b))

/-- What a stream's frame does to its context when it starts at `ts` (R181, Table 05-14). -/
def Dev.streamSent (d : Dev) (q : Nat) (f : EgFrame) (ts : Nat) : Dev :=
  let k := egrKey q f.stream
  let d := d.egrBump k 160 32
  let d := match f.elig with
    | none => d
    | some e =>
      let late := (ts - e) / 65536
      let d := d.egrStat k 64 96 (beadsToRaw e)
      if bits (d.egrCtx k).2 256 32 < late then d.egrStat k 256 32 (min late (ones 32)) else d
  if d.egrState k = 1 then (d.egrStat k 0 3 2).raise Ev.txSending (txInfo q f.stream) else d

/-- A chosen frame starts at `t`, `u` by the timebase clock, and is counted as sent (Table 03-6): `bad` tells of a cut-through frame that its FCS will prove bad (R98). -/
def Dev.startFrame (d : Dev) (q s : Nat) (f : EgFrame) (t u : Nat) (bad : Bool) : Dev :=
  let mode := d.rd R.PRT_CFG_mode [q]
  let ts := ((t : Int) + d.rdS R.TIM_PDLY_TX_dly [q]).toNat % beadWrap
  let (d, b) := d.wireBytes q f
  let stomp := f.cut && bad
  let d := d.withPrt fun p => { p with
    txEnd := tset 0 p.txEnd (4 * q + s) (u * 400 + wire400 mode f.len - bit400 mode 64) }
  let d := d.emit (.frame q s { f with bytes := b } (beadsToRaw ts) stomp)
  let d := (d.prtCount q s 14).prtCount q s 15 b.length
  let d := if stomp then d.prtCount q s 17 else d
  let d := d.tsReturn f.tsTo (beadsToRaw ts) false
  if f.src = .stream then
    let d := d.streamSent q f ts
    let p := parse b
    let r := rtpOf p.payload
    if bits (d.egrCtx (egrKey q f.stream)).1 3 2 = 1 then
      d.tapAudio q f.stream r.ts (beadsToRaw ts) (p.payload.drop r.hdr)
    else d
  else d

/-- The frames queued for a sub-port that is down or faulted are dropped (R97). -/
def Dev.flushDown (d : Dev) (q s : Nat) : Dev :=
  let l := (tget [] d.prt.egq q).filter fun f => f.sp == s
  let fifo := tget [] d.prt.fifo (4 * q + s)
  let d := d.withPrt fun p => { p with
    egq := tset [] p.egq q ((tget [] p.egq q).filter fun f => f.sp != s)
    fifo := tset [] p.fifo (4 * q + s) [] }
  let d := l.foldl (fun d f => if f.src = .stream then d.egrLeave (egrKey q f.stream) else d) d
  (l ++ fifo).foldl (fun d f => (d.egFree q f).prtCount q s 16) d

/-- The scheduler starts the next frame on a free sub-port, `fine` steps of 2,048 beads after the marker
(R99); a frame stopped by a halter is dropped instead (Table 03-5). -/
def egressStart (q s fine : Nat) (bad : Bool) (d : Dev) : Dev :=
  let t := d.stampAt fine
  let u := d.clockAt fine
  let mode := d.rd R.PRT_CFG_mode [q]
  if d.linkUp q s = false ∨ d.faulted q s = true then d.flushDown q s
  else if tget 0 d.prt.txEnd (4 * q + s) + bit400 mode 64 > u * 400 then d
  else
    let (d, c) := d.choose q s t u
    match c with
    | none => d
    | some (f, step) =>
      let d := d.unqueue q s f step
      if f.src = .stream ∧ d.txHalted q f.stream = true then (d.egCount q f).haltDrop q f
      else if step ≥ 3 ∧ (d.rd R.PRT_HALT_STATE_egr_stop [q]).testBit s then
        (d.prtCount q s 18).tsReturn f.tsTo 0 true
      else d.startFrame q s f t u bad

/-! ### The assembly ring (R169, R213) -/

/-- A number divided by 2^`n`, rounded to nearest, ties away from zero. -/
def roundShift (x : Int) (n : Nat) : Int :=
  if x < 0 then -((-x + 2 ^ (n - 1)) / 2 ^ n) else (x + 2 ^ (n - 1)) / 2 ^ n

/-- The output sample of an accumulator in a format: 0 L16, 1 L24, 2 AES3 (R167, R249), as network bytes. -/
def outSample (fmt acc : Nat) : List Byte :=
  if fmt = 2 then beBytes 4 acc else
  let v := satSigned 24 (roundShift (toSigned 64 acc) 30)
  if fmt = 1 then beBytes 3 (ofSigned 24 v) else beBytes 2 (ofSigned 16 (satSigned 16 (roundShift v 8)))

/-- The first byte of packet buffer `b` of a stream's ring of `chans` channels, and the bytes of a line of
one channel. -/
def ringLine (cfg : Nat) : Nat := (bits cfg 160 7 + 7) / 8 * 64
def ringBuffer (cfg chans b : Nat) : Nat :=
  0x40000000 + bits cfg 416 4 * 0x400000 + bits cfg 420 22 * 64 + b * chans * ringLine cfg

/-- The first packet index of a stream whose closing time is at or after now. -/
def Dev.firstPacket (d : Dev) (cfg : Nat) : Nat :=
  let spp := bits cfg 160 7
  let due : Int := (d.now : Int) + (bits cfg 384 32 * 65536 : Nat) - toSigned 64 (bits cfg 256 64)
  let n := (due * (bits cfg 96 32 : Nat) + (beadsPerSec : Int) - 1) / (beadsPerSec : Int) - (spp : Int)
  if spp = 0 then 0 else (n.toNat + spp - 1) / spp * spp

/-- An audio packet closes at its eligible time minus asm_ns: its buffer is read and zeroed, and the packet
joins the stream's queue. Channels and format are the ring's (log entry 41). -/
def asmClose (q e chans fmt : Nat) (d : Dev) : Dev :=
  let k := egrKey q e
  let cfg := (d.egrCtx k).1
  let spp := bits cfg 160 7
  if bits cfg 0 1 = 0 ∨ bits cfg 3 2 ≠ 1 ∨ bits cfg 1 2 ≠ 0 ∨ spp = 0 ∨ d.rd R.PWR_STAT_state ≠ 0 then d else
  match tget 0 d.med.audNext k with
  | 0 => d
  | first + 1 =>
    match audioElig cfg first with
    | none => d
    | some t =>
      if d.reached (t - bits cfg 384 32 * 65536) = false then d else
      let base := ringBuffer cfg chans (first / spp % 4)
      let one := fun (i : Nat) => ((List.range chans).map fun c =>
        outSample fmt (d.load (base + c * ringLine cfg + i * 8) 8)).flatten
      let body := ((List.range spp).map one).flatten
      let d := d.setBytes base (List.replicate (chans * ringLine cfg) 0)
      let d := d.withMed fun m => { m with audNext := tset 0 m.audNext k (first + spp + 1) }
      d.streamEnqueue q e { stream := e, bytes := body, index := some first, asm := true }

/-! ### The context command (R191, R192) -/

/-- A receive context breaks R156, or its store R192. -/
def rxBad (cfg : Nat) : Bool :=
  let part := rxPart cfg
  let rate := bits cfg 64 32
  let spp := bits cfg 128 7
  let ch := bits cfg 135 7
  let audio := part == 2 || part == 3
  (audio && (!(rate == 48000 || rate == 96000) || decide (spp < 1 ∨ spp > 96) || decide (ch < 1 ∨ ch > 64) ||
    decide (spp * ch * sampleBytes cfg + 82 > 9600))) ||
  (bits cfg 13 1 == 1 && (decide (bits cfg 230 16 + 1 < 2) || decide (bits cfg 262 14 * 64 < 128) ||
    (audio && bits cfg 276 1 == 1)))

/-- A pair context breaks R192. -/
def pairBad (cfg : Nat) : Bool :=
  let h := bits cfg 2 5
  decide (h < 8 ∨ h > 20) ||
  (bits cfg 7 1 == 0 && (decide (h > 12) || decide (bits cfg 8 16 + 2 ^ (h - 8) > 65536)))

/-- An egress context breaks R192: SCHEDULE VIDEO with den 0 or trs 0. -/
def egrBad (cfg : Nat) : Bool :=
  bits cfg 1 2 == 0 && bits cfg 3 2 == 0 && (bits cfg 64 32 == 0 || bits cfg 192 64 == 0)

/-- The configuration bits each kind of context holds; the others are zero (Tables 05-11 to 05-13). -/
def ctxMask (kind : Nat) : Nat :=
  if kind = 0 then
    ones 15 + ones 110 * 2 ^ 32 + ones 16 * 2 ^ 144 + ones 100 * 2 ^ 192 + ones 192 * 2 ^ 320
  else if kind = 1 then ones 24 + ones 38 * 2 ^ 32 + ones 16 * 2 ^ 96
  else ones 9 + ones 151 * 2 ^ 16 + ones 176 * 2 ^ 192 + ones 58 * 2 ^ 384

/-- A receive context's configuration replaced (R158): en cleared enters DISABLED, en set from clear enters
WAITING with the status half and the store started anew. -/
def Dev.writeRx (d : Dev) (i cfg : Nat) : Dev :=
  let (old, stat) := d.rxCtx i
  if bits cfg 0 1 = 0 then d.setRx i (cfg, putBits stat 0 2 0)
  else if bits old 0 1 = 0 then
    (d.setRx i (cfg, 1)).withMed fun m => { m with
      cur := tset {} m.cur i {}
      slots := m.slots.filter fun e => decide (e.1 / 65536 ≠ i) }
  else d.setRx i (cfg, stat)

/-- A pair context's configuration replaced: en set from clear clears started. -/
def Dev.writePair (d : Dev) (i cfg : Nat) : Dev :=
  let (old, stat) := d.pairCtx i
  d.setPair i (cfg, if bits old 0 1 = 0 ∧ bits cfg 0 1 = 1 then putBits stat 32 1 0 else stat)

/-- The frames queued on a stream are dropped (Table 05-8). -/
def Dev.dropStream (d : Dev) (q e : Nat) : Dev :=
  let k := egrKey q e
  let mine := fun (f : EgFrame) => f.src == .stream && f.stream == e
  let l := tget [] d.med.egrQ k ++ (tget [] d.prt.egq q).filter mine ++
    ((List.range 4).map fun s => (tget [] d.prt.fifo (4 * q + s)).filter mine).flatten
  let d := d.withMed fun m => { m with egrQ := tset [] m.egrQ k [] }
  let d := d.withPrt fun p => { p with
    egq := tset [] p.egq q ((tget [] p.egq q).filter fun f => !mine f)
    fifo := (List.range 4).foldl (fun t s =>
      tset [] t (4 * q + s) ((tget [] t (4 * q + s)).filter fun f => !mine f)) p.fifo }
  (l.foldl (fun d f => d.egFree q f) d).egrStat k 16 16 0

/-- An egress context's configuration replaced (R181). -/
def Dev.writeEgr (d : Dev) (q e cfg : Nat) : Dev :=
  let k := egrKey q e
  let (old, stat) := d.egrCtx k
  if bits cfg 0 1 = 0 then
    let d := if bits old 0 1 = 1 then d.dropStream q e else d
    d.setEgr k (cfg, putBits (d.egrCtx k).2 0 3 0)
  else if bits old 0 1 = 0 then
    let d := d.setEgr k (cfg, if d.txHalted q e then 4 else 1)
    d.withMed fun m => { m with
      vidN := tset 0 m.vidN k 0
      emptyAt := tset 0 m.emptyAt k 0
      audNext := tset 0 m.audNext k (d.firstPacket cfg + 1) }
  else d.setEgr k (cfg, stat)

/-- The context a command names, none beyond the contexts of its kind. -/
def Dev.readCtx (d : Dev) (kind q i : Nat) : Option (Nat × Nat) :=
  match kind with
  | 0 => if i < 65536 then some (d.rxCtx i) else none
  | 1 => if i < 65536 then some (d.pairCtx i) else none
  | 2 => if i < 16384 then some (d.egrCtx (egrKey q i)) else none
  | _ => none

/-- A write is refused: err sets, CTX_REFUSED. -/
def Dev.ctxErr (d : Dev) (i : Nat) : Dev :=
  let was := d.flag R.MED_CTX_CMD_err
  let d := d.wr R.MED_CTX_CMD_err [] 1
  if was then d else d.raise Ev.ctxRefused i

/-- Op READ. -/
def Dev.ctxRead (d : Dev) (kind q i : Nat) : Dev :=
  match d.readCtx kind q i with
  | some c => (d.wr R.MED_CTX_DATA_cfg [] c.1).wr R.MED_CTX_DATA_stat [] c.2
  | none => ((d.wr R.MED_CTX_DATA_cfg [] 0).wr R.MED_CTX_DATA_stat [] 0).ctxErr i

/-- Op WRITE. -/
def Dev.ctxWrite (d : Dev) (kind q i : Nat) : Dev :=
  let cfg := d.rd R.MED_CTX_DATA_cfg &&& ctxMask kind
  match kind with
  | 0 => if i ≥ 65536 ∨ rxBad cfg = true then d.ctxErr i else d.writeRx i cfg
  | 1 => if i ≥ 65536 ∨ pairBad cfg = true then d.ctxErr i else d.writePair i cfg
  | 2 => if i ≥ 16384 ∨ egrBad cfg = true then d.ctxErr i else d.writeEgr q i cfg
  | _ => d.ctxErr i

/-- Op CLR_SID (R152). -/
def Dev.clrSid (d : Dev) (sid : Nat) : Dev :=
  let a := sidAddr sid
  if d.lineBad a then
    { d.store (a / 64 * 64) 64 0 with ddr := { d.ddr with bad := d.ddr.bad.filter (· ≠ a / 64 * 64) } }
  else d.store a 32 0

/-- A write of MED_CTX_CMD: mask `m`, value `v` (R191). -/
def writeCtxCmd (r : Req) (m v : Nat) (d : Dev) : Dev × Nat :=
  if d.flag R.MED_CTX_CMD_busy then (d, Sts.busy) else
  let d := if m.testBit 24 ∧ v.testBit 24 then d.wr R.MED_CTX_CMD_err [] 0 else d
  if m &&& ones 23 = 0 then (d, Sts.ok)
  else if d.locked r then (d, Sts.locked) else
  let mix := fun (d : Dev) (f : Field) (lo : Nat) =>
    let mm := bits m lo f.width
    d.wr f [] ((d.rd f &&& (ones f.width - mm)) ||| (bits v lo f.width &&& mm))
  let d := mix (mix (mix (mix d R.MED_CTX_CMD_op 0) R.MED_CTX_CMD_kind 2) R.MED_CTX_CMD_port 4)
    R.MED_CTX_CMD_index 5
  if m &&& 3 = 0 then (d, Sts.ok) else
  let kind := d.rd R.MED_CTX_CMD_kind
  let q := d.rd R.MED_CTX_CMD_port
  let i := d.rd R.MED_CTX_CMD_index
  let busy := fun (d : Dev) => d.wr R.MED_CTX_CMD_busy [] 1
  match d.rd R.MED_CTX_CMD_op with
  | 0 => (busy (d.ctxRead kind q i), Sts.ok)
  | 1 => (busy (d.ctxWrite kind q i), Sts.ok)
  | 2 => (busy (d.clrSid i), Sts.ok)
  | _ => (d, Sts.ok)

/-- The word of a whole write of MED_CTX_CMD. -/
def ctxCmdWord (op kind port index : Nat) : Nat := op + 4 * kind + 16 * port + 32 * index

/-! ### The commands -/

/-- EGRESS_STREAM_ENQUEUE. -/
def execEgressStreamEnqueue (q : Fin 2) (s : State) : Host.Outcome State Fault Refusal := run s (egressEnqueue q)

/-- TX_STARVED. -/
def execTxStarved (q : Fin 2) (e : Fin 16384) (s : State) : Host.Outcome State Fault Refusal :=
  run s (txStarved q e)

/-- EGRESS_START. -/
def execEgressStart (q : Fin 2) (sp : Fin 4) (fine : Nat) (bad : Bool) (s : State) :
    Host.Outcome State Fault Refusal := run s (egressStart q sp fine bad)

/-- ROSTER_SLOT. -/
def execRosterSlot (q : Fin 2) (s : State) : Host.Outcome State Fault Refusal := run s (rosterSlot q)

/-- ROSTER_COMMIT: a write of MED_ROSTER_CFG with commit alone. -/
def execRosterCommit (inp : Fin 101) (q : Fin 2) (s : State) : Host.Outcome State Fault Refusal :=
  runOn 78 ⟨inp, false⟩ s fun d => (d.rosterCommit q).complete ⟨inp, false⟩ Sts.ok 0

/-- ROSTER_SWAP. -/
def execRosterSwap (q : Fin 2) (s : State) : Host.Outcome State Fault Refusal := run s (rosterSwap q)

/-- ROSTER_COPY_DONE. -/
def execRosterCopyDone (q : Fin 2) (s : State) : Host.Outcome State Fault Refusal := run s (rosterCopyDone q)

/-- ROSTER_WIN_WRITE. -/
def execRosterWinWrite (inp : Fin 101) (desc : Bool) (e : Fin 2048) (v : BitVec 16) (s : State) :
    Host.Outcome State Fault Refusal :=
  runOn 78 ⟨inp, desc⟩ s fun d =>
    let r := writeRosterWin ⟨inp, desc⟩ e (ones 16) v.toNat d
    match r.2 with
    | some st => r.1.complete ⟨inp, desc⟩ st 0
    | none => r.1

/-- TX_HALT_CLEAR: a write of 1 to a stream's bit. -/
def execTxHaltClear (inp : Fin 101) (q : Fin 2) (e : Fin 16384) (s : State) :
    Host.Outcome State Fault Refusal :=
  runOn 78 ⟨inp, false⟩ s fun d => (if d.txHalted q e then d.streamRelease q e else d).complete ⟨inp, false⟩ Sts.ok 0

/-- CTX_READ. -/
def execCtxRead (inp : Fin 101) (desc : Bool) (kind : Fin 4) (port : Fin 2) (index : BitVec 18) (s : State) :
    Host.Outcome State Fault Refusal :=
  runOn 78 ⟨inp, desc⟩ s fun d =>
    let r := writeCtxCmd ⟨inp, desc⟩ (ones 24) (ctxCmdWord 0 kind port index.toNat) d
    r.1.complete ⟨inp, desc⟩ r.2 0

/-- CTX_WRITE. -/
def execCtxWrite (inp : Fin 101) (desc : Bool) (kind : Fin 4) (port : Fin 2) (index : BitVec 18) (s : State) :
    Host.Outcome State Fault Refusal :=
  runOn 78 ⟨inp, desc⟩ s fun d =>
    let r := writeCtxCmd ⟨inp, desc⟩ (ones 24) (ctxCmdWord 1 kind port index.toNat) d
    r.1.complete ⟨inp, desc⟩ r.2 0

/-- CLR_SID. -/
def execClrSid (inp : Fin 101) (desc : Bool) (sid : BitVec 18) (s : State) :
    Host.Outcome State Fault Refusal :=
  runOn 78 ⟨inp, desc⟩ s fun d =>
    let r := writeCtxCmd ⟨inp, desc⟩ (ones 24) (ctxCmdWord 2 0 0 sid.toNat) d
    r.1.complete ⟨inp, desc⟩ r.2 0

/-- CTX_CMD_DONE. -/
def execCtxCmdDone (s : State) : Host.Outcome State Fault Refusal :=
  run s fun d => d.wr R.MED_CTX_CMD_busy [] 0

/-- ASM_PACKET_CLOSE. -/
def execAsmPacketClose (q : Fin 2) (e : Fin 16384) (chans : Fin 65) (fmt : Fin 3) (s : State) :
    Host.Outcome State Fault Refusal := run s (asmClose q e chans fmt)

end Sys2Proof.Machine
end

