-- ==== Sys2Proof/Machine/Route.lean ====
section
/-! DEFINITION. Chapter 04: frames through the route engine, misses, learning, ageing, direct changes. -/

namespace Sys2Proof.Machine

/-! ### Frames leave for their destination (R126, R127, R153, R154, R593) -/

/-- A frame without its FCS. -/
def noFcs (l : List Byte) : List Byte := l.take (l.length - 4)

/-- A frame's cells are freed when it leaves the ingress buffer. -/
def Dev.leaveIngress (d : Dev) (f : IngFrame) : Dev := d.freeCells f.port f.pri f.cells

/-- The reserved kinds of a destination. -/
def reservedKind (k : Nat) : Bool := decide (k ≥ 5)

/-- dest_id out of range (R593). -/
def badDest (kind id : Nat) : Bool := (kind == 1 && decide (id > 95)) || (kind == 2 && decide (id > 63))

/-- A frame put on the droveway to fabric island `i`, input stile `st`. -/
def Dev.pushFab (d : Dev) (i st : Nat) (r : RxFrame) : Dev :=
  d.withMed fun m => { m with fabIn := tset [] m.fabIn (2 * i + st) (tget [] m.fabIn (2 * i + st) ++ [r]) }

/-- A frame put on the droveway to the egress streams of port `q`. -/
def Dev.pushEgr (d : Dev) (q : Nat) (e : EgReq) : Dev :=
  d.withMed fun m => { m with egrIn := tset [] m.egrIn q (tget [] m.egrIn q ++ [e]) }

/-- The media unit handles frames as by a disabled context while MED_CFG.en is clear. -/
def Dev.medOn (d : Dev) : Bool := d.flag R.MED_CFG_en

/-- A frame takes the action of RTE_DEFAULT for class `c`. -/
def Dev.defaultAction (d : Dev) (f : IngFrame) (c : Nat) : Dev :=
  let d := d.leaveIngress f
  let kind := d.rd R.RTE_DEFAULT_kind [c]
  let id := d.rd R.RTE_DEFAULT_id [c]
  let ctx := d.rd R.RTE_DEFAULT_rx_ctx [c]
  let looked := c == 0 || c == 3
  if looked && !d.medOn then d.medCount 0
  else if reservedKind kind || badDest kind id then d.rteCount 10
  else match kind with
  | 1 => d.pushDrv id { frame := { f with bytes := noFcs f.bytes } }
  | 2 => d.pushFab id (d.rd R.RTE_DEFAULT_stile [c]) { frame := { f with bytes := noFcs f.bytes } }
  | 3 =>
    let cfg := (d.rxCtx ctx).1
    if bits cfg 0 1 = 0 ∨ d.medOn = false then d.medCount 0
    else
      let r := rtpOf (parse f.bytes).payload
      storeFrame ctx f (if rxPart cfg = 0 then r.ext * 65536 + r.seq else r.seq) 0 d
  | _ => d

/-- dest_id of every stream entry with a sid, and of the twin of its pair, changed by a move (R501). -/
def Dev.moveDest (d : Dev) (img old new : Nat) : Dev :=
  let mine := (d.rte.sids.filter fun e => e.2 ≠ 0).map fun e => e.2 - 1
  mine.foldl (fun d i =>
    let e := d.entry i
    let same := eSid e = eSid img ∨ (eP27 img = 1 ∧ eP27 e = 1 ∧ ePair e = ePair img)
    if same ∧ eKind e = 1 ∧ eDest e = old then d.setEntry i (putBits e 352 8 new) else d) d

/-- The delivery of a frame to a drover: a pending move of its sid applies at a frame boundary, with the
mig_out window to the old drover and mig_in to the new one (R501). -/
def Dev.deliverDrover (d : Dev) (img : Nat) (r : RxFrame) (marker : Bool) : Dev :=
  match d.rte.moves.find? fun m => m.sid == r.sid && m.old == eDest img with
  | none => d.pushDrv (eDest img) r
  | some m =>
    let wait := r.part == 0 || r.part == 1 || r.part == 4
    if m.ready || !wait then
      let d := d.withRte fun x => { x with moves := x.moves.filter (· ≠ m) }
      let d := (d.moveDest img m.old m.new).bumpWrap R.HRD_CNT_count [6]
      let d := { d with hrd := { d.hrd with moved := tset 0 d.hrd.moved m.sid (d.clock + 1) } }
      (d.pushDrv m.old { r with migOut := true, err := false }).pushDrv m.new { r with migIn := true }
    else
      let d := if marker then
          d.withRte fun x => { x with moves := x.moves.map fun y => if y = m then { y with ready := true } else y }
        else d
      d.pushDrv (eDest img) r

/-- A frame passed the stages before its destination: it is accounted and handed on (R153 stages 4 and 5,
Table 16-1). -/
def Dev.handOn (d : Dev) (img : Nat) (f : IngFrame) (x : Nat) : Dev :=
  let ctx := eCtx img
  let part := rxPart (d.rxCtx ctx).1
  let d := if eAcct img = 1 then d.tapAcct (eTenant img) (eSid img) f.port f.bytes.length (if f.tsValid then f.ts else d.nowRaw) else d
  let body := { f with bytes := noFcs f.bytes }
  let r : RxFrame := { frame := body, sid := eSid img, tenant := eTenant img, acct := eAcct img == 1, xseq := x, byEntry := true, leg := eLeg img, p27 := eP27 img == 1, rxCtx := ctx, part := part, chanBlock := eChanBlock img, chanCount := eChanCount img }
  match eKind img with
  | 1 => d.deliverDrover img r (rtpOf (parse f.bytes).payload).marker
  | 2 => d.pushFab (eDest img) (eStile img) r
  | 3 => storeFrame ctx f x (eLeg img) d
  | 4 =>
    let ing := if f.tsValid then some (rawToBeads f.ts) else none
    d.pushEgr (eEgrPort img) { stream := eStream img, bytes := body.bytes, ingress := ing, cut := true, pri := some f.pri }
  | _ => d

/-- A frame routed by an image of a stream entry goes through the stages of R153. -/
def Dev.routeBy (d : Dev) (f : IngFrame) (img : Nat) : Dev :=
  let d := d.leaveIngress f
  let sid := eSid img
  let n := f.bytes.length
  let ctx := eCtx img
  let cfg := (d.rxCtx ctx).1
  if bits cfg 0 1 = 0 ∨ d.medOn = false then (d.sidCount sid n true false).medCount 0
  else
    let r := rtpOf (parse f.bytes).payload
    if rtpFails cfg r then ((d.sidCount sid n false true).rxBump ctx 192 32).medCount 1
    else
      let d := d.rxPass ctx f.ts
      let part := rxPart cfg
      let (d, x) := if part = 7 then (d, 0) else d.seqExtend ctx (ePair img) (eP27 img == 1) r
      let (d, on) := if part ≠ 7 ∧ eP27 img = 1 then mergeFrame (ePair img) (eLeg img) x part d else (d, true)
      if on = false then d.sidCount sid n true false
      else if eKind img = 0 then d.sidCount sid n true false
      else if reservedKind (eKind img) || badDest (eKind img) (eDest img) then
        (d.sidCount sid n true false).rteCount 10
      else (d.sidCount sid n false false).handOn img f x

/-! ### ECC failures (R138) -/

/-- A rod, digest or record read was uncorrectable: logged and raised. -/
def Dev.routeEcc (d : Dev) (rod : Nat) : Dev :=
  (((d.wr R.RTE_ECC_LOG_rod [] rod).wr R.RTE_ECC_LOG_valid [] 1).bump R.RTE_ECC_LOG_count []).raise
    Ev.routeEcc rod

/-! ### The image in force (R142) -/

/-- What a lookup selects: an image, free, or an uncorrectable change record. -/
inductive Sel where
  | image (img : Nat)
  | free
  | ecc
deriving DecidableEq, Repr

def changeKey (s j : Nat) : Nat := 1048576 * s + j

/-- The image in force of entry `i` for a frame stamped at `t` (96 bits). -/
def Dev.inForce (d : Dev) (i t : Nat) : Sel :=
  let e := d.entry i
  let asSel := fun (x : Nat) => if isStream x then Sel.image x else Sel.free
  if ePendSlot e = 0 then asSel e else
  let s := ePendSlot e - 1
  let j := ePendIdx e
  let kind := tget 0 d.rte.chgKind (changeKey s j)
  if d.lineBad (recordAddr s j) then .ecc else
  let r := d.record s j
  let prev := if kind = 1 then .free else asSel e
  let state := d.rd R.RTE_SALVO_STAT_state [s]
  if state = 1 ∨ state = 4 then prev else
  let swapped := eGen e = eGen r
  let newv := if swapped then (if kind = 3 then .free else asSel e) else asSel r
  let oldv := if swapped then asSel r else prev
  if rawToBeads t ≥ rawToBeads (d.rd R.RTE_SALVO_STAT_t_eff [s]) then newv else oldv

/-- A frame stamped before T_eff that meets an entry its salvo has cleared is counted (R145). -/
def Dev.countStale (d : Dev) (i t : Nat) : Dev :=
  [0, 1, 2, 3].foldl (fun d s =>
    let run := tget {} d.rte.salvo s
    let done := run.retiring = true ∨ (d.rd R.RTE_SALVO_STAT_state [s] = 0 ∧
      d.rd R.RTE_SALVO_STAT_cancelled [s] = 0)
    let n := d.rd R.RTE_SALVO_STAT_changes [s]
    if done ∧ rawToBeads t < rawToBeads (d.rd R.RTE_SALVO_STAT_t_eff [s]) ∧
        (d.rte.chgEntry.any fun e => e.1 / 1048576 == s && decide (e.1 % 1048576 < n) && e.2 == i) then
      d.bumpWrap R.RTE_SALVO_STAT_stale [s]
    else d) d

/-! ### Looked-up frames -/

/-- The hit state of an entry sets: in its cache line, or in DDR4 when it is not cached (R140). -/
def Dev.markHit (d : Dev) (i : Nat) : Dev :=
  let set := d.setOfEntry i
  let c := d.cset set
  match c.find (.stream i) with
  | some l => d.setCset set (c.put { l with hit := true })
  | none => d.setEntry i (putBits (d.entry i) 326 1 1)

/-- A frame whose key has entry `i`: the image in force routes it (R142), or it takes a default. -/
def Dev.useEntry (d : Dev) (f : IngFrame) (i : Nat) : Dev :=
  let d := d.markHit i
  match d.inForce i f.ts with
  | .ecc => ((d.rteCount 9).routeEcc (ePendIdx (d.entry i))).defaultAction f 3
  | .free => d.defaultAction f 0
  | .image img => (if ePendSlot (d.entry i) = 0 then d.countStale i f.ts else d).routeBy f img

/-- The entry a cache line of the set holds for a key. -/
def Dev.cachedEntry (d : Dev) (key : Nat) : Option Nat :=
  (d.cset (cacheSetOf key)).lines.findSome? fun l => match l.tag with
    | .stream i => if eKey (d.entry i) = key then some i else none
    | _ => none

def Dev.cachedNeg (d : Dev) (key : Nat) : Bool :=
  ((d.cset (cacheSetOf key)).find (.neg key)).isSome

/-- Every line that the lookup of a key needs is cached (R128): the entry's, and its change record's. -/
def Dev.lineReady (d : Dev) (i : Nat) : Bool :=
  let e := d.entry i
  ePendSlot e == 0 ||
    ((d.cset (d.setOfEntry i)).find (.record (ePendSlot e - 1) (ePendIdx e))).isSome

/-- A key's lookup is in flight, or frames of it wait. -/
def Dev.keyWaits (d : Dev) (key : Nat) : Bool := decide (key ∈ d.rte.inflight)

/-- Occupancy of a miss queue set, with its peak and the storm (R136). -/
def Dev.setMissOcc (d : Dev) (q n : Nat) : Dev :=
  let d := d.wr R.RTE_MISS_OCC_frames [q] n
  let d := if d.rd R.RTE_MISS_OCC_peak [q] < n then d.wr R.RTE_MISS_OCC_peak [q] n else d
  let storm := tget false d.rte.storm q
  if storm = false ∧ n ≥ d.rd R.RTE_MISS_STORM_on then
    (d.withRte fun r => { r with storm := tset false r.storm q true }).raise Ev.missStorm q
  else if storm = true ∧ n ≤ d.rd R.RTE_MISS_STORM_off then
    d.withRte fun r => { r with storm := tset false r.storm q false }
  else d

/-- A frame enters the miss queue of its port, or is dropped (R134, R135). -/
def Dev.enterMiss (d : Dev) (f : IngFrame) (key : Nat) : Dev :=
  let q := f.port
  let occ := d.rd R.RTE_MISS_OCC_frames [q]
  if occ ≥ min 65536 (d.rd R.RTE_MISS_LIM_level [f.pri]) then
    ((d.leaveIngress f).bumpWrap R.RTE_MISS_DROP_count [q, f.pri]).dropPri q f.pri
  else
    let d := d.withRte fun r => { r with
      missQ := tset [] r.missQ q (tget [] r.missQ q ++ [(f, key)])
      inflight := if key ∈ r.inflight then r.inflight else r.inflight ++ [key] }
    d.setMissOcc q (occ + 1)

/-- The route engine takes a frame (R120, R117, R131, R134). -/
def Dev.route (d : Dev) (f : IngFrame) : Dev :=
  let p := parse f.bytes
  if d.rd R.RTE_CFG_en = 0 then d.defaultAction f 4
  else if p.ip = 0 then d.defaultAction f 2
  else match d.keyOf f.port f.sp p with
  | none => d.defaultAction f 1
  | some key =>
    let d := d.rteCount 0
    if d.keyWaits key then d.enterMiss f key
    else match d.cachedEntry key with
    | some i =>
      if d.lineReady i then (d.rteCount 1).useEntry f i else (d.rteCount 2).enterMiss f key
    | none =>
      if d.cachedNeg key then
        let set := cacheSetOf key
        let d := ((d.rteCount 1).rteCount 4).loadLine set (.neg key) false false
        d.defaultAction f 0
      else (d.rteCount 2).enterMiss f key

/-- The oldest frame of a port's shared buffer is routed. -/
def frameRoute (q : Nat) (d : Dev) : Dev :=
  match tget [] d.prt.ingress q with
  | [] => d
  | f :: rest => (d.withPrt fun p => { p with ingress := tset [] p.ingress q rest }).route f

/-! ### Learning (R139) -/

/-- The lowest free sid of the learn pool. -/
def Dev.learnSid (d : Dev) : Option Nat :=
  let base := d.rd R.RTE_LEARN_sid_base
  (((List.range (d.rd R.RTE_LEARN_sid_count)).map (base + ·)).filter (· < 262144)).find? fun s =>
    tget 0 d.rte.sids s == 0

/-- The image of a learned entry. -/
def Dev.learnImage (d : Dev) (key sid : Nat) : Nat :=
  key + 2 ^ 324 + 2 ^ 325 + d.rd R.RTE_LEARN_kind * 2 ^ 348 + d.rd R.RTE_LEARN_id * 2 ^ 352
    + d.rd R.RTE_LEARN_stile * 2 ^ 360 + sid * 2 ^ 379

/-- A NOT_FOUND key of a frame of port `q` is learned: the entry, or none when the insert is prevented. -/
def Dev.learn (d : Dev) (q key : Nat) : Dev × Option Nat :=
  let sec := d.now / beadsPerSec
  let used := if d.rte.learnSec = sec then d.rte.learnCount else 0
  let no := fun (d : Dev) => (d.rteCount 7, none)
  if used ≥ d.rd R.RTE_LEARN_rate then no d else
  match d.learnSid with
  | none => no d
  | some sid =>
    if d.rd R.RTE_STATUS_streams ≥ 262144 then no d else
    match d.insertSlot key with
    | none => no (d.raise Ev.rodFull q)
    | some i =>
      let d := ((d.putStream i (d.learnImage key sid)).holdSid sid i).dropLine (cacheSetOf key) (.neg key)
      let log := d.rte.learnLog
      let d := d.withRte fun r => { r with
        learnSec := sec
        learnCount := used + 1
        learnLog := if log.length < 16 then log ++ [(key, i)] else log }
      ((d.rteCount 6).raise Ev.routeLearned (sid % 65536), some i)

/-- The oldest entry of the learn log, its first 8-byte unit 0; a read of unit 5, which holds valid, removes
it. -/
def readLearnLog (u : Nat) (d : Dev) : Dev × Nat :=
  match d.rte.learnLog with
  | [] => (d, 0)
  | (key, i) :: rest =>
    let v := bits (key + i * 2 ^ 320 + 2 ^ 344) (64 * u) 64
    (if u = 5 then d.withRte fun r => { r with learnLog := rest } else d, v)

/-! ### The end of a table lookup (R134, R138, R131) -/

/-- The frames of a key leave the miss queues, in order. -/
def Dev.takeWaiting (d : Dev) (key : Nat) : Dev × List IngFrame :=
  let pick := fun q => ((tget [] d.rte.missQ q).filter fun x => x.2 == key).map (·.1)
  let l := pick 0 ++ pick 1
  let keep := fun q => (tget [] d.rte.missQ q).filter fun x => x.2 != key
  let n0 := (keep 0).length
  let n1 := (keep 1).length
  let d := d.withRte fun r => { r with
    missQ := tset [] (tset [] r.missQ 0 (keep 0)) 1 (keep 1)
    inflight := r.inflight.filter (· ≠ key) }
  ((d.setMissOcc 0 n0).setMissOcc 1 n1, l)

/-- The lines of an entry found are cached; none from a failed read. -/
def Dev.loadFound (d : Dev) (i : Nat) : Dev :=
  let e := d.entry i
  let set := d.setOfEntry i
  let s := ePendSlot e - 1
  let j := ePendIdx e
  if ePendSlot e ≠ 0 ∧ d.lineBad (recordAddr s j) = true then d
  else
    let d := d.loadLine set (.stream i) (ePin e == 1) false
    if ePendSlot e ≠ 0 then d.loadLine set (.record s j) false false else d

/-- The `n`-th key in flight has been looked up in the table. -/
def missLookupDone (n : Nat) (d : Dev) : Dev :=
  match d.rte.inflight[n]? with
  | none => d
  | some key =>
    let (d, l) := d.takeWaiting key
    match d.tableLookup key with
    | .ecc rod =>
      l.foldl (fun d f => (d.rteCount 9).defaultAction f 3) (d.routeEcc rod)
    | .entry i reads =>
      l.foldl (fun d f => d.useEntry f i) ((d.rteCount 5 reads).loadFound i)
    | .none reads =>
      let d := (d.rteCount 5 reads).rteCount 3
      match l.find? fun f => (d.rd R.RTE_LEARN_en).testBit f.port with
      | none =>
        l.foldl (fun d f => d.defaultAction f 0) (d.loadLine (cacheSetOf key) (.neg key) false false)
      | some f =>
        let (d, e) := d.learn f.port key
        match e with
        | none =>
          l.foldl (fun d f => d.defaultAction f 0) (d.loadLine (cacheSetOf key) (.neg key) false false)
        | some i => l.foldl (fun d f => d.useEntry f i) (d.loadFound i)

/-! ### Ageing (R140) -/

/-- The ager visits stream entry `i`. -/
def agerVisit (i : Nat) (d : Dev) : Dev :=
  let e := d.entry i
  if d.rd R.RTE_AGE_period_s = 0 ∨ isStream e = false ∨ eAgeEn e = 0 then d else
  let set := d.setOfEntry i
  let c := d.cset set
  let line := c.find (.stream i)
  let hit := eHit e == 1 || (match line with
    | some l => l.hit
    | none => false)
  let clear := fun (d : Dev) => match line with
    | some l =>
      let unhit := fun (x : CacheLine) => if x.way = l.way then { x with hit := false } else x
      d.setCset set { c with lines := c.lines.map unhit }
    | none => d
  if hit = false ∧ ePendSlot e = 0 then
    let d := ((clear d).dropLine set (.stream i)).freeEntry i
    ((d.dropSid (eSid e)).rteCount 8).raise Ev.routeAged (eSid e % 65536)
  else (clear d).setEntry i (putBits e 326 1 0)

/-! ### Setup (R117, R118) -/

/-- A write of RTE_CFG. -/
def writeRteCfg (r : Req) (m v : Nat) (d : Dev) : Dev × Nat :=
  if d.locked r then (d, if m &&& ones 6 = 0 then Sts.ok else Sts.locked) else
  let en := d.rd R.RTE_CFG_en
  let hb := bits m 1 5
  let hashBusy := hb ≠ 0 ∧ en = 1
  let d := if hb ≠ 0 ∧ en = 0 then
      d.wr R.RTE_CFG_hash_log [] ((d.rd R.RTE_CFG_hash_log &&& (31 - hb)) ||| (bits v 1 5 &&& hb)) else d
  if m.testBit 0 then
    if v.testBit 0 ∧ en = 0 ∧ (d.flag R.RTE_STATUS_clearing = true ∨ d.rd R.SYS_READY_ddr_ecc = 0) then
      (d.wr R.RTE_STATUS_en_refused [] 1, Sts.busy)
    else
      ((d.wr R.RTE_CFG_en [] v).wr R.RTE_STATUS_active [] v, if hashBusy then Sts.busy else Sts.ok)
  else (d, if hashBusy then Sts.busy else Sts.ok)

/-- A write of RTE_CTL.clear: the table and the digests are zeroed, every cache line is invalidated. -/
def tableClear (d : Dev) : Dev × Nat :=
  if d.rd R.RTE_CFG_en = 1 then (d, Sts.busy) else
  let inTable := fun (a : Nat) => decide (0x1000000000 ≤ a ∧ a < 0x1042000000)
  let d := { d with
    mem := d.mem.filter fun c => !inTable c.1
    ddr := { d.ddr with bad := d.ddr.bad.filter fun a => !inTable a } }
  let d := d.withRte fun r => { r with cache := [], sids := [] }
  ((d.wr R.RTE_STATUS_clearing [] 1).wr R.RTE_STATUS_streams [] 0, Sts.ok)

/-! ### Direct changes (R123, R119, R132, R430) -/

namespace Sts
def notFound := 16
def exists_ := 17
def rodFull := 18
def sidInUse := 19
def tableFull := 20
def badIndex := 21
def entryPending := 22
def noSalvoSlot := 23
def salvoState := 24
def salvoFull := 25
def alreadyCommitted := 26
end Sts

/-- The bits a stream image must hold zero: bits above tly_acct, and for IPv4 the key bytes 16 to 39
(Tables 04-3, 04-4). -/
def streamZero (img : Nat) : Bool :=
  img / 2 ^ 466 == 0 && (eType img != 1 || bits img 128 192 == 0) && bits img 11 5 == 0 && bits img 28 4 == 0

/-- A stream image that ROUTE_INSERT and ROUTE_MODIFY accept. -/
def goodStream (img : Nat) : Bool := isStream img && streamZero img

/-- A channel image that CHAN_WRITE accepts. -/
def goodChan (img : Nat) : Bool :=
  (eType img == 0x0C || eType img == 0) && bits img 14 2 == 0 && bits img 34 30 == 0 &&
    ([0, 1, 2, 3].all fun k => bits img (64 + 48 * k + 39) 9 == 0) && bits img 256 64 == 0 && img / 2 ^ 348 == 0

/-- The control word the engine sets in an image: age_en and pin are the image's. -/
def withControl (img pend gen idx : Nat) : Nat :=
  let keep := bits img 325 1 * 32 + bits img 327 1 * 128
  putBits img 320 28 (pend + 8 * gen + keep + 256 * idx)

/-- A controller changes the entry of a sid: a pending move of it is cancelled (R502), and its pin bit is no longer
the firmware's (R498). -/
def Dev.cancelMove (d : Dev) (sid : Nat) : Dev :=
  let d := { d with hrd := { d.hrd with pins := d.hrd.pins.filter fun i => i + 1 != tget 0 d.rte.sids sid } }
  if d.rte.moves.any fun m => m.sid == sid then
    (d.withRte fun r => { r with moves := r.moves.filter fun m => m.sid != sid }).bumpWrap R.HRD_CNT_count [8]
  else d

/-- The statuses of an insert that would be refused, the lowest of them; and the slot otherwise. -/
def Dev.insertStatus (d : Dev) (img : Nat) : Nat × Option Nat :=
  let key := eKey img
  match d.tableLookup key with
  | .ecc _ => (Sts.uncorrectable, none)
  | .entry _ _ => (Sts.exists_, none)
  | .none _ =>
    let slot := d.insertSlot key
    let a := if slot.isNone then Sts.rodFull else 0
    let b := if tget 0 d.rte.sids (eSid img) ≠ 0 then Sts.sidInUse else 0
    let c := if d.rd R.RTE_STATUS_streams ≥ 262144 then Sts.tableFull else 0
    (worst a (worst b c), slot)

/-- The sid of a modified image is held by another entry. -/
def Dev.sidTaken (d : Dev) (img i : Nat) : Bool :=
  let h := tget 0 d.rte.sids (eSid img)
  h != 0 && h != i + 1

/-- An insert as a direct change: status and entry index. -/
def Dev.directInsert (d : Dev) (img : Nat) : Dev × Nat × Nat :=
  match d.insertStatus img with
  | (0, some i) =>
    let d := ((d.putStream i (withControl img 0 0 0)).holdSid (eSid img) i).dropLine (cacheSetOf (eKey img))
      (.neg (eKey img))
    (d, 0, i)
  | (st, _) => (if st = Sts.rodFull then d.raise Ev.rodFull 65535 else d, st, 0)

/-- The line of an entry keeps its pin only while the entry's pin bit is set. -/
def Dev.repinLine (d : Dev) (i : Nat) (t : LineTag) : Dev :=
  let set := d.setOfEntry i
  let c := d.cset set
  match c.find t with
  | none => d
  | some l => d.setCset set { c with lines := c.lines.map fun x =>
      if x.way = l.way then { x with pinE := x.pinE && ePin (d.entry i) == 1 } else x }

/-- The sid of an entry changes without a change in the number installed. -/
def Dev.swapSid (d : Dev) (old new i : Nat) : Dev :=
  d.withRte fun r => { r with sids := tset 0 (tset 0 r.sids old 0) new (i + 1) }

/-- A modify as a direct change. -/
def Dev.directModify (d : Dev) (img : Nat) : Dev × Nat × Nat :=
  match d.tableLookup (eKey img) with
  | .ecc _ => (d, Sts.uncorrectable, 0)
  | .none _ => (d, Sts.notFound, 0)
  | .entry i _ =>
    let e := d.entry i
    let a := if d.sidTaken img i then Sts.sidInUse else 0
    let b := if ePendSlot e ≠ 0 then Sts.entryPending else 0
    if worst a b ≠ 0 then (d, worst a b, 0) else
    let new := putBits (withControl img 0 (eGen e) 0) 326 1 (eHit e)
    let d := (d.cancelMove (eSid e)).setEntry i new
    ((d.swapSid (eSid e) (eSid img) i).repinLine i (.stream i), 0, i)

/-- A delete as a direct change. -/
def Dev.directDelete (d : Dev) (key : Nat) : Dev × Nat × Nat :=
  if key % 256 ≠ 1 ∧ key % 256 ≠ 2 then (d, Sts.notFound, 0) else
  match d.tableLookup key with
  | .ecc _ => (d, Sts.uncorrectable, 0)
  | .none _ => (d, Sts.notFound, 0)
  | .entry i _ =>
    let e := d.entry i
    if ePendSlot e ≠ 0 then (d, Sts.entryPending, 0) else
    let d := (d.cancelMove (eSid e)).dropLine (d.setOfEntry i) (.stream i)
    ((d.freeEntry i).dropSid (eSid e), 0, i)

/-- An index of the channel region (R118). -/
def Dev.chanIndexOk (d : Dev) (i : Nat) : Bool := decide (2 ^ (d.hashLog - 3) ≤ i / 64 ∧ i / 64 ≤ 262143)

/-- A channel entry written as a direct change. -/
def Dev.directChan (d : Dev) (i img : Nat) : Dev × Nat × Nat :=
  if d.chanIndexOk i = false then (d, Sts.badIndex, 0) else
  let e := d.entry i
  if d.lineBad (entryAddr i) = false ∧ ePendSlot e ≠ 0 then (d, Sts.entryPending, 0)
  else
    let d := { d.setEntry i (withControl img 0 (eGen e) 0) with
      ddr := { d.ddr with bad := d.ddr.bad.filter (· ≠ entryAddr i) } }
    (d.repinLine i (.chan i), 0, i)

/-! ### The commands -/

/-- FRAME_ROUTE. -/
def execFrameRoute (q : Fin 2) (s : State) : Host.Outcome State Fault Refusal := run s (frameRoute q)

/-- MISS_LOOKUP_DONE. -/
def execMissLookupDone (n : Nat) (s : State) : Host.Outcome State Fault Refusal := run s (missLookupDone n)

/-- RTE_CFG_WRITE. -/
def execRteCfgWrite (inp : Fin 101) (desc : Bool) (v : BitVec 32) (s : State) :
    Host.Outcome State Fault Refusal :=
  runOn 78 ⟨inp, desc⟩ s fun d => let r := writeRteCfg ⟨inp, desc⟩ (ones 32) v.toNat d; r.1.complete ⟨inp, desc⟩ r.2 0

/-- ROUTE_TABLE_CLEAR. -/
def execRouteTableClear (inp : Fin 101) (s : State) : Host.Outcome State Fault Refusal :=
  runOn 78 ⟨inp, false⟩ s fun d => let r := tableClear d; r.1.complete ⟨inp, false⟩ r.2 0

/-- ROUTE_CLEAR_DONE. -/
def execRouteClearDone (s : State) : Host.Outcome State Fault Refusal :=
  run s fun d => d.wr R.RTE_STATUS_clearing [] 0

/-- AGER_VISIT. -/
def execAgerVisit (i : Fin 16777216) (s : State) : Host.Outcome State Fault Refusal := run s (agerVisit i)

/-- LEARN_LOG_READ: a read of 8-byte unit `u` of RTE_LEARN_LOG. -/
def execLearnLogRead (inp : Fin 101) (u : Fin 8) (s : State) : Host.Outcome State Fault Refusal :=
  runOn 78 ⟨inp, false⟩ s fun d => let r := readLearnLog u d; r.1.complete ⟨inp, false⟩ Sts.ok r.2

end Sys2Proof.Machine
end

