-- ==== Sys2Proof/Machine/Salvo.lean ====
section
/-! DEFINITION. Chapter 04: salvos. -/

namespace Sys2Proof.Machine

def Dev.salvoState (d : Dev) (s : Nat) : Nat := d.rd R.RTE_SALVO_STAT_state [s]
def Dev.setSalvo (d : Dev) (s x : Nat) : Dev := d.wr R.RTE_SALVO_STAT_state [s] x
def Dev.run_ (d : Dev) (s : Nat) : SalvoRun := tget {} d.rte.salvo s
def Dev.setRun (d : Dev) (s : Nat) (x : SalvoRun) : Dev :=
  d.withRte fun r => { r with salvo := tset {} r.salvo s x }
def Dev.changes (d : Dev) (s : Nat) : Nat := d.rd R.RTE_SALVO_STAT_changes [s]
def Dev.teff (d : Dev) (s : Nat) : Nat := rawToBeads (d.rd R.RTE_SALVO_STAT_t_eff [s])
def Dev.chgKind (d : Dev) (s j : Nat) : Nat := tget 0 d.rte.chgKind (changeKey s j)
def Dev.chgEntry (d : Dev) (s j : Nat) : Nat := tget 0 d.rte.chgEntry (changeKey s j)

/-- Entry `i` of change (`s`, `j`) is a channel entry. -/
def entryTag (kind i : Nat) : LineTag := if kind = 4 then .chan i else .stream i

/-! ### Staging (Table 04-8) -/

/-- The lowest FREE slot becomes OPEN with no changes; its number, or none. -/
def Dev.salvoOpen (d : Dev) : Dev × Option Nat :=
  match [0, 1, 2, 3].find? fun s => d.salvoState s == 0 with
  | none => (d, none)
  | some s =>
    let zero := fun (d : Dev) (f : Field) => d.wr f [s] 0
    let d := [R.RTE_SALVO_STAT_late, R.RTE_SALVO_STAT_partial, R.RTE_SALVO_STAT_cancelled,
      R.RTE_SALVO_STAT_all, R.RTE_SALVO_STAT_changes, R.RTE_SALVO_STAT_stale, R.RTE_SALVO_STAT_t_req,
      R.RTE_SALVO_STAT_t_eff, R.RTE_SALVO_STAT_prewarmed, R.RTE_SALVO_STAT_prewarm_miss,
      R.RTE_SALVO_STAT_swapped, R.RTE_SALVO_STAT_swap_fail].foldl zero d
    let old := fun (t : Table Nat) => t.filter fun e => decide (e.1 / 1048576 ≠ s)
    let d := d.withRte fun r => { r with chgKind := old r.chgKind, chgEntry := old r.chgEntry }
    ((d.setRun s {}).setSalvo s 1, some s)

/-- Change record `j` of slot `s` written: kind, entry, image with gen_new. -/
def Dev.addChange (d : Dev) (s kind i img : Nat) : Dev :=
  let j := d.changes s
  let genNew := 1 - eGen (d.entry i)
  let d := { d.setRecord s j (putBits img 323 1 genNew) with
    ddr := { d.ddr with bad := d.ddr.bad.filter (· ≠ recordAddr s j) } }
  let d := d.withRte fun r => { r with
    chgKind := tset 0 r.chgKind (changeKey s j) kind
    chgEntry := tset 0 r.chgEntry (changeKey s j) i }
  let e := d.entry i
  (d.setEntry i (putBits (putBits e 320 3 (s + 1)) 328 20 j)).wr R.RTE_SALVO_STAT_changes [s] (j + 1)

/-- The statuses every SALVO_ADD may end with. -/
def Dev.addStatus (d : Dev) (s : Nat) : Nat :=
  if d.salvoState s ≠ 1 then Sts.salvoState
  else if d.changes s ≥ 1048576 then Sts.salvoFull else 0

/-- SALVO_ADD of an insert: the slot is reserved with key and control, the sid held. -/
def Dev.salvoInsert (d : Dev) (s img : Nat) : Dev × Nat × Nat :=
  let (st, slot) := d.insertStatus img
  match worst st (d.addStatus s), slot with
  | 0, some i =>
    let d := ((d.putStream i (withControl (eKey img) 0 0 0)).holdSid (eSid img) i).dropLine
      (cacheSetOf (eKey img)) (.neg (eKey img))
    (d.addChange s 1 i img, 0, i)
  | st, _ => (if st = Sts.rodFull then d.raise Ev.rodFull 65535 else d, st, 0)

/-- SALVO_ADD of a modify. -/
def Dev.salvoModify (d : Dev) (s img : Nat) : Dev × Nat × Nat :=
  match d.tableLookup (eKey img) with
  | .ecc _ => (d, Sts.uncorrectable, 0)
  | .none _ => (d, worst Sts.notFound (d.addStatus s), 0)
  | .entry i _ =>
    let e := d.entry i
    let a := if d.sidTaken img i then Sts.sidInUse else 0
    let b := if ePendSlot e ≠ 0 then Sts.entryPending else 0
    match worst a (worst b (d.addStatus s)) with
    | 0 =>
      let d := (d.cancelMove (eSid e)).withRte fun r => { r with sids := tset 0 r.sids (eSid img) (i + 1) }
      (d.addChange s 2 i img, 0, i)
    | st => (d, st, 0)

/-- SALVO_ADD of a delete. -/
def Dev.salvoDelete (d : Dev) (s key : Nat) : Dev × Nat × Nat :=
  if key % 256 ≠ 1 ∧ key % 256 ≠ 2 then (d, worst Sts.notFound (d.addStatus s), 0) else
  match d.tableLookup key with
  | .ecc _ => (d, Sts.uncorrectable, 0)
  | .none _ => (d, worst Sts.notFound (d.addStatus s), 0)
  | .entry i _ =>
    match worst (if ePendSlot (d.entry i) ≠ 0 then Sts.entryPending else 0) (d.addStatus s) with
    | 0 => ((d.cancelMove (eSid (d.entry i))).addChange s 3 i 0, 0, i)
    | st => (d, st, 0)

/-- SALVO_ADD of a channel entry. -/
def Dev.salvoChan (d : Dev) (s i img : Nat) : Dev × Nat × Nat :=
  let a := if d.chanIndexOk i then 0 else Sts.badIndex
  let b := if ePendSlot (d.entry i) ≠ 0 then Sts.entryPending else 0
  let u := if d.lineBad (entryAddr i) then Sts.uncorrectable else 0
  match worst u (worst a (worst b (d.addStatus s))) with
  | 0 => (d.addChange s 4 i img, 0, i)
  | st => (d, st, 0)

/-- The frame boundary at or after a time, beads rounded up (R143). -/
def frameBoundary (num den t : Nat) : Nat :=
  if den = 0 then (t + beadsPerSec - 1) / beadsPerSec * beadsPerSec
  else if num = 0 then t
  else
    let k := (ceilDiv (t * den : Nat) (num * beadsPerSec)).toNat
    (ceilDiv (k * num * beadsPerSec : Nat) den).toNat

/-- SALVO_ARM: status, and late as the result (R143). -/
def Dev.salvoArm (d : Dev) (s : Nat) (all : Bool) (treq num den : Nat) : Dev × Nat × Nat :=
  if d.salvoState s ≠ 1 then (d, Sts.salvoState, 0) else
  let limit := d.now + d.rd R.RTE_SALVO_CFG_late_us * 65536000
  let late := decide (rawToBeads treq < limit)
  let teff := if late then frameBoundary num den limit else rawToBeads treq
  let d := ((d.wr R.RTE_SALVO_STAT_t_req [s] treq).wr R.RTE_SALVO_STAT_t_eff [s] (beadsToRaw teff)).wr
    R.RTE_SALVO_STAT_all [s] (bit all)
  let d := ((d.wr R.RTE_SALVO_STAT_late [s] (bit late)).setRun s { num := num, den := den }).setSalvo s 2
  let d := d.raise Ev.salvoArmed s
  (if late then d.raise Ev.salvoLate s else d, 0, bit late)

/-- A cancel that executes at a time in beads: status (Table 04-8, R147). -/
def Dev.salvoCancel (d : Dev) (s at_ : Nat) : Dev × Nat :=
  match d.salvoState s with
  | 1 => (d.setSalvo s 4, 0)
  | 2 => if at_ < d.teff s then (d.setSalvo s 4, 0) else (d, Sts.alreadyCommitted)
  | 3 => (d, Sts.alreadyCommitted)
  | _ => (d, Sts.salvoState)

/-! ### Pre-warm, commit, swap, retirement (R144 to R147) -/

/-- The lines of a change: the set, the entry's tag, the record's tag. -/
def Dev.changeLines (d : Dev) (s j : Nat) : Nat × LineTag × LineTag :=
  let i := d.chgEntry s j
  (d.setOfEntry i, entryTag (d.chgKind s j) i, .record s j)

/-- Pre-warm serves the next change of an ARMED salvo before T_eff. -/
def prewarmStep (s : Nat) (d : Dev) : Dev :=
  let run := d.run_ s
  let j := run.prePos
  if d.salvoState s ≠ 2 ∨ j ≥ d.changes s ∨ d.reached (d.teff s) = true then d else
  let d := d.setRun s { run with prePos := j + 1 }
  let (set, e, r) := d.changeLines s j
  if d.rd R.RTE_SALVO_STAT_all [s] = 0 ∧ ((d.cset set).find e).isNone = true then d
  else if d.lineBad (recordAddr s j) = true ∨ d.lineBad (entryAddr (d.chgEntry s j)) = true then
    d.bumpWrap R.RTE_SALVO_STAT_prewarm_miss [s]
  else
    let was := fun (d : Dev) (t : LineTag) => bit ((d.cset set).find t).isNone
    let n := was d e + was d r
    let (d, a) := d.pinForSalvo set e s
    let (d, b) := d.pinForSalvo set r s
    if a && b then (d.rteCount 13 n).bumpWrap R.RTE_SALVO_STAT_prewarmed [s]
    else d.bumpWrap R.RTE_SALVO_STAT_prewarm_miss [s]

/-- Reckoning time reaches T_eff: COMMITTED; changes not pre-warmed by then are counted. -/
def salvoCommit (s : Nat) (d : Dev) : Dev :=
  if d.salvoState s ≠ 2 ∨ d.reached (d.teff s) = false then d else
  let run := d.run_ s
  let d := d.wr R.RTE_SALVO_STAT_prewarm_miss [s]
    (d.rd R.RTE_SALVO_STAT_prewarm_miss [s] + (d.changes s - run.prePos))
  let d := (d.setSalvo s 3).setRun s { run with raised := true }
  let d := if d.rd R.RTE_SALVO_STAT_prewarm_miss [s] ≠ 0 then
      (d.wr R.RTE_SALVO_STAT_partial [s] 1).raise Ev.salvoPrewarmPartial s
    else d
  d.raise Ev.salvoCommitted s

/-- The next change is swapped: the new image into the entry with gen inverted, the old one into the record;
a record that is uncorrectable leaves the entry, or frees the reserved entry of an insert (R145). -/
def salvoSwap (s : Nat) (d : Dev) : Dev :=
  let run := d.run_ s
  let j := run.swapPos
  if d.salvoState s ≠ 3 ∨ run.retiring = true ∨ j ≥ d.changes s ∨ d.reached (d.teff s) = false then d else
  let i := d.chgEntry s j
  let kind := d.chgKind s j
  let d := d.setRun s { run with swapPos := j + 1 }
  if d.lineBad (recordAddr s j) then
    let d := if kind = 1 then
        d.withRte fun r => { r with chgKind := tset 0 r.chgKind (changeKey s j) 5 }
      else d
    (d.bumpWrap R.RTE_SALVO_STAT_swap_fail [s]).routeEcc j
  else
    let e := d.entry i
    let r := d.record s j
    let gen := eGen r
    let ctl := fun (img : Nat) => putBits (withControl img (s + 1) gen j) 326 1 (eHit e)
    let new := if kind = 3 then putBits e 323 1 gen else ctl r
    let old := if kind = 1 then 0 else e
    let d := (d.setEntry i new).setRecord s j (putBits old 323 1 gen)
    d.bumpWrap R.RTE_SALVO_STAT_swapped [s]

/-- Retirement clears one change's entry, and frees removed slots. -/
def Dev.retireChange (d : Dev) (s j : Nat) : Dev :=
  let i := d.chgEntry s j
  let e := d.entry i
  let clear := fun (d : Dev) => (d.setEntry i (putBits (putBits e 320 3 0) 328 20 0)).repinLine i
    (entryTag (d.chgKind s j) i)
  let remove := fun (d : Dev) (sid : Nat) => ((d.dropLine (d.setOfEntry i) (.stream i)).freeEntry i).dropSid sid
  match d.chgKind s j with
  | 3 => remove d (eSid e)
  | 5 =>
    match d.rte.sids.find? fun x => x.2 == i + 1 with
    | some x => remove d x.1
    | none => d.freeEntry i
  | 2 =>
    let d := clear d
    d.withRte fun r => { r with sids := (r.sids.filter fun x => x.2 ≠ i + 1 ∨ x.1 = eSid e) }
  | _ => clear d

/-- The records' lines of a slot leave the cache. -/
def Dev.dropRecords (d : Dev) (s : Nat) : Dev :=
  d.withRte fun r => { r with cache := r.cache.map fun e => (e.1, { e.2 with
    lines := e.2.lines.filter fun l => match l.tag with
      | .record s' _ => s' != s
      | _ => true }) }

/-- The later of the last swap and T_eff + drain_us has come: retirement starts. -/
def salvoRetire (s : Nat) (d : Dev) : Dev :=
  let run := d.run_ s
  if d.salvoState s ≠ 3 ∨ run.retiring = true ∨ run.swapPos < d.changes s ∨
      d.reached (d.teff s + d.rd R.RTE_SALVO_CFG_drain_us * 65536000) = false then d
  else
    let d := (d.setRun s { run with retiring := true }).unpinSalvo s
    (List.range (d.changes s)).foldl (fun d j => d.retireChange s j) (d.dropRecords s)

/-- Retirement ends. -/
def salvoRetireDone (s : Nat) (d : Dev) : Dev :=
  let run := d.run_ s
  if d.salvoState s = 3 ∧ run.retiring = true then
    ((d.setRun s {}).setSalvo s 0).raise Ev.salvoRetired s
  else d

/-- One change of a cancelled salvo is undone (R147). -/
def Dev.undoChange (d : Dev) (s j : Nat) : Dev :=
  let i := d.chgEntry s j
  let e := d.entry i
  let back := putBits (putBits e 320 3 0) 328 20 0
  match d.chgKind s j with
  | 1 =>
    let d := (d.dropLine (d.setOfEntry i) (.stream i)).freeEntry i
    match d.rte.sids.find? fun x => x.2 == i + 1 with
    | some x => d.dropSid x.1
    | none => d
  | 2 => (d.setEntry i back).withRte fun r => { r with
      sids := r.sids.filter fun x => x.2 ≠ i + 1 ∨ x.1 = eSid e }
  | _ => d.setEntry i back

/-- CANCELLING has restored every entry. -/
def salvoCancelDone (s : Nat) (d : Dev) : Dev :=
  if d.salvoState s ≠ 4 then d else
  let d := (List.range (d.changes s)).foldl (fun d j => d.undoChange s j) ((d.unpinSalvo s).dropRecords s)
  (((d.setRun s {}).wr R.RTE_SALVO_STAT_cancelled [s] 1).setSalvo s 0).raise Ev.salvoCancelled s

/-! ### The commands -/

/-- PREWARM_STEP. -/
def execPrewarmStep (slot : Fin 4) (s : State) : Host.Outcome State Fault Refusal := run s (prewarmStep slot)

/-- SALVO_COMMIT. -/
def execSalvoCommit (slot : Fin 4) (s : State) : Host.Outcome State Fault Refusal := run s (salvoCommit slot)

/-- SALVO_SWAP. -/
def execSalvoSwap (slot : Fin 4) (s : State) : Host.Outcome State Fault Refusal := run s (salvoSwap slot)

/-- SALVO_RETIRE. -/
def execSalvoRetire (slot : Fin 4) (s : State) : Host.Outcome State Fault Refusal := run s (salvoRetire slot)

/-- SALVO_RETIRE_DONE. -/
def execSalvoRetireDone (slot : Fin 4) (s : State) : Host.Outcome State Fault Refusal :=
  run s (salvoRetireDone slot)

/-- SALVO_CANCEL_DONE. -/
def execSalvoCancelDone (slot : Fin 4) (s : State) : Host.Outcome State Fault Refusal :=
  run s (salvoCancelDone slot)

end Sys2Proof.Machine
end

