-- ==== Sys2Proof/Machine/Rings.lean ====
section
/-! DEFINITION. Chapter 12: the rings of the Sacon engine and their records; chapter 13: the delivery of
events. Ring `r` of controller `c`: 0 to 7 command, 8 to 15 completion, 16 and 17 event. -/

namespace Sys2Proof.Machine

/-- The Sacon engine changed. -/
def Dev.withSac (d : Dev) (f : SacSt → SacSt) : Dev := { d with sac := f d.sac }

/-- Sacon counter `k` of controller `c` counts (Table 12-12). -/
def Dev.sacCount (d : Dev) (c k : Nat) (n : Nat := 1) : Dev := d.bumpWrap R.SAC_CNT_count [c, k] n

def Dev.ring (d : Dev) (c r : Nat) : Ring := tget {} d.sac.ring (32 * c + r)
def Dev.setRing (d : Dev) (c r : Nat) (x : Ring) : Dev :=
  d.withSac fun s => { s with ring := tset {} s.ring (32 * c + r) x }

def Dev.ringState (d : Dev) (c r : Nat) : Nat := d.rd R.SAC_RING_state [c, r]
def Dev.setRingState (d : Dev) (c r x : Nat) : Dev := d.wr R.SAC_RING_state [c, r] x
def Dev.devIdx (d : Dev) (c r : Nat) : Nat := d.rd R.SAC_RING_dev_idx [c, r]
def Dev.hostIdx (d : Dev) (c r : Nat) : Nat := d.rd R.SAC_RING_host_idx [c, r]

/-- size_log as it acts. -/
def clampLog (n : Nat) : Nat := min 16 (max 6 n)
def Dev.ringLog (d : Dev) (c r : Nat) : Nat := clampLog (d.rd R.SAC_RING_size_log [c, r])

/-- A free-running difference of 32-bit indices. -/
def idxDiff (a b : Nat) : Nat := (a + 2 ^ 32 - b) % 2 ^ 32

/-- QP `i` of controller `c` is in RTS. -/
def Dev.qpRts (d : Dev) (c i : Nat) : Bool := d.rd R.SAC_QP_state [c, i] == 2

/-- The ring's memory can be reached. -/
def Dev.ringReach (d : Dev) (c r : Nat) : Bool := d.qpRts c (d.rd R.SAC_RING_qp [c, r])

/-- A completion or event ring has room (R421, R457): enabled, not stopped, entries free. -/
def Dev.ringRoom (d : Dev) (c r n : Nat) : Bool :=
  d.flag R.SAC_RING_en [c, r] && d.ringState c r != 4 &&
    decide (idxDiff (d.devIdx c r) (d.hostIdx c r) + n ≤ 2 ^ d.ringLog c r)

/-- The phase bit of the record at an index (R421). -/
def phaseBit (i log : Nat) : Nat := 1 - i / 2 ^ log % 2

/-- Bytes written to host memory through a QP. -/
def Dev.hostWrite (d : Dev) (c qp addr rkey : Nat) (l : List Byte) : Dev :=
  (d.sacCount c 9 l.length).emit (.hostWrite c qp addr rkey l)

/-- A 16-byte record written at the produced index of a ring. -/
def Dev.putRecord (d : Dev) (c r : Nat) (v : Nat) : Dev :=
  let i := d.devIdx c r
  let log := d.ringLog c r
  let a := d.rd R.SAC_RING_base [c, r] + 16 * (i % 2 ^ log)
  (d.hostWrite c (d.rd R.SAC_RING_qp [c, r]) a (d.rd R.SAC_RING_rkey [c, r]) (leBytes 16 v)).wr
    R.SAC_RING_dev_idx [c, r] (i + 1)

/-! ### Command rings (R421 to R426, R432) -/

/-- The state of a command ring that is enabled and not stopped follows from what it holds. -/
def Dev.settleRing (d : Dev) (c r : Nat) : Dev :=
  let x := d.ring c r
  let st := d.ringState c r
  if st = 0 ∨ st = 4 then d
  else if x.full then d.setRingState c r 3
  else if x.cur.isSome then d
  else d.setRingState c r (if x.fetched.isEmpty ∧ d.devIdx c r = d.hostIdx c r then 1 else 2)

/-- A ring enters STOPPED: descriptors fetched and not executed go back (R425). -/
def Dev.stopRing (d : Dev) (c r : Nat) : Dev :=
  let x := d.ring c r
  let d := d.wr R.SAC_RING_dev_idx [c, r] (d.devIdx c r + 2 ^ 32 - x.fetched.length)
  ((d.setRing c r { x with fetched := [], full := false, stopping := false }).setRingState c r 4).raise
    Ev.ringStopped (c * 32 + r)

/-- A ring stops: after its descriptor in execution, or at once. -/
def Dev.askStop (d : Dev) (c r : Nat) : Dev :=
  let x := d.ring c r
  let st := d.ringState c r
  if st = 0 ∨ st = 4 then d
  else if x.cur.isSome then d.setRing c r { x with stopping := true }
  else d.stopRing c r

/-- The completion record of a descriptor (Table 12-7). -/
def cplRecord (tag status ring phase index result : Nat) : Nat :=
  tag + status * 2 ^ 32 + ring * 2 ^ 40 + phase * 2 ^ 43 + index % 65536 * 2 ^ 48
    + result % 2 ^ 64 * 2 ^ 64

/-- The record of a completed descriptor is written when the QP allows it, and lost otherwise. -/
def Dev.writeCpl (d : Dev) (c r : Nat) (x : CurDesc) (status result : Nat) : Dev :=
  let k := 8 + d.rd R.SAC_RING_cpl_ring [c, r]
  if d.ringReach c k then
    let ph := phaseBit (d.devIdx c k) (d.ringLog c k)
    (d.putRecord c k (cplRecord (bits x.desc 32 32) status r ph x.index result)).sacCount c 2
  else d

/-- The descriptor in execution completes (R423 to R425). -/
def Dev.completeDesc (d : Dev) (c r status result : Nat) : Dev :=
  let x := d.ring c r
  match x.cur with
  | none => d
  | some cur =>
    let d := d.setRing c r { x with cur := none }
    let d := d.sacCount c 0
    let d := if status ≠ 0 then d.sacCount c 1 else d
    let d := if status ≠ 0 ∧ d.flag R.SAC_RING_err_evt [c, r] = true then d.raise Ev.cmdError (c * 8 + r) else d
    let d := if bits cur.desc 8 1 = 1 ∧ status = 0 then d else d.writeCpl c r cur status result
    if x.stopping ∨ (status ≠ 0 ∧ d.flag R.SAC_RING_stop_on_err [c, r] = true) then d.stopRing c r
    else (if d.ringState c r = 3 then d.setRingState c r 2 else d).settleRing c r

/-- The descriptor in execution completes with a status for which Table 12-6 states no result: the result is a
free value (log entry 162). -/
def Dev.failDesc (d : Dev) (c r status : Nat) : Dev :=
  let (d, v) := d.draw 64
  d.completeDesc c r status v

/-- The opcodes whose result is stated whatever their status: 0, or the bytes moved (Table 12-6). -/
def plainResults : List Nat := [0x00, 0x02, 0x10, 0x11, 0x2A, 0x30, 0x31, 0x32]

/-- The next fetched descriptor of a RUNNING ring starts when its completion ring has room; otherwise the
ring waits and raises CPL_FULL once (R423). -/
def Dev.startDesc (d : Dev) (c r : Nat) : Dev × Option Nat :=
  let x := d.ring c r
  match x.fetched with
  | [] => (d, none)
  | desc :: rest =>
    if x.cur.isSome ∨ d.ringState c r ≠ 2 then (d, none) else
    let k := d.rd R.SAC_RING_cpl_ring [c, r]
    if d.ringRoom c (8 + k) 1 = false then
      (((d.setRing c r { x with full := true }).setRingState c r 3).raise Ev.cplFull (c * 8 + k), none)
    else
      let index := idxDiff (d.devIdx c r) x.fetched.length
      (d.setRing c r { x with fetched := rest, cur := some { desc := desc, index := index } }, some desc)

/-- The opcode of the descriptor that would start. -/
def Dev.nextOpcode (d : Dev) (c r : Nat) : Option Nat := (d.ring c r).fetched.head?.map fun x => bits x 0 8

/-- A descriptor of opcode `op` starts on a ring and is carried out by `f`; common fields and argument bits
outside `args` that are not zero give BAD_DESCRIPTOR (R426). -/
def Dev.execDesc (d : Dev) (c r op args : Nat) (f : Dev → Nat → Dev) : Dev :=
  if d.nextOpcode c r ≠ some op then d else
  let (d, x) := d.startDesc c r
  match x with
  | none => d
  | some desc =>
    let allowed := 0x1FF + ones 32 * 2 ^ 32 + args
    if desc &&& (ones 512 - allowed) ≠ 0 then
      (if plainResults.contains op then d.completeDesc c r Sts.badDescriptor 0 else d.failDesc c r Sts.badDescriptor)
    else f d desc

/-- The ring waits in its descriptor. -/
def Dev.waitDesc (d : Dev) (c r : Nat) (f : CurDesc → CurDesc) : Dev :=
  let x := d.ring c r
  (d.setRing c r { x with cur := x.cur.map f }).setRingState c r 3

/-! ### Event delivery (R450 to R457) -/

/-- An event record (Table 12-8). -/
def evtRecord (src info time phase : Nat) (lost : Bool) : Nat :=
  src + phase * 2 ^ 9 + bit lost * 2 ^ 10 + info % 65536 * 2 ^ 16 + time % 2 ^ 96 * 2 ^ 32

/-- The (info, time) pairs of a raise: two for TIME_STEP (R451). -/
def evtPairs (e : EvRec) : List (Nat × Nat) :=
  match e.pre with
  | none => [(e.info, e.time)]
  | some p => [(e.info % 32768, p), (e.info % 32768 + 32768, e.time)]

/-- Records for event ring `e` of controller `c`: written together, or discarded and counted with
EVT_OVERFLOW raised once (R433, R457). -/
def Dev.toEvtRing (d : Dev) (c e : Nat) (x : EvRec) : Dev :=
  let r := 16 + e
  let l := evtPairs x
  if x.src = Ev.evtOverflow ∧ x.info = 2 * c + e then d
  else if d.ringRoom c r l.length && d.ringReach c r then
    l.foldl (fun d p =>
      let lost := tget false d.sac.evtLost (2 * c + e)
      let ph := phaseBit (d.devIdx c r) (d.ringLog c r)
      let d := d.withSac fun s => { s with evtLost := tset false s.evtLost (2 * c + e) false }
      (d.putRecord c r (evtRecord x.src p.1 p.2 ph lost)).sacCount c 3) d
  else
    let d := d.sacCount c 4 l.length
    if tget false d.sac.evtLost (2 * c + e) then d
    else (d.withSac fun s => { s with evtLost := tset false s.evtLost (2 * c + e) true }).raise
      Ev.evtOverflow (2 * c + e)

/-- Records for the memory ring (R456). -/
def Dev.toMring (d : Dev) (x : EvRec) : Dev :=
  if d.flag R.EVT_MRING_en = false then d else
  let l := evtPairs x
  let log := clampLog (d.rd R.EVT_MRING_size_log)
  if idxDiff (d.rd R.EVT_MRING_produced) (d.rd R.EVT_MRING_CONS_consumed) + l.length ≤ 2 ^ log then
    l.foldl (fun d p =>
      let i := d.rd R.EVT_MRING_produced
      let v := evtRecord x.src p.1 p.2 (phaseBit i log) d.evt.mringLost
      let d := d.store (d.rd R.EVT_MRING_base / 4096 * 4096 + 16 * (i % 2 ^ log)) 16 v
      ({ d with evt := { d.evt with mringLost := false } }).wr R.EVT_MRING_produced [] (i + 1)) d
  else
    { d.bump R.EVT_STAT_mring_lost [] l.length with evt := { d.evt with mringLost := true } }

/-- A record is handed to the destinations of its source (R453). -/
def Dev.deliver (d : Dev) (x : EvRec) : Dev :=
  let toward := fun (d : Dev) (f : Field) (c e : Nat) => if d.flag f [x.src] then d.toEvtRing c e x else d
  let d := toward (toward (toward (toward d R.EVT_SRC_ring_a0 0 0) R.EVT_SRC_ring_a1 0 1) R.EVT_SRC_ring_b0 1 0)
    R.EVT_SRC_ring_b1 1 1
  if d.flag R.EVT_SRC_mring [x.src] then d.toMring x else d

/-- The end of a source's window set, beads plus one. -/
def Dev.setWindow (d : Dev) (src t : Nat) : Dev :=
  { d with evt := { d.evt with window := tset 0 d.evt.window src t } }
def Dev.setHeld (d : Dev) (src : Nat) (x : Option EvRec) : Dev :=
  { d with evt := { d.evt with held := tset none d.evt.held src x } }

/-- The width of a source's window in beads. -/
def Dev.coalBeads (d : Dev) (src : Nat) : Nat := d.rd R.EVT_SRC_coal_us [src] * 65536000

/-- The unit accepts the oldest raise: held back while its source's window is open, delivered otherwise, and
a window opens (R454, R455). Latched raises enter once island 105 runs (R459). -/
def eventAccept (d : Dev) : Dev :=
  let d := if d.island 105 = 0 ∧ d.evt.latched ≠ [] then
      d.evt.latched.foldl (fun d r => d.acceptRaise (· ++ [r])) { d with evt := { d.evt with latched := [] } }
    else d
  if d.island 105 ≠ 0 then d else
  match d.evt.queue with
  | [] => d
  | x :: rest =>
    let d := { d with evt := { d.evt with queue := rest } }
    if tget 0 d.evt.window x.src ≠ 0 then (d.setHeld x.src (some x)).bump R.EVT_SRC_coalesced [x.src]
    else
      let d := if d.coalBeads x.src = 0 then d else d.setWindow x.src (d.clock + d.coalBeads x.src + 1)
      d.deliver x

/-- A source's window ends: one record for the raises held back, and a new window; or none. -/
def coalesceEnd (src : Nat) (d : Dev) : Dev :=
  let w := tget 0 d.evt.window src
  if w = 0 ∨ d.passed (w - 1) = false then d else
  match tget none d.evt.held src with
  | none => d.setWindow src 0
  | some x =>
    let d := d.setHeld src none
    let d := d.setWindow src (if d.coalBeads src = 0 then 0 else d.clock + d.coalBeads src + 1)
    d.deliver x

/-- An enable register of a cause-register source written: bits that go from 0 to 1 with their cause set
raise the source (R449). Fields of one bit each, the cause and enable of bit `b` at place `b`. -/
def Dev.writeEnables (d : Dev) (causes ens : List Field) (ix : List Nat) (src m v : Nat) : Dev :=
  let n := ens.length
  let fire := (setBitsOf n (m &&& v)).filter fun b =>
    !(d.flag (ens.getD b R.DRV_EVT_EN_sw) ix) && d.flag (causes.getD b R.DRV_EVT_sw) ix
  let d := (setBitsOf n m).foldl (fun d b => d.wr (ens.getD b R.DRV_EVT_EN_sw) ix (bits v b 1)) d
  if fire.isEmpty then d else d.raise src (fire.map (2 ^ ·)).sum

/-! ### The commands -/

/-- EVENT_ACCEPT. -/
def execEventAccept (s : State) : Host.Outcome State Fault Refusal := run s eventAccept

/-- COALESCE_WINDOW_END. -/
def execCoalesceWindowEnd (src : Fin 320) (s : State) : Host.Outcome State Fault Refusal :=
  run s (coalesceEnd src)

end Sys2Proof.Machine
end

