-- ==== Sys2Proof/Machine/Sem.lean ====
section
/-! DEFINITION. Chapter 12: the semaphore unit (R438 to R442) and the ages of the arbiters (R444). -/

namespace Sys2Proof.Machine

def Dev.semHeld (d : Dev) (s : Nat) : Bool := d.flag R.SEM_STATE_held [s]
def Dev.semOwner (d : Dev) (s : Nat) : Nat := d.rd R.SEM_STATE_owner [s]
/-- Input `n` holds semaphore `s`. -/
def Dev.semMine (d : Dev) (n s : Nat) : Bool := d.semHeld s && d.semOwner s == n
def Dev.semWaits (d : Dev) (s n : Nat) : Bool := (d.rd R.SEM_STATE_waiters [s]).testBit n
/-- The semaphore an input waits for at the unit (R439: at most one). -/
def Dev.semWaitOf (d : Dev) (n : Nat) : Option Nat := (List.range 256).find? fun s => d.semWaits s n

/-- The drover records that thread `t` holds semaphore `s` (R219). -/
def Dev.holdIn (d : Dev) (n t s : Nat) : Dev :=
  let x := d.drover n
  d.setDrover n { x with sem := tset 0 x.sem s (t + 1) }
def Dev.unholdIn (d : Dev) (n s : Nat) : Dev :=
  let x := d.drover n
  d.setDrover n { x with sem := tset 0 x.sem s 0 }

/-- The thread whose acquire waits at the unit for input `n` < 96. -/
def Dev.askingThr (d : Dev) (n : Nat) : Option Nat :=
  (List.range 8).find? fun t => (d.thr n t).asked && (d.thr n t).semWait.isSome

/-- The ring of controller `c` whose acquire waits at the unit. -/
def Dev.askingRing (d : Dev) (c : Nat) : Option Nat :=
  (List.range 8).find? fun r => (d.ring c r).cur.any fun x => x.asked

/-- The input is told that semaphore `s` is its own: the thread or descriptor that waited goes on; a thread
of a halted drover goes on at resume. -/
def Dev.semTell (d : Dev) (n s : Nat) : Dev :=
  if n < 96 then
    match d.askingThr n with
    | none => d
    | some t =>
      let d := d.holdIn n t s
      if d.halted n then d.setThr n t { d.thr n t with asked := false } else d.threadGo n t
  else if n = 97 ∨ n = 98 then
    match d.askingRing (n - 97) with
    | none => d
    | some r => d.completeDesc (n - 97) r Sts.ok 0
  else d

/-- Semaphore `s` goes to input `n`, which waited for it. -/
def Dev.semGrant (d : Dev) (s n : Nat) : Dev :=
  (((d.wr R.SEM_STATE_owner [s] n).wr R.SEM_STATE_held [s] 1).clearBit R.SEM_STATE_waiters [s] n).semTell n s

/-- A semaphore is free: it goes to the waiter with the highest input number, or is held by none (R439); its
owner field, the holding input, then takes a free value (log entry 163). -/
def Dev.semFree (d : Dev) (s : Nat) : Dev :=
  match (List.range 101).reverse.find? fun n => d.semWaits s n with
  | some n => d.semGrant s n
  | none =>
    let (d, v) := d.draw 7
    (d.wr R.SEM_STATE_held [s] 0).wr R.SEM_STATE_owner [s] v

/-- What inside an input next asks the unit: a thread of a drover for a semaphore its drover does not hold,
or a ring of a controller; with the semaphore (R219, R439). -/
def Dev.nextAsker (d : Dev) (n : Nat) : Option (Nat × Nat) :=
  if n < 96 then
    (List.range 8).findSome? fun t =>
      let x := d.thr n t
      match x.semWait with
      | none => none
      | some s =>
        if x.asked = true ∨ d.thrState n t ≠ 2 ∨ x.due.testBit 0 = true ∨ tget 0 (d.drover n).sem s ≠ 0 then none
        else some (t, s)
  else if n = 97 ∨ n = 98 then
    (List.range 8).findSome? fun r =>
      match (d.ring (n - 97) r).cur with
      | none => none
      | some x => if bits x.desc 0 8 = 0x30 ∧ x.asked = false then some (r, bits x.desc 64 8) else none
  else none

/-- The asker is marked as the one whose acquire is at the unit. -/
def Dev.markAsked (d : Dev) (n k : Nat) : Dev :=
  if n < 96 then d.setThr n k { d.thr n k with asked := true }
  else
    let x := d.ring (n - 97) k
    d.setRing (n - 97) k { x with cur := x.cur.map fun (y : CurDesc) => { y with asked := true } }

/-- One acquire of an input goes to the unit, unless one waits there: granted when the semaphore is free or
the input's own, else it waits. -/
def Dev.semAsk (d : Dev) (n : Nat) : Dev :=
  if (d.semWaitOf n).isSome then d else
  match d.nextAsker n with
  | none => d
  | some (k, s) =>
    let d := d.markAsked n k
    if d.semHeld s = false ∨ d.semMine n s = true then d.semGrant s n
    else d.setBit R.SEM_STATE_waiters [s] n

/-- Acquires inside an input go to the unit, one after another, until one waits there. -/
def Dev.semSettle (d : Dev) (n : Nat) : Dev := (List.range 8).foldl (fun d _ => d.semAsk n) d

/-- Acquires inside every input that can have some go on. -/
def Dev.semSettleAll (d : Dev) : Dev := (List.range 99).foldl (fun d n => d.semSettle n) d

/-- An acquire that never waits (R438): granted when free or already the input's own. -/
def Dev.semTry (d : Dev) (n s : Nat) : Dev × Bool :=
  if d.semMine n s then (d, true)
  else if d.semHeld s then (d, false)
  else ((d.wr R.SEM_STATE_owner [s] n).wr R.SEM_STATE_held [s] 1, true)

/-- A release by an input (R438). -/
def Dev.semRel (d : Dev) (n s : Nat) : Dev × Nat :=
  if d.semMine n s then
    let d := if n < 96 then d.unholdIn n s else d
    let d := d.semFree s
    (d.semSettleAll, Sts.ok)
  else (d, Sts.notOwner)

/-- The acquire of an input that waits at the unit is withdrawn. -/
def Dev.semWithdraw (d : Dev) (n : Nat) : Dev :=
  match d.semWaitOf n with
  | none => d
  | some s => d.clearBit R.SEM_STATE_waiters [s] n

/-- A read of SEM_TRY. -/
def readSemTry (inp s : Nat) (d : Dev) : Dev × Nat :=
  let (d, g) := d.semTry inp s
  (d, bit g + 2 * d.semOwner s)

/-- A write of SEM_REL. -/
def writeSemRel (inp s v : Nat) (d : Dev) : Dev × Nat :=
  if v.testBit 0 then d.semRel inp s else (d, Sts.ok)

/-- A write of SEM_FORCE (R442): 16 bits, the semaphore and go. -/
def writeSemForce (inp v : Nat) (d : Dev) : Dev × Nat :=
  if inp < 97 then (d, Sts.protected_)
  else if v.testBit 8 ∧ d.semHeld (v % 256) = true then ((d.semFree (v % 256)).semSettleAll, Sts.ok)
  else (d, Sts.ok)

/-! ### Deadlocks (R440, R441) -/

/-- Where input `a` leads in the wait-for graph. -/
def Dev.waitEdge (d : Dev) (a : Nat) : Option Nat :=
  match d.semWaitOf a with
  | none => none
  | some s => if d.semHeld s then some (d.semOwner s) else none

/-- The walk from `a` until it returns to `start`. -/
def Dev.walkCycle (d : Dev) (start a fuel : Nat) (seen : List Nat) : Option (List Nat) :=
  match fuel with
  | 0 => none
  | fuel + 1 =>
    match d.waitEdge a with
    | none => none
    | some b => if b = start then some (seen ++ [a]) else d.walkCycle start b fuel (seen ++ [a])

/-- The cycles, each from its lowest input along its edges, in ascending order of that input. -/
def Dev.cycles (d : Dev) : List (List Nat) :=
  (List.range 101).filterMap fun a =>
    match d.walkCycle a a 101 [] with
    | none => none
    | some l => if l.all fun b => decide (a ≤ b) then some l else none

/-- Members in ascending order, as SEM_DL_LOG lists them: the first eight. -/
def membersField (l : List Nat) : Nat :=
  (((List.range 101).filter fun n => n ∈ l).take 8).foldr (fun n v => n + 128 * v) 0

/-- A new cycle is logged and raised. -/
def Dev.logCycle (d : Dev) (l : List Nat) : Dev :=
  ((((((d.wr R.SEM_DL_LOG_len [] l.length).wr R.SEM_DL_LOG_valid [] 1).wr R.SEM_DL_LOG_members []
    (membersField l)).wr R.SEM_DL_LOG_sem [] 0).wr R.SEM_DL_LOG_broken [] 0).wr R.SEM_DL_LOG_time []
    d.nowRaw).raise Ev.semDeadlock l.length

/-- The lowest member loses the semaphore its predecessor in the cycle waits for (R441, R220). -/
def Dev.breakCycle (d : Dev) (l : List Nat) : Dev :=
  match l.head?, l.getLast? with
  | some low, some pred =>
    match d.semWaitOf pred with
    | none => d
    | some s =>
      let holder := tget 0 (d.drover low).sem s
      let d := if low < 96 then d.unholdIn low s else d
      let asker := d.askingThr low
      let ring := if low = 97 ∨ low = 98 then d.askingRing (low - 97) else none
      let d := d.semWithdraw low
      let d := match asker with
        | some t => if low < 96 then d.setThr low t { d.thr low t with asked := false } else d
        | none => d
      let d := d.semFree s
      let d := d.wr R.SEM_STATE_revoked [s] 1
      let d := (d.wr R.SEM_DL_LOG_sem [] s).wr R.SEM_DL_LOG_broken [] 1
      let d := d.raise Ev.semRevoked s
      let d := if low < 96 then d.drvCount low 12 else d
      let d := if low < 96 ∧ holder ≠ 0 then d.makeDue low (holder - 1) 0 else d
      match ring with
      | some r => d.completeDesc (low - 97) r Sts.revoked 0
      | none => d
  | _, _ => d

/-- A search: cycles the search before did not find are logged; every one is broken when break_en is set. -/
def deadlockSearch (d : Dev) : Dev :=
  if d.flag R.SEM_CFG_search_en = false then d else
  let found := d.cycles
  let old := d.sac.cycles
  let d := d.withSac fun s => { s with cycles := found }
  let d := found.foldl (fun (d : Dev) (l : List Nat) =>
    let d := if l ∈ old then d else d.logCycle l
    if d.flag R.SEM_CFG_break_en then d.breakCycle l else d) d
  d.semSettleAll

/-! ### Ages (R444) -/

/-- The present request of input `n` at resource `r` has waited `age` arbiter cycles; 0 when it is served. -/
def arbAge (r n age : Nat) (d : Dev) : Dev :=
  let k := 128 * r + n
  let d := d.wr R.SEM_ARB_AGE_cur [r, n] age
  let d := if d.rd R.SEM_ARB_AGE_max [r, n] < age % 2 ^ 32 then d.wr R.SEM_ARB_AGE_max [r, n] age else d
  if age = 0 then d.withSac fun s => { s with starved := tset false s.starved k false }
  else
    let thr := d.rd R.SEM_ARB_THR_thr [r]
    if thr ≠ 0 ∧ thr ≤ age ∧ tget false d.sac.starved k = false then
      (d.withSac fun s => { s with starved := tset false s.starved k true }).raise Ev.arbStarve k
    else d

/-! ### The commands -/

/-- SEM_TRY_READ. -/
def execSemTryRead (inp : Fin 101) (sem : BitVec 8) (s : State) : Host.Outcome State Fault Refusal :=
  runOn 105 ⟨inp, false⟩ s fun d => let r := readSemTry inp sem.toNat d; r.1.complete ⟨inp, false⟩ Sts.ok r.2

/-- SEM_REL_WRITE. -/
def execSemRelWrite (inp : Fin 101) (sem : BitVec 8) (s : State) : Host.Outcome State Fault Refusal :=
  runOn 105 ⟨inp, false⟩ s fun d => let r := writeSemRel inp sem.toNat 1 d; r.1.complete ⟨inp, false⟩ r.2 0

/-- SEM_FORCE: a write of the 32 bits `v`. -/
def execSemForce (inp : Fin 101) (v : BitVec 32) (s : State) : Host.Outcome State Fault Refusal :=
  runOn 105 ⟨inp, false⟩ s fun d => let r := writeSemForce inp v.toNat d; r.1.complete ⟨inp, false⟩ r.2 0

/-- DEADLOCK_SEARCH. -/
def execDeadlockSearch (s : State) : Host.Outcome State Fault Refusal := run s deadlockSearch

/-- ARB_STARVE: the age a request reaches. -/
def execArbStarve (r : Fin 3) (inp : Fin 101) (age : BitVec 32) (s : State) :
    Host.Outcome State Fault Refusal := run s (arbAge r inp age.toNat)

end Sys2Proof.Machine
end

