-- ==== Sys2Proof/Machine/Qps.lean ====
section
/-! DEFINITION. Chapter 12: queue pair states, the loss of a controller, messages the Sacon engine sends. -/

namespace Sys2Proof.Machine

/-! Kinds of message in `Out.sacon`. -/

namespace Msg
def discovery := 0
def arp := 1
def advert := 2
def rep := 3
def rej := 4
def drep := 5
def dreq := 6
def ack := 7
def nakInvalid := 8
def nakAccess := 9
def readResponse := 10
end Msg

/-- The VLAN of the frames that Sacon sends on a port (R408). -/
def Dev.saconVlan (d : Dev) (q : Nat) : Option Nat := if d.flag R.SAC_NET_tagged [q] then some (d.rd R.SAC_NET_vid [q]) else none

/-- The Sacon engine sends a message on the Sacon sub-port of a port, in frames of PCP 7. -/
def Dev.sacSend (d : Dev) (q kind dst dport : Nat) (l : List Byte) : Dev :=
  d.emit (.sacon q (d.rd R.SAC_NET_subport [q]) (d.saconVlan q) kind dst dport l)

def Dev.qp (d : Dev) (c i : Nat) : Qp := tget {} d.sac.qp (16 * c + i)
def Dev.setQp (d : Dev) (c i : Nat) (x : Qp) : Dev := d.withSac fun s => { s with qp := tset {} s.qp (16 * c + i) x }

/-- The QPs of a controller in RTS. -/
def Dev.rtsCount (d : Dev) (c : Nat) : Nat := ((List.range 16).filter fun i => d.qpRts c i).length

/-- A queue pair enters a state; QP_STATE when it enters or leaves RTS; leaving it stops its rings (R412, R425). -/
def Dev.qpEnter (d : Dev) (c i st : Nat) : Dev :=
  let was := d.qpRts c i
  let d := d.wr R.SAC_QP_state [c, i] st
  let d := d.wr R.SAC_CTRL_qps [c] (d.rtsCount c)
  let d := if was ≠ d.qpRts c i then d.raise Ev.qpState (c * 16 + i) else d
  if was = true ∧ d.qpRts c i = false then
    (List.range 18).foldl (fun (d : Dev) r => if d.rd R.SAC_RING_qp [c, r] = i then d.askStop c r else d) d
  else d

/-- A controller is lost (R437): once until a QP enters RTS or a heartbeat comes. -/
def Dev.ctrlLost (d : Dev) (c : Nat) : Dev :=
  if tget false d.sac.gone c then d else
  let d := d.withSac fun s => { s with gone := tset false s.gone c true }
  let d := (d.wr R.SAC_CTRL_lost [c] 1).raise Ev.ctrlLost c
  let d := (List.range 8).foldl (fun (d : Dev) r => d.askStop c r) d
  if d.flag R.SAC_CTRL_rel_on_loss [c] = false then d
  else
    let n := 97 + c
    let d := match d.semWaitOf n, d.askingRing c with
      | some _, some r => (d.semWithdraw n).completeDesc c r Sts.aborted 0
      | _, _ => d
    let held := (List.range 256).filter fun s => d.semMine n s
    (held.foldl (fun (d : Dev) s => if d.semMine n s then d.semFree s else d) d).semSettleAll

/-- The binding of a controller ends with its last QP (R411). -/
def Dev.unbind (d : Dev) (c : Nat) : Dev :=
  if d.rtsCount c = 0 then (d.withSac fun s => { s with bind := tset 0 s.bind c 0 }).wr R.SAC_CTRL_bound [c] 0 else d

/-- The halter context of a controller is cleared at both ports. -/
def Dev.clearHalter (d : Dev) (c : Nat) : Dev :=
  let d := [0, 1].foldl (fun (d : Dev) q =>
    (((d.wr R.PRT_HALT_QP_valid [q, c] 0).wr R.PRT_HALT_QP_qpn [q, c] 0).wr R.PRT_HALT_QP_peer_qpn [q, c] 0).wr
      R.PRT_HALT_QP_epsn [q, c] 0) d
  d.withPrt fun p => { p with haltKey := tset 0 p.haltKey c 0, haltIp := tset 0 p.haltIp c 0 }

/-- A queue pair leaves RTS for good: the halter context goes with QP 15, the binding with the last one, and then the
controller is lost. -/
def Dev.qpLeave (d : Dev) (c i st : Nat) : Dev :=
  let was := d.qpRts c i
  let d := d.qpEnter c i st
  let d := if i = 15 then d.clearHalter c else d
  if was = true ∧ d.rtsCount c = 0 then (d.unbind c).ctrlLost c else d

/-- R473: DREQ on every connected QP, no controller lost; every ring that is enabled stops. -/
def Dev.closeQps (d : Dev) : Dev :=
  [0, 1].foldl (fun (d : Dev) c =>
    let d := (List.range 16).foldl (fun (d : Dev) i =>
      if d.qpRts c i then
        ((d.sacSend (d.qp c i).port Msg.dreq (d.qp c i).src (d.rd R.SAC_QP_peer_qpn [c, i]) []).qpEnter c i 0).setQp c i {}
      else d) d
    let d := (List.range 18).foldl (fun (d : Dev) r => if d.flag R.SAC_RING_en [c, r] then d.askStop c r else d) d
    (d.clearHalter c).unbind c) d

end Sys2Proof.Machine
end

