-- ==== Sys2Proof/Machine/Doorbells.lean ====
section
/-! DEFINITION. Chapter 12: doorbells, the control of rings, SAC_RING and the other registers that accept writes
only from their own controller. -/

namespace Sys2Proof.Machine

/-- The command ring's doorbell: the tail (R420, R425); applied, it is wake source DOORBELL (Table 14-6). -/
def Dev.commandBell (d : Dev) (c r v : Nat) : Dev :=
  let st := d.ringState c r
  if st ≠ 0 ∧ st ≠ 4 ∧ 2 ^ d.ringLog c r < idxDiff v (d.devIdx c r) then d.askStop c r
  else (((d.wr R.SAC_RING_host_idx [c, r] v).sacCount c 14).settleRing c r).fireWake 7 0

/-- A bad doorbell is counted; one that R422 drops raises DIRECT_ERR. -/
def Dev.badBell (d : Dev) (c : Nat) (tell : Bool) : Dev :=
  let d := d.sacCount c 15
  if tell then d.raise Ev.directErr c else d

/-- A command ring that waits for room in completion ring `k` goes on once there is room. -/
def Dev.roomAgain (d : Dev) (c k : Nat) : Dev :=
  (List.range 8).foldl (fun (d : Dev) r =>
    let x := d.ring c r
    if x.full = true ∧ d.rd R.SAC_RING_cpl_ring [c, r] = k ∧ d.ringRoom c (8 + k) 1 = true then
      let d := d.setRing c r { x with full := false }
      (if d.ringState c r = 3 then d.setRingState c r 2 else d).settleRing c r
    else d) d

/-- A completion or event ring's doorbell: consumed (R422). -/
def Dev.consumeBell (d : Dev) (c r v : Nat) : Dev :=
  let beyond := idxDiff v (d.devIdx c r)
  let behind := idxDiff v (d.hostIdx c r)
  if (0 < beyond ∧ beyond < 2 ^ 31) ∨ 2 ^ 31 ≤ behind then d.badBell c true
  else
    let d := (d.wr R.SAC_RING_host_idx [c, r] v).sacCount c 14
    if 8 ≤ r ∧ r < 16 then d.roomAgain c (r - 8) else d

/-- The heartbeat doorbell (R437). -/
def Dev.heartbeat (d : Dev) (c v : Nat) : Dev :=
  let d := d.withSac fun s => { s with gone := tset false s.gone c false, hbVal := tset 0 s.hbVal c v, hbFrom := tset 0 s.hbFrom c d.clock }
  (d.wr R.SAC_CTRL_last_hb [c] d.nowRaw).sacCount c 14

/-- The ring whose doorbell stands at an offset of the page (Table 12-4); 18 for the heartbeat. -/
def bellAt (off : Nat) : Option Nat :=
  if off < 0x90 then some (off / 8) else if off = 0xF8 then some 18 else none

/-- A doorbell unit is written: the index is in the low 32 bits; an unassigned offset is counted (R420). -/
def Dev.doorbell (d : Dev) (c off v : Nat) : Dev :=
  match bellAt off with
  | none => d.badBell c false
  | some r =>
    let v := v % 2 ^ 32
    if r < 8 then d.commandBell c r v else if r < 18 then d.consumeBell c r v else d.heartbeat c v

/-- What a doorbell unit reads as. -/
def Dev.doorbellRead (d : Dev) (c off : Nat) : Nat :=
  match bellAt off with
  | none => 0
  | some r => if r < 18 then d.hostIdx c r + 2 ^ 32 * d.devIdx c r else tget 0 d.sac.hbVal c

/-! ### SAC_RING_CTL and SAC_RING (R424, R425) -/

/-- SAC_RING_CTL.start: a STOPPED ring resumes. -/
def Dev.ringStart (d : Dev) (c r : Nat) : Dev × Nat :=
  if d.ringState c r ≠ 4 ∨ 17 < r then (d, Sts.busy)
  else
    let d := d.setRingState c r 1
    (if r < 8 then d.settleRing c r else if r < 16 then d.roomAgain c (r - 8) else d, Sts.ok)

/-- SAC_RING_CTL.stop. -/
def Dev.ringStop (d : Dev) (c r : Nat) : Dev × Nat :=
  if d.ringState c r = 0 ∨ d.ringState c r = 4 ∨ 17 < r then (d, Sts.busy) else (d.askStop c r, Sts.ok)

/-- A descriptor held by a ring completes with ABORTED without a record (R425); an acquire it waits for is
withdrawn. -/
def Dev.abortHeld (d : Dev) (c r : Nat) : Dev :=
  let x := d.ring c r
  match x.cur with
  | none => d
  | some cur =>
    let d := if cur.asked then d.semWithdraw (97 + c) else d
    let d := ((d.setRing c r { x with cur := none }).sacCount c 0).sacCount c 1
    if d.flag R.SAC_RING_err_evt [c, r] then d.raise Ev.cmdError (c * 8 + r) else d

/-- SAC_RING_CTL.reset. -/
def Dev.ringReset (d : Dev) (c r : Nat) : Dev × Nat :=
  if (d.ringState c r ≠ 0 ∧ d.ringState c r ≠ 4) ∨ 17 < r then (d, Sts.busy)
  else
    let d := ((d.abortHeld c r).setRing c r {}).semSettle (97 + c)
    ((d.wr R.SAC_RING_dev_idx [c, r] 0).wr R.SAC_RING_host_idx [c, r] 0, Sts.ok)

/-- A write of SAC_RING_CTL: start, stop, reset of the ring it names. -/
def writeRingCtl (c v : Nat) (d : Dev) : Dev × Nat :=
  let r := bits v 0 5
  let act := fun (p : Dev × Nat) (b : Nat) (f : Dev → Dev × Nat) =>
    if v.testBit b then (let x := f p.1; (x.1, worst p.2 x.2)) else p
  act (act (act (d, Sts.ok) 5 (·.ringStart c r)) 6 (·.ringStop c r)) 7 (·.ringReset c r)

/-- SAC_RING.en has changed: a ring enabled is IDLE and goes on by its indices; one disabled gives back what it
fetched. -/
def Dev.ringEnabled (d : Dev) (c r : Nat) (was : Bool) : Dev :=
  let on := d.flag R.SAC_RING_en [c, r]
  if on = was then d
  else if on then
    let d := d.setRingState c r 1
    if r < 8 then d.settleRing c r else if r < 16 then d.roomAgain c (r - 8) else d
  else
    let x := d.ring c r
    let d := d.wr R.SAC_RING_dev_idx [c, r] (d.devIdx c r + 2 ^ 32 - x.fetched.length)
    (d.setRing c r { x with fetched := [], full := false, stopping := false }).setRingState c r 0

end Sys2Proof.Machine
end

