-- ==== Sys2Proof/Machine/Halters.lean ====
section
/-! DEFINITION. Chapter 03: the actions of executed halters (Table 03-5). -/

namespace Sys2Proof.Machine

/-- The width of the target bits an action uses. -/
def targetWidth (action : Nat) : Nat :=
  if action ≤ 4 then 8 else if action ≤ 6 then 15 else if action = 7 then 96 else 4

/-- A bit of PRT_HALT_STATE of the sub-port that target bit `b` names, set or cleared. -/
def Dev.portStop (d : Dev) (f : Field) (b : Nat) (on : Bool) : Dev :=
  if on then d.setBit f [b / 4] (b % 4) else d.clearBit f [b / 4] (b % 4)

/-- The effect of an action on its targets from the action time in beads, and the result (R111 to R114). -/
def Dev.haltAction (d : Dev) (action target at_ : Nat) : Dev × Nat :=
  let ports := fun (f : Field) (on : Bool) =>
    ((setBitsOf 8 target).foldl (fun d b => d.portStop f b on) d, 0)
  match action with
  | 1 => ports R.PRT_HALT_STATE_egr_stop true
  | 2 => ports R.PRT_HALT_STATE_egr_stop false
  | 3 => ports R.PRT_HALT_STATE_ingr_drop true
  | 4 => ports R.PRT_HALT_STATE_ingr_drop false
  | 5 => (d.streamStop (bits target 14 1) (bits target 0 14), 0)
  | 6 => (d.streamRelease (bits target 14 1) (bits target 0 14), 0)
  | 7 => ((setBitsOf 96 target).foldl (fun d n => if d.droveRuns n then d.haltReq n 0 else d) d, 0)
  | _ => (setBitsOf 4 target).foldl (fun (x : Dev × Nat) s =>
      let r := x.1.salvoCancel s at_
      (r.1, if r.2 = Sts.alreadyCommitted then 1 else x.2)) (d, 0)

/-- The IP version of the address of a controller's halter queue pair. -/
def Dev.haltIpVer (d : Dev) (c : Nat) : Nat := if tget 0 d.prt.haltIp c < 2 ^ 32 then 4 else 6

/-- The oldest halter of port `q` acts, `fine` steps of 2,048 beads after the marker, when its action is
`action` (R109 to R112, Table 03-3). -/
def halterAct (q action fine : Nat) (d : Dev) : Dev :=
  match tget [] d.prt.halters q with
  | [] => d
  | h :: rest =>
    if bits h.record 16 8 ≠ action then d else
    let d := d.withPrt fun p => { p with halters := tset [] p.halters q rest }
    let at_ := d.stampAt fine
    let time := beadsToRaw at_
    let seq := bits h.record 32 32
    let target := bits h.record 64 96
    let reply := fun (d : Dev) => d.halterReply q h.sp (d.haltIpVer h.ctrl) h.mac h.psn 0
    let d := d.fireWake 8 0
    if target / 2 ^ targetWidth action ≠ 0 then reply (d.halterReject q h.ctrl time seq action 3)
    else
      let (d, result) := d.haltAction action target at_
      let d := (d.halterLog q h.ctrl time seq action result).bumpWrap R.PRT_HALT_CNT_accepted [q]
      reply (d.raiseAt (Ev.port q 2) (halterInfo h.ctrl action result) time)

/-- A write of 1 to bits of PRT_HALT_STATE clears them (R112). -/
def haltStateClear (q v : Nat) (d : Dev) : Dev :=
  let d := d.wr R.PRT_HALT_STATE_egr_stop [q] (d.rd R.PRT_HALT_STATE_egr_stop [q] &&& (15 - bits v 0 4))
  d.wr R.PRT_HALT_STATE_ingr_drop [q] (d.rd R.PRT_HALT_STATE_ingr_drop [q] &&& (15 - bits v 4 4))

/-! ### The commands -/

/-- EGRESS_STOP. -/
def execEgressStop (q : Fin 2) (fine : Nat) (s : State) : Host.Outcome State Fault Refusal :=
  run s (halterAct q 1 fine)

/-- EGRESS_RELEASE. -/
def execEgressRelease (q : Fin 2) (fine : Nat) (s : State) : Host.Outcome State Fault Refusal :=
  run s (halterAct q 2 fine)

/-- INGRESS_DROP. -/
def execIngressDrop (q : Fin 2) (fine : Nat) (s : State) : Host.Outcome State Fault Refusal :=
  run s (halterAct q 3 fine)

/-- INGRESS_RELEASE. -/
def execIngressRelease (q : Fin 2) (fine : Nat) (s : State) : Host.Outcome State Fault Refusal :=
  run s (halterAct q 4 fine)

/-- STREAM_STOP. -/
def execStreamStop (q : Fin 2) (fine : Nat) (s : State) : Host.Outcome State Fault Refusal :=
  run s (halterAct q 5 fine)

/-- STREAM_RELEASE. -/
def execStreamRelease (q : Fin 2) (fine : Nat) (s : State) : Host.Outcome State Fault Refusal :=
  run s (halterAct q 6 fine)

/-- DROVER_HALT. -/
def execDroverHalt (q : Fin 2) (fine : Nat) (s : State) : Host.Outcome State Fault Refusal :=
  run s (halterAct q 7 fine)

/-- HALTER_SALVO_CANCEL. -/
def execHalterSalvoCancel (q : Fin 2) (fine : Nat) (s : State) : Host.Outcome State Fault Refusal :=
  run s (halterAct q 8 fine)

/-- HALT_STATE_CLEAR. -/
def execHaltStateClear (inp : Fin 101) (q : Fin 2) (v : BitVec 8) (s : State) :
    Host.Outcome State Fault Refusal :=
  runOn (76 + q) ⟨inp, false⟩ s fun d => (haltStateClear q v.toNat d).complete ⟨inp, false⟩ Sts.ok 0

end Sys2Proof.Machine
end

