-- ==== Sys2Proof/Machine/Ddr.lean ====
section
/-! DEFINITION. Chapter 11: the DDR4 memory subsystem: address interleave, start-up, line accesses, ECC,
patrol scrub, refresh, self-refresh. -/

namespace Sys2Proof.Machine

def Dev.withDdr (d : Dev) (f : DdrSt → DdrSt) : Dev := { d with ddr := f d.ddr }

def ddrBase : Nat := 0x1000000000

/-- The channel and channel offset of a DDR4 address (R37). -/
def chanOf (a : Nat) : Nat × Nat :=
  let off := a - ddrBase
  let g := off / 512
  let l := g / 12
  (4 * ((g % 12 / 4 + l) % 3) + g % 4, l * 512 + off % 512)

/-- The address of a channel offset: the inverse of R37. -/
def addrOf (c choff : Nat) : Nat :=
  let l := choff / 512
  ddrBase + (12 * l + 4 * ((c / 4 + 3 - l % 3) % 3) + c % 4) * 512 + choff % 512

/-- Capacity of one channel in GiB as DDR_CFG names it (Table 11-1); above 16 the configuration is outside
the table. -/
def Dev.cfgGib (d : Dev) : Nat :=
  let den := d.rd R.DDR_CFG_density
  let den := if den = 3 then 1 else den
  4 * 2 ^ den * 2 ^ d.rd R.DDR_CFG_x4 * 2 ^ d.rd R.DDR_CFG_ranks2

/-- The first address above the DDR4 range: the whole 192 GiB until DDR_CTL.init names a capacity (R36). -/
def Dev.ddrEnd (d : Dev) : Nat :=
  let g := d.rd R.DDR_STATUS_chan_gib
  ddrBase + 12 * (if g = 0 then 16 else g) * 2 ^ 30

def Dev.ddrReady (d : Dev) : Bool := d.flag R.SYS_READY_ddr_ecc

/-- Channel counter `k` counts (Table 11-6). -/
def Dev.ddrCount (d : Dev) (c k : Nat) (n : Nat := 1) : Dev := d.bumpWrap R.DDR_CH_CNT_count [c, k] n

def ddrEvtFields : List Field :=
  [R.DDR_CH_EVT_corr_thr, R.DDR_CH_EVT_uncorr, R.DDR_CH_EVT_train_fail, R.DDR_CH_EVT_scrub_pass]
def ddrEnFields : List Field :=
  [R.DDR_CH_EVT_EN_corr_thr, R.DDR_CH_EVT_EN_uncorr, R.DDR_CH_EVT_EN_train_fail, R.DDR_CH_EVT_EN_scrub_pass]

/-- Cause bit `b` of channel `c` sets; newly set and enabled, it raises DDRc (R449). -/
def Dev.ddrCause (d : Dev) (c b : Nat) : Dev :=
  let f := ddrEvtFields.getD b R.DDR_CH_EVT_uncorr
  let e := ddrEnFields.getD b R.DDR_CH_EVT_EN_uncorr
  if d.flag f [c] then d
  else
    let d := d.wr f [c] 1
    if d.flag e [c] then d.raise (Ev.ddr + c) (2 ^ b) else d

/-! ### The code (R395, R396) -/

/-- Multiplication by x in GF(2^8) with the polynomial 0x11D. -/
def gfDouble (a : Nat) : Nat := if 128 ≤ a then (2 * a) ^^^ 0x11D else 2 * a

/-- The product in GF(2^8), over the low `n` bits of `b`. -/
def gfMulBits (n a b : Nat) : Nat :=
  match n with
  | 0 => 0
  | n + 1 => (if b.testBit 0 then a else 0) ^^^ gfMulBits n (gfDouble a) (b / 2)
def gfMul (a b : Nat) : Nat := gfMulBits 8 a b

/-- α^n for α = 2. -/
def gfPow (n : Nat) : Nat :=
  match n with
  | 0 => 1
  | n + 1 => gfDouble (gfPow n)

/-- A polynomial, lowest coefficient first, times (x + r). -/
def polyMulRoot (p : List Nat) (r : Nat) : List Nat :=
  List.zipWith (· ^^^ ·) (0 :: p) (p.map (gfMul r) ++ [0])

/-- The generator g(x), lowest coefficient first. -/
def rsGen : List Nat := (List.range 8).foldl (fun p i => polyMulRoot p (gfPow i)) [1]

/-- The remainder register after one data symbol: highest power first in time, lowest coefficient first in the
list. -/
def rsStep (r : List Nat) (s : Nat) : List Nat :=
  let top := r.getLastD 0 ^^^ s
  List.zipWith (· ^^^ ·) (0 :: r.dropLast) ((rsGen.take 8).map (gfMul top))

/-- The check symbols K_0 to K_7 of the data symbols D_0 to D_63. -/
def rsCheck (l : List Nat) : List Nat := l.reverse.foldl rsStep [0, 0, 0, 0, 0, 0, 0, 0]

/-- Data symbol D_d of a line (R396): bits [3:0] from beat 2p, bits [7:4] from beat 2p + 1, of nibble n, for
d = 16p + n. -/
def dataSymbol (line : List Byte) (i : Nat) : Nat :=
  let p := i / 16
  let n := i % 16
  let nib := fun (beat : Nat) => (line.getD (8 * beat + n / 2) 0).toNat / 16 ^ (n % 2) % 16
  nib (2 * p) + 16 * nib (2 * p + 1)

/-- The check symbols of a line. -/
def lineCheck (line : List Byte) : List Nat := rsCheck ((List.range 64).map (dataSymbol line))

/-- The nibble that carries codeword symbol c_j. -/
def symbolNibble (j : Nat) : Nat := if j < 8 then 16 + j % 2 else (j - 8) % 16

/-- The symbols in error of a read: those whose difference is not zero, each once. -/
def badSymbols (errs : List (Nat × Nat)) : List Nat :=
  (List.range 72).filter fun j => errs.any fun e => e.1 == j && e.2 % 256 != 0

/-! ### Lines -/

/-- An error of a line is logged (DDR_ERR_LOG). -/
def Dev.ddrLog (d : Dev) (c choff : Nat) (uncorr scrub : Bool) (sym nib : Nat) : Dev :=
  ((((((d.wr R.DDR_ERR_LOG_choff [c] (choff / 64 * 64)).wr R.DDR_ERR_LOG_uncorr [c] (bit uncorr)).wr
    R.DDR_ERR_LOG_scrub [c] (bit scrub)).wr R.DDR_ERR_LOG_valid [c] 1).wr R.DDR_ERR_LOG_symbols [c] sym).wr
    R.DDR_ERR_LOG_nibbles [c] nib).wr R.DDR_ERR_LOG_time [c] d.nowRaw

/-- A corrected symbol counts in its nibble; a count that reaches the threshold sets the cause. -/
def Dev.countNibble (d : Dev) (c rank n : Nat) : Dev :=
  let k := 18 * rank + n
  let old := d.rd R.DDR_NIB_CNT_count [c, k]
  let d := d.bump R.DDR_NIB_CNT_count [c, k]
  let thr := d.rd R.DDR_CH_THR_thr [c]
  if thr ≠ 0 ∧ old < thr ∧ thr ≤ d.rd R.DDR_NIB_CNT_count [c, k] then d.ddrCause c 0 else d

/-- A read of the line at `a` that finds symbols in error (R397, R399, R400): whether the data is good. -/
def Dev.ddrReadLine (d : Dev) (a : Nat) (errs : List (Nat × Nat)) (scrub : Bool) : Dev × Bool :=
  let a := a / 64 * 64
  let (c, choff) := chanOf a
  let syms := badSymbols errs
  let d := d.ddrCount c 0
  if a ∈ d.ddr.bad ∨ 4 < syms.length then
    let d := d.withDdr fun x => { x with bad := if a ∈ x.bad then x.bad else x.bad ++ [a] }
    (((d.ddrLog c choff true scrub 0 0).ddrCount c 4).ddrCause c 1, false)
  else if syms.isEmpty then (d, true)
  else
    let nibs := syms.map symbolNibble
    let d := d.ddrLog c choff false scrub syms.length (nibs.foldl withBit 0)
    let d := d.ddrCount c 3
    let rank := if d.flag R.DDR_CFG_ranks2 then bits choff 17 1 else 0
    let d := nibs.foldl (fun (d : Dev) n => d.countNibble c rank n) d
    let back := scrub || d.flag R.DDR_CFG_wb_demand
    (if back then d.ddrCount c 1 else d, true)

/-- The channel of an access is awake: a sleeping one wakes (R25). -/
def Dev.ddrTouch (d : Dev) (a : Nat) : Dev :=
  let c := (chanOf a).1
  let d := d.withDdr fun x => { x with lastAcc := tset 0 x.lastAcc c (d.clock + 1) }
  if d.rd R.DDR_CH_STAT_state [c] = 4 then (d.wr R.DDR_CH_STAT_state [c] 3).ddrCount c 7 else d

/-- The pieces of a range that lie in one line each: address and length. -/
def linePieces (fuel a len : Nat) : List (Nat × Nat) :=
  match fuel with
  | 0 => []
  | fuel + 1 =>
    if len = 0 then []
    else
      let n := min len (64 - a % 64)
      (a, n) :: linePieces fuel (a + n) (len - n)

/-- A write within one line (R398, R399): its status. -/
def Dev.ddrWritePiece (d : Dev) (a : Nat) (l : List Byte) (errs : List (Nat × Nat)) : Dev × Nat :=
  let c := (chanOf a).1
  let d := d.ddrTouch a
  if l.length = 64 then
    ((d.withDdr fun x => { x with bad := x.bad.filter (· ≠ a) }).setBytes a l |>.ddrCount c 1, Sts.ok)
  else
    let d := d.ddrCount c 2
    let (d, good) := d.ddrReadLine a errs false
    if good then ((d.setBytes a l).ddrCount c 1, Sts.ok) else (d.ddrCount c 5, Sts.uncorrectable)

/-- The channels a range of lines touches count an access refused under R391. -/
def Dev.countNotReady (d : Dev) (a len : Nat) : Dev :=
  (linePieces (len / 64 + 2) a len).foldl (fun (d : Dev) p => d.ddrCount (chanOf p.1).1 8) d

/-- The staging range of the configuration controller (R338). -/
def inStaging (a : Nat) : Bool := decide (0x1055000000 ≤ a ∧ a < 0x1055800000)

/-- A range touches a set of addresses that is an interval. -/
def touches (p : Nat → Bool) (lo a len : Nat) : Bool := p a || (len != 0 && p (a + len - 1)) || decide (a < lo ∧ lo < a + len)

/-- A read of `len` bytes of DDR4 by a requester other than the units that own its ranges: status and bytes.
A piece whose line is uncorrectable reads as zero. -/
def Dev.ddrRead (d : Dev) (a len : Nat) (errs : List (Nat × Nat) := []) : Dev × Nat × List Byte :=
  if d.ddrEnd < a + len then (d, Sts.unmapped, List.replicate len 0)
  else if touches inStaging 0x1055000000 a len then (d, Sts.protected_, List.replicate len 0)
  else if d.ddrReady = false then (d.countNotReady a len, Sts.notReady, List.replicate len 0)
  else
    (linePieces (len / 64 + 2) a len).foldl (fun (r : Dev × Nat × List Byte) p =>
      let (d, st, l) := r
      let (d, good) := (d.ddrTouch p.1).ddrReadLine p.1 errs false
      if good then (d, st, l ++ d.bytes p.1 p.2)
      else (d, worst st Sts.uncorrectable, l ++ List.replicate p.2 0)) (d, Sts.ok, [])

/-- A write of DDR4 by a requester other than the units that own its ranges (R116, R151, R338): its status. -/
def Dev.ddrWrite (d : Dev) (a : Nat) (l : List Byte) (errs : List (Nat × Nat) := []) : Dev × Nat :=
  if d.ddrEnd < a + l.length then (d, Sts.unmapped)
  else if touches inRouteRegion ddrBase a l.length then (d.rteCount 11, Sts.protected_)
  else if touches inSidRegion 0x1054000000 a l.length then (d.bumpWrap R.MED_CNT_count [15], Sts.protected_)
  else if touches inStaging 0x1055000000 a l.length then (d, Sts.protected_)
  else if d.ddrReady = false then (d.countNotReady a l.length, Sts.notReady)
  else
    let r := (linePieces (l.length / 64 + 2) a l.length).foldl (fun (r : Dev × Nat × List Byte) p =>
      let (d, st) := r.1.ddrWritePiece p.1 (r.2.2.take p.2) errs
      (d, worst r.2.1 st, r.2.2.drop p.2)) (d, Sts.ok, l)
    (r.1, r.2.1)

/-! ### Start-up (R390 to R393) -/

/-- A write of DDR_CTL.init: DDR_CFG is frozen and every channel trains. -/
def ddrInit (d : Dev) : Dev × Nat :=
  if d.ddr.inited then (d, Sts.busy) else
  let d := d.withDdr fun x => { x with inited := true }
  let g := d.cfgGib
  let d := if g ≤ 16 then d.wr R.DDR_STATUS_chan_gib [] g else d
  ((List.range 12).foldl (fun (d : Dev) c => d.wr R.DDR_CH_STAT_state [c] 1) d, Sts.ok)

/-- A write of DDR_CTL.train: failed channels train again. -/
def ddrRetrain (d : Dev) : Dev × Nat :=
  let l := (List.range 12).filter fun c => d.rd R.DDR_CH_STAT_state [c] == 5
  if l.isEmpty then (d, Sts.busy) else
  (l.foldl (fun (d : Dev) c =>
    (d.wr R.DDR_CH_STAT_state [c] 1).clearBit R.DDR_STATUS_failed [] c) d, Sts.ok)

/-- Training ends: a channel fails at a step and rank, or goes on to initialisation; with none failed the
trained flag sets. -/
def ddrTrainDone (fails : List (Nat × Nat × Nat)) (d : Dev) : Dev :=
  let l := (List.range 12).filter fun c => d.rd R.DDR_CH_STAT_state [c] == 1
  if l.isEmpty then d else
  let bad := decide (16 < d.cfgGib)
  let d := l.foldl (fun (d : Dev) c =>
    let fail := fun (d : Dev) (step rank : Nat) =>
      ((((d.wr R.DDR_CH_STAT_state [c] 5).wr R.DDR_CH_STAT_fail_step [c] step).wr R.DDR_CH_STAT_fail_rank [c]
        rank).setBit R.DDR_STATUS_failed [] c).ddrCause c 2
    match fails.find? fun f => f.1 == c with
    | some f => fail d f.2.1 f.2.2
    | none =>
      if bad then
        let (d, v) := d.draw 4
        fail d (v % 8) (v / 8)
      else d.wr R.DDR_CH_STAT_state [c] 2) d
  if d.rd R.DDR_STATUS_failed = 0 ∧ d.rd R.SYS_READY_ddr_trained = 0 then
    (d.wr R.DDR_STATUS_trained [] 1).setReady 6 1
  else d

/-- Every line of the channels in initialisation holds zero; with every channel active the ECC flag sets. -/
def ddrInitDone (d : Dev) : Dev :=
  let l := (List.range 12).filter fun c => d.rd R.DDR_CH_STAT_state [c] == 2
  if l.isEmpty then d else
  let gone := fun (a : Nat) => decide (ddrBase ≤ a ∧ a < d.ddrEnd) && l.contains (chanOf a).1
  let d := { d with mem := d.mem.filter fun c => !gone c.1 }
  let d := d.withDdr fun x => { x with bad := x.bad.filter fun a => !gone a }
  let d := l.foldl (fun (d : Dev) c =>
    (d.wr R.DDR_CH_STAT_state [c] 3).withDdr fun x =>
      { x with scrubAt := tset 0 x.scrubAt c 0, scrubFrom := tset 0 x.scrubFrom c d.clock }) d
  if d.rd R.DDR_STATUS_trained = 1 then (d.wr R.DDR_STATUS_ecc_ready [] 1).setReady 7 1 else d

/-! ### Demand accesses, scrub, refresh, self-refresh -/

/-- One access within one line; what an uncorrectable read returns is a free value. -/
def Dev.ddrDo (d : Dev) (x : DdrAcc) : Dev :=
  if x.write then
    let (d, st) := d.ddrWrite x.addr (x.data.take (64 - x.addr % 64)) x.errs
    d.complete ⟨x.inp, false⟩ st 0
  else
    let (d, st, l) := d.ddrRead x.addr (min x.len (64 - x.addr % 64)) x.errs
    if st = Sts.uncorrectable then
      let (d, v) := d.draw (8 * x.len)
      d.complete ⟨x.inp, false⟩ st v
    else d.complete ⟨x.inp, false⟩ st (ofLe l)

/-- A demand access: it waits for the wake of a channel in self-refresh. -/
def ddrAccess (x : DdrAcc) (d : Dev) : Dev :=
  if x.addr < ddrBase ∨ d.ddrEnd ≤ x.addr then d else
  let c := (chanOf x.addr).1
  if d.island (79 + c) ≠ 0 then d.complete ⟨x.inp, false⟩ Sts.poweredOff 0
  else if d.rd R.DDR_CH_STAT_state [c] = 4 then
    d.withDdr fun y => { y with waiting := tset [] y.waiting c (tget [] y.waiting c ++ [x]) }
  else d.ddrDo x

/-- The wake of a channel completes and the accesses that waited proceed. -/
def selfRefreshWake (c : Nat) (d : Dev) : Dev :=
  let l := tget [] d.ddr.waiting c
  if d.rd R.DDR_CH_STAT_state [c] ≠ 4 ∨ l.isEmpty = true ∨ d.island (79 + c) ≠ 0 then d else
  let d := (d.wr R.DDR_CH_STAT_state [c] 3).ddrCount c 7
  let d := d.withDdr fun y => { y with waiting := tset [] y.waiting c [] }
  l.foldl (fun (d : Dev) x => d.ddrDo x) d

/-- A channel that has had no access for idle_us enters self-refresh (R404). -/
def selfRefreshEntry (c : Nat) (d : Dev) : Dev :=
  let us := d.rd R.DDR_SR_idle_us
  if us = 0 ∨ d.rd R.DDR_CH_STAT_state [c] ≠ 3 ∨ d.clock + 1 < tget 0 d.ddr.lastAcc c + us * 65536000 then d
  else d.wr R.DDR_CH_STAT_state [c] 4

/-- Patrol scrub reads the next line of a channel (R401, R402). -/
def patrolScrub (c : Nat) (errs : List (Nat × Nat)) (d : Dev) : Dev :=
  if d.rd R.DDR_SCRUB_period_h = 0 ∨ d.rd R.DDR_CH_STAT_state [c] ≠ 3 ∨ d.ddrReady = false then d else
  let at_ := tget 0 d.ddr.scrubAt c
  let d := (d.ddrReadLine (addrOf c at_) errs true).1
  let d := d.ddrCount c 6
  if at_ + 64 < d.rd R.DDR_STATUS_chan_gib * 2 ^ 30 then
    d.withDdr fun x => { x with scrubAt := tset 0 x.scrubAt c (at_ + 64) }
  else
    let from_ := tget 0 d.ddr.scrubFrom c
    let d := d.withDdr fun x => { x with scrubAt := tset 0 x.scrubAt c 0, scrubFrom := tset 0 x.scrubFrom c d.clock }
    ((d.bumpWrap R.DDR_SCRUB_STAT_passes []).wr R.DDR_SCRUB_STAT_last_s [] ((d.clock - from_) / beadsPerSec)).ddrCause c 3

/-- tREFI and tRFC in ns (R403). -/
def Dev.tRefi (d : Dev) : Nat := if d.flag R.DDR_REF_mode then 3900 else 7800
def Dev.tRfc (d : Dev) : Nat :=
  match d.rd R.DDR_CFG_density with
  | 0 => 260
  | 2 => 550
  | _ => 350

/-- A refresh falls due: accesses of the channel wait until its tRFC ends. -/
def refresh (c : Nat) (d : Dev) : Dev :=
  if d.rd R.DDR_CH_STAT_state [c] ≠ 3 ∨ d.clock < tget 0 d.ddr.refAt c + d.tRefi * 65536 then d else
  d.withDdr fun x => { x with refAt := tset 0 x.refAt c d.clock, refEnd := tset 0 x.refEnd c (d.clock + d.tRfc * 65536) }

/-! ### The commands -/

/-- DDR_INIT. -/
def execDdrInit (inp : Fin 101) (s : State) : Host.Outcome State Fault Refusal :=
  runOn 106 ⟨inp, false⟩ s fun d => let r := ddrInit d; r.1.complete ⟨inp, false⟩ r.2 0

/-- DDR_TRAIN_DONE: the channels that fail, each with its step and rank. -/
def execDdrTrainDone (fails : List (Fin 12 × BitVec 3 × BitVec 1)) (s : State) :
    Host.Outcome State Fault Refusal :=
  run s (ddrTrainDone (fails.map fun f => (f.1.val, f.2.1.toNat, f.2.2.toNat)))

/-- DDR_INIT_DONE. -/
def execDdrInitDone (s : State) : Host.Outcome State Fault Refusal := run s ddrInitDone

/-- DDR_RETRAIN. -/
def execDdrRetrain (inp : Fin 101) (s : State) : Host.Outcome State Fault Refusal :=
  runOn 106 ⟨inp, false⟩ s fun d => let r := ddrRetrain d; r.1.complete ⟨inp, false⟩ r.2 0

/-- DDR_ACCESS. -/
def execDdrAccess (inp : Fin 101) (write : Bool) (addr : BitVec 38) (len : Fin 65) (data : List Byte)
    (errs : List (Fin 72 × Byte)) (s : State) : Host.Outcome State Fault Refusal :=
  run s (ddrAccess ⟨inp, write, addr.toNat, len, data, errs.map fun e => (e.1.val, e.2.toNat)⟩)

/-- PATROL_SCRUB. -/
def execPatrolScrub (c : Fin 12) (errs : List (Fin 72 × Byte)) (s : State) :
    Host.Outcome State Fault Refusal := run s (patrolScrub c (errs.map fun e => (e.1.val, e.2.toNat)))

/-- REFRESH. -/
def execRefresh (c : Fin 12) (s : State) : Host.Outcome State Fault Refusal := run s (refresh c)

/-- SELF_REFRESH_ENTRY. -/
def execSelfRefreshEntry (c : Fin 12) (s : State) : Host.Outcome State Fault Refusal := run s (selfRefreshEntry c)

/-- SELF_REFRESH_WAKE. -/
def execSelfRefreshWake (c : Fin 12) (s : State) : Host.Outcome State Fault Refusal := run s (selfRefreshWake c)

end Sys2Proof.Machine
end

