-- ==== Sys2Proof/Machine/Nvc.lean ====
section
/-! DEFINITION. Chapter 10: the non-volatile array and its controller. The array's contents stand in the
memory at their aperture addresses. -/

namespace Sys2Proof.Machine

def Dev.withNvc (d : Dev) (f : NvcSt → NvcSt) : Dev := { d with nvc := f d.nvc }

def nvBase : Nat := 0x10000000
/-- The address lies in the array outside the Tally plane (R34, R35). -/
def inNv (a : Nat) : Bool := decide (0x10000000 ≤ a ∧ a < 0x2F000000)
def inTallyNv (a : Nat) : Bool := decide (0x2F000000 ≤ a ∧ a < 0x30000000)
def bankOf (a : Nat) : Nat := (a - nvBase) / 0x8000000
def bankBase (b : Nat) : Nat := nvBase + b * 0x8000000
def globalSector (a : Nat) : Nat := (a - nvBase) / 0x40000
def codewordOf (a : Nat) : Nat := (a - nvBase) / 1024

/-- NV counter `k` counts (Table 10-10). -/
def Dev.nvCount (d : Dev) (k : Nat) (n : Nat := 1) : Dev := d.bumpWrap R.NVC_CNT_count [k] n

/-- An NV event: info is bank; [15:8] input. A requester that is no arbitration input (above 100) shows a free
value there. -/
def Dev.nvEvent (d : Dev) (src bank inp : Nat) : Dev :=
  if inp ≤ 100 then d.raise src (bank + 256 * inp)
  else
    let (d, v) := d.draw 8
    d.raise src (bank + 256 * v)

/-! ### The status word (Table 10-4) -/

def Dev.nvStat (d : Dev) (b : Nat) : Nat := d.rd R.NVC_BANK_STAT_status [b]
def Dev.nvBusy (d : Dev) (b : Nat) : Bool := (d.nvStat b).testBit 0
def Dev.setNvStat (d : Dev) (b busy op result pulses sector owner : Nat) : Dev :=
  d.wr R.NVC_BANK_STAT_status [b]
    (busy + op * 2 + result * 8 + pulses * 64 + sector * 1024 + owner * 2 ^ 19 + 0x4E565354 * 2 ^ 32)

/-- What a data read of a busy bank returns for `len` bytes at `a` (R365). -/
def Dev.nvStatusBytes (d : Dev) (a len : Nat) : List Byte :=
  let w := leBytes 8 (d.nvStat (bankOf a))
  (List.range len).map fun i => w.getD ((a + i) % 8) 0

/-! ### Senses (R358 to R361) -/

def Dev.weakThr (d : Dev) : Nat := min 40 (max 1 (d.rd R.NVC_CFG_weak_thr))

/-- A weak codeword enters the FIFO of 16, or is lost; NV_WEAK is raised. -/
def Dev.nvWeak (d : Dev) (cw inp : Nat) : Dev :=
  let d := if d.nvc.weak.length < 16 then d.withNvc fun x => { x with weak := x.weak ++ [cw] } else d.nvCount 14
  d.nvEvent Ev.nvWeak (cw / 131072) inp

/-- The record of a codeword whose first sense did not decode. -/
def Dev.nvLog (d : Dev) (cw bits retries uncorr : Nat) : Dev :=
  (((((d.wr R.NVC_ERR_LOG_cw [] cw).wr R.NVC_ERR_LOG_bits [] bits).wr R.NVC_ERR_LOG_retries [] retries).wr
    R.NVC_ERR_LOG_uncorr [] uncorr).wr R.NVC_ERR_LOG_valid [] 1).wr R.NVC_ERR_LOG_time [] d.nowRaw

/-- A codeword is sensed and decoded: whether the data is good. -/
def Dev.nvSense (d : Dev) (cw inp : Nat) (f : NvFind) : Dev × Bool :=
  let d := if f.sensed then d.nvCount 0 else d
  let fixed := fun (d : Dev) (n : Nat) => if n = 0 then d else (d.nvCount 1).nvCount 2 n
  match f.first with
  | some n =>
    let d := fixed d (min n 40)
    (if d.weakThr ≤ n then d.nvWeak cw inp else d, true)
  | none =>
    if d.flag R.NVC_CFG_retry_en then
      match f.retry with
      | some (k, n) =>
        let k := min 7 (max 1 k)
        let d := fixed (d.nvCount 3 k) (min n 40)
        ((d.nvLog cw (min n 40) k 0).nvWeak cw inp, true)
      | none =>
        (((d.nvCount 3 7).nvCount 4).nvLog cw 0 7 1 |>.nvEvent Ev.nvUncorr (cw / 131072) inp, false)
    else ((d.nvCount 4).nvLog cw 0 0 1 |>.nvEvent Ev.nvUncorr (cw / 131072) inp, false)

/-- The codewords of a range sensed; what the sense finds is said of the first. -/
def Dev.nvSenses (d : Dev) (a len inp : Nat) (f : NvFind) : Dev × Bool :=
  let first := codewordOf a
  let n := if len = 0 then 0 else codewordOf (a + len - 1) - first
  let r := d.nvSense first inp f
  let good : NvFind := { sensed := f.sensed }
  ((List.range n).foldl (fun (d : Dev) i => (d.nvSense (first + 1 + i) inp good).1) r.1, r.2)

/-- The read mode of an input for a bank: 0 normal. -/
def Dev.nvMode (d : Dev) (inp b : Nat) : Nat :=
  if d.rd R.NVC_REQ_SEQ_rmode_bank [inp] = b then d.rd R.NVC_REQ_SEQ_rmode [inp] else 0

/-- A data read of the array within one bank: status and bytes (R363, R365, R366, R373). -/
def Dev.nvRead (d : Dev) (inp a len : Nat) (f : NvFind := {}) : Dev × Nat × List Byte :=
  let b := bankOf a
  let asked := tget 0 d.nvc.statNext inp = b + 1
  let d := if asked then d.withNvc fun x => { x with statNext := tset 0 x.statNext inp 0 } else d
  if d.nvBusy b then (d.nvCount 5, Sts.nvBusy, d.nvStatusBytes a len)
  else if asked then (d.nvCount 5, Sts.ok, d.nvStatusBytes a len)
  else if d.nvMode inp b ≠ 0 then
    let d := if f.sensed then d.nvCount 0 else d
    (d, Sts.ok, if f.raw.length = len then f.raw else d.bytes a len)
  else
    let (d, good) := d.nvSenses a len inp f
    if good then (d, Sts.ok, d.bytes a len)
    else if f.raw.length = len then (d, Sts.uncorrectable, f.raw)
    else
      let (d, v) := d.draw (8 * len)
      (d, Sts.uncorrectable, leBytes len v)

/-! ### Command sequences (R366 to R373) -/

def Dev.seqState (d : Dev) (inp : Nat) : Nat := d.rd R.NVC_REQ_SEQ_state [inp]
def Dev.setSeq (d : Dev) (inp st b : Nat) : Dev :=
  (d.wr R.NVC_REQ_SEQ_state [inp] st).wr R.NVC_REQ_SEQ_bank [inp] b

/-- Program buffers an input holds for a sequence not yet confirmed are released. -/
def Dev.releaseBuf (d : Dev) (inp : Nat) : Dev :=
  if d.seqState inp = 3 then d.wr R.NVC_BUF_OWN_valid [d.rd R.NVC_REQ_SEQ_bank [inp]] 0 else d

/-- A sequence ends with SEQ_ERR. -/
def Dev.seqErr (d : Dev) (inp b : Nat) : Dev :=
  let d := (d.releaseBuf inp).wr R.NVC_REQ_SEQ_state [inp] 0
  ((d.wr R.NVC_REQ_SEQ_result [inp] 4).nvCount 12).nvEvent Ev.nvSeqErr b inp

/-- A sequence ends with BANK_BUSY. -/
def Dev.seqBusy (d : Dev) (inp : Nat) : Dev :=
  let d := (d.releaseBuf inp).wr R.NVC_REQ_SEQ_state [inp] 0
  (d.wr R.NVC_REQ_SEQ_result [inp] 3).nvCount 13

/-- What a write of an input to the aperture is for its sequence. -/
inductive NvWrite where
  | prefix1 | prefix2 | program | erase | status | margin | mode (m : Nat) | data | confirm | eraseConfirm
  | reset | bad
deriving DecidableEq, Repr

/-- The write as R366 to R370 read it. -/
def Dev.nvClass (d : Dev) (inp a : Nat) (l : List Byte) : NvWrite :=
  let b := bankOf a
  let st := d.seqState inp
  let same := d.rd R.NVC_REQ_SEQ_bank [inp] == b
  let low := (l.getD 0 0).toNat
  let seq := l.length == 1 || l.length == 2 || l.length == 4
  let atA := a == bankBase b + 0xAAA8
  if seq && low == 0xF0 then .reset
  else if st = 0 ∨ st = 6 then (if seq && atA && low == 0x5A then .prefix1 else .bad)
  else if st = 1 then (if seq && same && a == bankBase b + 0x5554 && low == 0xA5 then .prefix2 else .bad)
  else if st = 2 then
    (if seq && same && atA then
      (if low = 0x10 then .program else if low = 0x30 then .erase else if low = 0x70 then .status
       else if low = 0x90 then .margin else .bad)
     else .bad)
  else if st = 3 then
    let row := (a - bankBase b) / 16384
    let fixed := tget false d.nvc.rowSet b
    if seq && same && atA && low == 0xD0 && fixed then .confirm
    else if same && (l.length == 8 || l.length == 16 || l.length == 32 || l.length == 64) && a % l.length == 0
        && (!fixed || d.rd R.NVC_BUF_OWN_row [b] == row) then .data
    else .bad
  else if st = 4 then (if seq && same && low == 0xD0 then .eraseConfirm else .bad)
  else (if seq && same && atA && low ≤ 2 then .mode low else .bad)

/-- A confirm is accepted or refused (R371, R372, R376). -/
def Dev.nvConfirm (d : Dev) (inp a kind : Nat) : Dev × Nat :=
  let b := bankOf a
  if d.nvBusy b then (d.seqBusy inp, Sts.nvBusy)
  else
    let unit := if kind = 1 then d.rd R.NVC_BUF_OWN_row [b] else globalSector a % 512
    let sector := if kind = 1 then unit / 16 else unit
    let prot := (d.rd R.NVC_WP_prot [(512 * b + sector) / 64]).testBit ((512 * b + sector) % 64)
    let op : NvOp := { kind := kind, unit := unit, prot := prot, buf := if kind = 1 then tget [] d.nvc.buf b else [] }
    let d := d.withNvc fun x => { x with op := tset none x.op b (some op) }
    let d := d.setNvStat b 1 kind 0 0 sector inp
    ((d.wr R.NVC_REQ_SEQ_state [inp] 0).wr R.NVC_REQ_SEQ_result [inp] 0, Sts.ok)

/-- A write of an input to the array outside the Tally plane: its status. -/
def Dev.nvWrite (d : Dev) (inp a : Nat) (l : List Byte) : Dev × Nat :=
  let b := bankOf a
  let stamp := fun (d : Dev) => d.withNvc fun x => { x with seqAt := tset 0 x.seqAt inp d.clock }
  let ok := fun (d : Dev) => (stamp d, Sts.ok)
  match d.nvClass inp a l with
  | .reset =>
    let d := ((d.releaseBuf inp).wr R.NVC_REQ_SEQ_state [inp] 0).wr R.NVC_REQ_SEQ_rmode [inp] 0
    ok (d.withNvc fun x => { x with statNext := tset 0 x.statNext inp 0 })
  | .prefix1 => ok (d.setSeq inp 1 b)
  | .prefix2 => ok (d.setSeq inp 2 b)
  | .program =>
    if d.flag R.NVC_BUF_OWN_valid [b] = true ∧ d.rd R.NVC_BUF_OWN_owner [b] ≠ inp then (stamp (d.seqBusy inp), Sts.nvBusy)
    else
      let d := d.withNvc fun x => { x with buf := tset [] x.buf b [], rowSet := tset false x.rowSet b false }
      ok ((((d.wr R.NVC_BUF_OWN_owner [b] inp).wr R.NVC_BUF_OWN_valid [b] 1).wr R.NVC_BUF_OWN_row [b] 0).setSeq inp 3 b)
  | .data =>
    let o := (a - bankBase b) % 16384
    let d := d.wr R.NVC_BUF_OWN_row [b] ((a - bankBase b) / 16384)
    let buf := ((List.range l.length).zip l).foldl (fun (t : Table Byte) p => tset 0xFF t (o + p.1) p.2) (tget [] d.nvc.buf b)
    ok (d.withNvc fun x => { x with buf := tset [] x.buf b buf, rowSet := tset false x.rowSet b true })
  | .confirm => let r := d.nvConfirm inp a 1; (stamp r.1, r.2)
  | .erase => ok (d.setSeq inp 4 b)
  | .eraseConfirm => let r := d.nvConfirm inp a 2; (stamp r.1, r.2)
  | .status => ok ((d.setSeq inp 6 b).withNvc fun x => { x with statNext := tset 0 x.statNext inp (b + 1) })
  | .margin => ok (d.setSeq inp 5 b)
  | .mode m => ok (((d.setSeq inp 0 b).wr R.NVC_REQ_SEQ_rmode [inp] m).wr R.NVC_REQ_SEQ_rmode_bank [inp] b)
  | .bad => (stamp (d.seqErr inp b), Sts.nvSeqErr)

/-- A sequence stands outside IDLE for seq_tmo_us since its last write (R369, R373). -/
def seqTimeout (inp : Nat) (d : Dev) : Dev :=
  let us := max 1 (d.rd R.NVC_CFG_seq_tmo_us)
  if d.seqState inp = 0 ∨ d.clock < tget 0 d.nvc.seqAt inp + us * 65536000 then d
  else (d.seqErr inp (d.rd R.NVC_REQ_SEQ_bank [inp])).wr R.NVC_REQ_SEQ_rmode [inp] 0

/-! ### The end of an operation (R371, R372, R374) -/

/-- The codewords of a row, 0 to 15, whose buffer bytes are not all 0xFF. -/
def bufCodewords (t : Table Byte) : List Nat := (List.range 16).filter fun k => t.any fun e => e.1 / 1024 == k

/-- The buffer's codeword `k`. -/
def bufBytes (t : Table Byte) (k : Nat) : List Byte := (List.range 1024).map fun i => tget 0xFF t (1024 * k + i)

/-- Erased. -/
def allOnes (l : List Byte) : Bool := l.all (· == 0xFF)

/-- Stalled fetches and configuration reads of a bank resume; a stall of stall_evt_us or more raises NV_STALL
(R364). -/
def Dev.resumeStalled (d : Dev) (b : Nat) : Dev :=
  let (mine, rest) := d.nvc.stalled.partition fun x => bankOf x.2.1 == b
  let d := d.withNvc fun x => { x with stalled := rest }
  let us := d.rd R.NVC_CFG_stall_evt_us
  mine.foldl (fun (d : Dev) x =>
    if us ≠ 0 ∧ x.2.2.2 + us * 65536000 ≤ d.clock then d.nvEvent Ev.nvStall b x.1 else d) d

/-- A program or erase ends: the pulses applied, whether every bit verified. -/
def nvOpEnd (b pulses : Nat) (verified : Bool) (d : Dev) : Dev :=
  match tget none d.nvc.op b with
  | none => d
  | some op =>
    let owner := bits (d.nvStat b) 19 7
    let sector := bits (d.nvStat b) 10 9
    let done := fun (d : Dev) (result pulses : Nat) =>
      let d := d.setNvStat b 0 op.kind result pulses sector owner
      let d := d.withNvc fun x => { x with op := tset none x.op b none }
      let keep := d.seqState owner == 3 && d.rd R.NVC_REQ_SEQ_bank [owner] == b
      let d := if op.kind = 1 ∧ keep = false then d.wr R.NVC_BUF_OWN_valid [b] 0 else d
      d.resumeStalled b
    let row := bankBase b + 16384 * op.unit
    let ks := bufCodewords op.buf
    let stored := fun (d : Dev) k => d.bytes (row + 1024 * k) 1024
    if op.prot then (done (d.nvCount 10) 2 0).nvEvent Ev.nvOpRefused b owner
    else if op.kind = 1 then
      if ks.any fun k => !allOnes (stored d k) && stored d k != bufBytes op.buf k then
        (done (d.nvCount 11) 1 0).nvEvent Ev.nvOpRefused b owner
      else
        let fresh := ks.filter fun k => allOnes (stored d k)
        if fresh.isEmpty then (done (d.nvCount 7) 0 0).nvEvent Ev.nvOpDone b owner
        else if verified then
          let d := fresh.foldl (fun (d : Dev) k => d.setBytes (row + 1024 * k) (bufBytes op.buf k)) d
          (done (d.nvCount 7) 0 (min 12 pulses)).nvEvent Ev.nvOpDone b owner
        else
          let d := d.loseMem row 16384
          (done (d.nvCount 9) 5 12).nvEvent Ev.nvOpFail b owner
    else
      let a := bankBase b + 0x40000 * op.unit
      if verified then
        let d := { d with mem := d.mem.filter fun (c : Host.Cell) => !decide (a ≤ c.1 ∧ c.1 < a + 0x40000) }
        (done (d.nvCount 8) 0 (min 8 pulses)).nvEvent Ev.nvOpDone b owner
      else
        let d := d.loseMem a 0x40000
        (done (d.nvCount 9) 5 (min 8 pulses)).nvEvent Ev.nvOpFail b owner

/-! ### Fetches (R363, R364) -/

/-- An instruction fetch: it stalls on a busy bank; otherwise whether its data is good. -/
def Dev.nvFetch (d : Dev) (inp a len : Nat) (f : NvFind) : Dev × Option Bool :=
  if d.nvBusy (bankOf a) then
    ((d.nvCount 6).withNvc fun x => { x with stalled := x.stalled ++ [(inp, a, len, d.clock)] }, none)
  else
    let r := d.nvSenses a len inp f
    (r.1, some r.2)

/-! ### Protection and the boot record (R378 to R382) -/

/-- A write of NVC_WP_CLR word `w`. -/
def writeWpClr (r : Req) (w v : Nat) (d : Dev) : Dev × Nat :=
  if d.locked r then (d, Sts.locked)
  else if w = 31 then (d, Sts.ok)
  else (d.wr R.NVC_WP_prot [w] (d.rd R.NVC_WP_prot [w] &&& (ones 64 - v % 2 ^ 64)), Sts.ok)

/-- A write of NVC_WP word `w`: bits set; word 31 reads as set. -/
def writeWp (w v : Nat) (d : Dev) : Dev × Nat :=
  if w = 31 then (d, Sts.ok) else (d.wr R.NVC_WP_prot [w] (d.rd R.NVC_WP_prot [w] ||| v % 2 ^ 64), Sts.ok)

/-- Fields of a record area (Table 10-8). -/
def recSeq (a : Nat) : Nat := bits a 32 32
def recSel (a : Nat) : Nat := if bits a 64 8 = 1 then 1 else 0
def recFb (a : Nat) : Nat := bits a 72 1
def recMap (a w : Nat) : Nat := bits a (128 + 64 * w) 64
def recValid (a : Nat) : Bool :=
  bits a 0 32 == 0x4E564252 && crc32c (leBytes 272 a) == bits a 2176 32 && recSeq a != 0xFFFFFFFF

/-- A boot record with its CRC. -/
def makeRecord (seq sel fb : Nat) (map : Nat → Nat) : Nat :=
  let body := 0x4E564252 + seq % 2 ^ 32 * 2 ^ 32 + sel * 2 ^ 64 + fb * 2 ^ 72
    + ((List.range 32).map fun w => map w % 2 ^ 64 * 2 ^ (128 + 64 * w)).sum
  body + crc32c (leBytes 272 body) * 2 ^ 2176

/-- The area with the current record: the valid one with the higher seq (R380). -/
def Dev.curArea (d : Dev) : Option Nat :=
  let v0 := recValid d.nvc.area0
  let v1 := recValid d.nvc.area1
  if v0 && v1 then some (if recSeq d.nvc.area0 < recSeq d.nvc.area1 then 1 else 0)
  else if v0 then some 0 else if v1 then some 1 else none
def Dev.areaRec (d : Dev) (k : Nat) : Nat := if k = 0 then d.nvc.area0 else d.nvc.area1

/-- NVC_BOOT shows the current record. -/
def Dev.showBoot (d : Dev) : Dev :=
  let d := d.wr R.NVC_BOOT_rec_valid [] (bit (recValid d.nvc.area0) + 2 * bit (recValid d.nvc.area1))
  match d.curArea with
  | some k =>
    let r := d.areaRec k
    (((d.wr R.NVC_BOOT_sel [] (recSel r)).wr R.NVC_BOOT_fb_en [] (recFb r)).wr R.NVC_BOOT_cur_area [] k).wr
      R.NVC_BOOT_seq [] (recSeq r)
  | none => (((d.wr R.NVC_BOOT_sel [] 0).wr R.NVC_BOOT_fb_en [] 1).wr R.NVC_BOOT_cur_area [] 0).wr R.NVC_BOOT_seq [] 0

/-- The protect bits are loaded from the boot record's map (R378); without a valid record every bit is set. -/
def Dev.loadProtect (d : Dev) : Dev :=
  let map := fun w => match d.curArea with | some k => recMap (d.areaRec k) w | none => ones 64
  (List.range 31).foldl (fun (d : Dev) w => d.wr R.NVC_WP_prot [w] (map w)) d

/-- NV_BOOTREC: the boot block is no bank, so the bank of its info is a free value. -/
def Dev.bootrecEvent (d : Dev) (inp : Nat) : Dev :=
  let (d, v) := d.draw 8
  d.nvEvent Ev.nvBootrec v inp

/-- The boot record is read (R380): registers, protect bits, the next record's fields. -/
def Dev.readBootRecord (d : Dev) : Dev :=
  let d := d.showBoot.loadProtect
  let d := (d.wr R.NVC_BOOT_CMD_new_sel [] (d.rd R.NVC_BOOT_sel)).wr R.NVC_BOOT_CMD_new_fb [] (d.rd R.NVC_BOOT_fb_en)
  let d := (List.range 32).foldl (fun (d : Dev) w =>
    d.wr R.NVC_PMAP_NEW_map [w] (match d.curArea with | some k => recMap (d.areaRec k) w | none => ones 64)) d
  if d.curArea.isNone then d.bootrecEvent 101 else d

/-- A write of NVC_BOOT_CMD (R381). -/
def writeBootCmd (r : Req) (m v : Nat) (d : Dev) : Dev × Nat :=
  let lockedBits := m % 4 != 0
  let d' := if d.locked r then d else
    let d := if m.testBit 0 then d.wr R.NVC_BOOT_CMD_new_sel [] (bits v 0 1) else d
    if m.testBit 1 then d.wr R.NVC_BOOT_CMD_new_fb [] (bits v 1 1) else d
  let st := if d.locked r && lockedBits then Sts.locked else Sts.ok
  if (m &&& v).testBit 2 then
    if d'.flag R.NVC_BOOT_CMD_busy then (d'.wr R.NVC_BOOT_CMD_result [] 2, worst st Sts.busy)
    else
      let seq := match d'.curArea with | some k => recSeq (d'.areaRec k) + 1 | none => 1
      let x := makeRecord seq (d'.rd R.NVC_BOOT_CMD_new_sel) (d'.rd R.NVC_BOOT_CMD_new_fb)
        fun w => d'.rd R.NVC_PMAP_NEW_map [w]
      ((d'.withNvc fun n => { n with update := some (x, r.inp) }).wr R.NVC_BOOT_CMD_busy [] 1, st)
  else (d', st)

/-- The boot record update ends: the new record is current, or the old one stays and the other area is
undefined. -/
def bootRecordDone (ok : Bool) (d : Dev) : Dev :=
  match d.nvc.update with
  | none => d
  | some (x, inp) =>
    let into := match d.curArea with | some k => 1 - k | none => 0
    let put := fun (d : Dev) (v : Nat) => d.withNvc fun n => if into = 0 then { n with area0 := v } else { n with area1 := v }
    let d := (d.withNvc fun n => { n with update := none }).wr R.NVC_BOOT_CMD_busy [] 0
    let d := if ok then ((put d x).wr R.NVC_BOOT_CMD_result [] 0).nvCount 15
      else (put d (2 ^ 2208 - 1)).wr R.NVC_BOOT_CMD_result [] 1
    d.showBoot.bootrecEvent inp

/-- A read of NVC_WEAK: the oldest codeword with its valid bit, removed. -/
def readWeak (d : Dev) : Dev × Nat :=
  match d.nvc.weak with
  | [] => (d, 0)
  | cw :: r => (d.withNvc fun x => { x with weak := r }, cw + 2 ^ 19)

/-! ### Power (R377) -/

/-- At an entry that removes the power of island 102 every sequence and buffer is released. -/
def Dev.nvPowerDown (d : Dev) : Dev :=
  let d := (List.range 101).foldl (fun (d : Dev) n => (d.releaseBuf n).wr R.NVC_REQ_SEQ_state [n] 0) d
  (List.range 4).foldl (fun (d : Dev) b => d.wr R.NVC_BUF_OWN_valid [b] 0) d

def Dev.nvAnyBusy (d : Dev) : Bool := (List.range 4).any fun b => d.nvBusy b

/-! ### The commands -/

/-- A write of the aperture that is of the class named, at an address of the array. -/
def nvCommand (inp a : Nat) (l : List Byte) (is : NvWrite → Bool) (d : Dev) : Dev :=
  if inNv a && is (d.nvClass inp a l) then
    if d.island 102 ≠ 0 then d.complete ⟨inp, false⟩ Sts.poweredOff 0 else
    let r := d.nvWrite inp a l
    r.1.complete ⟨inp, false⟩ r.2 0
  else d

/-- NV_DATA_READ: up to 64 bytes within one bank. -/
def execNvDataRead (inp : Fin 101) (a : BitVec 38) (len : Fin 65) (f : NvFind) (s : State) :
    Host.Outcome State Fault Refusal :=
  run s fun d =>
    if inTallyNv a.toNat then d.complete ⟨inp, false⟩ Sts.unmapped 0
    else if d.island 102 ≠ 0 then d.complete ⟨inp, false⟩ Sts.poweredOff 0
    else if inNv a.toNat = false ∨ bankOf (a.toNat + len) ≠ bankOf a.toNat then d
    else let r := d.nvRead inp a.toNat len f; r.1.complete ⟨inp, false⟩ r.2.1 (ofLe r.2.2)

/-- NV_PREFIX. -/
def execNvPrefix (inp : Fin 101) (a : BitVec 38) (data : List Byte) (s : State) :
    Host.Outcome State Fault Refusal :=
  run s (nvCommand inp a.toNat data fun c => c == .prefix1 || c == .prefix2 || c == .bad)

/-- PROGRAM. -/
def execProgram (inp : Fin 101) (a : BitVec 38) (data : List Byte) (s : State) :
    Host.Outcome State Fault Refusal := run s (nvCommand inp a.toNat data fun c => c == .program)

/-- PROGRAM_DATA. -/
def execProgramData (inp : Fin 101) (a : BitVec 38) (data : List Byte) (s : State) :
    Host.Outcome State Fault Refusal := run s (nvCommand inp a.toNat data fun c => c == .data)

/-- PROGRAM_CONFIRM. -/
def execProgramConfirm (inp : Fin 101) (a : BitVec 38) (data : List Byte) (s : State) :
    Host.Outcome State Fault Refusal := run s (nvCommand inp a.toNat data fun c => c == .confirm)

/-- ERASE. -/
def execErase (inp : Fin 101) (a : BitVec 38) (data : List Byte) (s : State) :
    Host.Outcome State Fault Refusal := run s (nvCommand inp a.toNat data fun c => c == .erase)

/-- ERASE_CONFIRM. -/
def execEraseConfirm (inp : Fin 101) (a : BitVec 38) (data : List Byte) (s : State) :
    Host.Outcome State Fault Refusal := run s (nvCommand inp a.toNat data fun c => c == .eraseConfirm)

/-- READ_STATUS. -/
def execReadStatus (inp : Fin 101) (a : BitVec 38) (data : List Byte) (s : State) :
    Host.Outcome State Fault Refusal := run s (nvCommand inp a.toNat data fun c => c == .status)

/-- MARGIN: the command byte, and the mode that follows it. -/
def execMargin (inp : Fin 101) (a : BitVec 38) (data : List Byte) (s : State) :
    Host.Outcome State Fault Refusal :=
  run s (nvCommand inp a.toNat data fun c => match c with | .margin => true | .mode _ => true | _ => false)

/-- RESET. -/
def execReset (inp : Fin 101) (a : BitVec 38) (data : List Byte) (s : State) :
    Host.Outcome State Fault Refusal := run s (nvCommand inp a.toNat data fun c => c == .reset)

/-- SEQ_TIMEOUT. -/
def execSeqTimeout (inp : Fin 101) (s : State) : Host.Outcome State Fault Refusal := run s (seqTimeout inp)

/-- NV_OP_END. -/
def execNvOpEnd (b : Fin 4) (pulses : BitVec 4) (verified : Bool) (s : State) :
    Host.Outcome State Fault Refusal := run s (nvOpEnd b pulses.toNat verified)

/-- WP_CLR: word `w` written. -/
def execWpClr (inp : Fin 101) (desc : Bool) (w : Fin 32) (v : BitVec 64) (s : State) :
    Host.Outcome State Fault Refusal :=
  runOn 102 ⟨inp, desc⟩ s fun d => let r := writeWpClr ⟨inp, desc⟩ w v.toNat d; r.1.complete ⟨inp, desc⟩ r.2 0

/-- BOOT_RECORD_UPDATE: a write of NVC_BOOT_CMD with go set. -/
def execBootRecordUpdate (inp : Fin 101) (desc : Bool) (sel fb : BitVec 1) (s : State) :
    Host.Outcome State Fault Refusal :=
  runOn 102 ⟨inp, desc⟩ s fun d =>
    let r := writeBootCmd ⟨inp, desc⟩ (ones 32) (sel.toNat + 2 * fb.toNat + 4) d
    r.1.complete ⟨inp, desc⟩ r.2 0

/-- BOOT_RECORD_DONE. -/
def execBootRecordDone (ok : Bool) (s : State) : Host.Outcome State Fault Refusal :=
  run s (bootRecordDone ok)

/-- WEAK_READ. -/
def execWeakRead (inp : Fin 101) (s : State) : Host.Outcome State Fault Refusal :=
  runOn 102 ⟨inp, false⟩ s fun d => let r := readWeak d; r.1.complete ⟨inp, false⟩ Sts.ok r.2

end Sys2Proof.Machine
end

