-- ==== Sys2Proof/Machine/LifeCycle.lean ====
section
/-! DEFINITION. Chapter 17: OTP, transition records, certificates, debug sessions. The JTAG instructions
stand in Jtag.lean. -/

namespace Sys2Proof.Machine

def Dev.withLcs (d : Dev) (f : LcsSt → LcsSt) : Dev := { d with lcs := f d.lcs }

/-! ### OTP (R545, Tables 17-3, 17-4) -/

def Dev.otp (d : Dev) (lo w : Nat) : Nat := bits d.lcs.otp lo w
/-- Bits burned to one: OTP only ever sets bits. -/
def Dev.burn (d : Dev) (lo v : Nat) : Dev := d.withLcs fun x => { x with otp := x.otp ||| (v * 2 ^ lo) % 2 ^ 8192 }

def slotBase (k : Nat) : Nat := 0x800 + 0x500 * k

/-- A key field with its check is valid. -/
def keyValid (v : Nat) : Bool :=
  let key := v % 2 ^ 256
  key != 0 && key != ones 256 && bits v 256 32 == crc32c (leBytes 32 key)
/-- A hash field is valid. -/
def hashValid (v : Nat) : Bool := v != 0 && v != ones 384

/-- A flag burned as two bits reads set when either is. -/
def flag2 (v lo : Nat) : Bool := bits v lo 2 != 0

def Dev.venKey (d : Dev) : Nat := d.otp 0xC0 288
def Dev.venAuth (d : Dev) : Nat := d.otp 0x200 384
def Dev.ownKey (d : Dev) (k : Nat) : Nat := d.otp (slotBase k) 288
def Dev.imgHash (d : Dev) (k : Nat) : Nat := d.otp (slotBase k + 0x120) 384
def Dev.ownAuth (d : Dev) (k : Nat) : Nat := d.otp (slotBase k + 0x2A0) 384
def Dev.slotFlags (d : Dev) (k : Nat) : Nat := d.otp (slotBase k + 0x420) 14
def Dev.slotInUse (d : Dev) (k : Nat) : Bool := flag2 (d.slotFlags k) 6
/-- The retired flag: three copies of two bits, set when any bit is (log entry 69). -/
def Dev.slotRetired (d : Dev) (k : Nat) : Bool := bits (d.slotFlags k) 8 6 != 0
/-- The current owner slot (R546). -/
def Dev.ownerSlot (d : Dev) : Option Nat := [0, 1].find? fun k => d.slotInUse k && !d.slotRetired k
def Dev.tallySeed (d : Dev) : Nat := d.otp 0x1200 384
def Dev.tallyAuth (d : Dev) : Nat := d.otp 0x1380 384

/-! ### Records (R537, R540) -/

def Dev.lcRecord (d : Dev) (k : Nat) : Nat := d.otp (0x400 + 128 * k) 128
def recTarget (r : Nat) : Nat := bits r 0 4
def recPath (r : Nat) : Nat := bits r 4 4
def recSteps (r : Nat) : Nat := bits r 8 5
def recMark (r k : Nat) : Bool := flag2 r (16 + 2 * k)
def recOpen (r : Nat) : Bool := flag2 r 126
def recComplete (r : Nat) : Bool := recOpen r && recMark r (recSteps r)
def recTorn (r : Nat) : Bool := !recOpen r && r != 0
/-- The records in use, torn ones included. -/
def Dev.recordsUsed (d : Dev) : List Nat := (List.range 8).filter fun k => d.lcRecord k != 0
/-- The last open record. -/
def Dev.lastOpen (d : Dev) : Option Nat := (List.range 8).reverse.find? fun k => recOpen (d.lcRecord k)

/-- The life-cycle state: the target of the last complete record; BLANK when there is none. -/
def Dev.lcState (d : Dev) : Nat :=
  match (List.range 8).reverse.find? fun k => recComplete (d.lcRecord k) with
  | some k => recTarget (d.lcRecord k)
  | none => 0

/-- The device image key, when it is valid (R546). -/
def Dev.imageKey (d : Dev) : Option Nat :=
  let st := d.lcState
  let v := if st = 3 ∨ st = 4 then (match d.ownerSlot with | some k => d.ownKey k | none => 0)
    else if st = 1 ∨ st = 2 ∨ st = 5 then d.venKey else 0
  if keyValid v then some (v % 2 ^ 256) else none

/-- IMG_SIG_REQ and IMG_PUBKEY_HASH as R318 uses them. -/
def Dev.sigReq (d : Dev) : Bool :=
  (d.lcState == 3 || d.lcState == 4) && (match d.ownerSlot with | some k => flag2 (d.slotFlags k) 0 | none => false)
def Dev.pubkeyHash (d : Dev) : Nat := match d.ownerSlot with | some k => d.imgHash k | none => 0

/-! ### Rights (R550, R552) -/

/-- The rights in force for input 100. -/
def Dev.rights (d : Dev) : Nat :=
  if d.lcState = 0 ∨ d.lcState = 1 then ones 9
  else match d.lcs.session with
    | some s => s.rights
    | none => 0
def Dev.hasRight (d : Dev) (b : Nat) : Bool := d.rights.testBit b

/-- Seconds left of a session's dur_s by the monotonic counter, which counts 256 ns. -/
def Dev.remaining (d : Dev) (s : Session) : Nat :=
  if s.compat then 0xFFFFFFFF else s.dur - (d.tim.mono - s.opened) * 256 / 1000000000

/-- The registers that show OTP and the session. -/
def Dev.showLcs (d : Dev) : Dev :=
  let slot := d.ownerSlot.getD 0
  let last := (d.lastOpen.map d.lcRecord).getD 0
  let fl := if d.ownerSlot.isSome then d.slotFlags slot else 0
  let step := ((List.range 32).reverse.find? fun k => k != 0 && recMark last k).getD 0
  let d := ((((d.wr R.LCS_STATE_state [] d.lcState).wr R.LCS_STATE_target [] (recTarget last)).wr R.LCS_STATE_path []
    (recPath last)).wr R.LCS_STATE_step [] step).wr R.LCS_STATE_records [] d.recordsUsed.length
  let d := d.wr R.LCS_STATE_torn [] (bit ((List.range 8).any fun k => recTorn (d.lcRecord k)))
  let d := (d.wr R.LCS_STATE_slot [] slot).wr R.LCS_STATE_slots_used [] (bit (d.slotInUse 0) + 2 * bit (d.slotInUse 1))
  let guard := bit (flag2 (d.otp 0xA0 4) 0) + 2 * bit (flag2 (d.otp 0xA0 4) 2)
  let d := ((d.wr R.LCS_STATE_test_guard [] guard).wr R.BST_GUARD_test_guard [] guard).wr R.LCS_STATE_sig_req [] (bit d.sigReq)
  let d := ((d.wr R.LCS_STATE_compat_dis [] (bit (flag2 fl 4))).wr R.LCS_STATE_ven_dbg [] (bit (flag2 fl 2))).wr
    R.LCS_STATE_tly_auth [] (bit (hashValid d.tallyAuth))
  let d := (List.range 8).foldl (fun (d : Dev) k => d.wr R.LCS_REC_rec [k] (d.lcRecord k)) d
  let two := fun (f : Nat → Bool) => bit (f 0) + 2 * bit (f 1)
  let d := ((d.wr R.LCS_OTP_VALID_uid [] (bit (d.otp 0 128 != 0))).wr R.LCS_OTP_VALID_ven_key [] (bit (keyValid d.venKey))).wr
    R.LCS_OTP_VALID_ven_auth [] (bit (hashValid d.venAuth))
  let d := (d.wr R.LCS_OTP_VALID_own_key [] (two fun k => keyValid (d.ownKey k))).wr R.LCS_OTP_VALID_own_destroyed []
    (two fun k => d.ownKey k % 2 ^ 256 == ones 256)
  let d := ((d.wr R.LCS_OTP_VALID_img_hash [] (two fun k => hashValid (d.imgHash k))).wr R.LCS_OTP_VALID_own_auth []
    (two fun k => hashValid (d.ownAuth k))).wr R.LCS_OTP_VALID_tly_seed [] (bit (d.tallySeed != 0))
  let free := decide (d.lcState = 0 ∨ d.lcState = 1)
  let d := (d.wr R.LCS_DEBUG_open [] (bit (free || d.lcs.session.isSome))).wr R.LCS_DEBUG_rights [] d.rights
  match d.lcs.session with
  | some s => (((d.wr R.LCS_DEBUG_compat [] (bit s.compat)).wr R.LCS_DEBUG_issuer [] s.issuer).wr
      R.LCS_DEBUG_not_after [] s.notAfter).wr R.LCS_DEBUG_remaining_s [] (d.remaining s)
  | none => (((d.wr R.LCS_DEBUG_compat [] 0).wr R.LCS_DEBUG_issuer [] 0).wr R.LCS_DEBUG_not_after [] 0).wr
      R.LCS_DEBUG_remaining_s [] 0

/-! ### Transitions (R538, R541, R542) -/

namespace Lc
def ok := 0
def format := 1
def wrongDevice := 2
def nonce := 3
def issuer := 4
def badKey := 5
def badSignature := 6
def expired := 7
def state := 8
def fields := 9
def otpFull := 10
def rights := 11
def busy := 12
def compatDisabled := 13
end Lc

/-- Steps of each path (Table 17-1). -/
def pathSteps (path : Nat) : Nat :=
  match path with
  | 3 => 5
  | 5 => 4
  | 6 => 4
  | 7 => 4
  | 8 => 6
  | _ => 1

/-- The path of a certified transition from `st` to `target` by `issuer` (0 vendor, 1 owner). -/
def certPath (st target issuer : Nat) : Option Nat :=
  if st = 2 ∧ target = 3 ∧ issuer = 0 then some 3
  else if st = 3 ∧ target = 4 ∧ issuer = 1 then some 4
  else if st = 3 ∧ target = 2 ∧ issuer = 1 then some 5
  else if (st = 3 ∨ st = 4) ∧ target = 5 ∧ issuer = 1 then some 7
  else if st = 2 ∧ target = 5 ∧ issuer = 0 then some 7
  else if (st = 1 ∨ st = 2 ∨ st = 5) ∧ target = 6 ∧ issuer = 0 then some 8
  else if (st = 3 ∨ st = 4) ∧ target = 6 ∧ issuer = 1 then some 8
  else none

/-- The issuer may sign a certificate of this kind in state `st` (Table 17-6). -/
def Dev.issuerOk (d : Dev) (kind issuer : Nat) : Bool :=
  let st := d.lcState
  let slot := d.ownerSlot.getD 0
  if kind = 1 then
    (st == 2 && issuer == 0) || (st == 3 && (issuer == 1 || (issuer == 0 && flag2 (d.slotFlags slot) 2)))
      || (st == 4 && issuer == 1) || (st == 5 && issuer == 0)
  else (st == 1 && issuer == 0) || (st == 2 && issuer == 0) || ((st == 3 || st == 4) && issuer == 1) || (st == 5 && issuer == 0)

/-- The lowest record not in use; none for a request other than SCRAP when only record 7 is left (R542). -/
def Dev.freeRecord (d : Dev) (path : Nat) : Option Nat :=
  match (List.range 8).find? fun k => d.lcRecord k == 0 with
  | some 7 => if path = 8 then some 7 else none
  | r => r

/-- An owner slot that no transition has filled. -/
def Dev.freeSlot2 (d : Dev) : Option Nat := [0, 1].find? fun k => !d.slotInUse k && !d.slotRetired k

/-- A transition commits: the record is burned, its commit bit last (R541). -/
def Dev.lcCommit (d : Dev) (target path cert : Nat) : Dev :=
  match d.freeRecord path with
  | none => d.wr R.LCS_CMD_result [] Lc.otpFull
  | some k =>
    let d := d.burn (0x400 + 128 * k) (target + path * 16 + pathSteps path * 256)
    let d := if path = 3 then d.withLcs fun x => { x with stash := cert } else d
    let d := d.burn (0x400 + 128 * k) (3 * 2 ^ 126)
    ((d.wr R.LCS_STATE_pending [] 1).wr R.LCS_CMD_result [] Lc.ok).showLcs

/-! ### Certificates (R547 to R549) -/

/-- Bytes [i, i+n) of a certificate, as a little-endian number and as network order. -/
def cLe (c i n : Nat) : Nat := bits c (8 * i) (8 * n)
def cBytes (c i n : Nat) : List Byte := leBytes n (cLe c i n)
def cBe (c i n : Nat) : Nat := ofBe (cBytes c i n)

/-- Check 1: magic, version, kind and zero fields. -/
def certFormat (c kind : Nat) : Bool :=
  let owned := kind == 2 && cLe c 7 1 == 3
  cLe c 0 4 == 0x5245434C && cLe c 4 1 == 1 && cLe c 5 1 == kind && decide (cLe c 6 1 ≤ 1)
    && (kind == 2 || cLe c 7 1 == 0) && cLe c 8 8 == 0 && cLe c 70 2 == 0 && cLe c 80 48 == 0
    && (kind == 1 || (cLe c 72 4 == 0 && cLe c 76 4 == 0))
    && (if owned then cLe c 312 1 / 8 == 0 && cLe c 313 7 == 0 else cLe c 128 192 == 0)

/-- Check 8: what Table 17-1 asks of a certified transition. -/
def Dev.certTransition (d : Dev) (c : Nat) : Nat :=
  let target := cLe c 7 1
  match certPath d.lcState target (cLe c 6 1) with
  | none => Lc.state
  | some path =>
    let fieldsOk :=
      if path = 3 then
        keyValid d.venKey
          && (Config.aesUnwrap (BitVec.ofNat 256 d.venKey) (BitVec.ofNat 320 (cLe c 128 40))).isSome
          && hashValid (cBe c 168 48) && hashValid (cBe c 216 48)
          && (cBe c 264 48 == 0 || hashValid (cBe c 264 48))
      else if path = 4 then hashValid (d.imgHash (d.ownerSlot.getD 0))
      else true
    if fieldsOk = false then Lc.fields
    else if (d.freeRecord path).isNone || (path == 3 && d.freeSlot2.isNone) then Lc.otpFull
    else Lc.ok

/-- The checks of a certificate in order: the first failure, or OK. -/
def Dev.certCheck (d : Dev) (kind c : Nat) : Nat :=
  let issuer := cLe c 6 1
  let slot := d.ownerSlot.getD 0
  let digest := (Config.sha384 (cBytes c 320 96)).toNat
  let auth := if issuer = 0 then d.venAuth else d.ownAuth slot
  if certFormat c kind = false then Lc.format
  else if cBe c 16 16 ≠ d.otp 0 128 then Lc.wrongDevice
  else if d.lcs.nonceAt = 0 ∨ cLe c 32 32 ≠ d.rd R.LCS_NONCE_nonce then Lc.nonce
  else if d.issuerOk kind issuer = false then Lc.issuer
  else if hashValid auth = false ∨ digest ≠ auth then Lc.badKey
  else if Config.ecdsaP384 (BitVec.ofNat 768 (cBe c 320 96)) (cBytes c 0 320) (BitVec.ofNat 768 (cBe c 416 96)) = false then
    Lc.badSignature
  else if cLe c 64 6 ≤ d.now / beadsPerSec then Lc.expired
  else if kind = 2 then d.certTransition c
  else
    let rights := cLe c 76 4
    let dur := cLe c 72 4
    if dur = 0 ∨ 604800 < dur ∨ 512 ≤ rights ∨ (d.lcState = 4 ∧ rights.testBit 3 = true) then Lc.rights else Lc.ok

/-- The nonce in force is gone. -/
def Dev.dropNonce (d : Dev) : Dev := (d.withLcs fun x => { x with nonceAt := 0 }).wr R.LCS_NONCE_nonce [] 0

/-- A new nonce from the random source: a free value. -/
def Dev.newNonce (d : Dev) : Dev × Nat :=
  let (d, v) := d.draw 256
  ((d.wr R.LCS_NONCE_nonce [] v).withLcs fun x => { x with nonceAt := d.tim.mono + 1 }, v)

/-- A session closes other than by reset. -/
def Dev.closeSession (d : Dev) : Dev :=
  if d.lcs.session.isNone then d
  else ((d.withLcs fun x => { x with session := none }).showLcs).raise Ev.debugClosed 0

/-- A check of the buffered certificate starts, or the request is refused while one runs. -/
def Dev.startCheck (d : Dev) (kind : Nat) : Dev :=
  if d.lcs.check.isSome ∨ d.flag R.LCS_STATE_pending = true then d.wr R.LCS_CMD_result [] Lc.busy
  else (d.withLcs fun x => { x with check := some (kind, d.rd R.LCS_CERT_cert) }).wr R.LCS_CMD_busy [] 1

/-- The check ends: the nonce is consumed; a session opens, or a transition commits, or the result names the
failure. -/
def certCheckDone (d : Dev) : Dev :=
  match d.lcs.check with
  | none => d
  | some (kind, c) =>
    let r := d.certCheck kind c
    let d := (((d.withLcs fun x => { x with check := none }).dropNonce).wr R.LCS_CMD_busy [] 0).wr R.LCS_CMD_result [] r
    if r ≠ Lc.ok then d
    else if kind = 2 then
      d.lcCommit (cLe c 7 1) ((certPath d.lcState (cLe c 7 1) (cLe c 6 1)).getD 0) c
    else
      let s : Session := { rights := cLe c 76 4, issuer := cLe c 6 1, notAfter := cLe c 64 6, dur := cLe c 72 4, opened := d.tim.mono }
      ((d.withLcs fun x => { x with session := some s }).showLcs).raise Ev.debugOpen (cLe c 76 4)

/-- A request that needs no certificate (LC_REQUEST): TEST, PROVISION, SCRAP from BLANK. -/
def Dev.lcRequest (d : Dev) (target : Nat) : Dev :=
  let st := d.lcState
  let path := if st = 0 ∧ target = 1 then some 1 else if st = 1 ∧ target = 2 then some 2
    else if st = 0 ∧ target = 6 then some 8 else none
  if d.lcs.check.isSome ∨ d.flag R.LCS_STATE_pending = true then d.wr R.LCS_CMD_result [] Lc.busy
  else match path with
    | none => d.wr R.LCS_CMD_result [] Lc.state
    | some p =>
      let fieldsOk := d.otp 0 128 != 0 && keyValid d.venKey && hashValid d.venAuth
      if p = 2 ∧ fieldsOk = false then d.wr R.LCS_CMD_result [] Lc.fields else d.lcCommit target p 0

/-- COMPAT_UNLOCK (R553). -/
def Dev.compatUnlock (d : Dev) (word : Nat) : Dev :=
  if word ≠ 0x3220A5C3 then d
  else if d.lcs.check.isSome ∨ d.flag R.LCS_STATE_pending = true then d.wr R.LCS_CMD_result [] Lc.busy
  else if d.lcState ≠ 3 then d.wr R.LCS_CMD_result [] Lc.state
  else if flag2 (d.slotFlags (d.ownerSlot.getD 0)) 4 then d.wr R.LCS_CMD_result [] Lc.compatDisabled
  else d.lcCommit 2 6 0

/-- A write of LCS_CMD (R548, R549, R550): its operation. -/
def writeLcsCmd (inp op : Nat) (d : Dev) : Dev × Nat :=
  if inp ≠ 97 ∧ inp ≠ 98 ∧ inp ≠ 100 then (d, Sts.protected_)
  else if op = 4 then (d.closeSession, Sts.ok)
  else if op = 0 then (d, Sts.ok)
  else if 4 < op then (d, Sts.busy)
  else if d.lcs.check.isSome ∨ d.flag R.LCS_STATE_pending = true then (d.wr R.LCS_CMD_result [] Lc.busy, Sts.busy)
  else if op = 1 then (d.newNonce.1.wr R.LCS_CMD_result [] Lc.ok, Sts.ok)
  else (d.startCheck (op - 1), Sts.ok)

/-- A write of a unit of LCS_CERT: bytes named by the mask. -/
def writeLcsCert (inp u m v : Nat) (d : Dev) : Dev × Nat :=
  if inp ≠ 97 ∧ inp ≠ 98 ∧ inp ≠ 100 then (d, Sts.protected_)
  else
    let c := d.rd R.LCS_CERT_cert
    let x := bits c (64 * u) 64
    (d.wr R.LCS_CERT_cert [] (putBits c (64 * u) 64 ((x &&& (ones 64 - m)) ||| (v &&& m))), Sts.ok)

/-- A session reaches not_after or its dur_s elapses. -/
def sessionExpire (d : Dev) : Dev :=
  match d.lcs.session with
  | none => d
  | some s =>
    if s.compat = false ∧ (s.notAfter ≤ d.now / beadsPerSec ∨ s.dur * 1000000000 ≤ (d.tim.mono - s.opened) * 256) then
      d.closeSession
    else d

/-- A nonce lapses 600 s after its generation. -/
def nonceLapse (d : Dev) : Dev :=
  if d.lcs.nonceAt ≠ 0 ∧ 600000000000 ≤ (d.tim.mono + 1 - d.lcs.nonceAt) * 256 then d.dropNonce else d

/-! ### The steps of a transition (R539, R543, Table 17-1) -/

/-- Zeroise: every secret of the on-chip memories reads zero. -/
def Dev.zeroise (d : Dev) : Dev :=
  let gone := fun (a : Nat) => decide ((0x40000000 ≤ a ∧ a < 0x43000000) ∨ 2 ^ 48 ≤ a)
  let d := { d with mem := d.mem.filter fun (c : Host.Cell) => !gone c.1 }
  { d with rte := { d.rte with cache := [] }, cfg := { d.cfg with frames := [], bad := [], src := [], gran := [], keys := [] }, hrd := { d.hrd with sram := 0 } }

/-- A partition of the array erased, whatever its protect bits: sectors [a, b) by global number. -/
def Dev.erasePart (d : Dev) (a b : Nat) : Dev :=
  let lo := nvBase + 0x40000 * a
  let hi := nvBase + 0x40000 * b
  { d with mem := d.mem.filter fun (c : Host.Cell) => !decide (lo ≤ c.1 ∧ c.1 < hi) }

/-- A key field and its check burned to ones. -/
def Dev.destroyKey (d : Dev) (lo : Nat) : Dev := d.burn lo (ones 288)

/-- The owner slot that an OWN step fills: the one the earlier steps began, or the next free one. -/
def Dev.ownSlot (d : Dev) : Nat := d.freeSlot2.getD 0

/-- Step `k` of a path. -/
def Dev.lcStep (d : Dev) (path k : Nat) : Dev :=
  let c := d.lcs.stash
  let cur := d.ownerSlot.getD 0
  let release := fun (k : Nat) =>
    if k = 1 then d.zeroise
    else if k = 2 then (if d.ownerSlot.isSome then d.destroyKey (slotBase cur) else d)
    else if k = 3 then (if d.ownerSlot.isSome then d.burn (slotBase cur + 0x428) (ones 6) else d)
    else d.erasePart 1536 1920
  if path = 1 then
    let (d, v) := d.draw 384
    if d.tallySeed = 0 then d.burn 0x1200 v else d
  else if path = 2 then d.zeroise
  else if path = 3 then
    let base := slotBase d.ownSlot
    if k = 1 then
      match Config.aesUnwrap (BitVec.ofNat 256 d.venKey) (BitVec.ofNat 320 (cLe c 128 40)) with
      | some key => d.burn base (key.toNat + crc32c (leBytes 32 key.toNat) * 2 ^ 256)
      | none => d
    else if k = 2 then (d.burn (base + 0x120) (cBe c 168 48)).burn (base + 0x2A0) (cBe c 216 48)
    else if k = 3 then
      let f := cLe c 312 1
      d.burn (base + 0x420) (3 * bits f 0 1 + 12 * bits f 1 1 + 48 * bits f 2 1 + 192)
    else if k = 4 then (if d.tallyAuth = 0 then d.burn 0x1380 (cBe c 264 48) else d)
    else d.withLcs fun x => { x with stash := ones 4096 }
  else if path = 4 then d.burn (slotBase cur + 0x420) 3
  else if path = 8 then
    if k = 1 then d.zeroise
    else if k = 2 then ((d.destroyKey 0xC0).destroyKey (slotBase 0)).destroyKey (slotBase 1)
    else if k = 3 then d.erasePart 0 512
    else if k = 4 then d.erasePart 512 1024
    else if k = 5 then d.erasePart 1024 1536
    else d.erasePart 1536 1920
  else release k

/-- The step of a path that zeroises. -/
def zeroiseStep (path : Nat) : Bool := path == 2 || path == 5 || path == 6 || path == 7 || path == 8

/-- The boot ROM's life-cycle check (R543): an open record not complete is resumed. `cut` is the number of steps
after which power is lost, if it is. The second component says whether the check ended. -/
def Dev.lcCheck (d : Dev) (cut : Option Nat) : Dev × Bool :=
  match d.lastOpen with
  | none => (d.showLcs, true)
  | some k =>
    let r := d.lcRecord k
    let n := recSteps r
    if recComplete r then (d.showLcs, true) else
    let path := recPath r
    let first := ((List.range (n + 1)).find? fun j => j != 0 && !recMark r j).getD n
    let d := if zeroiseStep path then d.zeroise else d
    let todo := (List.range (n + 1)).filter fun j => decide (first ≤ j)
    let todo' := match cut with | some c => todo.take c | none => todo
    let d := todo'.foldl (fun (d : Dev) j => (d.lcStep path j).burn (0x400 + 128 * k + 16 + 2 * j) 3) d
    if todo'.length < todo.length then (d, false)
    else
      let d := (d.raise Ev.lcTransition (recTarget r)).raise Ev.lcResumed first
      let d := if path = 6 then
          d.withLcs fun x => { x with session := some { rights := 0x1E7, compat := true } } else d
      (d.showLcs, true)

/-! ### The commands -/

/-- NONCE: LCS_CMD written with op NONCE. -/
def execNonce (inp : Fin 101) (s : State) : Host.Outcome State Fault Refusal :=
  run s fun d => let r := writeLcsCmd inp 1 d; r.1.complete ⟨inp, false⟩ r.2 0

/-- DEBUG. -/
def execDebug (inp : Fin 101) (s : State) : Host.Outcome State Fault Refusal :=
  run s fun d => let r := writeLcsCmd inp 2 d; r.1.complete ⟨inp, false⟩ r.2 0

/-- TRANSITION. -/
def execTransition (inp : Fin 101) (s : State) : Host.Outcome State Fault Refusal :=
  run s fun d => let r := writeLcsCmd inp 3 d; r.1.complete ⟨inp, false⟩ r.2 0

/-- CLOSE. -/
def execClose (inp : Fin 101) (s : State) : Host.Outcome State Fault Refusal :=
  run s fun d => let r := writeLcsCmd inp 4 d; r.1.complete ⟨inp, false⟩ r.2 0

/-- CERT_CHECK_DONE. -/
def execCertCheckDone (s : State) : Host.Outcome State Fault Refusal := run s certCheckDone

/-- DEBUG_SESSION_EXPIRE. -/
def execDebugSessionExpire (s : State) : Host.Outcome State Fault Refusal := run s sessionExpire

/-- NONCE_LAPSE. -/
def execNonceLapse (s : State) : Host.Outcome State Fault Refusal := run s nonceLapse

end Sys2Proof.Machine
end

