-- ==== Sys2Proof/Machine/Memory.lean ====
section
/-! DEFINITION. The device address space (R33 to R38) but for the setup registers: reads and writes of the NV
aperture, the drove memories and DDR4 by an arbitration input, or by a requester above 100 that is none. -/

namespace Sys2Proof.Machine

/-- The drove memories. -/
def inDroves (a : Nat) : Bool := decide (0x40000000 ≤ a ∧ a < 0x43000000)
/-- The drove of a drove memory address. -/
def droveOf (a : Nat) : Nat := (a - 0x40000000) / 0x400000
/-- The DDR4 range. -/
def inDdr (a : Nat) : Bool := decide (0x1000000000 ≤ a ∧ a < 0x4000000000)

/-- Which memory holds all of a range. -/
inductive Mem where
  | tally | nv | drove | ddr | none
deriving DecidableEq, Repr

def memOf (a len : Nat) : Mem :=
  let all := fun (p : Nat → Bool) => p a && p (a + len - 1)
  if all inTallyNv then .tally else if all inNv then .nv else if all inDroves then .drove
  else if all inDdr then .ddr else .none

/-- The Herdsman or debug in DOZE or HIBERNATE (R474). -/
def Dev.shutOut (d : Dev) (inp : Nat) : Bool :=
  (inp == 99 || inp == 100) && decide (2 ≤ d.rd R.PWR_STAT_state)

/-- A memory request for a drove that is stopped: its word times out (R23). -/
def Dev.droveGone (d : Dev) (i : Nat) : Dev := if d.stileGone i then d else stileTimeout i d

/-- A read of `len` > 0 bytes: status and bytes. What the physical layer finds is said of a DDR4 line by `errs`,
of an NV codeword by `f`. -/
def Dev.memRead (d : Dev) (inp a len : Nat) (errs : List (Nat × Nat) := []) (f : NvFind := {}) : Dev × Nat × List Byte :=
  let zero := List.replicate len (0 : Byte)
  match memOf a len with
  | .nv =>
    if d.island 102 ≠ 0 then (d, Sts.poweredOff, zero)
    else if bankOf a ≠ bankOf (a + len - 1) then (d, Sts.unmapped, zero)
    else d.nvRead inp a len f
  | .drove =>
    let i := 64 + droveOf a
    if d.shutOut inp then (d, Sts.poweredOff, zero)
    else if d.island i ≠ 0 then (d.droveGone i, Sts.poweredOff, zero)
    else let d := d.serviceRange a len; (d, Sts.ok, d.bytes a len)
  | .ddr => if d.shutOut inp then (d, Sts.poweredOff, zero) else d.ddrRead a len errs
  | _ => (d, Sts.unmapped, zero)

/-- A write: its status. -/
def Dev.memWrite (d : Dev) (inp a : Nat) (l : List Byte) (errs : List (Nat × Nat) := []) : Dev × Nat :=
  match memOf a l.length with
  | .nv => if d.island 102 ≠ 0 then (d, Sts.poweredOff) else d.nvWrite inp a l
  | .drove =>
    let i := 64 + droveOf a
    if d.shutOut inp then (d, Sts.poweredOff)
    else if d.island i ≠ 0 then (d.droveGone i, Sts.poweredOff)
    else ((d.serviceRange a l.length).setBytes a l, Sts.ok)
  | .ddr => if d.shutOut inp then (d, Sts.poweredOff) else d.ddrWrite a l errs
  | _ => (d, Sts.unmapped)

/-- An error of a drove memory is logged (R200): 8-byte unit, uncorrectable or not. -/
def Dev.droveEcc (d : Dev) (a : Nat) (uncorr : Bool) : Dev :=
  let x := [droveOf a]
  let d := ((d.wr R.DRV_DROVE_ECC_LOG_addr x ((a - 0x40000000) % 0x400000 / 8)).wr R.DRV_DROVE_ECC_LOG_uncorr x
    (bit uncorr)).wr R.DRV_DROVE_ECC_LOG_valid x 1
  if uncorr then d.bump R.DRV_DROVE_ECC_LOG_uncorr_count x else d.bump R.DRV_DROVE_ECC_LOG_corr x

/-- What a read of a crib or an instruction memory (by drover) or a drove memory finds: 1 a corrected error,
2 an uncorrectable one (R200). -/
def Dev.sramEcc (d : Dev) (n key ecc : Nat) : Dev :=
  if ecc = 0 then d
  else if inDroves key then d.droveEcc key (ecc == 2)
  else if ecc = 1 then d.drvCount n 13 else d

end Sys2Proof.Machine
end

