-- ==== Sys2Proof/Machine/DroverCtl.lean ====
section
/-! DEFINITION. Chapter 06: DRV_CTL, instruction memory fills, the watchdog, the send queues and the DMA
channels. -/

namespace Sys2Proof.Machine

/-- The threads of drover `n` may issue. -/
def Dev.issues (d : Dev) (n : Nat) : Bool := d.droveRuns n && !d.halted n && !d.pwr.stopped

/-! ### Send queues (R206 to R210, Table 06-5) -/

def sdDest (x : Nat) : Nat := bits x 0 2
def sdPort (x : Nat) : Nat := bits x 2 1
def sdWantTs (x : Nat) : Bool := x.testBit 3
def sdHasN (x : Nat) : Bool := x.testBit 4
def sdHasE (x : Nat) : Bool := x.testBit 5
def sdFree (x : Nat) : Bool := x.testBit 6
def sdErr (x : Nat) : Bool := x.testBit 7
def sdTarget (x : Nat) : Nat := bits x 8 14
def sdSq (x : Nat) : Nat := bits x 22 2
def sdLen (x : Nat) : Nat := bits x 32 14
def sdSrc (x : Nat) : Nat := bits x 64 40
def sdN (x : Nat) : Nat := bits x 128 64
def sdE (x : Nat) : Nat := bits x 192 96
def sdTag (x : Nat) : Nat := bits x 320 32

def Dev.sendQ (d : Dev) (n q : Nat) : List Nat := tget [] (d.drover n).sq q
/-- A send queue replaced; DRV_SQ_STAT shows its depth. -/
def Dev.setSendQ (d : Dev) (n q : Nat) (l : List Nat) : Dev :=
  let x := d.drover n
  let d := d.setDrover n { x with sq := tset [] x.sq q l }
  d.wr R.DRV_SQ_STAT_depth [n] (putBits (d.rd R.DRV_SQ_STAT_depth [n]) (4 * q) 4 l.length)

/-- The input stile of a fabric island is frozen by reconfiguration (R22), or held by an entry. -/
def Dev.stileFrozen (d : Dev) (i k : Nat) : Bool := (d.rd R.FAB_ISL_STILE_frozen [i]).testBit k || d.pwr.stopped

/-- The frame a sender other than the route engine hands to a drover or a fabric island. -/
def sentFrame (bytes : List Byte) (err : Bool) (drv : Option Nat) : RxFrame :=
  { frame := { bytes := bytes, port := 0, sp := 0, ts := 0, tsValid := false, pri := 0, cells := 0 }, err := err, srcDrv := drv, srcFab := drv.isNone }

/-- The egress request of a sender. -/
def sentEgress (bytes : List Byte) (stream : Nat) (hasN hasE : Bool) (n e : Nat) (ts : Option (Nat × Nat)) : EgReq :=
  { stream := stream, bytes := bytes, index := if hasN then some n else none, elig := if hasE then some (rawToBeads e) else none, tsTo := ts }

/-- The head of a send queue enters the droveway, waits at a frozen stile, or is discarded (R207, R208, R225).
Whether its word waits at a gated island is decided by STILE_TIMEOUT. -/
def sendIssue (n q : Nat) (d : Dev) : Dev :=
  match d.sendQ n q with
  | [] => d
  | x :: rest =>
    if d.issues n = false then d else
    let dest := sdDest x
    let isl := sdTarget x % 64
    let k := sdTarget x / 64 % 2
    let thaw := fun (d : Dev) => d.clearBit R.DRV_SQ_STAT_frozen [n] q
    if dest = 1 ∧ d.island isl ≠ 0 then
      if d.stileGone isl then ((thaw d).setSendQ n q rest).drvCount n 5 else d
    else if dest = 1 ∧ d.stileFrozen isl k = true then
      if (d.rd R.DRV_SQ_STAT_frozen [n]).testBit q then d
      else (d.setBit R.DRV_SQ_STAT_frozen [n] q).drvCause n 6
    else
      let key := placeKey n (sdSrc x)
      let d := d.serviceRange key (sdLen x)
      let bytes := d.bytes key (sdLen x)
      let d := ((thaw d).setSendQ n q rest).drvCount n 4
      let d := if sdFree x then (match d.windowAt n (sdSrc x) (sdLen x) with
          | some w => (d.freeWindow n (windowAddr w.first)).getD d
          | none => d) else d
      if dest = 0 then
        d.pushEgr (sdPort x) (sentEgress bytes (sdTarget x) (sdHasN x) (sdHasE x) (sdN x) (sdE x)
          (if sdWantTs x then some (n, sdTag x) else none))
      else if dest = 1 then d.pushFab isl k (sentFrame bytes (sdErr x) (some n))
      else d.pushDrv (sdTarget x % 128) (sentFrame bytes (sdErr x) (some n))

/-- A thread blocked in PKT.SEND on queue `q`, or in DMA.GO or DMA.WAIT, is unblocked by LONG_OP_COMPLETE. -/
def Dev.flushQueue (d : Dev) (n q : Nat) : Dev :=
  let k := (d.sendQ n q).length
  ((d.setSendQ n q []).drvCount n 6 k).clearBit R.DRV_SQ_STAT_frozen [n] q

/-! ### DMA (R217, R218, R260) -/

def Dev.dmaChan (d : Dev) (n c : Nat) : DmaChan := tget {} (d.drover n).dma c
def Dev.setDma (d : Dev) (n c : Nat) (x : DmaChan) : Dev :=
  let y := d.drover n
  d.setDrover n { y with dma := tset {} y.dma c x }

/-- The first failure since the last report stands. -/
def DmaChan.fail (x : DmaChan) (st : Nat) : DmaChan := if x.status = 0 then { x with status := st } else x

/-- A range a DMA may touch: the crib, one drove memory or DDR4, and as a source the NV aperture (R217). -/
def dmaRange (n a len : Nat) (source : Bool) : Bool :=
  inCrib a len || inOneDrove n a len ||
    (match place n a, place n (a + len - 1) with
      | .device x, .device y => (inDdr x && inDdr y) || (source && inNv x && inNv y)
      | _, _ => false)

/-- A 64-byte unit is read: status 0 OK, 1 ECC, 2 BUS_ERR, the bytes, whether an NV bank was busy. -/
def Dev.dmaLoad (d : Dev) (n a ecc : Nat) (f : NvFind) : Dev × Nat × List Byte × Bool :=
  match place n a with
  | .device x =>
    let (d, st, l) := d.memRead n x 64 [] f
    (d, if st = Sts.ok ∨ st = Sts.nvBusy then 0 else 2, l, st == Sts.nvBusy)
  | _ =>
    let key := placeKey n a
    let d := (d.serviceRange key 64).sramEcc n key ecc
    if ecc = 2 then (d, 1, [], false) else (d, 0, d.bytes key 64, false)

/-- A 64-byte unit is written. -/
def Dev.dmaStore (d : Dev) (n a : Nat) (l : List Byte) : Dev × Nat :=
  match place n a with
  | .device x => let r := d.memWrite n x l; (r.1, if r.2 = Sts.ok then 0 else 2)
  | _ => let key := placeKey n a; ((d.serviceRange key 64).setBytes key l, 0)

/-- The units of a descriptor move in ascending order until one fails; `bad` is the unit whose data the physical
layer finds in error, with the error (R200). -/
def Dev.dmaMove (d : Dev) (n : Nat) (x : DmaDesc) (bad : Option (Nat × Nat)) (f : NvFind) : Dev × Nat × Bool :=
  (List.range (x.len / 64)).foldl (fun (r : Dev × Nat × Bool) i =>
    let (d, st, busy) := r
    if st ≠ 0 then r else
    let ecc := match bad with | some (j, e) => if j = i then e else 0 | none => 0
    let (d, st, l, b) := d.dmaLoad n (x.src + 64 * i) ecc f
    if st ≠ 0 then (d, st, busy || b) else
    let (d, st) := d.dmaStore n (x.dst + 64 * i) l
    (if st = 0 then d.drvCount n 9 64 else d, st, busy || b)) (d, 0, false)

/-- The descriptor at the front of a channel ends. -/
def dmaUnitDone (n c : Nat) (bad : Option (Nat × Nat)) (f : NvFind) (d : Dev) : Dev :=
  let x := d.dmaChan n c
  match x.queue with
  | [] => d
  | e :: rest =>
    if d.issues n = false then d else
    let (d, st, busy) := d.dmaMove n e bad f
    let y : DmaChan := { x with queue := rest, busySeen := x.busySeen || busy }
    d.setDma n c (if st = 0 then y else y.fail st)

/-! ### DRV_CTL (R224 to R231) -/

/-- DRV_CTL.reset of a halted drover (R227); a fill in progress ends ABORTED and its range is undefined
(R230). -/
def Dev.resetDrover (d : Dev) (n : Nat) : Dev :=
  let d := (List.range 4).foldl (fun (d : Dev) q => d.flushQueue n q) d
  let x := d.drover n
  let held := (List.range 256).filter fun s => d.semMine n s
  let dma := x.dma.map fun (e : Nat × DmaChan) => (e.1, if e.2.queue = [] then e.2 else { e.2.fail 3 with queue := [] })
  let d := d.setDrover n { x with wins := [], ts := [], dma := dma, sem := [] }
  let d := (List.range 8).foldl (fun (d : Dev) t =>
    let y := d.thr n t
    (d.setThr n t { y with wait := none, asked := false, cmp := none, due := 0, deint := {} }).setThrState n t 0) d
  let d := d.semWithdraw n
  let d := held.foldl (fun (d : Dev) s => if d.semMine n s then d.semFree s else d) d
  let d := d.semSettleAll
  if d.flag R.DRV_IMEM_LOAD_busy [n] then
    let d := d.loseMem (imemKey n x.fillDst) x.fillLen
    let d := d.withNvc fun v => { v with stalled := v.stalled.filter fun e => e.1 != n }
    (((d.wr R.DRV_IMEM_LOAD_busy [n] 0).wr R.DRV_IMEM_LOAD_status [n] 3).drvCount n 14).drvCause n 3
  else d

/-- A write of DRV_CTL by anyone that may: halt, resume, reset, start, in this order; a resume or reset that the
present state ignores reports BUSY (R589). -/
def writeDrvCtl (n v cause : Nat) (d : Dev) : Dev × Nat :=
  if d.droveRuns n = false then (d, Sts.poweredOff) else
  let halt := v.testBit 0
  let was := d.halted n
  let d := if halt then d.haltReq n cause else d
  let d := if v.testBit 1 ∧ halt = false then d.resume n else d
  let canReset := d.halted n
  let d := if v.testBit 2 ∧ canReset = true then ((d.resetDrover n).resume n) else d
  let d := if v.testBit 3 then d.startDrover n else d
  let ignored := (v.testBit 1 && !was) || (v.testBit 2 && !canReset)
  (d, if ignored then Sts.busy else Sts.ok)

/-- A write of DRV_IMEM_LOAD: the fields written, then go (R229). A source in the NV aperture reads through the
fetch port and may stall. -/
def startFill (n : Nat) (d : Dev) : Dev :=
  if d.flag R.DRV_IMEM_LOAD_busy [n] then d.wr R.DRV_IMEM_LOAD_refused [n] 1
  else
    let src := d.rd R.DRV_IMEM_LOAD_src [n]
    let len := d.rd R.DRV_IMEM_LOAD_len [n]
    let d := d.wr R.DRV_IMEM_LOAD_busy [n] 1
    let d := d.setDrover n { d.drover n with fillSrc := src, fillDst := d.rd R.DRV_IMEM_LOAD_dst [n], fillLen := len }
    if inNv src = true ∧ d.nvBusy (bankOf src) = true then
      d.withNvc fun v => { v with stalled := v.stalled ++ [(n, src, len, d.clock)] }
    else d

/-- A fill ends; `bad` is the source offset at which the data is uncorrectable. -/
def fillDone (n : Nat) (bad : Option Nat) (d : Dev) : Dev :=
  if d.flag R.DRV_IMEM_LOAD_busy [n] = false ∨ (d.nvc.stalled.any fun e => e.1 == n) = true ∨ d.droveRuns n = false then d else
  let src := (d.drover n).fillSrc
  let len := (d.drover n).fillLen
  let dst := (d.drover n).fillDst
  let ok := (match memOf src len with | .nv => true | .drove => true | .ddr => true | _ => false) && len != 0
    && decide (dst + len ≤ 65536) && src % 64 == 0 && dst % 64 == 0 && len % 64 == 0
  let fin := fun (d : Dev) (st : Nat) =>
    (((d.wr R.DRV_IMEM_LOAD_busy [n] 0).wr R.DRV_IMEM_LOAD_status [n] st).drvCount n 14).drvCause n 3
  if ok = false then fin d 2
  else
    let (d, st) := (List.range (len / 64)).foldl (fun (r : Dev × Nat) i =>
      if r.2 ≠ 0 then r else
      let a := src + 64 * i
      let hit := bad.any fun o => o / 64 == i
      let (d, st, l) := if inNv src then
          let p := r.1.nvSenses a 64 n (if hit then { first := none } else {})
          (p.1, (if p.2 then 0 else Sts.uncorrectable), p.1.bytes a 64)
        else r.1.memRead n a 64
      if st ≠ 0 ∨ hit = true then (d, 1) else ((d.serviceAt (imemKey n (dst + 64 * i))).setBytes (imemKey n (dst + 64 * i)) l, 0)) (d, 0)
    fin d st

/-- A watched thread's period passes without a kick (R223). -/
def drvWatchdog (n t : Nat) (d : Dev) : Dev :=
  let us := d.rd R.DRV_WDOG_period_us [n]
  let st := d.thrState n t
  if us = 0 ∨ (d.rd R.DRV_WDOG_thr_mask [n]).testBit t = false ∨ d.issues n = false ∨ st = 0 ∨ st = 3
      ∨ d.now < (d.thr n t).kick + us * 65536000 then d
  else
    let d := d.setThr n t { d.thr n t with kick := (d.thr n t).kick + us * 65536000 }
    let d := (d.drvCount n 11).drvCause n 1
    match d.rd R.DRV_WDOG_action [n] with
    | 0 => d
    | 1 => d.makeDue n t 1
    | _ => d.haltReq n 3

/-! ### The commands -/

/-- DRV_HALT. -/
def execDrvHalt (inp : Fin 101) (n : Fin 96) (s : State) : Host.Outcome State Fault Refusal :=
  run s fun d => let r := writeDrvCtl n 1 1 d; r.1.complete ⟨inp, false⟩ r.2 0

/-- DRV_RESUME. -/
def execDrvResume (inp : Fin 101) (n : Fin 96) (s : State) : Host.Outcome State Fault Refusal :=
  run s fun d => let r := writeDrvCtl n 2 1 d; r.1.complete ⟨inp, false⟩ r.2 0

/-- DRV_RESET. -/
def execDrvReset (inp : Fin 101) (n : Fin 96) (s : State) : Host.Outcome State Fault Refusal :=
  run s fun d => let r := writeDrvCtl n 4 1 d; r.1.complete ⟨inp, false⟩ r.2 0

/-- DRV_START. -/
def execDrvStart (inp : Fin 101) (n : Fin 96) (s : State) : Host.Outcome State Fault Refusal :=
  run s fun d => let r := writeDrvCtl n 8 1 d; r.1.complete ⟨inp, false⟩ r.2 0

/-- IMEM_FILL: a write of DRV_IMEM_LOAD with go. -/
def execImemFill (inp : Fin 101) (desc : Bool) (n : Fin 96) (src : BitVec 38) (dst : BitVec 16) (len : BitVec 17) (s : State) :
    Host.Outcome State Fault Refusal :=
  run s fun d =>
    let q : Req := ⟨inp, desc⟩
    if d.droveRuns n = false then d.complete q Sts.poweredOff 0 else
    let busy := d.flag R.DRV_IMEM_LOAD_busy [n]
    let d1 := if d.locked q then d else
      ((d.wr R.DRV_IMEM_LOAD_src [n] src.toNat).wr R.DRV_IMEM_LOAD_dst [n] dst.toNat).wr R.DRV_IMEM_LOAD_len [n] len.toNat
    (startFill n d1).complete q (if d.locked q then Sts.locked else if busy then Sts.busy else Sts.ok) 0

/-- IMEM_FILL_DONE: the source offset at which data is uncorrectable, if any. -/
def execImemFillDone (n : Fin 96) (bad : Option Nat) (s : State) : Host.Outcome State Fault Refusal :=
  run s (fillDone n bad)

/-- DRV_WATCHDOG. -/
def execDrvWatchdog (n : Fin 96) (t : Fin 8) (s : State) : Host.Outcome State Fault Refusal :=
  run s (drvWatchdog n t)

/-- SEND_QUEUE_ISSUE. -/
def execSendQueueIssue (n : Fin 96) (q : Fin 4) (s : State) : Host.Outcome State Fault Refusal :=
  run s (sendIssue n q)

/-- DMA_UNIT_DONE: channel `c`; the unit whose data is in error, and the error; what an NV sense finds. -/
def execDmaUnitDone (n : Fin 96) (c : Fin 4) (bad : Option (Nat × Fin 3)) (f : NvFind) (s : State) :
    Host.Outcome State Fault Refusal :=
  run s (dmaUnitDone n c (bad.map fun b => (b.1, b.2.val)) f)

end Sys2Proof.Machine
end

