-- ==== Sys2Proof/Machine/Fabric.lean ====
section
/-! DEFINITION. Chapter 08: the fabric islands' hard ports, resets, clocks, wired-AND lines. The user logic is
outside the machine: what it sends arrives as commands, what it takes leaves as `Out.stile` (log entry 75). -/

namespace Sys2Proof.Machine

def Dev.fabIsl (d : Dev) (i : Nat) : FabIsl := tget {} d.fab.isl i
def Dev.setFabIsl (d : Dev) (i : Nat) (x : FabIsl) : Dev :=
  { d with fab := { d.fab with isl := tset {} d.fab.isl i x } }

/-- FAB_ISL_STAT.state: 0 UNCONFIGURED, 1 CONFIGURING, 2 USER, 3 RECONFIG, 4 GATED. -/
def Dev.fabState (d : Dev) (i : Nat) : Nat := d.rd R.FAB_ISL_STAT_state [i]

/-- The user logic of an island runs, with its ports open: its section 0 is neither under an apply nor held
stopped (R274, R343, R354). -/
def Dev.fabRuns (d : Dev) (i : Nat) : Bool :=
  let x := d.fabIsl i
  d.island i == 0 && x.clk && !x.reset && x.ports && !d.pwr.stopped
    && !(d.rd R.FAB_ISL_STAT_sect_rcfg [i]).testBit 0 && decide (8 * i ∉ d.cfg.stopped)

/-- Output port `k` may send. -/
def Dev.fabSends (d : Dev) (i k : Nat) : Bool :=
  d.fabRuns i && !(d.rd R.FAB_ISL_STILE_frozen [i]).testBit (2 + k)

/-! ### Resets, clock lines, wired-AND lines (R275, R276, R280, R282, R283) -/

/-- A write of FAB_ISL_CTL.ureset; `mid` names the output ports whose user logic is within a message. -/
def uresetWrite (i mid : Nat) (d : Dev) : Dev × Nat :=
  if d.island i ≠ 0 then (d, Sts.poweredOff)
  else if d.fabState i = 1 ∨ d.fabState i = 3 then (d, Sts.busy)
  else
    let x := d.fabIsl i
    let d := d.setFabIsl i { x with ureset := true, reset := true }
    let d := if mid = 0 then d else d.bump R.FAB_ISL_STILE_trunc [i] (bit (mid.testBit 0) + bit (mid.testBit 1))
    (d, Sts.ok)

/-- 16 cycles of CL0 have passed. -/
def uresetRelease (i : Nat) (d : Dev) : Dev :=
  let x := d.fabIsl i
  if x.ureset then d.setFabIsl i { x with ureset := false, reset := false } else d

/-- The value of the wired-AND lines: the contributions are the user logic's (a free value) unless every one is
released. -/
def wandValue (i : Nat) (d : Dev) : Dev × Nat :=
  let force := d.rd R.FAB_ISL_WAND_force [i]
  let open_ := ones 32 - force
  if d.fabRuns i = false ∨ d.fabState i ≠ 2 then (d, open_)
  else
    let (d, v) := d.draw 32
    (d, v &&& open_)

/-! ### Output messages (R296 to R300, Table 08-8) -/

def fhOp (h : Nat) : Nat := bits h 0 4
def fhTarget (h : Nat) : Nat := bits h 8 14
def fhTag (h : Nat) : Nat := bits h 32 16
def fhLen (h : Nat) : Nat := bits h 48 14
def fhAddr (h : Nat) : Nat := bits h 64 40

/-- R298: the message is discarded. -/
def Dev.fabBad (d : Dev) (h words : Nat) : Bool :=
  let op := fhOp h
  let len := fhLen h
  let a := fhAddr h
  let mem := 3 ≤ op
  let zeros := bits h 23 9 != 0 || bits h 62 2 != 0 || bits h 104 24 != 0 || bits h 288 224 != 0
  let lenBad := if mem then decide (len < 64 ∨ 4096 < len) || len % 64 != 0 else decide (len < 64 ∨ 9600 < len)
  let wordsBad := if op = 3 then words != 0 else words != (len + 63) / 64
  let inDrove := inDroves a && inDroves (a + len - 1) && droveOf a == droveOf (a + len - 1)
  let inMem := inDrove || (inDdr a && decide (a + len ≤ d.ddrEnd))
  decide (6 ≤ op) || zeros || lenBad || wordsBad || (mem && (!inMem || a % 64 != 0 || (op == 5 && !inDrove)))
    || (op == 1 && decide (96 ≤ fhTarget h % 128))

/-- A discarded message is counted and answered. -/
def Dev.fabDiscard (d : Dev) (i k h : Nat) : Dev :=
  let d := d.bump R.FAB_ISL_STILE_bad [i]
  let op := fhOp h
  if op = 3 ∨ op = 4 ∨ op = 5 then d.fabResp (2 * i + k) { kind := op - 3, status := 1, tag := fhTag h }
  else if op = 0 ∧ h.testBit 4 = true then d.fabResp (2 * i + k) { kind := 3, status := 0, tag := fhTag h, dropped := true }
  else d

/-- The words of a message that begins with header `h` leave on OUTk. -/
def Dev.fabOut (d : Dev) (i words : Nat) : Dev := d.bumpWrap R.FAB_ISL_WCNT_words_out [i] (1 + words)

/-- A message is taken from the user logic: `act` handles one that R298 does not discard. -/
def fabMessage (i k h words : Nat) (mine : Nat → Bool) (act : Dev → Dev) (d : Dev) : Dev :=
  if d.fabSends i k = false ∨ mine (fhOp h) = false then d
  else
    let bad := d.fabBad h words
    let d := d.fabOut i words
    if bad then d.fabDiscard i k h else act d

/-- The first `n` bytes of a message's data words. -/
def fabData (l : List Byte) (n : Nat) : List Byte := (l ++ List.replicate (n - l.length) 0).take n

/-- FRAME_EGRESS. -/
def frameEgress (i k h : Nat) (data : List Byte) (words : Nat) (d : Dev) : Dev :=
  fabMessage i k h words (fun op => op == 0 || decide (6 ≤ op)) (fun d =>
    d.pushEgr (bits h 22 1) (sentEgress (fabData data (fhLen h)) (fhTarget h) (h.testBit 5) (h.testBit 6)
      (bits h 128 64) (bits h 192 96) (if h.testBit 4 then some (96 + 2 * i + k, fhTag h) else none))) d

/-- FRAME_DROVER; a set err marks the frame bad, as the eop word's err does. -/
def frameDrover (i k h : Nat) (data : List Byte) (words : Nat) (err : Bool) (d : Dev) : Dev :=
  fabMessage i k h words (fun op => op == 1) (fun d =>
    d.pushDrv (fhTarget h % 128) (sentFrame (fabData data (fhLen h)) (h.testBit 7 || err) none)) d

/-- FRAME_FABRIC. -/
def frameFabric (i k h : Nat) (data : List Byte) (words : Nat) (err : Bool) (d : Dev) : Dev :=
  fabMessage i k h words (fun op => op == 2) (fun d =>
    d.pushFab (fhTarget h % 64) (fhTarget h / 64 % 2) (sentFrame (fabData data (fhLen h)) (h.testBit 7 || err) none)) d

/-- A request whose drove is stopped is discarded under R23: TIMEOUT (R300). -/
def Dev.fabTimeout (d : Dev) (i k h drove : Nat) : Dev :=
  ((d.droveGone drove).bump R.FAB_ISL_STILE_tmo [i]).fabResp (2 * i + k) { kind := fhOp h - 3, status := 3, tag := fhTag h }

/-- The response status of a memory access; what a status that R299 has no code for becomes is a free value. -/
def Dev.fabStatus (d : Dev) (st : Nat) : Dev × Nat :=
  if st = Sts.ok then (d, 0)
  else if st = Sts.unmapped ∨ st = Sts.protected_ then (d, 1)
  else if st = Sts.uncorrectable then (d, 2)
  else d.draw 2

/-- A memory request: stopped drove, then the access. -/
def memRequest (i k h words : Nat) (op : Nat) (act : Dev → Dev × Nat × List Byte) (d : Dev) : Dev :=
  fabMessage i k h words (fun o => o == op) (fun d =>
    let a := fhAddr h
    if inDroves a = true ∧ d.island (64 + droveOf a) ≠ 0 then d.fabTimeout i k h (64 + droveOf a)
    else
      let (d, st, l) := act d
      let (d, st) := d.fabStatus st
      d.fabResp (2 * i + k) { kind := op - 3, status := st, tag := fhTag h, data := if op = 3 ∧ st = 0 then l else [] }) d

/-- What a drove memory access finds, as a status. -/
def Dev.stileEcc (d : Dev) (a ecc : Nat) : Dev × Nat :=
  if inDroves a = true ∧ ecc ≠ 0 then (d.droveEcc a (ecc == 2), if ecc = 2 then Sts.uncorrectable else Sts.ok) else (d, Sts.ok)

/-- MEM_READ. -/
def stileMemRead (i k h ecc : Nat) (errs : List (Nat × Nat)) (d : Dev) : Dev :=
  memRequest i k h 0 3 (fun d =>
    let (d, st, l) := d.memRead 101 (fhAddr h) (fhLen h) errs
    let (d, e) := d.stileEcc (fhAddr h) ecc
    (d, worst st e, l)) d

/-- MEM_WRITE. -/
def stileMemWrite (i k h : Nat) (data : List Byte) (words : Nat) (d : Dev) : Dev :=
  memRequest i k h words 4 (fun d =>
    let r := d.memWrite 101 (fhAddr h) (fabData data (fhLen h))
    (r.1, r.2, [])) d

/-- A signed 64-bit sum that saturates. -/
def satAdd64 (a b : Nat) : Nat := ofSigned 64 (satSigned 64 (toSigned 64 a + toSigned 64 b))

/-- MEM_ADD: each lane of every data word is added to the matching word of drove memory. -/
def stileMemAdd (i k h : Nat) (data : List Byte) (words ecc : Nat) (d : Dev) : Dev :=
  memRequest i k h words 5 (fun d =>
    let a := fhAddr h
    let l := fabData data (fhLen h)
    let (d, st) := d.stileEcc a ecc
    if st ≠ Sts.ok then (d, st, []) else
    let d := d.serviceRange a (fhLen h)
    let d := (List.range (fhLen h / 8)).foldl (fun (d : Dev) j =>
      d.store (a + 8 * j) 8 (satAdd64 (d.load (a + 8 * j) 8) (ofLe ((l.drop (8 * j)).take 8)))) d
    (d, Sts.ok, [])) d

/-! ### Input messages (R295, R299) -/

/-- Input port `k` may deliver. -/
def Dev.fabTakes (d : Dev) (i k : Nat) : Bool := d.fabRuns i && !(d.rd R.FAB_ISL_STILE_frozen [i]).testBit k

/-- The next frame for input port `k` is taken by the user logic; one for a stopped island is discarded once
the island's stiles have timed out. -/
def fabFrameIn (i k : Nat) (d : Dev) : Dev :=
  match tget [] d.med.fabIn (2 * i + k) with
  | [] => d
  | r :: rest =>
    let d' := d.withMed fun m => { m with fabIn := tset [] m.fabIn (2 * i + k) rest }
    if d.island i ≠ 0 then (if d.stileGone i then d' else d)
    else if d.fabTakes i k = false then d
    else
      let (d, w) := d'.windowMeta { r with migIn := false, migOut := false }
      (d.bumpWrap R.FAB_ISL_WCNT_words_in [i] (1 + (r.frame.bytes.length + 63) / 64)).emit (.stile i k 2 w r.frame.bytes)

/-- The first word of a response (R299). -/
def FabResp.word (r : FabResp) : Nat :=
  r.kind + r.status * 16 + r.tag % 65536 * 2 ^ 32
    + (if r.kind = 3 then r.ts % 2 ^ 96 * 2 ^ 96 + bit r.dropped * 2 ^ 192 else 0)

/-- The next response for input port `k` is taken. -/
def stileResponse (i k : Nat) (d : Dev) : Dev :=
  match tget [] d.fab.resp (2 * i + k) with
  | [] => d
  | r :: rest =>
    let d' := { d with fab := { d.fab with resp := tset [] d.fab.resp (2 * i + k) rest } }
    if d.island i ≠ 0 then (if d.stileGone i then d' else d)
    else if d.fabTakes i k = false then d
    else (d'.bumpWrap R.FAB_ISL_WCNT_words_in [i] (1 + r.data.length / 64)).emit (.stile i k 3 r.word r.data)

/-! ### Events (R288, R449) -/

/-- A rising edge of an island's user event output. -/
def fabUserEvent (i : Nat) (d : Dev) : Dev :=
  if d.fabRuns i = false ∨ (d.rd R.FAB_USER_EVT_evt).testBit i = true then d
  else
    let d := d.setBit R.FAB_USER_EVT_evt [] i
    if (d.rd R.FAB_USER_EVT_EN_en).testBit i then d.raise Ev.fabricUser i else d

/-- A read of an ECC-mode granary finds a single-bit error, or a double-bit one. -/
def granaryEcc (i g : Nat) (two : Bool) (d : Dev) : Dev :=
  if d.fabRuns i = false ∨ (d.fabIsl i).gran = false then d
  else
    let d := d.service (classBase 3 + 40 * i + g)
    let d := ((d.wr R.FAB_ISL_ECC_granary [i] g).wr R.FAB_ISL_ECC_uncorr [i] (bit two)).wr R.FAB_ISL_ECC_valid [i] 1
    let d := if two then d.bump R.FAB_ISL_ECC_uncorr_count [i] else d.bump R.FAB_ISL_ECC_corr [i]
    d.raise Ev.granaryEcc (i + 32768 * bit two)

/-! ### The commands -/

/-- FAB_URESET; `mid` names the output ports whose user logic is within a message. -/
def execFabUreset (inp : Fin 101) (i : Fin 64) (mid : BitVec 2) (s : State) : Host.Outcome State Fault Refusal :=
  run s fun d => let r := uresetWrite i mid.toNat d; r.1.complete ⟨inp, false⟩ r.2 0

/-- URESET_RELEASE. -/
def execUresetRelease (i : Fin 64) (s : State) : Host.Outcome State Fault Refusal := run s (uresetRelease i)

/-- CLKSEL_WRITE. -/
def execClkselWrite (inp : Fin 101) (desc : Bool) (i : Fin 64) (v : BitVec 32) (s : State) :
    Host.Outcome State Fault Refusal :=
  run s fun d =>
    let q : Req := ⟨inp, desc⟩
    if d.island i ≠ 0 then d.complete q Sts.poweredOff 0
    else if d.locked q then d.complete q Sts.locked 0
    else (d.wr R.FAB_ISL_CLKSEL_src [i] v.toNat).complete q Sts.ok 0

/-- FRAME_EGRESS: island, output port, header word, data, data words. -/
def execFrameEgress (i : Fin 64) (k : Fin 2) (h : BitVec 512) (data : List Byte) (words : Nat) (s : State) :
    Host.Outcome State Fault Refusal := run s (frameEgress i k h.toNat data words)

/-- FRAME_DROVER. -/
def execFrameDrover (i : Fin 64) (k : Fin 2) (h : BitVec 512) (data : List Byte) (words : Nat) (err : Bool)
    (s : State) : Host.Outcome State Fault Refusal := run s (frameDrover i k h.toNat data words err)

/-- FRAME_FABRIC. -/
def execFrameFabric (i : Fin 64) (k : Fin 2) (h : BitVec 512) (data : List Byte) (words : Nat) (err : Bool)
    (s : State) : Host.Outcome State Fault Refusal := run s (frameFabric i k h.toNat data words err)

/-- STILE_MEM_READ: what a drove memory finds, the symbols in error of a DDR4 line. -/
def execStileMemRead (i : Fin 64) (k : Fin 2) (h : BitVec 512) (ecc : Fin 3) (errs : List (Fin 72 × Byte))
    (s : State) : Host.Outcome State Fault Refusal :=
  run s (stileMemRead i k h.toNat ecc (errs.map fun e => (e.1.val, e.2.toNat)))

/-- STILE_MEM_WRITE. -/
def execStileMemWrite (i : Fin 64) (k : Fin 2) (h : BitVec 512) (data : List Byte) (words : Nat) (s : State) :
    Host.Outcome State Fault Refusal := run s (stileMemWrite i k h.toNat data words)

/-- MEM_ADD. -/
def execMemAdd (i : Fin 64) (k : Fin 2) (h : BitVec 512) (data : List Byte) (words : Nat) (ecc : Fin 3)
    (s : State) : Host.Outcome State Fault Refusal := run s (stileMemAdd i k h.toNat data words ecc)

/-- FABRIC_FRAME_IN. -/
def execFabricFrameIn (i : Fin 64) (k : Fin 2) (s : State) : Host.Outcome State Fault Refusal :=
  run s (fabFrameIn i k)

/-- STILE_RESPONSE. -/
def execStileResponse (i : Fin 64) (k : Fin 2) (s : State) : Host.Outcome State Fault Refusal :=
  run s (stileResponse i k)

/-- FAB_USER_EVENT. -/
def execFabUserEvent (i : Fin 64) (s : State) : Host.Outcome State Fault Refusal := run s (fabUserEvent i)

/-- GRANARY_ECC_READ. -/
def execGranaryEccRead (i : Fin 64) (g : Fin 40) (two : Bool) (s : State) : Host.Outcome State Fault Refusal :=
  run s (granaryEcc i g two)

end Sys2Proof.Machine
end

