-- ==== Sys2Proof/Machine/Image.lean ====
section
/-! DEFINITION. Chapter 09: the image format and the checks of a load. -/

namespace Sys2Proof.Machine

/-! ### The header (Table 09-1) -/

/-- The little-endian number of `n` bytes of an image at offset `o`. -/
def hLe (h : List Byte) (o n : Nat) : Nat := ofLe ((h.drop o).take n)

/-- Every byte of [o, o + n) is zero. -/
def hZero (h : List Byte) (o n : Nat) : Bool := ((h.drop o).take n).all (· == 0)

def hLen (h : List Byte) : Nat := hLe h 0x10 4
def hSegs (h : List Byte) : Nat := hLe h 0x14 2
def hEnc (h : List Byte) : Bool := (hLe h 0x0C 4).testBit 0
def hPartial (h : List Byte) : Bool := (hLe h 0x0C 4).testBit 1
def hRestore (h : List Byte) : Bool := (hLe h 0x0C 4).testBit 2
def hReloc (h : List Byte) : Bool := (hLe h 0x0C 4).testBit 3
def hIsland (h : List Byte) : Nat := hLe h 0x16 1
def hSect (h : List Byte) : Nat := hLe h 0x17 1
def hMask (h : List Byte) : Nat := hLe h 0x18 8
/-- Offset and ciphertext length of segment `k`. -/
def hSegOff (h : List Byte) (k : Nat) : Nat := hLe h (0x180 + 32 * k) 4
def hSegLen (h : List Byte) (k : Nat) : Nat := hLe h (0x180 + 32 * k + 4) 4
def hSegIv (h : List Byte) (k : Nat) : Nat := hLe h (0x180 + 32 * k + 8) 12

/-- Zero fields, nseg, image_len, the segment table (R308 to R310, check 4). -/
def hdrForm (h : List Byte) : Bool :=
  let n := hSegs h
  let part := hPartial h
  let zeros := hLe h 0x0C 4 < 16 && hZero h 0x2E 2 && hZero h 0x68 24 && hZero h 0xA0 96 && hZero h 0x240 3136
    && hZero h 0xEE0 32 && hZero h 0xF60 160
  let shape := if part then decide (hIsland h < 64) && hSect h != 0 && hMask h == 0 else hIsland h == 0 && hSect h == 0
  let segs := (List.range 6).all fun k =>
    if k < n then
      let l := hSegLen h k
      let off := if k = 0 then 4096 else hSegOff h (k - 1) + hSegLen h (k - 1) + 16
      hSegOff h k == off && decide (64 ≤ l ∧ l ≤ 16777216) && l % 16 == 0 && hZero h (0x180 + 32 * k + 20) 12
    else hZero h (0x180 + 32 * k) 32
  let lens := decide (1 ≤ n ∧ n ≤ 6) && decide (hLen h ≤ if part then 2097152 else 100663296)
    && hLen h == hSegOff h (n - 1) + hSegLen h (n - 1) + 16
  zeros && shape && segs && lens

/-- The checks of R315 in order: the code of the first failure, or 0; `part` is what the load path takes. -/
def Dev.hdrCheck (d : Dev) (h : List Byte) (part : Bool) : Nat :=
  let ver := hLe h 4 2
  let rev := d.rd R.SYS_ID_rev
  let st := d.lcState
  if hLe h 0 4 ≠ 0x4D495244 then 2
  else if ver < 2 then 1
  else if ver ≠ 2 then 2
  else if hLe h 6 2 ≠ 0x44D9 ∨ hLe h 8 2 ≠ 0x9640 ∨ rev < hLe h 0xA 1 ∨ hLe h 0xB 1 < rev then 1
  else if hdrForm h = false ∨ hPartial h ≠ part then 2
  else if st = 6 ∨ (hEnc h = false ∧ st ≠ 0 ∧ st ≠ 1) ∨ (hEnc h = true ∧ st = 0) then 10
  else if d.sigReq = true ∧ ((Config.sha384 ((h.drop 0xE80).take 96)).toNat ≠ d.pubkeyHash
      ∨ Config.ecdsaP384 (BitVec.ofNat 768 (ofBe ((h.drop 0xE80).take 96))) (h.take 0xF00)
          (BitVec.ofNat 768 (ofBe ((h.drop 0xF00).take 96))) = false) then 3
  else if hEnc h = true ∧ (d.imageKey.bind fun k =>
      Config.aesUnwrap (BitVec.ofNat 256 k) (BitVec.ofNat 320 (hLe h 0x40 40))).isNone = true then 4
  else 0

/-- K0. -/
def Dev.firstKey (d : Dev) (h : List Byte) : Nat :=
  match d.imageKey.bind fun k => Config.aesUnwrap (BitVec.ofNat 256 k) (BitVec.ofNat 320 (hLe h 0x40 40)) with
  | some k => k.toNat
  | none => 0

/-! ### Segments (R311) and records (R312, R313) -/

/-- Bytes of a segment's ciphertext from block `blk` on, decrypted in counter mode. -/
def decryptFrom (key : SegKey) (blk : Nat) (ct : List Byte) : List Byte :=
  if key.enc = false then ct else
  (List.range ct.length).map fun j =>
    let s := leBytes 16 (Config.gcmStream (BitVec.ofNat 256 key.key) (BitVec.ofNat 96 key.iv) (blk + j / 16)).toNat
    ct.getD j 0 ^^^ s.getD (j % 16) 0

/-- The tag of segment `k`: zero for an image in the clear (R317). -/
def segTag (h : List Byte) (k : Nat) (key : SegKey) (ct : List Byte) : Nat :=
  if key.enc = false then 0 else
  let aad := beBytes 48 (Config.sha384 (h.take 0xF00)).toNat ++ leBytes 4 k
  (Config.gcmTag (BitVec.ofNat 256 key.key) (BitVec.ofNat 96 key.iv) aad ct).toNat

/-- The records of a segment's plaintext; none where R312 is broken. -/
def parseRecs (fuel seg pos : Nat) (l : List Byte) : Option (List ImgRec) :=
  match fuel with
  | 0 => none
  | fuel + 1 =>
    if l = [] then some [] else
    let type := hLe l 0 1
    let len := hLe l 4 4
    let pad := (len + 15) / 16 * 16
    if l.length < 16 + pad ∨ hZero l 1 3 = false ∨ hZero l (16 + len) (pad - len) = false then none
    else
      let r : ImgRec := { type := type, target := hLe l 8 8, data := (l.drop 16).take len, seg := seg, pos := pos + 16 }
      (parseRecs fuel seg (pos + 16 + pad) (l.drop (16 + pad))).map fun rest => r :: rest

/-- The offsets a REG record may name: the DRV and FAB blocks; in a partial image, the registers of its island. -/
def regOffOk (part : Option Nat) (off : Nat) : Bool :=
  off % 8 == 0 && (match part with
    | some i => decide (0x61000 + 0x40 * i ≤ off ∧ off < 0x61040 + 0x40 * i)
    | none => decide (0x60000 ≤ off ∧ off < 0x70000) || decide (0x200000 ≤ off ∧ off < 0x26C000))

/-- The pairs of a REG record: setup offset, value. -/
def regPairs (l : List Byte) : List (Nat × Nat) :=
  (List.range (l.length / 16)).map fun j => (hLe l (16 * j) 8, hLe l (16 * j + 8) 8)

/-- The record obeys Table 09-3; `part` holds island and sections of a partial image. -/
def recOk (part : Option (Nat × Nat)) (r : ImgRec) : Bool :=
  let n := r.data.length
  let t := r.target
  let mine := fun (i s : Nat) => match part with | some p => i == p.1 && p.2.testBit s | none => true
  match r.type with
  | 0 => t == 0
  | 1 => decide (t < 2 ^ 18) && n % 256 == 0 && decide (n ≤ 1048576) && decide (t % 4096 + n / 256 ≤ 4096)
      && ((List.range (n / 256)).all fun j => mine (t / 4096) ((t + j) % 4096 / 512))
  | 2 => decide (t < 2 ^ 12) && decide (t % 64 < 40) && n == 9216 && mine (t / 64) (t % 64 / 5)
  | 3 => part.isNone && decide (t % 2 ^ 7 < 96) && bits t 7 9 == 0 && decide (t < 2 ^ 32) && bits t 16 6 == 0
      && n % 64 == 0 && decide (bits t 16 16 + n ≤ 65536)
  | 4 => part.isNone && decide (t % 2 ^ 7 < 96) && bits t 7 9 == 0 && decide (t < 2 ^ 34) && decide (bits t 16 18 + n ≤ 262144)
  | 5 => part.isNone && decide (t % 16 < 12) && bits t 4 12 == 0 && decide (t < 2 ^ 38) && decide (bits t 16 22 + n ≤ 4194304)
  | 6 => t == 0 && n % 16 == 0 && ((regPairs r.data).all fun p => regOffOk (part.map Prod.fst) p.1)
  | 7 => t == 0 && n == 48
  | _ => false

/-- The records of a segment are in order: the last one and no other is a TRAILER; the last segment's trailer and
those of an image in the clear are zero, the others end in eight zero bytes. -/
def segOk (part : Option (Nat × Nat)) (last enc : Bool) (rs : List ImgRec) : Bool :=
  rs.all (recOk part) && (rs.dropLast.all fun r => r.type != 7)
    && (match rs.getLast? with
      | some r => r.type == 7 && (if last || !enc then r.data.all (· == 0) else hZero r.data 40 8)
      | none => false)

/-- What a load found: its code, whether it needs bytes that have not arrived, whether R315 passed, the records and
keys of the segments read. -/
structure LoadRes where
  code : Nat := 0
  more : Bool := false
  passed : Bool := false
  recs : List ImgRec := []
  keys : List SegKey := []

/-- CRC-32C of the payloads of every FRAMES record (R314). -/
def framesCrc (rs : List ImgRec) : Nat := crc32c ((rs.filter fun r => r.type == 1).map fun r => r.data).flatten

/-- Segments `k` on: `img` is what can be read of the image, `space` the bytes of its partition, `bad` the offset of
data that stays uncorrectable, `cut` says that no further byte comes. Frames are written as they are decrypted, so
the records of a segment are checked before its tag (log entry 85). -/
def loadSegs (n k key space : Nat) (img : List Byte) (bad : Option (Nat × Nat)) (cut : Bool) (acc : LoadRes) : LoadRes :=
  match n with
  | 0 => if framesCrc acc.recs = hLe img 0x28 4 then acc else { acc with code := 6 }
  | n + 1 =>
    let o := hSegOff img k
    let len := hSegLen img k
    if space < o + len + 16 then { acc with code := 7 }
    else match bad.filter fun b => decide (b.1 < o + len + 16) with
    | some b => { acc with code := b.2 }
    | none =>
      if img.length < o + len + 16 then (if cut then { acc with code := 7 } else { acc with more := true })
      else
        let ct := (img.drop o).take len
        let sk : SegKey := { key := key, iv := hSegIv img k, enc := hEnc img }
        let part := if hPartial img then some (hIsland img, hSect img) else none
        match parseRecs (len / 16 + 1) k 0 (decryptFrom sk 0 ct) with
        | none => { acc with code := 8 }
        | some rs =>
          let acc := { acc with recs := acc.recs ++ rs, keys := acc.keys ++ [sk] }
          if segOk part (n == 0) (hEnc img) rs = false then { acc with code := 8 }
          else if hLe img (o + len) 16 ≠ segTag img k sk ct then { acc with code := 5 }
          else if n = 0 ∨ hEnc img = false then loadSegs n (k + 1) 0 space img bad cut acc
          else match Config.aesUnwrap (BitVec.ofNat 256 key) (BitVec.ofNat 320 (hLe ((rs.getLast?.map fun r => r.data).getD []) 0 40)) with
            | none => { acc with code := 4 }
            | some key' => loadSegs n (k + 1) key'.toNat space img bad cut acc

/-- A load of an image (R315, R311, R314, R324): `bad` names the offset at which data is uncorrectable and the code
it ends the load with. -/
def Dev.evalLoad (d : Dev) (part : Bool) (img : List Byte) (space : Nat) (bad : Option (Nat × Nat)) (cut : Bool) : LoadRes :=
  match bad.filter fun b => decide (b.1 < 4096) with
  | some b => { code := b.2 }
  | none =>
    if space < 4096 then { code := 7 }
    else if img.length < 4096 then (if cut then { code := 7 } else { more := true })
    else
      let c := d.hdrCheck img part
      if c ≠ 0 then { code := c }
      else loadSegs (hSegs img) 0 (d.firstKey img) space img bad cut { passed := true }

end Sys2Proof.Machine
end

