-- ==== Sys2Proof/Machine/ConfigUnit.lean ====
section
/-! DEFINITION. Chapter 09: loads, start-up, partial reconfiguration up to the writing of an image, readback, the
Shepherd. What writes an image's records stands in ConfigApply.lean. -/

namespace Sys2Proof.Machine

def Dev.withCfg (d : Dev) (f : CfgSt → CfgSt) : Dev := { d with cfg := f d.cfg }

def Dev.cfgState (d : Dev) : Nat := d.rd R.CFG_STATUS_state

/-- Beads in a cycle of REFCLK, 100 MHz (R333, R334). -/
def refclk : Nat := 655360

/-! ### Loads (R319 to R324, R332, R337) -/

/-- The line FLOCK_DONE driven low or released. -/
def Dev.setFlock (d : Dev) (low : Bool) : Dev :=
  let d := if d.cfg.flockLow = low then d else d.emit (.flock low)
  d.withCfg fun c => { c with flockLow := low, seenHigh := false, seenAt := 0, pulsed := false, pacedAt := 0 }

/-- A full load starts: its kind (1 boot, 2 RELOAD, 3 exit), the source code of CFG_STATUS.src, fallback. -/
def Dev.startLoad (d : Dev) (kind src : Nat) (fb : Bool) : Dev :=
  let d := ((d.wr R.CFG_STATUS_state [] 1).wr R.CFG_STATUS_src [] src).wr R.CFG_STATUS_phase [] 0
  let d := if kind = 3 then d else d.wr R.CFG_STATUS_fallback [] 0
  let slave := decide (src = 3 ∨ src = 4)
  d.withCfg fun c => { c with load := kind, golden := false, fb := fb, cut := false
                              slave := if slave then { ready := true, busy := false } else {} }

/-- The load of CFG_CMD.src or of the boot straps: 0 the boot pointer, 1 Boot A, 2 Boot B, 3 Golden, 4 serial,
5 parallel (R321, R322, R337). -/
def Dev.loadFrom (d : Dev) (kind sel : Nat) : Dev :=
  if 1 ≤ sel ∧ sel ≤ 5 then d.startLoad kind (sel - 1) false
  else d.startLoad kind (d.rd R.NVC_BOOT_sel) (d.flag R.NVC_BOOT_fb_en)

/-- The partition of a source (Table 10-1). -/
def partBase (src : Nat) : Nat := nvBase + 0x8000000 * src
def partSize : Nat := 0x8000000

/-- The configuration is lost: frames, islands UNCONFIGURED with their ports shut, drovers as they are (R320,
R337). -/
def Dev.unconfigure (d : Dev) : Dev :=
  let d := d.withCfg fun c => { c with
    frames := [], bad := [], src := [], gran := [], keys := [], mask := 0, mapId := [], part := [], stopped := [], io := false
    shep := false, shepWait := none }
  (List.range 64).foldl (fun (d : Dev) i =>
    let d := (d.setFabIsl i {}).wr R.FAB_ISL_STAT_state [i] 0
    let d := (d.wr R.FAB_ISL_STAT_sect_rcfg [i] 0).wr R.FAB_ISL_STILE_frozen [i] 0
    if d.island i = 1 then d.setIsland i 0 else d) d

/-- Drover memories are undefined (R320). -/
def Dev.loseDrovers (d : Dev) : Dev :=
  let d := (List.range 96).foldl (fun (d : Dev) n =>
    (d.loseMem (droverPrivate n) 0x40000).loseMem (droverPrivate n + 0x100000) 0x10000) d
  d.loseMem 0x40000000 0x3000000

/-- The end of a load is logged. -/
def Dev.logLoad (d : Dev) (code : Nat) : Dev :=
  (d.wr R.CFG_STATUS_result [] code).wr R.CFG_LOAD_LOG_t_end [] d.nowRaw

/-- A load ends with a code other than OK; what CFG_LOAD_LOG then shows of bytes and offset is a free value. -/
def Dev.failLoad (d : Dev) (code : Nat) (passed : Bool) : Dev :=
  let d := d.logLoad code
  let (d, v) := d.draw 64
  let d := (d.wr R.CFG_LOAD_LOG_bytes [] (v % 2 ^ 32)).wr R.CFG_LOAD_LOG_fail_off [] (v / 2 ^ 32)
  let d := if passed then d.unconfigure.loseDrovers else d
  let kind := d.cfg.load
  if d.cfg.fb = true ∧ d.cfg.golden = false ∧ kind ≠ 3 then
    let d := d.startLoad kind 2 false
    let d := d.withCfg fun c => { c with golden := true }
    ((d.wr R.CFG_STATUS_fallback [] 1).wr R.CFG_STATUS_boot_result [] code).raise Ev.cfgFallback code
  else
    let d := d.withCfg fun c => { c with load := 0, io := false, slave := { c.slave with ready := false, busy := true } }
    let d := if kind = 3 then (d.setFlock true).unconfigure else d
    let d := ((d.wr R.CFG_STATUS_state [] 4).setReady 3 0).raise Ev.cfgFailed code
    if kind = 3 then ((d.wr R.PWR_STAT_exiting [] 0).wr R.PWR_STAT_state [] 0).raise Ev.pwrState 0 else d

/-- The bytes a full load can read now, and the space of its source. -/
def Dev.loadBytes (d : Dev) : List Byte × Nat :=
  let src := d.rd R.CFG_STATUS_src
  if src < 3 then (d.bytes (partBase src) partSize, partSize)
  else (d.cfg.slave.got.reverse, 2 ^ 32)

/-- Codewords of the load's partition sensed up to `len` bytes, the last one uncorrectable if `bad`. -/
def Dev.loadSenses (d : Dev) (len : Nat) (bad : Bool) : Dev :=
  let src := d.rd R.CFG_STATUS_src
  if 3 ≤ src then d else
  let d := (d.nvSenses (partBase src) len 101 {}).1
  if bad then (d.nvSense (codewordOf (partBase src + len)) 101 { first := none }).1 else d

/-- No image byte has come for tmo_ms (R329). -/
def slaveTimeout (d : Dev) : Dev :=
  let ms := max 1 (d.rd R.CFG_SLV_TMO_tmo_ms)
  let x := d.cfg.slave
  let want := if 0x14 ≤ x.got.length then hLen x.got.reverse else 2 ^ 32
  let src := d.rd R.CFG_STATUS_src
  if d.cfgState ≠ 1 ∨ src < 3 ∨ src = 5 ∨ x.synced = false ∨ want ≤ x.got.length ∨ d.clock < x.at_ + ms * 65536000000 then d
  else d.failLoad 7 (d.evalLoad false d.loadBytes.1 (2 ^ 32) none true).passed

/-- Bytes of one edge of CFG_CLK, after the ones held (R325). -/
def edgeBytes (serial : Bool) (x : SlavePort) (data : Nat) : SlavePort × List Byte :=
  if serial then
    match x.nib with
    | none => ({ x with nib := some (data % 16) }, [])
    | some hi => ({ x with nib := none }, [BitVec.ofNat 8 (16 * hi + data % 16)])
  else (x, leBytes 4 data)

/-- A byte of the slave port: sync, then image bytes into the FIFO; a byte for a full FIFO is dropped. -/
def SlavePort.take (x : SlavePort) (serial : Bool) (now : Nat) (b : Byte) : SlavePort :=
  if x.synced = false then
    let l := (x.last ++ [b]).drop ((x.last ++ [b]).length - 4)
    { x with last := l, synced := serial && l == [0x5A, 0x96, 0x40, 0xC3] }
  else
    let want := if 0x14 ≤ x.got.length then hLen x.got.reverse else 2 ^ 32
    if want ≤ x.got.length then x
    else if 65536 ≤ x.fifo then { x with beyond := true, at_ := now }
    else { x with got := b :: x.got, fifo := x.fifo + 1, at_ := now }

/-- An edge of CFG_CLK with CFG_CS_N low: `drain` bytes have left the FIFO since the last edge, `checking` says that
the checks of R315 run. -/
def cfgClkEdge (data drain : Nat) (checking : Bool) (d : Dev) : Dev :=
  let src := d.rd R.CFG_STATUS_src
  let x := d.cfg.slave
  if d.cfgState ≠ 1 ∨ src < 3 ∨ src = 5 ∨ x.ready = false then d
  else
    let serial := src == 3
    let (x, l) := edgeBytes serial { x with fifo := x.fifo - drain } data
    let x := if serial = false ∧ x.synced = false then { x with synced := l == [0x5A, 0x96, 0x40, 0xC3], at_ := d.clock }
      else l.foldl (fun y b => y.take serial d.clock b) x
    let x := if x.synced = true ∧ x.at_ = 0 then { x with at_ := d.clock } else x
    let d := d.withCfg fun c => { c with slave := { x with busy := checking || decide (61440 < x.fifo) } }
    if x.beyond then d.failLoad 7 (d.evalLoad false d.loadBytes.1 (2 ^ 32) none true).passed else d

/-! ### RELOAD (R337) -/

/-- Drovers halted and reset. -/
def Dev.resetAllDrovers (d : Dev) : Dev :=
  (List.range 96).foldl (fun (d : Dev) n =>
    if d.droveRuns n then
      let d := if d.halted n then d else d.drvCause n 2
      (d.resetDrover n).resume n
    else d) d

/-- The state and result of a slot. -/
def Dev.prState (d : Dev) (s : Nat) : Nat := d.rd R.CFG_PR_STAT_state [s]
def Dev.prSlot (d : Dev) (s : Nat) : PrSlot := tget {} d.cfg.slots s
def Dev.setPrSlot (d : Dev) (s : Nat) (x : PrSlot) : Dev := d.withCfg fun c => { c with slots := tset {} c.slots s x }

/-- A slot's operation ends in a state with a code; FAILED raises PR_FAILED. -/
def Dev.prEnd (d : Dev) (s st code : Nat) : Dev :=
  let d := ((d.wr R.CFG_PR_STAT_state [s] st).wr R.CFG_PR_STAT_result [s] code).wr R.CFG_PR_STAT_t_done [s] d.nowRaw
  if st = 7 then d.raise Ev.prFailed (s + 256 * code) else d

/-- A write of CFG_CMD.reload: only in USER and FAILED. -/
def reload (d : Dev) : Dev × Nat :=
  if d.cfgState ≠ 3 ∧ d.cfgState ≠ 4 then (d, Sts.busy)
  else
    let d := d.resetAllDrovers
    let d := (List.range 4).foldl (fun (d : Dev) s => if d.prState s = 4 then d.prEnd s 7 15 else d) d
    let d := (d.unconfigure.setFlock true).setReady 3 0
    (d.loadFrom 2 (d.rd R.CFG_CMD_src), Sts.ok)

/-! ### Start-up (R330 to R336) -/

/-- Every image island takes the change. -/
def Dev.eachMask (d : Dev) (f : FabIsl → FabIsl) : Dev :=
  (setBitsOf 64 d.cfg.mask).foldl (fun (d : Dev) i => d.setFabIsl i (f (d.fabIsl i))) d

/-- The action of phase `k` (Table 09-7). -/
def Dev.phaseAct (d : Dev) (k : Nat) : Dev :=
  match k with
  | 1 => d.eachMask fun x => { x with clk := true }
  | 2 => d.eachMask fun x => { x with gran := true }
  | 3 => d.eachMask fun x => { x with reset := x.ureset }
  | 4 => d.withCfg fun c => { c with io := true }
  | 5 => d.eachMask fun x => { x with ports := true }
  | 6 => (List.range 96).foldl (fun (d : Dev) n =>
      if d.droveRuns n = true ∧ d.flag R.DRV_CFG_autostart [n] = true then d.startDrover n else d) d
  | 7 => d.withCfg fun c => { c with shep := true, shepNext := 0, shepFrom := d.clock, shepCorr := false }
  | _ =>
    let exiting := d.cfg.load == 3
    let d := (List.range 64).foldl (fun (d : Dev) i =>
      if d.cfg.mask.testBit i then d.wr R.FAB_ISL_STAT_state [i] 2
      else (d.wr R.FAB_ISL_STAT_state [i] 4).setIsland i 1) d
    let d := ((d.wr R.CFG_STATUS_state [] 3).setReady 3 1).raise Ev.cfgDone 0
    let d := d.withCfg fun c => { c with load := 0 }
    if exiting then
      let d := if d.flag R.HRD_RC_prewarm_en then { d with hrd := { d.hrd with warm := 1 } } else d
      (((d.wr R.PWR_STAT_state [] 0).wr R.PWR_STAT_exiting [] 0).raise Ev.pwrState 0).withPwr fun p => { p with exitFrom := 0 }
    else d

/-- Cycles from the pacing edge to phase `k`: a phase before its predecessor takes place with it (R334). -/
def Dev.phaseTime (d : Dev) (k : Nat) : Nat :=
  match k with
  | 0 => 0
  | k + 1 => max (d.phaseTime k) (bits (d.rd R.CFG_PHASE_phase) (16 * k) 16)

/-- The next phase takes place, and those that take place with it; `fuel` is how many are left. -/
def Dev.runPhases (d : Dev) (fuel : Nat) : Dev :=
  match fuel with
  | 0 => d
  | fuel + 1 =>
    let k := d.rd R.CFG_STATUS_phase + 1
    if 8 < k ∨ d.cfgState ≠ 2 then d
    else
      let t := d.phaseTime k
      let d := (d.wr R.CFG_STATUS_phase [] k).phaseAct k
      if d.phaseTime (k + 1) = t then d.runPhases fuel else d

/-- The pacing edge: phases of time zero take place in its cycle. -/
def Dev.pace (d : Dev) : Dev :=
  let d := d.withCfg fun c => { c with pacedAt := d.clock + 1 }
  if d.phaseTime 1 = 0 then d.runPhases 8 else d

/-- FLOCK_DONE is seen high by a device that released it (R336: not in an exit). -/
def flockHigh (d : Dev) : Dev :=
  if d.cfgState = 2 ∧ d.cfg.flockLow = false ∧ d.cfg.seenHigh = false ∧ d.cfg.load ≠ 3 then
    (d.wr R.CFG_STATUS_done_in [] 1).withCfg fun c => { c with seenHigh := true, seenAt := d.clock + 1 }
  else d

/-- bell_wait has passed: at boot the bellwether drives its pulse; after a RELOAD and in an exit the pacing edge is
the device's own. -/
def bellWait (d : Dev) : Dev :=
  let c := d.cfg
  if d.cfgState ≠ 2 ∨ c.seenAt = 0 ∨ c.pacedAt ≠ 0 ∨ c.pulsed = true
      ∨ d.clock + 1 < c.seenAt + d.rd R.CFG_PHASE_bell_wait * refclk then d
  else if c.load = 1 then
    (if d.flag R.CFG_STATUS_bell then
      ((d.emit (.flock true)).emit (.flock false)).withCfg fun c => { c with pulsed := true } else d)
  else d.pace

/-- The falling pacing edge of FLOCK_DONE. -/
def pacingEdge (d : Dev) : Dev :=
  let c := d.cfg
  if d.cfgState = 2 ∧ c.load = 1 ∧ c.seenHigh = true ∧ c.pacedAt = 0
      ∧ (d.flag R.CFG_STATUS_bell = false ∨ c.pulsed = true) then d.pace
  else d

/-- The next phase, once its time has come. -/
def startupPhase (d : Dev) : Dev :=
  let k := d.rd R.CFG_STATUS_phase + 1
  if d.cfgState = 2 ∧ d.cfg.pacedAt ≠ 0 ∧ k ≤ 8 ∧ d.cfg.pacedAt + d.phaseTime k * refclk ≤ d.clock + 1 then d.runPhases 8
  else d

/-! ### Partial reconfiguration (R338 to R348) -/

/-- STAGE. -/
def prStage (s : Nat) (d : Dev) : Dev × Nat :=
  if d.prState s ≠ 0 then (d.wr R.CFG_PR_STAT_result [s] 12, Sts.busy)
  else if d.ddrReady = false then (d.prEnd s 7 14, Sts.ok)
  else
    let a := d.rd R.CFG_PR_CMD_addr [s]
    let nv := d.flag R.CFG_PR_CMD_src_nv [s]
    let d := ((d.wr R.CFG_PR_STAT_state [s] 1).wr R.CFG_PR_STAT_result [s] 0).wr R.CFG_PR_STAT_late [s] 0
    (d.setPrSlot s { base := if nv then some a else none, from_ := a }, Sts.ok)

/-- What a STAGE can read of its image: bytes and space. What is not of the memory named reads as zero. -/
def Dev.stageBytes (d : Dev) (x : PrSlot) : List Byte × Nat :=
  let a := x.from_
  let hi := if x.base.isSome then 0x2F000000 else d.ddrEnd
  let lo := if x.base.isSome then nvBase else ddrBase
  if a < lo ∨ hi ≤ a then (List.replicate 4096 0, 4096)
  else (d.bytes a (min 2097152 (hi - a)), hi - a)

/-- Offset of the first uncorrectable DDR4 line of a staged image. -/
def Dev.stageBadLine (d : Dev) (a : Nat) : Option Nat :=
  ((d.ddr.bad.filter fun l => decide (a < l + 64 ∧ l < a + 2097152)).map fun l => l - a).min?

/-- Staging ends; `bad` is the offset at which the NV array stays uncorrectable. It waits while its bank is busy. -/
def stageDone (s : Nat) (bad : Option Nat) (d : Dev) : Dev :=
  let x := d.prSlot s
  if d.prState s ≠ 1 ∨ (x.base.isSome = true ∧ inNv x.from_ = true ∧ d.nvBusy (bankOf x.from_) = true) then d
  else
    let (img, space) := d.stageBytes x
    let b := if x.base.isSome then bad.map fun o => (o, 9) else (d.stageBadLine x.from_).map fun o => (o, 5)
    let r := d.evalLoad true img space b true
    let d := if x.base.isSome ∧ inNv x.from_ = true then
        (match bad with
          | some o => (d.nvSense (codewordOf (x.from_ + o)) 101 { first := none }).1
          | none => (d.nvSenses x.from_ (min (hLen img) 2097152) 101 {}).1)
      else d
    if r.code ≠ 0 then d.prEnd s 7 r.code
    else
      let d := (d.wr R.CFG_PR_STAT_island [s] (hIsland img)).wr R.CFG_PR_STAT_sect [s] (hSect img)
      (d.setPrSlot s { x with hdr := img.take 4096, recs := r.recs, keys := r.keys }).prEnd s 2 0

/-- APPLY: only from STAGED. A move begins to load its target at once. -/
def prApply (s : Nat) (d : Dev) : Dev × Nat :=
  if d.prState s ≠ 2 then (d, Sts.busy)
  else
    let raw := d.rd R.CFG_PR_CMD_at_time [s]
    let t := rawToBeads raw
    let late := decide (raw ≠ 0 ∧ t < d.now)
    let at_ := if raw = 0 ∨ t ≤ d.now then d.now else t
    let move := d.flag R.CFG_PR_CMD_move [s]
    let x := { d.prSlot s with
      target := d.rd R.CFG_PR_CMD_target [s], source := d.rd R.CFG_PR_CMD_source [s]
      move := move, at_ := at_, startAt := if move then d.now else at_ }
    (((d.setPrSlot s x).wr R.CFG_PR_STAT_state [s] 3).wr R.CFG_PR_STAT_late [s] (bit late), Sts.ok)

/-- The slot whose apply starts next: its time has come and no slot applies. -/
def Dev.nextApply (d : Dev) : Option Nat :=
  if (List.range 4).any fun s => d.prState s == 4 then none else
  let l := (List.range 4).filter fun s => d.prState s == 3 && decide ((d.prSlot s).startAt ≤ d.now)
  l.foldl (fun (b : Option Nat) s => match b with
    | none => some s
    | some k => if (d.prSlot s).startAt < (d.prSlot k).startAt then some s else some k) none

/-- The checks at the start of an apply (R341, R342, R345). -/
def Dev.applyCheck (d : Dev) (x : PrSlot) : Nat :=
  let src := if x.move then x.source else x.target
  let place := if x.move then (d.fabState x.target == 0 || d.fabState x.target == 4) && d.fabState x.source == 2
    else d.fabState x.target == 2
  if place = false ∨ (x.target ≠ hIsland x.hdr ∧ hReloc x.hdr = false) then 13
  else if hRestore x.hdr = true ∧ tget 0 d.cfg.mapId src ≠ hLe x.hdr 0x24 4 + 1 then 11
  else 0

/-- Flip-flop states of an island captured: the user logic's, so free values (R343). -/
def Dev.captureFf (d : Dev) (i : Nat) : Dev :=
  let (d, v) := d.drawWide 150
  { d with fab := { d.fab with ff := tset 0 d.fab.ff i (v % 2 ^ 76800) } }

/-- An apply starts. -/
def applyStart (d : Dev) : Dev :=
  match d.nextApply with
  | none => d
  | some s =>
    let x := d.prSlot s
    let c := d.applyCheck x
    if c ≠ 0 then d.prEnd s 7 c
    else
      let d := d.wr R.CFG_PR_STAT_state [s] 4
      let i := x.target
      if x.move then
        ((d.setIsland i 0).wr R.FAB_ISL_STAT_state [i] 1).wr R.FAB_ISL_STILE_frozen [i] 15
      else
        let d := (d.wr R.FAB_ISL_STAT_state [i] 3).wr R.FAB_ISL_STAT_sect_rcfg [i] (hSect x.hdr)
        let d := if (hSect x.hdr).testBit 0 then d.wr R.FAB_ISL_STILE_frozen [i] 15 else d
        if hRestore x.hdr then d.captureFf i else d

/-- Words of the messages in an input port's landing buffer, which holds four words. -/
def landed (l : List Nat) : Nat := min 4 l.sum
/-- Messages with a word in the landing buffer. -/
def landedCount (l : List Nat) (room : Nat) : Nat :=
  match l with
  | [] => 0
  | w :: r => if room = 0 then 0 else 1 + landedCount r (room - w)

/-- The words in an input port's landing buffer are discarded: their number. -/
def Dev.dropLanded (d : Dev) (p : Nat) : Dev × Nat :=
  let fr := tget [] d.med.fabIn p
  let rs := tget [] d.fab.resp p
  let w := (fr.map fun r => 1 + (r.frame.bytes.length + 63) / 64) ++ rs.map fun r => 1 + r.data.length / 64
  let n := landedCount w 4
  let d := d.withMed fun m => { m with fabIn := tset [] m.fabIn p (fr.drop n) }
  ({ d with fab := { d.fab with resp := tset [] d.fab.resp p (rs.drop (n - fr.length)) } }, landed w)

/-- Frames of an island's sections set to zero. -/
def Dev.zeroFrames (d : Dev) (i sect : Nat) : Dev :=
  let mine := fun (f : Nat) => f / 4096 == i && sect.testBit (f % 4096 / 512)
  d.withCfg fun c => { c with
    frames := c.frames.filter fun (e : Nat × Nat) => !mine e.1
    bad := c.bad.filter fun f => !mine f
    src := c.src.filter fun (e : Nat × Option FrameSrc) => !mine e.1 }

/-- RELEASE_SRC on a HELD slot. -/
def prRelease (s : Nat) (d : Dev) : Dev × Nat :=
  if d.prState s ≠ 5 then (d, Sts.busy)
  else
    let i := (d.prSlot s).source
    let (d, a) := d.dropLanded (2 * i)
    let (d, b) := d.dropLanded (2 * i + 1)
    let d := d.wr R.CFG_PR_STAT_dropped_words [s] (a + b)
    let d := (((d.zeroFrames i 255).setFabIsl i {}).setIsland i 1).wr R.FAB_ISL_STAT_state [i] 4
    let d := (d.wr R.FAB_ISL_STILE_frozen [i] 0).withCfg fun c => { c with mapId := tset 0 c.mapId i 0 }
    (d.prEnd s 6 0, Sts.ok)

/-- ABORT ends a STAGING or WAITING slot. -/
def prAbort (s : Nat) (d : Dev) : Dev × Nat :=
  if d.prState s = 1 ∨ d.prState s = 3 then (d.prEnd s 7 15, Sts.ok) else (d, Sts.busy)

/-- CLEAR returns a DONE or FAILED slot to IDLE. -/
def prClear (s : Nat) (d : Dev) : Dev × Nat :=
  if d.prState s = 6 ∨ d.prState s = 7 then ((d.wr R.CFG_PR_STAT_state [s] 0).setPrSlot s {}, Sts.ok) else (d, Sts.busy)

/-- The operation of a write of CFG_PR_CMD. -/
def prOp (s op : Nat) (d : Dev) : Dev × Nat :=
  match op with
  | 0 => (d, Sts.ok)
  | 1 => prStage s d
  | 2 => prApply s d
  | 3 => prRelease s d
  | 4 => prAbort s d
  | 5 => prClear s d
  | _ => (d, Sts.busy)

/-! ### Readback (R349, R350) -/

/-- A debug certificate with FAB_READBACK is in force, or the device is in VENDOR_TEST. -/
def Dev.mayReadBack (d : Dev) : Bool :=
  d.lcState == 1 || (match d.lcs.session with | some x => x.rights.testBit 1 | none => false)

/-- The readback of CFG_RB_CMD ends: status and data. -/
def Dev.rbEnd (d : Dev) (st v : Nat) : Dev := (d.wr R.CFG_RB_CMD_status [] st).wr R.CFG_RB_DATA_data [] v

/-- FRAME. -/
def Dev.rbFrame (d : Dev) : Dev :=
  let f := d.rd R.CFG_RB_CMD_frame
  if d.mayReadBack = false then d.rbEnd 1 0
  else
    let d := d.service (classBase 10 + f / 32)
    if f ∈ d.cfg.bad then
      let (d, v) := d.drawWide 4
      d.rbEnd 2 v
    else d.rbEnd 0 (tget 0 d.cfg.frames f)

/-- SNAP. -/
def Dev.rbSnap (d : Dev) : Dev :=
  let i := d.rd R.CFG_RB_CMD_island
  if d.mayReadBack = false then d.rbEnd 1 0
  else if d.fabState i ≠ 2 then d.wr R.CFG_RB_CMD_status [] 3
  else
    let (d, v) := d.drawWide 150
    (d.withCfg fun c => { c with snap := v % 2 ^ 76800 }).wr R.CFG_RB_CMD_status [] 0

/-- SNAP_READ. -/
def Dev.rbSnapRead (d : Dev) : Dev :=
  if d.mayReadBack = false then d.rbEnd 1 0 else d.rbEnd 0 (bits d.cfg.snap (2048 * d.rd R.CFG_RB_CMD_chunk) 2048)

/-- A write of CFG_RB_CMD.go. -/
def rbGo (d : Dev) : Dev :=
  match d.rd R.CFG_RB_CMD_kind with
  | 1 => d.rbSnap
  | 2 => d.rbSnapRead
  | _ => d.rbFrame

/-! ### The Shepherd (R351 to R354) -/

/-- The Shepherd reads the frames of this island. -/
def Dev.shepIsland (d : Dev) (i : Nat) : Bool := d.fabState i == 2 && d.island i == 0

/-- The first frame at or after `f` that the Shepherd reads. -/
def Dev.shepFrame (d : Dev) (f : Nat) : Option Nat :=
  if f / 4096 < 64 ∧ d.shepIsland (f / 4096) = true then some f
  else ((List.range 64).find? fun i => decide (f / 4096 < i) && d.shepIsland i).map fun i => 4096 * i

/-- An event of the Shepherd is logged: 1 corrected, 2 reloaded, 3 fatal. -/
def Dev.shepLog (d : Dev) (f kind : Nat) : Dev :=
  (((d.wr R.CFG_SCRUB_LOG_frame [] f).wr R.CFG_SCRUB_LOG_kind [] kind).wr R.CFG_SCRUB_LOG_valid [] 1).wr
    R.CFG_SCRUB_LOG_time [] d.nowRaw

/-- A fatal frame. -/
def Dev.shepFatal (d : Dev) (f : Nat) : Dev :=
  let d := ((d.bumpWrap R.CFG_SCRUB_STAT_fatal []).shepLog f 3).raise Ev.scrubFatal (f / 4096)
  let k := f / 512
  if d.flag R.CFG_SCRUB_CFG_fatal_act = true ∧ k ∉ d.cfg.stopped then d.withCfg fun c => { c with stopped := c.stopped ++ [k] } else d

/-- A pass that has no further frame ends. -/
def Dev.shepPass (d : Dev) : Dev :=
  if (d.shepFrame d.cfg.shepNext).isSome then d
  else
    let us := (d.clock - d.cfg.shepFrom) / 65536000
    ((d.bumpWrap R.CFG_SCRUB_STAT_passes []).wr R.CFG_SCRUB_STAT_pass_us [] us).withCfg fun c => { c with
      shepNext := 0, shepFrom := d.clock, shepCorr := false }

/-- The Shepherd reads its next frame; `err` is what has happened to it: 1 a single-bit error in a word, 2 one that
its check bits and CRC do not mend. -/
def shepherdRead (err : Nat) (d : Dev) : Dev :=
  if d.cfg.shep = false ∨ d.flag R.CFG_SCRUB_CFG_en = false ∨ d.cfg.shepWait.isSome = true ∨ d.cfgState ≠ 3 then d
  else match d.shepFrame d.cfg.shepNext with
    | none => d
    | some f =>
      let d := d.service (classBase 10 + f / 32)
      let d := d.withCfg fun c => { c with shepNext := f + 1 }
      let isBad := decide (f ∈ d.cfg.bad)
      if err = 2 ∨ isBad = true then
        let d := if isBad then d else d.withCfg fun c => { c with bad := c.bad ++ [f] }
        match tget none d.cfg.src f with
        | some _ => d.withCfg fun c => { c with shepWait := some f }
        | none => (d.shepFatal f).shepPass
      else if err = 1 then
        let d := (d.bumpWrap R.CFG_SCRUB_STAT_corrected []).shepLog f 1
        (if d.cfg.shepCorr then d
          else (d.withCfg fun c => { c with shepCorr := true }).raise Ev.scrubCorrected (f / 4096)).shepPass
      else d.shepPass

/-- The NV read of a frame's copy returns; it waits while its bank is busy. -/
def shepherdReload (f : NvFind) (d : Dev) : Dev :=
  match d.cfg.shepWait with
  | none => d
  | some k =>
    match tget none d.cfg.src k with
    | none => d.withCfg fun c => { c with shepWait := none }
    | some src =>
      if d.nvBusy (bankOf src.addr) then d
      else
        let (d, good) := d.nvSenses src.addr 256 101 f
        let d := d.withCfg fun c => { c with shepWait := none }
        let data := decryptFrom (d.cfg.keys.getD src.seg ⟨0, 0, false⟩) src.blk (d.bytes src.addr 256)
        let same := crc32c data == crc32c (leBytes 256 (tget 0 d.cfg.frames k))
        if good = true ∧ same = true then
          let d := d.withCfg fun c => { c with frames := tset 0 c.frames k (ofLe data), bad := c.bad.filter (· ≠ k) }
          (((d.bumpWrap R.CFG_SCRUB_STAT_reloaded []).shepLog k 2).raise Ev.scrubReloaded (k / 4096)).shepPass
        else (d.shepFatal k).shepPass

/-! ### The commands -/

/-- A register write of a unit of island 102: refused while the island is stopped; the RWL fields under `set` change
unless ring lock stands; then the operation. -/
def cfgWrite (q : Req) (set : Dev → Dev) (op : Dev → Dev × Nat) (d : Dev) : Dev :=
  if d.island 102 ≠ 0 then d.complete q Sts.poweredOff 0
  else
    let st := if d.locked q then Sts.locked else Sts.ok
    let r := op (if d.locked q then d else set d)
    r.1.complete q (worst st r.2) 0

/-- SLAVE_TIMEOUT. -/
def execSlaveTimeout (s : State) : Host.Outcome State Fault Refusal := run s slaveTimeout

/-- CFG_CLK_EDGE: the data pins, the bytes drained since the last edge, whether the header is being checked. -/
def execCfgClkEdge (data : BitVec 32) (drain : Nat) (checking : Bool) (s : State) : Host.Outcome State Fault Refusal :=
  run s (cfgClkEdge data.toNat drain checking)

/-- FLOCK_DONE_HIGH. -/
def execFlockDoneHigh (s : State) : Host.Outcome State Fault Refusal := run s flockHigh

/-- BELL_WAIT_EXPIRE. -/
def execBellWaitExpire (s : State) : Host.Outcome State Fault Refusal := run s bellWait

/-- PACING_EDGE. -/
def execPacingEdge (s : State) : Host.Outcome State Fault Refusal := run s pacingEdge

/-- STARTUP_PHASE. -/
def execStartupPhase (s : State) : Host.Outcome State Fault Refusal := run s startupPhase

/-- RELOAD: a write of CFG_CMD with reload set. -/
def execReload (inp : Fin 101) (desc : Bool) (src : BitVec 3) (s : State) : Host.Outcome State Fault Refusal :=
  run s (cfgWrite ⟨inp, desc⟩ (fun d => d.wr R.CFG_CMD_src [] src.toNat) reload)

/-- STAGE: a write of CFG_PR_CMD of slot `k` with op STAGE, and the source it names. -/
def execStage (inp : Fin 101) (desc : Bool) (k : Fin 4) (nv : Bool) (addr : BitVec 38) (s : State) :
    Host.Outcome State Fault Refusal :=
  run s (cfgWrite ⟨inp, desc⟩ (fun d => (d.wr R.CFG_PR_CMD_src_nv [k] (bit nv)).wr R.CFG_PR_CMD_addr [k] addr.toNat) (prStage k))

/-- STAGE_DONE. -/
def execStageDone (k : Fin 4) (bad : Option Nat) (s : State) : Host.Outcome State Fault Refusal := run s (stageDone k bad)

/-- APPLY: a write of CFG_PR_CMD with op APPLY, and what it names. -/
def execApply (inp : Fin 101) (desc : Bool) (k : Fin 4) (move : Bool) (target source : BitVec 6) (t : BitVec 96) (s : State) :
    Host.Outcome State Fault Refusal :=
  run s (cfgWrite ⟨inp, desc⟩ (fun d =>
    (((d.wr R.CFG_PR_CMD_move [k] (bit move)).wr R.CFG_PR_CMD_target [k] target.toNat).wr R.CFG_PR_CMD_source [k]
      source.toNat).wr R.CFG_PR_CMD_at_time [k] t.toNat) (prApply k))

/-- APPLY_START. -/
def execApplyStart (s : State) : Host.Outcome State Fault Refusal := run s applyStart

/-- RELEASE_SRC. -/
def execReleaseSrc (inp : Fin 101) (k : Fin 4) (s : State) : Host.Outcome State Fault Refusal :=
  run s (cfgWrite ⟨inp, true⟩ id (prRelease k))

/-- ABORT. -/
def execAbort (inp : Fin 101) (k : Fin 4) (s : State) : Host.Outcome State Fault Refusal :=
  run s (cfgWrite ⟨inp, true⟩ id (prAbort k))

/-- CLEAR. -/
def execClear (inp : Fin 101) (k : Fin 4) (s : State) : Host.Outcome State Fault Refusal :=
  run s (cfgWrite ⟨inp, true⟩ id (prClear k))

/-- FRAME_READBACK. -/
def execFrameReadback (inp : Fin 101) (f : BitVec 18) (s : State) : Host.Outcome State Fault Refusal :=
  run s (cfgWrite ⟨inp, true⟩ id fun d =>
    (((d.wr R.CFG_RB_CMD_frame [] f.toNat).wr R.CFG_RB_CMD_kind [] 0).rbFrame, Sts.ok))

/-- SNAP. -/
def execSnap (inp : Fin 101) (i : BitVec 6) (s : State) : Host.Outcome State Fault Refusal :=
  run s (cfgWrite ⟨inp, true⟩ id fun d =>
    (((d.wr R.CFG_RB_CMD_island [] i.toNat).wr R.CFG_RB_CMD_kind [] 1).rbSnap, Sts.ok))

/-- SNAP_READ. -/
def execSnapRead (inp : Fin 101) (c : BitVec 6) (s : State) : Host.Outcome State Fault Refusal :=
  run s (cfgWrite ⟨inp, true⟩ id fun d =>
    (((d.wr R.CFG_RB_CMD_chunk [] c.toNat).wr R.CFG_RB_CMD_kind [] 2).rbSnapRead, Sts.ok))

/-- SHEPHERD_FRAME_READ. -/
def execShepherdFrameRead (err : Fin 3) (s : State) : Host.Outcome State Fault Refusal := run s (shepherdRead err)

/-- SHEPHERD_RELOAD. -/
def execShepherdReload (f : NvFind) (s : State) : Host.Outcome State Fault Refusal := run s (shepherdReload f)

end Sys2Proof.Machine
end

