-- ==== Sys2Proof/Machine/Herdsman.lean ====
section
/-! DEFINITION. Chapter 15: the Herdsman: firmware start and restart, the board record, measurements, loops. The
gain schedule stands with the servo in Time.lean, a move's frame boundary with the route engine in Route.lean. -/

namespace Sys2Proof.Machine

def Dev.withHrd (d : Dev) (f : HrdSt → HrdSt) : Dev := { d with hrd := f d.hrd }

/-! ### Firmware slots and the board record (R483 to R490) -/

def fwAddr (k : Nat) : Nat := 0x2E000000 + 0x780000 * k

/-- A firmware slot is valid (R484). -/
def Dev.fwValid (d : Dev) (k : Nat) : Bool :=
  let h := d.bytes (fwAddr k) 256
  let len := hLe h 8 4
  if hLe h 0 4 ≠ 0x46445248 ∨ 7864064 < len then false
  else
    let body := d.bytes (fwAddr k + 256) len
    let pub := (h.drop 32).take 96
    hZero h 20 12 && hZero h 224 32 && crc32c body == hLe h 16 4
      && (!d.sigReq || ((Config.sha384 pub).toNat == d.pubkeyHash
        && Config.ecdsaP384 (BitVec.ofNat 768 (ofBe pub)) (h.take 128 ++ body) (BitVec.ofNat 768 (ofBe ((h.drop 128).take 96)))))
def Dev.fwVersion (d : Dev) (k : Nat) : Nat := d.load (fwAddr k + 4) 4

/-- The valid slot with the higher version, slot 0 on a tie (R485). -/
def Dev.fwChoice (d : Dev) : Option Nat :=
  if d.fwValid 0 = true ∧ (d.fwValid 1 = false ∨ d.fwVersion 1 ≤ d.fwVersion 0) then some 0
  else if d.fwValid 1 then some 1 else none

/-- The current board record's 28 bytes (R489). -/
def Dev.boardRecord (d : Dev) : Option (List Byte) :=
  let r := fun (k : Nat) => d.bytes (0x2EF00000 + 0x40000 * k) 28
  let ok := fun (l : List Byte) => hLe l 0 4 == 0x48425244 && crc32c (l.take 24) == hLe l 24 4
  if ok (r 0) = true ∧ (ok (r 1) = false ∨ hLe (r 1) 4 4 ≤ hLe (r 0) 4 4) then some (r 0)
  else if ok (r 1) then some (r 1) else none

/-- DDR_CFG written whole; it is frozen once init has been written. -/
def Dev.writeDdrCfg (d : Dev) (v : Nat) : Dev × Nat :=
  if d.ddr.inited then (d, Sts.busy)
  else
    (((((d.wr R.DDR_CFG_speed [] (bits v 0 2)).wr R.DDR_CFG_x4 [] (bits v 2 1)).wr R.DDR_CFG_ranks2 [] (bits v 3 1)).wr
      R.DDR_CFG_density [] (bits v 4 2)).wr R.DDR_CFG_wb_demand [] (bits v 6 1), Sts.ok)

/-- The firmware applies the board record (R489, R490). -/
def Dev.applyBoard (d : Dev) : Dev :=
  match d.boardRecord with
  | none => d.hrdAlert 3
  | some l =>
    let d := (d.wr R.PWR_THERM_warn_c [] (hLe l 16 1)).wr R.PWR_THERM_crit_c [] (hLe l 17 1)
    if d.flag R.SYS_RING_LOCK_lock then d.hrdAlert 4
    else
      let d := (d.wr R.HRD_DDR_force2x [] (hLe l 12 1 % 2)).wr R.HRD_DDR_ofs_c [] (hLe l 13 1)
      let d := (d.wr R.SYS_READY_EN_en [] (hLe l 14 1)).followReady
      let d := d.wr R.HRD_POWER_cap_w [] (hLe l 18 2)
      let d := (List.range 76).foldl (fun (d : Dev) i =>
        d.wr R.HRD_ISL_OBJ_floor_mhz [i] (if i < 64 then hLe l 20 2 else hLe l 22 2)) d
      (ddrInit (d.writeDdrCfg (hLe l 8 4)).1).1

/-- The boot ROM starts a slot, or none; SRAM contents are undefined. -/
def Dev.hrdStart (d : Dev) (slot : Option Nat) : Dev :=
  let d := d.withNvc fun v => { v with stalled := v.stalled.filter fun x => x.1 != 99 }
  let d := { d with hrd := { d.hrd with sram := d.free + 1, trap := false, kick := d.clock }, free := d.free + 1 }
  match slot with
  | none => d.wr R.HRD_STAT_state [] 3
  | some k =>
    (((d.wr R.HRD_STAT_state [] 1).wr R.HRD_STAT_slot [] k).wr R.HRD_STAT_fw_ver [] (d.fwVersion k)).applyBoard

/-- A restart (R486): the third within 1 s goes to the other slot when that is valid. -/
def Dev.hrdRestart (d : Dev) : Dev :=
  let d := d.bumpWrap R.HRD_STAT_resets []
  let l := (d.clock + 1) :: d.hrd.restarts.filter fun t => decide (d.clock < t + beadsPerSec)
  let d := d.withHrd fun h => { h with restarts := l }
  let other := 1 - d.rd R.HRD_STAT_slot
  if 3 ≤ l.length ∧ d.fwValid other = true then
    ((d.withHrd fun h => { h with restarts := [] }).hrdStart (some other)).hrdAlert 6
  else d.hrdStart d.fwChoice

/-- A write of HRD_CTL.restart. -/
def writeHrdRestart (inp : Nat) (d : Dev) : Dev × Nat :=
  if inp = 97 ∨ inp = 98 ∨ inp = 100 then (d.hrdRestart, Sts.ok) else (d, Sts.protected_)

/-- The cores disagree. -/
def lockstepMismatch (d : Dev) : Dev :=
  if d.rd R.HRD_STAT_state = 1 then (d.raise Ev.hrdLockstep 0).hrdRestart else d

/-- period_ms has passed without a kick. -/
def hrdWatchdog (d : Dev) : Dev :=
  let ms := d.rd R.HRD_WDOG_period_ms
  if d.rd R.HRD_STAT_state = 1 ∧ ms ≠ 0 ∧ d.hrd.kick + ms * 65536000000 ≤ d.clock then d.hrdRestart else d

/-- A write of HRD_WDOG.kick. -/
def writeHrdKick (inp : Nat) (d : Dev) : Dev × Nat :=
  if inp = 99 then (d.withHrd fun h => { h with kick := d.clock }, Sts.ok) else (d, Sts.protected_)

/-- A fetch of the firmware: it stalls on a busy bank, and an uncorrectable one traps, or restarts the Herdsman while
the handler of the last one still runs (R363, R488). -/
def nvFetch (a len : Nat) (f : NvFind) (handler : Bool) (d : Dev) : Dev :=
  if d.hrdRuns = false ∨ inNv a = false ∨ bankOf (a + len) ≠ bankOf a ∨ d.island 102 ≠ 0 then d
  else
    let d := d.withHrd fun h => { h with trap := h.trap && handler }
    match d.nvFetch 99 a len f with
    | (d, some false) =>
      let d := d.bump R.HRD_FW_fetch_faults []
      if d.hrd.trap then d.hrdRestart else d.withHrd fun h => { h with trap := true }
    | (d, _) => d

/-! ### Measurements (R482, R491) -/

/-- Nominal voltages of the rails, mV (Table 14-1). -/
def railMv : List Nat := [900, 800, 800, 800, 1800, 900, 1200, 1200, 2500, 1800]

/-- A voltage measured within 6 % of nominal shows its rail in window again (R463, log entry 97). -/
def Dev.railBack (d : Dev) (n mv : Nat) : Dev :=
  let nom := railMv.getD n 0
  if nom * 94 ≤ mv * 100 ∧ mv * 100 ≤ nom * 106 then d.setBit R.PWR_RAIL_in_win [] n else d

/-- A value measured is published while the firmware runs. -/
def measure (m : Measure) (d : Dev) : Dev :=
  let d := match m with
    | .rail n _ mv => d.railBack n mv.toNat
    | _ => d
  if d.rd R.HRD_STAT_state ≠ 1 then d else
  match m with
  | .rail n mw mv => (d.wr R.HRD_RAIL_P_mw [n] mw.toNat).wr R.HRD_RAIL_P_mv [n] mv.toNat
  | .total mw => d.wr R.HRD_POWER_p_mw [] mw.toNat
  | .islandPower i mw => d.wr R.HRD_ISL_OP_mw [i] mw.toNat
  | .util i pct => d.wr R.HRD_ISL_OP_util_pct [i] pct.toNat
  | .slack i pct => d.wr R.HRD_ISL_OP_slack_pct [i] pct.toNat
  | .hitRatio pm => d.wr R.HRD_RC_hit_pm [] pm.toNat
  | .pdv ns => d.wr R.HRD_SERVO_pdv_ns [] (min ns (ones 24))

/-- The alarm of one temperature limit: raised when it is reached, again only after 3 °C below it. -/
def thermAlarm (was : Bool) (t limit : Int) : Bool × Bool :=
  if limit ≤ t then (true, !was) else (was && decide (limit - 3 < t), false)

/-- The sensors' temperatures, sensor 0 first: the highest is the junction temperature (R482). -/
def temperatures (l : List Int) (d : Dev) : Dev :=
  match l with
  | [] => d
  | t0 :: rest =>
    let t := clampInt (-128) 127 (rest.foldl max t0)
    let d := ((List.range 128).zip l).foldl (fun (d : Dev) p => d.wrS R.HRD_TEMP_temp_c [p.1] p.2) d
    let d := d.wrS R.PWR_THERM_temp_c [] t
    let w := thermAlarm d.pwr.thermWarn t (d.rdS R.PWR_THERM_warn_c)
    let c := thermAlarm d.pwr.thermCrit t (d.rdS R.PWR_THERM_crit_c)
    let d := d.withPwr fun p => { p with thermWarn := w.1, thermCrit := c.1 }
    let d := d.withHrd fun h => { h with
      temps := (d.clock, t) :: h.temps.filter fun e => decide (d.clock ≤ e.1 + 10 * beadsPerSec) }
    let info := ofSigned 8 t
    let d := if w.2 then d.raise Ev.thermWarn info else d
    if c.2 then d.raise Ev.thermCrit info else d

/-! ### Frequencies (R194, R278, R467, R494, R495) -/

/-- The speed-grade limit of an island's clock, MHz (Table 00-2). -/
def Dev.gradeLimit (d : Dev) (i : Nat) : Nat :=
  if d.rd R.SYS_ID_grade = 1 then (if i < 64 then 850 else 2600) else (if i < 64 then 1000 else 3000)

/-- The highest frequency allowed; a fabric island without an image has no ceiling of an image. -/
def Dev.topMhz (d : Dev) (i : Nat) : Nat :=
  let c := d.rd R.HRD_ISL_OBJ_ceil_mhz [i]
  let top := min (d.gradeLimit i) (if c = 4095 then d.gradeLimit i else c)
  let fmax := if i < 64 then d.rd R.FAB_ISL_CLKDIV_fmax_mhz [i] else 0
  if fmax = 0 then top else min top fmax

/-- The frequency req_mhz stands for. -/
def Dev.runMhz (d : Dev) (i : Nat) : Nat :=
  min (d.topMhz i) (max (d.rd R.HRD_ISL_OBJ_floor_mhz [i]) (d.rd R.HRD_ISL_OP_req_mhz [i]))

/-- The voltage of Table 15-5, mV. -/
def tableMv (mhz limit : Nat) : Nat :=
  let r := 100 * mhz
  if r ≤ 40 * limit then 620 else if r ≤ 55 * limit then 670 else if r ≤ 70 * limit then 720
  else if r ≤ 80 * limit then 760 else if r ≤ 90 * limit then 800 else 850

def Dev.islandPinned (d : Dev) (i : Nat) : Bool := (d.rd R.HRD_ISL_PIN_pin).testBit i

/-- A synthesiser step of an island: the frequency in force follows, with its voltage; a pinned island holds. -/
def synthStep (i : Nat) (d : Dev) : Dev :=
  if d.islandPinned i = true ∨ d.island i = 2 then d
  else
    let f := d.runMhz i
    let mv := min 850 (tableMv f (d.gradeLimit i) + 5 * min 10 (d.rd R.HRD_ISL_OP_trim [i]))
    let d := (d.wr R.HRD_ISL_OP_mhz [i] f).wr R.HRD_ISL_OP_mv [i] mv
    if i < 64 then d.wr R.FAB_ISL_STAT_mhz [i] f else d.wr R.DRV_DROVE_STAT_mhz [i - 64] f

/-- A write of HRD_ISL_OP: fields under `m`, req_mhz in bits 11:0, trim in bits 15:12. -/
def writeIslOp (inp i m v : Nat) (d : Dev) : Dev × Nat :=
  if m % 65536 = 0 then (d, Sts.ok)
  else if inp ≠ 99 then (d, Sts.protected_)
  else if d.loopPinned 0 = true ∨ (d.islandPinned i = true ∧ m % 4096 ≠ 0) then (d.hrdCount 11, Sts.protected_)
  else
    let mix := fun (old lo w : Nat) => (old &&& (ones w - bits m lo w)) ||| (bits v lo w &&& bits m lo w)
    let d := d.wr R.HRD_ISL_OP_req_mhz [i] (mix (d.rd R.HRD_ISL_OP_req_mhz [i]) 0 12)
    (d.wr R.HRD_ISL_OP_trim [i] (mix (d.rd R.HRD_ISL_OP_trim [i]) 12 4), Sts.ok)

/-! ### DVFS (R496) -/

/-- The firmware requests a frequency: counted as a step, refused while the loop is pinned. -/
def Dev.askMhz (d : Dev) (i f : Nat) : Dev :=
  if f = d.rd R.HRD_ISL_OP_req_mhz [i] then d
  else
    let r := writeIslOp 99 i 0xFFF f d
    if r.2 = Sts.ok then r.1.hrdCount 0 else r.1

/-- The firmware sets trim. -/
def Dev.askTrim (d : Dev) (i t : Nat) : Dev := (writeIslOp 99 i 0xF000 (t * 4096) d).1

def Dev.floorMhz (d : Dev) (i : Nat) : Nat := d.rd R.HRD_ISL_OBJ_floor_mhz [i]
def Dev.reqMhz (d : Dev) (i : Nat) : Nat := d.rd R.HRD_ISL_OP_req_mhz [i]
/-- step_mhz as it acts. -/
def Dev.stepMhz (d : Dev) : Nat := min 1000 (max 25 (d.rd R.HRD_DVFS_step_mhz))

/-- Item 2: the lowest class that has an island above its floor steps down, with PWR_CAP for each. -/
def Dev.capStep (d : Dev) (l : List Nat) : Dev :=
  let above := l.filter fun i => decide (d.floorMhz i < d.reqMhz i)
  match [0, 1, 2, 3].find? fun p => above.any fun i => d.rd R.HRD_ISL_OBJ_prio [i] == p with
  | none => if d.hrd.capUnmet then d else (d.withHrd fun h => { h with capUnmet := true }).hrdAlert 1
  | some p =>
    (above.filter fun i => d.rd R.HRD_ISL_OBJ_prio [i] == p).foldl (fun (d : Dev) i =>
      let asked := d.askMhz i (max (d.floorMhz i) (d.reqMhz i - d.stepMhz))
      if d.loopPinned 0 then asked else (asked.hrdCount 1).raise Ev.pwrCap i) d

/-- Item 3: an island steps by its utilisation. -/
def Dev.utilStep (d : Dev) (temp : Int) (i : Nat) : Dev :=
  let u := d.rd R.HRD_ISL_OP_util_pct [i]
  let room := decide (d.rd R.HRD_POWER_p_mw * 100 < d.rd R.HRD_POWER_cap_w * 1000 * (100 - d.rd R.HRD_POWER_margin_pct))
    && decide (temp ≤ d.rdS R.PWR_THERM_warn_c - 3)
  if u < d.rd R.HRD_DVFS_down_pct then
    (if d.floorMhz i < d.reqMhz i then d.askMhz i (max (d.floorMhz i) (d.reqMhz i - d.stepMhz)) else d)
  else if d.rd R.HRD_DVFS_up_pct < u ∧ room = true ∧ d.reqMhz i < d.topMhz i then
    d.askMhz i (min (d.topMhz i) (d.reqMhz i + d.stepMhz))
  else d

/-- Item 4: an island's trim. -/
def Dev.trimStep (d : Dev) (i : Nat) : Dev :=
  let s := d.rd R.HRD_ISL_OP_slack_pct [i]
  let t := d.rd R.HRD_ISL_OP_trim [i]
  if s < 8 ∧ t < 10 then d.askTrim i (t + 1) else if 15 < s ∧ 0 < t then d.askTrim i (t - 1) else d

/-- The decision at the end of an interval. -/
def dvfsDecision (d : Dev) : Dev :=
  if d.hrdRuns = false then d else
  let l := (List.range 76).filter fun i => !d.islandPinned i
  let temp := d.rdS R.PWR_THERM_temp_c
  let hot := decide (d.rdS R.PWR_THERM_crit_c ≤ temp)
  let beyond := decide (d.rd R.HRD_POWER_cap_w * 1000 < d.rd R.HRD_POWER_p_mw) || decide (d.rdS R.PWR_THERM_warn_c ≤ temp)
  let d := if beyond || hot then d else d.withHrd fun h => { h with capUnmet := false }
  let d := if hot then (l.foldl (fun (d : Dev) i => d.askMhz i (d.floorMhz i)) d).hrdAlert 2
    else if beyond then d.capStep l
    else l.foldl (fun (d : Dev) i => d.utilStep temp i) d
  l.foldl (fun (d : Dev) i => d.trimStep i) d

/-! ### DDR4 refresh (R497) -/

/-- The decision of each second; `mpr` is the devices' own sensor. -/
def refreshDecision (mpr : Int) (d : Dev) : Dev :=
  if d.hrdRuns = false then d else
  let own := d.rdS R.PWR_THERM_temp_c + d.rdS R.HRD_DDR_ofs_c
  let est := if d.flag R.HRD_DDR_mpr_en then max own mpr else own
  let low := decide (est ≤ d.rd R.HRD_DDR_lo_c)
  let cool := if low then (if d.hrd.coolAt = 0 then d.clock + 1 else d.hrd.coolAt) else 0
  let d := d.withHrd fun h => { h with coolAt := cool }
  let old := d.rd R.DDR_REF_mode
  let mode := if d.flag R.HRD_DDR_force2x then 1
    else if (d.rd R.HRD_DDR_hi_c : Int) ≤ est then 1
    else if cool ≠ 0 ∧ cool + 60 * beadsPerSec ≤ d.clock + 1 then 0 else old
  if mode = old then d
  else if d.loopPinned 1 then d.hrdCount 11
  else (d.wr R.DDR_REF_mode [] mode).hrdCount 2

/-! ### Route cache pins and pre-warm (R498, R499) -/

/-- Frames counted for a sid. -/
def Dev.sidFrames (d : Dev) (sid : Nat) : Nat := d.load (sidAddr sid) 8

/-- Sids in use with their entries. -/
def Dev.liveSids (d : Dev) : List (Nat × Nat) :=
  (d.rte.sids.filter fun (e : Nat × Nat) => e.2 != 0).map fun e => (e.1, e.2 - 1)

/-- A list in falling order of its second component. -/
def insertRate (l : List (Nat × Nat)) (x : Nat × Nat) : List (Nat × Nat) :=
  match l with
  | [] => [x]
  | y :: r => if y.2 < x.2 then x :: y :: r else y :: insertRate r x

/-- Stream entries with pin set that belong to a cache set. -/
def Dev.pinnedIn (d : Dev) (set : Nat) : Nat :=
  (d.liveSids.filter fun p => ePin (d.entry p.2) == 1 && d.setOfEntry p.2 == set).length

/-- A pin bit set or cleared as a direct change. -/
def Dev.setPin (d : Dev) (i v : Nat) : Dev := (d.setEntry i (putBits (d.entry i) 327 1 v)).repinLine i (.stream i)

/-- The decision of each second. -/
def cacheDecision (d : Dev) : Dev :=
  if d.hrdRuns = false ∨ d.ddrReady = false then d else
  let sec := d.clock / beadsPerSec
  let live := d.liveSids
  let grown := live.map fun p => (p, d.sidFrames p.1 - tget 0 d.hrd.frames p.1)
  let d := d.withHrd fun h => { h with
    frames := live.foldl (fun t p => tset 0 t p.1 (d.sidFrames p.1)) []
    seen := grown.foldl (fun t g => if g.2 = 0 then t else tset 0 t g.1.1 sec) h.seen }
  let want := grown.filter fun g =>
    decide (d.rd R.HRD_RC_min_fps ≤ g.2) && ePin (d.entry g.1.2) == 0 && ePendSlot (d.entry g.1.2) == 0
  let order := (want.map fun g => (g.1.2, g.2)).foldl insertRate []
  let sets := if d.rd R.HRD_RC_hit_pm < d.rd R.HRD_RC_target_pm then order.take 10000 else []
  let clears := (d.hrd.pins.filter fun i =>
    ePendSlot (d.entry i) == 0 && decide (tget 0 d.hrd.seen (eSid (d.entry i)) + d.rd R.HRD_RC_idle_s ≤ sec)).take (10000 - sets.length)
  if d.loopPinned 2 then d.hrdCount 11 (sets.length + clears.length)
  else
    let d := sets.foldl (fun (d : Dev) p =>
      if d.pinnedIn (d.setOfEntry p.1) + 1 < d.pinWays then
        ((d.setPin p.1 1).withHrd fun h => { h with pins := h.pins ++ [p.1] }).hrdCount 3
      else d) d
    clears.foldl (fun (d : Dev) i =>
      ((d.setPin i 0).withHrd fun h => { h with pins := h.pins.filter (· ≠ i) }).hrdCount 4) d

/-- A pre-warm starts, from the lowest index. -/
def startPrewarm (d : Dev) : Dev := d.withHrd fun h => { h with warm := 1 }

/-- The pre-warm loads the next entry with pin set. -/
def prewarmEntry (d : Dev) : Dev :=
  if d.hrd.warm = 0 ∨ d.hrdRuns = false ∨ d.ddrReady = false ∨ d.island 78 ≠ 0 then d
  else
    match (List.range 16777216).find? fun i => decide (d.hrd.warm ≤ i + 1) && ePin (d.entry i) == 1
        && (isStream (d.entry i) || eType (d.entry i) == 0x0C) with
    | none => d.withHrd fun h => { h with warm := 0 }
    | some i =>
      let d := d.withHrd fun h => { h with warm := i + 2 }
      if d.lineBad (entryAddr i) then d
      else (d.loadLine (d.setOfEntry i) (if isStream (d.entry i) then .stream i else .chan i) true false).hrdCount 5

/-! ### Load balance (R500 to R502) -/

/-- The drovers of a group: one set in two groups belongs to the lower. -/
def Dev.groupOf (d : Dev) (g : Nat) : List Nat :=
  (List.range 96).filter fun n => (d.rd R.HRD_LB_GRP_drovers [g]).testBit n
    && !((List.range g).any fun h => (d.rd R.HRD_LB_GRP_drovers [h]).testBit n)

/-- The first drover of a list with the best value. -/
def bestOf (better : Nat → Nat → Bool) (u : Nat → Nat) (l : List Nat) : Option Nat :=
  l.foldl (fun (b : Option Nat) n => match b with
    | none => some n
    | some m => if better (u n) (u m) then some n else some m) none

/-- The sid a source drover can give: it is routed to it, has no pending change, and has not moved for a second. -/
def Dev.mayMove (d : Dev) (src sid : Nat) : Bool :=
  let i := tget 0 d.rte.sids sid
  let e := d.entry (i - 1)
  let twins := (d.liveSids.map Prod.snd).filter fun j => let x := d.entry j
    x == e || (eP27 e == 1 && eP27 x == 1 && ePair x == ePair e)
  let at_ := tget 0 d.hrd.moved sid
  i != 0 && eKind e == 1 && eDest e == src && (twins.all fun j => ePendSlot (d.entry j) == 0)
    && !(d.rte.moves.any fun m => m.sid == sid) && (at_ == 0 || decide (at_ + beadsPerSec ≤ d.clock + 1))

/-- The decision for a group: `u` holds the utilisation of each drover in percent, `fr` the frames of each sid
delivered to the busiest one in the last 10 ms. -/
def loadBalance (g : Nat) (u : List Nat) (fr : List (Nat × Nat)) (d : Dev) : Dev :=
  if d.hrdRuns = false ∨ (d.rd R.HRD_LB_en).testBit g = false then d else
  let sec := d.clock / beadsPerSec
  let d := if d.hrd.lbSec = sec then d else d.withHrd fun h => { h with lbSec := sec, lbCount := [] }
  let util := fun n => u.getD n 0
  let l := (d.groupOf g).filter fun n => !d.halted n
  match bestOf (fun a b => decide (b < a)) util l, bestOf (fun a b => decide (a < b)) util l with
  | some src, some dst =>
    let us := util src
    let ud := util dst
    if us ≤ d.rd R.HRD_LB_hi_pct ∨ d.rd R.HRD_LB_lo_pct ≤ ud ∨ d.rd R.HRD_LB_max_moves ≤ tget 0 d.hrd.lbCount g then d
    else
      let total := (fr.map Prod.snd).sum
      let fit := fr.filter fun p => decide (0 < p.2) && decide (2 * us * p.2 ≤ (us - ud) * total) && d.mayMove src p.1
      match fit.foldl insertRate [] with
      | [] => d
      | (sid, _) :: _ =>
        if d.loopPinned 3 then d.hrdCount 11
        else
          let d := d.withHrd fun h => { h with lbCount := tset 0 h.lbCount g (tget 0 h.lbCount g + 1) }
          d.withRte fun r => { r with moves := r.moves ++ [⟨sid, src, dst, d.clock, false⟩] }
  | _, _ => d

/-- No boundary came within tmo_ms. -/
def migrationTimeout (sid : Nat) (d : Dev) : Dev :=
  match d.rte.moves.find? fun m => m.sid == sid with
  | none => d
  | some m =>
    if m.ready = true ∨ d.clock < m.since + d.rd R.HRD_LB_tmo_ms * 65536000000 then d
    else (d.withRte fun r => { r with moves := r.moves.filter fun x => x.sid != sid }).hrdCount 7

/-! ### Recalibration (R504) -/

/-- The decision of each second. -/
def recalDecision (d : Dev) : Dev :=
  if d.hrdRuns = false then d else
  let t := d.rdS R.PWR_THERM_temp_c
  let old := (d.hrd.temps.getLast?.map Prod.snd).getD t
  let fast := decide (d.rd R.HRD_CAL_fast_dcps < (t - old).natAbs)
  let p := if fast then 1 else d.rd R.HRD_CAL_period_s
  let d := if p = d.rd R.TIM_CAL_CFG_period_s then d
    else if d.loopPinned 5 then d.hrdCount 11 else d.wr R.TIM_CAL_CFG_period_s [] p
  if d.hrd.alarmed then (d.withHrd fun h => { h with alarmed := false, again := true }).hrdCount 10 else d

/-! ### The commands -/

/-- SYNTHESISER_STEP of island `i`, 0 to 75. -/
def execSynthesiserStep (i : Fin 76) (s : State) : Host.Outcome State Fault Refusal := run s (synthStep i)

/-- NV_FETCH: `handler` says that the fetch-fault handler still runs. -/
def execNvFetch (a : BitVec 38) (len : Fin 65) (f : NvFind) (handler : Bool) (s : State) :
    Host.Outcome State Fault Refusal := run s (nvFetch a.toNat len f handler)

/-- MEASUREMENT_UPDATE. -/
def execMeasurementUpdate (m : Measure) (s : State) : Host.Outcome State Fault Refusal := run s (measure m)

/-- TEMPERATURE_SAMPLE. -/
def execTemperatureSample (l : List (BitVec 8)) (s : State) : Host.Outcome State Fault Refusal :=
  run s (temperatures (l.map BitVec.toInt))

/-- HRD_RESTART. -/
def execHrdRestart (inp : Fin 101) (s : State) : Host.Outcome State Fault Refusal :=
  run s fun d => let r := writeHrdRestart inp d; r.1.complete ⟨inp, false⟩ r.2 0

/-- LOCKSTEP_MISMATCH. -/
def execLockstepMismatch (s : State) : Host.Outcome State Fault Refusal := run s lockstepMismatch

/-- HRD_WATCHDOG_EXPIRE. -/
def execHrdWatchdogExpire (s : State) : Host.Outcome State Fault Refusal := run s hrdWatchdog

/-- HRD_WDOG_KICK. -/
def execHrdWdogKick (inp : Fin 101) (s : State) : Host.Outcome State Fault Refusal :=
  run s fun d => let r := writeHrdKick inp d; r.1.complete ⟨inp, false⟩ r.2 0

/-- DVFS_DECISION. -/
def execDvfsDecision (s : State) : Host.Outcome State Fault Refusal := run s dvfsDecision

/-- REQ_MHZ_WRITE. -/
def execReqMhzWrite (inp : Fin 101) (i : Fin 76) (mhz : BitVec 12) (s : State) : Host.Outcome State Fault Refusal :=
  run s fun d => let r := writeIslOp inp i 0xFFF mhz.toNat d; r.1.complete ⟨inp, false⟩ r.2 0

/-- DDR_REFRESH_DECISION: what the multi-purpose register reads. -/
def execDdrRefreshDecision (mpr : BitVec 8) (s : State) : Host.Outcome State Fault Refusal :=
  run s (refreshDecision mpr.toInt)

/-- ROUTE_CACHE_DECISION. -/
def execRouteCacheDecision (s : State) : Host.Outcome State Fault Refusal := run s cacheDecision

/-- HRD_PREWARM: a write of HRD_CTL.prewarm. -/
def execHrdPrewarm (inp : Fin 101) (s : State) : Host.Outcome State Fault Refusal :=
  run s fun d => (startPrewarm d).complete ⟨inp, false⟩ Sts.ok 0

/-- HRD_PREWARM_STEP. -/
def execHrdPrewarmStep (s : State) : Host.Outcome State Fault Refusal := run s prewarmEntry

/-- LOAD_BALANCE. -/
def execLoadBalance (g : Fin 4) (u : List (BitVec 7)) (fr : List (BitVec 18 × Nat)) (s : State) :
    Host.Outcome State Fault Refusal :=
  run s (loadBalance g (u.map BitVec.toNat) (fr.map fun p => (p.1.toNat, p.2)))

/-- MIGRATION_TIMEOUT. -/
def execMigrationTimeout (sid : BitVec 18) (s : State) : Host.Outcome State Fault Refusal := run s (migrationTimeout sid.toNat)

/-- RECAL_DECISION. -/
def execRecalDecision (s : State) : Host.Outcome State Fault Refusal := run s recalDecision

end Sys2Proof.Machine
end

