-- ==== Sys2Proof/Machine/Tally.lean ====
section
/-! DEFINITION. Chapter 16: the Tally. It runs while VCC_TLY is present, in OFF as well. -/

namespace Sys2Proof.Machine

def Dev.withTly (d : Dev) (f : TlySt → TlySt) : Dev := { d with tly := f d.tly }

/-- A notice to the event unit, which does not run in OFF. -/
def Dev.tlyRaise (d : Dev) (src info : Nat) : Dev := if d.pwr.off then d else d.raise src info

def Dev.tlyCount (d : Dev) (k : Nat) (n : Nat := 1) : Dev := d.bumpWrap R.TLY_CNT_count [k] n

/-- The Tally measures: it runs and no ROM check has failed. -/
def Dev.tlyRuns (d : Dev) : Bool := d.tly.on && d.rd R.TLY_STAT_state == 1

/-! ### Parameters (R534) -/

/-- 0 UNPROVISIONED, 1 OPEN, 2 SEALED. -/
def Dev.tlySeal (d : Dev) : Nat := if d.tallyAuth = 0 then 0 else if d.tly.params.sealed then 2 else 1

/-- The parameters in force: the reset values while UNPROVISIONED. -/
def Dev.tlyParams (d : Dev) : TlyParams := if d.tallyAuth = 0 then {} else d.tly.params

def cfgLoud (c : Nat) : Nat := bits c 0 16
def cfgSvc (c : Nat) : Nat := bits c 16 16
def cfgTie (c : Nat) : Nat := bits c 32 16
def cfgTieLimit (c : Nat) : Nat := bits c 64 32

/-- A slot as it reads before it is first written. -/
def progDefault : Nat := 0x8000 * 2 ^ 544 + 0x8000 * 2 ^ 560
def TlyParams.prog (x : TlyParams) (p : Nat) : Nat := tget progDefault x.progs p
def progEn (v : Nat) : Bool := v.testBit 576
def progChan (v m : Nat) : Nat := bits v (32 * m) 32
def progOfs (v : Nat) : Nat := bits v 512 32
/-- A limit in 0.01 LUFS or dBTP; none for 0x8000. -/
def progLimit (v lo : Nat) : Option Int := if bits v lo 16 = 0x8000 then none else some (toSigned 16 (bits v lo 16))
def chEn (c : Nat) : Bool := c.testBit 0
/-- The egress stream a channel names: 16384 port + stream. -/
def chStream (c : Nat) : Nat := bits c 1 1 * 16384 + bits c 2 14
def chIndex (c : Nat) : Nat := bits c 16 6
def chChans (c : Nat) : Nat := bits c 22 6 + 1
def chRole (c : Nat) : Nat := bits c 28 2
def chBytes (c : Nat) : Nat := 2 + bits c 30 1
/-- The channels of a slot that are enabled. -/
def progChans (v : Nat) : List Nat := (List.range 16).filter fun m => chEn (progChan v m)
def Dev.enabledProgs (d : Dev) : List Nat := (List.range 256).filter fun p => progEn (d.tlyParams.prog p)

/-- TLY_PROG of a slot. -/
def Dev.showProg (d : Dev) (p : Nat) : Dev :=
  let v := d.tlyParams.prog p
  let d := ((d.wr R.TLY_PROG_chan [p] (bits v 0 512)).wr R.TLY_PROG_ts_ofs [p] (bits v 512 32)).wr R.TLY_PROG_limit [p] (bits v 544 16)
  ((d.wr R.TLY_PROG_tp_limit [p] (bits v 560 16)).wr R.TLY_PROG_en [p] (bits v 576 1)).wr R.TLY_PROG_name [p] (bits v 640 256)

/-- TLY_CFG, TLY_STAT and TLY_AUTH.cmd_seq. -/
def Dev.showParams (d : Dev) : Dev :=
  let c := d.tlyParams.cfg
  let d := ((d.wr R.TLY_CFG_loud_period_s [] (cfgLoud c)).wr R.TLY_CFG_svc_period_s [] (cfgSvc c)).wr R.TLY_CFG_tie_period_s [] (cfgTie c)
  let d := (d.wr R.TLY_CFG_tie_limit_ns [] (cfgTieLimit c)).wr R.TLY_STAT_seal [] d.tlySeal
  (d.wr R.TLY_STAT_audit_count [] d.tlyParams.audit).wr R.TLY_AUTH_cmd_seq [] d.tlyParams.cmdSeq

/-- The mirror shows the parameters (R536). -/
def Dev.publish (d : Dev) : Dev :=
  if d.tly.on = false then d
  else ((List.range 256).foldl (fun (d : Dev) p => d.showProg p) d.showParams).wr R.TLY_STAT_time_valid [] (bit d.tly.aligned)

/-! ### Records (R528 to R531) -/

/-- The Tally's time; while its replica is not aligned a free value. -/
def Dev.tlyTime (d : Dev) : Dev × Nat := if d.tly.aligned then (d, d.nowRaw) else d.draw 96

/-- A record is created; it relies on every instant since `from_`. -/
def Dev.createRec (d : Dev) (type : Nat) (from_ : Nat) (payload : List Byte) : Dev :=
  let valid := d.tly.aligned && decide (d.tly.alignedAt ≤ from_ + 1)
  let (d, t) := d.tlyTime
  let r : TlyRec := { type := type, valid := valid, sealed := d.tlySeal == 2, time := t, payload := payload }
  d.withTly fun x => { x with created := x.created ++ [r] }

/-- Where record `seq` stands in the partition. -/
def recAddr (seq : Nat) : Nat := 0x2F000000 + 256 * (seq % 65536)

/-- The oldest record in the partition when `n` have been committed. -/
def oldestRec (n : Nat) : Nat := (n - 1) / 1024 * 1024 + 1024 - 65536

/-- The bytes of a record (Table 16-2). -/
def Dev.recBytes (d : Dev) (r : TlyRec) (seq prev : Nat) : List Byte :=
  let pay := (r.payload ++ List.replicate 88 0).take 88
  let head := [0x54, 0x52, BitVec.ofNat 8 r.type, BitVec.ofNat 8 (bit r.valid + 2 * bit r.sealed)]
    ++ leBytes 8 seq ++ leBytes 12 r.time ++ beBytes 48 prev ++ pay
  head ++ beBytes 96 (Config.tallySign (BitVec.ofNat 384 d.tallySeed) (Config.sha384 head)).toNat

/-- Window slot `j` of the replay window. -/
def Dev.showReplay (d : Dev) : Dev :=
  let base := d.rd R.TLY_REPLAY_base
  (List.range 32).foldl (fun (d : Dev) j =>
    let seq := base + j
    let there := decide (oldestRec d.tly.count ≤ seq ∧ seq < d.tly.count)
    d.wr R.TLY_RWIN_rec [j] (if there then d.load (recAddr seq) 256 else 0)) d

/-- The sector of a slot about to be written is erased; records above ack_seq that go with it are counted. -/
def Dev.eraseSlots (d : Dev) (seq : Nat) : Dev :=
  if seq % 1024 ≠ 0 then d else
  let lo := recAddr seq
  let d := { d with mem := d.mem.filter fun (c : Host.Cell) => !decide (lo ≤ c.1 ∧ c.1 < lo + 0x40000) }
  if seq < 65536 then d else
  let first := seq - 65536
  let n := (first + 1024) - max first (d.rd R.TLY_RING_ack_seq + 1)
  if n = 0 then d else (d.tlyCount 8 n).tlyRaise Ev.tlyRingWrap 0

/-- A record is committed: seq assigned, programmed, published. -/
def Dev.commitRec (d : Dev) (r : TlyRec) : Dev :=
  let seq := d.tly.count
  let d := d.eraseSlots seq
  let b := d.recBytes r seq d.tly.prev
  let d := (d.setBytes (recAddr seq) b).withTly fun x => { x with count := seq + 1, prev := (Config.sha384 b).toNat }
  let d := (d.wr R.TLY_STAT_head_seq [] seq).wr R.TLY_RING_oldest_seq [] (oldestRec (seq + 1))
  ((d.wr R.TLY_WIN_rec [seq % 64] (ofLe b)).tlyCount 7).showReplay

/-- RECORD_COMMIT: the oldest record created. -/
def recordCommit (d : Dev) : Dev :=
  match d.tly.created with
  | [] => d
  | r :: rest => if d.tlyRuns = false then d else (d.withTly fun x => { x with created := rest }).commitRec r

/-! ### Loudness state (R519 to R524) -/

/-- The first step of 4,800 samples that begins at or after an instant. -/
def stepFrom (t : Nat) : Nat := (t * 10 + beadsPerSec - 1) / beadsPerSec
/-- The instant of the last sample of a step, beads, rounded up. -/
def stepEnd (j : Nat) : Nat := ((4800 * j + 4799) * beadsPerSec + 47999) / 48000
/-- The period of length `len` seconds an instant falls in. -/
def periodOf (t len : Nat) : Nat := t / (len * beadsPerSec)

def Dev.tlyRun (d : Dev) (p : Nat) : TlyRun := tget {} d.tly.runs p
def Dev.setTlyRun (d : Dev) (p : Nat) (x : TlyRun) : Dev := d.withTly fun y => { y with runs := tset {} y.runs p x }
def Dev.tlyChan (d : Dev) (p m : Nat) : TlyChan := tget {} d.tly.chans (16 * p + m)
def Dev.setTlyChan (d : Dev) (p m : Nat) (x : TlyChan) : Dev :=
  d.withTly fun y => { y with chans := tset {} y.chans (16 * p + m) x }

/-- A programme's measurement starts at the next step: filters and samples are as new. -/
def Dev.startProg (d : Dev) (p : Nat) (keep : Bool) : Dev :=
  let x : TlyRun := if keep then { d.tlyRun p with next := 0, energy := [] } else {}
  let d := (List.range 16).foldl (fun (d : Dev) m => d.setTlyChan p m { tp := if keep then (d.tlyChan p m).tp else 0 }) d
  d.setTlyRun p (if d.tly.aligned then { x with next := stepFrom d.now + 1 } else x)

/-- Loudness as a 16-bit field, 0x8000 for no value. -/
def loudField (x : Option Int) : Nat := match x with | some v => ofSigned 16 (satSigned 16 v) | none => 0x8000
/-- The largest of the values there are. -/
def maxLoud (l : List (Option Int)) : Option Int := (l.filterMap id).max?

/-- The samples of a stream's second are discarded (R520). -/
def Dev.dropSecond (d : Dev) (k sec : Nat) : Dev :=
  d.enabledProgs.foldl (fun (d : Dev) p =>
    let v := d.tlyParams.prog p
    let mine := (progChans v).filter fun m => chStream (progChan v m) == k
    if mine = [] then d
    else
      let d := mine.foldl (fun (d : Dev) m =>
        let c := d.tlyChan p m
        d.setTlyChan p m { c with samples := c.samples.filter fun (e : Nat × Option Int) => decide (e.1 / 48000 ≠ sec) }) d
      d.setTlyRun p { d.tlyRun p with fmtErr := true }) d

/-- The RTP rate of a stream differs from 48 kHz by more than 1 %. -/
def rateBad (x : TlyRate) : Bool :=
  let dr := (x.rtp1 + 2 ^ 32 - x.rtp0) % 2 ^ 32
  let dt := x.t1 - x.t0
  dt != 0 && (decide (dr * beadsPerSec < 47520 * dt) || decide (48480 * dt < dr * beadsPerSec))

/-- The second of a stream's rate check has passed. -/
def Dev.rateCheck (d : Dev) (k : Nat) : Dev :=
  match tget none d.tly.rates k with
  | none => d
  | some x =>
    if d.now < (x.sec + 1) * beadsPerSec then d
    else
      let d := d.withTly fun y => { y with rates := tset none y.rates k none }
      if rateBad x then (d.dropSecond k x.sec).tlyCount 9 x.frames else d

/-- A frame enters its stream's rate check. -/
def Dev.rateFrame (d : Dev) (k rtp t : Nat) : Dev :=
  let d := match tget none d.tly.rates k with
    | some x =>
      if x.sec = t / beadsPerSec then d
      else
        let d := d.withTly fun y => { y with rates := tset none y.rates k none }
        if rateBad x then (d.dropSecond k x.sec).tlyCount 9 x.frames else d
    | none => d
  let x : TlyRate := match tget none d.tly.rates k with
    | some x => { x with rtp1 := rtp, t1 := t, frames := x.frames + 1 }
    | none => { sec := t / beadsPerSec, rtp0 := rtp, t0 := t, rtp1 := rtp, t1 := t }
  d.withTly fun y => { y with rates := tset none y.rates k (some x) }

/-! ### Taps (R511, R518, R525, R527) -/

/-- A tap message with its count: a gap is raised and counted. -/
def Dev.tapGap (d : Dev) (path count : Nat) : Dev :=
  let e := tget 0 d.tly.expect path
  let d := d.withTly fun y => { y with expect := tset 0 y.expect path ((count + 1) % 65536 + 1) }
  if e = 0 ∨ e = count + 1 then d
  else (d.tlyCount 0 ((count + 65536 - (e - 1)) % 65536)).tlyRaise Ev.tlyTapGap path

/-- A sample for a channel: late ones and second ones are counted. -/
def Dev.putSample (d : Dev) (p m n : Nat) (v : Int) : Dev :=
  if n * beadsPerSec + 96000 * beadsPerSec < d.now * 48000 then d.tlyCount 4
  else
    let c := d.tlyChan p m
    if (tget none c.samples n).isSome then d.tlyCount 5
    else d.setTlyChan p m { c with samples := tset none c.samples n (some v) }

/-- The samples of one channel of a frame. -/
def Dev.takeChan (d : Dev) (p m n0 : Nat) (c : Nat) (l : List Byte) : Dev :=
  let b := chBytes c
  (List.range (l.length / (chChans c * b))).foldl (fun (d : Dev) i =>
    let raw := ofBe ((l.drop ((i * chChans c + chIndex c) * b)).take b)
    let v := if b = 2 then toSigned 16 raw * 256 else toSigned 24 raw
    d.putSample p m (n0 + i) v) d

/-- An audio frame is measured by every programme that names its stream. -/
def Dev.measureAudio (d : Dev) (x : TapAudio) : Dev :=
  let k := 16384 * x.port + x.stream
  let t := rawToBeads x.ts
  let d := d.rateFrame k x.rtpTs t
  let r := d.enabledProgs.foldl (fun (r : Dev × Bool) p =>
    let v := r.1.tlyParams.prog p
    let n0 := sampleIndexOf t x.rtpTs (progOfs v)
    ((progChans v).filter fun m => chStream (progChan v m) == k).foldl (fun (r : Dev × Bool) m =>
      let c := progChan v m
      if x.payload.length % (chChans c * chBytes c) ≠ 0 then
        (r.1.setTlyRun p { r.1.tlyRun p with fmtErr := true }, true)
      else (r.1.takeChan p m n0 c x.payload, r.2)) r) (d, false)
  if r.2 then r.1.tlyCount 9 else r.1
where
  /-- R166 at 48 kHz. -/
  sampleIndexOf (t r ofs : Nat) : Nat :=
    let near := t * 48000 / beadsPerSec
    let want := (r + 2 ^ 32 - ofs % 2 ^ 32) % 2 ^ 32
    ((near : Int) + toSigned 32 (want + 2 ^ 32 - near % 2 ^ 32)).toNat

/-- AUDIO_TAP. -/
def audioTap (q : Nat) (d : Dev) : Dev :=
  match tget [] d.tly.audioQ q with
  | [] => d
  | x :: rest =>
    let d := d.withTly fun y => { y with audioQ := tset [] y.audioQ q rest }
    if d.tlyRuns = false then d
    else
      let d := d.tapGap q x.count
      if d.tly.aligned then d.measureAudio x else d

def svcKey (period tenant port : Nat) : Nat := (4096 * period + tenant) * 2 + port

/-- ACCT_TAP. -/
def acctTap (d : Dev) : Dev :=
  match d.tly.acctQ with
  | [] => d
  | x :: rest =>
    let d := d.withTly fun y => { y with acctQ := rest }
    if d.tlyRuns = false then d
    else
      let d := (d.tapGap 2 x.count).tlyCount 6
      if d.tly.aligned = false then d
      else
        let t := rawToBeads x.ts
        let k := svcKey (periodOf t (cfgSvc d.tlyParams.cfg)) x.tenant x.port
        let c := (t / beadsPerSec, x.sid, x.tenant, x.port)
        let new := decide (c ∉ d.tly.credited)
        let s := tget {} d.tly.svc k
        d.withTly fun y => { y with
          svc := tset {} y.svc k { frames := s.frames + 1, bytes := s.bytes + x.len, secs := s.secs + bit new }
          credited := if new then c :: y.credited else y.credited }

/-- The time-interval error of an edge, beads (R527). -/
def tieOf (t : Nat) : Int :=
  let r := t % beadsPerSec
  if 2 * r ≤ beadsPerSec then r else (r : Int) - beadsPerSec

/-- PPS_TAP. -/
def ppsTap (d : Dev) : Dev :=
  match d.tly.ppsQ with
  | [] => d
  | (count, ts) :: rest =>
    let d := d.withTly fun y => { y with ppsQ := rest }
    if d.tlyRuns = false then d
    else
      let d := d.tapGap 3 count
      if d.tly.aligned = false then d
      else
        let c := d.tlyParams.cfg
        let t := rawToBeads ts
        let e := tieOf t
        let k := periodOf t (cfgTie c)
        let s := tget {} d.tly.tie k
        let sec := ((t : Int) - e).toNat / beadsPerSec
        let beyond := decide (cfgTieLimit c * 65536 < e.natAbs)
        let s' : TlyTie := { edges := s.edges + 1, secs := if sec ∈ s.secs then s.secs else sec :: s.secs
                             lo := if s.edges = 0 then e else min s.lo e, hi := if s.edges = 0 then e else max s.hi e
                             sum := s.sum + e, alarmed := s.alarmed || beyond }
        let d := d.withTly fun y => { y with tie := tset {} y.tie k s' }
        if beyond = true ∧ s.alarmed = false then d.tlyRaise Ev.tlyTieAlarm 0 else d

/-! ### Blocks and period records -/

/-- The samples of a channel for indices [a, b): absent ones are 0. -/
def TlyChan.take (c : TlyChan) (a b : Nat) : List Int := (List.range (b - a)).map fun i => (tget none c.samples (a + i)).getD 0

/-- A step of a channel: its weighted energy in hundredths, the missing samples, the channel after it. The true-peak
filter reaches 11 samples back. -/
def TlyChan.step (c : TlyChan) (role j : Nat) : Nat × Nat × TlyChan :=
  let a := 4800 * j
  let l := c.take a (a + 4800)
  let missing := ((List.range 4800).filter fun i => (tget none c.samples (a + i)).isNone).length
  let (f, e) := Config.kFilter c.filt l
  let tp := Config.truePeak (c.take (a - 11) (a + 4800))
  let w := match role with | 0 => 100 | 1 => 141 | _ => 0
  (w * e, missing, { samples := c.samples.filter fun (x : Nat × Option Int) => decide (a + 4789 ≤ x.1), filt := f, tp := max c.tp (tp + 1) })

/-- The true-peak of a programme in the open period. -/
def Dev.progPeak (d : Dev) (p : Nat) : Option Int :=
  let l := (progChans (d.tlyParams.prog p)).map fun m => (d.tlyChan p m).tp
  match l.foldl max 0 with
  | 0 => none
  | n + 1 => Config.dbtp n

/-- LOUDNESS_BLOCK: the next step of a programme, 2 s after its last sample (log entry 103); it waits for the record of a
period that ended before it. -/
def loudnessBlock (p : Nat) (d : Dev) : Dev :=
  let v := d.tlyParams.prog p
  let x := d.tlyRun p
  let j := x.next - 1
  if d.tlyRuns = false ∨ d.tly.aligned = false ∨ progEn v = false ∨ x.next = 0
      ∨ d.now < stepEnd j + 2 * beadsPerSec ∨ d.tly.loudP ≤ periodOf (stepEnd j) (cfgLoud d.tlyParams.cfg) then d
  else
    let d := (progChans v).foldl (fun (d : Dev) m => d.rateCheck (chStream (progChan v m))) d
    let x := d.tlyRun p
    let r := (progChans v).foldl (fun (r : Dev × Nat × Nat) m =>
      let s := (r.1.tlyChan p m).step (chRole (progChan v m)) j
      (r.1.setTlyChan p m s.2.2, r.2.1 + s.1, r.2.2 + s.2.1)) (d, 0, 0)
    let d := r.1
    let en := (r.2.1 :: x.energy).take 30
    let block := (en.take 4).sum
    let short := en.sum
    let hasB := decide (4 ≤ en.length)
    let hasS := decide (30 ≤ en.length)
    let y := { x with
      next := x.next + 1, energy := en, missing := x.missing + r.2.2
      blocks := if hasB then block :: x.blocks else x.blocks
      perBlocks := if hasB then block :: x.perBlocks else x.perBlocks
      shorts := if hasS then short :: x.shorts else x.shorts
      perShorts := if hasS then short :: x.perShorts else x.perShorts }
    let d := d.setTlyRun p y
    let d := if hasB then d.wr R.TLY_LIVE_m [p] (loudField (Config.lufs block 19200)) else d
    let d := if hasS then d.wr R.TLY_LIVE_s [p] (loudField (Config.lufs short 144000)) else d
    d.wr R.TLY_LIVE_tp [p] (loudField (d.progPeak p))

/-- The LOUDNESS record of a programme for the period that ends; its period starts at `from_`. -/
def Dev.loudRecord (d : Dev) (p from_ : Nat) : Dev :=
  let v := d.tlyParams.prog p
  let x := d.tlyRun p
  let run := Config.integrated x.blocks
  let tp := d.progPeak p
  let above := fun (a b : Option Int) => match a, b with | some m, some lim => decide (lim < m) | _, _ => false
  let beyond := above run (progLimit v 544)
  let tpOver := above tp (progLimit v 560)
  let flags := bit beyond + 2 * bit tpOver + 4 * bit (x.missing != 0) + 8 * bit x.fmtErr
  let two := fun (a : Option Int) => leBytes 2 (loudField a)
  let pay := [BitVec.ofNat 8 p, BitVec.ofNat 8 flags] ++ leBytes 2 (cfgLoud d.tlyParams.cfg)
    ++ two (Config.integrated x.perBlocks) ++ two run
    ++ two (maxLoud (x.perBlocks.map fun e => Config.lufs e 19200)) ++ two (maxLoud (x.perShorts.map fun e => Config.lufs e 144000))
    ++ two (Config.loudRange x.shorts) ++ two tp
    ++ leBytes 4 x.perBlocks.length ++ leBytes 4 (Config.gated x.perBlocks) ++ leBytes 4 x.missing
  let d := if beyond || tpOver then d.tlyRaise Ev.tlyLoudAlarm p else d
  let d := d.createRec 2 from_ pay
  let d := d.setTlyRun p { x with perBlocks := [], perShorts := [], missing := 0, fmtErr := false }
  let d := (List.range 16).foldl (fun (d : Dev) m => d.setTlyChan p m { d.tlyChan p m with tp := 0 }) d
  d.wr R.TLY_LIVE_tp [p] 0x8000

/-- The open loudness period closes. -/
def Dev.closeLoud (d : Dev) : Dev :=
  let k := d.tly.loudP - 1
  d.enabledProgs.foldl (fun (d : Dev) p => d.loudRecord p (k * cfgLoud d.tlyParams.cfg * beadsPerSec)) d

/-- LOUDNESS_RECORD: 2 s after the period's end, once every programme has measured it. -/
def loudnessRecord (d : Dev) : Dev :=
  let len := cfgLoud d.tlyParams.cfg
  if d.tlyRuns = false ∨ d.tly.aligned = false ∨ d.tly.loudP = 0 ∨ d.now < (d.tly.loudP * len + 2) * beadsPerSec
      ∨ (d.enabledProgs.any fun p => (d.tlyRun p).next != 0
        && decide (periodOf (stepEnd ((d.tlyRun p).next - 1)) len < d.tly.loudP)) = true then d
  else d.closeLoud.withTly fun y => { y with loudP := y.loudP + 1 }

/-- A tenant's entry of a SERVICE record. -/
def svcEntry (tenant : Nat) (a b : TlySvc) : List Byte :=
  leBytes 2 (tenant + 0x8000) ++ leBytes 8 a.bytes ++ leBytes 4 a.secs ++ leBytes 8 b.bytes ++ leBytes 4 b.secs

/-- SERVICE records of the tenants in a list, three in each. -/
def Dev.svcRecords (d : Dev) (k : Nat) (n : Nat) (l : List Nat) : Dev :=
  match n with
  | 0 => d
  | n + 1 =>
    if l = [] then d else
    let at_ := fun (t q : Nat) => tget {} d.tly.svc (svcKey k t q)
    let three := l.take 3
    let len := cfgSvc d.tlyParams.cfg
    let ents := (three.map fun t => svcEntry t (at_ t 0) (at_ t 1)).flatten
    let frames := (three.map fun t => (at_ t 0).frames + (at_ t 1).frames).sum
    let pay := (ents ++ List.replicate 78 0).take 78 ++ leBytes 2 len ++ leBytes 8 frames
    (d.createRec 3 (k * len * beadsPerSec) pay).svcRecords k n (l.drop 3)

/-- The open service period closes. -/
def Dev.closeSvc (d : Dev) : Dev :=
  let k := d.tly.svcP - 1
  let len := cfgSvc d.tlyParams.cfg
  let l := (List.range 4096).filter fun t => decide (0 < (tget {} d.tly.svc (svcKey k t 0)).frames + (tget {} d.tly.svc (svcKey k t 1)).frames)
  (d.svcRecords k 1366 l).withTly fun y => { y with
    svc := y.svc.filter fun (e : Nat × TlySvc) => decide (e.1 / 8192 ≠ k)
    credited := y.credited.filter fun c => decide (c.1 / len ≠ k) }

/-- SERVICE_RECORD. -/
def serviceRecord (d : Dev) : Dev :=
  let len := cfgSvc d.tlyParams.cfg
  if d.tlyRuns = false ∨ d.tly.aligned = false ∨ d.tly.svcP = 0 ∨ d.now < (d.tly.svcP * len + 2) * beadsPerSec then d
  else d.closeSvc.withTly fun y => { y with svcP := y.svcP + 1 }

/-- The open TIE period closes; without an edge its minimum, maximum and mean are free values, and so is the
rounding of a mean that is no whole number of beads. -/
def Dev.closeTie (d : Dev) : Dev :=
  let k := d.tly.tieP - 1
  let c := d.tlyParams.cfg
  let s := tget {} d.tly.tie k
  let (d, v) := d.draw 192
  let up : Int := if s.sum % (max 1 s.edges : Nat) = 0 then 0 else (v % 2 : Nat)
  let three := if s.edges = 0 then leBytes 24 v
    else leBytes 8 (ofSigned 64 s.lo) ++ leBytes 8 (ofSigned 64 s.hi) ++ leBytes 8 (ofSigned 64 (s.sum / (s.edges : Int) + up))
  let pay := leBytes 4 s.edges ++ leBytes 4 (cfgTie c - s.secs.length) ++ three ++ [BitVec.ofNat 8 (bit s.alarmed)] ++ leBytes 2 (cfgTie c)
  (d.createRec 4 (k * cfgTie c * beadsPerSec) pay).withTly fun y => { y with tie := tset {} y.tie k {} }

/-- TIE_RECORD. -/
def tieRecord (d : Dev) : Dev :=
  if d.tlyRuns = false ∨ d.tly.aligned = false ∨ d.tly.tieP = 0 ∨ d.now < d.tly.tieP * cfgTie d.tlyParams.cfg * beadsPerSec then d
  else d.closeTie.withTly fun y => { y with tieP := y.tieP + 1 }

/-! ### Start, ROM check, alignment (R514 to R517) -/

/-- The periods open now; programmes go on with the next step. -/
def Dev.openPeriods (d : Dev) : Dev :=
  let c := d.tlyParams.cfg
  let d := d.withTly fun y => { y with
    loudP := periodOf d.now (cfgLoud c) + 1, svcP := periodOf d.now (cfgSvc c) + 1, tieP := periodOf d.now (cfgTie c) + 1 }
  d.enabledProgs.foldl (fun (d : Dev) p => d.startProg p true) d

/-- The public key, 96 bytes: x then y. -/
def Dev.tlyKey (d : Dev) : List Byte := beBytes 96 (Config.tallyKey (BitVec.ofNat 384 d.tallySeed)).toNat

/-- The START record's payload. -/
def Dev.startPayload (d : Dev) : List Byte :=
  let k := d.tlyKey
  [BitVec.ofNat 8 (2 + ofBe (k.drop 48) % 2)] ++ k.take 48 ++ leBytes 4 Config.romVersion.toNat ++ (beBytes 48 Config.romSum.toNat).take 32

/-- The ROM check fails. -/
def Dev.romFault (d : Dev) : Dev := (d.wr R.TLY_STAT_state [] 2).tlyRaise Ev.tlySelfcheck 0

/-- TALLY_START. -/
def tallyStart (romOk : Bool) (d : Dev) : Dev :=
  if d.tly.on then d
  else
    let t := d.tly
    let d := d.withTly fun _ => { on := true, area := t.area, params := t.params, other := t.other, count := t.count, prev := t.prev, sent := t.sent }
    let d := (d.wr R.TLY_SWID_id [] Config.romId.toNat).wr R.TLY_SWID_checksum [] (ofLe (beBytes 48 Config.romSum.toNat))
    if romOk = false then (d.wr R.TLY_STAT_state [] 0).romFault
    else
      let d := (d.wr R.TLY_PUBKEY_key [] (ofLe d.tlyKey)).publish
      let d := (d.wr R.TLY_STAT_head_seq [] (if t.count = 0 then ones 64 else t.count - 1)).wr R.TLY_RING_ack_seq [] (t.count - 1)
      let d := d.wr R.TLY_STAT_state [] 1
      let (d, time) := d.tlyTime
      d.commitRec { type := 1, valid := false, sealed := d.tlySeal == 2, time := time, payload := d.startPayload }

/-- ROM_CHECK. -/
def romCheck (ok : Bool) (d : Dev) : Dev := if d.tlyRuns = true ∧ ok = false then d.romFault else d

/-- REPLICA_ALIGNED: a GAP record; without a last aligned time that is a free value. The period that the span cut, if
it is over, closes. -/
def replicaAligned (d : Dev) : Dev :=
  if d.tly.on = false ∨ d.pwr.off = true ∨ d.tly.aligned = true ∨ (d.tim.replicas.getD 101 {}).aligned = false then d
  else
    let (d, v) := d.draw 96
    let last := if d.tly.alignedAt = 0 then v else beadsToRaw (d.tly.alignedAt - 1)
    let d := (d.withTly fun y => { y with aligned := true, alignedAt := d.now + 1 }).wr R.TLY_STAT_time_valid [] 1
    if d.tlyRuns = false then d
    else
      let d := d.createRec 6 d.now (leBytes 12 last ++ leBytes 12 d.nowRaw)
      let c := d.tlyParams.cfg
      let cut := fun (n len : Nat) => n != 0 && n != periodOf d.now len + 1
      let d := if cut d.tly.loudP (cfgLoud c) then d.closeLoud else d
      let d := if cut d.tly.svcP (cfgSvc c) then d.closeSvc else d
      let d := if cut d.tly.tieP (cfgTie c) then d.closeTie else d
      d.openPeriods

/-- The rest of the device loses the replica: its last aligned time is kept. -/
def Dev.replicaLost (d : Dev) : Dev :=
  if d.tly.aligned then
    (d.withTly fun y => { y with aligned := false, alignedAt := d.now + 1 }).wr R.TLY_STAT_time_valid [] 0
  else d

/-- TALLY_POWER_LOSS: what is not in the Tally plane is lost. -/
def tallyPowerLoss (d : Dev) : Dev :=
  let t := d.tly
  d.withTly fun _ => { area := t.area, params := t.params, other := t.other, count := t.count, prev := t.prev, sent := t.sent }

/-! ### The inbox (R533) -/

namespace Inb
def ok := 0
def badFormat := 1
def wrongDevice := 2
def notProvisioned := 3
def badKey := 4
def badSignature := 5
def replay := 6
def sealed_ := 7
def badValue := 8
def rate := 9
end Inb

def inbKind (m : List Byte) : Nat := (m.getD 5 0).toNat
/-- The kinds of Table 16-5: signed, body length. -/
def inbShape (kind : Nat) : Option (Bool × Nat) :=
  match kind with
  | 0x01 => some (false, 8)
  | 0x02 => some (false, 8)
  | 0x10 => some (true, 16)
  | 0x11 => some (true, 132)
  | 0x12 => some (true, 48)
  | 0x13 => some (true, 0)
  | 0x14 => some (true, 4)
  | _ => none

/-- R_max is above 1.0 records/s (R532). -/
def rateHigh (progs loud svc tie : Nat) : Bool :=
  decide (loud * svc * tie < progs * svc * tie + 1366 * loud * tie + loud * svc)

/-- The kind is allowed in the seal state. -/
def sealAllows (kind st : Nat) : Bool :=
  if kind = 0x13 then st == 2 else if kind = 0x14 then st == 1 || st == 2 else st == 1

/-- The values of a slot can be taken. -/
def progOk (v : Nat) : Bool :=
  (List.range 16).all fun m => let c := progChan v m; chRole c != 3 && !c.testBit 31

/-- The values of a message (check 8). -/
def Dev.inbValues (d : Dev) (kind : Nat) (body : List Byte) : Nat :=
  let v := ofLe body
  let x := d.tlyParams
  let en := d.enabledProgs.length
  match kind with
  | 0x01 => if v < d.tly.count then Inb.ok else Inb.badValue
  | 0x02 => Inb.ok
  | 0x10 =>
    let l := cfgLoud v
    let s := cfgSvc v
    let t := cfgTie v
    if l < 10 ∨ 3600 < l ∨ s < 60 ∨ t < 10 ∨ 3600 < t then Inb.badValue
    else if rateHigh en l s t then Inb.rate else Inb.ok
  | 0x11 =>
    let p := v % 256
    let slot := v / 2 ^ 32
    let others := ((List.range 256).filter (· ≠ p)).map fun k => (progChans (x.prog k)).length
    let n := en - bit (progEn (x.prog p)) + bit (progEn slot)
    if bits v 8 24 ≠ 0 ∨ progOk slot = false ∨ 4096 < others.sum + (progChans slot).length then Inb.badValue
    else if rateHigh n (cfgLoud x.cfg) (cfgSvc x.cfg) (cfgTie x.cfg) then Inb.rate else Inb.ok
  | 0x12 => if ofBe body = (Config.sha384 d.tlyKey).toNat then Inb.ok else Inb.badValue
  | 0x14 => if bits v 8 24 = 0 then Inb.ok else Inb.badValue
  | _ => Inb.ok

/-- The checks of a message in order. -/
def Dev.inbCheck (d : Dev) (m : List Byte) : Nat :=
  match inbShape (inbKind m) with
  | none => Inb.badFormat
  | some (signed, len) =>
    let kind := inbKind m
    let full := 32 + len + (if signed then 192 else 0)
    let pub := (m.drop (32 + len)).take 96
    if m.length ≠ full ∨ 512 < m.length ∨ ofBe (m.take 4) ≠ 0x544C5943 ∨ (m.getD 4 0).toNat ≠ 1 ∨ ofBe ((m.drop 6).take 2) ≠ len then
      Inb.badFormat
    else if ofBe ((m.drop 8).take 16) ≠ d.otp 0 128 then Inb.wrongDevice
    else if signed = true ∧ d.tallyAuth = 0 then Inb.notProvisioned
    else if signed = true ∧ (Config.sha384 pub).toNat ≠ d.tallyAuth then Inb.badKey
    else if signed = true ∧ Config.ecdsaP384 (BitVec.ofNat 768 (ofBe pub)) (m.take (32 + len))
        (BitVec.ofNat 768 (ofBe (m.drop (128 + len)))) = false then Inb.badSignature
    else if signed = true ∧ ofBe ((m.drop 24).take 8) ≤ d.tly.params.cmdSeq then Inb.replay
    else if signed = true ∧ sealAllows kind d.tlySeal = false then Inb.sealed_
    else d.inbValues kind ((m.drop 32).take len)

/-- The parameters after an accepted signed command. -/
def TlyParams.apply (x : TlyParams) (kind seq : Nat) (body : List Byte) : TlyParams :=
  let v := ofLe body
  let x := { x with cmdSeq := seq, audit := x.audit + 1 }
  match kind with
  | 0x10 => { x with cfg := v % 2 ^ 48 + bits v 64 32 * 2 ^ 64 }
  | 0x11 => { x with progs := tset progDefault x.progs (v % 256) (bits v 32 577 + bits v 672 256 * 2 ^ 640) }
  | 0x12 => { x with sealed := true }
  | 0x13 => { x with sealed := false }
  | _ => x

/-- Periods whose length a CONFIG changes close under the parameters before it. -/
def Dev.cfgCloses (d : Dev) (v : Nat) : Dev :=
  let c := d.tlyParams.cfg
  let go := decide (d.tly.aligned = true)
  let d := if go = true ∧ d.tly.loudP ≠ 0 ∧ cfgLoud c ≠ cfgLoud v then d.closeLoud else d
  let d := if go = true ∧ d.tly.svcP ≠ 0 ∧ cfgSvc c ≠ cfgSvc v then d.closeSvc else d
  if go = true ∧ d.tly.tieP ≠ 0 ∧ cfgTie c ≠ cfgTie v then d.closeTie else d

/-- An accepted signed command: one update of the parameter block, its AUDIT record. -/
def Dev.inbSigned (d : Dev) (kind seq : Nat) (body : List Byte) : Dev :=
  let was := d.tlySeal
  let old := d.tlyParams.cfg
  let d := if kind = 0x10 then d.cfgCloses (ofLe body) else d
  let d := d.withTly fun y => { y with area := 1 - y.area, other := y.params, params := y.params.apply kind seq body }
  let now := d.tlySeal
  let pay := [BitVec.ofNat 8 kind, BitVec.ofNat 8 now, 0, 0] ++ leBytes 8 seq ++ leBytes 4 d.tly.params.audit ++ beBytes 48 (Config.sha384 body).toNat
  let d := (d.createRec 5 d.now pay).showParams
  let d := if now ≠ was then d.tlyRaise Ev.tlySeal now else d
  let p := (body.getD 0 0).toNat
  let c := d.tlyParams.cfg
  let reopen := fun (len : Nat → Nat) (n : Nat) => if n ≠ 0 ∧ len c ≠ len old then periodOf d.now (len c) + 1 else n
  match kind with
  | 0x10 => d.withTly fun y => { y with loudP := reopen cfgLoud y.loudP, svcP := reopen cfgSvc y.svcP, tieP := reopen cfgTie y.tieP }
  | 0x11 => (d.startProg p false).showProg p
  | 0x14 => d.setTlyRun p { d.tlyRun p with blocks := [], shorts := [] }
  | _ => d

/-- The message at the head of the inbox, if its kind is among those the command takes. -/
def inboxTake (mine : Nat → Bool) (d : Dev) : Dev :=
  match d.tly.inbox with
  | [] => d
  | m :: rest =>
    let kind := inbKind m
    if mine kind = false ∨ d.tlyRuns = false then d
    else
      let d := d.withTly fun y => { y with inbox := rest }
      let r := d.inbCheck m
      let d := (d.wr R.TLY_AUTH_result [] r).wr R.TLY_AUTH_kind [] kind
      if r ≠ 0 then d.tlyCount 3
      else
        let len := ((inbShape kind).map fun x => x.2).getD 0
        let body := (m.drop 32).take len
        match kind with
        | 0x01 => d.wr R.TLY_RING_ack_seq [] (max (d.rd R.TLY_RING_ack_seq) (ofLe body))
        | 0x02 => (d.wr R.TLY_REPLAY_base [] (ofLe body)).showReplay
        | _ => d.inbSigned kind (ofBe ((m.drop 24).take 8)) body

/-! ### The commands -/

/-- TALLY_START. -/
def execTallyStart (romOk : Bool) (s : State) : Host.Outcome State Fault Refusal := runAlways s (tallyStart romOk)

/-- ROM_CHECK. -/
def execRomCheck (ok : Bool) (s : State) : Host.Outcome State Fault Refusal := runAlways s (romCheck ok)

/-- REPLICA_ALIGNED. -/
def execReplicaAligned (s : State) : Host.Outcome State Fault Refusal := runAlways s replicaAligned

/-- AUDIO_TAP. -/
def execAudioTap (q : Fin 2) (s : State) : Host.Outcome State Fault Refusal := runAlways s (audioTap q)

/-- ACCT_TAP. -/
def execAcctTap (s : State) : Host.Outcome State Fault Refusal := runAlways s acctTap

/-- PPS_TAP. -/
def execPpsTap (s : State) : Host.Outcome State Fault Refusal := runAlways s ppsTap

/-- ACK. -/
def execAck (s : State) : Host.Outcome State Fault Refusal := runAlways s (inboxTake fun k => k == 0x01)

/-- REPLAY. -/
def execReplay (s : State) : Host.Outcome State Fault Refusal := runAlways s (inboxTake fun k => k == 0x02)

/-- CONFIG. -/
def execConfig (s : State) : Host.Outcome State Fault Refusal := runAlways s (inboxTake fun k => k == 0x10)

/-- PROG. -/
def execProg (s : State) : Host.Outcome State Fault Refusal := runAlways s (inboxTake fun k => k == 0x11)

/-- SEAL. -/
def execSeal (s : State) : Host.Outcome State Fault Refusal := runAlways s (inboxTake fun k => k == 0x12)

/-- UNSEAL. -/
def execUnseal (s : State) : Host.Outcome State Fault Refusal := runAlways s (inboxTake fun k => k == 0x13)

/-- RESTART_PROG. -/
def execRestartProg (s : State) : Host.Outcome State Fault Refusal := runAlways s (inboxTake fun k => k == 0x14)

/-- INBOX_BAD_KIND. -/
def execInboxBadKind (s : State) : Host.Outcome State Fault Refusal := runAlways s (inboxTake fun k => (inbShape k).isNone)

/-- LOUDNESS_BLOCK. -/
def execLoudnessBlock (p : Fin 256) (s : State) : Host.Outcome State Fault Refusal := runAlways s (loudnessBlock p)

/-- LOUDNESS_RECORD. -/
def execLoudnessRecord (s : State) : Host.Outcome State Fault Refusal := runAlways s loudnessRecord

/-- SERVICE_RECORD. -/
def execServiceRecord (s : State) : Host.Outcome State Fault Refusal := runAlways s serviceRecord

/-- TIE_RECORD. -/
def execTieRecord (s : State) : Host.Outcome State Fault Refusal := runAlways s tieRecord

/-- RECORD_COMMIT. -/
def execRecordCommit (s : State) : Host.Outcome State Fault Refusal := runAlways s recordCommit

/-- TALLY_POWER_LOSS. -/
def execTallyPowerLoss (s : State) : Host.Outcome State Fault Refusal := runAlways s tallyPowerLoss

end Sys2Proof.Machine
end

