-- ==== Sys2Proof/Machine/Time.lean ====
section
/-! DEFINITION. Chapter 02: Reckoning time, the servo, PTP, sync inputs and outputs, calibration. -/

namespace Sys2Proof.Machine

/-- The timebase changed. -/
def Dev.withTim (d : Dev) (f : TimSt → TimSt) : Dev := { d with tim := f d.tim }

/-! ### Markers and steps -/

/-- Units of 2^-48 ns in a bead. -/
def unitsPerBead : Nat := 4294967296

/-- The step requests applied in order to the time the master would hold, in beads; the servo's step
last; the limits of R53 once (R588). -/
def applySteps (reqs : List StepReq) (servo : Option Int) (beads : Nat) : Nat :=
  let v := reqs.foldl (fun (a : Int) r => match r with
    | .set raw => (rawToBeads raw : Int)
    | .step ofs => a + ofs) (beads : Int)
  let v := v + servo.getD 0
  if v < 0 then 0 else v.toNat % beadWrap

/-- A replica at a marker: it has counted 256 tree cycles with its increment, and loads the marker time
plus its delay by a jump at a step or when unaligned, by a slew of at most 256 beads otherwise. -/
def Replica.atMarker (r : Replica) (time : Nat) (incr : Int) (step : Bool) : Replica :=
  let here := r.value + 256 * r.incr
  let target : Int := time + r.delay * unitsPerBead
  if step || !r.aligned then { r with value := target, incr := incr, aligned := true }
  else { r with
    value := here + clampInt (-(256 * unitsPerBead : Int)) (256 * unitsPerBead) (target - here)
    incr := incr }

/-- Where an output seeks its next edge after a step from `pre` to `post` (R78): past the end of the
pulse in progress, in the new time. -/
def seekAfterStep (high pre post : Nat) : Nat := post + (high - pre)

/-- Every sync output goes on after a step (R78). -/
def Dev.stepOutputs (d : Dev) (pre post : Nat) : Dev :=
  d.withTim fun t =>
    let go := fun (t : TimSt) (n : Nat) =>
      let h := seekAfterStep (tget 0 t.soutHigh n) pre post
      { t with soutFrom := tset 0 t.soutFrom n h
               soutHigh := tset 0 t.soutHigh n h }
    (List.range 8).foldl go t

/-- The marker edge: 256 cycles of the timebase clock have passed; pending steps form one step, the rate
correction written last takes effect, the replicas load the marker word (R45, R53, R55, R588). -/
def Dev.marker (d : Dev) : Dev :=
  let held := d.tim.now + 256 * (281474976710656 + d.tim.rate).toNat
  let steps := !d.tim.stepReqs.isEmpty || d.tim.servoStep.isSome
  let pre := held / unitsPerBead
  let post := applySteps d.tim.stepReqs d.tim.servoStep pre
  let time := if steps then post * unitsPerBead else held % (beadWrap * unitsPerBead)
  let rate := d.rdS R.TIM_FREQ_ADJ_adj
  let d := d.withTim fun t => { t with
    now := time
    mono := t.mono + 1
    rate := rate
    stepReqs := []
    servoStep := none
    replicas := t.replicas.map fun r => r.atMarker time (281474976710656 + rate) steps }
  if steps then
    let d := (d.bumpWrap R.TIM_STATUS_step_count []).stepOutputs pre post
    d.raiseAt Ev.timeStep (d.rd R.TIM_STATUS_step_count % 32768) (beadsToRaw post)
      (some (beadsToRaw pre))
  else d

/-- A write of TIM_SET.go: the value is loaded at the next marker (R588). -/
def timSetGo (d : Dev) : Dev :=
  d.withTim fun t => { t with stepReqs := t.stepReqs ++ [.set (d.rd R.TIM_SET_value)] }

/-- A write of TIM_STEP: an offset in beads for the next marker (R588). -/
def timStep (ofs : Int) (d : Dev) : Dev :=
  d.withTim fun t => { t with stepReqs := t.stepReqs ++ [.step ofs] }

/-- TIM_SERVO_CFG.src as it acts: 3 acts as none. -/
def Dev.servoSrc (d : Dev) : Nat :=
  if d.rd R.TIM_SERVO_CFG_src = 3 then 0 else d.rd R.TIM_SERVO_CFG_src

/-- A write of TIM_FREQ_ADJ.adj: status and device (R70, R45, R13). -/
def writeFreqAdj (q : Req) (v : Nat) (d : Dev) : Dev × Nat :=
  if d.locked q then (d, Sts.locked)
  else if d.servoSrc ≠ 0 then (d, Sts.busy)
  else (d.wr R.TIM_FREQ_ADJ_adj [] v, Sts.ok)

/-! ### The servo -/

/-- The mean of the corrections over the last avg_s seconds of LOCKED, or over all of it (R69). -/
def Dev.holdoverRate (d : Dev) : Int :=
  let span := d.rd R.TIM_HOLD_CFG_avg_s * beadsPerSec
  let l := (d.tim.corr.filter fun c => decide (d.clock ≤ c.1 + span)).map (·.2)
  if l.isEmpty then d.rdS R.TIM_FREQ_ADJ_adj else l.sum / (l.length : Int)

/-- The servo enters a state: the change is raised, the samples start again from zero, leaving LOCKED
fixes the time counted for clockClass, entering HOLDOVER the rate (R62, R65, R69). -/
def Dev.servoEnter (d : Dev) (new : Nat) : Dev :=
  let old := d.rd R.TIM_STATUS_servo
  if new = old then d else
  let d := if new = 3 then d.wrS R.TIM_FREQ_ADJ_adj [] d.holdoverRate else d
  let d := d.withTim fun t => { t with
    lockRun := 0
    unlockRun := 0
    everLocked := t.everLocked || new == 2
    leftLocked := if old = 2 then d.clock else t.leftLocked
    specDone := if old = 2 then false else t.specDone
    corr := if new = 2 then [] else t.corr }
  ((d.wr R.TIM_STATUS_servo [] new).wr R.TIM_SERVO_STAT_samples [] 0).raise Ev.servoState new

/-- The source is lost (Table 02-2, R68). -/
def Dev.servoLost (d : Dev) : Dev :=
  match d.rd R.TIM_STATUS_servo with
  | 1 => d.servoEnter 0
  | 2 => d.servoEnter 3
  | _ => d

/-- A write of TIM_SERVO_CFG.src: the present source is deselected by 0, 3 or the other source, and the
source named is selected (R66). -/
def writeServoSrc (q : Req) (v : Nat) (d : Dev) : Dev × Nat :=
  if d.locked q then (d, Sts.locked) else
  let old := d.servoSrc
  let d := d.wr R.TIM_SERVO_CFG_src [] v
  let d := if old ≠ 0 ∧ d.servoSrc ≠ old then d.servoEnter 0 else d
  let d := if d.servoSrc ≠ 0 ∧ d.rd R.TIM_STATUS_servo = 0 then d.servoEnter 1 else d
  (d, Sts.ok)

/-- The rate correction after a sample, within slew_ppm (at most 122 ppm) and the range of R45. One ppm
is 2^48 / 10^6 units. -/
def Dev.servoRate (d : Dev) (ofs : Int) : Int :=
  let ppm := min (d.rd R.TIM_SERVO_CFG_slew_ppm) 122
  let lim : Int := (ppm * 281474976710656 / 1000000 : Nat)
  let v := Config.servoOutput ofs (d.rdS R.TIM_FREQ_ADJ_adj) (d.rd R.TIM_SERVO_KP_gain)
    (d.rd R.TIM_SERVO_KI_gain)
  satSigned 36 (clampInt (-lim) lim v)

/-- A gain halved towards 1/16 of its LOCKED value, or doubled up to it (R503). -/
def halveGain (base v : Nat) : Nat := max (v / 2) (base / 16)
def doubleGain (base v : Nat) : Nat := min (v * 2) base

/-- The Delay_Req interval moved by one at each halving or doubling, within its limits, on the ports in
SLAVE (R503). -/
def Dev.moveDreq (d : Dev) (by_ : Int) : Dev :=
  let lo := max (-7) (toSigned 4 (d.rd R.HRD_SERVO_dreq_min_log))
  let hi := min 5 (toSigned 4 (d.rd R.HRD_SERVO_dreq_max_log))
  [0, 1].foldl (fun d p =>
    if d.rd R.TIM_PTP_STAT_state [p] = 9 then
      d.wrS R.TIM_PTP_CFG_dreq_log [p] (clampInt lo hi (d.rdS R.TIM_PTP_CFG_dreq_log [p] + by_))
    else d) d

/-- The gains and the step of dreq_log that the Herdsman's schedule gives after a sample (Table 15-6). `old` is the
servo state before the sample. -/
def Dev.gainPlan (d : Dev) (old : Nat) : Nat × Nat × Int :=
  let kp := d.rd R.TIM_SERVO_KP_gain
  let ki := d.rd R.TIM_SERVO_KI_gain
  let pdv := d.rd R.HRD_SERVO_pdv_ns
  match d.rd R.TIM_STATUS_servo with
  | 1 => (0x8000, 0x1000, 0)
  | 2 =>
    if old ≠ 2 then (0x4000, 0x400, 0)
    else if pdv > d.rd R.HRD_SERVO_pdv_hi_ns then
      (if kp > 0x400 then (halveGain 0x4000 kp, halveGain 0x400 ki, -1) else (kp, ki, 0))
    else if pdv < d.rd R.HRD_SERVO_pdv_lo_ns then
      (if kp < 0x4000 then (doubleGain 0x4000 kp, doubleGain 0x400 ki, 1) else (kp, ki, 0))
    else (kp, ki, 0)
  | _ => (kp, ki, 0)

/-- The gain schedule acts, unless its loop is pinned (R503, R492). -/
def Dev.gainSchedule (d : Dev) (old : Nat) : Dev :=
  let (kp, ki, m) := d.gainPlan old
  if d.hrdRuns = false ∨ (kp = d.rd R.TIM_SERVO_KP_gain ∧ ki = d.rd R.TIM_SERVO_KI_gain) then d
  else if d.loopPinned 4 then d.hrdCount 11
  else
    let d := ((d.wr R.TIM_SERVO_KP_gain [] kp).wr R.TIM_SERVO_KI_gain [] ki).hrdCount 9
    if m = 0 then d else d.moveDreq m

/-- The servo takes a phase sample of `ofs` beads (R65, R67). -/
def Dev.servoTake (d : Dev) (ofs : Int) : Dev :=
  let was := d.rd R.TIM_STATUS_servo
  let d := if was = 3 then d.servoEnter 1 else d
  let lock : Int := d.rd R.TIM_SERVO_CFG_lock_ns * 65536
  let mag : Int := ofs.natAbs
  let d := (d.wrS R.TIM_SERVO_STAT_offset [] (satSigned 48 ofs)).bump R.TIM_SERVO_STAT_samples []
  let rate := d.servoRate ofs
  let d := d.wrS R.TIM_FREQ_ADJ_adj [] rate
  let d :=
    if d.rd R.TIM_STATUS_servo = 1 then
      let d := if mag > d.rd R.TIM_SERVO_CFG_step_ns * 65536
        then d.withTim fun t => { t with servoStep := some (-ofs) } else d
      let n := if mag ≤ lock then d.tim.lockRun + 1 else 0
      let d := d.withTim fun t => { t with lockRun := n }
      if n ≥ 16 then d.servoEnter 2 else d
    else
      let n := if mag > 8 * lock then d.tim.unlockRun + 1 else 0
      let d := d.withTim fun t => { t with unlockRun := n, corr := (d.clock, rate) :: t.corr }
      if n ≥ 4 then d.servoEnter 1 else d
  d.gainSchedule was

/-- The servo takes a sample: from PTP, the offset the Herdsman computed; from SYNC_IN0, the phase of the
last accepted edge (R72). -/
def servoSample (ofs : Int) (d : Dev) : Dev :=
  if d.rd R.TIM_STATUS_servo = 0 then d
  else if d.servoSrc = 1 then d.servoTake ofs
  else match d.tim.ppsSample with
    | some p => (d.withTim fun t => { t with ppsSample := none }).servoTake p
    | none => d

/-- The clockClass advertised (R62). -/
def Dev.clockClass (d : Dev) : Nat :=
  let within := decide (d.clock ≤ d.tim.leftLocked + d.rd R.TIM_HOLD_CFG_spec_s * beadsPerSec)
  match d.rd R.TIM_STATUS_servo with
  | 2 => if d.servoSrc = 2 then 6 else d.tim.masterClass
  | 0 => 248
  | _ => if d.tim.everLocked then (if within then 7 else 187) else 248

/-- clockClass moves from 7 to 187 once spec_s has passed (R62). -/
def holdoverSpec (d : Dev) : Dev :=
  if (d.rd R.TIM_STATUS_servo = 3 ∨ d.rd R.TIM_STATUS_servo = 1) ∧ d.clockClass = 187 ∧
      d.tim.specDone = false then
    (d.withTim fun t => { t with specDone := true }).raise Ev.holdoverSpec 0
  else d

/-! ### PTP -/

/-- A signed log2 interval in seconds, in beads. -/
def logSeconds (log : Int) : Nat :=
  if log < 0 then beadsPerSec / 2 ^ log.natAbs else beadsPerSec * 2 ^ log.toNat

/-- The port states the role of TIM_CLK_CFG allows (R59): grandmaster-only holds both ports in MASTER; a
slave-only clock never enters MASTER. -/
def Dev.ptpRole (d : Dev) (st : Nat) : Nat :=
  match d.rd R.TIM_CLK_CFG_role with
  | 1 => 6
  | 3 => if d.flag R.TIM_CLK_CFG_slave_only ∧ st = 6 then 4 else st
  | _ => st

/-- A PTP port enters a state; a change is raised (PTP_STATE). State 0 stands for no change. -/
def Dev.ptpEnter (d : Dev) (p st : Nat) : Dev :=
  let st := d.ptpRole st
  if st = 0 ∨ st = d.rd R.TIM_PTP_STAT_state [p] then d
  else (d.wr R.TIM_PTP_STAT_state [p] st).raise (Ev.ptpState + p) st

/-- The PTP port `p` is enabled and carried on sub-port `sp`; an ordinary clock has one (R59). -/
def Dev.ptpOn (d : Dev) (p sp : Nat) : Bool :=
  d.flag R.TIM_PTP_CFG_en [p] && d.rd R.TIM_PTP_CFG_subport [p] == sp &&
    (d.rd R.TIM_CLK_CFG_role != 3 || d.rd R.TIM_CLK_CFG_oc_port == p)

/-- The PTP message types of Table 02-1; Management only with the SMPTE metadata TLV. -/
def ptpSupported (type : Nat) (tlv : Option Nat) : Bool :=
  type ∈ [0, 1, 8, 9, 11] || (type == 13 && tlv.isSome)

/-- A PTP message arrives on sub-port `sp` of port `p` (R60, R63, R68): unsupported types and other
domains are counted and dropped; the rest go to the port's PTP queue, and the Herdsman's protocol engine
moves the port as its best-master algorithm decides (`st`, 0 for no change; `chg`, another master). -/
def ptpMessage (p sp type domain len cls : Nat) (tlv : Option Nat) (st : Nat) (chg : Bool)
    (d : Dev) : Dev :=
  if d.ptpOn p sp = false then d
  else if ptpSupported type tlv = false ∨ domain ≠ d.rd R.TIM_PTP_CFG_domain [p] then
    d.bump R.TIM_PTP_STAT_ignored [p]
  else if tget 0 d.tim.ptpQ p + len > 65536 then d
  else
    let d := d.withTim fun t => { t with
      ptpQ := tset 0 t.ptpQ p (tget 0 t.ptpQ p + len)
      lastSync := if type = 0 then tset 0 t.lastSync p d.clock else t.lastSync
      masterClass := if type = 11 ∧ d.rd R.TIM_PTP_STAT_state [p] = 9 then cls else t.masterClass }
    let d := match tlv with
      | some v => if type = 13 ∧ d.rd R.TIM_PTP_STAT_state [p] = 9 then d.wr R.TIM_SMPTE_TLV_tlv [] v else d
      | none => d
    let d := d.ptpEnter p st
    let d := if chg then d.raise Ev.ptpMaster p else d
    d.withTim fun t => { t with ptpQ := tset 0 t.ptpQ p (tget 0 t.ptpQ p - len) }

/-- No Sync for announceReceiptTimeout Announce intervals: the PTP source is lost (R68). The port leaves
SLAVE for the state the best-master algorithm chooses. -/
def announceTimeout (p st : Nat) (d : Dev) : Dev :=
  let n := min 10 (max 2 (d.rd R.TIM_PTP_CFG_ann_tmo [p]))
  let wait := n * logSeconds (clampInt (-3) 1 (d.rdS R.TIM_PTP_CFG_ann_log [p]))
  if d.rd R.TIM_PTP_STAT_state [p] = 9 ∧ d.passed (tget 0 d.tim.lastSync p + wait) = true then
    let d := d.ptpEnter p st
    if d.servoSrc = 1 then d.servoLost else d
  else d

/-- Two expected seconds without an accepted edge: the SYNC_IN0 source is lost (R68). -/
def ppsLost (d : Dev) : Dev :=
  if d.servoSrc = 2 ∧ d.passed (d.tim.lastPps + 2 * beadsPerSec) = true then d.servoLost else d

/-- A master port sends Sync: one-step with the egress timestamp in it, or two-step with the timestamp in
the Follow_Up (R61). `fine` is the egress grid step after the last marker. -/
def ptpSyncTx (p fine : Nat) (d : Dev) : Dev :=
  if d.flag R.TIM_PTP_CFG_en [p] ∧ d.rd R.TIM_PTP_STAT_state [p] = 6 then
    let ts := beadsToRaw ((d.stampAt fine : Int) + d.rdS R.TIM_PDLY_TX_dly [p]).toNat
    if d.flag R.TIM_PTP_CFG_one_step [p] then d.emit (.ptp p 0 [ts])
    else (d.emit (.ptp p 0 [])).emit (.ptp p 8 [ts])
  else d

/-- A grandmaster port sends the SMPTE metadata TLV (R63). -/
def smpteTx (p : Nat) (d : Dev) : Dev :=
  if d.flag R.TIM_PTP_CFG_en [p] ∧ d.rd R.TIM_PTP_STAT_state [p] = 6 then
    d.emit (.ptp p 13 [d.rd R.TIM_SMPTE_TLV_tlv])
  else d

/-- A master port sends Announce (R62, R64). -/
def announceTx (p : Nat) (d : Dev) : Dev :=
  if d.flag R.TIM_PTP_CFG_en [p] ∧ d.rd R.TIM_PTP_STAT_state [p] = 6 then
    d.emit (.ptp p 11 [d.clockClass, d.rd R.TIM_PTP_GM_utc_ofs, d.rd R.TIM_PTP_GM_leap59,
      d.rd R.TIM_PTP_GM_leap61, d.rd R.TIM_PTP_CFG_prio1 [p], d.rd R.TIM_PTP_CFG_prio2 [p],
      d.rd R.TIM_PTP_CFG_domain [p]])
  else d

/-- A slave port sends Delay_Req, multicast or to the master (Table 02-1). -/
def delayReqTx (p : Nat) (d : Dev) : Dev :=
  if d.flag R.TIM_PTP_CFG_en [p] ∧ (d.rd R.TIM_PTP_STAT_state [p] = 9 ∨
      d.rd R.TIM_PTP_STAT_state [p] = 8) then
    d.emit (.ptp p 1 [d.rd R.TIM_PTP_CFG_dreq_ucast [p], d.rd R.TIM_PTP_CFG_domain [p]])
  else d

/-! ### Sync inputs -/

/-- An edge on sync input `n`, `fine` grid steps after the last marker (R71, R72). -/
def syncInEdge (n fine : Nat) (rise : Bool) (d : Dev) : Dev :=
  let fall := d.flag R.TIM_SIN_CFG_fall [n]
  if d.rd R.TIM_SIN_CFG_mode [n] = 0 ∨ rise = fall then d else
  let stamp : Int := (d.stampAt fine : Int) - d.rdS R.TIM_SIN_DLY_dly [n]
  let fifo := tget [] d.tim.sinFifo n
  let d := if n = 0 then d.tapPps (beadsToRaw (stamp.toNat % beadWrap)) else d
  let d :=
    if fifo.length < 4 then
      (d.withTim fun t => { t with
        sinFifo := tset [] t.sinFifo n (fifo ++ [beadsToRaw (stamp.toNat % beadWrap)]) }).raise
        (Ev.syncIn + n) (fifo.length + 1)
    else (d.bump R.TIM_SIN_CFG_ovf [n]).raise Ev.syncInOvf n
  let d := d.fireWake (n + 1) 0
  if n = 0 ∧ d.rd R.TIM_SIN_CFG_mode [0] = 2 then
    let tod := d.rd R.TIM_SIN0_TOD_sec
    let ofs := stamp - (tod * beadsPerSec : Nat)
    if d.rd R.TIM_STATUS_servo = 2 ∧ d.servoSrc = 2 ∧ ofs.natAbs > 100000 * 65536 then
      let d := d.bump R.TIM_SIN_CFG_rej [0]
      d.raise Ev.ppsReject (d.rd R.TIM_SIN_CFG_rej [0])
    else
      (d.wr R.TIM_SIN0_TOD_sec [] (tod + 1)).withTim fun t => { t with
        ppsSample := some ofs
        lastPps := d.clock }
  else d

/-- The oldest captured edge of input `n`: its time and 1, or 0 and 0 (R71). -/
def Dev.sinHead (d : Dev) (n : Nat) : Nat × Nat :=
  match tget [] d.tim.sinFifo n with
  | [] => (0, 0)
  | t :: _ => (t, 1)

/-- The oldest captured edge removed. -/
def Dev.sinPop (d : Dev) (n : Nat) : Dev :=
  d.withTim fun t => { t with sinFifo := tset [] t.sinFifo n (tget [] t.sinFifo n).tail }

/-! ### Sync outputs -/

/-- The shadow settings of output `n`, as the registers hold them (R77). -/
def Dev.soutShadow (d : Dev) (n : Nat) : SyncSet :=
  { mode := d.rd R.TIM_SOUT_CFG_mode [n], inv := d.rd R.TIM_SOUT_CFG_inv [n],
    num := d.rd R.TIM_SOUT_NUM_val [n], den := d.rd R.TIM_SOUT_DEN_val [n],
    width := d.rd R.TIM_SOUT_WIDTH_ns [n], phase := d.rdS R.TIM_SOUT_PHASE_ofs [n],
    dly := d.rdS R.TIM_SOUT_CFG_dly [n] }

/-- Valid parameters (R76); in FIELD the limits are those of half the period. -/
def SyncSet.valid (c : SyncSet) : Bool :=
  c.den != 0 &&
  match c.mode with
  | 1 => decide (8 * c.den ≤ c.num * 1000000000) && decide (2 ≤ c.width) &&
      decide (c.width * c.den < c.num * 1000000000)
  | 2 => decide (16 * c.den ≤ c.num * 1000000000) && decide (2 ≤ c.width) &&
      decide (2 * c.width * c.den < c.num * 1000000000)
  | _ => true

/-- Edges in a period: one in PERIODIC, two in FIELD (R75). -/
def SyncSet.edges (c : SyncSet) : Nat := if c.mode = 2 then 2 else 1

/-- The ideal time of edge `k`, as a numerator in beads over den × edges (R74, R75). -/
def SyncSet.ideal (c : SyncSet) (k : Int) : Int :=
  k * (c.num * beadsPerSec : Nat) + (c.phase - c.dly) * (c.den * c.edges : Nat)

/-- The first edge at or after `from_` beads. -/
def SyncSet.firstEdge (c : SyncSet) (from_ : Nat) : Int :=
  ceilDiv ((from_ : Int) * (c.den * c.edges : Nat) - c.ideal 0) (c.num * beadsPerSec)

/-- The grid point nearest an ideal time, a tie later (R74). -/
def SyncSet.grid (c : SyncSet) (k : Int) : Int :=
  (2 * c.ideal k + (2048 * (c.den * c.edges) : Nat)) / (4096 * (c.den * c.edges) : Nat) * 2048

/-- Output `n` produces its next edge, once Reckoning time has reached it (R74, R75, R78). -/
def syncOutEdge (n : Nat) (d : Dev) : Dev :=
  let c := tget {} d.tim.sout n
  if (c.mode = 1 ∨ c.mode = 2) ∧ c.den ≠ 0 ∧ c.num ≠ 0 then
    let k := c.firstEdge (tget 0 d.tim.soutFrom n)
    let at_ := (c.grid k).toNat
    if d.reached at_ then
      let w := if c.mode = 2 ∧ k % 2 = 1 then c.width / 2 else c.width
      let next := (c.ideal k / (c.den * c.edges : Nat)).toNat + 1
      (d.withTim fun t => { t with
        soutFrom := tset 0 t.soutFrom n (max next (at_ + w * 65536))
        soutHigh := tset 0 t.soutHigh n (at_ + w * 65536) }).emit
        (.syncEdge n at_ w (c.inv == 1))
    else d
  else d

/-- A write of TIM_SOUT_CFG.commit: the shadow applies at the next whole second (R77). -/
def soutCommit (n : Nat) (d : Dev) : Dev :=
  d.withTim fun t => { t with soutCommit := tset 0 t.soutCommit n (d.now / beadsPerSec + 2) }

/-- The whole second of a requested commit is reached: the shadow is copied, or refused (R76, R77). -/
def soutApply (n : Nat) (d : Dev) : Dev :=
  let c := tget 0 d.tim.soutCommit n
  if c ≠ 0 ∧ d.reached ((c - 1) * beadsPerSec) = true then
    let d := d.withTim fun t => { t with soutCommit := tset 0 t.soutCommit n 0 }
    let new := d.soutShadow n
    if new.valid then
      d.withTim fun t => { t with
        sout := tset {} t.sout n new
        soutFrom := tset 0 t.soutFrom n (max ((c - 1) * beadsPerSec) (tget 0 t.soutHigh n)) }
    else (d.wr R.TIM_SOUT_CFG_bad [n] 1).raise Ev.soutRefused n
  else d

/-! ### Calibration (Table 02-4) -/

/-- The timebase PLL locks: replicas load marker words with uncalibrated delays (step 2). -/
def pllLock (d : Dev) : Dev :=
  if d.tim.calStep = 0 then
    d.withTim fun t => { t with
      calStep := 2
      replicas := t.replicas.map fun r => { r with
        value := t.now, incr := 281474976710656 + t.rate, aligned := true } }
  else d

/-- The delay of island `i` from the sum over 16 probes of (round trip − fused echo time), beads: half
the mean plus the fused asymmetry (step 3). -/
def probeDelay (i : Nat) (sum16 : Int) : Int := sum16 / 32 + Config.treeAsymmetry i

/-- The replicas with the delays measured; `jump` makes them load by a step at the next marker. -/
def setDelays (l : List Replica) (sums : List Int) (i : Nat) (jump : Bool) : List Replica :=
  match l, sums with
  | r :: l, s :: sums =>
    { r with delay := probeDelay i s, aligned := r.aligned && !jump } :: setDelays l sums (i + 1) jump
  | l, _ => l

/-- TIM_REPL_ERR of every island written from a run's errors. -/
def Dev.writeReplErr (d : Dev) (errs : List Int) (i : Nat) : Dev :=
  match errs with
  | [] => d
  | e :: r => (if i < 112 then d.wrS R.TIM_REPL_ERR_err [i] e else d).writeReplErr r (i + 1)

/-- A calibration run ends: counted, and CAL_DONE raised. -/
def Dev.calRunEnds (d : Dev) : Dev :=
  let d := d.bumpWrap R.TIM_CAL_STAT_runs []
  d.raise Ev.calDone (d.rd R.TIM_CAL_STAT_runs % 65536)

/-- Time tree calibration ends: the delays apply by a step at one marker, SYS_READY.time sets
(step 4, R79). -/
def treeCalDone (sums errs : List Int) (d : Dev) : Dev :=
  if d.tim.calStep = 2 ∧ (d.rd R.PWR_STAT_state ≠ 3 ∨ d.flag R.PWR_STAT_exiting = true) then
    let d := d.withTim fun t => { t with calStep := 4, replicas := setDelays t.replicas sums 0 true }
    let d := (d.writeReplErr errs 0).calRunEnds
    (d.wr R.TIM_STATUS_cal_done [] 1).setReady 4 1
  else d

/-- REPLICA_ALIGN for every island whose error exceeds 125 ps, 8,192 beads (R80). -/
def Dev.alignAlarms (d : Dev) (errs : List Int) (i : Nat) : Dev :=
  match errs with
  | [] => d
  | e :: r =>
    let d := if i < 112 ∧ e.natAbs > 8192 then
        ((d.wr R.TIM_CAL_STAT_island [] i).wr R.TIM_CAL_STAT_alarm [] 1).raise Ev.replicaAlign i
      else d
    d.alignAlarms r (i + 1)

/-- A background run: new delays by slew, errors written, alarms (step 6, R80). A periodic run needs period_s, a
temperature run the trigger, a repeat the firmware (R504). -/
def backgroundCal (temp : Bool) (sums errs : List Int) (d : Dev) : Dev :=
  let again := d.hrd.again
  if d.tim.calStep = 4 ∧ (temp = true ∨ again = true ∨ d.rd R.TIM_CAL_CFG_period_s ≠ 0) then
    let d := d.withTim fun t => { t with replicas := setDelays t.replicas sums 0 false }
    let d := ((d.writeReplErr errs 0).calRunEnds).alignAlarms errs 0
    let bad := errs.take 112 |>.any fun e => decide (8192 < e.natAbs)
    let d := { d with hrd := { d.hrd with again := false, alarmed := d.hrd.alarmed || (bad && !again) } }
    if bad && again then d.hrdAlert 5 else d
  else d

/-- A sub-port's timestamp path is calibrated after its PCS lock (step 5). -/
def portTsCal (p sp : Nat) (d : Dev) : Dev :=
  if (d.rd R.PRT_STATUS_pcs_lock [p]).testBit sp then d.setBit R.TIM_PORT_STAT_ts_valid [p] sp else d

/-! ### The commands -/

/-- TIM_SET_GO. -/
def execTimSetGo (inp : Fin 101) (s : State) : Host.Outcome State Fault Refusal :=
  run s fun d => (timSetGo d).complete ⟨inp, false⟩ Sts.ok 0

/-- TIM_STEP. -/
def execTimStep (inp : Fin 101) (ofs : BitVec 64) (s : State) : Host.Outcome State Fault Refusal :=
  run s fun d => (timStep ofs.toInt d).complete ⟨inp, false⟩ Sts.ok 0

/-- TIM_FREQ_ADJ_WRITE. -/
def execTimFreqAdjWrite (inp : Fin 101) (desc : Bool) (adj : BitVec 36) (s : State) :
    Host.Outcome State Fault Refusal :=
  run s fun d => let r := writeFreqAdj ⟨inp, desc⟩ adj.toNat d; r.1.complete ⟨inp, desc⟩ r.2 0

/-- SERVO_SRC_WRITE. -/
def execServoSrcWrite (inp : Fin 101) (desc : Bool) (src : BitVec 2) (s : State) :
    Host.Outcome State Fault Refusal :=
  run s fun d => let r := writeServoSrc ⟨inp, desc⟩ src.toNat d; r.1.complete ⟨inp, desc⟩ r.2 0

/-- SERVO_SAMPLE. -/
def execServoSample (ofs : Int) (s : State) : Host.Outcome State Fault Refusal := run s (servoSample ofs)

/-- ANNOUNCE_RECEIPT_TIMEOUT. -/
def execAnnounceReceiptTimeout (p : Fin 2) (st : Fin 10) (s : State) :
    Host.Outcome State Fault Refusal := run s (announceTimeout p st)

/-- PPS_SOURCE_LOST. -/
def execPpsSourceLost (s : State) : Host.Outcome State Fault Refusal := run s ppsLost

/-- HOLDOVER_SPEC. -/
def execHoldoverSpec (s : State) : Host.Outcome State Fault Refusal := run s holdoverSpec

/-- PTP_MESSAGE_RX. -/
def execPtpMessageRx (p : Fin 2) (sp : Fin 4) (type : BitVec 4) (domain : BitVec 8) (len : Nat)
    (cls : BitVec 8) (tlv : Option (BitVec 512)) (st : Fin 10) (chg : Bool) (s : State) :
    Host.Outcome State Fault Refusal :=
  run s (ptpMessage p sp type.toNat domain.toNat len cls.toNat (tlv.map BitVec.toNat) st chg)

/-- PTP_SYNC_TX. -/
def execPtpSyncTx (p : Fin 2) (fine : Nat) (s : State) : Host.Outcome State Fault Refusal :=
  run s (ptpSyncTx p fine)

/-- SMPTE_TLV_TX. -/
def execSmpteTlvTx (p : Fin 2) (s : State) : Host.Outcome State Fault Refusal := run s (smpteTx p)

/-- ANNOUNCE_TX. -/
def execAnnounceTx (p : Fin 2) (s : State) : Host.Outcome State Fault Refusal := run s (announceTx p)

/-- DELAY_REQ_TX. -/
def execDelayReqTx (p : Fin 2) (s : State) : Host.Outcome State Fault Refusal := run s (delayReqTx p)

/-- SYNC_IN_EDGE. -/
def execSyncInEdge (n : Fin 4) (fine : Nat) (rise : Bool) (s : State) :
    Host.Outcome State Fault Refusal := run s (syncInEdge n fine rise)

/-- SIN_TS_READ: the whole register at once, the entry removed (R71). -/
def execSinTsRead (inp : Fin 101) (n : Fin 4) (s : State) : Host.Outcome State Fault Refusal :=
  run s fun d => let h := d.sinHead n
    (d.sinPop n).complete ⟨inp, false⟩ Sts.ok (h.1 + h.2 * 2 ^ 96)

/-- SYNC_OUT_EDGE. -/
def execSyncOutEdge (n : Fin 8) (s : State) : Host.Outcome State Fault Refusal := run s (syncOutEdge n)

/-- SOUT_COMMIT. -/
def execSoutCommit (inp : Fin 101) (n : Fin 8) (s : State) : Host.Outcome State Fault Refusal :=
  run s fun d => (soutCommit n d).complete ⟨inp, false⟩ Sts.ok 0

/-- SOUT_COMMIT_APPLY. -/
def execSoutCommitApply (n : Fin 8) (s : State) : Host.Outcome State Fault Refusal := run s (soutApply n)

/-- PLL_LOCK. -/
def execPllLock (s : State) : Host.Outcome State Fault Refusal := run s pllLock

/-- TIME_TREE_CAL_DONE. -/
def execTimeTreeCalDone (sums errs : List Int) (s : State) : Host.Outcome State Fault Refusal :=
  run s (treeCalDone sums errs)

/-- PORT_TS_CAL_DONE. -/
def execPortTsCalDone (p : Fin 2) (sp : Fin 4) (s : State) : Host.Outcome State Fault Refusal :=
  run s (portTsCal p sp)

/-- BACKGROUND_CAL. -/
def execBackgroundCal (temp : Bool) (sums errs : List Int) (s : State) :
    Host.Outcome State Fault Refusal := run s (backgroundCal temp sums errs)

end Sys2Proof.Machine
end

