-- ==== Sys2Proof/Machine/Power.lean ====
section
/-! DEFINITION. Chapter 14: reset and start-up, power states, wake sources. -/

namespace Sys2Proof.Machine

/-! ### Reset and start-up (R463 to R465, R541) -/

/-- The Tally's registers, which a device reset leaves (R514). -/
def tallyReg (k : Nat) : Bool := decide (0x880000 ≤ k ∧ k < 0x900000)

/-- The NV aperture, whose contents a device reset leaves. -/
def nvCell (a : Nat) : Bool := decide (0x10000000 ≤ a ∧ a < 0x30000000)

/-- Everything but OTP, the NV array and the Tally at its reset value; what was on its way to the Tally is lost. -/
def Dev.coldReset (d : Dev) : Dev :=
  let d := d.replicaLost
  { regs := d.regs.filter fun (e : Nat × Nat) => tallyReg e.1
    mem := d.mem.filter fun (c : Host.Cell) => nvCell c.1
    free := d.free, out := d.out
    nvc := { area0 := d.nvc.area0, area1 := d.nvc.area1 }
    bst := { area0 := d.bst.area0, area1 := d.bst.area1 }
    lcs := { otp := d.lcs.otp, stash := d.lcs.stash }
    tly := { d.tly with audioQ := [], acctQ := [], ppsQ := [], sent := [] } }

/-- The device enters OFF at once: FLOCK_DONE is driven low. -/
def Dev.enterOff (d : Dev) : Dev :=
  (d.setFlock true).coldReset.withPwr fun p => { p with off := true }

/-- RAIL_COLLAPSE: only VCC_AON, VCC_SRAM, VCC_CORE_IN and VCC_NV. -/
def railCollapse (n : Nat) (d : Dev) : Dev := if n = 0 ∨ n = 1 ∨ n = 2 ∨ n = 4 then d.enterOff else d

/-- RAIL_WINDOW_EXIT. -/
def railExit (n : Nat) (d : Dev) : Dev :=
  ((d.setBit R.PWR_RAIL_alarm [] n).clearBit R.PWR_RAIL_in_win [] n).raise Ev.railAlarm n

/-- SYS_UID and SYS_ID as OTP holds them. -/
def Dev.showIdentity (d : Dev) : Dev :=
  let d := d.wr R.SYS_UID_uid [] (d.otp 0 128)
  let v := d.otp 0x80 5
  if v = 0 then d else (d.wr R.SYS_ID_grade [] (v % 16)).wr R.SYS_ID_temp [] (v / 16)

/-- Power-on reset release: straps, the life-cycle check, the repairs (Table 14-3 steps 1 to 3). `cut` is the number
of steps of a resumed transition after which power is lost, if it is: the device is then in OFF. -/
def Dev.startUp (d : Dev) (mode : Nat) (bell pull : Bool) (cut : Option Nat) : Dev :=
  let d := d.coldReset
  let d := ((d.wr R.CFG_STATUS_mode [] mode).wr R.CFG_STATUS_bell [] (bit bell)).wr R.CFG_STATUS_pull [] (bit pull)
  let d := ((d.wr R.PWR_RAIL_in_win [] (ones 10)).showIdentity).emit (.flock true)
  let r := d.lcCheck cut
  if r.2 = false then r.1.enterOff
  else
    let d := r.1.withPwr fun p => { p with started := true }
    (((d.setReady 0 1).loadRepairs).setReady 1 1).publish

/-- POWER_ON_RESET_RELEASE. -/
def powerOn (mode : Nat) (bell pull : Bool) (cut : Option Nat) (d : Dev) : Dev :=
  if d.pwr.off = true ∨ d.pwr.started = false then d.startUp mode bell pull cut else d

/-- LC_RESET: the reset that follows a transition's commit (R541). -/
def lcReset (mode : Nat) (bell pull : Bool) (cut : Option Nat) (d : Dev) : Dev :=
  if d.flag R.LCS_STATE_pending then d.startUp mode bell pull cut else d

/-- The NV array is awake: at boot the Herdsman starts and the load begins (Table 14-3 step 4); in an exit the reload
does (Table 14-8). -/
def nvAwake (d : Dev) : Dev :=
  if d.flag R.SYS_READY_repair = false ∨ d.flag R.SYS_READY_nv = true then d
  else if d.rd R.PWR_STAT_state ≠ 0 then
    (if d.flag R.PWR_STAT_exiting then (d.setReady 2 1).startLoad 3 (d.rd R.CFG_STATUS_src) false else d)
  else
    let d := (d.readBootRecord.setReady 2 1).hrdStart d.fwChoice
    if d.cfgState ≠ 0 then d
    else match d.rd R.CFG_STATUS_mode with
      | 1 => d.loadFrom 1 4
      | 2 => d.loadFrom 1 5
      | _ => d.loadFrom 1 0

/-! ### Requests (R476) -/

def Dev.pwrState (d : Dev) : Nat := d.rd R.PWR_STAT_state
def Dev.entering (d : Dev) : Bool := d.flag R.PWR_STAT_entering

/-- Why a request for a low-power state is refused: a code of PWR_STAT.result, 0 for none. -/
def Dev.pwrRefusal (d : Dev) (k : Nat) : Nat :=
  let slots := fun (p : Nat → Bool) => (List.range 4).any p
  if d.entering = true ∨ d.flag R.PWR_STAT_exiting = true ∨ d.cfgState = 1 ∨ d.cfgState = 2 then 1
  else if d.rd R.CFG_STATUS_src = 3 ∨ d.rd R.CFG_STATUS_src = 4 then 2
  else if slots fun s => d.prState s == 3 || d.prState s == 5 then 3
  else if 2 ≤ k ∧ slots (fun s => let x := d.rd R.RTE_SALVO_STAT_state [s]; x == 2 || x == 3 || x == 4) = true then 4
  else if k < d.pwrState then 5
  else 0

/-- An accepted request: steps 1 and 2 of Table 14-7, step 1 alone outside RUN. -/
def Dev.startEntry (d : Dev) (k : Nat) : Dev :=
  let run := d.pwrState == 0
  let d := (d.wr R.PWR_STAT_entering [] 1).wr R.PWR_STAT_result [] 0
  let d := d.withPwr fun p => { p with target := k, stage := if run then 2 else 3, fired := [], latched := none }
  if run then (List.range 4).foldl (fun (d : Dev) s => if d.prState s = 1 then d.prEnd s 7 15 else d) d else d

/-- A write of PWR_CTL.req. -/
def writePwrCtl (inp v : Nat) (d : Dev) : Dev × Nat :=
  if inp < 97 then (d, Sts.protected_)
  else if 3 < v then (d, Sts.busy)
  else if v = 0 then
    (if d.entering = true ∨ d.pwrState ≠ 0 then d.fireWake 6 inp else d.wr R.PWR_STAT_result [] 0, Sts.ok)
  else if v = d.pwrState then (d.wr R.PWR_STAT_result [] 0, Sts.ok)
  else
    let r := d.pwrRefusal v
    if r ≠ 0 then (d.wr R.PWR_STAT_result [] r, Sts.busy) else (d.startEntry v, Sts.ok)

/-! ### Entry (R471, R477) -/

/-- Every buffer and queue of ports, route engine and media unit is flushed. -/
def Dev.flushBuffers (d : Dev) : Dev :=
  let d := (List.range 16).foldl (fun (d : Dev) k => d.freeCells (k / 8) (k % 8) 0x40000) d
  let d := d.withPrt fun p => { p with
    prog := [], ingress := [], p7 := [], egq := [], egWait := [], fifo := [], credit := [], egBytes := [], egStreamBytes := [] }
  let d := [0, 1].foldl (fun (d : Dev) q => d.setMissOcc q 0) d
  let d := d.withRte fun r => { r with missQ := [], inflight := [] }
  let d := d.med.egr.foldl (fun (d : Dev) e => if d.egrDepth e.1 = 0 then d else d.egrStat e.1 16 16 0) d
  let d := d.withMed fun m => { m with egrQ := [], egrIn := [], drvIn := [], fabIn := [], releases := [], slots := [], cur := [] }
  { d with fab := { d.fab with resp := [] } }

/-- Step 6: drovers reset, islands 0 to 75 without power, what PWR_RET does not keep is lost, the route cache and
every queue empty, the fabric flag clear. -/
def Dev.entryStep6 (d : Dev) : Dev :=
  let d := (List.range 96).foldl (fun (d : Dev) n => (d.resetDrover n).resume n) d
  let d := (List.range 76).foldl (fun (d : Dev) i => d.setIsland i 2) d
  let d := (List.range 96).foldl (fun (d : Dev) n =>
    (d.loseMem (droverPrivate n) 0x40000).loseMem (droverPrivate n + 0x100000) 0x10000) d
  let d := (List.range 12).foldl (fun (d : Dev) k =>
    if (d.rd R.PWR_RET_drove).testBit k then d else d.loseMem (0x40000000 + 0x400000 * k) 0x400000) d
  let keep := d.rd R.PWR_RET_gran_grp
  let d := d.withCfg fun c => { c with gran := c.gran.filter fun (e : Nat × Nat) => keep.testBit (e.1 / 320), shep := false, shepWait := none }
  let d := { d with fab := {} }
  let d := (d.withRte fun r => { r with cache := [] }).flushBuffers
  (d.setReady 3 0).withPwr fun p => { p with stopped := false }

/-- What HIBERNATE loses beside the power of its islands (Table 14-5). -/
def Dev.hibernateLoss (d : Dev) : Dev :=
  let d := d.setReady 4 0
  let d := d.withTim fun t => { t with
    calStep := 2
    replicas := (List.range 112).map fun i =>
      let r := t.replicas.getD i {}
      if i = 99 ∨ i = 100 ∨ i = 101 then r else { r with aligned := false } }
  let d := d.withCfg fun c => { c with frames := [], bad := [], src := [] }
  let d := d.med.rx.foldl (fun (d : Dev) e => d.setRx e.1 (e.2.1, 0)) d
  let d := d.med.pair.foldl (fun (d : Dev) e => d.setPair e.1 (e.2.1, 0)) d
  let d := d.med.egr.foldl (fun (d : Dev) e => d.setEgr e.1 (e.2.1, 0)) d
  d.withMed fun m => { m with pairBase := [], lateRun := [], legSeen := [], hist := [] }

/-- Islands that DOZE gates and leaves with power. -/
def dozeGated (i : Nat) : Bool := decide ((76 ≤ i ∧ i ≤ 98) ∨ (102 ≤ i ∧ i ≤ 104) ∨ (106 ≤ i ∧ i ≤ 111))
/-- Islands that HIBERNATE powers off. -/
def hibernateOff (i : Nat) : Bool := decide (i ≤ 98 ∨ (102 ≤ i ∧ i ≤ 111))

/-- Step 7 of an entry to DOZE or HIBERNATE. -/
def Dev.entryStep7 (d : Dev) (target : Nat) : Dev :=
  let d := d.closeQps
  let d := (List.range 8).foldl (fun (d : Dev) k => (d.linkDown (k / 4) (k % 4)).setStep (k / 4) (k % 4) 0) d
  let d := d.setReady 5 0
  let d := if d.servoSrc = 1 then d.servoLost else d
  let d := (List.range 12).foldl (fun (d : Dev) c =>
    if d.rd R.DDR_CH_STAT_state [c] = 3 then d.wr R.DDR_CH_STAT_state [c] 4 else d) d
  let d := d.nvPowerDown.setReady 2 0
  if target = 2 then (List.range 112).foldl (fun (d : Dev) i => if dozeGated i then d.setIsland i 1 else d) d
  else ((List.range 112).foldl (fun (d : Dev) i => if hibernateOff i then d.setIsland i 2 else d) d).hibernateLoss

/-! ### Wakes (R478, R480, R481) -/

/-- PWR_LAST_WAKE. -/
def Dev.lastWake (d : Dev) (src inp from_ time : Nat) (during aborted : Bool) : Dev :=
  let d := ((d.wr R.PWR_LAST_WAKE_source [] src).wr R.PWR_LAST_WAKE_during_entry [] (bit during)).wr R.PWR_LAST_WAKE_aborted [] (bit aborted)
  let d := (d.wr R.PWR_LAST_WAKE_valid [] 1).wr R.PWR_LAST_WAKE_input [] (if src = 6 then inp else 0)
  (d.wr R.PWR_LAST_WAKE_from [] from_).wr R.PWR_LAST_WAKE_time [] time

/-- R480: contexts with en set start as they do when en is set. -/
def Dev.rearmMedia (d : Dev) : Dev :=
  let d := d.med.rx.foldl (fun (d : Dev) e => if bits e.2.1 0 1 = 1 then d.rxStat e.1 0 2 1 else d) d
  let d := d.med.pair.foldl (fun (d : Dev) e => if bits e.2.1 0 1 = 1 then d.pairStat e.1 32 1 0 else d) d
  d.med.egr.foldl (fun (d : Dev) e =>
    if bits e.2.1 0 1 = 0 then d
    else
      let d := d.egrStat e.1 0 3 (if d.txHalted (e.1 / 16384) (e.1 % 16384) then 4 else 1)
      d.withMed fun m => { m with
        vidN := tset 0 m.vidN e.1 0
        emptyAt := tset 0 m.emptyAt e.1 0
        audNext := tset 0 m.audNext e.1 (d.firstPacket e.2.1 + 1) }) d

/-- Exit starts (Table 14-8 steps 1 and 2); from IDLE the reload starts with it. -/
def Dev.startExit (d : Dev) (src inp time : Nat) (during : Bool) : Dev :=
  let st := d.pwrState
  let d := (d.lastWake src inp st time during false).raise Ev.pwrWake (src + 0x8000 * bit during)
  let d := (d.wr R.PWR_STAT_exiting [] 1).withPwr fun p => { p with exitFrom := st, fired := [], latched := none }
  let d := (List.range 112).foldl (fun (d : Dev) i => if d.island i = 0 then d else d.setIsland i 0) d
  let d := (List.range 12).foldl (fun (d : Dev) c =>
    if d.rd R.DDR_CH_STAT_state [c] = 4 then d.wr R.DDR_CH_STAT_state [c] 3 else d) d
  let d := d.rearmMedia
  let d := if st = 3 then d else
    d.withCfg fun c => { c with mask := ((List.range 64).map fun i => if d.fabState i = 2 then 2 ^ i else 0).sum }
  if st = 1 then d.startLoad 3 (d.rd R.CFG_STATUS_src) false else d

/-- The entry aborts: every step taken is undone. -/
def Dev.abortEntry (d : Dev) (src inp time : Nat) : Dev :=
  let d := (d.lastWake src inp d.pwr.target time true true).raise Ev.entryAborted src
  let d := (d.wr R.PWR_STAT_entering [] 0).wr R.PWR_STAT_result [] 6
  let was := d.pwr.stopped
  let gone := d.now - d.pwr.stoppedAt
  let d := d.withPwr fun p => { p with stage := 0, target := 0, stopped := false, fired := [], latched := none }
  if was then
    (List.range 96).foldl (fun (d : Dev) n =>
      if d.halted n then d else (List.range 8).foldl (fun (d : Dev) t => d.thrResume n t gone) d) d
  else d

/-- WAKE_LATCH: the first wake source that fired is latched. -/
def wakeLatch (d : Dev) : Dev :=
  match d.pwr.fired with
  | [] => d
  | (src, inp, time) :: _ =>
    let d := d.withPwr fun p => { p with fired := [] }
    if d.flag R.PWR_STAT_exiting then d
    else if d.entering then
      (if d.pwr.stage < 5 then d.abortEntry src inp time
       else if d.pwr.latched.isSome then d
       else d.withPwr fun p => { p with latched := some (src, inp, time) })
    else if d.pwrState = 0 then d
    else d.startExit src inp time false

/-- Step 8, and the exit that a wake latched after the point of no return starts. -/
def Dev.entryEnds (d : Dev) : Dev :=
  let k := d.pwr.target
  let w := d.pwr.latched
  let d := ((d.wr R.PWR_STAT_state [] k).wr R.PWR_STAT_entering [] 0).bumpWrap R.PWR_STAT_entries []
  let d := (d.raise Ev.pwrState k).withPwr fun p => { p with stage := 0, target := 0, latched := none }
  match w with
  | some (src, inp, time) => d.startExit src inp time true
  | none => d

/-- ENTRY_CONTINUE: the next step of Table 14-7, once nothing makes it wait. -/
def entryContinue (d : Dev) : Dev :=
  if d.entering = false then d else
  match d.pwr.stage with
  | 2 =>
    if (List.range 4).any fun s => d.prState s == 4 then d
    else d.withPwr fun p => { p with stage := 3, stopped := true, stoppedAt := d.now }
  | 3 => if 2 ≤ d.pwr.target ∧ d.nvAnyBusy = true then d else d.withPwr fun p => { p with stage := 5 }
  | 5 =>
    let d := if d.pwrState = 0 then d.entryStep6 else d
    (if 2 ≤ d.pwr.target then d.entryStep7 d.pwr.target else d).entryEnds
  | _ => d

/-- ALARM. -/
def alarm (d : Dev) : Dev :=
  if d.flag R.PWR_WAKE_AT_arm = true ∧ d.reached (rawToBeads (d.rd R.PWR_WAKE_AT_at)) = true then
    (d.fireWake 5 0).wr R.PWR_WAKE_AT_arm [] 0
  else d

/-! ### The commands -/

/-- POWER_ON_RESET_RELEASE. -/
def execPowerOnResetRelease (mode : BitVec 2) (bell pull : Bool) (cut : Option Nat) (s : State) :
    Host.Outcome State Fault Refusal := runAlways s (powerOn mode.toNat bell pull cut)

/-- POR_N_ASSERT. -/
def execPorNAssert (s : State) : Host.Outcome State Fault Refusal := runAlways s Dev.enterOff

/-- RAIL_WINDOW_EXIT. -/
def execRailWindowExit (n : Fin 10) (s : State) : Host.Outcome State Fault Refusal := run s (railExit n)

/-- RAIL_COLLAPSE. -/
def execRailCollapse (n : Fin 10) (s : State) : Host.Outcome State Fault Refusal := runAlways s (railCollapse n)

/-- NV_AWAKE. -/
def execNvAwake (s : State) : Host.Outcome State Fault Refusal := run s nvAwake

/-- LC_RESET. -/
def execLcReset (mode : BitVec 2) (bell pull : Bool) (cut : Option Nat) (s : State) :
    Host.Outcome State Fault Refusal := run s (lcReset mode.toNat bell pull cut)

/-- PWR_REQ_RUN. -/
def execPwrReqRun (inp : Fin 101) (s : State) : Host.Outcome State Fault Refusal :=
  run s fun d => let r := writePwrCtl inp 0 d; r.1.complete ⟨inp, false⟩ r.2 0

/-- PWR_REQ_IDLE. -/
def execPwrReqIdle (inp : Fin 101) (s : State) : Host.Outcome State Fault Refusal :=
  run s fun d => let r := writePwrCtl inp 1 d; r.1.complete ⟨inp, false⟩ r.2 0

/-- PWR_REQ_DOZE. -/
def execPwrReqDoze (inp : Fin 101) (s : State) : Host.Outcome State Fault Refusal :=
  run s fun d => let r := writePwrCtl inp 2 d; r.1.complete ⟨inp, false⟩ r.2 0

/-- PWR_REQ_HIBERNATE. -/
def execPwrReqHibernate (inp : Fin 101) (s : State) : Host.Outcome State Fault Refusal :=
  run s fun d => let r := writePwrCtl inp 3 d; r.1.complete ⟨inp, false⟩ r.2 0

/-- ENTRY_CONTINUE. -/
def execEntryContinue (s : State) : Host.Outcome State Fault Refusal := run s entryContinue

/-- WAKE_LATCH. -/
def execWakeLatch (s : State) : Host.Outcome State Fault Refusal := run s wakeLatch

/-- WAKE_N_LOW. -/
def execWakeNLow (s : State) : Host.Outcome State Fault Refusal := run s fun d => d.fireWake 0 0

/-- ALARM. -/
def execAlarm (s : State) : Host.Outcome State Fault Refusal := run s alarm

end Sys2Proof.Machine
end

