-- ==== Sys2Proof/Machine/Access.lean ====
section
/-! DEFINITION. The setup register space: the access of one 8-byte unit by any requester, each field by its access
code (Table 00-6, R9 to R14, R24, R32 to R40, R419, R434, R435, R589). `m` and `v` are the bits written and their
values, in bits of the register. -/

namespace Sys2Proof.Machine

/-! ### Where a unit falls -/

/-- The indices of the instance of a register that holds bit address `x`. -/
def dimIndex (width : Nat) (dims : List (Nat × Nat)) (x : Nat) : Option (List Nat) :=
  match dims with
  | [] => if x < width then some [] else none
  | (s, n) :: r => if x / s < n then (dimIndex width r (x % s)).map (x / s :: ·) else none

/-- A register an access falls on: which, its indices, the bit address at which it begins. -/
structure Hit where
  reg : Register
  ix : List Nat
  base : Nat

/-- The register that holds byte offset `a`. -/
def regAt (a : Nat) : Option Hit :=
  (regsOf a).findSome? fun r =>
    if 8 * a < r.pos then none
    else (dimIndex r.width r.dims (8 * a - r.pos)).map fun ix =>
      ⟨r, ix, r.pos + ((r.dims.zip ix).map fun (p : (Nat × Nat) × Nat) => p.1.1 * p.2).sum⟩

/-- The registers of the 8-byte unit at offset `a`. -/
def hitsOf (a : Nat) : List Hit :=
  [0, 2, 4, 6].filterMap fun k =>
    (regAt (a + k)).bind fun h => if k = 0 ∨ h.base = 8 * (a + k) then some h else none

/-- Bits of the unit at `a`, as bits of the register. -/
def Hit.bitsIn (h : Hit) (a x : Nat) : Nat :=
  (if h.base ≤ 8 * a then x * 2 ^ (8 * a - h.base) else x / 2 ^ (h.base - 8 * a)) % 2 ^ h.reg.width

/-- A value of the register, as bits of the unit at `a`. -/
def Hit.bitsOut (h : Hit) (a x : Nat) : Nat :=
  (if h.base ≤ 8 * a then x / 2 ^ (8 * a - h.base) else x * 2 ^ (h.base - 8 * a)) % 2 ^ 64

/-- The bits of the enabled bytes of a unit. -/
def byteMask (be : Nat) : Nat := ((setBitsOf 8 be).map fun i => 255 * 2 ^ (8 * i)).sum

/-- The island whose clock and power a register needs (R24, log entry 110); none: it is always there. -/
def Hit.island (h : Hit) (a : Nat) : Option Nat :=
  let i := h.ix.getD 0 0
  match a / 0x10000 with
  | 0x2 | 0x3 => some (76 + i)
  | 0x4 | 0x5 => some 78
  | 0x6 => if h.reg.dims.isEmpty then some 106 else some i
  | 0x7 | 0x8 => some 102
  | 0x9 => if h.reg.dims.isEmpty then some 106 else some (79 + i)
  | 0xA => some 103
  | 0xB | 0xC => some 105
  | 0x10 => some 104
  | 0x20 | 0x21 | 0x22 | 0x23 | 0x24 | 0x25 => some (droveIsland i)
  | 0x26 => some (64 + i)
  | _ => none

/-- The island runs. -/
def Dev.hitOn (d : Dev) (h : Hit) (a : Nat) : Bool := match h.island a with | some i => d.island i == 0 | none => true

/-! ### Fields by their access codes (Table 00-6) -/

/-- A field's bits within its register. -/
def Field.of (f : Field) (pos x : Nat) : Nat := bits x (f.pos - pos) f.width

/-- One field is written by its access code; the device and the status. -/
def writeField (q : Req) (pos : Nat) (ix : List Nat) (m v : Nat) (p : Dev × Nat) (f : Field) : Dev × Nat :=
  let fm := f.of pos m
  let fv := f.of pos v
  let old := p.1.rd f ix
  if fm = 0 then p else
  match f.acc with
  | .ro | .wo => p
  | .rw => (p.1.wr f ix (mix f.width old fm fv), p.2)
  | .w1c => (p.1.wr f ix (old &&& (ones f.width - (fm &&& fv))), p.2)
  | .w1s => (p.1.wr f ix (old ||| (fm &&& fv)), p.2)
  | .rwl => if p.1.locked q then (p.1, worst p.2 Sts.locked) else (p.1.wr f ix (mix f.width old fm fv), p.2)
  | .rwt => (p.1, worst p.2 Sts.tallyOnly)

/-- Fields of one register written. -/
def writeFields (q : Req) (pos : Nat) (fs : List Field) (ix : List Nat) (m v : Nat) (d : Dev) : Dev × Nat :=
  fs.foldl (writeField q pos ix m v) (d, Sts.ok)

/-- Every field of a register written. -/
def writePlain (q : Req) (r : Register) (ix : List Nat) (m v : Nat) (d : Dev) : Dev × Nat :=
  writeFields q r.pos r.fields ix m v d

/-- The register without some of its fields. -/
def Register.less (r : Register) (fs : List Field) : List Field :=
  r.fields.filter fun f => !(fs.any fun g => g.pos == f.pos)

/-- A further effect of the same write, with its status. -/
def also (p : Dev × Nat) (f : Dev → Dev × Nat) : Dev × Nat := let x := f p.1; (x.1, worst p.2 x.2)

/-- A further effect that changes no status. -/
def then_ (p : Dev × Nat) (f : Dev → Dev) : Dev × Nat := (f p.1, p.2)

/-- Fields of which a write is dropped with a status. -/
def dropFields (pos : Nat) (fs : List Field) (m st : Nat) (p : Dev × Nat) : Dev × Nat :=
  if fs.any fun f => f.of pos m != 0 then (p.1, worst p.2 st) else p

/-- Fields that a pinned loop drives, written by the Herdsman (R492). -/
def pinnedWrite (q : Req) (r : Register) (ix : List Nat) (loop : Nat) (fs : List Field) (m v : Nat) (d : Dev) : Dev × Nat :=
  if q.inp = 99 ∧ d.loopPinned loop = true ∧ (fs.any fun f => f.of r.pos m != 0) = true then
    then_ (also (writeFields q r.pos (r.less fs) ix m v d) fun d => (d, Sts.protected_)) (·.hrdCount 11)
  else writePlain q r ix m v d

/-! ### Registers that do more, by block -/

/-- Ring lock is set (R434). -/
def ringLock (inp : Nat) (d : Dev) : Dev :=
  if d.flag R.SYS_RING_LOCK_lock then d
  else ((d.wr R.SYS_RING_LOCK_lock [] 1).wr R.SYS_RING_LOCK_by [] inp).raise Ev.ringLocked inp

def writeSys (q : Req) (r : Register) (ix : List Nat) (m v : Nat) (d : Dev) : Dev × Nat :=
  if r.pos = R.SYS_RING_LOCK_lock.pos then (if (m &&& v).testBit 0 then ringLock q.inp d else d, Sts.ok)
  else if r.pos = R.SYS_READY_EN_en.pos then then_ (writePlain q r ix m v d) Dev.followReady
  else writePlain q r ix m v d

/-- A PTP port is enabled or disabled, or the clock's role changes (R59, log entry 114). -/
def Dev.ptpSwitch (d : Dev) (p : Nat) (was : Bool) : Dev :=
  let on := d.flag R.TIM_PTP_CFG_en [p]
  let st := d.rd R.TIM_PTP_STAT_state [p]
  if on then d.ptpEnter p (if was then st else 4)
  else if was then (d.wr R.TIM_PTP_STAT_state [p] 3).raise (Ev.ptpState + p) 3
  else d

def writeTim (q : Req) (r : Register) (ix : List Nat) (m v : Nat) (d : Dev) : Dev × Nat :=
  let i := ix.getD 0 0
  let p := r.pos
  if p = R.TIM_FREQ_ADJ_adj.pos then
    (if m % 2 ^ 36 = 0 then (d, Sts.ok) else writeFreqAdj q (mix 36 (d.rd R.TIM_FREQ_ADJ_adj) m v) d)
  else if p = R.TIM_STEP_ofs.pos then (timStep (toSigned 64 (v &&& m)) d, Sts.ok)
  else if p = R.TIM_SET_value.pos then
    then_ (writePlain q r ix m v d) fun d => if (m &&& v).testBit 96 then timSetGo d else d
  else if p = R.TIM_CLK_CFG_role.pos then
    then_ (writePlain q r ix m v d) fun d => (d.ptpSwitch 0 (d.flag R.TIM_PTP_CFG_en [0])).ptpSwitch 1 (d.flag R.TIM_PTP_CFG_en [1])
  else if p = R.TIM_SERVO_CFG_src.pos then
    also (writeFields q p (r.less [R.TIM_SERVO_CFG_src]) ix m v d) fun d =>
      if m % 4 = 0 then (d, Sts.ok) else writeServoSrc q (mix 2 (d.rd R.TIM_SERVO_CFG_src) m v) d
  else if p = R.TIM_SERVO_KP_gain.pos then pinnedWrite q r ix 4 [R.TIM_SERVO_KP_gain] m v d
  else if p = R.TIM_SERVO_KI_gain.pos then pinnedWrite q r ix 4 [R.TIM_SERVO_KI_gain] m v d
  else if p = R.TIM_PTP_CFG_en.pos then
    then_ (pinnedWrite q r ix 4 [R.TIM_PTP_CFG_dreq_log] m v d) fun e => e.ptpSwitch i (d.flag R.TIM_PTP_CFG_en [i])
  else if p = R.TIM_CAL_CFG_period_s.pos then
    pinnedWrite q r ix 5 [R.TIM_CAL_CFG_period_s, R.TIM_CAL_CFG_temp_c] m v d
  else if p = R.TIM_SOUT_CFG_mode.pos then
    then_ (writePlain q r ix m v d) fun d => if (m &&& v).testBit 3 then soutCommit i d else d
  else writePlain q r ix m v d

def writePrt (q : Req) (r : Register) (ix : List Nat) (m v : Nat) (d : Dev) : Dev × Nat :=
  let i := ix.getD 0 0
  let p := r.pos
  if p = R.PRT_CFG_mode.pos then writePrtCfg q i m v d
  else if p = R.PRT_LANE_MAP_tx_map.pos then
    (if d.locked q = false ∧ d.rd R.PRT_CFG_en [i] ≠ 0 then (d, Sts.busy) else writePlain q r ix m v d)
  else if p = R.PRT_MAC_ADDR_addr.pos then
    (if subports (d.rd R.PRT_CFG_mode [i]) ≤ ix.getD 1 0 then (d, Sts.ok) else writePlain q r ix m v d)
  else if p = R.PRT_BUF_LIM_min.pos then writeBufLim q i (ix.getD 1 0) m v d
  else if p = R.PRT_HALT_STATE_egr_stop.pos then (haltStateClear i (m &&& v) d, Sts.ok)
  else writePlain q r ix m v d

def writeRte (q : Req) (r : Register) (ix : List Nat) (m v : Nat) (d : Dev) : Dev × Nat :=
  if r.pos = R.RTE_CFG_en.pos then writeRteCfg q m v d
  else if r.pos = R.RTE_CTL_clear.pos then (if (m &&& v).testBit 0 then tableClear d else (d, Sts.ok))
  else writePlain q r ix m v d

/-- The media block but for the roster registers, whose writes may wait. -/
def writeMed (q : Req) (r : Register) (ix : List Nat) (m v : Nat) (d : Dev) : Dev × Nat :=
  let p := r.pos
  if p = R.MED_CTX_CMD_op.pos then writeCtxCmd q m v d
  else if p = R.MED_CTX_DATA_cfg.pos then
    (if d.flag R.MED_CTX_CMD_busy then (d, if d.locked q ∧ m % 2 ^ 512 ≠ 0 then Sts.locked else Sts.busy)
     else writePlain q r ix m v d)
  else if p = R.MED_TX_HALT_halt.pos then
    let i := ix.getD 0 0
    let k := 64 * ix.getD 1 0
    ((setBitsOf 64 (m &&& v)).foldl (fun (d : Dev) b => if d.txHalted i (k + b) then d.streamRelease i (k + b) else d) d, Sts.ok)
  else writePlain q r ix m v d

/-- Islands whose user event enables go from 0 to 1 with their event bit set raise (R449, Table 13-1). -/
def Dev.userEnables (d : Dev) (old : Nat) : Dev :=
  let new := d.rd R.FAB_USER_EVT_EN_en
  let fire := (setBitsOf 64 new).filter fun i => !old.testBit i && (d.rd R.FAB_USER_EVT_evt).testBit i
  fire.foldl (fun (d : Dev) i => d.raise Ev.fabricUser i) d

def writeFab (q : Req) (r : Register) (ix : List Nat) (m v : Nat) (d : Dev) : Dev × Nat :=
  let i := ix.getD 0 0
  let p := r.pos
  if p = R.FAB_USER_EVT_EN_en.pos then then_ (writePlain q r ix m v d) (·.userEnables (d.rd R.FAB_USER_EVT_EN_en))
  else if p = R.FAB_ISL_CTL_ureset.pos then
    (if (m &&& v).testBit 0 then let x := d.draw 2; uresetWrite i x.2 x.1 else (d, Sts.ok))
  else if p = R.FAB_ISL_CLKDIV_div.pos then
    then_ (writeFields q p (r.less [R.FAB_ISL_CLKDIV_pin]) ix m v d) fun d =>
      let k := R.FAB_ISL_CLKDIV_pin.pos - p
      if m.testBit k then
        (if v.testBit k then d.setBit R.HRD_ISL_PIN_pin [] i else d.clearBit R.HRD_ISL_PIN_pin [] i) else d
  else writePlain q r ix m v d

def writeCfg (q : Req) (r : Register) (ix : List Nat) (m v : Nat) (d : Dev) : Dev × Nat :=
  let i := ix.getD 0 0
  let p := r.pos
  if p = R.CFG_CMD_reload.pos then
    also (writePlain q r ix m v d) fun d => if (m &&& v).testBit 0 then reload d else (d, Sts.ok)
  else if p = R.CFG_PR_CMD_op.pos then also (writePlain q r ix m v d) fun d => prOp i ((m &&& v) % 8) d
  else if p = R.CFG_RB_CMD_frame.pos then
    then_ (writePlain q r ix m v d) fun d => if (m &&& v).testBit 32 then rbGo d else d
  else writePlain q r ix m v d

def writeNvc (q : Req) (r : Register) (ix : List Nat) (m v : Nat) (d : Dev) : Dev × Nat :=
  let i := ix.getD 0 0
  let p := r.pos
  if p = R.NVC_WP_prot.pos then writeWp i (m &&& v) d
  else if p = R.NVC_WP_CLR_clr.pos then writeWpClr q i (m &&& v) d
  else if p = R.NVC_BOOT_CMD_new_sel.pos then writeBootCmd q m v d
  else writePlain q r ix m v d

def writeDdr (q : Req) (r : Register) (ix : List Nat) (m v : Nat) (d : Dev) : Dev × Nat :=
  let i := ix.getD 0 0
  let p := r.pos
  if p = R.DDR_CFG_speed.pos then
    (if d.locked q = false ∧ d.ddr.inited = true then dropFields p r.fields m Sts.busy (d, Sts.ok) else writePlain q r ix m v d)
  else if p = R.DDR_CTL_init.pos then
    let w := m &&& v
    also (if w.testBit 0 then ddrInit d else (d, Sts.ok)) fun d => if w.testBit 1 then ddrRetrain d else (d, Sts.ok)
  else if p = R.DDR_REF_mode.pos then pinnedWrite q r ix 1 [R.DDR_REF_mode] m v d
  else if p = R.DDR_CH_EVT_EN_corr_thr.pos then (d.writeEnables ddrEvtFields ddrEnFields ix (Ev.ddr + i) m v, Sts.ok)
  else writePlain q r ix m v d

/-- SAC_RING: what may change only while en is clear, and the ring's state when en changes. -/
def writeRing (q : Req) (r : Register) (ix : List Nat) (m v : Nat) (d : Dev) : Dev × Nat :=
  let fixed := [R.SAC_RING_base, R.SAC_RING_rkey, R.SAC_RING_qp, R.SAC_RING_size_log, R.SAC_RING_cpl_ring]
  let on := d.flag R.SAC_RING_en ix
  let changes := fixed.any fun f => mix f.width (d.rd f ix) (f.of r.pos m) (f.of r.pos v) != d.rd f ix
  if d.locked q = false ∧ on = true ∧ changes = true then (d, Sts.busy)
  else then_ (writePlain q r ix m v d) fun d => d.ringEnabled (ix.getD 0 0) (ix.getD 1 0) on

/-- The registers of chapter 12; those of a controller take writes only from it (R435). -/
def writeSac (q : Req) (r : Register) (ix : List Nat) (m v : Nat) (d : Dev) : Dev × Nat :=
  let c := ix.getD 0 0
  let p := r.pos
  let own := [R.SAC_PEER_en.pos, R.SAC_CTRL_bound.pos, R.SAC_RING_CTL_ring.pos, R.SAC_QP_qpn.pos, R.SAC_RING_base.pos]
  if p ∈ own ∧ q.inp ≠ 97 + c then (d, Sts.protected_)
  else if p = R.SAC_RING_CTL_ring.pos then writeRingCtl c (m &&& v) d
  else if p = R.SAC_RING_base.pos then writeRing q r ix m v d
  else if p = R.SAC_CTRL_bound.pos then
    then_ (writePlain q r ix m v d) fun e =>
      if e.rd R.SAC_CTRL_hb_ms [c] = d.rd R.SAC_CTRL_hb_ms [c] then e
      else e.withSac fun s => { s with hbFrom := tset 0 s.hbFrom c e.clock }
  else writePlain q r ix m v d

def writeSem (q : Req) (r : Register) (ix : List Nat) (m v : Nat) (d : Dev) : Dev × Nat :=
  if r.pos = R.SEM_REL_rel.pos then writeSemRel q.inp (ix.getD 0 0) (m &&& v) d
  else if r.pos = R.SEM_FORCE_sem.pos then writeSemForce q.inp (m &&& v) d
  else writePlain q r ix m v d

def writeEvt (q : Req) (r : Register) (ix : List Nat) (m v : Nat) (d : Dev) : Dev × Nat :=
  let p := r.pos
  if p = R.EVT_HPEND_pend.pos ∧ q.inp ≠ 99 then (d, Sts.protected_)
  else if p = R.EVT_MRING_base.pos ∧ d.flag R.EVT_MRING_en = true ∧ d.locked q = false then
    let fs := [R.EVT_MRING_base, R.EVT_MRING_size_log]
    dropFields p fs m Sts.busy (writeFields q p (r.less fs) ix m v d)
  else if p = R.EVT_SRC_ring_a0.pos ∧ evtDefaultH (ix.getD 0 0) = 0 then (d, Sts.ok)
  else writePlain q r ix m v d

def writePwr (q : Req) (r : Register) (ix : List Nat) (m v : Nat) (d : Dev) : Dev × Nat :=
  if r.pos = R.PWR_CTL_req.pos then (if m % 8 = 0 then (d, Sts.ok) else writePwrCtl q.inp ((m &&& v) % 8) d)
  else if r.pos = R.PWR_WAKE_EN_en.pos then
    then_ (writePlain q r ix m v d) fun d => d.wr R.PWR_WAKE_EN_en [] (d.rd R.PWR_WAKE_EN_en &&& 0xFFF ||| 64)
  else writePlain q r ix m v d

def writeHrd (q : Req) (r : Register) (ix : List Nat) (m v : Nat) (d : Dev) : Dev × Nat :=
  let p := r.pos
  let w := m &&& v
  if p = R.HRD_CTL_restart.pos then
    also (if w.testBit 0 then writeHrdRestart q.inp d else (d, Sts.ok)) fun d =>
      (if w.testBit 1 then startPrewarm d else d, Sts.ok)
  else if p = R.HRD_FW_fault_vec.pos ∧ q.inp ≠ 99 then dropFields p [R.HRD_FW_fault_vec] m Sts.protected_ (d, Sts.ok)
  else if p = R.HRD_WDOG_period_ms.pos then
    also (writePlain q r ix m v d) fun d => if w.testBit 16 then writeHrdKick q.inp d else (d, Sts.ok)
  else if p = R.HRD_ISL_OP_req_mhz.pos then writeIslOp q.inp (ix.getD 0 0) m v d
  else writePlain q r ix m v d

def writeLcs (q : Req) (r : Register) (ix : List Nat) (m v : Nat) (d : Dev) : Dev × Nat :=
  if r.pos = R.LCS_CMD_op.pos then writeLcsCmd q.inp ((m &&& v) % 8) d
  else if r.pos = R.LCS_CERT_cert.pos then
    (if q.inp ≠ 97 ∧ q.inp ≠ 98 ∧ q.inp ≠ 100 then (d, Sts.protected_) else writePlain q r ix m v d)
  else writePlain q r ix m v d

def writeDrv (q : Req) (r : Register) (ix : List Nat) (m v : Nat) (d : Dev) : Dev × Nat :=
  let n := ix.getD 0 0
  let p := r.pos
  if p = R.DRV_CTL_halt.pos then writeDrvCtl n (m &&& v) 1 d
  else if p = R.DRV_EVT_EN_fault.pos then (d.writeEnables drvEvtFields drvEnFields ix (Ev.drover + n) m v, Sts.ok)
  else if p = R.DRV_WDOG_period_us.pos then
    then_ (writePlain q r ix m v d) fun d =>
      (List.range 8).foldl (fun (d : Dev) t => d.setThr n t { d.thr n t with kick := d.now }) d
  else if p = R.DRV_IMEM_LOAD_src.pos then
    also (writePlain q r ix m v d) fun d =>
      if (m &&& v).testBit (R.DRV_IMEM_LOAD_go.pos - p) then
        (startFill n d, if d.flag R.DRV_IMEM_LOAD_busy [n] then Sts.busy else Sts.ok)
      else (d, Sts.ok)
  else writePlain q r ix m v d

/-- A register is written; no status: the write waits (R183). -/
def writeReg (q : Req) (a : Nat) (r : Register) (ix : List Nat) (m v : Nat) (d : Dev) : Dev × Option Nat :=
  let done := fun (p : Dev × Nat) => (p.1, some p.2)
  match a / 0x10000 with
  | 0x0 => done (writeSys q r ix m v d)
  | 0x1 => done (writeTim q r ix m v d)
  | 0x2 | 0x3 => done (writePrt q r ix m v d)
  | 0x4 => done (writeRte q r ix m v d)
  | 0x5 =>
    if r.pos = R.MED_ROSTER_CFG_len_m1.pos then writeRosterCfg q (ix.getD 0 0) m v d
    else if r.pos = R.MED_ROSTER_WIN_stream.pos then writeRosterWin q (ix.getD 0 0) m v d
    else done (writeMed q r ix m v d)
  | 0x6 => done (writeFab q r ix m v d)
  | 0x7 => done (writeCfg q r ix m v d)
  | 0x8 => done (writeNvc q r ix m v d)
  | 0x9 => done (writeDdr q r ix m v d)
  | 0xA => done (writeSac q r ix m v d)
  | 0xB => done (writeSem q r ix m v d)
  | 0xC => done (writeEvt q r ix m v d)
  | 0xD => done (writePwr q r ix m v d)
  | 0xE => done (writeHrd q r ix m v d)
  | 0xF => done (writeLcs q r ix m v d)
  | 0x11 => (d, some Sts.tallyOnly)
  | 0x10 => done (if r.pos = R.BST_CMD_slice.pos then writeBstCmd (m &&& v) d else writePlain q r ix m v d)
  | _ => done (writeDrv q r ix m v d)

/-- The doorbell and halter pages of a controller (Table 01-9): doorbell page, controller. -/
def pageOf (a : Nat) : Option (Bool × Nat) :=
  if 0xF00000 ≤ a ∧ a < 0xF02000 then some (true, (a - 0xF00000) / 0x1000)
  else if 0xF80000 ≤ a ∧ a < 0xF82000 then some (false, (a - 0xF80000) / 0x1000)
  else none

/-- A write of the enabled bytes of the unit at offset `a`, a multiple of 8. No status: it waits. -/
def regWrite (q : Req) (a be v : Nat) (d : Dev) : Dev × Option Nat :=
  let m := byteMask be
  match pageOf a with
  | some (bell, c) =>
    if q.inp ≠ 97 + c then (d, some Sts.protected_)
    else if bell then (d.doorbell c (a % 0x1000) (v &&& m), some (if (bellAt (a % 0x1000)).isSome then Sts.ok else Sts.unmapped))
    else (d, some Sts.unmapped)
  | none =>
    let hits := (hitsOf a).filter fun h => h.bitsIn a m != 0
    if be = 0 then (d, some Sts.ok)
    else if hits.isEmpty then (d, some Sts.unmapped)
    else
      hits.foldl (fun (p : Dev × Option Nat) h =>
        let x := if p.1.hitOn h a then writeReg q a h.reg h.ix (h.bitsIn a m) (h.bitsIn a v) p.1
          else (p.1, some Sts.poweredOff)
        (x.1, match p.2, x.2 with | some s, some t => some (worst s t) | _, _ => none)) (d, some Sts.ok)

/-! ### Reads -/

/-- The value of a register as its fields hold it; WO fields read zero. -/
def regValue (d : Dev) (r : Register) (ix : List Nat) : Nat :=
  (r.fields.map fun f => if f.acc = .wo then 0 else d.rd f ix * 2 ^ (f.pos - r.pos)).sum

/-- A register is read, at its unit `u`: the device after it and the register's value. A read may remove a FIFO
entry, acquire a semaphore, or meet an open value. -/
def readReg (q : Req) (r : Register) (ix : List Nat) (u : Nat) (d : Dev) : Dev × Nat :=
  let i := ix.getD 0 0
  let p := r.pos
  let show_ := fun (e : Dev) => (d, regValue e r ix)
  if p = R.TIM_NOW_now.pos then (d, d.nowRaw)
  else if p = R.TIM_SIN_TS_ts.pos then
    let h := d.sinHead i
    (if u = 1 then d.sinPop i else d, h.1 + h.2 * 2 ^ 96)
  else if p = R.PRT_MAC_ADDR_addr.pos ∧ subports (d.rd R.PRT_CFG_mode [i]) ≤ ix.getD 1 0 then (d, 0)
  else if p = R.RTE_LEARN_LOG_key.pos then let x := readLearnLog u d; (x.1, x.2 * 2 ^ (64 * u))
  else if p = R.MED_ROSTER_WIN_stream.pos then (d, d.readRosterWin i)
  else if p = R.FAB_ISL_CLKDIV_div.pos then show_ (d.wr R.FAB_ISL_CLKDIV_pin ix (bit (d.islandPinned i)))
  else if p = R.FAB_ISL_WAND_value.pos then
    let x := wandValue i d
    (x.1, x.2 + d.rd R.FAB_ISL_WAND_force ix * 2 ^ 32)
  else if p = R.NVC_WEAK_cw.pos then readWeak d
  else if p = R.SEM_TRY_granted.pos then readSemTry q.inp i d
  else if p = R.EVT_STAT_q_occ.pos then show_ (d.wr R.EVT_STAT_q_occ [] d.evt.queue.length)
  else if p = R.EVT_SRC_ring_a0.pos ∧ evtDefaultH i = 0 then (d, 0)
  else if p = R.HRD_TEMP_temp_c.pos then show_ (d.wr R.HRD_TEMP_island ix (Config.sensorIsland i).toNat)
  else if p = R.LCS_DEBUG_open.pos then
    show_ (match d.lcs.session with | some x => d.wr R.LCS_DEBUG_remaining_s [] (d.remaining x) | none => d)
  else if p = R.BST_FAIL_LOG_macro.pos then let x := readFailLog u d; (x.1, x.2 * 2 ^ (64 * u))
  else if p = R.DRV_THR_PC_pc.pos then
    let t := ix.getD 1 0
    if d.halted i = true ∨ d.thrState i t = 3 then (d, (d.thr i t).pc % 65536) else d.draw 16
  else show_ d

/-- A read of the enabled bytes of the unit at offset `a`, a multiple of 8: device, status, value. -/
def regRead (q : Req) (a be : Nat) (d : Dev) : Dev × Nat × Nat :=
  let m := byteMask be
  match pageOf a with
  | some (true, c) =>
    if (bellAt (a % 0x1000)).isSome then (d, Sts.ok, d.doorbellRead c (a % 0x1000) &&& m) else (d, Sts.unmapped, 0)
  | some (false, _) => (d, Sts.unmapped, 0)
  | none =>
    let hits := (hitsOf a).filter fun h => h.bitsIn a m != 0
    if be = 0 then (d, Sts.ok, 0)
    else if hits.isEmpty then (d, Sts.unmapped, 0)
    else
      let x := hits.foldl (fun (p : Dev × Nat × Nat) h =>
        if p.1.hitOn h a then
          let x := readReg q h.reg h.ix ((8 * a - h.base) / 64) p.1
          (x.1, p.2.1, p.2.2 + h.bitsOut a x.2)
        else (p.1, worst p.2.1 Sts.poweredOff, p.2.2)) (d, Sts.ok, 0)
      (x.1, x.2.1, x.2.2 &&& m)

/-! ### The commands -/

/-- REGISTER_WRITE: a write of a register that has no row of its own. -/
def execRegisterWrite (inp : Fin 101) (desc : Bool) (a : BitVec 21) (be : BitVec 8) (v : BitVec 64) (s : State) :
    Host.Outcome State Fault Refusal :=
  run s fun d =>
    let q : Req := ⟨inp, desc⟩
    let x := regWrite q (8 * a.toNat) be.toNat v.toNat d
    match x.2 with
    | some st => x.1.complete q st 0
    | none => x.1

/-- CAUSE_ENABLE_WRITE: a write of DRV_EVT_EN, DDR_CH_EVT_EN or FAB_USER_EVT_EN. -/
def execCauseEnableWrite (inp : Fin 101) (desc : Bool) (src : Fin 320) (be : BitVec 8) (v : BitVec 64) (s : State) :
    Host.Outcome State Fault Refusal :=
  run s fun d =>
    let q : Req := ⟨inp, desc⟩
    let go := fun (f : Field) (ix : List Nat) =>
      let sh := f.key ix % 64 / 8
      let x := regWrite q (f.key ix / 64 * 8) (be.toNat % 2 ^ (8 - sh) * 2 ^ sh) (v.toNat * 2 ^ (8 * sh)) d
      x.1.complete q (x.2.getD Sts.ok) 0
    let k := src.val
    if k = Ev.fabricUser then go R.FAB_USER_EVT_EN_en []
    else if Ev.drover ≤ k ∧ k < Ev.fabricUser then go R.DRV_EVT_EN_fault [k - Ev.drover]
    else if Ev.ddr ≤ k ∧ k < Ev.ddr + 12 then go R.DDR_CH_EVT_EN_corr_thr [k - Ev.ddr]
    else d

/-- RING_LOCK: a write of SYS_RING_LOCK.lock. -/
def execRingLock (inp : Fin 101) (s : State) : Host.Outcome State Fault Refusal :=
  run s fun d => (ringLock inp d).complete ⟨inp, false⟩ Sts.ok 0

/-- A management request of island `i` is served as input 96; one outstanding when section 0 enters
reconfiguration still takes effect and its response is discarded (R303, R304). -/
def fabMgmt (i : Nat) (write : Bool) (a be v : Nat) (d : Dev) : Dev :=
  let held := (d.rd R.FAB_ISL_STAT_sect_rcfg [i]).testBit 0
  if d.fabRuns i = false ∧ held = false then d
  else
    let q : Req := ⟨96, false⟩
    let x : Dev × Option Nat × Nat :=
      if write then (let w := regWrite q a be v d; (w.1, w.2, 0))
      else let r := regRead q a be d; (r.1, some r.2.1, r.2.2)
    let d := (x.1.wr R.FAB_MGMT_STAT_last [] i).bumpWrap R.FAB_MGMT_STAT_served []
    match x.2.1 with
    | some st => (if held then d else d.emit (.mgmt i st x.2.2)).denied 96 st
    | none => d

/-- FAB_MGMT_REQUEST. -/
def execFabMgmtRequest (i : Fin 64) (write : Bool) (a : BitVec 21) (be : BitVec 8) (v : BitVec 64) (s : State) :
    Host.Outcome State Fault Refusal := run s (fabMgmt i write (8 * a.toNat) be.toNat v.toNat)

end Sys2Proof.Machine
end

