-- ==== Sys2Proof/Machine/Clocks.lean ====
section
/-! DEFINITION. Chapter 02: the marker, with what a step of Reckoning time does beyond the timebase (R53, R54,
R185). -/

namespace Sys2Proof.Machine

/-- MARKER_EDGE: 256 timebase cycles pass; at a step, rosters seek their slots from the new time. -/
def markerEdge (d : Dev) : Dev :=
  let steps := !d.tim.stepReqs.isEmpty || d.tim.servoStep.isSome
  let pre := (d.tim.now + 256 * (281474976710656 + d.tim.rate).toNat) / unitsPerBead
  let d := d.marker
  if steps then [0, 1].foldl (fun (d : Dev) q => d.rosterStep q pre d.now) d else d

/-- MARKER_EDGE. -/
def execMarkerEdge (s : State) : Host.Outcome State Fault Refusal := run s markerEdge

end Sys2Proof.Machine
end

