-- ==== Sys2Proof/Machine/ConfigApply.lean ====
section
/-! DEFINITION. Chapter 09: the writing of an image, by a full load, by an apply, by an exit from a low-power state
(R306, R313, R320, R341 to R347, R479). -/

namespace Sys2Proof.Machine

/-- Where the records of an image come from and go: the NV address of the image, its header, the number its first
segment has among the keys kept, the island a partial image is redirected to (R341). -/
structure ImgCtx where
  base : Option Nat
  hdr : List Byte
  seg0 : Nat
  target : Option Nat

/-- The island of a FRAMES or GRANARY record. -/
def ImgCtx.island (x : ImgCtx) (i : Nat) : Nat := x.target.getD i

/-- A frame is written, with where its NV copy stands. -/
def Dev.putFrame (d : Dev) (f v : Nat) (src : Option FrameSrc) : Dev :=
  d.withCfg fun c => { c with
    frames := tset 0 c.frames f v
    bad := c.bad.filter (· ≠ f)
    src := tset none c.src f src }

/-- The frames of a FRAMES record. -/
def Dev.putFrames (d : Dev) (x : ImgCtx) (r : ImgRec) : Dev :=
  (List.range (r.data.length / 256)).foldl (fun (d : Dev) j =>
    let t := r.target + j
    let f := x.island (t / 4096) * 4096 + t % 4096
    let src := x.base.map fun b =>
      { addr := b + hSegOff x.hdr r.seg + r.pos + 256 * j, seg := x.seg0 + r.seg, blk := (r.pos + 256 * j) / 16 : FrameSrc }
    d.putFrame f (ofLe ((r.data.drop (256 * j)).take 256)) src) d

/-- One pair of a REG record: a 64-bit write by the configuration controller, which ring lock does not stop. The
fields of FAB_ISL_CFG, read-only to every requester, are loaded by it. -/
def Dev.putPair (d : Dev) (x : ImgCtx) (p : Nat × Nat) : Dev :=
  let off := match x.target with | some t => 0x61000 + 0x40 * t + p.1 % 0x40 | none => p.1
  let d := (regWrite ⟨101, true⟩ off 255 p.2 d).1
  if 0x61000 ≤ off ∧ off < 0x62000 ∧ off % 0x40 = 0x10 then
    let i := [(off - 0x61000) / 0x40]
    [R.FAB_ISL_CFG_tclk, R.FAB_ISL_CFG_sclk, R.FAB_ISL_CFG_mclk].foldl (fun (d : Dev) f =>
      d.wr f i (f.of R.FAB_ISL_CFG_tclk.pos p.2)) d
  else d

/-- One record is carried out (Table 09-3). -/
def Dev.putRec (d : Dev) (x : ImgCtx) (r : ImgRec) : Dev :=
  let t := r.target
  match r.type with
  | 1 => d.putFrames x r
  | 2 => d.withCfg fun c => { c with gran := tset 0 c.gran (40 * x.island (t / 64) + t % 64) (ofLe r.data) }
  | 3 => d.setBytes (imemKey (t % 128) (bits t 16 16)) r.data
  | 4 => d.setBytes (droverPrivate (t % 128) + bits t 16 18) r.data
  | 5 => d.setBytes (0x40000000 + 0x400000 * (t % 16) + bits t 16 22) r.data
  | 6 => (regPairs r.data).foldl (fun (d : Dev) p => d.putPair x p) d
  | _ => d

/-- The records of an image, in order. -/
def Dev.putRecs (d : Dev) (x : ImgCtx) (l : List ImgRec) : Dev := l.foldl (fun (d : Dev) r => d.putRec x r) d

/-- What the header of a full image sets (Table 09-1). -/
def Dev.putHeader (d : Dev) (h : List Byte) : Dev :=
  let d := (d.wr R.CFG_IMG_ID_build_id [] (hLe h 0x80 32)).wr R.CFG_PHASE_phase [] (hLe h 0x30 16)
  let d := d.wr R.CFG_PHASE_bell_wait [] (hLe h 0x2C 2)
  (List.range 64).foldl (fun (d : Dev) i => d.wr R.FAB_ISL_CLKDIV_fmax_mhz [i] (hLe h (0x100 + 2 * i) 2)) d

/-- The load has ended with OK and start-up begins. -/
def Dev.loadPassed (d : Dev) (h : List Byte) : Dev :=
  let d := ((d.logLoad 0).wr R.CFG_LOAD_LOG_bytes [] (hLen h)).wr R.CFG_LOAD_LOG_fail_off [] 0
  let d := (d.wr R.CFG_STATUS_state [] 2).wr R.CFG_STATUS_phase [] 0
  d.withCfg fun c => { c with slave := { c.slave with ready := false, busy := true } }

/-- What a full load reads now: the image, and what the checks find. None while it must wait: the NV bank is busy
(R16, R324), or bytes of the slave port have not come. -/
def Dev.loadNow (d : Dev) (bad : Option Nat) : Option (List Byte × LoadRes) :=
  let src := d.rd R.CFG_STATUS_src
  if d.cfgState ≠ 1 ∨ 4 < src ∨ (src < 3 ∧ d.nvBusy src = true) then none
  else
    let (img, space) := d.loadBytes
    let r := d.evalLoad false img space (if src < 3 then bad.map fun o => (o, 9) else none) false
    if r.more then none else some (img, r)

/-- The end of a boot load or RELOAD; `bad` is the offset at which the NV array stays uncorrectable. -/
def loadDone (bad : Option Nat) (d : Dev) : Dev :=
  if d.cfg.load ≠ 1 ∧ d.cfg.load ≠ 2 then d else
  match d.loadNow bad with
  | none => d
  | some (img, r) =>
    let d := d.loadSenses (match bad with | some o => o | none => min partSize (hLen img)) bad.isSome
    if r.code ≠ 0 then d.failLoad r.code r.passed
    else
      let src := d.rd R.CFG_STATUS_src
      let mask := hMask img
      let isl := setBitsOf 64 mask
      let d := d.withCfg fun c => { c with
        frames := [], bad := [], src := [], gran := [], keys := r.keys, mask := mask, part := [], stopped := []
        mapId := isl.map fun i => (i, hLe img 0x20 4 + 1) }
      let d := (d.putHeader img).putRecs ⟨if src < 3 then some (partBase src) else none, img, 0, none⟩ r.recs
      let d := isl.foldl (fun (d : Dev) i => d.wr R.FAB_ISL_STAT_state [i] 1) d
      (d.loadPassed img).setFlock false

/-- What an exit writes again: drover memories and the unkept drove memories and granaries, frames after HIBERNATE
(Table 14-5); REG records always; no granary record of an island that took a partial apply. -/
def Dev.exitKeeps (d : Dev) (frames : Bool) (r : ImgRec) : Bool :=
  match r.type with
  | 1 => frames
  | 2 => !(d.rd R.PWR_RET_gran_grp).testBit (r.target / 64 / 8) && !decide (r.target / 64 ∈ d.cfg.part)
  | 5 => !(d.rd R.PWR_RET_drove).testBit (r.target % 16)
  | _ => true

/-- EXIT_RELOAD_DONE: the image is read again and written as far as R479 says; start-up follows after bell_wait. -/
def exitReloadDone (bad : Option Nat) (d : Dev) : Dev :=
  if d.cfg.load ≠ 3 then d else
  match d.loadNow bad with
  | none => d
  | some (img, r) =>
    let d := d.loadSenses (match bad with | some o => o | none => min partSize (hLen img)) bad.isSome
    if r.code ≠ 0 then d.failLoad r.code r.passed
    else
      let deep := d.pwr.exitFrom == 3
      let mask := hMask img
      let d1 := d.putRecs ⟨some (partBase (d.rd R.CFG_STATUS_src)), img, 0, none⟩ (r.recs.filter (d.exitKeeps deep))
      let d1 := d1.withCfg fun c => if deep then { c with
          keys := r.keys, mask := mask, part := [], stopped := []
          mapId := (setBitsOf 64 mask).map fun i => (i, hLe img 0x20 4 + 1) } else c
      (d1.loadPassed img).withCfg fun c => { c with seenAt := d.clock + 1, seenHigh := true, pulsed := false, pacedAt := 0 }

/-! ### The end of an apply (Tables 09-8 and 09-9) -/

/-- The islands' sections named take the staged image. -/
def Dev.putPartial (d : Dev) (x : PrSlot) : Dev :=
  let sect := hSect x.hdr
  let i := x.target
  let d := d.zeroFrames i sect
  let d := d.withCfg fun c => { c with
    gran := c.gran.filter fun (e : Nat × Nat) => !(e.1 / 40 == i && sect.testBit (e.1 % 40 / 5))
    keys := c.keys ++ x.keys
    part := if i ∈ c.part then c.part else c.part ++ [i]
    mapId := tset 0 c.mapId i (hLe x.hdr 0x20 4 + 1)
    stopped := c.stopped.filter fun s => !(s / 8 == i && sect.testBit (s % 8)) }
  d.putRecs ⟨x.base, x.hdr, d.cfg.keys.length - x.keys.length, some i⟩ x.recs

/-- Flip-flops of the target take the states captured of `src`, or their init values, which the model does not
know. -/
def Dev.restoreFf (d : Dev) (src target : Nat) (restore : Bool) : Dev :=
  if restore then { d with fab := { d.fab with ff := tset 0 d.fab.ff target (tget 0 d.fab.ff src) } } else d.captureFf target

/-- The target is released and the slot's apply is reported. -/
def Dev.applyEnds (d : Dev) (s : Nat) (x : PrSlot) (st freeze : Nat) : Dev :=
  let i := x.target
  let d := d.setFabIsl i { clk := true, reset := false, gran := true, ports := true }
  let d := ((d.wr R.FAB_ISL_STAT_state [i] 2).wr R.FAB_ISL_STAT_sect_rcfg [i] 0).wr R.FAB_ISL_STILE_frozen [i] 0
  ((d.prEnd s st 0).wr R.CFG_PR_STAT_freeze_ns [s] freeze).raise Ev.prDone (s + 256 * i)

/-- APPLY_DONE: the apply of slot `s` ends; `freeze` is its length in ns, `bad` says that DDR4 returned an
uncorrectable error (R347). -/
def applyDone (s freeze : Nat) (bad : Bool) (d : Dev) : Dev :=
  let x := d.prSlot s
  if d.prState s ≠ 4 then d
  else if bad then
    let d := ((d.zeroFrames x.target (if x.move then 255 else hSect x.hdr)).setFabIsl x.target {}).setIsland x.target 1
    let d := (d.wr R.FAB_ISL_STAT_state [x.target] 0).wr R.FAB_ISL_STAT_sect_rcfg [x.target] 0
    (d.wr R.FAB_ISL_STILE_frozen [x.target] 0).prEnd s 7 5
  else if x.move = false then
    (((d.putPartial x).restoreFf x.target x.target (hRestore x.hdr))).applyEnds s x 6 freeze
  else if d.now < x.at_ then d
  else
    let i := x.source
    let d := (d.captureFf i).setFabIsl i { d.fabIsl i with clk := false }
    let d := (d.wr R.FAB_ISL_STAT_state [i] 3).wr R.FAB_ISL_STILE_frozen [i] 15
    (((d.putPartial x).restoreFf i x.target (hRestore x.hdr))).applyEnds s x 5 freeze

/-! ### The commands -/

/-- LOAD_DONE. -/
def execLoadDone (bad : Option Nat) (s : State) : Host.Outcome State Fault Refusal := run s (loadDone bad)

/-- EXIT_RELOAD_DONE. -/
def execExitReloadDone (bad : Option Nat) (s : State) : Host.Outcome State Fault Refusal := run s (exitReloadDone bad)

/-- APPLY_DONE. -/
def execApplyDone (k : Fin 4) (freeze : BitVec 32) (bad : Bool) (s : State) : Host.Outcome State Fault Refusal :=
  run s (applyDone k freeze.toNat bad)

end Sys2Proof.Machine
end

