-- ==== Sys2Proof/Machine/Space.lean ====
section
/-! DEFINITION. The whole device address space (Table 01-7, R38) as an arbitration input reaches it: the setup
registers by the bytes an access covers, and the memories. -/

namespace Sys2Proof.Machine

/-- The setup register space (Table 01-7). -/
def inSetup (a len : Nat) : Bool := decide (a + len ≤ 0x1000000)

/-- The 8-byte units a range touches: the unit's address, the first byte within it, how many bytes. -/
def unitPieces (fuel a len : Nat) : List (Nat × Nat × Nat) :=
  match fuel with
  | 0 => []
  | fuel + 1 =>
    if len = 0 then []
    else
      let n := min len (8 - a % 8)
      (a / 8 * 8, a % 8, n) :: unitPieces fuel (a + n) (len - n)

/-- The byte enables of `n` bytes from byte `k` of a unit. -/
def unitEnables (k n : Nat) : Nat := (2 ^ n - 1) * 2 ^ k

/-- A range of the setup register space is read unit by unit in ascending order. -/
def setupRead (q : Req) (a len : Nat) (d : Dev) : Dev × Nat × List Byte :=
  (unitPieces (len / 8 + 2) a len).foldl (fun (r : Dev × Nat × List Byte) p =>
    let x := regRead q p.1 (unitEnables p.2.1 p.2.2) r.1
    (x.1, worst r.2.1 x.2.1, r.2.2 ++ leBytes p.2.2 (x.2.2 / 256 ^ p.2.1))) (d, Sts.ok, [])

/-- A range of the setup register space is written unit by unit in ascending order; a write that waits has
completed for its requester (log entry 113). -/
def setupWrite (q : Req) (a : Nat) (l : List Byte) (d : Dev) : Dev × Nat :=
  let r := (unitPieces (l.length / 8 + 2) a l.length).foldl (fun (r : Dev × Nat × List Byte) p =>
    let x := regWrite q p.1 (unitEnables p.2.1 p.2.2) (ofLe (r.2.2.take p.2.2) * 256 ^ p.2.1) r.1
    (x.1, worst r.2.1 (x.2.getD Sts.ok), r.2.2.drop p.2.2)) (d, Sts.ok, l)
  (r.1, r.2.1)

/-- A read of the device address space by an arbitration input. -/
def spaceRead (q : Req) (a len : Nat) (errs : List (Nat × Nat)) (f : NvFind) (d : Dev) : Dev × Nat × List Byte :=
  if inSetup a len then setupRead q a len d else d.memRead q.inp a len errs f

/-- A write of the device address space by an arbitration input. -/
def spaceWrite (q : Req) (a : Nat) (l : List Byte) (errs : List (Nat × Nat)) (d : Dev) : Dev × Nat :=
  if inSetup a l.length then setupWrite q a l d else d.memWrite q.inp a l errs

/-- The units of a transfer (log entry 120): 8-byte units of the setup register space, 64-byte lines elsewhere. -/
def transferPieces (fuel a len : Nat) : List (Nat × Nat) :=
  match fuel with
  | 0 => []
  | fuel + 1 =>
    if len = 0 then []
    else
      let g := if a < 0x1000000 then 8 else 64
      let n := min len (g - a % g)
      (a, n) :: transferPieces fuel (a + n) (len - n)

/-- The largest naturally aligned write of at most 64 bytes that begins at `a` (R429). -/
def naturalSize (a len : Nat) : Nat := ([64, 32, 16, 8, 4, 2].find? fun n => a % n == 0 && decide (n ≤ len)).getD 1

/-- The writes of a range of the NV aperture (R429). -/
def naturalPieces (fuel a len : Nat) : List (Nat × Nat) :=
  match fuel with
  | 0 => []
  | fuel + 1 => if len = 0 then [] else (a, naturalSize a len) :: naturalPieces fuel (a + naturalSize a len) (len - naturalSize a len)

/-- The writes of a MEM_WRITE. -/
def writePieces (a len : Nat) : List (Nat × Nat) := if inNv a then naturalPieces len a len else transferPieces len a len

/-- A transfer out of the device address space stops at the first failure: device, status, the bytes before it. -/
def transferRead (q : Req) (a len : Nat) (errs : List (List (Nat × Nat))) (f : List NvFind) (d : Dev) :
    Dev × Nat × List Byte :=
  let ps := transferPieces len a len
  (ps.zip (List.range ps.length)).foldl (fun (r : Dev × Nat × List Byte) x =>
    if r.2.1 ≠ 0 then r
    else
      let y := spaceRead q x.1.1 x.1.2 (errs.getD x.2 []) (f.getD x.2 {}) r.1
      (y.1, y.2.1, if y.2.1 = 0 then r.2.2 ++ y.2.2 else r.2.2)) (d, Sts.ok, [])

/-- A transfer into the device address space stops at the first failure: device, status, how many bytes moved. -/
def transferWrite (q : Req) (a : Nat) (l : List Byte) (errs : List (List (Nat × Nat))) (d : Dev) : Dev × Nat × Nat :=
  let ps := writePieces a l.length
  (ps.zip (List.range ps.length)).foldl (fun (r : Dev × Nat × Nat) x =>
    if r.2.1 ≠ 0 then r
    else
      let y := spaceWrite q x.1.1 ((l.drop r.2.2).take x.1.2) (errs.getD x.2 []) r.1
      (y.1, y.2, if y.2 = 0 then r.2.2 + x.1.2 else r.2.2)) (d, Sts.ok, 0)

end Sys2Proof.Machine
end

