-- ==== Sys2Proof/Machine/Sacon.lean ====
section
/-! DEFINITION. Chapter 12: discovery, connections, congestion, direct access (R407 to R420, R437). `q` and `n` of a
message are the port it came in on and the frames of that port's priority 7 buffer it took. -/

namespace Sys2Proof.Machine

/-- The Sacon engine runs: island 103. -/
def runSac (s : State) (f : Dev → Dev) : Host.Outcome State Fault Refusal :=
  run s fun d => if d.island 103 ≠ 0 then d else f d

/-- The oldest priority 7 frame of a port leaves its buffer. -/
def Dev.takeP7One (d : Dev) (q : Nat) : Dev :=
  match tget [] d.prt.p7 q with
  | [] => d
  | f :: rest => (d.withPrt fun p => { p with p7 := tset [] p.p7 q rest }).leaveIngress f

/-- The `n` oldest priority 7 frames of a port leave its buffer. -/
def Dev.takeP7 (d : Dev) (q n : Nat) : Dev :=
  (List.range (min n (tget [] d.prt.p7 q).length)).foldl (fun (d : Dev) _ => d.takeP7One q) d

/-! ### Addresses and discovery (R407 to R409) -/

/-- The MAC address of the sub-port that carries Sacon. -/
def Dev.saconMac (d : Dev) (q : Nat) : Nat := d.rd R.PRT_MAC_ADDR_addr [q, d.rd R.SAC_NET_subport [q]]

/-- The reply to a discovery request (Table 12-1). -/
def Dev.discoveryReply (d : Dev) (q nonce : Nat) : List Byte :=
  let flags := d.rd R.SAC_CTRL_bound [0] + 2 * d.rd R.SAC_CTRL_bound [1] + 4 * d.rd R.SYS_RING_LOCK_lock
  beBytes 4 0x53414344 ++ [1, 1, 0, 0] ++ beBytes 8 nonce ++ beBytes 2 0x9640 ++ beBytes 2 0x44D9
    ++ leBytes 1 (d.rd R.SYS_ID_rev) ++ leBytes 1 d.lcState ++ leBytes 1 flags
    ++ leBytes 1 (q + 2 * d.rd R.SAC_NET_subport [q]) ++ beBytes 16 (d.rd R.SYS_UID_uid)
    ++ beBytes 4 (d.rd R.SAC_NET_ipv4 [q]) ++ beBytes 16 (d.rd R.SAC_NET_ipv6 [q]) ++ [0, 0, 0, 0]

/-- A discovery request: one reply, at most 1,000 a second on a port. -/
def discovery (q n src sport magic ver type nonce : Nat) (d : Dev) : Dev :=
  let d := d.takeP7 q n
  let sec := d.clock / beadsPerSec + 1
  let sent := if tget 0 d.sac.discSec q = sec then tget 0 d.sac.discCount q else 0
  if d.flag R.SAC_CFG_disc_en = false ∨ magic ≠ 0x53414344 ∨ ver ≠ 1 ∨ type ≠ 0 ∨ 1000 ≤ sent then d
  else
    let d := d.withSac fun s => { s with discSec := tset 0 s.discSec q sec, discCount := tset 0 s.discCount q (sent + 1) }
    d.sacSend q Msg.discovery src sport (d.discoveryReply q nonce)

/-- An ARP request whose target is the port's IPv4 Sacon address. -/
def arpRequest (q spa tpa : Nat) (d : Dev) : Dev :=
  if tpa = 0 ∨ tpa ≠ d.rd R.SAC_NET_ipv4 [q] then d
  else d.sacSend q Msg.arp spa 0 (beBytes 6 (d.saconMac q) ++ beBytes 4 tpa)

/-- A Neighbour Solicitation whose target is an IPv6 Sacon address of the port. -/
def neighbourSolicitation (q src target : Nat) (d : Dev) : Dev :=
  if target ≠ d.linkLocal ∧ (target = 0 ∨ target ≠ d.rd R.SAC_NET_ipv6 [q]) then d
  else d.sacSend q Msg.advert src 0 (beBytes 16 target ++ beBytes 6 (d.saconMac q))

/-! ### Connections (R410 to R413) -/

/-- SAC_QP.mtu of a path MTU. -/
def mtuCode (mtu : Nat) : Option Nat :=
  if mtu = 1024 then some 1 else if mtu = 2048 then some 2 else if mtu = 4096 then some 3 else none

/-- The path MTU of a queue pair in bytes. -/
def Dev.mtuOf (d : Dev) (c i : Nat) : Nat := 512 * 2 ^ d.rd R.SAC_QP_mtu [c, i]

/-- A source address is within SAC_PEER.addr/prefix; one below 2^32 is IPv4. -/
def Dev.peerMatch (d : Dev) (c src : Nat) : Bool :=
  let w := if d.flag R.SAC_PEER_ipv6 [c] then 128 else 32
  let sh := 2 ^ (w - d.rd R.SAC_PEER_prefix [c])
  decide (2 ^ 32 ≤ src) == d.flag R.SAC_PEER_ipv6 [c] && src / sh == d.rd R.SAC_PEER_addr [c] % 2 ^ w / sh

/-- A REQ for a controller may come from this source (R411). -/
def Dev.peerOk (d : Dev) (c src : Nat) : Bool :=
  let b := tget 0 d.sac.bind c
  (if d.flag R.SAC_PEER_en [c] then d.peerMatch c src else b != 0 || d.rtsCount c == 0) && (b == 0 || b == src + 1)

/-- A queue pair is connected or on its way. -/
def Dev.qpInUse (d : Dev) (c i : Nat) : Bool := [1, 2, 4].contains (d.rd R.SAC_QP_state [c, i])

/-- The private data of a REQ as it stands: version, controller, halter role, QP index; none when it is bad. The
bits of byte 1 that have no meaning must be zero (log entry 121). -/
def reqData (pd : Nat) : Option (Nat × Nat) :=
  let i := if bits pd 9 1 = 1 then 15 else bits pd 16 8
  if bits pd 0 8 ≠ 1 ∨ bits pd 10 6 ≠ 0 ∨ bits pd 24 8 ≠ 0 ∨ (bits pd 9 1 = 0 ∧ 14 < i) then none
  else some (bits pd 8 1, i)

/-- The line rate of the sub-port that carries Sacon on a port, Mbit/s. -/
def Dev.lineMbps (d : Dev) (q : Nat) : Nat := 1000 * rateGbps (d.rd R.PRT_CFG_mode [q])

/-- A queue pair connects: its keys, its number and its first PSN are the device's choice, free values. -/
def Dev.qpConnect (d : Dev) (c i q src mac mtu peer psn limit : Nat) : Dev :=
  let (d, setup) := d.draw 32
  let (d, door) := d.draw 32
  let (d, qpn) := d.draw 24
  let (d, sq) := d.draw 24
  let line : Dyad := ⟨d.lineMbps q, 0⟩
  let d := d.setQp c i { setupKey := setup, doorKey := if i = 15 then 0 else door, src := src, mac := mac, port := q,
                         rate := line, target := line, limit := limit }
  let d := ((d.wr R.SAC_QP_qpn [c, i] qpn).wr R.SAC_QP_peer_qpn [c, i] peer).wr R.SAC_QP_mtu [c, i] mtu
  let d := ((d.wr R.SAC_QP_sq_psn [c, i] sq).wr R.SAC_QP_rq_psn [c, i] psn).wr R.SAC_QP_rate_mbps [c, i] (d.lineMbps q)
  let d := if tget 0 d.sac.bind c = 0 ∧ d.flag R.SAC_PEER_en [c] = false then
      (d.withSac fun s => { s with bind := tset 0 s.bind c (src + 1) }).wr R.SAC_CTRL_bound [c] 1
    else d
  let keys := if i = 15 then beBytes 4 setup else beBytes 4 setup ++ beBytes 4 door
  (d.qpEnter c i 1).sacSend q Msg.rep src 1 keys

/-- A REQ is accepted with a REP or rejected with a code of Table 12-2. -/
def cmReq (q n src mac pd mtu : Nat) (rc : Bool) (peer psn limit : Nat) (d : Dev) : Dev :=
  let d := d.takeP7 q n
  let rej := fun (code : Nat) => d.sacSend q Msg.rej src 1 (leBytes 1 code)
  match reqData pd, mtuCode mtu with
  | some (c, i), some m =>
    if rc = false then rej 4
    else if d.peerOk c src = false then rej 1
    else if d.qpInUse c i then rej (if i = 15 then 3 else 2)
    else d.qpConnect c i q src mac m peer psn limit
  | _, _ => rej 4

/-- The context of a controller's halter queue pair goes to both ports (R413). -/
def Dev.loadHalter (d : Dev) (c : Nat) : Dev :=
  let x := d.qp c 15
  let d := [0, 1].foldl (fun (d : Dev) q =>
    (((d.wr R.PRT_HALT_QP_valid [q, c] 1).wr R.PRT_HALT_QP_qpn [q, c] (d.rd R.SAC_QP_qpn [c, 15])).wr
      R.PRT_HALT_QP_peer_qpn [q, c] (d.rd R.SAC_QP_peer_qpn [c, 15])).wr
      R.PRT_HALT_QP_epsn [q, c] (d.rd R.SAC_QP_rq_psn [c, 15])) d
  d.withPrt fun p => { p with haltKey := tset 0 p.haltKey c x.setupKey, haltIp := tset 0 p.haltIp c x.src }

/-- An RTU completes a connection: the queue pair enters RTS. A controller that was lost counts its heartbeats from
here. -/
def cmRtu (q n c i : Nat) (d : Dev) : Dev :=
  let d := d.takeP7 q n
  if d.rd R.SAC_QP_state [c, i] ≠ 1 then d
  else
    let d := d.qpEnter c i 2
    let d := if i = 15 then d.loadHalter c else d
    d.withSac fun s => { s with
      hbFrom := if tget false s.gone c then tset 0 s.hbFrom c d.clock else s.hbFrom
      gone := tset false s.gone c false }

/-- A DREQ disconnects a queue pair and is answered with a DREP. -/
def cmDreq (q n c i : Nat) (d : Dev) : Dev :=
  let d := d.takeP7 q n
  if d.qpInUse c i = false then d
  else
    let x := d.qp c i
    let d := d.sacSend q Msg.drep x.src 1 []
    let d := d.qpLeave c i 0
    (if d.rtsCount c = 0 then d.unbind c else d).setQp c i {}

/-- A queue pair fails: ERROR, and the RDMA operation in progress with it. -/
def Dev.qpFail (d : Dev) (c i : Nat) : Dev := (d.qpLeave c i 3).raise Ev.rdmaFault (c * 16 + i)

/-- The ACK timeout of a queue pair passes after `made` retries of the packet. -/
def ackTimeout (c i made : Nat) (d : Dev) : Dev :=
  if d.qpRts c i = false then d
  else if made < (d.qp c i).limit then d.sacCount c 12
  else d.qpFail c i

/-- A NAK arrives on a queue pair. -/
def nakRx (q n c i : Nat) (fatal : Bool) (d : Dev) : Dev :=
  let d := d.takeP7 q n
  if d.qpRts c i = false then d
  else
    let d := d.sacCount c 13
    if fatal then d.qpFail c i else d.sacCount c 12

/-- A message to the peer of a queue pair. -/
def Dev.qpSend (d : Dev) (c i kind : Nat) (l : List Byte) : Dev :=
  d.sacSend (d.qp c i).port kind (d.qp c i).src (d.rd R.SAC_QP_peer_qpn [c, i]) l

/-- A SEND on a connected queue pair receives a NAK. -/
def sendRx (q n c i : Nat) (d : Dev) : Dev :=
  let d := d.takeP7 q n
  if d.qpRts c i = false then d else d.qpSend c i Msg.nakInvalid []

/-! ### Congestion (R414), in exact numbers -/

def Dyad.add (a b : Dyad) : Dyad := ⟨a.num * 2 ^ b.k + b.num * 2 ^ a.k, a.k + b.k⟩
def Dyad.mul (a b : Dyad) : Dyad := ⟨a.num * b.num, a.k + b.k⟩
/-- a ≤ 1 subtracted from 1. -/
def Dyad.compl (a : Dyad) : Dyad := ⟨2 ^ a.k - a.num, a.k⟩
def Dyad.half (a : Dyad) : Dyad := ⟨a.num, a.k + 1⟩
def Dyad.less (a b : Dyad) : Bool := decide (a.num * 2 ^ b.k < b.num * 2 ^ a.k)
def Dyad.floor (a : Dyad) : Nat := a.num / 2 ^ a.k

/-- A queue pair's congestion state set, with the rate it shows. -/
def Dev.setRate (d : Dev) (c i : Nat) (x : Qp) : Dev := (d.setQp c i x).wr R.SAC_QP_rate_mbps [c, i] x.rate.floor

/-- g, the weight of a mark. -/
def Dev.gOf (d : Dev) : Dyad := ⟨1, d.rd R.SAC_CFG_g_log⟩

/-- on_cnp. -/
def cnpRx (q n c i : Nat) (d : Dev) : Dev :=
  let d := d.takeP7 q n
  if d.qpRts c i = false then d
  else
    let d := d.sacCount c 10
    let x : Qp := { d.qp c i with cnp := true }
    if x.tCut ≠ 0 ∧ d.passed (x.tCut - 1 + d.rd R.SAC_CFG_cnp_us * 65536000) = false then d.setQp c i x
    else
      let low : Dyad := ⟨d.rd R.SAC_CFG_min_mbps, 0⟩
      let cut := x.rate.mul x.alpha.half.compl
      d.setRate c i { x with
        target := x.rate
        rate := if cut.less low then low else cut
        alpha := (d.gOf.compl.mul x.alpha).add d.gOf
        tCut := d.clock + 1
        stage := 0 }

/-- Every timer_us. -/
def rateTimer (c i : Nat) (d : Dev) : Dev :=
  if d.qpRts c i = false then d
  else
    let x := d.qp c i
    let line : Dyad := ⟨d.lineMbps x.port, 0⟩
    let x : Qp := { x with cnp := false, alpha := if x.cnp then x.alpha else d.gOf.compl.mul x.alpha }
    if x.rate.less line then
      let up := x.target.add ⟨d.rd R.SAC_CFG_rai_mbps, 0⟩
      let target := if 5 < x.stage + 1 then (if up.less line then up else line) else x.target
      d.setRate c i { x with stage := x.stage + 1, target := target, rate := (x.rate.add target).half }
    else d.setQp c i x

/-! ### Direct access (R413, R416 to R420) -/

/-- What a key of a queue pair reaches: the setup registers up to the pages, or its controller's doorbell page. -/
def Dev.keyReaches (d : Dev) (c i key va len : Nat) : Bool :=
  let x := d.qp c i
  (key == x.setupKey && decide (va + len ≤ 0xF00000)) ||
    (key == x.doorKey && decide (0xF00000 + 0x1000 * c ≤ va ∧ va + len ≤ 0xF01000 + 0x1000 * c))

/-- A unit of a direct access that did not complete OK (R418). -/
def Dev.directFail (d : Dev) (c off st : Nat) (write : Bool) : Dev :=
  let x := [c]
  let d := ((d.wr R.SAC_DIRECT_LOG_off x off).wr R.SAC_DIRECT_LOG_status x st).wr R.SAC_DIRECT_LOG_write x (bit write)
  let d := ((d.wr R.SAC_DIRECT_LOG_valid x 1).bump R.SAC_DIRECT_LOG_count x).wr R.SAC_DIRECT_LOG_time x d.nowRaw
  ((d.sacCount c 7).raise Ev.directErr c).denied (97 + c) st

/-- A unit of a direct access ends. -/
def Dev.directUnit (d : Dev) (c off st : Nat) (write : Bool) : Dev :=
  let d := d.sacCount c (if write then 6 else 5)
  if st = 0 then d else d.directFail c off st write

/-- The packets of a message of `len` bytes. -/
def Dev.packets (d : Dev) (c i len : Nat) : Nat := max 1 ((len + d.mtuOf c i - 1) / d.mtuOf c i)

/-- A queue pair has taken a request of `len` bytes. -/
def Dev.advanceRq (d : Dev) (c i len : Nat) : Dev :=
  d.wr R.SAC_QP_rq_psn [c, i] (d.rd R.SAC_QP_rq_psn [c, i] + d.packets c i len)

/-- The 8-byte units of a byte string. -/
def words (n : Nat) (l : List Byte) : List Nat := (List.range n).map fun k => ofLe ((l.drop (8 * k)).take 8)

/-- A direct RDMA WRITE. -/
def directWrite (q n c i key va : Nat) (l : List Byte) (d : Dev) : Dev :=
  let d := d.takeP7 q n
  if d.qpRts c i = false then d
  else if d.keyReaches c i key va l.length = false then d.qpSend c i Msg.nakAccess []
  else if va % 8 ≠ 0 ∨ l.length % 8 ≠ 0 then d.qpSend c i Msg.nakInvalid []
  else
    let units := words (l.length / 8) l
    let d := (units.zip (List.range units.length)).foldl (fun (d : Dev) x =>
      let off := va + 8 * x.2
      let r := regWrite ⟨97 + c, false⟩ off 255 x.1 d
      r.1.directUnit c off (r.2.getD Sts.ok) true) (d.advanceRq c i l.length)
    d.qpSend c i Msg.ack []

/-- A direct RDMA READ; a unit that does not complete OK returns zero. -/
def directRead (q n c i key va len : Nat) (d : Dev) : Dev :=
  let d := d.takeP7 q n
  if d.qpRts c i = false then d
  else if d.keyReaches c i key va len = false then d.qpSend c i Msg.nakAccess []
  else if va % 8 ≠ 0 ∨ len % 8 ≠ 0 ∨ 4096 < len then d.qpSend c i Msg.nakInvalid []
  else
    let r := (List.range (len / 8)).foldl (fun (p : Dev × List Byte) k =>
      let off := va + 8 * k
      let x := regRead ⟨97 + c, false⟩ off 255 p.1
      (x.1.directUnit c off x.2.1 false, p.2 ++ leBytes 8 (if x.2.1 = 0 then x.2.2 else 0))) (d.advanceRq c i len, [])
    r.1.qpSend c i Msg.readResponse r.2

/-! ### The loss of a controller (R437) -/

/-- No heartbeat has come for hb_ms. -/
def heartbeatTimeout (c : Nat) (d : Dev) : Dev :=
  let ms := d.rd R.SAC_CTRL_hb_ms [c]
  if ms = 0 ∨ d.passed (tget 0 d.sac.hbFrom c + ms * 65536000000) = false then d else d.ctrlLost c

/-! ### The commands -/

/-- DISCOVERY_REQUEST: source address and port, and the fields of the request. -/
def execDiscoveryRequest (q : Fin 2) (n : Nat) (src : BitVec 128) (sport : BitVec 16) (magic : BitVec 32)
    (ver type : BitVec 8) (nonce : BitVec 64) (s : State) : Host.Outcome State Fault Refusal :=
  runSac s (discovery q n src.toNat sport.toNat magic.toNat ver.toNat type.toNat nonce.toNat)

/-- ARP_REQUEST. -/
def execArpRequest (q : Fin 2) (spa tpa : BitVec 32) (s : State) : Host.Outcome State Fault Refusal :=
  runSac s (arpRequest q spa.toNat tpa.toNat)

/-- NEIGHBOUR_SOLICITATION. -/
def execNeighbourSolicitation (q : Fin 2) (src target : BitVec 128) (s : State) : Host.Outcome State Fault Refusal :=
  runSac s (neighbourSolicitation q src.toNat target.toNat)

/-- CM_REQ: the four bytes of private data, byte 0 lowest, path MTU, transport RC, the peer's QP number and PSN, the
retry count. -/
def execCmReq (q : Fin 2) (n : Nat) (src : BitVec 128) (mac : BitVec 48) (pd : BitVec 32) (mtu : BitVec 16) (rc : Bool)
    (peer psn : BitVec 24) (limit : BitVec 3) (s : State) : Host.Outcome State Fault Refusal :=
  runSac s (cmReq q n src.toNat mac.toNat pd.toNat mtu.toNat rc peer.toNat psn.toNat limit.toNat)

/-- CM_RTU. -/
def execCmRtu (q : Fin 2) (n : Nat) (c : Fin 2) (i : Fin 16) (s : State) : Host.Outcome State Fault Refusal :=
  runSac s (cmRtu q n c i)

/-- CM_DREQ. -/
def execCmDreq (q : Fin 2) (n : Nat) (c : Fin 2) (i : Fin 16) (s : State) : Host.Outcome State Fault Refusal :=
  runSac s (cmDreq q n c i)

/-- ACK_TIMEOUT after `made` retries. -/
def execAckTimeout (c : Fin 2) (i : Fin 16) (made : BitVec 3) (s : State) : Host.Outcome State Fault Refusal :=
  runSac s (ackTimeout c i made.toNat)

/-- NAK_RX. -/
def execNakRx (q : Fin 2) (n : Nat) (c : Fin 2) (i : Fin 16) (fatal : Bool) (s : State) : Host.Outcome State Fault Refusal :=
  runSac s (nakRx q n c i fatal)

/-- SEND_RX. -/
def execSendRx (q : Fin 2) (n : Nat) (c : Fin 2) (i : Fin 16) (s : State) : Host.Outcome State Fault Refusal :=
  runSac s (sendRx q n c i)

/-- DIRECT_RDMA_WRITE. -/
def execDirectRdmaWrite (q : Fin 2) (n : Nat) (c : Fin 2) (i : Fin 15) (key : BitVec 32) (va : BitVec 64)
    (l : List Byte) (s : State) : Host.Outcome State Fault Refusal :=
  runSac s (directWrite q n c i key.toNat va.toNat l)

/-- DIRECT_RDMA_READ. -/
def execDirectRdmaRead (q : Fin 2) (n : Nat) (c : Fin 2) (i : Fin 15) (key : BitVec 32) (va : BitVec 64)
    (len : BitVec 32) (s : State) : Host.Outcome State Fault Refusal :=
  runSac s (directRead q n c i key.toNat va.toNat len.toNat)

/-- CNP_RX. -/
def execCnpRx (q : Fin 2) (n : Nat) (c : Fin 2) (i : Fin 16) (s : State) : Host.Outcome State Fault Refusal :=
  runSac s (cnpRx q n c i)

/-- RATE_TIMER. -/
def execRateTimer (c : Fin 2) (i : Fin 16) (s : State) : Host.Outcome State Fault Refusal := runSac s (rateTimer c i)

/-- COMMAND_DOORBELL. -/
def execCommandDoorbell (c : Fin 2) (r : Fin 8) (v : BitVec 32) (s : State) : Host.Outcome State Fault Refusal :=
  runSac s fun d => d.doorbell c (8 * r) v.toNat

/-- COMPLETION_DOORBELL. -/
def execCompletionDoorbell (c : Fin 2) (r : Fin 8) (v : BitVec 32) (s : State) : Host.Outcome State Fault Refusal :=
  runSac s fun d => d.doorbell c (0x40 + 8 * r) v.toNat

/-- EVENT_DOORBELL. -/
def execEventDoorbell (c e : Fin 2) (v : BitVec 32) (s : State) : Host.Outcome State Fault Refusal :=
  runSac s fun d => d.doorbell c (0x80 + 8 * e) v.toNat

/-- HEARTBEAT. -/
def execHeartbeat (c : Fin 2) (v : BitVec 32) (s : State) : Host.Outcome State Fault Refusal :=
  runSac s fun d => d.doorbell c 0xF8 v.toNat

/-- HEARTBEAT_TIMEOUT. -/
def execHeartbeatTimeout (c : Fin 2) (s : State) : Host.Outcome State Fault Refusal := runSac s (heartbeatTimeout c)

end Sys2Proof.Machine
end

