-- ==== Sys2Proof/Machine/Descriptors.lean ====
section
/-! DEFINITION. Chapter 12: command descriptors (R423 to R432) and the control of rings. A descriptor's command
carries what its host memory accesses bring; ring `r` of controller `c` is the one that executes it. -/

namespace Sys2Proof.Machine

/-! ### Fetching (R423, R425) -/

/-- A requester RDMA operation of a ring failed: its queue pair enters ERROR, and the rings bound to it stop
(R412). -/
def Dev.rdmaFault (d : Dev) (c r : Nat) : Dev := d.qpFail c (d.rd R.SAC_RING_qp [c, r])

/-- An RDMA READ of a RUNNING ring returns up to 32 descriptors from its head on, or fails. -/
def descriptorFetch (c r : Nat) (descs : List Nat) (ok : Bool) (d : Dev) : Dev :=
  let room := min 32 (idxDiff (d.hostIdx c r) (d.devIdx c r))
  let l := descs.take room
  if d.ringState c r ≠ 2 ∨ (d.ring c r).full = true ∨ room = 0 then d
  else if d.ringReach c r = false then d.askStop c r
  else if ok = false then d.rdmaFault c r
  else
    let x := d.ring c r
    ((d.setRing c r { x with fetched := x.fetched ++ l }).wr R.SAC_RING_dev_idx [c, r] (d.devIdx c r + l.length)).sacCount
      c 8 (64 * l.length)

/-! ### Arguments (Table 12-6) -/

/-- The bits of an argument. -/
def fld (lo w : Nat) : Nat := ones w * 2 ^ lo

def aOff (x : Nat) : Nat := bits x 64 24
def aVal (x : Nat) : Nat := bits x 128 64
def aMask (x : Nat) : Nat := bits x 192 64
def aHaddr (x : Nat) : Nat := bits x 192 64
def aHkey (x : Nat) : Nat := bits x 256 32
def aTime (x : Nat) : Nat := bits x 256 32
def aRaddr (x : Nat) : Nat := bits x 320 64
def aSem (x : Nat) : Nat := bits x 64 8

/-- A descriptor ends with an access status, reported as any access is. -/
def Dev.endDesc (d : Dev) (c r st v : Nat) : Dev := (d.denied (97 + c) st).completeDesc c r st v

/-- Descriptor accesses to registers (R427). -/
def descReq (c : Nat) : Req := ⟨97 + c, true⟩

/-! ### Registers (R427) -/

def regRead_ (c r : Nat) (d : Dev) : Dev :=
  d.execDesc c r 0x01 (fld 64 24) fun d x =>
    if aOff x % 8 ≠ 0 then d.failDesc c r Sts.badDescriptor
    else let y := regRead (descReq c) (aOff x) 255 d; y.1.endDesc c r y.2.1 y.2.2

def regWrite_ (c r : Nat) (d : Dev) : Dev :=
  d.execDesc c r 0x02 (fld 64 24 + fld 96 8 + fld 128 64) fun d x =>
    if aOff x % 8 ≠ 0 then d.completeDesc c r Sts.badDescriptor 0
    else let y := regWrite (descReq c) (aOff x) (bits x 96 8) (aVal x) d; y.1.endDesc c r (y.2.getD Sts.ok) 0

/-- (old AND NOT mask) OR (value AND mask). -/
def rmwValue (old v m : Nat) : Nat := mix 64 old m v

def regRmw_ (c r : Nat) (d : Dev) : Dev :=
  d.execDesc c r 0x03 (fld 64 24 + fld 128 64 + fld 192 64) fun d x =>
    if aOff x % 8 ≠ 0 then d.failDesc c r Sts.badDescriptor
    else
      let a := regRead (descReq c) (aOff x) 255 d
      let b := regWrite (descReq c) (aOff x) 255 (rmwValue a.2.2 (aVal x) (aMask x)) a.1
      b.1.endDesc c r (worst a.2.1 (b.2.getD Sts.ok)) a.2.2

/-- REG_POLL starts; its reads are REG_POLL_READ. -/
def regPoll_ (c r : Nat) (d : Dev) : Dev :=
  d.execDesc c r 0x04 (fld 64 24 + fld 128 64 + fld 192 64 + fld 256 32) fun d x =>
    if aOff x % 8 ≠ 0 ∨ aTime x = 0 ∨ 10000000 < aTime x then d.failDesc c r Sts.badDescriptor
    else d.waitDesc c r fun y => { y with deadline := d.clock + aTime x * 65536000 + 1 }

/-- The descriptor of opcode `op` in execution on a ring. -/
def Dev.curDesc (d : Dev) (c r op : Nat) : Option CurDesc :=
  match (d.ring c r).cur with
  | some x => if bits x.desc 0 8 = op then some x else none
  | none => none

/-- The time of the descriptor in execution has run out. -/
def Dev.outOfTime (d : Dev) (x : CurDesc) : Bool := x.deadline != 0 && d.passed (x.deadline - 1)

/-- One read of a polling descriptor: it completes on a match, with the status of a read that fails, or with
TIMEOUT. -/
def regPollRead (c r : Nat) (d : Dev) : Dev :=
  match d.curDesc c r 0x04 with
  | none => d
  | some x =>
    let y := regRead (descReq c) (aOff x.desc) 255 d
    if y.2.1 ≠ 0 then y.1.endDesc c r y.2.1 y.2.2
    else if y.2.2 &&& aMask x.desc = aVal x.desc &&& aMask x.desc then y.1.completeDesc c r Sts.ok y.2.2
    else if d.outOfTime x then y.1.completeDesc c r Sts.timeout y.2.2
    else y.1.waitDesc c r fun z => { z with value := y.2.2 }

/-! ### Memory (R428, R429) -/

def aDaddr (x : Nat) : Nat := bits x 64 40
def aLen (x : Nat) : Nat := bits x 128 25

/-- MEM_READ; `fail` is how many bytes host memory takes before a write of it fails. -/
def memRead_ (c r : Nat) (errs : List (List (Nat × Nat))) (f : List NvFind) (fail : Option Nat) (d : Dev) : Dev :=
  d.execDesc c r 0x10 (fld 64 40 + fld 128 25 + fld 192 64 + fld 256 32) fun d x =>
    let len := aLen x
    if len = 0 ∨ 16777216 < len then d.completeDesc c r Sts.badDescriptor 0
    else if d.ringReach c r = false then d.completeDesc c r Sts.rdmaError 0
    else
      let n := min len (fail.getD len)
      let y := transferRead (descReq c) (aDaddr x) n errs f d
      let d := if y.2.2.isEmpty then y.1 else y.1.hostWrite c (d.rd R.SAC_RING_qp [c, r]) (aHaddr x) (aHkey x) y.2.2
      if y.2.1 ≠ 0 ∨ n = len then d.endDesc c r y.2.1 y.2.2.length
      else (d.rdmaFault c r).completeDesc c r Sts.rdmaError y.2.2.length

/-- MEM_WRITE; `host` is what host memory returns, shorter than the length where the read of it fails. -/
def memWrite_ (c r : Nat) (host : List Byte) (errs : List (List (Nat × Nat))) (d : Dev) : Dev :=
  let args := fld 64 40 + fld 128 25 + fld 192 64 + fld 256 32 + fld 288 1 + fld 320 192
  d.execDesc c r 0x11 args fun d x =>
    let len := aLen x
    let inl := bits x 288 1 = 1
    if len = 0 ∨ 16777216 < len ∨ (inl ∧ (24 < len ∨ aHaddr x ≠ 0 ∨ aHkey x ≠ 0)) ∨ (¬ inl ∧ bits x 320 192 ≠ 0) then
      d.completeDesc c r Sts.badDescriptor 0
    else if ¬ inl ∧ d.ringReach c r = false then d.completeDesc c r Sts.rdmaError 0
    else
      let l := if inl then leBytes len (bits x 320 192) else host.take len
      let d := if inl then d else d.sacCount c 8 l.length
      let y := transferWrite (descReq c) (aDaddr x) l errs d
      if y.2.1 ≠ 0 ∨ l.length = len then y.1.endDesc c r y.2.1 y.2.2
      else (y.1.rdmaFault c r).completeDesc c r Sts.rdmaError y.2.2

/-! ### Routes and salvos (R430) -/

/-- A route command cannot be carried out now. -/
def Dev.routeStatus (d : Dev) (ddr : Bool) : Nat :=
  if d.island 78 ≠ 0 then Sts.poweredOff
  else if d.flag R.RTE_STATUS_clearing || (ddr && !d.ddrReady) then Sts.notReady else Sts.ok

/-- An image or key is read from host memory: `n` bytes of it, or none. -/
def Dev.hostRead (d : Dev) (c r n : Nat) (x : Option Nat) : Dev × Option Nat :=
  if d.ringReach c r = false then (d, none)
  else match x with
    | some v => (d.sacCount c 8 n, some v)
    | none => (d.rdmaFault c r, none)

/-- A route or salvo command ends: its result is stated for success, and 0 for a key not found (R430). -/
def Dev.endRoute (d : Dev) (c r st v : Nat) : Dev :=
  if st = Sts.ok then d.completeDesc c r st v else if st = Sts.notFound then d.completeDesc c r st 0 else d.failDesc c r st

/-- A change of an entry, direct or staged: `good` is the check of the image. -/
def Dev.routeChange (d : Dev) (c r x : Nat) (img : Option Nat) (good : Nat → Bool)
    (direct : Dev → Nat → Dev × Nat × Nat) (staged : Dev → Nat → Nat → Dev × Nat × Nat) : Dev :=
  let salvo := bits x 64 3
  if d.routeStatus true ≠ 0 then d.failDesc c r (d.routeStatus true)
  else if 4 < salvo then d.failDesc c r Sts.badDescriptor
  else
    let h := d.hostRead c r 64 img
    match h.2 with
    | none => h.1.failDesc c r Sts.rdmaError
    | some v =>
      if good v = false then h.1.failDesc c r Sts.badDescriptor
      else
        let y := if salvo = 0 then direct h.1 v else staged h.1 (salvo - 1) v
        y.1.endRoute c r y.2.1 y.2.2

def routeArgs : Nat := fld 64 3 + fld 192 64 + fld 256 32

def routeInsert (c r : Nat) (img : Option Nat) (d : Dev) : Dev :=
  d.execDesc c r 0x20 routeArgs fun d x => d.routeChange c r x img goodStream Dev.directInsert Dev.salvoInsert

def routeModify (c r : Nat) (img : Option Nat) (d : Dev) : Dev :=
  d.execDesc c r 0x21 routeArgs fun d x => d.routeChange c r x img goodStream Dev.directModify Dev.salvoModify

def routeDelete (c r : Nat) (img : Option Nat) (d : Dev) : Dev :=
  d.execDesc c r 0x22 routeArgs fun d x =>
    d.routeChange c r x img (fun v => !isStream v || streamZero v) (fun e v => e.directDelete (eKey v))
      fun e s v => e.salvoDelete s (eKey v)

def chanWrite (c r : Nat) (img : Option Nat) (d : Dev) : Dev :=
  d.execDesc c r 0x24 (routeArgs + fld 128 24) fun d x =>
    let i := bits x 128 24
    d.routeChange c r x img goodChan (fun e v => e.directChan i v) fun e s v => e.salvoChan s i v

/-- The stored entry `i` is written to host memory. -/
def Dev.sendEntry (d : Dev) (c r x i : Nat) (ok : Bool) : Dev :=
  if d.ringReach c r = false then d.failDesc c r Sts.rdmaError
  else if ok = false then (d.rdmaFault c r).failDesc c r Sts.rdmaError
  else (d.hostWrite c (d.rd R.SAC_RING_qp [c, r]) (aRaddr x) (aHkey x) (leBytes 64 (d.entry i))).completeDesc c r Sts.ok i

/-- ROUTE_LOOKUP: `key` is what host memory returns, `ok` that it takes the entry. -/
def routeLookup (c r : Nat) (key : Option Nat) (ok : Bool) (d : Dev) : Dev :=
  d.execDesc c r 0x23 (fld 192 64 + fld 256 32 + fld 320 64) fun d x =>
    if d.routeStatus true ≠ 0 then d.failDesc c r (d.routeStatus true)
    else
      let h := d.hostRead c r 40 key
      match h.2 with
      | none => h.1.failDesc c r Sts.rdmaError
      | some k =>
        if k % 256 ≠ 1 ∧ k % 256 ≠ 2 then h.1.completeDesc c r Sts.notFound 0
        else match h.1.tableLookup k with
          | .ecc _ => h.1.failDesc c r Sts.uncorrectable
          | .none _ => h.1.completeDesc c r Sts.notFound 0
          | .entry i _ => h.1.sendEntry c r x i ok

def chanRead (c r : Nat) (ok : Bool) (d : Dev) : Dev :=
  d.execDesc c r 0x25 (fld 128 24 + fld 256 32 + fld 320 64) fun d x =>
    let i := bits x 128 24
    if d.routeStatus true ≠ 0 then d.failDesc c r (d.routeStatus true)
    else if d.lineBad (entryAddr i) then d.failDesc c r Sts.uncorrectable
    else if d.chanIndexOk i = false then d.failDesc c r Sts.badIndex
    else d.sendEntry c r x i ok

def salvoOpenDesc (c r : Nat) (d : Dev) : Dev :=
  d.execDesc c r 0x28 0 fun d _ =>
    if d.routeStatus false ≠ 0 then d.failDesc c r (d.routeStatus false)
    else
      let y := d.salvoOpen
      match y.2 with
      | some s => y.1.completeDesc c r Sts.ok s
      | none => y.1.failDesc c r Sts.noSalvoSlot

def salvoArmDesc (c r : Nat) (d : Dev) : Dev :=
  d.execDesc c r 0x29 (fld 64 3 + fld 128 96 + fld 256 64) fun d x =>
    if d.routeStatus false ≠ 0 then d.failDesc c r (d.routeStatus false)
    else
      let y := d.salvoArm (bits x 64 2) (x.testBit 66) (bits x 128 96) (bits x 256 32) (bits x 288 32)
      y.1.endRoute c r y.2.1 y.2.2

def salvoCancelDesc (c r : Nat) (d : Dev) : Dev :=
  d.execDesc c r 0x2A (fld 64 2) fun d x =>
    if d.routeStatus false ≠ 0 then d.completeDesc c r (d.routeStatus false) 0
    else
      let y := d.salvoCancel (bits x 64 2) d.now
      y.1.completeDesc c r y.2 0

/-! ### Semaphores (R438, R439) -/

/-- Island 105, the semaphore unit, runs. -/
def Dev.semOn (d : Dev) : Bool := d.island 105 == 0

def semAcqDesc (c r : Nat) (d : Dev) : Dev :=
  d.execDesc c r 0x30 (fld 64 8 + fld 96 32) fun d x =>
    if d.semOn = false then d.completeDesc c r Sts.poweredOff 0
    else
      let t := bits x 96 32
      (d.waitDesc c r fun y => { y with deadline := if t = 0 then 0 else d.clock + t * 65536000 + 1 }).semSettle (97 + c)

def semTryDesc (c r : Nat) (d : Dev) : Dev :=
  d.execDesc c r 0x31 (fld 64 8) fun d x =>
    if d.semOn = false then d.completeDesc c r Sts.poweredOff 0
    else let y := d.semTry (97 + c) (aSem x); y.1.completeDesc c r Sts.ok (bit y.2)

def semRelDesc (c r : Nat) (d : Dev) : Dev :=
  d.execDesc c r 0x32 (fld 64 8) fun d x =>
    if d.semOn = false then d.completeDesc c r Sts.poweredOff 0
    else let y := d.semRel (97 + c) (aSem x); y.1.completeDesc c r y.2 0

/-- The time of a SEM_ACQ has passed. -/
def semAcqTimeout (c r : Nat) (d : Dev) : Dev :=
  match d.curDesc c r 0x30 with
  | none => d
  | some x =>
    if d.outOfTime x = false then d
    else
      let d := if x.asked then d.semWithdraw (97 + c) else d
      (d.completeDesc c r Sts.timeout 0).semSettle (97 + c)

/-! ### Time (R431) -/

def waitUntil (c r : Nat) (d : Dev) : Dev :=
  d.execDesc c r 0x38 (fld 64 96) fun d x =>
    if d.reached (rawToBeads (bits x 64 96)) then d.completeDesc c r Sts.ok 1 else d.waitDesc c r id

def waitUntilReached (c r : Nat) (d : Dev) : Dev :=
  match d.curDesc c r 0x38 with
  | none => d
  | some x => if d.reached (rawToBeads (bits x.desc 64 96)) then d.completeDesc c r Sts.ok 0 else d

/-! ### Opcodes that Table 12-6 does not have (R426) -/

def knownOpcodes : List Nat :=
  [0, 1, 2, 3, 4, 0x10, 0x11, 0x20, 0x21, 0x22, 0x23, 0x24, 0x25, 0x28, 0x29, 0x2A, 0x30, 0x31, 0x32, 0x38]

def badOpcode (c r : Nat) (d : Dev) : Dev :=
  match d.nextOpcode c r with
  | none => d
  | some op =>
    if knownOpcodes.contains op then d
    else d.execDesc c r op (ones 512) fun d x =>
      d.failDesc c r (if bits x 9 23 ≠ 0 then Sts.badDescriptor else Sts.badOpcode)

/-! ### SAC_RING_CTL (R425, R435) -/

/-- One action of SAC_RING_CTL by an input. -/
def ringCtl (inp : Nat) (desc : Bool) (c : Nat) (f : Dev → Dev × Nat) (d : Dev) : Dev :=
  if inp ≠ 97 + c then d.complete ⟨inp, desc⟩ Sts.protected_ 0
  else let x := f d; x.1.complete ⟨inp, desc⟩ x.2 0

/-! ### The commands -/

/-- DESCRIPTOR_FETCH. -/
def execDescriptorFetch (c : Fin 2) (r : Fin 8) (descs : List (BitVec 512)) (ok : Bool) (s : State) :
    Host.Outcome State Fault Refusal :=
  runSac s (descriptorFetch c r (descs.map (·.toNat)) ok)

/-- NOP. -/
def execNop (c : Fin 2) (r : Fin 8) (s : State) : Host.Outcome State Fault Refusal :=
  runSac s fun d => d.execDesc c r 0 0 fun e _ => e.completeDesc c r Sts.ok 0

/-- REG_READ. -/
def execRegRead (c : Fin 2) (r : Fin 8) (s : State) : Host.Outcome State Fault Refusal := runSac s (regRead_ c r)

/-- REG_WRITE. -/
def execRegWrite (c : Fin 2) (r : Fin 8) (s : State) : Host.Outcome State Fault Refusal := runSac s (regWrite_ c r)

/-- REG_RMW. -/
def execRegRmw (c : Fin 2) (r : Fin 8) (s : State) : Host.Outcome State Fault Refusal := runSac s (regRmw_ c r)

/-- REG_POLL. -/
def execRegPoll (c : Fin 2) (r : Fin 8) (s : State) : Host.Outcome State Fault Refusal := runSac s (regPoll_ c r)

/-- REG_POLL_READ. -/
def execRegPollRead (c : Fin 2) (r : Fin 8) (s : State) : Host.Outcome State Fault Refusal := runSac s (regPollRead c r)

/-- MEM_READ. -/
def execMemRead (c : Fin 2) (r : Fin 8) (errs : List (List (Nat × Nat))) (find : List NvFind) (fail : Option Nat)
    (s : State) : Host.Outcome State Fault Refusal := runSac s (memRead_ c r errs find fail)

/-- MEM_WRITE. -/
def execMemWrite (c : Fin 2) (r : Fin 8) (host : List Byte) (errs : List (List (Nat × Nat))) (s : State) :
    Host.Outcome State Fault Refusal := runSac s (memWrite_ c r host errs)

/-- ROUTE_INSERT. -/
def execRouteInsert (c : Fin 2) (r : Fin 8) (img : Option (BitVec 512)) (s : State) : Host.Outcome State Fault Refusal :=
  runSac s (routeInsert c r (img.map (·.toNat)))

/-- ROUTE_MODIFY. -/
def execRouteModify (c : Fin 2) (r : Fin 8) (img : Option (BitVec 512)) (s : State) : Host.Outcome State Fault Refusal :=
  runSac s (routeModify c r (img.map (·.toNat)))

/-- ROUTE_DELETE. -/
def execRouteDelete (c : Fin 2) (r : Fin 8) (img : Option (BitVec 512)) (s : State) : Host.Outcome State Fault Refusal :=
  runSac s (routeDelete c r (img.map (·.toNat)))

/-- ROUTE_LOOKUP. -/
def execRouteLookup (c : Fin 2) (r : Fin 8) (key : Option (BitVec 320)) (ok : Bool) (s : State) :
    Host.Outcome State Fault Refusal := runSac s (routeLookup c r (key.map (·.toNat)) ok)

/-- CHAN_WRITE. -/
def execChanWrite (c : Fin 2) (r : Fin 8) (img : Option (BitVec 512)) (s : State) : Host.Outcome State Fault Refusal :=
  runSac s (chanWrite c r (img.map (·.toNat)))

/-- CHAN_READ. -/
def execChanRead (c : Fin 2) (r : Fin 8) (ok : Bool) (s : State) : Host.Outcome State Fault Refusal :=
  runSac s (chanRead c r ok)

/-- SALVO_OPEN. -/
def execSalvoOpen (c : Fin 2) (r : Fin 8) (s : State) : Host.Outcome State Fault Refusal := runSac s (salvoOpenDesc c r)

/-- SALVO_ARM. -/
def execSalvoArm (c : Fin 2) (r : Fin 8) (s : State) : Host.Outcome State Fault Refusal := runSac s (salvoArmDesc c r)

/-- SALVO_CANCEL. -/
def execSalvoCancel (c : Fin 2) (r : Fin 8) (s : State) : Host.Outcome State Fault Refusal := runSac s (salvoCancelDesc c r)

/-- SEM_ACQ_DESCRIPTOR. -/
def execSemAcqDescriptor (c : Fin 2) (r : Fin 8) (s : State) : Host.Outcome State Fault Refusal := runSac s (semAcqDesc c r)

/-- SEM_TRY_DESCRIPTOR. -/
def execSemTryDescriptor (c : Fin 2) (r : Fin 8) (s : State) : Host.Outcome State Fault Refusal := runSac s (semTryDesc c r)

/-- SEM_REL_DESCRIPTOR. -/
def execSemRelDescriptor (c : Fin 2) (r : Fin 8) (s : State) : Host.Outcome State Fault Refusal := runSac s (semRelDesc c r)

/-- SEM_ACQ_TIMEOUT. -/
def execSemAcqTimeout (c : Fin 2) (r : Fin 8) (s : State) : Host.Outcome State Fault Refusal := runSac s (semAcqTimeout c r)

/-- WAIT_UNTIL. -/
def execWaitUntil (c : Fin 2) (r : Fin 8) (s : State) : Host.Outcome State Fault Refusal := runSac s (waitUntil c r)

/-- WAIT_UNTIL_REACHED. -/
def execWaitUntilReached (c : Fin 2) (r : Fin 8) (s : State) : Host.Outcome State Fault Refusal :=
  runSac s (waitUntilReached c r)

/-- BAD_OPCODE. -/
def execBadOpcode (c : Fin 2) (r : Fin 8) (s : State) : Host.Outcome State Fault Refusal := runSac s (badOpcode c r)

/-- RING_START. -/
def execRingStart (inp : Fin 101) (desc : Bool) (c : Fin 2) (r : BitVec 5) (s : State) : Host.Outcome State Fault Refusal :=
  runOn 103 ⟨inp, desc⟩ s (ringCtl inp desc c fun d => d.ringStart c r.toNat)

/-- RING_STOP. -/
def execRingStop (inp : Fin 101) (desc : Bool) (c : Fin 2) (r : BitVec 5) (s : State) : Host.Outcome State Fault Refusal :=
  runOn 103 ⟨inp, desc⟩ s (ringCtl inp desc c fun d => d.ringStop c r.toNat)

/-- RING_RESET. -/
def execRingReset (inp : Fin 101) (desc : Bool) (c : Fin 2) (r : BitVec 5) (s : State) : Host.Outcome State Fault Refusal :=
  runOn 103 ⟨inp, desc⟩ s (ringCtl inp desc c fun d => d.ringReset c r.toNat)

end Sys2Proof.Machine
end

