-- ==== Sys2Proof/Machine/Jtag.lean ====
section
/-! DEFINITION. Chapter 17: the JTAG TAP and its instructions (R550 to R555, R574, R579). A command is one instruction
scan and one data register scan: what Capture-DR holds leaves as `Out.tdo`, what is shifted in is the operand and acts
at Update-DR. -/

namespace Sys2Proof.Machine

/-- The instruction register takes a code; the pins follow the functional logic unless the instruction says. -/
def Dev.setIr (d : Dev) (code : Nat) (pins : Nat := 0) : Dev := d.withLcs fun x => { x with ir := code, pinMode := pins }

/-- The bypass register is scanned: it captures 0. -/
def Dev.bypass (d : Dev) : Dev := d.emit (.tdo 1 0)

/-- The codes of Table 17-8 but for BYPASS itself. -/
def jtagCodes : List Nat :=
  [0, 1, 2, 3, 4, 0x10, 0x11, 0x12, 0x14, 0x15, 0x16, 0x17, 0x18, 0x19, 0x1A, 0x1C, 0x2C]

/-- The boundary scan register captures the pins, `cap`, and `v` goes to its update latches. -/
def Dev.boundary (d : Dev) (cap v : Nat) : Dev :=
  let w := Config.boundaryLen
  (d.withLcs fun x => { x with bsr := v % 2 ^ w, bsrOut := v % 2 ^ w }).emit (.tdo w (cap % 2 ^ w))

/-- LC_STATUS's register. -/
def Dev.lcStatus (d : Dev) : Nat :=
  let state := (regAt 0x0F0000).map fun h => regValue d h.reg h.ix
  state.getD 0 + d.rd R.LCS_CMD_result * 2 ^ 64

/-- NONCE_GET: Capture-DR makes a new nonce; in SCRAPPED, or while the life-cycle controller is busy, the request is
refused. -/
def nonceGet (d : Dev) : Dev :=
  if d.lcState = 6 then (d.wr R.LCS_CMD_result [] Lc.state).bypass
  else if d.lcs.check.isSome ∨ d.flag R.LCS_STATE_pending = true then (d.wr R.LCS_CMD_result [] Lc.busy).bypass
  else let x := d.newNonce; (x.1.wr R.LCS_CMD_result [] Lc.ok).emit (.tdo 256 x.2)

/-- CERT_LOAD: the buffer is written and the check of its kind starts. -/
def certLoad (cert : Nat) (d : Dev) : Dev :=
  if d.lcState = 6 then (d.wr R.LCS_CMD_result [] Lc.state).bypass
  else (d.wr R.LCS_CERT_cert [] cert).startCheck (if cLe cert 5 1 = 2 then 2 else 1)

/-- The right a debug access to an address needs; none outside the ranges of Table 01-7. -/
def debugRight (write : Bool) (a : Nat) : Option Nat :=
  if a < 0x1000000 then some (if write then 6 else 5)
  else if inNv a || inTallyNv a then some (if write then 8 else 2)
  else if inDroves a || inDdr a then some 7 else none

/-- DBG_ACCESS: its data register's value, and what the physical layer finds. -/
def dbgAccess (v : Nat) (errs : List (Nat × Nat)) (f : NvFind) (d : Dev) : Dev :=
  let d := d.emit (.tdo 113 (d.lcs.dr + d.lcs.dbgStatus * 2 ^ 105))
  let write := v.testBit 0
  let a := bits v 1 40 / 8 * 8
  let done := fun (d : Dev) (st data : Nat) =>
    d.withLcs fun x => { x with dr := bits v 0 41 + data * 2 ^ 41, dbgStatus := st }
  if (match debugRight write a with | some r => !d.hasRight r | none => false) then done d 0x80 (bits v 41 64)
  else if write then
    let x := spaceWrite ⟨100, false⟩ a (leBytes 8 (bits v 41 64)) errs d
    done (x.1.denied 100 x.2) x.2 (bits v 41 64)
  else
    let x := spaceRead ⟨100, false⟩ a 8 errs f d
    done (x.1.denied 100 x.2.1) x.2.1 (ofLe x.2.2)

/-- DBG_HALT: a halt request for every drover named. -/
def dbgHalt (v : Nat) (d : Dev) : Dev :=
  if d.hasRight 0 = false then d.bypass
  else (setBitsOf 96 v).foldl (fun (d : Dev) n => (writeDrvCtl n 1 2 d).1) d

/-- SCAN_ENTER: refused without the right or by TEST_GUARD; `clean` says that every cleared macro and latch reads
back zero (R574). -/
def scanEnter (clean : Bool) (d : Dev) : Dev :=
  let guard := d.otp 0xA0 4
  let st := d.lcState
  if d.hasRight 3 = false ∨ (flag2 guard 2 = true ∧ st ≠ 1 ∧ st ≠ 5) then d.bypass
  else if flag2 guard 0 then
    let d := (d.zeroise.dropNonce).wr R.LCS_CERT_cert [] 0
    if clean then (d.wr R.BST_GUARD_cleared [] 1).withLcs fun x => { x with scan := true }
    else d.wr R.BST_GUARD_clear_fail [] 1
  else d.withLcs fun x => { x with scan := true }

/-- TLY_READ: 256 bytes of the record partition. -/
def tlyRead (off : Nat) (d : Dev) : Dev :=
  if d.hasRight 4 = false then d.bypass
  else
    let a := off / 256 * 256
    d.emit (.tdo 2072 (off + d.load (0x2F000000 + a) 256 * 2 ^ 24))

/-- An OTP bit that is burned only through OTP_WRITE (Table 17-3). -/
def vendorBit (b : Nat) : Bool :=
  decide (b ≤ 0x84 ∨ (0xA0 ≤ b ∧ b ≤ 0xA3) ∨ (0xC0 ≤ b ∧ b ≤ 0x1DF) ∨ (0x200 ≤ b ∧ b ≤ 0x37F) ∨ (0x1500 ≤ b ∧ b ≤ 0x1FFF))

/-- OTP_WRITE: `n` bits from `first` on are burned, in VENDOR_TEST and in vendor fields only. -/
def otpWrite (first n data : Nat) (d : Dev) : Dev :=
  if d.lcState ≠ 1 ∨ n = 0 ∨ 384 < n ∨ ((List.range n).all fun k => vendorBit (first + k)) = false then d.bypass
  else (d.burn first (data % 2 ^ n)).showLcs

/-! ### The commands -/

/-- EXTEST. -/
def execExtest (cap v : Nat) (s : State) : Host.Outcome State Fault Refusal := run s fun d => (d.setIr 0 1).boundary cap v

/-- SAMPLE_PRELOAD. -/
def execSamplePreload (cap v : Nat) (s : State) : Host.Outcome State Fault Refusal := run s fun d => (d.setIr 1).boundary cap v

/-- IDCODE. -/
def execIdcode (s : State) : Host.Outcome State Fault Refusal := run s fun d => (d.setIr 2).emit (.tdo 32 0x19640D3B)

/-- CLAMP. -/
def execClamp (s : State) : Host.Outcome State Fault Refusal := run s fun d => (d.setIr 3 2).bypass

/-- HIGHZ. -/
def execHighz (s : State) : Host.Outcome State Fault Refusal := run s fun d => (d.setIr 4 3).bypass

/-- LC_STATUS. -/
def execLcStatus (s : State) : Host.Outcome State Fault Refusal := run s fun d => (d.setIr 0x10).emit (.tdo 72 d.lcStatus)

/-- NONCE_GET. -/
def execNonceGet (s : State) : Host.Outcome State Fault Refusal := run s fun d => nonceGet (d.setIr 0x11)

/-- CERT_LOAD. -/
def execCertLoad (cert : BitVec 4096) (s : State) : Host.Outcome State Fault Refusal :=
  run s fun d => certLoad cert.toNat (d.setIr 0x12)

/-- LC_REQUEST. -/
def execLcRequest (target : BitVec 3) (s : State) : Host.Outcome State Fault Refusal :=
  run s fun d => (d.setIr 0x14).lcRequest target.toNat

/-- DBG_ACCESS. -/
def execDbgAccess (v : BitVec 113) (errs : List (Nat × Nat)) (find : NvFind) (s : State) :
    Host.Outcome State Fault Refusal := run s fun d => dbgAccess v.toNat errs find (d.setIr 0x15)

/-- DBG_HALT. -/
def execDbgHalt (v : BitVec 96) (s : State) : Host.Outcome State Fault Refusal := run s fun d => dbgHalt v.toNat (d.setIr 0x16)

/-- DBG_CLOSE. -/
def execDbgClose (s : State) : Host.Outcome State Fault Refusal := run s fun d => (d.setIr 0x17).closeSession

/-- WAKE. -/
def execWake (s : State) : Host.Outcome State Fault Refusal := run s fun d => (d.setIr 0x18).fireWake 11 0

/-- SCAN_ENTER. -/
def execScanEnter (clean : Bool) (s : State) : Host.Outcome State Fault Refusal :=
  run s fun d => scanEnter clean (d.setIr 0x19)

/-- TLY_READ. -/
def execTlyRead (off : BitVec 24) (s : State) : Host.Outcome State Fault Refusal :=
  run s fun d => tlyRead off.toNat (d.setIr 0x1A)

/-- OTP_WRITE. -/
def execOtpWrite (first : BitVec 13) (n : BitVec 11) (data : BitVec 384) (s : State) : Host.Outcome State Fault Refusal :=
  run s fun d => otpWrite first.toNat n.toNat data.toNat (d.setIr 0x1C)

/-- COMPAT_UNLOCK. -/
def execCompatUnlock (word : BitVec 32) (s : State) : Host.Outcome State Fault Refusal :=
  run s fun d => (d.setIr 0x2C).compatUnlock word.toNat

/-- BYPASS, or an unlisted code. -/
def execBypass (code : BitVec 8) (s : State) : Host.Outcome State Fault Refusal :=
  run s fun d => (d.setIr (if jtagCodes.contains code.toNat then 0xFF else code.toNat)).bypass

/-- TRST: the TAP is reset. -/
def execTrst (s : State) : Host.Outcome State Fault Refusal := run s fun d => d.setIr 2

end Sys2Proof.Machine
end

