-- ==== Sys2Proof/Machine/Quobaler.lean ====
section
/-! DEFINITION. Chapter 07: what every Quobaler instruction shares: decoding of words, issue, retirement, faults, blocking, and the drover's loads and stores. -/

namespace Sys2Proof.Machine

/-- The operation a word spells, 256 × major + sub; none where the word raises ILLEGAL_OP by its encoding alone (R237,
Table 07-3). -/
def opKey (w : Nat) : Option Nat :=
  let m := wMajor w
  let sub := opSub w
  if opCount m ≤ sub then none
  else if m = 0x01 ∧ sub = 0x13 then none
  else if isReg m ∧ takesMask m sub = false ∧ wMk w ≠ 0 then none
  else if m = 0x01 ∧ 0x0E ≤ sub ∧ sub ≤ 0x12 ∧ wRb w ≠ 0 then none
  else some (256 * m + sub)

/-! ### Issue and retirement (R196, R222, R262, R263) -/

/-- What an instruction acts under: its drover, thread and word; what the physical layer finds in the data it
reads (SRAM, DDR4 symbols, NV sense); whether this is the completion of a long operation; tree clock edges
since the last marker. -/
structure QCtx where
  n : Nat
  t : Nat
  w : Nat
  ecc : Nat := 0
  errs : List (Nat × Nat) := []
  find : NvFind := {}
  fin : Bool := false
  fine : Nat := 0

/-- What an instruction comes to: it goes on with the next instruction, continues elsewhere, faults with a code and
an address, or blocks its thread. -/
inductive QAct where
  | go (d : Dev) (x : Thr)
  | jump (d : Dev) (x : Thr) (pc : Nat)
  | fault (d : Dev) (code : Nat) (at_ : Option Nat)
  | block (d : Dev) (x : Thr)

/-- The meaning of an instruction for its thread's registers `x`. -/
abbrev QOp := QCtx → Dev → Thr → QAct

/-- ILLEGAL_OP, with no effect. -/
def illegal (d : Dev) : QAct := .fault d 1 none

/-- A thread goes on at `pc`, unless its own store has reset it. -/
def Dev.goOn (d : Dev) (n t : Nat) (x : Thr) (pc : Nat) : Dev :=
  if (d.thr n t).wait = none then d
  else (d.setThr n t { x with pc := pc % 2 ^ 64, wait := none, asked := false, cmp := none }).setThrState n t 1

/-- The instruction's outcome for its thread. -/
def Dev.retire (c : QCtx) (a : QAct) : Dev :=
  match a with
  | .go d x => d.goOn c.n c.t x (x.pc + 4)
  | .jump d x pc => d.goOn c.n c.t x pc
  | .fault d code at_ => d.fault c.n c.t code at_
  | .block d x =>
    let d := (d.setThr c.n c.t { x with wait := some c.w }).setThrState c.n c.t 2
    if isSemAcq c.w then d.semSettle c.n else d

/-- A fill is writing the word at `pc`: the thread stalls (R229). -/
def Dev.fillStalls (d : Dev) (n pc : Nat) : Bool :=
  d.flag R.DRV_IMEM_LOAD_busy [n] &&
    decide ((d.drover n).fillDst ≤ pc ∧ pc < (d.drover n).fillDst + (d.drover n).fillLen)

/-- A thread is at an instruction boundary and may issue. -/
def Dev.canIssue (d : Dev) (n t : Nat) : Bool :=
  d.issues n && d.thrState n t == 1 && !d.fillStalls n (d.thr n t).pc

/-- A thread fetches the word at its program counter and runs it when it spells operation `key` (none: an
encoding that is illegal); due faults, IMEM_RANGE and ECC on fetch come first. -/
def qIssue (i : Issue) (key : Option Nat) (f : QOp) (fine : Nat) (d : Dev) : Dev :=
  let n := i.n.val
  let t := i.t.val
  let x := d.thr n t
  let k := imemKey n x.pc
  let w := d.load k 4
  if d.canIssue n t = false then d
  else if x.due ≠ 0 then d.takeDue n t
  else if 0x10000 ≤ x.pc then d.fault n t 2 none
  else if i.fetchEcc = 2 then (d.serviceAt k).fault n t 5 (some (imemBase + x.pc))
  else if opKey w ≠ key then d
  else
    let d := (d.serviceAt k).sramEcc n k i.fetchEcc.val
    let x := { x with wait := some w }
    let c : QCtx := { n := n, t := t, w := w, ecc := i.dataEcc.val, fine := fine }
    Dev.retire c (f c (d.setThr n t x) x)

/-- The command that issues operation `key`. -/
def issue (i : Issue) (key : Nat) (f : QOp) (s : State) (fine : Nat := 0) : Host.Outcome State Fault Refusal :=
  run s (qIssue i (some key) f fine)

/-! ### Loads and stores (R198 to R200, R239) -/

/-- An access that leaves the drove: it blocks its thread (R196). -/
def isLong (n a : Nat) : Bool :=
  match place n a with
  | .drove k => droveOf k != n / 8
  | .device _ => true
  | _ => false

/-- A drover's load completed POWERED_OFF: zero, and the thread's flag (R198). -/
def Dev.loadOff (d : Dev) (c : QCtx) (len : Nat) : Dev × Nat × List Byte :=
  (d.setBit R.DRV_STATUS_pwr_off [c.n] c.t, 0, List.replicate len 0)

/-- A load of a setup register of SEM_TRY that granted the drover a semaphore: the drover records the thread (R219). -/
def Dev.noteTry (d : Dev) (n t a : Nat) (old : Dev) : Dev :=
  let s := (a - 0x0B3000) / 8
  if 0x0B3000 ≤ a ∧ a < 0x0B3800 ∧ old.semMine n s = false ∧ d.semMine n s = true then d.holdIn n t s else d

/-- The bytes a drover loads: device, fault code (0 for none), bytes. -/
def qLoad (c : QCtx) (d : Dev) (a len : Nat) : Dev × Nat × List Byte :=
  let sram := fun (k : Nat) =>
    let d := (d.serviceAt k).sramEcc c.n k c.ecc
    if c.ecc = 2 then (d, 5, []) else (d, 0, d.bytes k len)
  let space := fun (b : Nat) =>
    let r := spaceRead ⟨c.n, false⟩ b len c.errs c.find d
    let e := r.1.denied c.n r.2.1
    if r.2.1 = Sts.unmapped ∨ r.2.1 = Sts.protected_ then (e, 4, [])
    else if r.2.1 = Sts.poweredOff then e.loadOff c len
    else if r.2.1 = Sts.uncorrectable then (e, if inNv b then 5 else 6, [])
    else (e.noteTry c.n c.t b d, 0, r.2.2)
  match place c.n a with
  | .nowhere => (d, 4, [])
  | .crib k => sram k
  | .imem k => sram k
  | .drove k => if d.island (64 + droveOf k) = 0 then sram k else (d.droveGone (64 + droveOf k)).loadOff c len
  | .own b => space b
  | .device b => space b

/-- The bytes a drover stores: device, fault code. -/
def qStore (c : QCtx) (d : Dev) (a : Nat) (l : List Byte) : Dev × Nat :=
  let space := fun (b : Nat) =>
    let r := spaceWrite ⟨c.n, false⟩ b l c.errs d
    (r.1.denied c.n r.2, if r.2 = Sts.unmapped ∨ r.2 = Sts.protected_ then 4 else 0)
  match place c.n a with
  | .nowhere => (d, 4)
  | .imem _ => (d, 4)
  | .crib k => ((d.serviceAt k).setBytes k l, 0)
  | .drove k =>
    if d.island (64 + droveOf k) = 0 then ((d.serviceAt k).setBytes k l, 0) else (d.droveGone (64 + droveOf k), 0)
  | .own b => space b
  | .device b => space b

/-- A load of `len` bytes, a power of two, at `a`: checked, blocked when it is long, then `f` of the bytes. -/
def qLoadOp (c : QCtx) (d : Dev) (x : Thr) (a len : Nat) (f : Thr → List Byte → Thr) : QAct :=
  if a % len ≠ 0 then .fault d 3 (some a)
  else if place c.n a = .nowhere then .fault d 4 (some a)
  else if isLong c.n a = true ∧ c.fin = false then .block d x
  else
    let r := qLoad c d a len
    if r.2.1 ≠ 0 then .fault r.1 r.2.1 (some a) else .go r.1 (f x r.2.2)

/-- A store of bytes at `a`, a power of two in number. -/
def qStoreOp (c : QCtx) (d : Dev) (x : Thr) (a : Nat) (l : List Byte) : QAct :=
  if a % l.length ≠ 0 then .fault d 3 (some a)
  else if (match place c.n a with | .nowhere => true | .imem _ => true | _ => false) then .fault d 4 (some a)
  else if isLong c.n a = true ∧ c.fin = false then .block d x
  else
    let r := qStore c d a l
    if r.2 ≠ 0 then .fault r.1 r.2 (some a) else .go r.1 ((r.1.thr c.n c.t))

/-- An atomic on the crib or on a drove memory (R199): `f` of the old bytes gives the new ones and the thread. -/
def qAtomOp (c : QCtx) (d : Dev) (x : Thr) (a len : Nat) (f : Dev → Thr → List Byte → Dev × Thr × List Byte) : QAct :=
  if a % len ≠ 0 then .fault d 3 (some a)
  else match place c.n a with
    | .crib _ | .drove _ =>
      if isLong c.n a = true ∧ c.fin = false then .block d x
      else
        let r := qLoad c d a len
        if r.2.1 ≠ 0 then .fault r.1 r.2.1 (some a)
        else
          let y := f r.1 x r.2.2
          .go (qStore c y.1 a y.2.2).1 y.2.1
    | _ => .fault d 4 (some a)

/-! ### The commands -/

/-- UNASSIGNED_ENCODING: a word whose encoding is illegal is issued. -/
def execUnassignedEncoding (i : Issue) (s : State) : Host.Outcome State Fault Refusal :=
  run s (qIssue i none (fun _ d _ => illegal d) 0)

end Sys2Proof.Machine
end

