-- ==== Sys2Proof/Machine/QScalar.lean ====
section
/-! DEFINITION. Chapter 07: scalar arithmetic, memory, control, time and synchronisation instructions. -/

namespace Sys2Proof.Machine

/-! ### Arithmetic (R238, Table 07-3) -/

/-- All ones for true, as compares write it. -/
def maskOf (w : Nat) (b : Bool) : Nat := if b then ones w else 0

/-- Arithmetic shift right of a `w`-bit value. -/
def sraN (w a k : Nat) : Nat := ofSigned w (toSigned w a / (2 ^ k : Nat))

/-- The result of the two-operand ALU and MULDIV instructions that never fault, as a function of ra and rb. -/
def aluAdd (a b : Nat) : Nat := (a + b) % 2 ^ 64
def aluSub (a b : Nat) : Nat := (a + 2 ^ 64 - b) % 2 ^ 64
def aluSll (a b : Nat) : Nat := a * 2 ^ (b % 64) % 2 ^ 64
def aluSrl (a b : Nat) : Nat := a / 2 ^ (b % 64)
def aluSra (a b : Nat) : Nat := sraN 64 a (b % 64)
def lessS (w a b : Nat) : Bool := decide (toSigned w a < toSigned w b)
def aluClt (a b : Nat) : Nat := maskOf 64 (lessS 64 a b)
def aluCltu (a b : Nat) : Nat := maskOf 64 (decide (a < b))
def minS (w a b : Nat) : Nat := if lessS w b a then b else a
def maxS (w a b : Nat) : Nat := if lessS w a b then b else a
def aluClz (a : Nat) : Nat := if a = 0 then 64 else 63 - Nat.log2 a
def aluPopc (a : Nat) : Nat := (setBitsOf 64 a).length
/-- The low `n` bytes reversed. -/
def bswap (n a : Nat) : Nat := ofBe (leBytes n a)
def mulLow (w a b : Nat) : Nat := a * b % 2 ^ w
def mulHighS (w a b : Nat) : Nat := ofSigned w (toSigned w a * toSigned w b / (2 ^ w : Nat))
def mulHighU (w a b : Nat) : Nat := a * b / 2 ^ w
/-- Quotient toward zero; −2^63 by −1 saturates. -/
def divS (a b : Nat) : Nat := ofSigned 64 (satSigned 64 (Int.tdiv (toSigned 64 a) (toSigned 64 b)))
def remS (a b : Nat) : Nat := ofSigned 64 (Int.tmod (toSigned 64 a) (toSigned 64 b))

/-- rd = f ra rb. -/
def qAlu (f : Nat → Nat → Nat) : QOp := fun c d x =>
  .go d (x.setS (wRd c.w) (f (x.sreg (wRa c.w)) (x.sreg (wRb c.w))))

/-- rd = f ra rb, DIV_ZERO when rb is zero. -/
def qDiv (f : Nat → Nat → Nat) : QOp := fun c d x =>
  if x.sreg (wRb c.w) = 0 then .fault d 12 none else qAlu f c d x

/-- rd = f ra imm15, sign-extended or as it stands. -/
def qImm (f : Nat → Int → Nat) : QOp := fun c d x =>
  .go d (x.setS (wRd c.w) (f (x.sreg (wRa c.w)) (wImm c.w)))
def qImmU (f : Nat → Nat → Nat) : QOp := fun c d x =>
  .go d (x.setS (wRd c.w) (f (x.sreg (wRa c.w)) (wImmU c.w)))

def qAdd : QOp := qAlu aluAdd
def qSub : QOp := qAlu aluSub
def qAnd : QOp := qAlu fun a b => a &&& b
def qOr : QOp := qAlu fun a b => a ||| b
def qXor : QOp := qAlu fun a b => a ^^^ b
def qSll : QOp := qAlu aluSll
def qSrl : QOp := qAlu aluSrl
def qSra : QOp := qAlu aluSra
def qClt : QOp := qAlu aluClt
def qCltu : QOp := qAlu aluCltu
def qMin : QOp := qAlu (minS 64)
def qMax : QOp := qAlu (maxS 64)
def qMinu : QOp := qAlu min
def qMaxu : QOp := qAlu max
def qClz : QOp := qAlu fun a _ => aluClz a
def qPopc : QOp := qAlu fun a _ => aluPopc a
def qBswapD : QOp := qAlu fun a _ => bswap 8 a
def qBswapW : QOp := qAlu fun a _ => bswap 4 a
def qBswapH : QOp := qAlu fun a _ => bswap 2 a

/-- The place and width a bit field instruction names in rb. -/
def fieldLsb (b : Nat) : Nat := bits b 0 6
def fieldWidth (b : Nat) : Nat := bits b 6 6 + 1

/-- BFX and BFI: rd = f (old rd) ra lsb width. -/
def qField (f : Nat → Nat → Nat → Nat → Nat) : QOp := fun c d x =>
  let b := x.sreg (wRb c.w)
  if 64 < fieldLsb b + fieldWidth b then illegal d
  else .go d (x.setS (wRd c.w) (f (x.sreg (wRd c.w)) (x.sreg (wRa c.w)) (fieldLsb b) (fieldWidth b)))

def qBfx : QOp := qField fun _ a l w => bits a l w
def qBfi : QOp := qField fun old a l w => putBits old l w a
def qMul : QOp := qAlu (mulLow 64)
def qMulh : QOp := qAlu (mulHighS 64)
def qMulhu : QOp := qAlu (mulHighU 64)
def qDivs : QOp := qDiv divS
def qDivu : QOp := qDiv fun a b => a / b
def qRem : QOp := qDiv remS
def qRemu : QOp := qDiv fun a b => a % b
def qAddi : QOp := qImm fun a i => ofSigned 64 (a + i)
def qAndi : QOp := qImmU fun a i => a &&& i
def qOri : QOp := qImmU fun a i => a ||| i
def qXori : QOp := qImmU fun a i => a ^^^ i
def qSlli : QOp := qImmU fun a i => aluSll a i
def qSrli : QOp := qImmU fun a i => aluSrl a i
def qSrai : QOp := qImmU fun a i => aluSra a i
def qClti : QOp := qImm fun a i => maskOf 64 (decide (toSigned 64 a < i))
def qCltui : QOp := qImm fun a i => maskOf 64 (decide (a < ofSigned 64 i))
def qSetk : QOp := fun c d x => .go d (x.setS (wRd c.w) (ofSigned 64 (toSigned 20 (wImm20 c.w))))
def qShk : QOp := fun c d x =>
  .go d (x.setS (wRd c.w) (x.sreg (wRd c.w) * 2 ^ 20 % 2 ^ 64 ||| wImm20 c.w))

/-! ### Branches and jumps (R240) -/

/-- `pc` moved by a signed number of instructions. -/
def pcBy (pc : Nat) (off : Int) : Nat := ofSigned 64 (pc + 4 * off)

/-- A branch: ra in bits [11:7], rb in [16:12]. -/
def qBr (p : Nat → Nat → Bool) : QOp := fun c d x =>
  if p (x.sreg (wRd c.w)) (x.sreg (wRa c.w)) = false then .go d x
  else if pcBy x.pc (wOff12 c.w) % 4 ≠ 0 then .fault d 3 none
  else .jump d x (pcBy x.pc (wOff12 c.w))

def qBeq : QOp := qBr fun a b => a == b
def qBne : QOp := qBr fun a b => a != b
def qBlt : QOp := qBr (lessS 64)
def qBge : QOp := qBr fun a b => !lessS 64 a b
def qBltu : QOp := qBr fun a b => decide (a < b)
def qBgeu : QOp := qBr fun a b => decide (b ≤ a)

/-- LNK and LNKR: rd = pc + 4, then on at a target. -/
def qLink (target : QCtx → Thr → Nat) : QOp := fun c d x =>
  if target c x % 4 ≠ 0 then .fault d 3 none
  else .jump d (x.setS (wRd c.w) (x.pc + 4)) (target c x)

def qLnk : QOp := qLink fun c x => pcBy x.pc (toSigned 20 (wImm20 c.w))
def qLnkr : QOp := qLink fun c x => ofSigned 64 (x.sreg (wRa c.w) + wImm c.w)

/-! ### Loads, stores, atomics (R239, R241) -/

/-- The address of a load or store. -/
def eaOf (c : QCtx) (x : Thr) : Nat := ofSigned 64 (x.sreg (wRa c.w) + wImm c.w)

def qLd (len : Nat) (signed : Bool) : QOp := fun c d x =>
  qLoadOp c d x (eaOf c x) len fun x l =>
    x.setS (wRd c.w) (if signed then ofSigned 64 (toSigned (8 * len) (ofLe l)) else ofLe l)

/-- A store: the data register stands in the rd field. -/
def qSt (len : Nat) : QOp := fun c d x => qStoreOp c d x (eaOf c x) (leBytes len (x.sreg (wRd c.w)))

def qLb : QOp := qLd 1 true
def qLbu : QOp := qLd 1 false
def qLh : QOp := qLd 2 true
def qLhu : QOp := qLd 2 false
def qLw : QOp := qLd 4 true
def qLwu : QOp := qLd 4 false
def qLd8 : QOp := qLd 8 false
def qSb : QOp := qSt 1
def qSh : QOp := qSt 2
def qSw : QOp := qSt 4
def qSd : QOp := qSt 8

/-- An atomic of `len` bytes: `f` of the old word, rb and rd, each of `len` bytes, gives the new word. -/
def qAtom (len : Nat) (f : Nat → Nat → Nat → Nat) : QOp := fun c d x =>
  let m := 2 ^ (8 * len)
  qAtomOp c d x (x.sreg (wRa c.w)) len fun d x l =>
    let old := ofLe l
    (d, x.setS (wRd c.w) (ofSigned 64 (toSigned (8 * len) old)),
      leBytes len (f old (x.sreg (wRb c.w) % m) (x.sreg (wRd c.w) % m)))

def atomAdd (old b _cmp : Nat) : Nat := old + b
def atomSwap (_old b _cmp : Nat) : Nat := b
def atomCas (old b cmp : Nat) : Nat := if old = cmp then b else old

def qAaddW : QOp := qAtom 4 atomAdd
def qAaddD : QOp := qAtom 8 atomAdd
def qAswpW : QOp := qAtom 4 atomSwap
def qAswpD : QOp := qAtom 8 atomSwap
def qAcasW : QOp := qAtom 4 atomCas
def qAcasD : QOp := qAtom 8 atomCas

/-! ### Time (R256 to R258) -/

/-- A drove's replica `fine` tree clock edges after the last marker, beads (R50). -/
def Dev.droveTime (d : Dev) (n fine : Nat) : Nat :=
  let r := d.tim.replicas.getD (64 + n / 8) {}
  ((r.value + fine * r.incr) / (unitsPerBead : Int) % (beadWrap : Int)).toNat

def qStamp : QOp := fun c d x =>
  if wRd c.w % 2 = 1 then illegal d else .go d (x.setTime (wRd c.w) (beadsToRaw (d.droveTime c.n c.fine)))

def qStampLate : QOp := fun c d x =>
  .go (d.clearBit R.DRV_STATUS_late [c.n] c.t)
    (x.setS (wRd c.w) (bit ((d.rd R.DRV_STATUS_late [c.n]).testBit c.t)))

/-- WAITU: a target already reached leaves the thread late; else the comparator is armed (R215, R216). -/
def qWaitu : QOp := fun c d x =>
  let target := rawToBeads (x.timeReg (wRa c.w))
  if wRa c.w % 2 = 1 then illegal d
  else if target ≤ d.droveTime c.n c.fine then .go (d.setBit R.DRV_STATUS_late [c.n] c.t) x
  else .block d { x with cmp := some target }

def qTadd : QOp := fun c d x =>
  let v := (rawToBeads (x.timeReg (wRa c.w)) : Int) + toSigned 64 (x.sreg (wRb c.w))
  if wRd c.w % 2 = 1 ∨ wRa c.w % 2 = 1 then illegal d
  else .go d (x.setTime (wRd c.w) (beadsToRaw v.toNat))

def qTcmp : QOp := fun c d x =>
  let a := rawToBeads (x.timeReg (wRa c.w))
  let b := rawToBeads (x.timeReg (wRb c.w))
  if wRa c.w % 2 = 1 ∨ wRb c.w % 2 = 1 then illegal d
  else .go d (x.setS (wRd c.w) (if a < b then ones 64 else if a = b then 0 else 1))

/-- The index of an instant at rate p / q per second. -/
def timeIndex (up : Bool) (b p q : Nat) : Nat :=
  let den := q * beadsPerSec
  min (if up then (b * p + den - 1) / den else b * p / den) (2 ^ 64 - 1)

def qTidx (up : Bool) : QOp := fun c d x =>
  let p := bits (x.sreg (wRb c.w)) 0 32
  let q := bits (x.sreg (wRb c.w)) 32 32
  if wRa c.w % 2 = 1 ∨ p = 0 ∨ q = 0 then illegal d
  else .go d (x.setS (wRd c.w) (timeIndex up (rawToBeads (x.timeReg (wRa c.w))) p q))

def qTidxC : QOp := qTidx true
def qTidxF : QOp := qTidx false

/-- The start of index `k`, up to the next bead. -/
def indexStart (k p q : Nat) : Nat := (k * q * beadsPerSec + p - 1) / p

def qTat : QOp := fun c d x =>
  let p := bits (x.sreg (wRb c.w)) 0 32
  let q := bits (x.sreg (wRb c.w)) 32 32
  if wRd c.w % 2 = 1 ∨ p = 0 ∨ q = 0 then illegal d
  else .go d (x.setTime (wRd c.w) (beadsToRaw (indexStart (x.sreg (wRa c.w)) p q)))

/-! ### Synchronisation (Table 07-5) -/

def qSemAcq : QOp := fun c d x =>
  if tget 0 (d.drover c.n).sem (x.sreg (wRa c.w) % 256) = c.t + 1 then .go d x else .block d x

def qSemTry : QOp := fun c d x =>
  let s := x.sreg (wRa c.w) % 256
  let held := tget 0 (d.drover c.n).sem s
  if held ≠ 0 then .go d (x.setS (wRd c.w) (bit (held == c.t + 1)))
  else
    let r := d.semTry c.n s
    .go (if r.2 then r.1.holdIn c.n c.t s else r.1) (x.setS (wRd c.w) (bit r.2))

def qSemRel : QOp := fun c d x =>
  let s := x.sreg (wRa c.w) % 256
  if tget 0 (d.drover c.n).sem s ≠ c.t + 1 then illegal d else .go (d.semRel c.n s).1 x

/-- Every access of the thread is complete when its next instruction issues. -/
def qFence : QOp := fun _ d x => .go d x
def qWdogKick : QOp := fun _ d x => .go d { x with kick := d.now }
def qEvtRaise : QOp := fun c d x => .go (d.drvCause c.n 7) x

/-- TRET; instruction memory offsets are multiples of 4 (R236). -/
def qTret : QOp := fun c d x =>
  if d.flag R.DRV_THR_FAULT_active [c.n, c.t] = false then illegal d
  else .jump (d.wr R.DRV_THR_FAULT_active [c.n, c.t] 0) x (bits (x.sreg (wRa c.w)) 0 16 / 4 * 4)

def qBrk : QOp := fun _ d _ => .fault d 10 none
def qRdid : QOp := fun c d x => .go d (x.setS (wRd c.w) (8 * c.n + c.t))
/-- The count of drove clock cycles: a free value. -/
def qRdcyc : QOp := fun c d x => let p := d.draw 64; .go p.1 (x.setS (wRd c.w) p.2)

/-! ### The commands -/

/-- ADD. -/
def execAdd (i : Issue) (s : State) : Host.Outcome State Fault Refusal := issue i 0x100 qAdd s
/-- SUB. -/
def execSub (i : Issue) (s : State) : Host.Outcome State Fault Refusal := issue i 0x101 qSub s
/-- AND. -/
def execAnd (i : Issue) (s : State) : Host.Outcome State Fault Refusal := issue i 0x102 qAnd s
/-- OR. -/
def execOr (i : Issue) (s : State) : Host.Outcome State Fault Refusal := issue i 0x103 qOr s
/-- XOR. -/
def execXor (i : Issue) (s : State) : Host.Outcome State Fault Refusal := issue i 0x104 qXor s
/-- SLL. -/
def execSll (i : Issue) (s : State) : Host.Outcome State Fault Refusal := issue i 0x105 qSll s
/-- SRL. -/
def execSrl (i : Issue) (s : State) : Host.Outcome State Fault Refusal := issue i 0x106 qSrl s
/-- SRA. -/
def execSra (i : Issue) (s : State) : Host.Outcome State Fault Refusal := issue i 0x107 qSra s
/-- CLT. -/
def execClt (i : Issue) (s : State) : Host.Outcome State Fault Refusal := issue i 0x108 qClt s
/-- CLTU. -/
def execCltu (i : Issue) (s : State) : Host.Outcome State Fault Refusal := issue i 0x109 qCltu s
/-- MIN. -/
def execMin (i : Issue) (s : State) : Host.Outcome State Fault Refusal := issue i 0x10A qMin s
/-- MAX. -/
def execMax (i : Issue) (s : State) : Host.Outcome State Fault Refusal := issue i 0x10B qMax s
/-- MINU. -/
def execMinu (i : Issue) (s : State) : Host.Outcome State Fault Refusal := issue i 0x10C qMinu s
/-- MAXU. -/
def execMaxu (i : Issue) (s : State) : Host.Outcome State Fault Refusal := issue i 0x10D qMaxu s
/-- CLZ. -/
def execClz (i : Issue) (s : State) : Host.Outcome State Fault Refusal := issue i 0x10E qClz s
/-- POPC. -/
def execPopc (i : Issue) (s : State) : Host.Outcome State Fault Refusal := issue i 0x10F qPopc s
/-- BSWAP_D. -/
def execBswapD (i : Issue) (s : State) : Host.Outcome State Fault Refusal := issue i 0x110 qBswapD s
/-- BSWAP_W. -/
def execBswapW (i : Issue) (s : State) : Host.Outcome State Fault Refusal := issue i 0x111 qBswapW s
/-- BSWAP_H. -/
def execBswapH (i : Issue) (s : State) : Host.Outcome State Fault Refusal := issue i 0x112 qBswapH s
/-- BFX. -/
def execBfx (i : Issue) (s : State) : Host.Outcome State Fault Refusal := issue i 0x114 qBfx s
/-- BFI. -/
def execBfi (i : Issue) (s : State) : Host.Outcome State Fault Refusal := issue i 0x115 qBfi s
/-- MUL. -/
def execMul (i : Issue) (s : State) : Host.Outcome State Fault Refusal := issue i 0xB00 qMul s
/-- MULH. -/
def execMulh (i : Issue) (s : State) : Host.Outcome State Fault Refusal := issue i 0xB01 qMulh s
/-- MULHU. -/
def execMulhu (i : Issue) (s : State) : Host.Outcome State Fault Refusal := issue i 0xB02 qMulhu s
/-- DIV. -/
def execDiv (i : Issue) (s : State) : Host.Outcome State Fault Refusal := issue i 0xB03 qDivs s
/-- DIVU. -/
def execDivu (i : Issue) (s : State) : Host.Outcome State Fault Refusal := issue i 0xB04 qDivu s
/-- REM. -/
def execRem (i : Issue) (s : State) : Host.Outcome State Fault Refusal := issue i 0xB05 qRem s
/-- REMU. -/
def execRemu (i : Issue) (s : State) : Host.Outcome State Fault Refusal := issue i 0xB06 qRemu s
/-- ADDI. -/
def execAddi (i : Issue) (s : State) : Host.Outcome State Fault Refusal := issue i 0x200 qAddi s
/-- ANDI. -/
def execAndi (i : Issue) (s : State) : Host.Outcome State Fault Refusal := issue i 0x300 qAndi s
/-- ORI. -/
def execOri (i : Issue) (s : State) : Host.Outcome State Fault Refusal := issue i 0x400 qOri s
/-- XORI. -/
def execXori (i : Issue) (s : State) : Host.Outcome State Fault Refusal := issue i 0x500 qXori s
/-- SLLI. -/
def execSlli (i : Issue) (s : State) : Host.Outcome State Fault Refusal := issue i 0x600 qSlli s
/-- SRLI. -/
def execSrli (i : Issue) (s : State) : Host.Outcome State Fault Refusal := issue i 0x601 qSrli s
/-- SRAI. -/
def execSrai (i : Issue) (s : State) : Host.Outcome State Fault Refusal := issue i 0x602 qSrai s
/-- CLTI. -/
def execClti (i : Issue) (s : State) : Host.Outcome State Fault Refusal := issue i 0x700 qClti s
/-- CLTUI. -/
def execCltui (i : Issue) (s : State) : Host.Outcome State Fault Refusal := issue i 0x800 qCltui s
/-- SETK. -/
def execSetk (i : Issue) (s : State) : Host.Outcome State Fault Refusal := issue i 0x900 qSetk s
/-- SHK. -/
def execShk (i : Issue) (s : State) : Host.Outcome State Fault Refusal := issue i 0xA00 qShk s
/-- BEQ. -/
def execBeq (i : Issue) (s : State) : Host.Outcome State Fault Refusal := issue i 0xC00 qBeq s
/-- BNE. -/
def execBne (i : Issue) (s : State) : Host.Outcome State Fault Refusal := issue i 0xC01 qBne s
/-- BLT. -/
def execBlt (i : Issue) (s : State) : Host.Outcome State Fault Refusal := issue i 0xC02 qBlt s
/-- BGE. -/
def execBge (i : Issue) (s : State) : Host.Outcome State Fault Refusal := issue i 0xC03 qBge s
/-- BLTU. -/
def execBltu (i : Issue) (s : State) : Host.Outcome State Fault Refusal := issue i 0xC04 qBltu s
/-- BGEU. -/
def execBgeu (i : Issue) (s : State) : Host.Outcome State Fault Refusal := issue i 0xC05 qBgeu s
/-- LNK. -/
def execLnk (i : Issue) (s : State) : Host.Outcome State Fault Refusal := issue i 0xD00 qLnk s
/-- LNKR. -/
def execLnkr (i : Issue) (s : State) : Host.Outcome State Fault Refusal := issue i 0xE00 qLnkr s
/-- LB. -/
def execLb (i : Issue) (s : State) : Host.Outcome State Fault Refusal := issue i 0x1000 qLb s
/-- LBU. -/
def execLbu (i : Issue) (s : State) : Host.Outcome State Fault Refusal := issue i 0x1100 qLbu s
/-- LH. -/
def execLh (i : Issue) (s : State) : Host.Outcome State Fault Refusal := issue i 0x1200 qLh s
/-- LHU. -/
def execLhu (i : Issue) (s : State) : Host.Outcome State Fault Refusal := issue i 0x1300 qLhu s
/-- LW. -/
def execLw (i : Issue) (s : State) : Host.Outcome State Fault Refusal := issue i 0x1400 qLw s
/-- LWU. -/
def execLwu (i : Issue) (s : State) : Host.Outcome State Fault Refusal := issue i 0x1500 qLwu s
/-- LD. -/
def execLd (i : Issue) (s : State) : Host.Outcome State Fault Refusal := issue i 0x1600 qLd8 s
/-- SB. -/
def execSb (i : Issue) (s : State) : Host.Outcome State Fault Refusal := issue i 0x1800 qSb s
/-- SH. -/
def execSh (i : Issue) (s : State) : Host.Outcome State Fault Refusal := issue i 0x1900 qSh s
/-- SW. -/
def execSw (i : Issue) (s : State) : Host.Outcome State Fault Refusal := issue i 0x1A00 qSw s
/-- SD. -/
def execSd (i : Issue) (s : State) : Host.Outcome State Fault Refusal := issue i 0x1B00 qSd s
/-- AADD_W. -/
def execAaddW (i : Issue) (s : State) : Host.Outcome State Fault Refusal := issue i 0x1C00 qAaddW s
/-- AADD_D. -/
def execAaddD (i : Issue) (s : State) : Host.Outcome State Fault Refusal := issue i 0x1C01 qAaddD s
/-- ASWP_W. -/
def execAswpW (i : Issue) (s : State) : Host.Outcome State Fault Refusal := issue i 0x1C02 qAswpW s
/-- ASWP_D. -/
def execAswpD (i : Issue) (s : State) : Host.Outcome State Fault Refusal := issue i 0x1C03 qAswpD s
/-- ACAS_W. -/
def execAcasW (i : Issue) (s : State) : Host.Outcome State Fault Refusal := issue i 0x1C04 qAcasW s
/-- ACAS_D. -/
def execAcasD (i : Issue) (s : State) : Host.Outcome State Fault Refusal := issue i 0x1C05 qAcasD s
/-- STAMP. -/
def execStamp (i : Issue) (fine : Fin 256) (s : State) : Host.Outcome State Fault Refusal := issue i 0x3100 qStamp s fine
/-- STAMP_LATE. -/
def execStampLate (i : Issue) (s : State) : Host.Outcome State Fault Refusal := issue i 0x3101 qStampLate s
/-- WAITU. -/
def execWaitu (i : Issue) (fine : Fin 256) (s : State) : Host.Outcome State Fault Refusal := issue i 0x3102 qWaitu s fine
/-- TADD. -/
def execTadd (i : Issue) (s : State) : Host.Outcome State Fault Refusal := issue i 0x3103 qTadd s
/-- TCMP. -/
def execTcmp (i : Issue) (s : State) : Host.Outcome State Fault Refusal := issue i 0x3104 qTcmp s
/-- TIDX_C. -/
def execTidxC (i : Issue) (s : State) : Host.Outcome State Fault Refusal := issue i 0x3105 qTidxC s
/-- TIDX_F. -/
def execTidxF (i : Issue) (s : State) : Host.Outcome State Fault Refusal := issue i 0x3106 qTidxF s
/-- TAT. -/
def execTat (i : Issue) (s : State) : Host.Outcome State Fault Refusal := issue i 0x3107 qTat s
/-- SEM_ACQ. -/
def execSemAcq (i : Issue) (s : State) : Host.Outcome State Fault Refusal := issue i 0x3300 qSemAcq s
/-- SEM_TRY. -/
def execSemTry (i : Issue) (s : State) : Host.Outcome State Fault Refusal := issue i 0x3301 qSemTry s
/-- SEM_REL. -/
def execSemRel (i : Issue) (s : State) : Host.Outcome State Fault Refusal := issue i 0x3302 qSemRel s
/-- FENCE. -/
def execFence (i : Issue) (s : State) : Host.Outcome State Fault Refusal := issue i 0x3303 qFence s
/-- WDOG_KICK. -/
def execWdogKick (i : Issue) (s : State) : Host.Outcome State Fault Refusal := issue i 0x3304 qWdogKick s
/-- EVT_RAISE. -/
def execEvtRaise (i : Issue) (s : State) : Host.Outcome State Fault Refusal := issue i 0x3305 qEvtRaise s
/-- TRET. -/
def execTret (i : Issue) (s : State) : Host.Outcome State Fault Refusal := issue i 0x3306 qTret s
/-- BRK. -/
def execBrk (i : Issue) (s : State) : Host.Outcome State Fault Refusal := issue i 0x3307 qBrk s
/-- RDID. -/
def execRdid (i : Issue) (s : State) : Host.Outcome State Fault Refusal := issue i 0x3308 qRdid s
/-- RDCYC. -/
def execRdcyc (i : Issue) (s : State) : Host.Outcome State Fault Refusal := issue i 0x3309 qRdcyc s

end Sys2Proof.Machine
end

