-- ==== Sys2Proof/Machine/QVector.lean ====
section
/-! DEFINITION. Chapter 07: vector, mask, media and CRC instructions. -/

namespace Sys2Proof.Machine

/-! ### Lanes (R234, R243) -/

/-- Lane `i` of width `e`. -/
def lane (e v i : Nat) : Nat := bits v (i * e) e

/-- The vector whose lane `i` of width `e` is the low bits of `f i`. -/
def ofLanes (e : Nat) (f : Nat → Nat) : Nat :=
  (List.range (512 / e)).foldl (fun a i => a + f i % 2 ^ e * 2 ^ (i * e)) 0

/-- Lanes enabled by a mask take `f i`; the others keep those of `old`. -/
def maskLanes (e mask old : Nat) (f : Nat → Nat) : Nat :=
  ofLanes e fun i => if mask.testBit i then f i else lane e old i

/-- The element width a VALU or VMULG word names. -/
def wElem (w : Nat) : Nat := 8 * 2 ^ (wFunc w % 4)

/-- A masked lane-wise operation: `f width old va vb`. -/
def qLanes (f : Nat → Nat → Nat → Nat → Nat) : QOp := fun c d x =>
  let e := wElem c.w
  let old := x.vreg (wRd c.w)
  .go d (x.setV (wRd c.w) (maskLanes e (x.mreg (wMk c.w)) old fun i =>
    f e (lane e old i) (lane e (x.vreg (wRa c.w)) i) (lane e (x.vreg (wRb c.w)) i)))

/-- The low log2(e) bits of a shift count. -/
def shiftOf (e b : Nat) : Nat := b % e

def qVadd : QOp := qLanes fun _ _ a b => a + b
def qVsub : QOp := qLanes fun e _ a b => a + 2 ^ e - b
def qVadds : QOp := qLanes fun e _ a b => ofSigned e (satSigned e (toSigned e a + toSigned e b))
def qVsubs : QOp := qLanes fun e _ a b => ofSigned e (satSigned e (toSigned e a - toSigned e b))
def qVand : QOp := qLanes fun _ _ a b => a &&& b
def qVor : QOp := qLanes fun _ _ a b => a ||| b
def qVxor : QOp := qLanes fun _ _ a b => a ^^^ b
def qVsll : QOp := qLanes fun e _ a b => a * 2 ^ shiftOf e b
def qVsrl : QOp := qLanes fun e _ a b => a / 2 ^ shiftOf e b
def qVsra : QOp := qLanes fun e _ a b => sraN e a (shiftOf e b)
def qVmin : QOp := qLanes fun e _ a b => minS e a b
def qVmax : QOp := qLanes fun e _ a b => maxS e a b
def qVminu : QOp := qLanes fun _ _ a b => min a b
def qVmaxu : QOp := qLanes fun _ _ a b => max a b
def qVceq : QOp := qLanes fun e _ a b => maskOf e (a == b)
def qVclt : QOp := qLanes fun e _ a b => maskOf e (lessS e a b)
def qVcltu : QOp := qLanes fun e _ a b => maskOf e (decide (a < b))
def qVbsw : QOp := qLanes fun e _ a _ => bswap (e / 8) a
def qVmul : QOp := qLanes fun e _ a b => mulLow e a b
def qVmulh : QOp := qLanes fun e _ a b => mulHighS e a b
def qVmulhu : QOp := qLanes fun e _ a b => mulHighU e a b
def qVmac : QOp := qLanes fun e old a b => old + mulLow e a b

/-! ### VMISC (Table 07-4, R247) -/

def qVspl (e : Nat) : QOp := fun c d x =>
  .go d (x.setV (wRd c.w) (ofLanes e fun _ => x.sreg (wRa c.w)))
def qVsplB : QOp := qVspl 8
def qVsplH : QOp := qVspl 16
def qVsplW : QOp := qVspl 32
def qVsplD : QOp := qVspl 64
def qVext : QOp := fun c d x =>
  .go d (x.setS (wRd c.w) (lane 64 (x.vreg (wRa c.w)) (x.sreg (wRb c.w) % 8)))
def qVins : QOp := fun c d x =>
  .go d (x.setV (wRd c.w) (maskLanes 64 (2 ^ (x.sreg (wRb c.w) % 8)) (x.vreg (wRd c.w)) fun _ => x.sreg (wRa c.w)))
def qVmov : QOp := fun c d x => .go d (x.setV (wRd c.w) (x.vreg (wRa c.w)))

/-- The crossfade weights W of R168, m = 0 to 31. -/
def fadeTable : List Nat :=
  [39, 355, 982, 1915, 3146, 4662, 6448, 8489, 10762, 13248, 15922, 18758, 21729, 24806, 27960, 31160, 34376, 37576,
   40730, 43807, 46778, 49614, 52288, 54774, 57047, 59088, 60874, 62390, 63621, 64554, 65181, 65497]

def fadeWeight (m : Int) : Nat := if m < 0 then 0 else if m > 31 then 65536 else fadeTable.getD m.toNat 0

def qVxfw : QOp := fun c d x =>
  .go d (x.setV (wRd c.w) (ofLanes 64 fun i => fadeWeight (toSigned 64 (x.sreg (wRa c.w)) + i)))
def qMtm : QOp := fun c d x => .go d (x.setM (wMk c.w) (x.sreg (wRa c.w)))
def qMfm : QOp := fun c d x => .go d (x.setS (wRd c.w) (x.mreg (wMk c.w)))
def qMlen : QOp := fun c d x => .go d (x.setM (wMk c.w) (ones (min (x.sreg (wRa c.w)) 64)))

/-! ### Vector memory (R243, R244, R249) -/

/-- The address of VLD and VST. -/
def vaOf (c : QCtx) (x : Thr) : Nat := ofSigned 64 (x.sreg (wRa c.w) + 64 * wImm c.w)
def qVld : QOp := fun c d x => qLoadOp c d x (vaOf c x) 64 fun x l => x.setV (wRd c.w) (ofLe l)
def qVst : QOp := fun c d x => qStoreOp c d x (vaOf c x) (leBytes 64 (x.vreg (wRd c.w)))

/-- VAPUT swaps its enabled lanes into a line; of drove memory, a word swapped out with bit 63 set is a collision,
counted in MED_CNT mix_collide. -/
def Dev.vaput (d : Dev) (n a mask old new : Nat) : Dev × Nat :=
  let hits := ((List.range 8).filter fun i => mask.testBit i && (lane 64 old i).testBit 63).length
  let drove := match place n a with | .drove _ => true | _ => false
  (if drove = true ∧ hits ≠ 0 then d.medCount 10 hits else d, maskLanes 64 (mask % 256) old fun i => lane 64 new i)

def qVaadd : QOp := fun c d x =>
  qAtomOp c d x (x.sreg (wRa c.w)) 64 fun d x l =>
    (d, x, leBytes 64 (maskLanes 64 (x.mreg (wMk c.w) % 256) (ofLe l) fun i =>
      ofSigned 64 (satSigned 64 (toSigned 64 (lane 64 (ofLe l) i) + toSigned 64 (lane 64 (x.vreg (wRb c.w)) i)))))

def qVaput : QOp := fun c d x =>
  let a := x.sreg (wRa c.w)
  qAtomOp c d x a 64 fun d x l =>
    let r := d.vaput c.n a (x.mreg (wMk c.w)) (ofLe l) (x.vreg (wRb c.w))
    (r.1, x, leBytes 64 r.2)

/-! ### Media (R245 to R249) -/

/-- A read of crib bytes: device, fault code, bytes. -/
def cribLoad (c : QCtx) (d : Dev) (a len : Nat) : Dev × Nat × List Byte :=
  let k := placeKey c.n a
  let d := (d.serviceRange k len).sramEcc c.n k c.ecc
  if c.ecc = 2 then (d, 5, []) else (d, 0, d.bytes k len)

/-- Sample `j` of eight pgroups of 40 bytes, in network bit order. -/
def pgSample (v j : Nat) : Nat := bits v (310 - 10 * j) 10

def qUnpkP10 : QOp := fun c d x =>
  let a := x.sreg (wRa c.w)
  if inCrib a 40 = false then .fault d 4 (some a)
  else
    let r := cribLoad c d a 40
    if r.2.1 ≠ 0 then .fault r.1 r.2.1 (some a)
    else .go r.1 (x.setV (wRd c.w) (ofLanes 16 fun j => pgSample (ofBe r.2.2) j))

/-- 32 samples of 10 bits as a number in network bit order. -/
def pgPack (v : Nat) : Nat :=
  (List.range 32).foldl (fun a j => a * 1024 + bits v (16 * j) 10) 0

def qPkP10 : QOp := fun c d x =>
  let a := x.sreg (wRa c.w)
  if inCrib a 40 = false then .fault d 4 (some a)
  else
    let k := placeKey c.n a
    .go ((d.serviceRange k 40).setBytes k (beBytes 40 (pgPack (x.vreg (wRb c.w))))) x

/-- Bytes per sample of a deinterleave format. -/
def fmtBytes (fmt : Nat) : Nat := if fmt = 0 then 2 else if fmt = 1 then 3 else 4
def Deint.total (y : Deint) : Nat := y.spp * y.chans * fmtBytes y.fmt
/-- spp rounded up to 8. -/
def Deint.sp8 (y : Deint) : Nat := (y.spp + 7) / 8 * 8

def qAdcfg : QOp := fun c d x =>
  let v := x.vreg (wRa c.w)
  let y : Deint := { src := bits v 0 40, dst := bits v 64 40, fmt := bits v 128 2, chans := bits v 136 7, spp := bits v 144 7 }
  if y.fmt = 3 ∨ y.chans = 0 ∨ 64 < y.chans ∨ y.spp = 0 ∨ 96 < y.spp ∨ bits v 40 24 ≠ 0 ∨ bits v 104 24 ≠ 0
      ∨ bits v 130 6 ≠ 0 ∨ bits v 143 1 ≠ 0 ∨ bits v 151 361 ≠ 0 then illegal d
  else if y.dst % 32 ≠ 0 then .fault d 3 (some y.dst)
  else if inCrib y.src y.total = false then .fault d 4 (some y.src)
  else if inCrib y.dst (y.chans * y.sp8 * 4) = false then .fault d 4 (some y.dst)
  else .go d { x with deint := y }

/-- What a sample of `fmt` is staged as: L16 as signed 24 bits, L24 sign-extended, AES3 unchanged. -/
def staged (fmt v : Nat) : Nat :=
  if fmt = 0 then ofSigned 32 (toSigned 16 v * 256) else if fmt = 1 then ofSigned 32 (toSigned 24 v) else v

/-- Samples are taken from the bytes and staged until fewer than one is left. -/
def deintSamples (fuel n : Nat) (y : Deint) (l : List Byte) (d : Dev) : Dev × Deint :=
  match fuel with
  | 0 => (d, { y with carry := l })
  | fuel + 1 =>
    let b := fmtBytes y.fmt
    if l.length < b then (d, { y with carry := l })
    else
      let a := y.dst + (y.k % y.chans * y.sp8 + y.k / y.chans) * 4
      let key := placeKey n a
      deintSamples fuel n { y with k := y.k + 1 } (l.drop b)
        ((d.serviceAt key).store key 4 (staged y.fmt (ofBe (l.take b))))

def qAdeint : QOp := fun c d x =>
  let y := x.deint
  let m := min 64 (y.total - y.done)
  let r := if m = 0 then (d, 0, []) else cribLoad c d (y.src + y.done) m
  if r.2.1 ≠ 0 then .fault r.1 r.2.1 (some (y.src + y.done))
  else
    let z := deintSamples 64 c.n { y with done := y.done + m } (y.carry ++ r.2.2) r.1
    .go z.1 ({ x with deint := z.2 }.setS (wRd c.w) z.2.k)

def qAmix : QOp := fun c d x =>
  let a := x.sreg (wRa c.w)
  let vb := x.vreg (wRb c.w)
  if a % 32 ≠ 0 then .fault d 3 (some a)
  else if inCrib a 32 = false then .fault d 4 (some a)
  else
    let r := cribLoad c d a 32
    if r.2.1 ≠ 0 then .fault r.1 r.2.1 (some a)
    else .go r.1 (x.setV (wRd c.w) (maskLanes 64 (x.mreg (wMk c.w)) (x.vreg (wRd c.w)) fun i =>
      ofSigned 64 (toSigned 32 (lane 32 (ofLe r.2.2) i) * (lane 32 vb (2 * i) : Nat))))

/-- AMOV: on a remote drove it is a long operation. -/
def qAmov : QOp := fun c d x =>
  let a := x.sreg (wRa c.w)
  let b := x.sreg (wRb c.w)
  if a % 64 ≠ 0 then .fault d 3 (some a)
  else if b % 32 ≠ 0 then .fault d 3 (some b)
  else if (match place c.n a with | .drove _ => false | _ => true) then .fault d 4 (some a)
  else if inCrib b 32 = false then .fault d 4 (some b)
  else if isLong c.n a = true ∧ c.fin = false then .block d x
  else
    let src := cribLoad (if c.fin then { c with ecc := 0 } else c) d b 32
    if src.2.1 ≠ 0 then .fault src.1 src.2.1 (some b)
    else
      let new := ofLanes 64 fun i => 2 ^ 63 + lane 32 (ofLe src.2.2) i
      qAtomOp (if c.fin then c else { c with ecc := 0 }) src.1 x a 64 fun d x l =>
        let r := d.vaput c.n a (x.mreg (wMk c.w)) (ofLe l) new
        (r.1, x, leBytes 64 r.2)

/-! ### CRC (R259) -/

def qCrcC : QOp := fun c d x =>
  let l := ((List.range 64).filter fun j => (x.mreg (wMk c.w)).testBit j).map fun j =>
    BitVec.ofNat 8 (lane 8 (x.vreg (wRb c.w)) j)
  .go d (x.setS (wRd c.w) (crcBytes 0x82F63B78 (x.sreg (wRa c.w) % 2 ^ 32) l))

/-! ### The commands -/

/-- VADD. -/
def execVadd (i : Issue) (s : State) : Host.Outcome State Fault Refusal := issue i 0x2200 qVadd s
/-- VSUB. -/
def execVsub (i : Issue) (s : State) : Host.Outcome State Fault Refusal := issue i 0x2201 qVsub s
/-- VADDS. -/
def execVadds (i : Issue) (s : State) : Host.Outcome State Fault Refusal := issue i 0x2202 qVadds s
/-- VSUBS. -/
def execVsubs (i : Issue) (s : State) : Host.Outcome State Fault Refusal := issue i 0x2203 qVsubs s
/-- VAND. -/
def execVand (i : Issue) (s : State) : Host.Outcome State Fault Refusal := issue i 0x2204 qVand s
/-- VOR. -/
def execVor (i : Issue) (s : State) : Host.Outcome State Fault Refusal := issue i 0x2205 qVor s
/-- VXOR. -/
def execVxor (i : Issue) (s : State) : Host.Outcome State Fault Refusal := issue i 0x2206 qVxor s
/-- VSLL. -/
def execVsll (i : Issue) (s : State) : Host.Outcome State Fault Refusal := issue i 0x2207 qVsll s
/-- VSRL. -/
def execVsrl (i : Issue) (s : State) : Host.Outcome State Fault Refusal := issue i 0x2208 qVsrl s
/-- VSRA. -/
def execVsra (i : Issue) (s : State) : Host.Outcome State Fault Refusal := issue i 0x2209 qVsra s
/-- VMIN. -/
def execVmin (i : Issue) (s : State) : Host.Outcome State Fault Refusal := issue i 0x220A qVmin s
/-- VMAX. -/
def execVmax (i : Issue) (s : State) : Host.Outcome State Fault Refusal := issue i 0x220B qVmax s
/-- VMINU. -/
def execVminu (i : Issue) (s : State) : Host.Outcome State Fault Refusal := issue i 0x220C qVminu s
/-- VMAXU. -/
def execVmaxu (i : Issue) (s : State) : Host.Outcome State Fault Refusal := issue i 0x220D qVmaxu s
/-- VCEQ. -/
def execVceq (i : Issue) (s : State) : Host.Outcome State Fault Refusal := issue i 0x220E qVceq s
/-- VCLT. -/
def execVclt (i : Issue) (s : State) : Host.Outcome State Fault Refusal := issue i 0x220F qVclt s
/-- VCLTU. -/
def execVcltu (i : Issue) (s : State) : Host.Outcome State Fault Refusal := issue i 0x2210 qVcltu s
/-- VBSW. -/
def execVbsw (i : Issue) (s : State) : Host.Outcome State Fault Refusal := issue i 0x2211 qVbsw s
/-- VMUL. -/
def execVmul (i : Issue) (s : State) : Host.Outcome State Fault Refusal := issue i 0x2300 qVmul s
/-- VMULH. -/
def execVmulh (i : Issue) (s : State) : Host.Outcome State Fault Refusal := issue i 0x2301 qVmulh s
/-- VMULHU. -/
def execVmulhu (i : Issue) (s : State) : Host.Outcome State Fault Refusal := issue i 0x2302 qVmulhu s
/-- VMAC. -/
def execVmac (i : Issue) (s : State) : Host.Outcome State Fault Refusal := issue i 0x2303 qVmac s
/-- VSPL_B. -/
def execVsplB (i : Issue) (s : State) : Host.Outcome State Fault Refusal := issue i 0x2400 qVsplB s
/-- VSPL_H. -/
def execVsplH (i : Issue) (s : State) : Host.Outcome State Fault Refusal := issue i 0x2401 qVsplH s
/-- VSPL_W. -/
def execVsplW (i : Issue) (s : State) : Host.Outcome State Fault Refusal := issue i 0x2402 qVsplW s
/-- VSPL_D. -/
def execVsplD (i : Issue) (s : State) : Host.Outcome State Fault Refusal := issue i 0x2403 qVsplD s
/-- VEXT. -/
def execVext (i : Issue) (s : State) : Host.Outcome State Fault Refusal := issue i 0x2404 qVext s
/-- VINS. -/
def execVins (i : Issue) (s : State) : Host.Outcome State Fault Refusal := issue i 0x2405 qVins s
/-- VMOV. -/
def execVmov (i : Issue) (s : State) : Host.Outcome State Fault Refusal := issue i 0x2406 qVmov s
/-- VXFW. -/
def execVxfw (i : Issue) (s : State) : Host.Outcome State Fault Refusal := issue i 0x2407 qVxfw s
/-- MTM. -/
def execMtm (i : Issue) (s : State) : Host.Outcome State Fault Refusal := issue i 0x2408 qMtm s
/-- MFM. -/
def execMfm (i : Issue) (s : State) : Host.Outcome State Fault Refusal := issue i 0x2409 qMfm s
/-- MLEN. -/
def execMlen (i : Issue) (s : State) : Host.Outcome State Fault Refusal := issue i 0x240A qMlen s
/-- VLD. -/
def execVld (i : Issue) (s : State) : Host.Outcome State Fault Refusal := issue i 0x2000 qVld s
/-- VST. -/
def execVst (i : Issue) (s : State) : Host.Outcome State Fault Refusal := issue i 0x2100 qVst s
/-- VAADD. -/
def execVaadd (i : Issue) (s : State) : Host.Outcome State Fault Refusal := issue i 0x2500 qVaadd s
/-- VAPUT. -/
def execVaput (i : Issue) (s : State) : Host.Outcome State Fault Refusal := issue i 0x2501 qVaput s
/-- UNPK_P10. -/
def execUnpkP10 (i : Issue) (s : State) : Host.Outcome State Fault Refusal := issue i 0x2800 qUnpkP10 s
/-- PK_P10. -/
def execPkP10 (i : Issue) (s : State) : Host.Outcome State Fault Refusal := issue i 0x2801 qPkP10 s
/-- ADCFG. -/
def execAdcfg (i : Issue) (s : State) : Host.Outcome State Fault Refusal := issue i 0x2802 qAdcfg s
/-- ADEINT. -/
def execAdeint (i : Issue) (s : State) : Host.Outcome State Fault Refusal := issue i 0x2803 qAdeint s
/-- AMIX. -/
def execAmix (i : Issue) (s : State) : Host.Outcome State Fault Refusal := issue i 0x2804 qAmix s
/-- AMOV. -/
def execAmov (i : Issue) (s : State) : Host.Outcome State Fault Refusal := issue i 0x2805 qAmov s
/-- CRC_C. -/
def execCrcC (i : Issue) (s : State) : Host.Outcome State Fault Refusal := issue i 0x2900 qCrcC s

end Sys2Proof.Machine
end

