-- ==== Sys2Proof/Machine/QPacket.lean ====
section
/-! DEFINITION. Chapter 07: packet, channel and DMA instructions; the completion of long operations; comparators. -/

namespace Sys2Proof.Machine

/-! ### Packets (R250 to R254) -/

def qPktNext : QOp := fun c d x =>
  match d.nextWindow c.n c.t with
  | some r => .go r.1 (x.setS (wRd c.w) r.2)
  | none => .block d x

def qPktNextNb : QOp := fun c d x =>
  match d.nextWindow c.n c.t with
  | some r => .go r.1 (x.setS (wRd c.w) r.2)
  | none => .go d (x.setS (wRd c.w) 0)

def qPktFree : QOp := fun c d x =>
  match d.freeWindow c.n (x.sreg (wRa c.w)) with
  | some e => .go e x
  | none => .fault d 11 (some (x.sreg (wRa c.w)))

/-- The send descriptor breaks a rule of R252 that raises ILLEGAL_OP. -/
def Dev.sendIllegal (d : Dev) (n v : Nat) : Bool :=
  sdDest v == 3 || bits v 24 8 != 0 || bits v 46 18 != 0 || bits v 104 24 != 0 || bits v 288 32 != 0 ||
    bits v 352 160 != 0 || decide (sdLen v < 64 ∨ 9600 < sdLen v) ||
    (sdDest v == 2 && decide (95 < sdTarget v % 128)) ||
    (sdFree v && (d.windowAt n (sdSrc v) (sdLen v)).isNone)

/-- PKT.SEND; the queue holds eight (R207). -/
def qPktSend : QOp := fun c d x =>
  let v := x.vreg (wRb c.w)
  let q := sdSq v
  if d.sendIllegal c.n v then illegal d
  else if inCrib (sdSrc v) (sdLen v) = false ∧ inOneDrove c.n (sdSrc v) (sdLen v) = false then .fault d 4 (some (sdSrc v))
  else if 8 ≤ (d.sendQ c.n q).length then .block d x
  else .go (d.setSendQ c.n q (d.sendQ c.n q ++ [v])) x

def qPktSqflush : QOp := fun c d x =>
  let a := x.sreg (wRa c.w)
  let q := x.sreg (wRb c.w) % 4
  let l := d.sendQ c.n q
  let k := placeKey c.n a
  if a % 64 ≠ 0 then .fault d 3 (some a)
  else if inCrib a 2048 = false then .fault d 4 (some a)
  else
    let d := d.serviceRange k (64 * l.length)
    .go ((d.setBytes k (l.flatMap fun v => leBytes 64 v)).flushQueue c.n q) (x.setS (wRd c.w) l.length)

def qPktTsrd : QOp := fun c d x =>
  let y := d.drover c.n
  match y.ts with
  | [] => .go d (x.setV (wRd c.w) 0)
  | e :: r => .go (d.setDrover c.n { y with ts := r })
      (x.setV (wRd c.w) (e.ts % 2 ^ 96 + e.tag % 2 ^ 32 * 2 ^ 96 + 2 ^ 128 + bit e.dropped * 2 ^ 129))

/-! ### Channel entries (R255, R126, R138) -/

/-- An image judged for a read on behalf of a stream: FREE when it is another's (R126). -/
def judgeChan (img idx sid : Nat) : Nat :=
  if eType img = 0x0C ∧ (bits img 8 6 ≠ idx % 64 ∨ bits img 16 18 ≠ sid) then 0 else img

/-- What CHRD finds: device, old and new image, pending, T_eff, hit, ecc. -/
structure ChanFind where
  old : Nat := 0
  new : Nat := 0
  pending : Bool := false
  teff : Nat := 0
  hit : Bool := false
  ecc : Bool := false

/-- The images of channel entry `i`, before they are judged, and the change record read for it. -/
def Dev.chanImages (d : Dev) (i : Nat) : ChanFind × Option LineTag :=
  let e := d.entry i
  let s := ePendSlot e - 1
  let state := d.rd R.RTE_SALVO_STAT_state [s]
  if ePendSlot e = 0 ∨ state = 1 ∨ state = 4 then ({ old := e, new := e }, none)
  else
    let r := d.record s (ePendIdx e)
    let f : ChanFind := { pending := true, teff := d.rd R.RTE_SALVO_STAT_t_eff [s] }
    (if eGen e = eGen r then { f with new := e, old := r } else { f with new := r, old := e },
      some (.record s (ePendIdx e)))

/-- A channel entry read through the cache's second port. -/
def Dev.chanRead (d : Dev) (n i sid : Nat) : Dev × ChanFind :=
  let d := (d.rteCount 12).drvCount n 8
  let e := d.entry i
  let (f, rec_) := d.chanImages i
  let set := d.setOfEntry i
  let tag : LineTag := if isStream e then .stream i else .chan i
  let lines := tag :: rec_.toList
  let hit := lines.all fun t => ((d.cset set).find t).isSome
  let bad := d.lineBad (entryAddr i) || (match rec_ with | some (.record s j) => d.lineBad (recordAddr s j) | _ => false)
  if bad then ((d.rteCount 14).routeEcc (i / 8), { hit := hit, ecc := true })
  else
    let d := lines.foldl (fun (d : Dev) t => d.loadLine set t (ePin e == 1 && t == tag) false) d
    let a := judgeChan f.old i sid
    let b := judgeChan f.new i sid
    let d := if a ≠ f.old ∨ b ≠ f.new then d.rteCount 10 else d
    (d, { f with old := a, new := b, hit := hit })

def qChrd : QOp := fun c d x =>
  let a := x.sreg (wRa c.w)
  if wRd c.w % 2 = 1 ∨ bits a 42 22 ≠ 0 then illegal d
  else if c.fin = false then .block d x
  else
    let r := d.chanRead c.n (bits a 0 24) (bits a 24 18)
    let f := r.2
    let hi := putBits (putBits (putBits (putBits f.new 352 96 f.teff) 448 1 (bit f.pending)) 449 1 (bit f.hit)) 450 1 (bit f.ecc)
    .go r.1 ((x.setV (wRd c.w) f.old).setV (wRd c.w + 1) hi)

/-! ### DMA (R260) -/

def ddSrc (v : Nat) : Nat := bits v 0 40
def ddDst (v : Nat) : Nat := bits v 64 40
def ddLen (v : Nat) : Nat := bits v 128 25

def qDmaGo : QOp := fun c d x =>
  let v := x.vreg (wRb c.w)
  let k := wFunc c.w % 4
  let ch := d.dmaChan c.n k
  if ddLen v < 64 ∨ 16777216 < ddLen v ∨ ddLen v % 64 ≠ 0 ∨ bits v 40 24 ≠ 0 ∨ bits v 104 24 ≠ 0 ∨ bits v 153 359 ≠ 0
  then illegal d
  else if ddSrc v % 64 ≠ 0 then .fault d 3 (some (ddSrc v))
  else if ddDst v % 64 ≠ 0 then .fault d 3 (some (ddDst v))
  else if dmaRange c.n (ddSrc v) (ddLen v) true = false then .fault d 4 (some (ddSrc v))
  else if dmaRange c.n (ddDst v) (ddLen v) false = false then .fault d 4 (some (ddDst v))
  else if 4 ≤ ch.queue.length then .block d x
  else .go (d.setDma c.n k { ch with queue := ch.queue ++ [⟨ddSrc v, ddDst v, ddLen v⟩] }) x

/-- The report of a channel: fault BUS_ERR the first time, else the status; a report of an idle channel clears
it. -/
def dmaReport (poll : Bool) : QOp := fun c d x =>
  let k := wFunc c.w % 4
  let ch := d.dmaChan c.n k
  let idle := ch.queue.isEmpty
  if ch.status = 2 ∧ ch.busRaised = false then .fault (d.setDma c.n k { ch with busRaised := true }) 6 none
  else
    let v := ch.status + 4 * bit ch.busySeen + (if poll && !idle then 8 else 0)
    let after : DmaChan := { ch with status := 0, busySeen := false, busRaised := false }
    .go (if idle then d.setDma c.n k after else d) (x.setS (wRd c.w) v)

def qDmaWait : QOp := fun c d x =>
  if (d.dmaChan c.n (wFunc c.w % 4)).queue.isEmpty then dmaReport false c d x else .block d x
def qDmaPoll : QOp := dmaReport true

/-! ### Long operations (R196) and comparators (R52, R215, R216) -/

/-- The operation a blocked thread completes, by its number; none for a wait that other commands end. -/
def longOp (key : Nat) : Option QOp :=
  ([(0x1000, qLb), (0x1100, qLbu), (0x1200, qLh), (0x1300, qLhu), (0x1400, qLw), (0x1500, qLwu), (0x1600, qLd8),
    (0x1800, qSb), (0x1900, qSh), (0x1A00, qSw), (0x1B00, qSd), (0x1C00, qAaddW), (0x1C01, qAaddD), (0x1C02, qAswpW),
    (0x1C03, qAswpD), (0x1C04, qAcasW), (0x1C05, qAcasD), (0x2000, qVld), (0x2100, qVst), (0x2500, qVaadd),
    (0x2501, qVaput), (0x2805, qAmov), (0x3000, qPktNext), (0x3003, qPktSend), (0x3006, qChrd), (0x3200, qDmaGo),
    (0x3201, qDmaWait)].find? fun (e : Nat × QOp) => e.1 == key).map (·.2)

/-- A blocked thread's operation completes: an access in flight even while its drover is halted (R224), a wait for a
window, a send queue or a DMA channel only when its threads may issue. -/
def longDone (n t ecc : Nat) (errs : List (Nat × Nat)) (f : NvFind) (d : Dev) : Dev :=
  let x := d.thr n t
  match x.wait with
  | none => d
  | some w =>
    match (opKey w).bind longOp with
    | none => d
    | some op =>
      if d.thrState n t ≠ 2 ∨ (if inFlight w then d.droveRuns n else d.issues n) = false then d
      else
        let c : QCtx := { n := n, t := t, w := w, ecc := ecc, errs := errs, find := f, fin := true }
        Dev.retire c (op c d x)

/-- A thread's comparator fires when its drove's replica is at or after the target; while its drover is halted it stays
fired. -/
def comparatorFire (n t fine : Nat) (d : Dev) : Dev :=
  let x := d.thr n t
  match x.cmp with
  | none => d
  | some target =>
    if d.thrState n t ≠ 2 ∨ isWaitu (x.wait.getD 0) = false ∨ d.droveRuns n = false ∨ d.droveTime n fine < target then d
    else if d.halted n then d.setThr n t { x with cmp := none }
    else if d.issues n then d.threadGo n t
    else d

/-! ### The commands -/

/-- PKT_NEXT. -/
def execPktNext (i : Issue) (s : State) : Host.Outcome State Fault Refusal := issue i 0x3000 qPktNext s
/-- PKT_NEXT_NB. -/
def execPktNextNb (i : Issue) (s : State) : Host.Outcome State Fault Refusal := issue i 0x3001 qPktNextNb s
/-- PKT_FREE. -/
def execPktFree (i : Issue) (s : State) : Host.Outcome State Fault Refusal := issue i 0x3002 qPktFree s
/-- PKT_SEND. -/
def execPktSend (i : Issue) (s : State) : Host.Outcome State Fault Refusal := issue i 0x3003 qPktSend s
/-- PKT_SQFLUSH. -/
def execPktSqflush (i : Issue) (s : State) : Host.Outcome State Fault Refusal := issue i 0x3004 qPktSqflush s
/-- PKT_TSRD. -/
def execPktTsrd (i : Issue) (s : State) : Host.Outcome State Fault Refusal := issue i 0x3005 qPktTsrd s
/-- CHRD. -/
def execChrd (i : Issue) (s : State) : Host.Outcome State Fault Refusal := issue i 0x3006 qChrd s
/-- DMA_GO. -/
def execDmaGo (i : Issue) (s : State) : Host.Outcome State Fault Refusal := issue i 0x3200 qDmaGo s
/-- DMA_WAIT. -/
def execDmaWait (i : Issue) (s : State) : Host.Outcome State Fault Refusal := issue i 0x3201 qDmaWait s
/-- DMA_POLL. -/
def execDmaPoll (i : Issue) (s : State) : Host.Outcome State Fault Refusal := issue i 0x3202 qDmaPoll s

/-- LONG_OP_COMPLETE: what the physical layer finds in the data, as in Issue, spaceRead. -/
def execLongOpComplete (n : Fin 96) (t : Fin 8) (ecc : Fin 3) (errs : List (Nat × Nat)) (f : NvFind) (s : State) :
    Host.Outcome State Fault Refusal :=
  run s (longDone n t ecc errs f)

/-- COMPARATOR_FIRE: at the `fine`-th tree clock edge after the last marker. -/
def execComparatorFire (n : Fin 96) (t : Fin 8) (fine : Fin 256) (s : State) : Host.Outcome State Fault Refusal :=
  run s (comparatorFire n t fine)

end Sys2Proof.Machine
end

