-- ==== Sys2Proof/Machine/Dispatch.lean ====
section
/-! DEFINITION. The dispatch: one arm for each constructor of `Instr`, each one direct call of the
command's meaning. -/

namespace Sys2Proof.Machine

/-- What a command does to everything but the queue. -/
def exec (i : Instr) (s : State) : Host.Outcome State Fault Refusal :=
  match i with
  | .registerWrite inp desc a be v => Sys2Proof.Machine.execRegisterWrite inp desc a be v s
  | .stileTimeout x => Sys2Proof.Machine.execStileTimeout x s
  | .synthesiserStep x => Sys2Proof.Machine.execSynthesiserStep x s
  | .markerEdge => Sys2Proof.Machine.execMarkerEdge s
  | .timSetGo inp => Sys2Proof.Machine.execTimSetGo inp s
  | .timStep inp ofs => Sys2Proof.Machine.execTimStep inp ofs s
  | .timFreqAdjWrite inp desc adj => Sys2Proof.Machine.execTimFreqAdjWrite inp desc adj s
  | .comparatorFire n t fine => Sys2Proof.Machine.execComparatorFire n t fine s
  | .servoSrcWrite inp desc src => Sys2Proof.Machine.execServoSrcWrite inp desc src s
  | .servoSample ofs => Sys2Proof.Machine.execServoSample ofs s
  | .announceReceiptTimeout p st => Sys2Proof.Machine.execAnnounceReceiptTimeout p st s
  | .ppsSourceLost => Sys2Proof.Machine.execPpsSourceLost s
  | .holdoverSpec => Sys2Proof.Machine.execHoldoverSpec s
  | .ptpMessageRx p sp type domain len cls tlv st chg => Sys2Proof.Machine.execPtpMessageRx p sp type domain len cls tlv st chg s
  | .ptpSyncTx p fine => Sys2Proof.Machine.execPtpSyncTx p fine s
  | .smpteTlvTx p => Sys2Proof.Machine.execSmpteTlvTx p s
  | .syncInEdge n fine rise => Sys2Proof.Machine.execSyncInEdge n fine rise s
  | .sinTsRead inp n => Sys2Proof.Machine.execSinTsRead inp n s
  | .syncOutEdge n => Sys2Proof.Machine.execSyncOutEdge n s
  | .soutCommit inp n => Sys2Proof.Machine.execSoutCommit inp n s
  | .soutCommitApply n => Sys2Proof.Machine.execSoutCommitApply n s
  | .pllLock => Sys2Proof.Machine.execPllLock s
  | .timeTreeCalDone sums errs => Sys2Proof.Machine.execTimeTreeCalDone sums errs s
  | .portTsCalDone p sp => Sys2Proof.Machine.execPortTsCalDone p sp s
  | .backgroundCal temp sums errs => Sys2Proof.Machine.execBackgroundCal temp sums errs s
  | .prtCfgWrite inp desc q v => Sys2Proof.Machine.execPrtCfgWrite inp desc q v s
  | .prtBufLimWrite inp desc q p v => Sys2Proof.Machine.execPrtBufLimWrite inp desc q p v s
  | .serdesCalDone => Sys2Proof.Machine.execSerdesCalDone s
  | .cdrLock q sp => Sys2Proof.Machine.execCdrLock q sp s
  | .fecLock q sp => Sys2Proof.Machine.execFecLock q sp s
  | .pcsLock q sp => Sys2Proof.Machine.execPcsLock q sp s
  | .pcsLockLoss q sp busy => Sys2Proof.Machine.execPcsLockLoss q sp busy s
  | .faultChange q sp l r => Sys2Proof.Machine.execFaultChange q sp l r s
  | .fecCodeword q sp r => Sys2Proof.Machine.execFecCodeword q sp r s
  | .frameRx q sp f fine => Sys2Proof.Machine.execFrameRx q sp f fine s
  | .ingressCellAlloc q sp p => Sys2Proof.Machine.execIngressCellAlloc q sp p s
  | .pfcRefresh q p => Sys2Proof.Machine.execPfcRefresh q p s
  | .pfcFrameRx q sp en times => Sys2Proof.Machine.execPfcFrameRx q sp en times s
  | .pfcPauseExpire q sp p => Sys2Proof.Machine.execPfcPauseExpire q sp p s
  | .egressQueueEnter q f => Sys2Proof.Machine.execEgressQueueEnter q f s
  | .egressQueueWaitAdmit q => Sys2Proof.Machine.execEgressQueueWaitAdmit q s
  | .egressStart q sp fine bad => Sys2Proof.Machine.execEgressStart q sp fine bad s
  | .egressStop q fine => Sys2Proof.Machine.execEgressStop q fine s
  | .egressRelease q fine => Sys2Proof.Machine.execEgressRelease q fine s
  | .ingressDrop q fine => Sys2Proof.Machine.execIngressDrop q fine s
  | .ingressRelease q fine => Sys2Proof.Machine.execIngressRelease q fine s
  | .streamStop q fine => Sys2Proof.Machine.execStreamStop q fine s
  | .streamRelease q fine => Sys2Proof.Machine.execStreamRelease q fine s
  | .droverHalt q fine => Sys2Proof.Machine.execDroverHalt q fine s
  | .halterSalvoCancel q fine => Sys2Proof.Machine.execHalterSalvoCancel q fine s
  | .haltStateClear inp q v => Sys2Proof.Machine.execHaltStateClear inp q v s
  | .frameRoute q => Sys2Proof.Machine.execFrameRoute q s
  | .missLookupDone n => Sys2Proof.Machine.execMissLookupDone n s
  | .rteCfgWrite inp desc v => Sys2Proof.Machine.execRteCfgWrite inp desc v s
  | .routeTableClear inp => Sys2Proof.Machine.execRouteTableClear inp s
  | .routeClearDone => Sys2Proof.Machine.execRouteClearDone s
  | .agerVisit x => Sys2Proof.Machine.execAgerVisit x s
  | .learnLogRead inp u => Sys2Proof.Machine.execLearnLogRead inp u s
  | .prewarmStep slot => Sys2Proof.Machine.execPrewarmStep slot s
  | .salvoCommit slot => Sys2Proof.Machine.execSalvoCommit slot s
  | .salvoSwap slot => Sys2Proof.Machine.execSalvoSwap slot s
  | .salvoRetire slot => Sys2Proof.Machine.execSalvoRetire slot s
  | .salvoRetireDone slot => Sys2Proof.Machine.execSalvoRetireDone slot s
  | .salvoCancelDone slot => Sys2Proof.Machine.execSalvoCancelDone slot s
  | .streamStall ctx => Sys2Proof.Machine.execStreamStall ctx s
  | .mergeLegTimeout pair leg => Sys2Proof.Machine.execMergeLegTimeout pair leg s
  | .storeReleaseDelay ctx => Sys2Proof.Machine.execStoreReleaseDelay ctx s
  | .storeSyncBoundary ctx => Sys2Proof.Machine.execStoreSyncBoundary ctx s
  | .storeReleaseDone ctx => Sys2Proof.Machine.execStoreReleaseDone ctx s
  | .asmPacketClose q e chans fmt => Sys2Proof.Machine.execAsmPacketClose q e chans fmt s
  | .egressStreamEnqueue q => Sys2Proof.Machine.execEgressStreamEnqueue q s
  | .txStarved q e => Sys2Proof.Machine.execTxStarved q e s
  | .rosterSlot q => Sys2Proof.Machine.execRosterSlot q s
  | .rosterCommit inp q => Sys2Proof.Machine.execRosterCommit inp q s
  | .rosterSwap q => Sys2Proof.Machine.execRosterSwap q s
  | .rosterCopyDone q => Sys2Proof.Machine.execRosterCopyDone q s
  | .rosterWinWrite inp desc e v => Sys2Proof.Machine.execRosterWinWrite inp desc e v s
  | .txHaltClear inp q e => Sys2Proof.Machine.execTxHaltClear inp q e s
  | .ctxRead inp desc kind port index => Sys2Proof.Machine.execCtxRead inp desc kind port index s
  | .ctxWrite inp desc kind port index => Sys2Proof.Machine.execCtxWrite inp desc kind port index s
  | .clrSid inp desc sid => Sys2Proof.Machine.execClrSid inp desc sid s
  | .ctxCmdDone => Sys2Proof.Machine.execCtxCmdDone s
  | .droverFrameRx n => Sys2Proof.Machine.execDroverFrameRx n s
  | .windowHoldRelease n => Sys2Proof.Machine.execWindowHoldRelease n s
  | .sendQueueIssue n q => Sys2Proof.Machine.execSendQueueIssue n q s
  | .longOpComplete n t ecc errs f => Sys2Proof.Machine.execLongOpComplete n t ecc errs f s
  | .dmaUnitDone n c bad f => Sys2Proof.Machine.execDmaUnitDone n c bad f s
  | .drvWatchdog n t => Sys2Proof.Machine.execDrvWatchdog n t s
  | .drvHalt inp n => Sys2Proof.Machine.execDrvHalt inp n s
  | .drvHaltQuiet n => Sys2Proof.Machine.execDrvHaltQuiet n s
  | .drvResume inp n => Sys2Proof.Machine.execDrvResume inp n s
  | .drvReset inp n => Sys2Proof.Machine.execDrvReset inp n s
  | .drvStart inp n => Sys2Proof.Machine.execDrvStart inp n s
  | .imemFill inp desc n src dst len => Sys2Proof.Machine.execImemFill inp desc n src dst len s
  | .imemFillDone n bad => Sys2Proof.Machine.execImemFillDone n bad s
  | .add x => Sys2Proof.Machine.execAdd x s
  | .sub x => Sys2Proof.Machine.execSub x s
  | .and x => Sys2Proof.Machine.execAnd x s
  | .or x => Sys2Proof.Machine.execOr x s
  | .xor x => Sys2Proof.Machine.execXor x s
  | .sll x => Sys2Proof.Machine.execSll x s
  | .srl x => Sys2Proof.Machine.execSrl x s
  | .sra x => Sys2Proof.Machine.execSra x s
  | .clt x => Sys2Proof.Machine.execClt x s
  | .cltu x => Sys2Proof.Machine.execCltu x s
  | .min x => Sys2Proof.Machine.execMin x s
  | .max x => Sys2Proof.Machine.execMax x s
  | .minu x => Sys2Proof.Machine.execMinu x s
  | .maxu x => Sys2Proof.Machine.execMaxu x s
  | .clz x => Sys2Proof.Machine.execClz x s
  | .popc x => Sys2Proof.Machine.execPopc x s
  | .bswapD x => Sys2Proof.Machine.execBswapD x s
  | .bswapW x => Sys2Proof.Machine.execBswapW x s
  | .bswapH x => Sys2Proof.Machine.execBswapH x s
  | .bfx x => Sys2Proof.Machine.execBfx x s
  | .bfi x => Sys2Proof.Machine.execBfi x s
  | .mul x => Sys2Proof.Machine.execMul x s
  | .mulh x => Sys2Proof.Machine.execMulh x s
  | .mulhu x => Sys2Proof.Machine.execMulhu x s
  | .div x => Sys2Proof.Machine.execDiv x s
  | .divu x => Sys2Proof.Machine.execDivu x s
  | .rem x => Sys2Proof.Machine.execRem x s
  | .remu x => Sys2Proof.Machine.execRemu x s
  | .addi x => Sys2Proof.Machine.execAddi x s
  | .andi x => Sys2Proof.Machine.execAndi x s
  | .ori x => Sys2Proof.Machine.execOri x s
  | .xori x => Sys2Proof.Machine.execXori x s
  | .slli x => Sys2Proof.Machine.execSlli x s
  | .srli x => Sys2Proof.Machine.execSrli x s
  | .srai x => Sys2Proof.Machine.execSrai x s
  | .clti x => Sys2Proof.Machine.execClti x s
  | .cltui x => Sys2Proof.Machine.execCltui x s
  | .setk x => Sys2Proof.Machine.execSetk x s
  | .shk x => Sys2Proof.Machine.execShk x s
  | .beq x => Sys2Proof.Machine.execBeq x s
  | .bne x => Sys2Proof.Machine.execBne x s
  | .blt x => Sys2Proof.Machine.execBlt x s
  | .bge x => Sys2Proof.Machine.execBge x s
  | .bltu x => Sys2Proof.Machine.execBltu x s
  | .bgeu x => Sys2Proof.Machine.execBgeu x s
  | .lnk x => Sys2Proof.Machine.execLnk x s
  | .lnkr x => Sys2Proof.Machine.execLnkr x s
  | .lb x => Sys2Proof.Machine.execLb x s
  | .lbu x => Sys2Proof.Machine.execLbu x s
  | .lh x => Sys2Proof.Machine.execLh x s
  | .lhu x => Sys2Proof.Machine.execLhu x s
  | .lw x => Sys2Proof.Machine.execLw x s
  | .lwu x => Sys2Proof.Machine.execLwu x s
  | .ld x => Sys2Proof.Machine.execLd x s
  | .sb x => Sys2Proof.Machine.execSb x s
  | .sh x => Sys2Proof.Machine.execSh x s
  | .sw x => Sys2Proof.Machine.execSw x s
  | .sd x => Sys2Proof.Machine.execSd x s
  | .aaddW x => Sys2Proof.Machine.execAaddW x s
  | .aaddD x => Sys2Proof.Machine.execAaddD x s
  | .aswpW x => Sys2Proof.Machine.execAswpW x s
  | .aswpD x => Sys2Proof.Machine.execAswpD x s
  | .acasW x => Sys2Proof.Machine.execAcasW x s
  | .acasD x => Sys2Proof.Machine.execAcasD x s
  | .vld x => Sys2Proof.Machine.execVld x s
  | .vst x => Sys2Proof.Machine.execVst x s
  | .vadd x => Sys2Proof.Machine.execVadd x s
  | .vsub x => Sys2Proof.Machine.execVsub x s
  | .vadds x => Sys2Proof.Machine.execVadds x s
  | .vsubs x => Sys2Proof.Machine.execVsubs x s
  | .vand x => Sys2Proof.Machine.execVand x s
  | .vor x => Sys2Proof.Machine.execVor x s
  | .vxor x => Sys2Proof.Machine.execVxor x s
  | .vsll x => Sys2Proof.Machine.execVsll x s
  | .vsrl x => Sys2Proof.Machine.execVsrl x s
  | .vsra x => Sys2Proof.Machine.execVsra x s
  | .vmin x => Sys2Proof.Machine.execVmin x s
  | .vmax x => Sys2Proof.Machine.execVmax x s
  | .vminu x => Sys2Proof.Machine.execVminu x s
  | .vmaxu x => Sys2Proof.Machine.execVmaxu x s
  | .vceq x => Sys2Proof.Machine.execVceq x s
  | .vclt x => Sys2Proof.Machine.execVclt x s
  | .vcltu x => Sys2Proof.Machine.execVcltu x s
  | .vbsw x => Sys2Proof.Machine.execVbsw x s
  | .vmul x => Sys2Proof.Machine.execVmul x s
  | .vmulh x => Sys2Proof.Machine.execVmulh x s
  | .vmulhu x => Sys2Proof.Machine.execVmulhu x s
  | .vmac x => Sys2Proof.Machine.execVmac x s
  | .vsplB x => Sys2Proof.Machine.execVsplB x s
  | .vsplH x => Sys2Proof.Machine.execVsplH x s
  | .vsplW x => Sys2Proof.Machine.execVsplW x s
  | .vsplD x => Sys2Proof.Machine.execVsplD x s
  | .vext x => Sys2Proof.Machine.execVext x s
  | .vins x => Sys2Proof.Machine.execVins x s
  | .vmov x => Sys2Proof.Machine.execVmov x s
  | .vxfw x => Sys2Proof.Machine.execVxfw x s
  | .mtm x => Sys2Proof.Machine.execMtm x s
  | .mfm x => Sys2Proof.Machine.execMfm x s
  | .mlen x => Sys2Proof.Machine.execMlen x s
  | .vaadd x => Sys2Proof.Machine.execVaadd x s
  | .vaput x => Sys2Proof.Machine.execVaput x s
  | .unpkP10 x => Sys2Proof.Machine.execUnpkP10 x s
  | .pkP10 x => Sys2Proof.Machine.execPkP10 x s
  | .adcfg x => Sys2Proof.Machine.execAdcfg x s
  | .adeint x => Sys2Proof.Machine.execAdeint x s
  | .amix x => Sys2Proof.Machine.execAmix x s
  | .amov x => Sys2Proof.Machine.execAmov x s
  | .crcC x => Sys2Proof.Machine.execCrcC x s
  | .pktNext x => Sys2Proof.Machine.execPktNext x s
  | .pktNextNb x => Sys2Proof.Machine.execPktNextNb x s
  | .pktFree x => Sys2Proof.Machine.execPktFree x s
  | .pktSend x => Sys2Proof.Machine.execPktSend x s
  | .pktSqflush x => Sys2Proof.Machine.execPktSqflush x s
  | .pktTsrd x => Sys2Proof.Machine.execPktTsrd x s
  | .chrd x => Sys2Proof.Machine.execChrd x s
  | .stamp x fine => Sys2Proof.Machine.execStamp x fine s
  | .stampLate x => Sys2Proof.Machine.execStampLate x s
  | .waitu x fine => Sys2Proof.Machine.execWaitu x fine s
  | .tadd x => Sys2Proof.Machine.execTadd x s
  | .tcmp x => Sys2Proof.Machine.execTcmp x s
  | .tidxC x => Sys2Proof.Machine.execTidxC x s
  | .tidxF x => Sys2Proof.Machine.execTidxF x s
  | .tat x => Sys2Proof.Machine.execTat x s
  | .dmaGo x => Sys2Proof.Machine.execDmaGo x s
  | .dmaWait x => Sys2Proof.Machine.execDmaWait x s
  | .dmaPoll x => Sys2Proof.Machine.execDmaPoll x s
  | .semAcq x => Sys2Proof.Machine.execSemAcq x s
  | .semTry x => Sys2Proof.Machine.execSemTry x s
  | .semRel x => Sys2Proof.Machine.execSemRel x s
  | .fence x => Sys2Proof.Machine.execFence x s
  | .wdogKick x => Sys2Proof.Machine.execWdogKick x s
  | .evtRaise x => Sys2Proof.Machine.execEvtRaise x s
  | .tret x => Sys2Proof.Machine.execTret x s
  | .brk x => Sys2Proof.Machine.execBrk x s
  | .rdid x => Sys2Proof.Machine.execRdid x s
  | .rdcyc x => Sys2Proof.Machine.execRdcyc x s
  | .fabUreset inp x mid => Sys2Proof.Machine.execFabUreset inp x mid s
  | .uresetRelease x => Sys2Proof.Machine.execUresetRelease x s
  | .clkselWrite inp desc x v => Sys2Proof.Machine.execClkselWrite inp desc x v s
  | .frameEgress x k h data words => Sys2Proof.Machine.execFrameEgress x k h data words s
  | .frameDrover x k h data words err => Sys2Proof.Machine.execFrameDrover x k h data words err s
  | .frameFabric x k h data words err => Sys2Proof.Machine.execFrameFabric x k h data words err s
  | .stileMemRead x k h ecc errs => Sys2Proof.Machine.execStileMemRead x k h ecc errs s
  | .stileMemWrite x k h data words => Sys2Proof.Machine.execStileMemWrite x k h data words s
  | .memAdd x k h data words ecc => Sys2Proof.Machine.execMemAdd x k h data words ecc s
  | .fabricFrameIn x k => Sys2Proof.Machine.execFabricFrameIn x k s
  | .stileResponse x k => Sys2Proof.Machine.execStileResponse x k s
  | .fabMgmtRequest x write a be v => Sys2Proof.Machine.execFabMgmtRequest x write a be v s
  | .fabUserEvent x => Sys2Proof.Machine.execFabUserEvent x s
  | .loadDone bad => Sys2Proof.Machine.execLoadDone bad s
  | .slaveTimeout => Sys2Proof.Machine.execSlaveTimeout s
  | .flockDoneHigh => Sys2Proof.Machine.execFlockDoneHigh s
  | .bellWaitExpire => Sys2Proof.Machine.execBellWaitExpire s
  | .pacingEdge => Sys2Proof.Machine.execPacingEdge s
  | .startupPhase => Sys2Proof.Machine.execStartupPhase s
  | .reload inp desc src => Sys2Proof.Machine.execReload inp desc src s
  | .stage inp desc k nv addr => Sys2Proof.Machine.execStage inp desc k nv addr s
  | .stageDone k bad => Sys2Proof.Machine.execStageDone k bad s
  | .apply inp desc k move target source t => Sys2Proof.Machine.execApply inp desc k move target source t s
  | .applyStart => Sys2Proof.Machine.execApplyStart s
  | .applyDone k freeze bad => Sys2Proof.Machine.execApplyDone k freeze bad s
  | .releaseSrc inp k => Sys2Proof.Machine.execReleaseSrc inp k s
  | .abort inp k => Sys2Proof.Machine.execAbort inp k s
  | .clear inp k => Sys2Proof.Machine.execClear inp k s
  | .frameReadback inp f => Sys2Proof.Machine.execFrameReadback inp f s
  | .snap inp x => Sys2Proof.Machine.execSnap inp x s
  | .snapRead inp c => Sys2Proof.Machine.execSnapRead inp c s
  | .shepherdFrameRead err => Sys2Proof.Machine.execShepherdFrameRead err s
  | .shepherdReload f => Sys2Proof.Machine.execShepherdReload f s
  | .nvDataRead inp a len f => Sys2Proof.Machine.execNvDataRead inp a len f s
  | .nvFetch a len f handler => Sys2Proof.Machine.execNvFetch a len f handler s
  | .nvPrefix inp a data => Sys2Proof.Machine.execNvPrefix inp a data s
  | .program inp a data => Sys2Proof.Machine.execProgram inp a data s
  | .programData inp a data => Sys2Proof.Machine.execProgramData inp a data s
  | .programConfirm inp a data => Sys2Proof.Machine.execProgramConfirm inp a data s
  | .erase inp a data => Sys2Proof.Machine.execErase inp a data s
  | .eraseConfirm inp a data => Sys2Proof.Machine.execEraseConfirm inp a data s
  | .readStatus inp a data => Sys2Proof.Machine.execReadStatus inp a data s
  | .margin inp a data => Sys2Proof.Machine.execMargin inp a data s
  | .reset inp a data => Sys2Proof.Machine.execReset inp a data s
  | .seqTimeout inp => Sys2Proof.Machine.execSeqTimeout inp s
  | .nvOpEnd b pulses verified => Sys2Proof.Machine.execNvOpEnd b pulses verified s
  | .wpClr inp desc w v => Sys2Proof.Machine.execWpClr inp desc w v s
  | .bootRecordUpdate inp desc sel fb => Sys2Proof.Machine.execBootRecordUpdate inp desc sel fb s
  | .bootRecordDone ok => Sys2Proof.Machine.execBootRecordDone ok s
  | .weakRead inp => Sys2Proof.Machine.execWeakRead inp s
  | .ddrInit inp => Sys2Proof.Machine.execDdrInit inp s
  | .ddrTrainDone fails => Sys2Proof.Machine.execDdrTrainDone fails s
  | .ddrInitDone => Sys2Proof.Machine.execDdrInitDone s
  | .ddrRetrain inp => Sys2Proof.Machine.execDdrRetrain inp s
  | .ddrAccess inp write addr len data errs => Sys2Proof.Machine.execDdrAccess inp write addr len data errs s
  | .patrolScrub c errs => Sys2Proof.Machine.execPatrolScrub c errs s
  | .refresh c => Sys2Proof.Machine.execRefresh c s
  | .selfRefreshEntry c => Sys2Proof.Machine.execSelfRefreshEntry c s
  | .selfRefreshWake c => Sys2Proof.Machine.execSelfRefreshWake c s
  | .discoveryRequest q n src sport magic ver type nonce => Sys2Proof.Machine.execDiscoveryRequest q n src sport magic ver type nonce s
  | .arpRequest q spa tpa => Sys2Proof.Machine.execArpRequest q spa tpa s
  | .neighbourSolicitation q src target => Sys2Proof.Machine.execNeighbourSolicitation q src target s
  | .cmReq q n src mac pd mtu rc peer psn limit => Sys2Proof.Machine.execCmReq q n src mac pd mtu rc peer psn limit s
  | .cmRtu q n c x => Sys2Proof.Machine.execCmRtu q n c x s
  | .cmDreq q n c x => Sys2Proof.Machine.execCmDreq q n c x s
  | .ackTimeout c x made => Sys2Proof.Machine.execAckTimeout c x made s
  | .nakRx q n c x fatal => Sys2Proof.Machine.execNakRx q n c x fatal s
  | .sendRx q n c x => Sys2Proof.Machine.execSendRx q n c x s
  | .directRdmaWrite q n c x key va l => Sys2Proof.Machine.execDirectRdmaWrite q n c x key va l s
  | .directRdmaRead q n c x key va len => Sys2Proof.Machine.execDirectRdmaRead q n c x key va len s
  | .cnpRx q n c x => Sys2Proof.Machine.execCnpRx q n c x s
  | .rateTimer c x => Sys2Proof.Machine.execRateTimer c x s
  | .commandDoorbell c r v => Sys2Proof.Machine.execCommandDoorbell c r v s
  | .completionDoorbell c r v => Sys2Proof.Machine.execCompletionDoorbell c r v s
  | .eventDoorbell c e v => Sys2Proof.Machine.execEventDoorbell c e v s
  | .heartbeat c v => Sys2Proof.Machine.execHeartbeat c v s
  | .heartbeatTimeout c => Sys2Proof.Machine.execHeartbeatTimeout c s
  | .descriptorFetch c r descs ok => Sys2Proof.Machine.execDescriptorFetch c r descs ok s
  | .nop c r => Sys2Proof.Machine.execNop c r s
  | .regRead c r => Sys2Proof.Machine.execRegRead c r s
  | .regWrite c r => Sys2Proof.Machine.execRegWrite c r s
  | .regRmw c r => Sys2Proof.Machine.execRegRmw c r s
  | .regPoll c r => Sys2Proof.Machine.execRegPoll c r s
  | .regPollRead c r => Sys2Proof.Machine.execRegPollRead c r s
  | .memRead c r errs find fail => Sys2Proof.Machine.execMemRead c r errs find fail s
  | .memWrite c r host errs => Sys2Proof.Machine.execMemWrite c r host errs s
  | .routeInsert c r img => Sys2Proof.Machine.execRouteInsert c r img s
  | .routeModify c r img => Sys2Proof.Machine.execRouteModify c r img s
  | .routeDelete c r img => Sys2Proof.Machine.execRouteDelete c r img s
  | .routeLookup c r key ok => Sys2Proof.Machine.execRouteLookup c r key ok s
  | .chanWrite c r img => Sys2Proof.Machine.execChanWrite c r img s
  | .chanRead c r ok => Sys2Proof.Machine.execChanRead c r ok s
  | .salvoOpen c r => Sys2Proof.Machine.execSalvoOpen c r s
  | .salvoArm c r => Sys2Proof.Machine.execSalvoArm c r s
  | .salvoCancel c r => Sys2Proof.Machine.execSalvoCancel c r s
  | .semAcqDescriptor c r => Sys2Proof.Machine.execSemAcqDescriptor c r s
  | .semTryDescriptor c r => Sys2Proof.Machine.execSemTryDescriptor c r s
  | .semRelDescriptor c r => Sys2Proof.Machine.execSemRelDescriptor c r s
  | .semAcqTimeout c r => Sys2Proof.Machine.execSemAcqTimeout c r s
  | .waitUntil c r => Sys2Proof.Machine.execWaitUntil c r s
  | .waitUntilReached c r => Sys2Proof.Machine.execWaitUntilReached c r s
  | .ringStart inp desc c r => Sys2Proof.Machine.execRingStart inp desc c r s
  | .ringStop inp desc c r => Sys2Proof.Machine.execRingStop inp desc c r s
  | .ringReset inp desc c r => Sys2Proof.Machine.execRingReset inp desc c r s
  | .ringLock inp => Sys2Proof.Machine.execRingLock inp s
  | .semTryRead inp sem => Sys2Proof.Machine.execSemTryRead inp sem s
  | .semRelWrite inp sem => Sys2Proof.Machine.execSemRelWrite inp sem s
  | .semForce inp v => Sys2Proof.Machine.execSemForce inp v s
  | .deadlockSearch => Sys2Proof.Machine.execDeadlockSearch s
  | .eventAccept => Sys2Proof.Machine.execEventAccept s
  | .coalesceWindowEnd src => Sys2Proof.Machine.execCoalesceWindowEnd src s
  | .causeEnableWrite inp desc src be v => Sys2Proof.Machine.execCauseEnableWrite inp desc src be v s
  | .powerOnResetRelease mode bell pull cut => Sys2Proof.Machine.execPowerOnResetRelease mode bell pull cut s
  | .porNAssert => Sys2Proof.Machine.execPorNAssert s
  | .railWindowExit n => Sys2Proof.Machine.execRailWindowExit n s
  | .railCollapse n => Sys2Proof.Machine.execRailCollapse n s
  | .nvAwake => Sys2Proof.Machine.execNvAwake s
  | .startupSelfTest => Sys2Proof.Machine.execStartupSelfTest s
  | .pwrReqRun inp => Sys2Proof.Machine.execPwrReqRun inp s
  | .pwrReqIdle inp => Sys2Proof.Machine.execPwrReqIdle inp s
  | .pwrReqDoze inp => Sys2Proof.Machine.execPwrReqDoze inp s
  | .pwrReqHibernate inp => Sys2Proof.Machine.execPwrReqHibernate inp s
  | .entryContinue => Sys2Proof.Machine.execEntryContinue s
  | .wakeLatch => Sys2Proof.Machine.execWakeLatch s
  | .wakeNLow => Sys2Proof.Machine.execWakeNLow s
  | .alarm => Sys2Proof.Machine.execAlarm s
  | .exitReloadDone bad => Sys2Proof.Machine.execExitReloadDone bad s
  | .temperatureSample l => Sys2Proof.Machine.execTemperatureSample l s
  | .measurementUpdate m => Sys2Proof.Machine.execMeasurementUpdate m s
  | .hrdRestart inp => Sys2Proof.Machine.execHrdRestart inp s
  | .lockstepMismatch => Sys2Proof.Machine.execLockstepMismatch s
  | .hrdWatchdogExpire => Sys2Proof.Machine.execHrdWatchdogExpire s
  | .hrdWdogKick inp => Sys2Proof.Machine.execHrdWdogKick inp s
  | .dvfsDecision => Sys2Proof.Machine.execDvfsDecision s
  | .reqMhzWrite inp x mhz => Sys2Proof.Machine.execReqMhzWrite inp x mhz s
  | .ddrRefreshDecision mpr => Sys2Proof.Machine.execDdrRefreshDecision mpr s
  | .routeCacheDecision => Sys2Proof.Machine.execRouteCacheDecision s
  | .hrdPrewarm inp => Sys2Proof.Machine.execHrdPrewarm inp s
  | .hrdPrewarmStep => Sys2Proof.Machine.execHrdPrewarmStep s
  | .loadBalance g u fr => Sys2Proof.Machine.execLoadBalance g u fr s
  | .migrationTimeout sid => Sys2Proof.Machine.execMigrationTimeout sid s
  | .recalDecision => Sys2Proof.Machine.execRecalDecision s
  | .tallyStart romOk => Sys2Proof.Machine.execTallyStart romOk s
  | .romCheck ok => Sys2Proof.Machine.execRomCheck ok s
  | .replicaAligned => Sys2Proof.Machine.execReplicaAligned s
  | .audioTap q => Sys2Proof.Machine.execAudioTap q s
  | .acctTap => Sys2Proof.Machine.execAcctTap s
  | .ppsTap => Sys2Proof.Machine.execPpsTap s
  | .ack => Sys2Proof.Machine.execAck s
  | .replay => Sys2Proof.Machine.execReplay s
  | .config => Sys2Proof.Machine.execConfig s
  | .prog => Sys2Proof.Machine.execProg s
  | .seal => Sys2Proof.Machine.execSeal s
  | .unseal => Sys2Proof.Machine.execUnseal s
  | .restartProg => Sys2Proof.Machine.execRestartProg s
  | .loudnessBlock p => Sys2Proof.Machine.execLoudnessBlock p s
  | .loudnessRecord => Sys2Proof.Machine.execLoudnessRecord s
  | .serviceRecord => Sys2Proof.Machine.execServiceRecord s
  | .tieRecord => Sys2Proof.Machine.execTieRecord s
  | .recordCommit => Sys2Proof.Machine.execRecordCommit s
  | .nonce inp => Sys2Proof.Machine.execNonce inp s
  | .debug inp => Sys2Proof.Machine.execDebug inp s
  | .transition inp => Sys2Proof.Machine.execTransition inp s
  | .close inp => Sys2Proof.Machine.execClose inp s
  | .certCheckDone => Sys2Proof.Machine.execCertCheckDone s
  | .lcReset mode bell pull cut => Sys2Proof.Machine.execLcReset mode bell pull cut s
  | .debugSessionExpire => Sys2Proof.Machine.execDebugSessionExpire s
  | .nonceLapse => Sys2Proof.Machine.execNonceLapse s
  | .extest cap v => Sys2Proof.Machine.execExtest cap v s
  | .samplePreload cap v => Sys2Proof.Machine.execSamplePreload cap v s
  | .idcode => Sys2Proof.Machine.execIdcode s
  | .clamp => Sys2Proof.Machine.execClamp s
  | .highz => Sys2Proof.Machine.execHighz s
  | .lcStatus => Sys2Proof.Machine.execLcStatus s
  | .nonceGet => Sys2Proof.Machine.execNonceGet s
  | .certLoad cert => Sys2Proof.Machine.execCertLoad cert s
  | .lcRequest target => Sys2Proof.Machine.execLcRequest target s
  | .dbgAccess v errs find => Sys2Proof.Machine.execDbgAccess v errs find s
  | .dbgHalt v => Sys2Proof.Machine.execDbgHalt v s
  | .dbgClose => Sys2Proof.Machine.execDbgClose s
  | .wake => Sys2Proof.Machine.execWake s
  | .scanEnter clean => Sys2Proof.Machine.execScanEnter clean s
  | .tlyRead off => Sys2Proof.Machine.execTlyRead off s
  | .otpWrite first n data => Sys2Proof.Machine.execOtpWrite first n data s
  | .compatUnlock word => Sys2Proof.Machine.execCompatUnlock word s
  | .bypass code => Sys2Proof.Machine.execBypass code s
  | .trst => Sys2Proof.Machine.execTrst s
  | .start inp k => Sys2Proof.Machine.execStart inp k s
  | .stop inp k => Sys2Proof.Machine.execStop inp k s
  | .saveRepair inp => Sys2Proof.Machine.execSaveRepair inp s
  | .saveRepairDone ok => Sys2Proof.Machine.execSaveRepairDone ok s
  | .macroTestDone k g steps fails sigBad served => Sys2Proof.Machine.execMacroTestDone k g steps fails sigBad served s
  | .sliceBudgetExpire k => Sys2Proof.Machine.execSliceBudgetExpire k s
  | .sliceRetry k => Sys2Proof.Machine.execSliceRetry k s
  | .failLogRead inp u => Sys2Proof.Machine.execFailLogRead inp u s
  | .announceTx p => Sys2Proof.Machine.execAnnounceTx p s
  | .delayReqTx p => Sys2Proof.Machine.execDelayReqTx p s
  | .cfgClkEdge data drain checking => Sys2Proof.Machine.execCfgClkEdge data drain checking s
  | .arbStarve r inp age => Sys2Proof.Machine.execArbStarve r inp age s
  | .granaryEccRead x g two => Sys2Proof.Machine.execGranaryEccRead x g two s
  | .tallyPowerLoss => Sys2Proof.Machine.execTallyPowerLoss s
  | .unassignedEncoding x => Sys2Proof.Machine.execUnassignedEncoding x s
  | .badOpcode c r => Sys2Proof.Machine.execBadOpcode c r s
  | .inboxBadKind => Sys2Proof.Machine.execInboxBadKind s

end Sys2Proof.Machine
end

