-- ==== Sys2Proof/Machine/Cell.lean ====
section
/-! DEFINITION. Chapter 08: what the elements of a fabric island compute: logic cells, flip-flops, routing, wired-AND
lines, granaries, abacus blocks. The places of their options in the frames are not in the spec, so no command
clocks user logic (log entry 75): these functions say what each element does under given options. -/

namespace Sys2Proof.Machine

/-! ### Geometry (R264, Table 08-1) -/

/-- The section of pen column `x`. -/
def penSection (x : Fin 40) : Nat := x.val / 5

/-! ### The logic cell (R266 to R268) -/

/-- The table outputs; A1 is the least significant bit of the index. -/
def cellO6 (t : Word) (a : BitVec 6) : Bool := t.getLsbD a.toNat
def cellO5 (t : Word) (a : BitVec 6) : Bool := t.getLsbD (a.toNat % 32)

/-- The carry element. -/
def carryS (o6 ci : Bool) : Bool := o6 ^^ ci
def carryOut (o6 ci g : Bool) : Bool := if o6 then ci else g

/-- What the carry input of cell 0 of a pen takes: `below` is the CO of cell 15 of the pen below. -/
inductive CinSel where
  | chain | zero | one | x
deriving DecidableEq, Repr

def carryIn (sel : CinSel) (row : Nat) (below x : Bool) : Bool :=
  match sel with
  | .chain => if row = 0 then false else below
  | .zero => false
  | .one => true
  | .x => x

/-- A pen output: code 3 of its select gives constant 0. -/
def cellOutput (sel : Fin 4) (a b c : Bool) : Bool :=
  if sel.val = 0 then a else if sel.val = 1 then b else if sel.val = 2 then c else false

/-! ### Flip-flops (R270, R271) -/

/-- The options of a flip-flop that decide its next value. -/
structure FlopOpt where
  latch : Bool := false
  async : Bool := false
  init : Bool := false
deriving DecidableEq, Repr

/-- The next value: `edge` is a rising clock edge (of a latch: its clock is high), `ce` its clock enable, `sr` its
set/reset line, `gsr` the island global reset. -/
def flopNext (o : FlopOpt) (q d edge ce sr gsr : Bool) : Bool :=
  if gsr then o.init
  else if sr && (o.async || edge) then o.init
  else if edge && ce then d
  else q

/-! ### Routing (R272, R273, Table 08-3) -/

/-- A multiplexer of `n` sources: codes 0 and 1 are constants, a code that names no source gives 0. -/
def muxSelect (n : Nat) (src : Nat → Bool) (code : Nat) : Bool :=
  if code = 1 then true else if 2 ≤ code ∧ code < n + 2 then src (code - 2) else false

/-- A tap: 144 sources; a cell or control input, a single or a quad: 64 local lines; row and column long lines. -/
def tapSelect : (Nat → Bool) → Nat → Bool := muxSelect 144
def inputSelect : (Nat → Bool) → Nat → Bool := muxSelect 64
def rowLine : (Nat → Bool) → Nat → Bool := muxSelect 40
def columnLine : (Nat → Bool) → Nat → Bool := muxSelect 60

/-- A wired-AND line over its contributions: enabled, line number, source value; released ones act as 1 (R275,
R276). -/
def wiredAnd (n : Nat) (force : Bool) (l : List (Bool × Nat × Bool)) : Bool :=
  !force && l.all fun c => !(c.1 && c.2.1 == n) || c.2.2

/-! ### Granaries (R284 to R289) -/

/-- The bits of a word of width `w` at an address. -/
def granRead (g w a : Nat) : Nat := bits g (a * w) w

/-- A write with a write enable for each 9-bit lane in widths of 18 and more (R285). -/
def granWrite (g w a en v : Nat) : Nat :=
  if w < 18 then (if en.testBit 0 then putBits g (a * w) w v else g)
  else (List.range (w / 9)).foldl (fun g i =>
    if en.testBit i then putBits g (a * w + 9 * i) 9 (bits v (9 * i) 9) else g) g

/-- What a port reads where it writes at the same edge (R286). -/
inductive RdwMode where
  | writeFirst | readFirst | noChange
deriving DecidableEq, Repr

def granRdw (mode : RdwMode) (old new out : Nat) : Nat :=
  match mode with
  | .writeFirst => new
  | .readFirst => old
  | .noChange => out

/-- Both ports write one address within 150 ps: port B's data is stored (R287). -/
def granBoth (g wa wb aa ab ena enb va vb : Nat) : Nat := granWrite (granWrite g wa aa ena va) wb ab enb vb

/-- A granary as a FIFO: its words, the output, the sticky flags (R289). -/
structure GranFifo where
  words : List Nat := []
  out : Nat := 0
  overflow : Bool := false
  underflow : Bool := false
deriving DecidableEq, Repr

def GranFifo.write (f : GranFifo) (depth v : Nat) : GranFifo :=
  if depth ≤ f.words.length then { f with overflow := true } else { f with words := f.words ++ [v] }

def GranFifo.read (f : GranFifo) : GranFifo :=
  match f.words with
  | [] => { f with underflow := true }
  | v :: r => { f with words := r, out := v }

/-! ### Abacus blocks (R291 to R293, Table 08-6) -/

/-- Z of MAC and ADD64. -/
inductive AbZ where
  | zero | c | p | pcin | pcinShift
deriving DecidableEq, Repr

def abZ (z : AbZ) (c p pcin : BitVec 64) : Int :=
  match z with
  | .zero => 0
  | .c => c.toInt
  | .p => p.toInt
  | .pcin => pcin.toInt
  | .pcinShift => pcin.toInt / 2 ^ 24

/-- The P register takes a value: wrapped, or saturated when sat is set (R292). -/
def abP (sat : Bool) (v : Int) : BitVec 64 := BitVec.ofInt 64 (if sat then satSigned 64 v else v)

/-- ± by a subtract bit. -/
def plusMinus (sub : Bool) (a b : Int) : Int := if sub then a - b else a + b

/-- MAC: Z ± (A ± D) × B, exact before it enters P; D is 0 when the pre-adder is bypassed. -/
def abMac (sat sub preSub : Bool) (z : Int) (a d : BitVec 27) (b : BitVec 24) : BitVec 64 :=
  abP sat (plusMinus sub z (plusMinus preSub a.toInt d.toInt * b.toInt))

/-- ADD64: Z ± C, or Z ± the concatenation A:B as a signed 51-bit value. -/
def abAdd64 (sat sub : Bool) (z : Int) (c : BitVec 64) : BitVec 64 := abP sat (plusMinus sub z c.toInt)
def abAddAB (sat sub : Bool) (z : Int) (a : BitVec 27) (b : BitVec 24) : BitVec 64 :=
  abP sat (plusMinus sub z (a ++ b).toInt)

/-- ADD4: four lanes of 16 bits, each wrapping. -/
def abAdd4 (sub : Bool) (c : BitVec 64) (a d : BitVec 27) (b : BitVec 24) : BitVec 64 :=
  let x : BitVec 64 := BitVec.setWidth 13 d ++ a ++ b
  let lane16 := fun (v : BitVec 64) (i : Nat) => BitVec.setWidth 16 (v >>> (16 * i))
  let r := fun (i : Nat) => if sub then lane16 c i - lane16 x i else lane16 c i + lane16 x i
  (r 3 ++ r 2 ++ r 1 ++ r 0 : BitVec 64)

/-- PR: P divided by 2^r, rounded to nearest with ties away from zero, saturated to `q` bits (R293). -/
def abPR (r q : Nat) (p : BitVec 64) : Int := satSigned q (roundShift p.toInt r)

end Sys2Proof.Machine
end

