-- ==== Sys2Proof/Safety.lean ====
section
/-! DEFINITION. What claims are stated in: the effect of a command whatever waits in the queue, a thread about to run a
word, the canonical form of the state's tables. -/

namespace Sys2Proof

open Sys2Proof.Machine

/-- Command `c` answers a next state: on the device `d`, whatever queue, it leaves device `d'` and the queue. -/
def Does (c : Instr) (d d' : Dev) : Prop := ∀ q : List Instr, exec c ⟨q, d⟩ = .next ⟨q, d'⟩

/-- A run is safe at a state when its step answers a next state. -/
def Safe (s : State) : Prop := ∃ t, step s = .next t

/-- Thread `i.t` of drover `i.n` is about to run the word `w`: its drover issues, nothing is due, the word is fetched
without an error, and no self-test slice runs. -/
structure Fetches (d : Dev) (i : Issue) (w : Nat) : Prop where
  on : d.pwr.off = false
  can : d.canIssue i.n i.t = true
  due : (d.thr i.n i.t).due = 0
  inside : (d.thr i.n i.t).pc < 0x10000
  good : i.fetchEcc = 0
  word : d.load (imemKey i.n (d.thr i.n i.t).pc) 4 = w
  tests : d.bst.slices = []


/-- The thread has run its instruction: its registers are those of `x` and it stands ready at `pc`. -/
def ranTo (d : Dev) (i : Issue) (x : Thr) (pc : Nat) : Dev :=
  (d.setThr i.n i.t { x with pc := pc % 2 ^ 64, wait := none, asked := false, cmp := none }).setThrState i.n i.t 1

/-- As `ranTo`, at the next instruction. -/
def ran (d : Dev) (i : Issue) (x : Thr) : Dev := ranTo d i x (x.pc + 4)

/-- The thread that issues, and its registers. -/
def self (d : Dev) (i : Issue) : Thr := d.thr i.n i.t

/-- Keys rise in the register table, and memory has its canonical form. -/
def canonical (d : Dev) : Bool := rising d.regs && memWf d.mem

end Sys2Proof
end

