-- ==== Sys2Proof/Certificates/Slice0/Obligations.lean ====
section
/-! DEFINITION. The statements: what the commands do, what the machine keeps. Each docstring names the rules of the spec it
rests on. -/

open Sys2Proof Sys2Proof.Machine

namespace Sys2Proof.Claims

end Sys2Proof.Claims

open Sys2Proof.Claims

namespace Sys2Proof.Claims

/-- Scalar register `k` of the thread that issues, as a word. -/
def sval (d : Dev) (i : Issue) (k : Nat) : Word := BitVec.ofNat 64 ((self d i).sreg k)

/-- An instruction by its command, the number of its operation, and its result as a function of ra and rb. -/
structure AluRow where
  cmd : Issue → Instr
  key : Nat
  f : Word → Word → Word

/-- All ones for true. -/
def truth (b : Bool) : Word := if b then BitVec.allOnes 64 else 0

def byteOf (a : Word) (k : Nat) : BitVec 8 := a.extractLsb' (8 * k) 8

/-- ALU and MULDIV without the divisions and bit fields (Table 07-3). -/
def aluRows : List AluRow := [
  ⟨.add, 0x100, fun a b => a + b⟩, ⟨.sub, 0x101, fun a b => a - b⟩,
  ⟨.and, 0x102, fun a b => a &&& b⟩, ⟨.or, 0x103, fun a b => a ||| b⟩, ⟨.xor, 0x104, fun a b => a ^^^ b⟩,
  ⟨.sll, 0x105, fun a b => a <<< (b.toNat % 64)⟩, ⟨.srl, 0x106, fun a b => a >>> (b.toNat % 64)⟩,
  ⟨.sra, 0x107, fun a b => a.sshiftRight (b.toNat % 64)⟩,
  ⟨.clt, 0x108, fun a b => truth (a.slt b)⟩, ⟨.cltu, 0x109, fun a b => truth (a.ult b)⟩,
  ⟨.min, 0x10A, fun a b => if a.slt b then a else b⟩, ⟨.max, 0x10B, fun a b => if a.slt b then b else a⟩,
  ⟨.minu, 0x10C, fun a b => if a.ult b then a else b⟩, ⟨.maxu, 0x10D, fun a b => if a.ult b then b else a⟩,
  ⟨.clz, 0x10E, fun a _ => BitVec.ofNat 64 ((List.range 64).takeWhile fun k => !a.getMsbD k).length⟩,
  ⟨.popc, 0x10F, fun a _ => BitVec.ofNat 64 ((List.range 64).filter fun k => a.getLsbD k).length⟩,
  ⟨.bswapD, 0x110, fun a _ => byteOf a 0 ++ byteOf a 1 ++ byteOf a 2 ++ byteOf a 3 ++ byteOf a 4 ++ byteOf a 5
    ++ byteOf a 6 ++ byteOf a 7⟩,
  ⟨.bswapW, 0x111, fun a _ => (byteOf a 0 ++ byteOf a 1 ++ byteOf a 2 ++ byteOf a 3).setWidth 64⟩,
  ⟨.bswapH, 0x112, fun a _ => (byteOf a 0 ++ byteOf a 1).setWidth 64⟩,
  ⟨.mul, 0xB00, fun a b => a * b⟩,
  ⟨.mulh, 0xB01, fun a b => (a.signExtend 128 * b.signExtend 128).extractLsb' 64 64⟩,
  ⟨.mulhu, 0xB02, fun a b => (a.setWidth 128 * b.setWidth 128).extractLsb' 64 64⟩]

/-- Immediate instructions, as functions of ra and imm15 (Table 07-2, R238). -/
structure ImmRow where
  cmd : Issue → Instr
  key : Nat
  f : Word → BitVec 15 → Word

def immRows : List ImmRow := [
  ⟨.addi, 0x200, fun a i => a + i.signExtend 64⟩, ⟨.andi, 0x300, fun a i => a &&& i.setWidth 64⟩,
  ⟨.ori, 0x400, fun a i => a ||| i.setWidth 64⟩, ⟨.xori, 0x500, fun a i => a ^^^ i.setWidth 64⟩,
  ⟨.slli, 0x600, fun a i => a <<< (i.toNat % 64)⟩, ⟨.srli, 0x601, fun a i => a >>> (i.toNat % 64)⟩,
  ⟨.srai, 0x602, fun a i => a.sshiftRight (i.toNat % 64)⟩,
  ⟨.clti, 0x700, fun a i => truth (a.slt (i.signExtend 64))⟩,
  ⟨.cltui, 0x800, fun a i => truth (a.ult (i.signExtend 64))⟩]

/-- Branches, as conditions on ra and rb (R240). -/
structure BranchRow where
  cmd : Issue → Instr
  key : Nat
  p : Word → Word → Bool

def branchRows : List BranchRow := [
  ⟨.beq, 0xC00, fun a b => a == b⟩, ⟨.bne, 0xC01, fun a b => a != b⟩, ⟨.blt, 0xC02, fun a b => a.slt b⟩,
  ⟨.bge, 0xC03, fun a b => !a.slt b⟩, ⟨.bltu, 0xC04, fun a b => a.ult b⟩, ⟨.bgeu, 0xC05, fun a b => !a.ult b⟩]

/-- imm15 of a word. -/
def imm15 (w : Nat) : BitVec 15 := BitVec.ofNat 15 (w / 2 ^ 17)
/-- imm20 of a word, and the offset of JMP. -/
def imm20 (w : Nat) : BitVec 20 := BitVec.ofNat 20 (w / 2 ^ 12)
/-- The offset of BR. -/
def off12 (w : Nat) : BitVec 12 := BitVec.ofNat 12 (w / 2 ^ 20)

/-- An instruction that writes a word into rd and nothing else. -/
def writesRd (c : Instr) (d : Dev) (i : Issue) (w : Nat) (v : Word) : Prop :=
  Does c d (ran d i ((self d i).setS (wRd w) v.toNat))

/-- A fault leaves the thread's registers, memory and the drover's queues and windows; its code is recorded with the pc
(R222, R262). -/
def faults (c : Instr) (d : Dev) (i : Issue) (code : Nat) : Prop :=
  ∃ d', Does c d d' ∧ d'.mem = d.mem ∧ d'.drover i.n = d.drover i.n ∧
    (∀ k, (self d' i).sreg k = (self d i).sreg k ∧ (self d' i).vreg k = (self d i).vreg k ∧
      (self d' i).mreg k = (self d i).mreg k) ∧
    d'.rd R.DRV_THR_FAULT_code [i.n, i.t] = (if d.flag R.DRV_THR_FAULT_active [i.n, i.t] then 9 else code) ∧
    d'.rd R.DRV_THR_FAULT_pc [i.n, i.t] = (self d i).pc % 2 ^ 16

end Sys2Proof.Claims

/-- R238, R233, Tables 07-2 and 07-3. -/
def Sys2Proof.Claims.ScalarResults : Prop :=
  (∀ r ∈ aluRows, ∀ d i w, Fetches d i w → opKey w = some r.key →
    writesRd (r.cmd i) d i w (r.f (sval d i (wRa w)) (sval d i (wRb w)))) ∧
  (∀ r ∈ immRows, ∀ d i w, Fetches d i w → opKey w = some r.key →
    writesRd (r.cmd i) d i w (r.f (sval d i (wRa w)) (imm15 w))) ∧
  (∀ d i w, Fetches d i w → opKey w = some 0x900 → writesRd (.setk i) d i w ((imm20 w).signExtend 64)) ∧
  (∀ d i w, Fetches d i w → opKey w = some 0xA00 →
    writesRd (.shk i) d i w (sval d i (wRd w) <<< 20 ||| (imm20 w).setWidth 64))

/-- R238, R262, Table 07-3. -/
def Sys2Proof.Claims.DivideAndFieldResults : Prop :=
  ∀ d i w, Fetches d i w →
    let a := sval d i (wRa w)
    let b := sval d i (wRb w)
    let lsb := b.toNat % 64
    let width := b.toNat / 64 % 64 + 1
    (opKey w = some 0xB03 → b ≠ 0 → writesRd (.div i) d i w
      (if a = BitVec.intMin 64 ∧ b = BitVec.allOnes 64 then BitVec.intMax 64 else a.sdiv b)) ∧
    (opKey w = some 0xB04 → b ≠ 0 → writesRd (.divu i) d i w (a / b)) ∧
    (opKey w = some 0xB05 → b ≠ 0 → writesRd (.rem i) d i w (a.srem b)) ∧
    (opKey w = some 0xB06 → b ≠ 0 → writesRd (.remu i) d i w (a % b)) ∧
    (b = 0 → (opKey w = some 0xB03 → faults (.div i) d i 12) ∧ (opKey w = some 0xB04 → faults (.divu i) d i 12) ∧
      (opKey w = some 0xB05 → faults (.rem i) d i 12) ∧ (opKey w = some 0xB06 → faults (.remu i) d i 12)) ∧
    (lsb + width ≤ 64 →
      (opKey w = some 0x114 → writesRd (.bfx i) d i w ((a >>> lsb) &&& (BitVec.allOnes 64 >>> (64 - width)))) ∧
      (opKey w = some 0x115 → writesRd (.bfi i) d i w
        (let m : Word := (BitVec.allOnes 64 >>> (64 - width)) <<< lsb
         (sval d i (wRd w) &&& ~~~m) ||| ((a <<< lsb) &&& m)))) ∧
    (64 < lsb + width → (opKey w = some 0x114 → faults (.bfx i) d i 1) ∧ (opKey w = some 0x115 → faults (.bfi i) d i 1))

/-- R240, R236, R262; the pc of the thread is a multiple of 4 below 0x1_0000. -/
def Sys2Proof.Claims.BranchResults : Prop :=
  ∀ d i w, Fetches d i w → (self d i).pc % 4 = 0 →
    let pc : Word := BitVec.ofNat 64 (self d i).pc
    (∀ r ∈ branchRows, opKey w = some r.key →
      let a := sval d i (wRd w)
      let b := sval d i (wRa w)
      Does (r.cmd i) d (ranTo d i (self d i) (if r.p a b then pc + 4 * (off12 w).signExtend 64 else pc + 4).toNat)) ∧
    (opKey w = some 0xD00 → Does (.lnk i) d
      (ranTo d i ((self d i).setS (wRd w) (pc + 4).toNat) (pc + 4 * (imm20 w).signExtend 64).toNat)) ∧
    (opKey w = some 0xE00 →
      let target := sval d i (wRa w) + (imm15 w).signExtend 64
      (target.toNat % 4 = 0 → Does (.lnkr i) d
        (ranTo d i ((self d i).setS (wRd w) (pc + 4).toNat) target.toNat)) ∧
      (target.toNat % 4 ≠ 0 → faults (.lnkr i) d i 3))

/-- Scalar ALU, multiply and immediate results; Divisions and bit fields, their results and their faults; Branches and
jumps. -/
def Obligations.ScalarAndBranchResults : Prop :=
  Sys2Proof.Claims.ScalarResults ∧ Sys2Proof.Claims.DivideAndFieldResults ∧ Sys2Proof.Claims.BranchResults

namespace Sys2Proof.Claims

/-- The address of a load or store: ra + imm15. -/
def ea (d : Dev) (i : Issue) (w : Nat) : Nat := (sval d i (wRa w) + (imm15 w).signExtend 64).toNat
/-- The address of VLD and VST: ra + 64 × imm15. -/
def vea (d : Dev) (i : Issue) (w : Nat) : Nat := (sval d i (wRa w) + 64 * (imm15 w).signExtend 64).toNat

/-- Where a byte of the crib, or of the memory of the drover's own drove through its alias, stands (Table 06-3). -/
def localKey (i : Issue) (a : Nat) : Nat :=
  if cribBase ≤ a ∧ a < cribBase + 0x40000 then droverPrivate i.n + (a - cribBase)
  else 0x40000000 + i.n / 8 * 0x400000 + (a - droveAlias)

/-- `len` bytes from `a` lie in the crib, or in the alias of the drover's own drove memory. -/
def isLocal (a len : Nat) : Prop :=
  (cribBase ≤ a ∧ a + len ≤ cribBase + 0x40000) ∨ (droveAlias ≤ a ∧ a + len ≤ droveAlias + 0x400000)

/-- No memory and no register of Table 06-3 answers at `a`. -/
def isNowhere (a : Nat) : Prop :=
  0x4000000000 ≤ a ∧ ¬(cribBase ≤ a ∧ a < cribBase + 0x40000) ∧ ¬(imemBase ≤ a ∧ a < imemBase + 0x10000) ∧
    ¬(droveAlias ≤ a ∧ a < droveAlias + 0x400000) ∧ ¬(regAlias ≤ a ∧ a < regAlias + 0x1000)

/-- A load: command, operation, bytes, sign-extended. -/
structure LoadRow where
  cmd : Issue → Instr
  key : Nat
  len : Nat
  signed : Bool

def loadRows : List LoadRow := [⟨.lb, 0x1000, 1, true⟩, ⟨.lbu, 0x1100, 1, false⟩, ⟨.lh, 0x1200, 2, true⟩,
  ⟨.lhu, 0x1300, 2, false⟩, ⟨.lw, 0x1400, 4, true⟩, ⟨.lwu, 0x1500, 4, false⟩, ⟨.ld, 0x1600, 8, false⟩]

/-- A store: command, operation, bytes. -/
structure StoreRow where
  cmd : Issue → Instr
  key : Nat
  len : Nat

def storeRows : List StoreRow := [⟨.sb, 0x1800, 1⟩, ⟨.sh, 0x1900, 2⟩, ⟨.sw, 0x1A00, 4⟩, ⟨.sd, 0x1B00, 8⟩]

/-- An atomic: command, operation, bytes, and the new word from the old one, rb and rd, each cut to the word. -/
structure AtomRow where
  cmd : Issue → Instr
  key : Nat
  len : Nat
  f : Word → Word → Word → Word

def atomRows : List AtomRow := [
  ⟨.aaddW, 0x1C00, 4, fun old b _ => old + b⟩, ⟨.aaddD, 0x1C01, 8, fun old b _ => old + b⟩,
  ⟨.aswpW, 0x1C02, 4, fun _ b _ => b⟩, ⟨.aswpD, 0x1C03, 8, fun _ b _ => b⟩,
  ⟨.acasW, 0x1C04, 4, fun old b cmp => if old = cmp then b else old⟩,
  ⟨.acasD, 0x1C05, 8, fun old b cmp => if old = cmp then b else old⟩]

/-- The value of `len` loaded bytes as a word, sign-extended or not. -/
def loaded (d : Dev) (k len : Nat) (signed : Bool) : Word :=
  let v : BitVec (8 * len) := BitVec.ofNat (8 * len) (d.load k len)
  if signed then v.signExtend 64 else v.setWidth 64

/-- The low `len` bytes of a word. -/
def cut (len : Nat) (v : Word) : Word := v &&& BitVec.ofNat 64 (2 ^ (8 * len) - 1)

/-- The device with `l` stored from `k` on reads `l` there and every other byte as before. -/
def storedThere (d : Dev) (k : Nat) (l : List Byte) : Prop :=
  (d.setBytes k l).bytes k l.length = l ∧ ∀ a, a < k ∨ k + l.length ≤ a → (d.setBytes k l).byte a = d.byte a

end Sys2Proof.Claims

/-- R239, R198, R200, R243. -/
def Sys2Proof.Claims.LoadResults : Prop :=
  ∀ d i w, Fetches d i w →
    (∀ r ∈ loadRows, opKey w = some r.key →
      let a := ea d i w
      (isLocal a r.len → a % r.len = 0 → i.dataEcc = 0 →
        writesRd (r.cmd i) d i w (loaded d (localKey i a) r.len r.signed)) ∧
      (a % r.len ≠ 0 → faults (r.cmd i) d i 3) ∧
      (a % r.len = 0 → isNowhere a → faults (r.cmd i) d i 4) ∧
      (isLocal a r.len → a % r.len = 0 → i.dataEcc = 2 → faults (r.cmd i) d i 5)) ∧
    (opKey w = some 0x2000 →
      let a := vea d i w
      (isLocal a 64 → a % 64 = 0 → i.dataEcc = 0 →
        Does (.vld i) d (ran d i ((self d i).setV (wRd w) (d.load (localKey i a) 64)))) ∧
      (a % 64 ≠ 0 → faults (.vld i) d i 3) ∧ (a % 64 = 0 → isNowhere a → faults (.vld i) d i 4))

/-- R239, R198, R243. -/
def Sys2Proof.Claims.StoreResults : Prop :=
  ∀ d i w, Fetches d i w →
    (∀ r ∈ storeRows, opKey w = some r.key →
      let a := ea d i w
      let l := leBytes r.len (sval d i (wRd w)).toNat
      (isLocal a r.len → a % r.len = 0 →
        Does (r.cmd i) d (ran (d.setBytes (localKey i a) l) i (self d i)) ∧ storedThere d (localKey i a) l) ∧
      (a % r.len ≠ 0 → faults (r.cmd i) d i 3) ∧
      (a % r.len = 0 → isNowhere a ∨ (imemBase ≤ a ∧ a < imemBase + 0x10000) → faults (r.cmd i) d i 4)) ∧
    (opKey w = some 0x2100 →
      let a := vea d i w
      let l := leBytes 64 ((self d i).vreg (wRd w))
      (isLocal a 64 → a % 64 = 0 →
        Does (.vst i) d (ran (d.setBytes (localKey i a) l) i (self d i)) ∧ storedThere d (localKey i a) l) ∧
      (a % 64 ≠ 0 → faults (.vst i) d i 3) ∧ (a % 64 = 0 → isNowhere a → faults (.vst i) d i 4))

/-- R241, R199. -/
def Sys2Proof.Claims.AtomicResults : Prop :=
  ∀ d i w, Fetches d i w → ∀ r ∈ atomRows, opKey w = some r.key →
    let a := (sval d i (wRa w)).toNat
    let k := localKey i a
    let old := loaded d k r.len false
    let new := r.f old (cut r.len (sval d i (wRb w))) (cut r.len (sval d i (wRd w)))
    let l := leBytes r.len new.toNat
    (isLocal a r.len → a % r.len = 0 → i.dataEcc = 0 →
      Does (r.cmd i) d (ran (d.setBytes k l) i ((self d i).setS (wRd w) (loaded d k r.len true).toNat)) ∧
        storedThere d k l) ∧
    (a % r.len ≠ 0 → faults (r.cmd i) d i 3) ∧
    (a % r.len = 0 → isNowhere a ∨ (imemBase ≤ a ∧ a < imemBase + 0x10000) ∨ (regAlias ≤ a ∧ a < regAlias + 0x1000) →
      faults (r.cmd i) d i 4)

/-- Scalar and vector loads from the crib and the own drove; Scalar and vector stores to the crib and the own drove;
Scalar atomics on the crib and the own drove. -/
def Obligations.MemoryInstructionResults : Prop :=
  Sys2Proof.Claims.LoadResults ∧ Sys2Proof.Claims.StoreResults ∧ Sys2Proof.Claims.AtomicResults

namespace Sys2Proof.Claims

/-- Lane `k` of width `e` of a 512-bit value. -/
def laneBv (e v k : Nat) : BitVec e := BitVec.ofNat e (v / 2 ^ (e * k))

/-- A lane-wise instruction: command, operation, and the new lane from the old lane of vd and those of va and vb. -/
structure LaneRow where
  cmd : Issue → Instr
  key : Nat
  f : (e : Nat) → BitVec e → BitVec e → BitVec e → BitVec e

/-- A number held to the range of a signed lane. -/
def sat (e : Nat) (x : Int) : BitVec e := BitVec.ofInt e (max (-(2 ^ (e - 1))) (min x (2 ^ (e - 1) - 1)))

def allIf (e : Nat) (b : Bool) : BitVec e := if b then BitVec.allOnes e else 0

/-- VALU and VMULG (Table 07-4). -/
def laneRows : List LaneRow := [
  ⟨.vadd, 0x2200, fun _ _ a b => a + b⟩, ⟨.vsub, 0x2201, fun _ _ a b => a - b⟩,
  ⟨.vadds, 0x2202, fun e _ a b => sat e (a.toInt + b.toInt)⟩, ⟨.vsubs, 0x2203, fun e _ a b => sat e (a.toInt - b.toInt)⟩,
  ⟨.vand, 0x2204, fun _ _ a b => a &&& b⟩, ⟨.vor, 0x2205, fun _ _ a b => a ||| b⟩, ⟨.vxor, 0x2206, fun _ _ a b => a ^^^ b⟩,
  ⟨.vsll, 0x2207, fun e _ a b => a <<< (b.toNat % e)⟩, ⟨.vsrl, 0x2208, fun e _ a b => a >>> (b.toNat % e)⟩,
  ⟨.vsra, 0x2209, fun e _ a b => a.sshiftRight (b.toNat % e)⟩,
  ⟨.vmin, 0x220A, fun _ _ a b => if a.slt b then a else b⟩, ⟨.vmax, 0x220B, fun _ _ a b => if a.slt b then b else a⟩,
  ⟨.vminu, 0x220C, fun _ _ a b => if a.ult b then a else b⟩, ⟨.vmaxu, 0x220D, fun _ _ a b => if a.ult b then b else a⟩,
  ⟨.vceq, 0x220E, fun e _ a b => allIf e (a == b)⟩, ⟨.vclt, 0x220F, fun e _ a b => allIf e (a.slt b)⟩,
  ⟨.vcltu, 0x2210, fun e _ a b => allIf e (a.ult b)⟩,
  ⟨.vbsw, 0x2211, fun e _ a _ => BitVec.ofNat e (ofBe (leBytes (e / 8) a.toNat))⟩,
  ⟨.vmul, 0x2300, fun _ _ a b => a * b⟩,
  ⟨.vmulh, 0x2301, fun e _ a b => BitVec.ofInt e (a.toInt * b.toInt / 2 ^ e)⟩,
  ⟨.vmulhu, 0x2302, fun e _ a b => BitVec.ofNat e (a.toNat * b.toNat / 2 ^ e)⟩,
  ⟨.vmac, 0x2303, fun _ old a b => old + a * b⟩]

/-- An instruction that gives vd a 512-bit value of which `p` holds, and changes nothing else. -/
def writesVd (c : Instr) (d : Dev) (i : Issue) (w : Nat) (p : Nat → Prop) : Prop :=
  ∃ v, v < 2 ^ 512 ∧ Does c d (ran d i ((self d i).setV (wRd w) v)) ∧ p v

end Sys2Proof.Claims

/-- R243, R234, R233, Table 07-4. -/
def Sys2Proof.Claims.VectorLaneResults : Prop :=
  ∀ r ∈ laneRows, ∀ d i w, Fetches d i w → opKey w = some r.key →
    let e := 8 * 2 ^ (w / 2 ^ 25 % 4)
    let old := (self d i).vreg (wRd w)
    writesVd (r.cmd i) d i w fun v => ∀ k, k < 512 / e →
      laneBv e v k = if ((self d i).mreg (wMk w)).testBit k
        then r.f e (laneBv e old k) (laneBv e ((self d i).vreg (wRa w)) k) (laneBv e ((self d i).vreg (wRb w)) k)
        else laneBv e old k

/-- R233, R247, R168, Table 07-4. -/
def Sys2Proof.Claims.VectorMoveResults : Prop :=
  (∀ p ∈ [(Instr.vsplB, 0x2400, 8), (Instr.vsplH, 0x2401, 16), (Instr.vsplW, 0x2402, 32), (Instr.vsplD, 0x2403, 64)],
    ∀ d i w, Fetches d i w → opKey w = some p.2.1 →
      writesVd (p.1 i) d i w fun v => ∀ k, k < 512 / p.2.2 → laneBv p.2.2 v k = (sval d i (wRa w)).setWidth p.2.2) ∧
  (∀ d i w, Fetches d i w →
    let at_ := (sval d i (wRb w)).toNat % 8
    (opKey w = some 0x2404 → writesRd (.vext i) d i w (laneBv 64 ((self d i).vreg (wRa w)) at_)) ∧
    (opKey w = some 0x2405 → writesVd (.vins i) d i w fun v => ∀ k, k < 8 →
      laneBv 64 v k = if k = at_ then sval d i (wRa w) else laneBv 64 ((self d i).vreg (wRd w)) k) ∧
    (opKey w = some 0x2406 → writesVd (.vmov i) d i w fun v => v = (self d i).vreg (wRa w)) ∧
    (opKey w = some 0x2407 → ∃ f : Int → Nat, (∀ m < 0, f m = 0) ∧ (∀ m > 31, f m = 65536) ∧ f 0 = 39 ∧ f 16 = 34376 ∧
      f 31 = 65497 ∧ (∀ m, 0 ≤ m → m ≤ 31 → f m + f (31 - m) = 65536) ∧
      writesVd (.vxfw i) d i w fun v => ∀ k, k < 8 → laneBv 64 v k = BitVec.ofNat 64 (f ((sval d i (wRa w)).toInt + k))) ∧
    (opKey w = some 0x2408 → Does (.mtm i) d (ran d i ((self d i).setM (wMk w) (sval d i (wRa w)).toNat))) ∧
    (opKey w = some 0x2409 → writesRd (.mfm i) d i w (BitVec.ofNat 64 ((self d i).mreg (wMk w)))) ∧
    (opKey w = some 0x240A → Does (.mlen i) d
      (ran d i ((self d i).setM (wMk w) (2 ^ min 64 (sval d i (wRa w)).toNat - 1)))))

/-- R233. -/
def Obligations.RegisterFileRules : Prop :=
  ∀ (x : Thr) (k v : Nat),
    x.sreg 0 = 0 ∧ x.mreg 0 = 2 ^ 64 - 1 ∧ x.setS 0 v = x ∧ x.setM 0 v = x ∧
    (k ≠ 0 → (x.setS k v).sreg k = v % 2 ^ 64 ∧ (x.setM k v).mreg k = v % 2 ^ 64) ∧
    (x.setV k v).vreg k = v % 2 ^ 512 ∧
    (∀ j, j ≠ k → (x.setS k v).sreg j = x.sreg j ∧ (x.setV k v).vreg j = x.vreg j ∧ (x.setM k v).mreg j = x.mreg j) ∧
    (∀ j, (x.setS k v).vreg j = x.vreg j ∧ (x.setS k v).mreg j = x.mreg j ∧ (x.setV k v).sreg j = x.sreg j ∧
      (x.setV k v).mreg j = x.mreg j ∧ (x.setM k v).sreg j = x.sreg j ∧ (x.setM k v).vreg j = x.vreg j)

namespace Sys2Proof.Claims

/-- One bit of the CRC-32C state machine of R259. -/
def crcBit (c : BitVec 32) : BitVec 32 := (c >>> 1) ^^^ (if c.getLsbD 0 then 0x82F63B78#32 else 0)
/-- One byte. -/
def crcByte (c : BitVec 32) (b : BitVec 8) : BitVec 32 := (List.range 8).foldl (fun c _ => crcBit c) (c ^^^ b.setWidth 32)

/-- A line of memory with the enabled lanes of `mask` made by `f`, the others as they are. -/
def lineIs (d : Dev) (k mask : Nat) (f : Nat → Word → Word) (v : Nat) : Prop :=
  v < 2 ^ 512 ∧ ∀ j, j < 8 → laneBv 64 v j =
    if mask.testBit j then f j (laneBv 64 (d.load k 64) j) else laneBv 64 (d.load k 64) j

/-- The enabled lanes whose old word has bit 63 set. -/
def collisions (d : Dev) (k mask : Nat) : Nat :=
  ((List.range 8).filter fun j => mask.testBit j && (laneBv 64 (d.load k 64) j).getLsbD 63).length

/-- mix_collide counts the collisions of drove memory. -/
def collided (d : Dev) (a k mask : Nat) : Dev :=
  if droveAlias ≤ a ∧ a < droveAlias + 0x400000 ∧ collisions d k mask ≠ 0 then d.medCount 10 (collisions d k mask) else d

/-- A range lies in the crib. -/
def cribRange (a len : Nat) : Prop := cribBase ≤ a ∧ a + len ≤ cribBase + 0x40000
/-- Word `j` of eight signed 32-bit words at `k`. -/
def word32 (d : Dev) (k j : Nat) : BitVec 32 := BitVec.ofNat 32 (d.load (k + 4 * j) 4)

/-- The deinterleave state that ADCFG takes from va (R246). -/
def adcfgOf (v : Nat) : Deint :=
  { src := v % 2 ^ 40, dst := v / 2 ^ 64 % 2 ^ 40, fmt := v / 2 ^ 128 % 4, chans := v / 2 ^ 136 % 128, spp := v / 2 ^ 144 % 128 }

def sampleWidth (fmt : Nat) : Nat := if fmt = 0 then 2 else if fmt = 1 then 3 else 4

/-- The fields of a deinterleave state are those ADCFG allows. -/
def deintOk (y : Deint) : Prop :=
  y.fmt < 3 ∧ 1 ≤ y.chans ∧ y.chans ≤ 64 ∧ 1 ≤ y.spp ∧ y.spp ≤ 96 ∧ y.dst % 32 = 0 ∧
    cribRange y.src (y.spp * y.chans * sampleWidth y.fmt) ∧ cribRange y.dst (y.chans * ((y.spp + 7) / 8 * 8) * 4)

/-- What sample value `v` of a format is staged as (R246). -/
def stagedAs (fmt v : Nat) : BitVec 32 :=
  if fmt = 0 then (BitVec.ofNat 16 v).signExtend 32 <<< 8 else if fmt = 1 then (BitVec.ofNat 24 v).signExtend 32
  else BitVec.ofNat 32 v

end Sys2Proof.Claims

/-- R244, R249, R199. -/
def Sys2Proof.Claims.VectorAtomicResults : Prop :=
  ∀ d i w, Fetches d i w → i.dataEcc = 0 →
    let a := (sval d i (wRa w)).toNat
    let k := localKey i a
    let mask := (self d i).mreg (wMk w)
    (opKey w = some 0x2500 → isLocal a 64 → a % 64 = 0 → ∃ v,
      lineIs d k mask (fun j old => sat 64 (old.toInt + (laneBv 64 ((self d i).vreg (wRb w)) j).toInt)) v ∧
      Does (.vaadd i) d (ran (d.setBytes k (leBytes 64 v)) i (self d i)) ∧ storedThere d k (leBytes 64 v)) ∧
    (opKey w = some 0x2501 → isLocal a 64 → a % 64 = 0 → ∃ v,
      lineIs d k mask (fun j _ => laneBv 64 ((self d i).vreg (wRb w)) j) v ∧
      Does (.vaput i) d (ran ((collided d a k mask).setBytes k (leBytes 64 v)) i (self d i))) ∧
    (opKey w = some 0x2805 → droveAlias ≤ a → a + 64 ≤ droveAlias + 0x400000 → a % 64 = 0 →
      let b := (sval d i (wRb w)).toNat
      cribRange b 32 → b % 32 = 0 → ∃ v,
      lineIs d k mask (fun j _ => BitVec.ofNat 64 (2 ^ 63 + (word32 d (localKey i b) j).toNat)) v ∧
      Does (.amov i) d (ran ((collided d a k mask).setBytes k (leBytes 64 v)) i (self d i))) ∧
    (a % 64 ≠ 0 → (opKey w = some 0x2500 → faults (.vaadd i) d i 3) ∧ (opKey w = some 0x2501 → faults (.vaput i) d i 3) ∧
      (opKey w = some 0x2805 → faults (.amov i) d i 3))

/-- Lane-wise vector arithmetic under a mask; Splat, extract, insert, move, crossfade weights and masks; Vector
atomics and AES3 moves on a line of the crib or the own drove. -/
def Obligations.VectorResults : Prop :=
  Sys2Proof.Claims.VectorLaneResults ∧ Sys2Proof.Claims.VectorMoveResults ∧ Sys2Proof.Claims.VectorAtomicResults

/-- R245, R248, R259. -/
def Sys2Proof.Claims.MediaResults : Prop :=
  ∀ d i w, Fetches d i w → i.dataEcc = 0 →
    let a := (sval d i (wRa w)).toNat
    let k := localKey i a
    (opKey w = some 0x2800 → cribRange a 40 → writesVd (.unpkP10 i) d i w fun v => ∀ j, j < 32 →
      laneBv 16 v j = BitVec.ofNat 16 (ofBe (d.bytes k 40) / 2 ^ (310 - 10 * j) % 1024)) ∧
    (opKey w = some 0x2801 → cribRange a 40 → ∃ l : List Byte, l.length = 40 ∧
      (∀ j, j < 32 → ofBe l / 2 ^ (310 - 10 * j) % 1024 = (laneBv 16 ((self d i).vreg (wRb w)) j).toNat % 1024) ∧
      Does (.pkP10 i) d (ran (d.setBytes k l) i (self d i)) ∧ storedThere d k l) ∧
    (opKey w = some 0x2804 → cribRange a 32 → a % 32 = 0 → writesVd (.amix i) d i w fun v => ∀ j, j < 8 →
      laneBv 64 v j = if ((self d i).mreg (wMk w)).testBit j
        then BitVec.ofInt 64 ((word32 d k j).toInt * ((laneBv 64 ((self d i).vreg (wRb w)) j).toNat % 2 ^ 32 : Nat))
        else laneBv 64 ((self d i).vreg (wRd w)) j) ∧
    (opKey w = some 0x2900 → writesRd (.crcC i) d i w
      ((((List.range 64).filter fun j => ((self d i).mreg (wMk w)).testBit j).foldl
        (fun c j => crcByte c (laneBv 8 ((self d i).vreg (wRb w)) j)) ((sval d i (wRa w)).setWidth 32)).setWidth 64)) ∧
    (¬ cribRange a 40 → (opKey w = some 0x2800 → faults (.unpkP10 i) d i 4) ∧
      (opKey w = some 0x2801 → faults (.pkP10 i) d i 4)) ∧
    (opKey w = some 0x2804 → a % 32 ≠ 0 → faults (.amix i) d i 3)

/-- R246. -/
def Sys2Proof.Claims.DeinterleaveResults : Prop :=
  ∀ d i w, Fetches d i w → i.dataEcc = 0 →
    (opKey w = some 0x2802 →
      let v := (self d i).vreg (wRa w)
      let y := adcfgOf v
      let zeros := v / 2 ^ 40 % 2 ^ 24 = 0 ∧ v / 2 ^ 104 % 2 ^ 24 = 0 ∧ v / 2 ^ 130 % 64 = 0 ∧ v / 2 ^ 143 % 2 = 0 ∧
        v / 2 ^ 151 = 0
      (deintOk y → zeros → Does (.adcfg i) d (ran d i { self d i with deint := y })) ∧
      (¬ zeros ∨ y.fmt = 3 ∨ y.chans = 0 ∨ 64 < y.chans ∨ y.spp = 0 ∨ 96 < y.spp → faults (.adcfg i) d i 1) ∧
      (deintOk { y with dst := y.dst / 32 * 32 } → zeros → y.dst % 32 ≠ 0 → faults (.adcfg i) d i 3)) ∧
    (opKey w = some 0x2803 →
      let y := (self d i).deint
      let b := sampleWidth y.fmt
      let total := y.spp * y.chans * b
      let n := min 64 (total - y.done)
      let bytes := y.carry ++ d.bytes (localKey i (y.src + y.done)) n
      let m := bytes.length / b
      let at_ := fun (s : Nat) => localKey i (y.dst + (s % y.chans * ((y.spp + 7) / 8 * 8) + s / y.chans) * 4)
      deintOk y → y.done ≤ total → y.carry.length < b → b * y.k + y.carry.length = y.done →
      ∃ d', Does (.adeint i) d d' ∧ (self d' i).deint = { y with k := y.k + m, done := y.done + n, carry := bytes.drop (b * m) } ∧
        (wRd w ≠ 0 → (self d' i).sreg (wRd w) = y.k + m) ∧ (self d' i).pc = (self d i).pc + 4 ∧
        (∀ r, r ≠ wRd w → (self d' i).sreg r = (self d i).sreg r) ∧
        (∀ j, j < m → d'.load (at_ (y.k + j)) 4 = (stagedAs y.fmt (ofBe ((bytes.drop (b * j)).take b))).toNat) ∧
        (∀ z, z < localKey i y.dst ∨ localKey i y.dst + y.chans * ((y.spp + 7) / 8 * 8) * 4 ≤ z → d'.byte z = d.byte z))

/-- Pixel unpacking and packing, audio mixing factors, CRC; ADCFG and ADEINT. -/
def Obligations.MediaInstructionResults : Prop :=
  Sys2Proof.Claims.MediaResults ∧ Sys2Proof.Claims.DeinterleaveResults

namespace Sys2Proof.Claims

/-- The thread blocks in its instruction `w` (R196). -/
def blocked (d : Dev) (i : Issue) (w : Nat) : Dev :=
  (d.setThr i.n i.t { self d i with wait := some w }).setThrState i.n i.t 2

/-- The drover's record with other windows. -/
def withWins (d : Dev) (n : Nat) (l : List Window) : Dev := d.setDrover n { d.drover n with wins := l }

/-- A send descriptor breaks none of the rules of R252 that raise ILLEGAL_OP. -/
def sendLegal (d : Dev) (n v : Nat) : Prop :=
  v % 4 ≠ 3 ∧ v / 2 ^ 24 % 2 ^ 8 = 0 ∧ v / 2 ^ 46 % 2 ^ 18 = 0 ∧ v / 2 ^ 104 % 2 ^ 24 = 0 ∧ v / 2 ^ 288 % 2 ^ 32 = 0 ∧
    v / 2 ^ 352 = 0 ∧ 64 ≤ v / 2 ^ 32 % 2 ^ 14 ∧ v / 2 ^ 32 % 2 ^ 14 ≤ 9600 ∧
    (v % 4 = 2 → v / 2 ^ 8 % 128 ≤ 95) ∧
    (v.testBit 6 = true → ∃ x ∈ (d.drover n).wins, x.given = true ∧ x.freed = false ∧
      0xFF00020000 + 4096 * x.first ≤ v / 2 ^ 64 % 2 ^ 40 ∧
      v / 2 ^ 64 % 2 ^ 40 + v / 2 ^ 32 % 2 ^ 14 ≤ 0xFF00020000 + 4096 * (x.first + x.count))

end Sys2Proof.Claims

/-- R250, R251, R204, R202. -/
def Sys2Proof.Claims.WindowResults : Prop :=
  ∀ d i w, Fetches d i w →
    let wins := (d.drover i.n).wins
    (d.rd R.DRV_RX_CFG_affinity [i.n] = 0 →
      (∀ a x b, wins = a ++ x :: b → (∀ y ∈ a, y.given = true) → x.given = false → x.freed = false →
        (∀ y ∈ a ++ b, y.first ≠ x.first ∨ y.freed = true) →
        let d1 := withWins d i.n (a ++ { x with given := true } :: b)
        let d2 := ran d1 i ((self d i).setS (wRd w) (0xFF00020000 + 4096 * x.first))
        (opKey w = some 0x3000 → Does (.pktNext i) d d2) ∧ (opKey w = some 0x3001 → Does (.pktNextNb i) d d2)) ∧
      ((∀ y ∈ wins, y.given = true) →
        (opKey w = some 0x3000 → Does (.pktNext i) d (blocked d i w)) ∧
        (opKey w = some 0x3001 → writesRd (.pktNextNb i) d i w 0))) ∧
    (opKey w = some 0x3002 →
      let a := (sval d i (wRa w)).toNat
      (∀ p x q, wins = p ++ x :: q → x.given = true → x.freed = false → a = 0xFF00020000 + 4096 * x.first →
        (∀ y ∈ p ++ q, y.first ≠ x.first ∨ y.freed = true) →
        Does (.pktFree i) d (ran (withWins d i.n ((p ++ { x with freed := true } :: q).dropWhile (·.freed))) i (self d i))) ∧
      ((∀ x ∈ wins, x.given = true → x.freed = false → a ≠ 0xFF00020000 + 4096 * x.first) → faults (.pktFree i) d i 11))

/-- R252, R253, R254, R206, R207, R210, R211. -/
def Sys2Proof.Claims.SendResults : Prop :=
  ∀ d i w, Fetches d i w →
    (opKey w = some 0x3003 →
      let v := (self d i).vreg (wRb w)
      let q := v / 2 ^ 22 % 4
      let queue := d.sendQ i.n q
      (sendLegal d i.n v → cribRange (v / 2 ^ 64 % 2 ^ 40) (v / 2 ^ 32 % 2 ^ 14) →
        (queue.length < 8 → Does (.pktSend i) d (ran (d.setSendQ i.n q (queue ++ [v])) i (self d i))) ∧
        (8 ≤ queue.length → Does (.pktSend i) d (blocked d i w))) ∧
      (¬ sendLegal d i.n v → faults (.pktSend i) d i 1)) ∧
    (opKey w = some 0x3004 →
      let a := (sval d i (wRa w)).toNat
      let q := (sval d i (wRb w)).toNat % 4
      let queue := d.sendQ i.n q
      (a % 64 = 0 → cribRange a 2048 → queue.length ≤ 8 → ∃ d', Does (.pktSqflush i) d d' ∧
        self d' i = { (self d i).setS (wRd w) queue.length with pc := (self d i).pc + 4, wait := none, asked := false, cmp := none } ∧
        d'.mem = (d.setBytes (localKey i a) (queue.flatMap fun v => leBytes 64 v)).mem ∧ d'.sendQ i.n q = [] ∧
        (∀ p, p ≠ q → d'.sendQ i.n p = d.sendQ i.n p) ∧
        d'.rd R.DRV_CNT_count [i.n, 6] = (d.rd R.DRV_CNT_count [i.n, 6] + queue.length) % 2 ^ 64) ∧
      (a % 64 ≠ 0 → faults (.pktSqflush i) d i 3) ∧ (a % 64 = 0 → ¬ cribRange a 2048 → faults (.pktSqflush i) d i 4)) ∧
    (opKey w = some 0x3005 →
      ((d.drover i.n).ts = [] → Does (.pktTsrd i) d (ran d i ((self d i).setV (wRd w) 0))) ∧
      (∀ e r, (d.drover i.n).ts = e :: r →
        Does (.pktTsrd i) d (ran (d.setDrover i.n { d.drover i.n with ts := r }) i
          ((self d i).setV (wRd w) (e.ts % 2 ^ 96 + 2 ^ 96 * (e.tag % 2 ^ 32) + 2 ^ 128 + (if e.dropped then 2 ^ 129 else 0))))))

/-- PKT.NEXT, PKT.NEXT.NB and PKT.FREE; PKT.SEND, PKT.SQFLUSH and PKT.TSRD. -/
def Obligations.PacketResults : Prop :=
  Sys2Proof.Claims.WindowResults ∧ Sys2Proof.Claims.SendResults

/-- R255, R126, R196. -/
def Sys2Proof.Claims.ChannelReadResults : Prop :=
  ∀ d i w, opKey w = some 0x3006 →
    let a := (sval d i (wRa w)).toNat
    let idx := a % 2 ^ 24
    let sid := a / 2 ^ 24 % 2 ^ 18
    (Fetches d i w → (wRd w % 2 = 1 ∨ a / 2 ^ 42 ≠ 0 → faults (.chrd i) d i 1) ∧
      (wRd w % 2 = 0 → a / 2 ^ 42 = 0 → Does (.chrd i) d (blocked d i w))) ∧
    (d.pwr.off = false → d.droveRuns i.n = true → d.thrState i.n i.t = 2 → (self d i).wait = some w →
      wRd w % 2 = 0 → a / 2 ^ 42 = 0 → d.lineBad (entryAddr idx) = false → d.entry idx / 2 ^ 320 % 8 = 0 →
      let e := d.entry idx
      let img := if e % 256 = 0x0C ∧ (e / 2 ^ 8 % 64 ≠ idx % 64 ∨ e / 2 ^ 16 % 2 ^ 18 ≠ sid) then 0 else e
      ∃ d', Does (.longOpComplete i.n i.t 0 [] {}) d d' ∧ (self d' i).vreg (wRd w) = img % 2 ^ 512 ∧
        (self d' i).vreg (wRd w + 1) % 2 ^ 352 = img % 2 ^ 352 ∧ (self d' i).vreg (wRd w + 1) / 2 ^ 352 % 2 ^ 97 = 0 ∧
        (self d' i).pc = ((self d i).pc + 4) % 2 ^ 64 ∧ d'.thrState i.n i.t = 1 ∧
        (∀ r, (self d' i).sreg r = (self d i).sreg r) ∧
        d'.rd R.DRV_CNT_count [i.n, 8] = (d.rd R.DRV_CNT_count [i.n, 8] + 1) % 2 ^ 64)

/-- R260, R217, R262. -/
def Sys2Proof.Claims.DmaResults : Prop :=
  ∀ d i w, Fetches d i w →
    let c := w / 2 ^ 25 % 4
    let ch := d.dmaChan i.n c
    let v := (self d i).vreg (wRb w)
    let src := v % 2 ^ 40
    let dst := v / 2 ^ 64 % 2 ^ 40
    let len := v / 2 ^ 128 % 2 ^ 25
    let legal := 64 ≤ len ∧ len ≤ 16777216 ∧ len % 64 = 0 ∧ v / 2 ^ 40 % 2 ^ 24 = 0 ∧ v / 2 ^ 104 % 2 ^ 24 = 0 ∧ v / 2 ^ 153 = 0
    let status := ch.status + (if ch.busySeen then 4 else 0)
    let cleared := d.setDma i.n c { ch with status := 0, busySeen := false, busRaised := false }
    (opKey w = some 0x3200 →
      (¬ legal → faults (.dmaGo i) d i 1) ∧
      (legal → src % 64 ≠ 0 ∨ dst % 64 ≠ 0 → faults (.dmaGo i) d i 3) ∧
      (legal → src % 64 = 0 → dst % 64 = 0 → isNowhere src ∨ isNowhere dst → faults (.dmaGo i) d i 4) ∧
      (legal → src % 64 = 0 → dst % 64 = 0 → cribRange src len → cribRange dst len →
        (ch.queue.length < 4 → Does (.dmaGo i) d
          (ran (d.setDma i.n c { ch with queue := ch.queue ++ [⟨src, dst, len⟩] }) i (self d i))) ∧
        (4 ≤ ch.queue.length → Does (.dmaGo i) d (blocked d i w)))) ∧
    (opKey w = some 0x3201 →
      (ch.queue ≠ [] → Does (.dmaWait i) d (blocked d i w)) ∧
      (ch.queue = [] → (ch.status ≠ 2 ∨ ch.busRaised = true) →
        Does (.dmaWait i) d (ran cleared i ((self d i).setS (wRd w) status)))) ∧
    (opKey w = some 0x3202 →
      (ch.queue = [] → (ch.status ≠ 2 ∨ ch.busRaised = true) →
        Does (.dmaPoll i) d (ran cleared i ((self d i).setS (wRd w) status))) ∧
      (ch.queue ≠ [] → (ch.status ≠ 2 ∨ ch.busRaised = true) →
        Does (.dmaPoll i) d (ran d i ((self d i).setS (wRd w) (status + 8)))) ∧
      (ch.status = 2 → ch.busRaised = false → ∃ d', Does (.dmaPoll i) d d' ∧
        d'.dmaChan i.n c = { ch with busRaised := true } ∧ (∀ r, (self d' i).sreg r = (self d i).sreg r) ∧
        d'.rd R.DRV_THR_FAULT_code [i.n, i.t] = (if d.flag R.DRV_THR_FAULT_active [i.n, i.t] then 9 else 6)))

/-- CHRD; DMA.GO, DMA.WAIT and DMA.POLL. -/
def Obligations.ChannelReadAndDmaResults : Prop :=
  Sys2Proof.Claims.ChannelReadResults ∧ Sys2Proof.Claims.DmaResults

namespace Sys2Proof.Claims

/-- The instant the time pair at register `k` names, in beads (R42, R235, R587). -/
def pairAt (d : Dev) (i : Issue) (k : Nat) : Nat :=
  let lo := (self d i).sreg k
  let hi := (self d i).sreg (k + 1) % 2 ^ 32
  ((hi * 2 ^ 16 + lo / 2 ^ 48) * (10 ^ 9 * 65536) + lo / 2 ^ 16 % 2 ^ 32 * 65536 + lo % 65536) % (2 ^ 48 * (10 ^ 9 * 65536))

/-- The 96 bits of an instant: seconds, nanoseconds, beads (R42). -/
def timeBits (b : Nat) : BitVec 96 :=
  BitVec.ofNat 48 (b / (10 ^ 9 * 65536)) ++ BitVec.ofNat 32 (b % (10 ^ 9 * 65536) / 65536) ++ BitVec.ofNat 16 b

/-- The thread's registers with the time pair at `k` set (R235). -/
def withPair (x : Thr) (k b : Nat) : Thr :=
  (x.setS k ((timeBits b).extractLsb' 0 64).toNat).setS (k + 1) ((timeBits b).extractLsb' 64 32).toNat

/-- The time of the drove's replica `fine` edges after the last marker, in beads. -/
def replicaAt (d : Dev) (i : Issue) (fine : Nat) : Nat := d.droveTime i.n fine

/-- A rate of p / q from rb. -/
def rateP (d : Dev) (i : Issue) (w : Nat) : Nat := (sval d i (wRb w)).toNat % 2 ^ 32
def rateQ (d : Dev) (i : Issue) (w : Nat) : Nat := (sval d i (wRb w)).toNat / 2 ^ 32

/-- The device with bit `t` of the drover's late flags set to `b`. -/
def withLate (d : Dev) (i : Issue) (b : Bool) : Dev :=
  if b then d.setBit R.DRV_STATUS_late [i.n] i.t else d.clearBit R.DRV_STATUS_late [i.n] i.t

end Sys2Proof.Claims

/-- R256, R258, R235, R42. -/
def Sys2Proof.Claims.TimeResults : Prop :=
  ∀ d i w, Fetches d i w →
    let sec := 10 ^ 9 * 65536
    let p := rateP d i w
    let q := rateQ d i w
    let rd := wRd w
    let ra := wRa w
    (∀ fine, opKey w = some 0x3100 →
      (rd % 2 = 0 → Does (.stamp i fine) d (ran d i (withPair (self d i) rd (replicaAt d i fine)))) ∧
      (rd % 2 = 1 → faults (.stamp i fine) d i 1)) ∧
    (opKey w = some 0x3101 → Does (.stampLate i) d (ran (withLate d i false) i
      ((self d i).setS rd (if (d.rd R.DRV_STATUS_late [i.n]).testBit i.t then 1 else 0)))) ∧
    (opKey w = some 0x3105 →
      (ra % 2 = 0 → p ≠ 0 → q ≠ 0 → ∃ k, (∀ j, k ≤ j ↔ pairAt d i ra * p ≤ j * (q * sec)) ∧
        writesRd (.tidxC i) d i w (BitVec.ofNat 64 (min k (2 ^ 64 - 1)))) ∧
      (ra % 2 = 1 ∨ p = 0 ∨ q = 0 → faults (.tidxC i) d i 1)) ∧
    (opKey w = some 0x3106 →
      (ra % 2 = 0 → p ≠ 0 → q ≠ 0 → ∃ k, (∀ j, j ≤ k ↔ j * (q * sec) ≤ pairAt d i ra * p) ∧
        writesRd (.tidxF i) d i w (BitVec.ofNat 64 (min k (2 ^ 64 - 1)))) ∧
      (ra % 2 = 1 ∨ p = 0 ∨ q = 0 → faults (.tidxF i) d i 1)) ∧
    (opKey w = some 0x3107 →
      (rd % 2 = 0 → p ≠ 0 → q ≠ 0 → ∃ b, (∀ c, b ≤ c ↔ (sval d i ra).toNat * (q * sec) ≤ c * p) ∧
        Does (.tat i) d (ran d i (withPair (self d i) rd b))) ∧
      (rd % 2 = 1 ∨ p = 0 ∨ q = 0 → faults (.tat i) d i 1))

/-- R257; the pair registers by R235. -/
def Obligations.TimePairArithmetic : Prop :=
  ∀ d i w, Fetches d i w →
    let rd := wRd w
    let ra := wRa w
    let rb := wRb w
    (opKey w = some 0x3103 →
      (rd % 2 = 0 → ra % 2 = 0 → Does (.tadd i) d
        (ran d i (withPair (self d i) rd ((pairAt d i ra : Int) + (sval d i rb).toInt).toNat))) ∧
      (rd % 2 = 1 ∨ ra % 2 = 1 → faults (.tadd i) d i 1)) ∧
    (opKey w = some 0x3104 →
      (ra % 2 = 0 → rb % 2 = 0 → writesRd (.tcmp i) d i w
        (if pairAt d i ra < pairAt d i rb then -1 else if pairAt d i ra = pairAt d i rb then 0 else 1)) ∧
      (ra % 2 = 1 ∨ rb % 2 = 1 → faults (.tcmp i) d i 1))

/-- R215, R216, R256, R52, R235. -/
def Sys2Proof.Claims.WaitUntilResults : Prop :=
  ∀ (d : Dev) (i : Issue) (w : Nat) (fine : Fin 256), opKey w = some 0x3102 →
    let target := pairAt d i (wRa w)
    let now := replicaAt d i fine
    (Fetches d i w →
      (wRa w % 2 = 0 → target ≤ now → Does (.waitu i fine) d (ran (withLate d i true) i (self d i))) ∧
      (wRa w % 2 = 0 → now < target → Does (.waitu i fine) d
        ((d.setThr i.n i.t { self d i with wait := some w, cmp := some target }).setThrState i.n i.t 2)) ∧
      (wRa w % 2 = 1 → faults (.waitu i fine) d i 1)) ∧
    (d.pwr.off = false → d.droveRuns i.n = true → d.thrState i.n i.t = 2 → (self d i).wait = some w →
      ∀ t, (self d i).cmp = some t →
        (now < t → Does (.comparatorFire i.n i.t fine) d d) ∧
        (t ≤ now → d.issues i.n = true → d.halted i.n = false → Does (.comparatorFire i.n i.t fine) d
          ((d.setThr i.n i.t { self d i with pc := (self d i).pc + 4, wait := none, asked := false, cmp := none }).setThrState
            i.n i.t 1)) ∧
        (t ≤ now → d.halted i.n = true → Does (.comparatorFire i.n i.t fine) d
          (d.setThr i.n i.t { self d i with cmp := none })))

/-- Time instructions; WAITU and its comparator. -/
def Obligations.TimeInstructionResults : Prop :=
  Sys2Proof.Claims.TimeResults ∧ Sys2Proof.Claims.WaitUntilResults

/-- R219, R438, R439, R196. -/
def Sys2Proof.Claims.DroverSemaphores : Prop :=
  ∀ d i w, Fetches d i w →
    let s := (sval d i (wRa w)).toNat % 256
    let mine := tget 0 (d.drover i.n).sem s
    let grant := (d.wr R.SEM_STATE_owner [s] i.n).wr R.SEM_STATE_held [s] 1
    let inDrover := fun (e : Dev) => e.setDrover i.n { e.drover i.n with sem := tset 0 (e.drover i.n).sem s (i.t + 1) }
    (opKey w = some 0x3300 →
      (mine = i.t + 1 → Does (.semAcq i) d (ran d i (self d i))) ∧
      (mine = 0 → (∀ t, t < 8 → t ≠ i.t → d.thrState i.n t ≠ 2) → d.semWaitOf i.n = none → (self d i).due = 0 →
        (d.semHeld s = false → ∃ d', Does (.semAcq i) d d' ∧ d'.rd R.SEM_STATE_owner [s] = i.n ∧
          d'.rd R.SEM_STATE_held [s] = 1 ∧ tget 0 (d'.drover i.n).sem s = i.t + 1 ∧ d'.thrState i.n i.t = 1 ∧
          (self d' i).pc = (self d i).pc + 4 ∧ d'.mem = d.mem ∧
          (∀ r, (self d' i).sreg r = (self d i).sreg r ∧ (self d' i).vreg r = (self d i).vreg r)) ∧
        (d.semHeld s = true → d.semOwner s ≠ i.n → ∃ d', Does (.semAcq i) d d' ∧ d'.semWaits s i.n = true ∧
          d'.thrState i.n i.t = 2 ∧ (self d' i).pc = (self d i).pc ∧ d'.semOwner s = d.semOwner s ∧ d'.mem = d.mem ∧
          (∀ r, (self d' i).sreg r = (self d i).sreg r ∧ (self d' i).vreg r = (self d i).vreg r)))) ∧
    (opKey w = some 0x3301 →
      (mine = i.t + 1 → writesRd (.semTry i) d i w 1) ∧
      (mine ≠ 0 → mine ≠ i.t + 1 → writesRd (.semTry i) d i w 0) ∧
      (mine = 0 → d.semHeld s = true → d.semOwner s ≠ i.n → writesRd (.semTry i) d i w 0) ∧
      (mine = 0 → d.semHeld s = false → Does (.semTry i) d (ran (inDrover grant) i ((self d i).setS (wRd w) 1)))) ∧
    (opKey w = some 0x3302 →
      (mine ≠ i.t + 1 → faults (.semRel i) d i 1) ∧
      (mine = i.t + 1 → d.semHeld s = true → d.semOwner s = i.n →
        ((∀ n k, (d.thr n k).semWait = none) → (∀ c r, (d.ring c r).cur = none) → d.rd R.SEM_STATE_waiters [s] = 0 →
          Does (.semRel i) d (ran ((d.setDrover i.n
            { d.drover i.n with sem := tset 0 (d.drover i.n).sem s 0 }).wr R.SEM_STATE_held [s] 0) i (self d i))) ∧
        (∀ m, m ≤ 100 → d.semWaits s m = true → (∀ k, k ≤ 100 → m < k → d.semWaits s k = false) →
          ∃ d', Does (.semRel i) d d' ∧ d'.semHeld s = true ∧ d'.semOwner s = m ∧ d'.semWaits s m = false)))

/-- R261, R222, R223, R236, R237, R262, R449. -/
def Sys2Proof.Claims.ThreadControl : Prop :=
  ∀ d i w, Fetches d i w →
    let on := d.flag R.DRV_EVT_EN_sw [i.n]
    let set := d.wr R.DRV_EVT_sw [i.n] 1
    (opKey w = some 0x3303 → Does (.fence i) d (ran d i (self d i))) ∧
    (opKey w = some 0x3304 → Does (.wdogKick i) d (ran d i { self d i with kick := d.now })) ∧
    (opKey w = some 0x3305 →
      (d.flag R.DRV_EVT_sw [i.n] = true → Does (.evtRaise i) d (ran d i (self d i))) ∧
      (d.flag R.DRV_EVT_sw [i.n] = false → Does (.evtRaise i) d
        (ran (if on then set.raise (152 + i.n) 128 else set) i (self d i)))) ∧
    (opKey w = some 0x3306 →
      (d.flag R.DRV_THR_FAULT_active [i.n, i.t] = true → Does (.tret i) d
        (ranTo (d.wr R.DRV_THR_FAULT_active [i.n, i.t] 0) i (self d i)
          ((sval d i (wRa w) &&& 0xFFFC#64)).toNat)) ∧
      (d.flag R.DRV_THR_FAULT_active [i.n, i.t] = false → faults (.tret i) d i 1)) ∧
    (opKey w = some 0x3307 → faults (.brk i) d i 10) ∧
    (opKey w = some 0x3308 → writesRd (.rdid i) d i w (BitVec.ofNat 64 (8 * i.n + i.t))) ∧
    (opKey w = some 0x3309 → ∃ v, Does (.rdcyc i) d (ran { d with free := d.free + 1 } i ((self d i).setS (wRd w) v))) ∧
    (opKey w = none → faults (.unassignedEncoding i) d i 1) ∧ (w = 0 → opKey w = none)

/-- R196, R198, R239, R224. -/
def Sys2Proof.Claims.LongOperations : Prop :=
  ∀ (d : Dev) (i : Issue) (w : Nat),
    let a := ea d i w
    let far := a < 0x4000000000 ∧ ¬(0x40000000 ≤ a ∧ a < 0x43000000 ∧ (a - 0x40000000) / 0x400000 = i.n / 8)
    let done := fun (e : Dev) (x : Thr) => ran e i x
    (Fetches d i w → far →
      (∀ r ∈ loadRows, opKey w = some r.key → a % r.len = 0 → Does (r.cmd i) d (blocked d i w)) ∧
      (∀ r ∈ storeRows, opKey w = some r.key → a % r.len = 0 → Does (r.cmd i) d (blocked d i w))) ∧
    (d.pwr.off = false → d.bst.slices = [] → d.droveRuns i.n = true → d.thrState i.n i.t = 2 → (self d i).wait = some w →
      0x40000000 ≤ a → a < 0x43000000 → d.island (64 + (a - 0x40000000) / 0x400000) = 0 →
      (∀ r ∈ loadRows, opKey w = some r.key → a % r.len = 0 → Does (.longOpComplete i.n i.t 0 [] {}) d
        (done d ((self d i).setS (wRd w) (loaded d a r.len r.signed).toNat))) ∧
      (∀ r ∈ storeRows, opKey w = some r.key → a % r.len = 0 → Does (.longOpComplete i.n i.t 0 [] {}) d
        (done (d.setBytes a (leBytes r.len (sval d i (wRd w)).toNat)) (self d i)))) ∧
    (d.thrState i.n i.t ≠ 2 → ∀ ecc errs f, Does (.longOpComplete i.n i.t ecc errs f) d d)

/-- SEM.ACQ, SEM.TRY and SEM.REL; FENCE, WDOG.KICK, EVT.RAISE, TRET, BRK, RDID, RDCYC and unassigned encodings; Loads
and stores that leave the drove block, and complete. -/
def Obligations.ThreadResults : Prop :=
  Sys2Proof.Claims.DroverSemaphores ∧ Sys2Proof.Claims.ThreadControl ∧ Sys2Proof.Claims.LongOperations

namespace Sys2Proof.Claims

/-- The unit is on: commands run (R464). -/
def On (d : Dev) : Prop := d.pwr.off = false

/-- Beads in a second, and beads after which the seconds wrap (R42, R53). -/
def second : Nat := 10 ^ 9 * 65536
def epoch : Nat := 2 ^ 48 * second

/-- An instant that a step names, brought into the range of R53. -/
def bounded (v : Int) : Nat := if v < 0 then 0 else v.toNat % epoch

/-- The value and the offsets of requests in which the last set value is `raw` (R588). -/
def offsets (l : List Int) : List StepReq := l.map .step

/-- A signed value held to a range. -/
def within (lo hi v : Int) : Int := max lo (min hi v)

/-- Time advanced to the marker without a step, in units of 2^-48 ns. -/
def nextMarker (d : Dev) : Nat := d.tim.now + 256 * (2 ^ 48 + d.tim.rate).toNat

/-- The servo's offset held to 48 signed bits. -/
def sampleField (ofs : Int) : Int := within (-(2 ^ 47)) (2 ^ 47 - 1) ofs

/-- What does not change at a servo sample: memory, the drovers, the output pins, the time itself. -/
def onlyServo (d d' : Dev) : Prop :=
  d'.mem = d.mem ∧ d'.drv = d.drv ∧ d'.out = d.out ∧ d'.tim.now = d.tim.now ∧ d'.tim.stepReqs = d.tim.stepReqs ∧
    d'.tim.replicas = d.tim.replicas ∧ d'.prt = d.prt ∧ d'.rte = d.rte ∧ d'.med = d.med

/-- Ideal time of edge `k` of a sync output, times `den × edges`, in beads (R74, R75). -/
def idealEdge (c : SyncSet) (k : Int) : Int :=
  let den := c.den * (if c.mode = 2 then 2 else 1)
  k * (c.num * second : Nat) + (c.phase - c.dly) * (den : Nat)

end Sys2Proof.Claims

/-- R45, R53, R55, R588, R587. -/
def Sys2Proof.Claims.TimeSteps : Prop :=
  ∀ d, On d →
    let beads : Nat := nextMarker d / 2 ^ 32
    let rate := d.rdS R.TIM_FREQ_ADJ_adj
    let kept := fun (d' : Dev) => d'.mem = d.mem ∧ d'.tim.rate = rate ∧ d'.tim.mono = d.tim.mono + 1 ∧ d'.tim.stepReqs = [] ∧
      d'.tim.servoStep = none ∧ d'.tim.replicas.length = d.tim.replicas.length
    (d.tim.stepReqs = [] → d.tim.servoStep = none → ∃ d', Does .markerEdge d d' ∧ kept d' ∧ d'.regs = d.regs ∧
      d'.tim.now = nextMarker d % (epoch * 2 ^ 32) ∧
      ∀ k (h : k < d.tim.replicas.length) (h' : k < d'.tim.replicas.length),
        let r := d.tim.replicas[k]
        let r' := d'.tim.replicas[k]
        let here := r.value + 256 * r.incr
        let target := (d'.tim.now : Int) + r.delay * 2 ^ 32
        r'.incr = 2 ^ 48 + rate ∧ r'.aligned = true ∧ r'.delay = r.delay ∧
        r'.value = if r.aligned then here + within (-(2 ^ 40)) (2 ^ 40) (target - here) else target) ∧
    (∀ (l : List Int) (servo : Option Int), d.tim.servoStep = servo →
      let after := fun (v : Int) => ∃ d', Does .markerEdge d d' ∧ kept d' ∧ d'.tim.now = bounded v * 2 ^ 32 ∧
        d'.rd R.TIM_STATUS_step_count = (d.rd R.TIM_STATUS_step_count + 1) % 2 ^ 24 ∧
        ∀ k (h : k < d.tim.replicas.length) (h' : k < d'.tim.replicas.length),
          (d'.tim.replicas[k]).value = (d'.tim.now : Int) + (d.tim.replicas[k]).delay * 2 ^ 32
      (d.tim.stepReqs = offsets l → (l ≠ [] ∨ servo ≠ none) → after ((beads : Int) + l.sum + servo.getD 0)) ∧
      (∀ a raw, d.tim.stepReqs = a ++ .set raw :: offsets l → after ((rawToBeads raw : Int) + l.sum + servo.getD 0)))

/-- R53, R588, R70, R434, R427. -/
def Sys2Proof.Claims.TimeSetting : Prop :=
  ∀ d, On d → ∀ (inp : Fin 101) (desc : Bool) (ofs : BitVec 64) (adj : BitVec 36),
    let queue := fun (r : StepReq) => { d with tim := { d.tim with stepReqs := d.tim.stepReqs ++ [r] } }
    let lock := d.flag R.SYS_RING_LOCK_lock && !desc
    let src := d.rd R.TIM_SERVO_CFG_src
    Does (.timSetGo inp) d ((queue (.set (d.rd R.TIM_SET_value))).emit (.access inp 0 0)) ∧
    Does (.timStep inp ofs) d ((queue (.step ofs.toInt)).emit (.access inp 0 0)) ∧
    (lock = true → Does (.timFreqAdjWrite inp desc adj) d ((d.emit (.access inp 4 0)).raise 3 (inp + 1024))) ∧
    (lock = false → (src = 1 ∨ src = 2) → Does (.timFreqAdjWrite inp desc adj) d (d.emit (.access inp 27 0))) ∧
    (lock = false → (src = 0 ∨ src = 3) → Does (.timFreqAdjWrite inp desc adj) d
      ((d.wr R.TIM_FREQ_ADJ_adj [] adj.toNat).emit (.access inp 0 0)))

/-- The marker edge: counting, steps, replicas; Writes of TIM_SET.go, TIM_STEP and TIM_FREQ_ADJ. -/
def Obligations.TimebaseSteps : Prop :=
  Sys2Proof.Claims.TimeSteps ∧ Sys2Proof.Claims.TimeSetting

/-- R65, R66, R67, R68, R69, R62, Table 02-2. -/
def Sys2Proof.Claims.ServoStates : Prop :=
  ∀ d, On d →
    let state := fun (e : Dev) => e.rd R.TIM_STATUS_servo
    let src := d.rd R.TIM_SERVO_CFG_src
    let lock : Int := d.rd R.TIM_SERVO_CFG_lock_ns * 65536
    let step : Int := d.rd R.TIM_SERVO_CFG_step_ns * 65536
    let lim : Int := ((min (d.rd R.TIM_SERVO_CFG_slew_ppm) 122 * 2 ^ 48 / 10 ^ 6 : Nat) : Int)
    (∀ (inp : Fin 101) (desc : Bool) (v : BitVec 2), (d.flag R.SYS_RING_LOCK_lock && !desc) = false →
      let selects := v = 1 ∨ v = 2
      ∃ d', Does (.servoSrcWrite inp desc v) d d' ∧ d'.rd R.TIM_SERVO_CFG_src = v.toNat ∧ onlyServo { d with out := d'.out } d' ∧
        d'.out = .access inp 0 0 :: d.out ∧
        ((src = 0 ∨ src = 3) → state d = 0 → selects → state d' = 1) ∧
        ((src = 0 ∨ src = 3) → state d = 0 → ¬ selects → state d' = 0) ∧
        (src = 1 ∨ src = 2 → ¬ selects → state d' = 0) ∧
        (src = 1 ∨ src = 2 → selects → v.toNat ≠ src → state d' = 1) ∧
        (src = 1 ∨ src = 2 → v.toNat = src → state d ≠ 0 → state d' = state d)) ∧
    (∀ ofs : Int, src = 1 →
      (state d = 0 → Does (.servoSample ofs) d d) ∧
      (state d = 1 ∨ state d = 2 → ∃ d', Does (.servoSample ofs) d d' ∧ onlyServo d d' ∧
        d'.rdS R.TIM_SERVO_STAT_offset = sampleField ofs ∧
        -lim ≤ d'.rdS R.TIM_FREQ_ADJ_adj ∧ d'.rdS R.TIM_FREQ_ADJ_adj ≤ lim ∧
        (state d = 2 → d'.tim.servoStep = d.tim.servoStep ∧
          (ofs.natAbs ≤ 8 * lock → state d' = 2 ∧ d'.tim.unlockRun = 0) ∧
          (8 * lock < ofs.natAbs → d.tim.unlockRun < 3 → state d' = 2 ∧ d'.tim.unlockRun = d.tim.unlockRun + 1) ∧
          (8 * lock < ofs.natAbs → 3 ≤ d.tim.unlockRun → state d' = 1)) ∧
        (state d = 1 →
          d'.tim.servoStep = (if step < ofs.natAbs then some (-ofs) else d.tim.servoStep) ∧
          (lock < ofs.natAbs → state d' = 1 ∧ d'.tim.lockRun = 0) ∧
          (ofs.natAbs ≤ lock → d.tim.lockRun < 15 → state d' = 1 ∧ d'.tim.lockRun = d.tim.lockRun + 1) ∧
          (ofs.natAbs ≤ lock → 15 ≤ d.tim.lockRun → state d' = 2 ∧ d'.tim.everLocked = true)))) ∧
    (let gone := fun (c : Instr) => (state d = 2 → ∃ d', Does c d d' ∧ state d' = 3 ∧ d'.tim.leftLocked = d.clock) ∧
        (state d = 1 → ∃ d', Does c d d' ∧ state d' = 0)
     (src = 2 → d.tim.lastPps + 2 * second ≤ d.clock → gone .ppsSourceLost) ∧
     (∀ (p : Fin 2) (st : Fin 10), src = 1 → d.rd R.TIM_PTP_STAT_state [p] = 9 →
       tget 0 d.tim.lastSync p + 10 * 2 * second ≤ d.clock → gone (.announceReceiptTimeout p st))) ∧
    (state d = 3 ∨ state d = 1 → d.tim.everLocked = true → d.tim.specDone = false →
      d.tim.leftLocked + d.rd R.TIM_HOLD_CFG_spec_s * second < d.clock →
      Does .holdoverSpec d (({ d with tim := { d.tim with specDone := true } }).raise 27 0))

/-- R59 to R64, Table 02-1. -/
def Sys2Proof.Claims.PtpMessages : Prop :=
  ∀ d, On d → ∀ p : Fin 2,
    let en := d.flag R.TIM_PTP_CFG_en [p] = true
    let st := d.rd R.TIM_PTP_STAT_state [p]
    let sends := fun (c : Instr) (l : List Out) => Does c d { d with out := l ++ d.out }
    (∀ (sp : Fin 4) (type : BitVec 4) (domain cls : BitVec 8) (len : Nat) (tlv : Option (BitVec 512)) (new : Fin 10) (chg : Bool),
      en → d.rd R.TIM_PTP_CFG_subport [p] = sp → d.rd R.TIM_CLK_CFG_role = 2 →
      let known := (type = 0 ∨ type = 1 ∨ type = 8 ∨ type = 9 ∨ type = 11 ∨ (type = 13 ∧ tlv ≠ none)) ∧
        domain.toNat = d.rd R.TIM_PTP_CFG_domain [p]
      (¬ known → Does (.ptpMessageRx p sp type domain len cls tlv new chg) d
        (d.wr R.TIM_PTP_STAT_ignored [p] (min (d.rd R.TIM_PTP_STAT_ignored [p] + 1)
          (2 ^ R.TIM_PTP_STAT_ignored.width - 1)))) ∧
      (known → tget 0 d.tim.ptpQ p + len ≤ 65536 → ∃ d', Does (.ptpMessageRx p sp type domain len cls tlv new chg) d d' ∧
        d'.rd R.TIM_PTP_STAT_state [p] = (if new = 0 then st else new) ∧ tget 0 d'.tim.ptpQ p = tget 0 d.tim.ptpQ p ∧
        (type = 0 → tget 0 d'.tim.lastSync p = d.clock) ∧
        (∀ v, tlv = some v → type = 13 → st = 9 → d'.rd R.TIM_SMPTE_TLV_tlv = v.toNat) ∧
        d'.mem = d.mem ∧ d'.out = d.out ∧ d'.tim.now = d.tim.now)) ∧
    (en → st = 6 →
      (∀ fine : Nat,
        let at_ := (((d.now / 2048 * 2048 + fine * 2048 : Nat) : Int) + d.rdS R.TIM_PDLY_TX_dly [p]).toNat
        let ts := (timeBits at_).toNat
        (d.flag R.TIM_PTP_CFG_one_step [p] = true → sends (.ptpSyncTx p fine) [.ptp p 0 [ts]]) ∧
        (d.flag R.TIM_PTP_CFG_one_step [p] = false → sends (.ptpSyncTx p fine) [.ptp p 8 [ts], .ptp p 0 []])) ∧
      sends (.smpteTlvTx p) [.ptp p 13 [d.rd R.TIM_SMPTE_TLV_tlv]] ∧
      (∀ cls, (d.rd R.TIM_STATUS_servo = 0 → cls = 248) → (d.rd R.TIM_STATUS_servo = 2 → d.rd R.TIM_SERVO_CFG_src = 2 → cls = 6) →
        (d.rd R.TIM_STATUS_servo = 0 ∨ (d.rd R.TIM_STATUS_servo = 2 ∧ d.rd R.TIM_SERVO_CFG_src = 2)) →
        sends (.announceTx p) [.ptp p 11 [cls, d.rd R.TIM_PTP_GM_utc_ofs, d.rd R.TIM_PTP_GM_leap59, d.rd R.TIM_PTP_GM_leap61,
          d.rd R.TIM_PTP_CFG_prio1 [p], d.rd R.TIM_PTP_CFG_prio2 [p], d.rd R.TIM_PTP_CFG_domain [p]]])) ∧
    (en → st = 9 → sends (.delayReqTx p) [.ptp p 1 [d.rd R.TIM_PTP_CFG_dreq_ucast [p], d.rd R.TIM_PTP_CFG_domain [p]]]) ∧
    (st ≠ 6 → sends (.announceTx p) [] ∧ sends (.smpteTlvTx p) [] ∧ ∀ fine, sends (.ptpSyncTx p fine) [])

/-- R71, R72, R74 to R78, R51. -/
def Sys2Proof.Claims.SyncPins : Prop :=
  ∀ d, On d →
    (∀ (n : Fin 4) (fine : Nat) (rise : Bool),
      let on := d.rd R.TIM_SIN_CFG_mode [n] ≠ 0 ∧ rise = !(d.flag R.TIM_SIN_CFG_fall [n])
      let stamp : Int := ((d.now / 2048 * 2048 + fine * 2048 : Nat) : Int) - d.rdS R.TIM_SIN_DLY_dly [n]
      let fifo := tget [] d.tim.sinFifo n
      (¬ on → Does (.syncInEdge n fine rise) d d) ∧
      (on → fifo.length < 4 → ∃ d', Does (.syncInEdge n fine rise) d d' ∧ d'.mem = d.mem ∧ d'.out = d.out ∧
        tget [] d'.tim.sinFifo n = fifo ++ [(timeBits stamp.toNat).toNat]) ∧
      (on → 4 ≤ fifo.length → ∃ d', Does (.syncInEdge n fine rise) d d' ∧ d'.mem = d.mem ∧ tget [] d'.tim.sinFifo n = fifo ∧
        d'.rd R.TIM_SIN_CFG_ovf [n] = min (d.rd R.TIM_SIN_CFG_ovf [n] + 1) (2 ^ R.TIM_SIN_CFG_ovf.width - 1)) ∧
      (n = 0 → on → d.rd R.TIM_SIN_CFG_mode [0] = 2 →
        let tod := d.rd R.TIM_SIN0_TOD_sec
        let ofs := stamp - (tod * second : Nat)
        let reject := d.rd R.TIM_STATUS_servo = 2 ∧ d.rd R.TIM_SERVO_CFG_src = 2 ∧ 100000 * 65536 < ofs.natAbs
        ∃ d', Does (.syncInEdge n fine rise) d d' ∧
          (reject → d'.tim.ppsSample = d.tim.ppsSample ∧ d'.rd R.TIM_SIN0_TOD_sec = tod) ∧
          (¬ reject → d'.tim.ppsSample = some ofs ∧ d'.rd R.TIM_SIN0_TOD_sec = (tod + 1) % 2 ^ 48)) ∧
      (∀ inp : Fin 101, ∃ d', Does (.sinTsRead inp n) d d' ∧ tget [] d'.tim.sinFifo n = fifo.tail ∧ d'.regs = d.regs ∧
        d'.out = .access inp 0 (match fifo with | [] => 0 | t :: _ => t + 2 ^ 96) :: d.out)) ∧
    (∀ n : Fin 8,
      let c := tget {} d.tim.sout n
      let den := c.den * (if c.mode = 2 then 2 else 1)
      (c.mode ≠ 1 → c.mode ≠ 2 → Does (.syncOutEdge n) d d) ∧
      (c.mode = 1 ∨ c.mode = 2 → c.num ≠ 0 → c.den ≠ 0 → ∃ (k : Int) (at_ : Nat),
        (∀ j, k ≤ j ↔ ((tget 0 d.tim.soutFrom n * den : Nat) : Int) ≤ idealEdge c j) ∧
        at_ % 2048 = 0 ∧ -(1024 * den : Nat) < (at_ * den : Nat) - idealEdge c k ∧
        (at_ * den : Nat) - idealEdge c k ≤ (1024 * den : Nat) ∧
        (d.now < at_ → Does (.syncOutEdge n) d d) ∧
        (at_ ≤ d.now → ∃ d', Does (.syncOutEdge n) d d' ∧ d'.regs = d.regs ∧ d'.mem = d.mem ∧
          d'.out = .syncEdge n at_ (if c.mode = 2 ∧ k % 2 = 1 then c.width / 2 else c.width) (c.inv == 1) :: d.out)) ∧
      (∀ inp : Fin 101, ∃ d', Does (.soutCommit inp n) d d' ∧ tget 0 d'.tim.soutCommit n = d.now / second + 2 ∧
        d'.tim.sout = d.tim.sout ∧ d'.regs = d.regs) ∧
      (∀ at_, tget 0 d.tim.soutCommit n = at_ + 1 →
        let new := d.soutShadow n
        let p := new.num * 10 ^ 9
        let half := if new.mode = 2 then 2 else 1
        let valid := new.den ≠ 0 ∧ (new.mode = 1 ∨ new.mode = 2 → 8 * half * new.den ≤ p ∧ 2 ≤ new.width ∧ half * new.width * new.den < p)
        (d.now < at_ * second → Does (.soutCommitApply n) d d) ∧
        (at_ * second ≤ d.now → ∃ d', Does (.soutCommitApply n) d d' ∧ tget 0 d'.tim.soutCommit n = 0 ∧
          (valid → tget {} d'.tim.sout n = new ∧ d'.regs = d.regs) ∧
          (¬ valid → d'.tim.sout = d.tim.sout ∧ d'.rd R.TIM_SOUT_CFG_bad [n] = 1))))

/-- PTP messages in and out; Sync inputs and outputs. -/
def Obligations.PtpAndSyncPins : Prop :=
  Sys2Proof.Claims.PtpMessages ∧ Sys2Proof.Claims.SyncPins

/-- R79, R80, R81, Table 02-4. -/
def Sys2Proof.Claims.CalibrationSteps : Prop :=
  ∀ d, On d →
    (d.tim.calStep = 0 → Does .pllLock d { d with tim := { d.tim with calStep := 2, replicas := d.tim.replicas.map fun r =>
      { r with value := d.tim.now, incr := 2 ^ 48 + d.tim.rate, aligned := true } } }) ∧
    (∀ (sums errs : List Int), sums.length = 112 → d.tim.replicas.length = 112 →
      let delays := fun (d' : Dev) (jump : Bool) => d'.tim.now = d.tim.now ∧ d'.tim.replicas.length = 112 ∧
        ∀ k (_ : k < 112) (h : k < d.tim.replicas.length) (h' : k < d'.tim.replicas.length) (hs : k < sums.length),
          d'.tim.replicas[k] = { d.tim.replicas[k] with
            delay := sums[k] / 32 + Config.treeAsymmetry k, aligned := (d.tim.replicas[k]).aligned && !jump }
      (d.tim.calStep = 2 → d.rd R.PWR_STAT_state = 0 → ∃ d', Does (.timeTreeCalDone sums errs) d d' ∧ delays d' true ∧
        d'.tim.calStep = 4 ∧ d'.rd R.SYS_READY_time = 1 ∧ d'.rd R.TIM_STATUS_cal_done = 1) ∧
      (d.tim.calStep = 4 → ∃ d', Does (.backgroundCal true sums errs) d d' ∧ delays d' false ∧ d'.tim.stepReqs = d.tim.stepReqs ∧
        d'.rd R.TIM_CAL_STAT_runs = (d.rd R.TIM_CAL_STAT_runs + 1) % 2 ^ R.TIM_CAL_STAT_runs.width)) ∧
    (∀ (p : Fin 2) (sp : Fin 4),
      ((d.rd R.PRT_STATUS_pcs_lock [p]).testBit sp = false → Does (.portTsCalDone p sp) d d) ∧
      ((d.rd R.PRT_STATUS_pcs_lock [p]).testBit sp = true → Does (.portTsCalDone p sp) d
        (d.wr R.TIM_PORT_STAT_ts_valid [p] (d.rd R.TIM_PORT_STAT_ts_valid [p] ||| 2 ^ (sp : Nat)))))

/-- The servo's states; Calibration of the time tree and the ports. -/
def Obligations.ServoAndCalibration : Prop :=
  Sys2Proof.Claims.ServoStates ∧ Sys2Proof.Claims.CalibrationSteps

namespace Sys2Proof.Claims

/-- A completion that leaves for the requester. -/
def said (d : Dev) (inp st v : Nat) : Dev := d.emit (.access inp st v)

/-- One bit of a field after a write of bits `m` with values `v`, by its access code (Table 00-6). -/
def bitAfter (f : Field) (old m v : Bool) : Bool :=
  match f.acc with
  | .rw | .rwl => if m then v else old
  | .w1c => old && !(m && v)
  | .w1s => old || (m && v)
  | .ro | .wo | .rwt => old

/-- Bit `b` of field `f` in a register that begins at bit address `pos`. -/
def fieldBit (f : Field) (pos x b : Nat) : Bool := b < f.width && x.testBit (f.pos - pos + b)

end Sys2Proof.Claims

/-- Table 00-6, R434, R589, R13. -/
def Sys2Proof.Claims.FieldAccessCodes : Prop :=
  ∀ (q : Req) (pos : Nat) (ix : List Nat) (m v st : Nat) (d : Dev) (f : Field), d.rd f ix < 2 ^ f.width →
    let lock := f.acc = .rwl ∧ d.locked q = true
    let r := writeField q pos ix m v (d, st) f
    (¬ lock → ∀ b, b < f.width → (r.1.rd f ix).testBit b =
      bitAfter f ((d.rd f ix).testBit b) (fieldBit f pos m b) (fieldBit f pos v b)) ∧
    (lock → (∃ b, fieldBit f pos m b = true) → r = (d, worst st 4)) ∧
    (f.acc = .rwt → (∃ b, fieldBit f pos m b = true) → r = (d, worst st 5)) ∧
    ((∀ b, fieldBit f pos m b = false) → r = (d, st)) ∧
    (∀ g jx, g.key jx ≠ f.key ix → r.1.rd g jx = d.rd g jx) ∧ r.1.mem = d.mem ∧ r.1.out = d.out

/-- R434, R419, R449, R303, R304, R23, R435, R40. -/
def Sys2Proof.Claims.RegisterAccess : Prop :=
  ∀ d, On d →
    (∀ (inp : Fin 101) (desc : Bool) (v : BitVec 64),
      let lock := d.flag R.SYS_RING_LOCK_lock = true ∧ desc = false
      Does (.registerWrite inp desc 0x2150 255 v) d (said (d.wr R.TIM_SIN0_TOD_sec [] v.toNat) inp 0 0) ∧
      (∀ n : Fin 8,
        (¬ lock → Does (.registerWrite inp desc (BitVec.ofNat 21 (0x2183 + 8 * n)) 255 v) d
          (said (d.wr R.TIM_SOUT_PHASE_ofs [n] v.toNat) inp 0 0)) ∧
        (lock → Does (.registerWrite inp desc (BitVec.ofNat 21 (0x2183 + 8 * n)) 255 v) d
          ((said d inp 4 0).raise 3 (inp + 1024)))) ∧
      (∀ n : Fin 96, d.island (64 + n / 8) = 0 → ∃ d',
        Does (.registerWrite inp desc (BitVec.ofNat 21 (0x40002 + 512 * n)) 15 v) d d' ∧ d'.out = .access inp 0 0 :: d.out ∧
        d'.mem = d.mem ∧ ∀ b (hb : b < 8), let f := drvEvtFields.getD b R.DRV_EVT_sw
          d.rd f [n] < 2 → d'.rd f [n] = if v.getLsbD b then 0 else d.rd f [n]) ∧
      (∀ n : Fin 96, d.island (64 + n / 8) ≠ 0 → Does (.registerWrite inp desc (BitVec.ofNat 21 (0x40002 + 512 * n)) 15 v) d
        (said d inp 2 0)) ∧
      (∀ a : BitVec 21, pageOf (8 * a.toNat) = none → Does (.registerWrite inp desc a 0 v) d (said d inp 0 0)) ∧
      (∀ (a : BitVec 21) (be : BitVec 8), be ≠ 0 → pageOf (8 * a.toNat) = none → hitsOf (8 * a.toNat) = [] →
        Does (.registerWrite inp desc a be v) d ((said d inp 1 0).raise 3 (inp + 256))) ∧
      (∀ (a : BitVec 21) (be : BitVec 8), be ≠ 0 → a.toNat / 8192 = 0x11 → ∀ h ∈ hitsOf (8 * a.toNat),
        h.bitsIn (8 * a.toNat) (byteMask be.toNat) ≠ 0 →
        Does (.registerWrite inp desc a be v) d (said d inp 5 0)) ∧
      (∀ n : Fin 96, ∀ be : BitVec 8, be.getLsbD 0 = true → d.island (64 + n / 8) = 0 → v.toNat < 256 →
        (∀ b, b < 8 → d.flag (drvEnFields.getD b R.DRV_EVT_EN_sw) [n] = false) → ∃ d' e,
        Does (.causeEnableWrite inp desc ⟨152 + n, by omega⟩ be v) d d' ∧
        (∀ b, b < 8 → d'.rd (drvEnFields.getD b R.DRV_EVT_EN_sw) [n] = (v.toNat / 2 ^ b) % 2) ∧ d'.mem = d.mem ∧
        d' = said e inp 0 0 ∧
        let fire := (List.range 8).filter fun b => v.getLsbD b && d.flag (drvEvtFields.getD b R.DRV_EVT_sw) [n]
        (fire = [] → e.evt = d.evt) ∧
        (fire ≠ [] → ∃ e' : Dev, e = e'.raise (152 + n) (fire.map (2 ^ ·)).sum ∧ e'.evt = d.evt ∧ e'.mem = d.mem))) ∧
    (∀ inp : Fin 101,
      (d.flag R.SYS_RING_LOCK_lock = true → Does (.ringLock inp) d (said d inp 0 0)) ∧
      (d.flag R.SYS_RING_LOCK_lock = false → Does (.ringLock inp) d
        (said (((d.wr R.SYS_RING_LOCK_lock [] 1).wr R.SYS_RING_LOCK_by [] inp).raise 292 inp) inp 0 0))) ∧
    (∀ i : Fin 64, d.fabRuns i = true → d.rd R.FAB_ISL_STAT_sect_rcfg [i] = 0 → ∃ d',
      Does (.fabMgmtRequest i false 0x2150 255 0) d d' ∧
      d'.out = .mgmt i 0 (d.rd R.TIM_SIN0_TOD_sec % 2 ^ 64) :: d.out ∧ d'.rd R.FAB_MGMT_STAT_last = i ∧ d'.mem = d.mem) ∧
    (∀ i : Fin 112,
      (d.island i = 0 → Does (.stileTimeout i) d d) ∧
      (d.island i ≠ 0 → ∃ d', Does (.stileTimeout i) d d' ∧ (i : Nat) ∈ d'.tmo ∧ d'.rd R.SYS_STILE_TMO_LOG_island = i ∧
        d'.rd R.SYS_STILE_TMO_LOG_valid = 1 ∧ d'.mem = d.mem ∧ d'.out = d.out ∧
        d'.rd R.SYS_STILE_TMO_LOG_count = min (d.rd R.SYS_STILE_TMO_LOG_count + 1) (2 ^ 16 - 1)))

/-- Writing a field by its access code; Register writes of every kind, ring lock, stile time-outs. -/
def Obligations.RegisterRules : Prop :=
  Sys2Proof.Claims.FieldAccessCodes ∧ Sys2Proof.Claims.RegisterAccess

namespace Sys2Proof.Claims

/-- Sub-ports of a mode (Table 03-1). -/
def lanes (mode : Nat) : Nat := if mode < 2 then 1 else if mode < 4 then 2 else 4
/-- Gbit/s of a sub-port. -/
def gbps (mode : Nat) : Nat := if mode < 2 then 400 else if mode < 4 then 200 else 100

def stepOf (d : Dev) (q sp : Nat) : Nat := tget 0 d.prt.step (4 * q + sp)
def hasBit (d : Dev) (f : Field) (ix : List Nat) (b : Nat) : Bool := (d.rd f ix).testBit b

/-- The PFC frames that leave for priority `p` of port `q`, newest first: one on each sub-port that
is up and receives no fault (R103, R90). -/
def pfcOut (d : Dev) (q p quanta : Nat) : List Out :=
  (((List.range 4).filter fun s => hasBit d R.PRT_STATUS_link [q] s && !hasBit d R.PRT_STATUS_lfault [q] s &&
    !hasBit d R.PRT_STATUS_rfault [q] s).map fun s => Out.pfc q s p quanta).reverse

/-- A frame that no special receiver takes: not IP, not ARP, tagged at most once with a priority below 7. -/
def mediaFrame (d : Dev) (q : Nat) (b : List Byte) : Prop :=
  let p := parse b
  p.udp = false ∧ p.ip = 0 ∧ p.etherType ≠ 0x0806 ∧ p.tpid ≠ 0x88A8 ∧ p.tpid ≠ 0x9100 ∧ d.priOf q p < 7

/-- A destination the MAC passes (R94). -/
def macPasses (d : Dev) (q sp : Nat) (b : List Byte) : Prop :=
  let dst := ofLe (b.take 6)
  dst % 2 = 1 ∨ dst = d.rd R.PRT_MAC_ADDR_addr [q, sp] ∨ d.flag R.PRT_CFG_promisc [q] = true

/-- A frame of `n` bytes takes this many 256-byte cells with its 16 bytes of descriptor (R100). -/
def cellsFor (n : Nat) : Nat := (n + 16 + 255) / 256

/-- `k` cells for priority `p` < 7 are there, with every kept minimum (R100, R101). -/
def roomFor (d : Dev) (q p k : Nat) : Prop :=
  d.rd R.PRT_BUF_OCC_cells [q, p] + k ≤ d.rd R.PRT_BUF_LIM_max [q, p] ∧ d.rd R.PRT_BUF_LIM_max [q, p] < 2 ^ 17 ∧
    d.poolKept q + k ≤ d.poolFree q

end Sys2Proof.Claims

/-- R83, R85, R86, R89 to R92, R81, R101, R24, Table 03-2. -/
def Obligations.PortBringUp : Prop :=
  ∀ d, On d → ∀ q : Fin 2,
    (∀ (inp : Fin 101) (desc : Bool) (v : BitVec 32),
      let go := Instr.prtCfgWrite inp desc q v
      let lock := d.flag R.SYS_RING_LOCK_lock = true ∧ desc = false
      let mode := v.toNat % 8
      let en := v.toNat / 8 % 16
      let maps := laneMapOk (d.rd R.PRT_LANE_MAP_tx_map [q]) = true ∧ laneMapOk (d.rd R.PRT_LANE_MAP_rx_map [q]) = true
      (d.island (76 + q) ≠ 0 → Does go d (said d inp 2 0)) ∧
      (d.island (76 + q) = 0 → lock → Does go d ((said d inp 4 0).raise 3 (inp + 1024))) ∧
      (d.island (76 + q) = 0 → ¬ lock →
        (d.rd R.PRT_CFG_en [q] = 0 → mode < 6 → maps → ∃ d', Does go d d' ∧ d'.out = .access inp 0 0 :: d.out ∧
          d'.rd R.PRT_CFG_mode [q] = mode ∧ d'.rd R.PRT_CFG_en [q] = en % 2 ^ lanes mode ∧
          d'.rd R.PRT_CFG_max_len [q] = v.toNat / 2 ^ 7 % 2 ^ 14 ∧ d'.rd R.PRT_CFG_untag_pri [q] = v.toNat / 2 ^ 21 % 8 ∧
          d'.rd R.PRT_CFG_promisc [q] = v.toNat / 2 ^ 24 % 2 ∧ d'.mem = d.mem ∧
          ∀ s, s < lanes mode → en.testBit s = true →
            stepOf d' q s = if d.rd R.SYS_READY_serdes = 0 then 0 else 2) ∧
        ((d.rd R.PRT_CFG_en [q] ≠ 0 ∨ 6 ≤ mode) → ∃ d', Does go d d' ∧ d'.out = .access inp 27 0 :: d.out ∧
          d'.rd R.PRT_CFG_mode [q] = d.rd R.PRT_CFG_mode [q]) ∧
        (d.rd R.PRT_CFG_en [q] = 0 → mode < 6 → ¬ maps → en % 2 ^ lanes mode ≠ 0 → ∃ d', Does go d d' ∧
          d'.out = .access inp 27 0 :: d.out ∧ d'.rd R.PRT_CFG_en [q] = 0 ∧ d'.rd R.PRT_STATUS_map_err [q] = 1))) ∧
    (d.rd R.PWR_STAT_state = 0 → ∃ d', Does .serdesCalDone d d' ∧ d'.rd R.SYS_READY_serdes = 1 ∧ d'.mem = d.mem ∧
      ∀ s, s < 4 → stepOf d' q s = if hasBit d R.PRT_CFG_en [q] s = true ∧ stepOf d q s = 0 then 2 else stepOf d q s) ∧
    (∀ sp : Fin 4,
      (stepOf d q sp ≠ 2 → Does (.cdrLock q sp) d d) ∧ (stepOf d q sp ≠ 3 → Does (.fecLock q sp) d d) ∧
      (stepOf d q sp ≠ 4 → Does (.pcsLock q sp) d d) ∧ (∀ busy, stepOf d q sp ≠ 5 → Does (.pcsLockLoss q sp busy) d d) ∧
      (stepOf d q sp = 2 → ∃ d', Does (.cdrLock q sp) d d' ∧ stepOf d' q sp = 3 ∧ d'.regs = d.regs ∧ d'.evt = d.evt) ∧
      (stepOf d q sp = 3 → ∃ d', Does (.fecLock q sp) d d' ∧ stepOf d' q sp = 4 ∧
        hasBit d' R.PRT_STATUS_fec_lock [q] sp = true ∧ d'.evt = d.evt) ∧
      (stepOf d q sp = 4 → ∃ d', Does (.pcsLock q sp) d d' ∧ stepOf d' q sp = 5 ∧
        hasBit d' R.PRT_STATUS_pcs_lock [q] sp = true ∧ hasBit d' R.PRT_STATUS_link [q] sp = true) ∧
      (∀ busy, stepOf d q sp = 5 → ∃ d', Does (.pcsLockLoss q sp busy) d d' ∧ stepOf d' q sp = 3 ∧
        hasBit d' R.PRT_STATUS_link [q] sp = false ∧ hasBit d' R.PRT_STATUS_pcs_lock [q] sp = false ∧
        hasBit d' R.TIM_PORT_STAT_ts_valid [q] sp = false ∧
        (busy = true → d'.rd R.PRT_CNT_count [q, sp, 8] = (d.rd R.PRT_CNT_count [q, sp, 8] + 1) % 2 ^ 64)) ∧
      (∀ l r, ∃ d', Does (.faultChange q sp l r) d d' ∧ hasBit d' R.PRT_STATUS_lfault [q] sp = l ∧
        hasBit d' R.PRT_STATUS_rfault [q] sp = r ∧ d'.mem = d.mem) ∧
      Does (.fecCodeword q sp (some 0)) d d ∧
      (∀ n, Does (.fecCodeword q sp (some (n + 1))) d ((d.prtCount q sp 10).prtCount q sp 13 (n + 1))) ∧
      Does (.fecCodeword q sp none) d ((d.prtCount q sp 11).raise (44 + 32 * q) sp)) ∧
    (∀ (inp : Fin 101) (desc : Bool) (p : Fin 8) (v : BitVec 64), d.island (76 + q) = 0 → d.locked ⟨inp, desc⟩ = false →
      let lo := v.toNat % 2 ^ 17
      let hi := v.toNat / 2 ^ 32 % 2 ^ 17
      let sum := ((List.range 7).map fun k => if k = (p : Nat) then lo else d.rd R.PRT_BUF_LIM_min [q, k]).sum
      (p < 7 → 98304 < sum → Does (.prtBufLimWrite inp desc q p v) d
        (said ((d.wr R.PRT_STATUS_buf_cfg_err [q] 1).raise (49 + 32 * q) 0) inp 27 0)) ∧
      (p = 7 ∨ sum ≤ 98304 → Does (.prtBufLimWrite inp desc q p v) d
        (said ((d.wr R.PRT_BUF_LIM_min [q, p] lo).wr R.PRT_BUF_LIM_max [q, p] hi) inp 0 0)))

/-- R93 to R96, R100 to R102, R56, R57, Table 03-6. -/
def Obligations.FrameReception : Prop :=
  ∀ d, On d → ∀ (q : Fin 2) (sp : Fin 4) (f : Frame) (fine : Nat),
    let n := f.bytes.length
    let up := hasBit d R.PRT_STATUS_link [q] sp = true
    let cleared := d.endProg q sp
    let most := min 9600 (max 1518 (d.rd R.PRT_CFG_max_len [q]))
    let counts := fun k => Does (.frameRx q sp f fine) d (cleared.prtCount q sp k)
    (¬ up → Does (.frameRx q sp f fine) d d) ∧
    (up → n < 64 → counts 3) ∧ (up → 64 ≤ n → most < n → counts 4) ∧
    (up → 64 ≤ n → n ≤ most → f.uncorr = false → f.fcsBad = true → counts 2) ∧
    (up → 64 ≤ n → n ≤ most → f.uncorr = false → f.fcsBad = false → ¬ macPasses d q sp f.bytes → counts 5) ∧
    (up → 64 ≤ n → n ≤ most → f.uncorr = false → f.fcsBad = false → macPasses d q sp f.bytes →
      ((parse f.bytes).tpid = 0x88A8 → counts 6) ∧
      (mediaFrame d q f.bytes → tget {} d.prt.prog (4 * q + sp) = {} → hasBit d R.PRT_HALT_STATE_ingr_drop [q] sp = false →
        d.rd R.PWR_STAT_state = 0 → d.flag R.PWR_STAT_entering = false →
        let p := d.priOf q (parse f.bytes)
        let k := cellsFor n
        let ts := (timeBits (((d.now / 2048 * 2048 + fine * 2048 : Nat) : Int) - d.rdS R.TIM_PDLY_RX_dly [q]).toNat).toNat
        roomFor d q p k → ∃ d', Does (.frameRx q sp f fine) d d' ∧
          tget [] d'.prt.ingress q = tget [] d.prt.ingress q ++
            [⟨f.bytes, q, sp, ts, hasBit d R.TIM_PORT_STAT_ts_valid [q] sp, p, k⟩] ∧
          d'.rd R.PRT_BUF_OCC_cells [q, p] = d.rd R.PRT_BUF_OCC_cells [q, p] + k ∧
          d'.rd R.PRT_CNT_count [q, sp, 0] = (d.rd R.PRT_CNT_count [q, sp, 0] + 1) % 2 ^ 64 ∧
          d'.rd R.PRT_CNT_count [q, sp, 1] = (d.rd R.PRT_CNT_count [q, sp, 1] + n) % 2 ^ 64 ∧ d'.mem = d.mem ∧ d'.evt = d.evt)) ∧
    (∀ p : Fin 7,
      let i := tget {} d.prt.prog (4 * q + sp)
      let occ := d.rd R.PRT_BUF_OCC_cells [q, p]
      (i.dropped = true → Does (.ingressCellAlloc q sp p) d d) ∧
      (i.dropped = false → roomFor d q p 1 → ∃ d', Does (.ingressCellAlloc q sp p) d d' ∧
        d'.rd R.PRT_BUF_OCC_cells [q, p] = occ + 1 ∧ tget {} d'.prt.prog (4 * q + sp) = { cells := i.cells + 1, pri := p }) ∧
      (i.dropped = false → d.rd R.PRT_BUF_LIM_max [q, p] ≤ occ → ∃ d', Does (.ingressCellAlloc q sp p) d d' ∧
        tget {} d'.prt.prog (4 * q + sp) = { pri := p, dropped := true } ∧
        d'.rd R.PRT_DROP_PRI_count [q, p] = (d.rd R.PRT_DROP_PRI_count [q, p] + 1) % 2 ^ 64 ∧
        (occ < 2 ^ 17 → i.pri = p → d'.rd R.PRT_BUF_OCC_cells [q, p] = occ - i.cells)))

/-- R103, R104, R97, R591. -/
def Sys2Proof.Claims.FlowControlAndEgressEntry : Prop :=
  ∀ d, On d → ∀ q : Fin 2,
    (∀ (sp : Fin 4) (en : BitVec 8) (times : List Nat),
      let paused := fun (e : Dev) (p : Nat) => tget 0 e.prt.paused (8 * (4 * q + sp) + p)
      let rate := gbps (d.rd R.PRT_CFG_mode [q])
      (hasBit d R.PRT_STATUS_link [q] sp = false → Does (.pfcFrameRx q sp en times) d d) ∧
      (hasBit d R.PRT_STATUS_link [q] sp = true → ∃ d', Does (.pfcFrameRx q sp en times) d d' ∧ d'.out = d.out ∧ d'.mem = d.mem ∧
        ∀ p, p < 8 → let t := times.getD p 0 % 65536
          paused d' p = if en.getLsbD p = true ∧ hasBit d R.PRT_PFC_CFG_rx_en [q] p = true
            then (if t = 0 then 0 else d.clock + (512 * t * 65536 + rate - 1) / rate) else paused d p) ∧
      (∀ p : Fin 8, (d.clock < paused d p → Does (.pfcPauseExpire q sp p) d d) ∧
        (paused d p ≤ d.clock → ∃ d', Does (.pfcPauseExpire q sp p) d d' ∧ paused d' p = 0 ∧ d'.regs = d.regs ∧
          (∀ j, j < 8 → j ≠ p → paused d' j = paused d j)))) ∧
    (∀ p : Fin 8,
      let due := tget false d.prt.xoff (8 * q + p) = true ∧ d.rd R.PRT_BUF_PFC_xon [q, p] ≤ d.rd R.PRT_BUF_OCC_cells [q, p]
      (¬ due → Does (.pfcRefresh q p) d d) ∧
      (due → ∃ d', Does (.pfcRefresh q p) d d' ∧ d'.out = pfcOut d q p (d.rd R.PRT_PFC_CFG_quanta [q]) ++ d.out ∧
        d'.prt = d.prt ∧ d'.mem = d.mem)) ∧
    (∀ f : EgFrame,
      let down := hasBit d R.PRT_STATUS_link [q] f.sp = false ∨ hasBit d R.PRT_STATUS_lfault [q] f.sp = true ∨
        hasBit d R.PRT_STATUS_rfault [q] f.sp = true
      let bytes := tget 0 d.prt.egBytes q
      let waits := tget [] d.prt.egWait q
      let put := fun (e : Dev) (x : EgFrame) => tget [] e.prt.egq q = tget [] d.prt.egq q ++ [x] ∧ tget 0 e.prt.egBytes q = bytes + x.len ∧
        e.regs = d.regs ∧ e.mem = d.mem
      (down → Does (.egressQueueEnter q f) d (d.prtCount q f.sp 16)) ∧
      (¬ down → bytes + f.len ≤ 2 ^ 21 → (∀ x ∈ waits, x.src ≠ f.src) → ∃ d', Does (.egressQueueEnter q f) d d' ∧ put d' f ∧
        tget [] d'.prt.egWait q = waits) ∧
      (¬ down → (2 ^ 21 < bytes + f.len ∨ ∃ x ∈ waits, x.src = f.src) → ∃ d', Does (.egressQueueEnter q f) d d' ∧
        tget [] d'.prt.egWait q = waits ++ [f] ∧ tget [] d'.prt.egq q = tget [] d.prt.egq q ∧ d'.regs = d.regs) ∧
      (∀ a b, waits = a ++ f :: b → (∀ x ∈ a, 2 ^ 21 - bytes < x.len) → f.len ≤ 2 ^ 21 - bytes → ∃ d',
        Does (.egressQueueWaitAdmit q) d d' ∧ put d' f ∧ tget [] d'.prt.egWait q = a ++ b)) ∧
    ((∀ x ∈ tget [] d.prt.egWait q, 2 ^ 21 - tget 0 d.prt.egBytes q < x.len) → Does (.egressQueueWaitAdmit q) d d)

namespace Sys2Proof.Claims

/-- A halter command: its action and the bits its target may have (Table 03-5). -/
structure HaltRow where
  cmd : Fin 2 → Nat → Instr
  action : Nat
  width : Nat

def haltRows : List HaltRow := [⟨.egressStop, 1, 8⟩, ⟨.egressRelease, 2, 8⟩, ⟨.ingressDrop, 3, 8⟩, ⟨.ingressRelease, 4, 8⟩,
  ⟨.streamStop, 5, 15⟩, ⟨.streamRelease, 6, 15⟩, ⟨.droverHalt, 7, 96⟩, ⟨.halterSalvoCancel, 8, 4⟩]

def haltAct (h : Halter) : Nat := h.record / 2 ^ 16 % 2 ^ 8
def haltTarget (h : Halter) : Nat := h.record / 2 ^ 64 % 2 ^ 96

/-- What an action does to its targets, at the time `at_` in beads. -/
def halted (q a target at_ : Nat) (d d' : Dev) : Prop :=
  let stop := fun (f : Field) (b : Nat) => hasBit d f [b / 4] (b % 4)
  let stop' := fun (f : Field) (b : Nat) => hasBit d' f [b / 4] (b % 4)
  let egr := R.PRT_HALT_STATE_egr_stop
  let ingr := R.PRT_HALT_STATE_ingr_drop
  (a = 1 → ∀ b, b < 8 → stop' egr b = (stop egr b || target.testBit b)) ∧
  (a = 2 → ∀ b, b < 8 → stop' egr b = (stop egr b && !target.testBit b)) ∧
  (a = 3 → ∀ b, b < 8 → stop' ingr b = (stop ingr b || target.testBit b)) ∧
  (a = 4 → ∀ b, b < 8 → stop' ingr b = (stop ingr b && !target.testBit b)) ∧
  (a = 5 → d'.txHalted (target / 2 ^ 14 % 2) (target % 2 ^ 14) = true) ∧
  (a = 6 → d'.txHalted (target / 2 ^ 14 % 2) (target % 2 ^ 14) = false) ∧
  (a = 7 → ∀ n, n < 96 → target.testBit n = true → d.droveRuns n = true →
    d'.halted n = true ∧ hasBit d' R.DRV_STATUS_halt_cause [n] 0 = true) ∧
  (a = 8 → ∀ s, s < 4 → target.testBit s = true →
    let st := d.rd R.RTE_SALVO_STAT_state [s]
    (st = 1 ∨ (st = 2 ∧ at_ < d.teff s) → d'.rd R.RTE_SALVO_STAT_state [s] = 4) ∧
    (st = 3 → d'.rd R.RTE_SALVO_STAT_state [s] = 3 ∧ d'.rd R.PRT_HALT_LOG_result [q] = 1))

end Sys2Proof.Claims

/-- R109 to R114, Table 03-5. -/
def Sys2Proof.Claims.HalterActions : Prop :=
  ∀ d, On d → ∀ (q : Fin 2) (fine : Nat),
    (∀ r ∈ haltRows, (tget [] d.prt.halters q).head?.map haltAct ≠ some r.action → Does (r.cmd q fine) d d) ∧
    (∀ h rest, tget [] d.prt.halters q = h :: rest → h.ctrl < 2 → ∀ r ∈ haltRows, haltAct h = r.action → ∃ d',
      let ok := haltTarget h < 2 ^ r.width
      Does (r.cmd q fine) d d' ∧ tget [] d'.prt.halters q = rest ∧ d'.out = .halterAck q h.sp h.mac h.psn 0 :: d.out ∧
      d'.mem = d.mem ∧ d'.rd R.PRT_HALT_LOG_seq [q] = h.record / 2 ^ 32 % 2 ^ 32 ∧
      d'.rd R.PRT_HALT_LOG_action [q] = r.action ∧ d'.rd R.PRT_HALT_LOG_ctrl [q] = h.ctrl ∧
      (ok → halted q r.action (haltTarget h) (d.now / 2048 * 2048 + fine * 2048) d d' ∧
        (r.action ≠ 8 → d'.rd R.PRT_HALT_LOG_result [q] = 0) ∧ d'.rd R.PRT_HALT_CNT_accepted [q] =
          (d.rd R.PRT_HALT_CNT_accepted [q] + 1) % 2 ^ R.PRT_HALT_CNT_accepted.width) ∧
      (¬ ok → d'.rd R.PRT_HALT_LOG_result [q] = 3 ∧ d'.med = d.med ∧ d'.drv = d.drv ∧ d'.rte = d.rte ∧
        (∀ p, p < 2 → d'.rd R.PRT_HALT_STATE_egr_stop [p] = d.rd R.PRT_HALT_STATE_egr_stop [p] ∧
          d'.rd R.PRT_HALT_STATE_ingr_drop [p] = d.rd R.PRT_HALT_STATE_ingr_drop [p]) ∧
        d'.rd R.PRT_HALT_CNT_rejected [q] =
          (d.rd R.PRT_HALT_CNT_rejected [q] + 1) % 2 ^ R.PRT_HALT_CNT_rejected.width)) ∧
    (∀ (inp : Fin 101) (v : BitVec 8),
      (d.island (76 + q) ≠ 0 → Does (.haltStateClear inp q v) d (said d inp 2 0)) ∧
      (d.island (76 + q) = 0 → ∃ d', Does (.haltStateClear inp q v) d d' ∧ d'.out = .access inp 0 0 :: d.out ∧ d'.mem = d.mem ∧
        ∀ b, b < 4 →
          hasBit d' R.PRT_HALT_STATE_egr_stop [q] b = (hasBit d R.PRT_HALT_STATE_egr_stop [q] b && !v.getLsbD b) ∧
          hasBit d' R.PRT_HALT_STATE_ingr_drop [q] b = (hasBit d R.PRT_HALT_STATE_ingr_drop [q] b && !v.getLsbD (4 + b))))

/-- PFC and the entry to the egress queue; Executed halters. -/
def Obligations.FlowControlAndHalters : Prop :=
  Sys2Proof.Claims.FlowControlAndEgressEntry ∧ Sys2Proof.Claims.HalterActions

namespace Sys2Proof.Claims

/-- The rods that may hold a key. -/
def rodOf (d : Dev) (key i : Nat) : Prop := i / 8 = d.rodA key ∨ i / 8 = d.rodB key

/-- A slot matches a key: its digest is used with the key's fingerprint, and the entry is a stream entry with the key. -/
def holdsKey (d : Dev) (key i : Nat) : Prop :=
  d.digest (i / 8) (i % 8) = 32768 + fingerprint key ∧ eKey (d.entry i) = key ∧ isStream (d.entry i) = true

/-- Frames of key `key` in a miss queue. -/
def waitsFor (d : Dev) (q key : Nat) : List (IngFrame × Nat) := (tget [] d.rte.missQ q).filter fun x => x.2 == key

/-- Selection of a frame without the engine's control bits [347:320] (Table 04-4). -/
def plainSel (x : Sel) : Option (Option Nat) :=
  match x with
  | .image img => some (some (img % 2 ^ 320 + img / 2 ^ 348 * 2 ^ 348))
  | .free => some none
  | .ecc => none

end Sys2Proof.Claims

/-- R121 to R124, R138. -/
def Sys2Proof.Claims.TableLookups : Prop :=
  ∀ (d : Dev) (key : Nat),
    (∀ i n, d.tableLookup key = .entry i n → rodOf d key i ∧ holdsKey d key i ∧
      (∀ k, k < 8 → d.rodA key ≠ i / 8 ∨ k < i % 8 → ¬ holdsKey d key (8 * d.rodA key + k) ∨ i = 8 * d.rodA key + k)) ∧
    (∀ n, d.tableLookup key = .none n → ∀ i, rodOf d key i → ¬ holdsKey d key i) ∧
    (∀ r, d.tableLookup key = .ecc r → (r = d.rodA key ∨ r = d.rodB key) ∧
      (d.lineBad (digestAddr r 0) = true ∨ ∃ k, k < 8 ∧ d.lineBad (entryAddr (8 * r + k)) = true)) ∧
    (∀ i, d.insertSlot key = some i → rodOf d key i ∧ eType (d.entry i) = 0 ∧
      d.usedSlots (i / 8) ≤ d.usedSlots (d.rodA key) ∧ d.usedSlots (i / 8) ≤ d.usedSlots (d.rodB key)) ∧
    (d.insertSlot key = none → ∀ k, k < 8 →
      eType (d.entry (8 * (if d.usedSlots (d.rodB key) < d.usedSlots (d.rodA key) then d.rodB key else d.rodA key) + k)) ≠ 0)

/-- R117, R118, R120, R134, R135, R139, R593. -/
def Obligations.FramesThroughTheRouteEngine : Prop :=
  ∀ d, On d →
    (∀ q : Fin 2, tget [] d.prt.ingress q = [] → Does (.frameRoute q) d d) ∧
    (∀ (q : Fin 2) f rest, tget [] d.prt.ingress q = f :: rest → f.port = q → f.pri < 8 →
      let p := parse f.bytes
      let off := d.rd R.RTE_CFG_en = 0
      let class_ := if d.rd R.RTE_CFG_en = 0 then 4 else if p.ip = 0 then 2 else 1
      let popped := fun (d' : Dev) => tget [] d'.prt.ingress q = rest ∧ d'.mem = d.mem
      ((off ∨ p.ip = 0 ∨ d.keyOf f.port f.sp p = none) →
        (d.rd R.RTE_DEFAULT_kind [class_] = 1 → d.rd R.RTE_DEFAULT_id [class_] < 96 → ∃ d', Does (.frameRoute q) d d' ∧ popped d' ∧
          tget [] d'.med.drvIn (d.rd R.RTE_DEFAULT_id [class_]) = tget [] d.med.drvIn (d.rd R.RTE_DEFAULT_id [class_]) ++
            [{ frame := { f with bytes := f.bytes.take (f.bytes.length - 4) } }]) ∧
        (d.rd R.RTE_DEFAULT_kind [class_] = 0 → ∃ d', Does (.frameRoute q) d d' ∧ popped d' ∧ d'.med = d.med)) ∧
      (∀ key, ¬ off → p.ip ≠ 0 → d.keyOf f.port f.sp p = some key → d.cachedEntry key = none → d.cachedNeg key = false →
        let occ := d.rd R.RTE_MISS_OCC_frames [q]
        let limit := min 65536 (d.rd R.RTE_MISS_LIM_level [f.pri])
        (occ < limit → ∃ d', Does (.frameRoute q) d d' ∧ popped d' ∧ key ∈ d'.rte.inflight ∧
          tget [] d'.rte.missQ q = tget [] d.rte.missQ q ++ [(f, key)] ∧
          d'.rd R.RTE_CNT_count [0] = (d.rd R.RTE_CNT_count [0] + 1) % 2 ^ 64) ∧
        (limit ≤ occ → ∃ d', Does (.frameRoute q) d d' ∧ popped d' ∧ d'.rte = d.rte ∧
          d'.rd R.RTE_MISS_DROP_count [q, f.pri] = (d.rd R.RTE_MISS_DROP_count [q, f.pri] + 1) % 2 ^ 64))) ∧
    (∀ n key, d.rte.inflight[n]? = some key → ∃ d', Does (.missLookupDone n) d d' ∧ key ∉ d'.rte.inflight ∧
      ∀ q, q < 2 → waitsFor d' q key = [] ∧ ∀ other, other ≠ key → waitsFor d' q other = waitsFor d q other) ∧
    (∀ n, d.rte.inflight[n]? = none → Does (.missLookupDone n) d d) ∧
    (∀ (inp : Fin 101) (desc : Bool) (v : BitVec 32), d.island 78 = 0 → d.locked ⟨inp, desc⟩ = false →
      let hash := v.toNat / 2 % 32
      (d.rd R.RTE_CFG_en = 0 → v.getLsbD 0 = false ∨ (d.rd R.RTE_STATUS_clearing = 0 ∧ d.rd R.SYS_READY_ddr_ecc ≠ 0) → ∃ d',
        Does (.rteCfgWrite inp desc v) d d' ∧ d'.out = .access inp 0 0 :: d.out ∧ d'.rd R.RTE_CFG_hash_log = hash ∧
        d'.rd R.RTE_CFG_en = v.toNat % 2 ∧ d'.rd R.RTE_STATUS_active = v.toNat % 2 ∧ d'.mem = d.mem) ∧
      (d.rd R.RTE_CFG_en = 0 → v.getLsbD 0 = true → d.rd R.RTE_STATUS_clearing = 1 ∨ d.rd R.SYS_READY_ddr_ecc = 0 → ∃ d',
        Does (.rteCfgWrite inp desc v) d d' ∧ d'.out = .access inp 27 0 :: d.out ∧ d'.rd R.RTE_CFG_en = 0 ∧
        d'.rd R.RTE_STATUS_en_refused = 1) ∧
      (d.rd R.RTE_CFG_en = 1 → ∃ d', Does (.rteCfgWrite inp desc v) d d' ∧ d'.out = .access inp 27 0 :: d.out ∧
        d'.rd R.RTE_CFG_hash_log = d.rd R.RTE_CFG_hash_log ∧ d'.rd R.RTE_CFG_en = v.toNat % 2)) ∧
    (∀ inp : Fin 101, d.island 78 = 0 →
      (d.rd R.RTE_CFG_en = 1 → Does (.routeTableClear inp) d (said d inp 27 0)) ∧
      (d.rd R.RTE_CFG_en = 0 → ∃ d', Does (.routeTableClear inp) d d' ∧ d'.out = .access inp 0 0 :: d.out ∧
        d'.rd R.RTE_STATUS_clearing = 1 ∧ d'.rd R.RTE_STATUS_streams = 0 ∧ d'.rte.cache = [] ∧
        (∀ i, i < 2 ^ 24 → d'.entry i = 0) ∧ (∀ r k, r < 2 ^ 21 → k < 8 → d'.digest r k = 0) ∧
        ∀ a, a < 0x1000000000 ∨ 0x1042000000 ≤ a → d'.byte a = d.byte a)) ∧
    Does .routeClearDone d (d.wr R.RTE_STATUS_clearing [] 0) ∧
    (∀ (inp : Fin 101) (u : Fin 8), d.island 78 = 0 →
      (d.rte.learnLog = [] → Does (.learnLogRead inp u) d (said d inp 0 0)) ∧
      (∀ key i l, d.rte.learnLog = (key, i) :: l → key < 2 ^ 320 → i < 2 ^ 24 → Does (.learnLogRead inp u) d
        (said { d with rte := { d.rte with learnLog := if u = 5 then l else (key, i) :: l } } inp 0
          ((key + i * 2 ^ 320 + 2 ^ 344) / 2 ^ (64 * (u : Nat)) % 2 ^ 64))))

/-- R140, R122, R119. -/
def Sys2Proof.Claims.AgeingAndTheTable : Prop :=
  ∀ d, On d → ∀ i : Fin 16777216,
    let e := d.entry i
    let ages := d.rd R.RTE_AGE_period_s ≠ 0 ∧ isStream e = true ∧ eAgeEn e = 1
    let cached := (d.cset (d.setOfEntry i)).find (.stream i)
    let hit := eHit e = 1 ∨ ∃ l, cached = some l ∧ l.hit = true
    (¬ ages → Does (.agerVisit i) d d) ∧
    (ages → hit ∨ ePendSlot e ≠ 0 → ∃ d', Does (.agerVisit i) d d' ∧ d'.entry i = e - eHit e * 2 ^ 326 ∧
      (∀ l, (d'.cset (d.setOfEntry i)).find (.stream i) = some l → l.hit = false) ∧
      ∀ a, a < entryAddr i ∨ entryAddr i + 64 ≤ a → d'.byte a = d.byte a) ∧
    (ages → ¬ hit → ePendSlot e = 0 → ∃ d', Does (.agerVisit i) d d' ∧ d'.entry i = 0 ∧ d'.digest (i / 8) (i % 8) = 0 ∧
      tget 0 d'.rte.sids (eSid e) = 0 ∧ d'.rd R.RTE_CNT_count [8] = (d.rd R.RTE_CNT_count [8] + 1) % 2 ^ 64 ∧
      ∀ j : Nat, j < 2 ^ 24 → j ≠ i → d'.entry j = d.entry j)

/-- The route table's lookup; The ager's visit. -/
def Obligations.RouteTable : Prop :=
  Sys2Proof.Claims.TableLookups ∧ Sys2Proof.Claims.AgeingAndTheTable

/-- R144 to R147, R130, Table 04-8. -/
def Obligations.SalvoSteps : Prop :=
  ∀ d, On d → ∀ slot : Fin 4,
    let s : Nat := slot
    let state := fun (e : Dev) => e.rd R.RTE_SALVO_STAT_state [s]
    let run := tget {} d.rte.salvo s
    let n := d.rd R.RTE_SALVO_STAT_changes [s]
    let late := d.teff s ≤ d.now
    (state d ≠ 2 ∨ n ≤ run.prePos ∨ late → Does (.prewarmStep slot) d d) ∧
    (state d = 2 → run.prePos < n → ¬ late → ∃ d', Does (.prewarmStep slot) d d' ∧
      (tget {} d'.rte.salvo s).prePos = run.prePos + 1 ∧ state d' = 2) ∧
    (state d ≠ 2 ∨ ¬ late → Does (.salvoCommit slot) d d) ∧
    (state d = 2 → late → ∃ d', Does (.salvoCommit slot) d d' ∧ state d' = 3 ∧ d'.mem = d.mem ∧
      d'.rd R.RTE_SALVO_STAT_prewarm_miss [s] = (d.rd R.RTE_SALVO_STAT_prewarm_miss [s] + (n - run.prePos)) %
        2 ^ R.RTE_SALVO_STAT_prewarm_miss.width) ∧
    (state d ≠ 3 ∨ run.retiring = true ∨ n ≤ run.swapPos ∨ ¬ late → Does (.salvoSwap slot) d d) ∧
    (state d = 3 → run.retiring = false → run.swapPos < n → late →
      let j := run.swapPos
      let i := d.chgEntry s j
      ∃ d', Does (.salvoSwap slot) d d' ∧ (tget {} d'.rte.salvo s).swapPos = j + 1 ∧ state d' = 3 ∧
        (d.lineBad (recordAddr s j) = true → d'.mem = d.mem) ∧
        (d.lineBad (recordAddr s j) = false → i < 2 ^ 24 → j < 2 ^ 20 →
          (d.chgKind s j = 2 → eKey (d'.entry i) = eKey (d.record s j) ∧ eKey (d'.record s j) = eKey (d.entry i) ∧
            eGen (d'.entry i) = eGen (d.record s j)) ∧
          ∀ k, k < 2 ^ 24 → k ≠ i → d'.entry k = d.entry k)) ∧
    (state d = 3 → run.retiring = false → n ≤ run.swapPos → d.teff s + d.rd R.RTE_SALVO_CFG_drain_us * 65536000 ≤ d.now →
      (∀ j, j < n → d.chgEntry s j < 2 ^ 24) → (∀ j k, j < n → k < n → d.chgEntry s j = d.chgEntry s k → j = k) →
      ∃ d', Does (.salvoRetire slot) d d' ∧ (tget {} d'.rte.salvo s).retiring = true ∧
        ∀ j, j < n → ePendSlot (d'.entry (d.chgEntry s j)) = 0 ∧ (d.chgKind s j = 3 → d'.entry (d.chgEntry s j) = 0)) ∧
    (state d = 3 → run.retiring = true → Does (.salvoRetireDone slot) d
      (((d.setRun s {}).wr R.RTE_SALVO_STAT_state [s] 0).raise 113 s)) ∧
    (state d ≠ 4 → Does (.salvoCancelDone slot) d d) ∧
    (state d = 4 → ∃ d', Does (.salvoCancelDone slot) d d' ∧ state d' = 0 ∧ d'.rd R.RTE_SALVO_STAT_cancelled [s] = 1)

/-- R142, R145, R144. -/
def Obligations.SwapKeepsTheImageInForce : Prop :=
  ∀ (d : Dev) (slot : Fin 4), On d →
    let s : Nat := slot
    let j := (tget {} d.rte.salvo s).swapPos
    let i := d.chgEntry s j
    let kind := d.chgKind s j
    d.rd R.RTE_SALVO_STAT_state [s] = 3 → (tget {} d.rte.salvo s).retiring = false → j < d.changes s → d.teff s ≤ d.now →
    i < 2 ^ 24 → j < 2 ^ 20 → (kind = 1 ∨ kind = 2 ∨ kind = 3) → d.lineBad (recordAddr s j) = false →
    ePendSlot (d.entry i) = s + 1 → ePendIdx (d.entry i) = j → eGen (d.entry i) ≠ eGen (d.record s j) →
    (kind = 3 → d.record s j % 256 = 0) →
    ∃ d', Does (.salvoSwap slot) d d' ∧ ∀ t, plainSel (d'.inForce i t) = plainSel (d.inForce i t)

namespace Sys2Proof.Claims

/-- Beads in a millisecond. -/
def millis : Nat := 10 ^ 6 * 65536

/-- The pending bit of an event source. -/
def pends (d : Dev) (src : Nat) : Prop := hasBit d R.EVT_PEND_pend [src / 64] (src % 64) = true

/-- Bits [lo+w-1 : lo] of a number. -/
def part (v lo w : Nat) : Nat := v / 2 ^ lo % 2 ^ w

/-- The slots of a store whose stored frame may be released, and is due by time `t`. -/
def dueBy (d : Dev) (ctx t k : Nat) (s : StoreSlot) : Prop :=
  let cfg := (d.rxCtx ctx).1
  k ≤ part cfg 230 16 ∧ d.slotAt ctx k = s ∧ s.used = true ∧ s.locked = false ∧
    mediaTime s.index (storeRate cfg) + part cfg 320 64 ≤ t

/-- The frames a release sends: the records present, in order of their index, as they lie in memory. -/
def sent (d : Dev) (ctx k : Nat) (s : StoreSlot) : List (List Byte) :=
  let cfg := (d.rxCtx ctx).1
  ((List.range (s.count.getD (d.curAt ctx).count)).filter fun j => s.present.elem j).map fun j =>
    d.bytes (recordAt cfg k j + 32) (part (d.load (recordAt cfg k j) 32) 112 16)

/-- A release has started on slot `k`: its frames are on their way to the egress stream, the slot is locked. -/
def releases (d d' : Dev) (ctx k : Nat) (s : StoreSlot) : Prop :=
  let q := part (d.rxCtx ctx).1 277 1
  (tget [] d'.med.egrIn q).map (·.bytes) = (tget [] d.med.egrIn q).map (·.bytes) ++ sent d ctx k s ∧
    d'.slotAt ctx k = { s with locked := true, released := true } ∧ d'.mem = d.mem ∧
    (∀ j, j ≠ k → j < 65536 → d'.slotAt ctx j = d.slotAt ctx j)

/-- Samples of channel lines in a packet buffer, as network bytes in time order. -/
def bufferSamples (d : Dev) (base chans line spp fmt : Nat) : List Byte :=
  ((List.range spp).map fun i => ((List.range chans).map fun c =>
    outSample fmt (d.load (base + c * line + 8 * i) 8)).flatten).flatten

end Sys2Proof.Claims

/-- R158, R163, R171, R174 to R176, Table 05-11. -/
def Obligations.ReceiveTimersAndTheStore : Prop :=
  ∀ d, On d →
    (∀ ctx : Fin 65536,
      let st := (d.rxCtx ctx).2
      let ms := part (d.rxCtx ctx).1 144 16
      let due := st % 4 = 2 ∧ ms ≠ 0 ∧ tget 0 d.med.rxSeen ctx + ms * millis ≤ d.clock
      (¬ due → Does (.streamStall ctx) d d) ∧
      (due → ∃ d', Does (.streamStall ctx) d d' ∧ (d'.rxCtx ctx).1 = (d.rxCtx ctx).1 ∧ (d'.rxCtx ctx).2 = st + 1 ∧
        pends d' 121 ∧ d'.mem = d.mem ∧ ∀ c, c ≠ (ctx : Nat) → d'.rxCtx c = d.rxCtx c)) ∧
    (∀ (p : Fin 65536) (l : Fin 2) (seen : Nat), tget 0 d.med.legSeen (2 * p + l) = seen + 1 →
      let st := (d.pairCtx p).2
      let ms := part (d.pairCtx p).1 96 16
      let due := st.testBit (33 + l) = true ∧ ms ≠ 0 ∧ seen + ms * millis ≤ d.clock
      (¬ due → Does (.mergeLegTimeout p l) d d) ∧
      (due → ∃ d', Does (.mergeLegTimeout p l) d d' ∧ (d'.pairCtx p).1 = (d.pairCtx p).1 ∧
        (d'.pairCtx p).2 = st - 2 ^ (33 + (l : Nat)) ∧ pends d' 122 ∧ d'.mem = d.mem)) ∧
    (∀ ctx : Fin 65536,
      let cfg := (d.rxCtx ctx).1
      let on := cfg.testBit 13
      let sync := cfg.testBit 276
      let c := d.curAt ctx
      (on = false ∨ sync = true ∨ (∀ k s, dueBy d ctx d.now k s → s.released = true) → Does (.storeReleaseDelay ctx) d d) ∧
      (on = true → sync = false → ∀ k s, dueBy d ctx d.now k s → s.released = false →
        (∀ j u, dueBy d ctx d.now j u → u.released = false → j ≠ k → s.order < u.order) →
        ∃ d', Does (.storeReleaseDelay ctx) d d' ∧ releases d d' ctx k s ∧
          let absent := s.count.getD c.count - (sent d ctx k s).length
          part (d'.rxCtx ctx).2 288 32 = (part (d.rxCtx ctx).2 288 32 + absent) % 2 ^ 32 ∧
          part (d'.rxCtx ctx).2 400 16 = k % 2 ^ 16) ∧
      (on = false ∨ sync = false ∨ part cfg 384 32 = 0 ∨ part cfg 416 32 = 0 → Does (.storeSyncBoundary ctx) d d) ∧
      (on = true → sync = true → part cfg 384 32 ≠ 0 → part cfg 416 32 ≠ 0 → ∀ n, c.boundary = some n →
        let b := (syncBoundary cfg n).toNat
        let ready := fun k s => dueBy d ctx b k s ∧ s.count.isSome = true
        (d.now < b → Does (.storeSyncBoundary ctx) d d) ∧
        (b ≤ d.now → (∀ k s, ¬ ready k s) → Does (.storeSyncBoundary ctx) d (d.setCur ctx { c with boundary := some (n + 1) })) ∧
        (b ≤ d.now → ∀ k s, ready k s → s.order ≤ c.order → (∀ j u, ready j u → j ≠ k → u.order < s.order) →
          c.released ≤ s.order + 1 → ∃ d', Does (.storeSyncBoundary ctx) d d' ∧ releases d d' ctx k s ∧
            (d'.curAt ctx).boundary = some (n + 1) ∧ (d'.curAt ctx).released = s.order + 1 ∧
            part (d'.rxCtx ctx).2 320 32 = (part (d.rxCtx ctx).2 320 32 + if c.released = s.order + 1 then 1 else 0) % 2 ^ 32)) ∧
      ((∀ r ∈ d.med.releases, r.ctx ≠ (ctx : Nat)) → Does (.storeReleaseDone ctx) d d) ∧
      (∀ a r b, d.med.releases = a ++ r :: b → (∀ x ∈ a, x.ctx ≠ (ctx : Nat)) → r.ctx = (ctx : Nat) →
        let left := ∃ e ∈ tget [] d.med.egrIn (part cfg 277 1), e.rel = some ((ctx : Nat), r.slot)
        (left → Does (.storeReleaseDone ctx) d d) ∧
        (¬ left → ∃ d', Does (.storeReleaseDone ctx) d d' ∧ (d'.slotAt ctx r.slot).locked = false ∧ r ∉ d'.med.releases ∧
          d'.regs = d.regs ∧ d'.mem = d.mem ∧ d'.med.egrIn = d.med.egrIn)))

/-- R177, R178, R180, R181, R186, R591, R169, R213, R167, Table 05-7. -/
def Obligations.EgressStreams : Prop :=
  ∀ d, On d → ∀ q : Fin 2,
    (tget [] d.med.egrIn q = [] → Does (.egressStreamEnqueue q) d d) ∧
    (∀ r rest, tget [] d.med.egrIn q = r :: rest → r.stream < 2 ^ 14 → r.tsTo = none → r.asm = false →
      let k := 2 ^ 14 * (q : Nat) + r.stream
      let cfg := (d.egrCtx k).1
      let st := (d.egrCtx k).2
      let sp := part cfg 7 2
      let kind := part cfg 3 2
      let mode := part cfg 1 2
      let len := max 64 (r.bytes.length + 4)
      let d0 := { d with med := { d.med with egrIn := tset [] d.med.egrIn q rest } }
      let room := part st 16 16 < part cfg 16 16 ∧ tget 0 d.prt.egStreamBytes q + len ≤ 2 ^ 21 - 2 ^ 16 ∧
        tget 0 d.prt.egBytes q + len ≤ 2 ^ 21
      let down := hasBit d R.PRT_STATUS_link [q] sp = false ∨ hasBit d R.PRT_STATUS_lfault [q] sp = true ∨
        hasBit d R.PRT_STATUS_rfault [q] sp = true
      let enters := fun (elig : Option Nat) => ∃ d', Does (.egressStreamEnqueue q) d d' ∧ tget [] d'.med.egrIn q = rest ∧
        part (d'.egrCtx k).2 16 16 = part st 16 16 + 1 ∧ tget 0 d'.prt.egBytes q = tget 0 d.prt.egBytes q + len ∧ d'.mem = d.mem ∧
        (st % 8 = 3 → (d'.egrCtx k).2 % 8 = 2 ∧ pends d' 126) ∧
        ∃ f : EgFrame, f.bytes = r.bytes ∧ f.len = len ∧ f.src = .stream ∧ f.sp = sp ∧ f.stream = r.stream ∧ f.elig = elig ∧
          (elig = none → tget [] d'.prt.egq q = tget [] d.prt.egq q ++ [f]) ∧
          (∀ t, elig = some t → tget [] d'.med.egrQ k = tget [] d.med.egrQ k ++ [f] ∧
            part (d'.egrCtx k).2 192 32 = (part st 192 32 + if t < d.now then 1 else 0) % 2 ^ 32)
      (cfg % 2 = 0 → Does (.egressStreamEnqueue q) d (d0.medCount 11)) ∧
      (cfg % 2 = 1 → cfg.testBit 5 = false →
        (part cfg 16 16 ≤ part st 16 16 → ∃ d', Does (.egressStreamEnqueue q) d d' ∧
          d'.rd R.MED_CNT_count [12] = (d.rd R.MED_CNT_count [12] + 1) % 2 ^ 64 ∧
          part (d'.egrCtx k).2 224 32 = (part st 224 32 + 1) % 2 ^ 32 ∧ d'.prt = d.prt) ∧
        (room → down → Does (.egressStreamEnqueue q) d (d0.prtCount q sp 16)) ∧
        (room → ¬ down →
          (2 ≤ kind → enters none) ∧
          (kind < 2 → mode % 2 = 1 → enters (some (r.elig.getD d.now))) ∧
          (kind < 2 → mode = 2 → enters (some (match r.ingress with
            | some t => t + part cfg 320 32 * 65536 | none => d.now))) ∧
          (∀ n, kind = 1 → mode = 0 → r.index = some n → part cfg 96 32 ≠ 0 →
            let rate : Int := part cfg 96 32
            let e : Int := -((-(((n + part cfg 160 7) * second : Nat) : Int)) / rate) + toSigned 64 (part cfg 256 64)
            enters (some e.toNat))))) ∧
    (∀ e : Fin 16384,
      let k := 2 ^ 14 * (q : Nat) + e
      let st := (d.egrCtx k).2
      let ms := part (d.egrCtx k).1 352 16
      let t0 := tget 0 d.med.emptyAt k
      let due := st % 8 = 2 ∧ ms ≠ 0 ∧ part st 16 16 = 0 ∧ t0 ≠ 0 ∧ t0 + ms * millis ≤ d.clock + 1
      (¬ due → Does (.txStarved q e) d d) ∧
      (due → ∃ d', Does (.txStarved q e) d d' ∧ (d'.egrCtx k).2 = st + 1 ∧ (d'.egrCtx k).1 = (d.egrCtx k).1 ∧ pends d' 127) ∧
      (∀ inp : Fin 101, d.island 78 = 0 →
        let b := hasBit d R.MED_TX_HALT_halt [q, e / 64] (e % 64)
        (b = false → Does (.txHaltClear inp q e) d (said d inp 0 0)) ∧
        (b = true → ∃ d', Does (.txHaltClear inp q e) d d' ∧ hasBit d' R.MED_TX_HALT_halt [q, e / 64] (e % 64) = false ∧
          d'.out = .access inp 0 0 :: d.out ∧ d'.mem = d.mem ∧
          (d'.egrCtx k).2 % 8 = if st % 8 = 4 then (if part st 16 16 = 0 then 3 else 2) else st % 8)) ∧
      (∀ (ch : Fin 65) (fmt : Fin 3) (first : Nat), tget 0 d.med.audNext k = first + 1 →
        let cfg := (d.egrCtx k).1
        let spp := part cfg 160 7
        let runs := cfg % 2 = 1 ∧ part cfg 3 2 = 1 ∧ part cfg 1 2 = 0 ∧ spp ≠ 0 ∧ d.rd R.PWR_STAT_state = 0
        let line := (spp + 7) / 8 * 64
        let base := 0x40000000 + part cfg 416 4 * 2 ^ 22 + part cfg 420 22 * 64 + first / spp % 4 * (ch * line)
        (¬ runs → Does (.asmPacketClose q e ch fmt) d d) ∧
        (runs → ∀ t, audioElig cfg first = some t →
          (d.now + part cfg 384 32 * 65536 < t → Does (.asmPacketClose q e ch fmt) d d) ∧
          (t ≤ d.now + part cfg 384 32 * 65536 →
            let z := d.setBytes base (List.replicate (ch * line) 0)
            let z := { z with med := { z.med with audNext := tset 0 z.med.audNext k (first + spp + 1) } }
            Does (.asmPacketClose q e ch fmt) d (z.streamEnqueue q e
              { stream := e, bytes := bufferSamples d base ch line spp fmt, index := some first, asm := true })))))

namespace Sys2Proof.Claims

/-- The bytes of a frame on the wire: padded to 60, with its FCS. -/
def wire (b : List Byte) : List Byte :=
  let p := b ++ List.replicate (60 - b.length) 0
  p ++ leBytes 4 (crc32 p)

/-- A frame that carries its bytes as they are and belongs to no stream and no drover. -/
def plainFrame (f : EgFrame) (q sp : Nat) : Prop :=
  f.src ≠ .stream ∧ f.tsTo = none ∧ f.rtpAt = none ∧ f.sp = sp ∧ q < 2

/-- Frame `f` leaves port `q` with its timestamp, corrected for the path, and the bytes it was queued with. -/
def leaves (d d' : Dev) (q sp fine : Nat) (f : EgFrame) (bad : Bool) : Prop :=
  let ts := (((d.now / 2048 * 2048 + fine * 2048 : Nat) : Int) + d.rdS R.TIM_PDLY_TX_dly [q]).toNat % epoch
  d'.out = .frame q sp { f with bytes := wire f.bytes } (timeBits ts).toNat (f.cut && bad) :: d.out ∧ d'.mem = d.mem ∧
    tget 0 d'.prt.egBytes q = tget 0 d.prt.egBytes q - f.len ∧
    d'.rd R.PRT_CNT_count [q, sp, 14] = (d.rd R.PRT_CNT_count [q, sp, 14] + 1) % 2 ^ 64 ∧
    d'.rd R.PRT_CNT_count [q, sp, 15] = (d.rd R.PRT_CNT_count [q, sp, 15] + (wire f.bytes).length) % 2 ^ 64

/-- Slots and beads of the active roster's period. -/
def slots (d : Dev) (q : Nat) : Nat := d.rd R.MED_ROSTER_STAT_act_len_m1 [q] + 1
def slotWidth (d : Dev) (q : Nat) : Nat := (d.rd R.MED_ROSTER_STAT_act_width [q] + 1) * 2 * 65536

/-- Slot `i` of a copy of port `q`'s roster. -/
def rosterAt (t : Table Nat) (q i : Nat) : Nat := tget 0 t (65536 * q + i)

end Sys2Proof.Claims

/-- R97 to R99, R104, R188, R590, R178, R42, Table 03-4. -/
def Sys2Proof.Claims.EgressScheduling : Prop :=
  ∀ d, On d → ∀ (q : Fin 2) (sp : Fin 4) (fine : Nat) (bad : Bool),
    let go := Instr.egressStart q sp fine bad
    let up := hasBit d R.PRT_STATUS_link [q] sp = true ∧ hasBit d R.PRT_STATUS_lfault [q] sp = false ∧
      hasBit d R.PRT_STATUS_rfault [q] sp = false
    let u := d.clock + fine * 2048
    let bits8 := 64 * 65536 * (400 / gbps (d.rd R.PRT_CFG_mode [q]))
    let free := tget 0 d.prt.txEnd (4 * q + sp) + bits8 ≤ u * 400
    let queue := tget [] d.prt.egq q
    let fifo := tget [] d.prt.fifo (4 * q + sp)
    let here := queue.filter fun f => f.sp == (sp : Nat)
    let unpaused := fun p => tget 0 d.prt.paused (8 * (4 * q + sp) + p) ≤ d.clock
    let open_ := hasBit d R.PRT_HALT_STATE_egr_stop [q] sp = false
    let first := fun (f : EgFrame) => f.src = .halter ∨ (f.ptp = true ∧ unpaused f.pri)
    (¬ up → ∃ d', Does go d d' ∧ tget [] d'.prt.egq q = (queue.filter fun f => f.sp != (sp : Nat)) ∧
      tget [] d'.prt.fifo (4 * q + sp) = [] ∧ d'.out = d.out ∧ d'.mem = d.mem ∧
      d'.rd R.PRT_CNT_count [q, sp, 16] % 2 ^ 64 = (d.rd R.PRT_CNT_count [q, sp, 16] + (here.length + fifo.length)) % 2 ^ 64) ∧
    (up → ¬ free → Does go d d) ∧
    (up → free → here = [] → fifo = [] → Does go d d) ∧
    (up → free →
      (∀ f a b, here = a ++ f :: b → first f → (∀ g ∈ a, ¬ first g) → plainFrame f q sp → ∃ d', Does go d d' ∧
        leaves d d' q sp fine f bad ∧ tget [] d'.prt.egq q = queue.erase f ∧ tget [] d'.prt.fifo (4 * q + sp) = fifo) ∧
      ((∀ g ∈ here, ¬ first g) →
        (∀ f a b, here = a ++ f :: b → f.pri = 7 → f.ptp = false → (∀ g ∈ a, g.pri ≠ 7 ∨ g.ptp = true) → unpaused 7 →
          d.rd R.PRT_P7_RATE_mbps [q] = 0 → plainFrame f q sp → f.src ≠ .halter → ∃ d', Does go d d' ∧
          leaves d d' q sp fine f bad ∧ tget [] d'.prt.egq q = queue.erase f) ∧
        ((∀ g ∈ here, g.pri ≠ 7) →
          (∀ f rest, fifo = f :: rest → unpaused f.pri → plainFrame f q sp →
            (open_ → ∃ d', Does go d d' ∧ leaves d d' q sp fine f bad ∧ tget [] d'.prt.egq q = queue ∧
              tget [] d'.prt.fifo (4 * q + sp) = rest) ∧
            (¬ open_ → ∃ d', Does go d d' ∧ d'.out = d.out ∧ tget [] d'.prt.fifo (4 * q + sp) = rest ∧
              d'.rd R.PRT_CNT_count [q, sp, 18] = (d.rd R.PRT_CNT_count [q, sp, 18] + 1) % 2 ^ 64)) ∧
          (∀ f, fifo = [] → here = [f] → f.pri < 7 → f.ptp = false → f.src ≠ .halter → unpaused f.pri → open_ →
            d.rd R.MED_ROSTER_CFG_guard [q] = 0 → part (d.rd R.PRT_EGR_WRR_w [q]) (8 * f.pri) 8 = 0 → plainFrame f q sp →
            ∃ d', Does go d d' ∧ leaves d d' q sp fine f bad ∧ tget [] d'.prt.egq q = queue.erase f))))

/-- R182 to R185, R187, R180, Table 05-9. -/
def Sys2Proof.Claims.RosterOperation : Prop :=
  ∀ d, On d → ∀ q : Fin 2,
    (∀ n, tget 0 d.med.rosAt q = n + 1 →
      let s : Int := tget 0 d.med.rosPhase q % (slots d q * slotWidth d q : Nat) - (slots d q * slotWidth d q : Nat) +
        (n * slotWidth d q : Nat)
      let w := tget 0 d.med.rosWrap q
      let begins := d.rd R.MED_ROSTER_CFG_en [q] ≠ 0 ∧ s ≤ d.now ∧ (w = 0 ∨ s < (w : Int) - 1)
      let e := rosterAt d.med.rosAct q (n % slots d q)
      let k := 2 ^ 14 * (q : Nat) + e % 2 ^ 14
      let on := { d with med := { d.med with rosAt := tset 0 d.med.rosAt q (n + 2) } }
      (¬ begins → Does (.rosterSlot q) d d) ∧
      (begins → d.controlOnly = false →
        (e.testBit 14 = false ∨ tget [] d.med.egrQ k = [] → Does (.rosterSlot q) d on) ∧
        (e.testBit 14 = true → ∀ f rest, tget [] d.med.egrQ k = f :: rest → ∀ t, f.elig = some t →
          (s < t → Does (.rosterSlot q) d on) ∧
          ((t : Int) ≤ s → hasBit d R.MED_TX_HALT_halt [q, e % 2 ^ 14 / 64] (e % 64) = false → f.sp < 4 →
            hasBit d R.PRT_STATUS_link [q] f.sp = true → hasBit d R.PRT_STATUS_lfault [q] f.sp = false →
            hasBit d R.PRT_STATUS_rfault [q] f.sp = false →
            let fifo := tget [] d.prt.fifo (4 * q + f.sp)
            (16 ≤ fifo.length → Does (.rosterSlot q) d (on.medCount 14)) ∧
            (fifo.length < 16 → ∃ d', Does (.rosterSlot q) d d' ∧ tget [] d'.prt.fifo (4 * q + f.sp) = fifo ++ [f] ∧
              tget [] d'.med.egrQ k = rest ∧ tget 0 d'.med.rosAt q = n + 2 ∧ d'.regs = d.regs ∧ d'.mem = d.mem))))) ∧
    (∀ inp : Fin 101, d.island 78 = 0 → ∃ d', Does (.rosterCommit inp q) d d' ∧ d'.out = .access inp 0 0 :: d.out ∧
      d'.rd R.MED_ROSTER_STAT_pending [q] = 1 ∧ d'.mem = d.mem ∧
      ∃ w : Nat, tget 0 d'.med.rosWrap q = w + 1 ∧ d.now < w ∧ w ≤ d.now + slots d q * slotWidth d q ∧
        ((w : Int) - tget 0 d.med.rosPhase q) % (slots d q * slotWidth d q : Nat) = 0) ∧
    (let w := tget 0 d.med.rosWrap q
     let due := d.rd R.MED_ROSTER_STAT_pending [q] ≠ 0 ∧ w ≠ 0 ∧ w ≤ d.now + 1
     (¬ due → Does (.rosterSwap q) d d) ∧
     (due → ∃ d', Does (.rosterSwap q) d d' ∧ d'.mem = d.mem ∧
       (∀ i, i < 65536 → rosterAt d'.med.rosAct q i = rosterAt d.med.rosShad q i ∧
         rosterAt d'.med.rosShad q i = rosterAt d.med.rosAct q i) ∧
       (∀ p i, p < 2 → p ≠ (q : Nat) → i < 65536 → rosterAt d'.med.rosAct p i = rosterAt d.med.rosAct p i ∧
         rosterAt d'.med.rosShad p i = rosterAt d.med.rosShad p i) ∧
       d'.rd R.MED_ROSTER_STAT_act_len_m1 [q] = d.rd R.MED_ROSTER_CFG_len_m1 [q] % 2 ^ 16 ∧
       d'.rd R.MED_ROSTER_STAT_act_width [q] = d.rd R.MED_ROSTER_CFG_width [q] % 2 ^ 5 ∧
       tget 0 d'.med.rosPhase q = d.rdS R.MED_ROSTER_CFG_phase [q] ∧ d'.rd R.MED_ROSTER_STAT_pending [q] = 0 ∧
       d'.rd R.MED_ROSTER_STAT_copying [q] = 1 ∧ pends d' 128)) ∧
    (d.rd R.MED_ROSTER_STAT_copying [q] = 0 → Does (.rosterCopyDone q) d d) ∧
    (d.rd R.MED_ROSTER_STAT_copying [q] ≠ 0 →
      (d.med.rosWait = [] → ∃ d', Does (.rosterCopyDone q) d d' ∧ d'.rd R.MED_ROSTER_STAT_copying [q] = 0 ∧ d'.out = d.out ∧
        (∀ i, i < 65536 → rosterAt d'.med.rosShad q i = rosterAt d.med.rosAct q i) ∧ d'.med.rosAct = d.med.rosAct) ∧
      (∀ inp i v, d.med.rosWait = [(inp, 65536 * (q : Nat) + i, v)] → i < 65536 → ∃ d', Does (.rosterCopyDone q) d d' ∧
        d'.med.rosWait = [] ∧ d'.out = .access inp 0 0 :: d.out ∧
        ∀ j, j < 65536 → rosterAt d'.med.rosShad q j = if j = i then v else rosterAt d.med.rosAct q j)) ∧
    (∀ (inp : Fin 101) (desc : Bool) (e : Fin 2048) (v : BitVec 16), d.island 78 = 0 →
      let go := Instr.rosterWinWrite inp desc e v
      let p := d.rd R.MED_ROSTER_SEL_port
      let k := 65536 * p + 2048 * d.rd R.MED_ROSTER_SEL_page + e
      let active := d.rd R.MED_ROSTER_SEL_bank ≠ 0
      let copying := d.rd R.MED_ROSTER_STAT_copying [p] ≠ 0
      (d.locked ⟨inp, desc⟩ = true → Does go d ((said d inp 4 0).raise 3 (inp + 1024))) ∧
      (d.locked ⟨inp, desc⟩ = false →
        (active → Does go d (said { d with med := { d.med with rosAct := tset 0 d.med.rosAct k (v.toNat % 2 ^ 15) } } inp 0 0)) ∧
        (¬ active → copying →
          Does go d { d with med := { d.med with rosWait := d.med.rosWait ++ [((inp : Nat), k, v.toNat % 2 ^ 15)] } }) ∧
        (¬ active → ¬ copying →
          Does go d (said { d with med := { d.med with rosShad := tset 0 d.med.rosShad k (v.toNat % 2 ^ 15) } } inp 0 0))))

/-- The start of a frame; Rosters: slots, the commit at a period's wrap, the window. -/
def Obligations.RosterAndEgressScheduling : Prop :=
  Sys2Proof.Claims.EgressScheduling ∧ Sys2Proof.Claims.RosterOperation

/-- R191, R192, R152, R158, R181, Tables 05-11 to 05-14. -/
def Obligations.ContextCommands : Prop :=
  ∀ d, On d → ∀ (inp : Fin 101) (desc : Bool), d.island 78 = 0 →
    let idle := d.rd R.MED_CTX_CMD_busy = 0 ∧ d.locked ⟨inp, desc⟩ = false
    let data := d.rd R.MED_CTX_DATA_cfg
    let done := fun (d' : Dev) => d'.rd R.MED_CTX_CMD_busy = 1 ∧ d'.out = .access inp 0 0 :: d.out
    let refused := fun (d' : Dev) => done d' ∧ d'.rd R.MED_CTX_CMD_err = 1 ∧ d'.med = d.med ∧ d'.mem = d.mem ∧
      (d.rd R.MED_CTX_CMD_err = 0 → pends d' 129)
    (∃ d', Does .ctxCmdDone d d' ∧ d'.rd R.MED_CTX_CMD_busy = 0 ∧ d'.med = d.med ∧ d'.mem = d.mem) ∧
    (∀ (kind : Fin 4) (p : Fin 2) (i : BitVec 18),
      (d.rd R.MED_CTX_CMD_busy ≠ 0 → Does (.ctxRead inp desc kind p i) d (said d inp 27 0) ∧
        Does (.ctxWrite inp desc kind p i) d (said d inp 27 0) ∧ Does (.clrSid inp desc i) d (said d inp 27 0)) ∧
      (idle →
        (∀ c, (kind = 0 ∧ i.toNat < 65536 ∧ c = d.rxCtx i.toNat) ∨ (kind = 1 ∧ i.toNat < 65536 ∧ c = d.pairCtx i.toNat) ∨
            (kind = 2 ∧ i.toNat < 16384 ∧ c = d.egrCtx (2 ^ 14 * (p : Nat) + i.toNat)) →
          ∃ d', Does (.ctxRead inp desc kind p i) d d' ∧ done d' ∧ d'.rd R.MED_CTX_DATA_cfg = c.1 % 2 ^ 512 ∧
            d'.rd R.MED_CTX_DATA_stat = c.2 % 2 ^ 512 ∧ d'.med = d.med ∧ d'.mem = d.mem) ∧
        (kind = 3 ∨ (kind < 2 ∧ 65536 ≤ i.toNat) ∨ (kind = 2 ∧ 16384 ≤ i.toNat) →
          (∃ d', Does (.ctxRead inp desc kind p i) d d' ∧ refused d' ∧ d'.rd R.MED_CTX_DATA_cfg = 0 ∧ d'.rd R.MED_CTX_DATA_stat = 0) ∧
          (∃ d', Does (.ctxWrite inp desc kind p i) d d' ∧ refused d')) ∧
        (∃ d', Does (.clrSid inp desc i) d d' ∧ done d' ∧ d'.med = d.med ∧
          (d.lineBad (0x1054000000 + 32 * i.toNat) = false →
            ∀ a, d'.byte a = if 0x1054000000 + 32 * i.toNat ≤ a ∧ a < 0x1054000000 + 32 * i.toNat + 32 then 0 else d.byte a)))) ∧
    (idle → ∀ (p : Fin 2) (i : Nat) (h : i < 2 ^ 18),
      let ix : BitVec 18 := BitVec.ofNatLT i h
      let write := fun (kind : Fin 4) => Instr.ctxWrite inp desc kind p ix
      (i < 65536 →
        (let cfg := data &&& ctxMask 0
         (rxBad cfg = true → ∃ d', Does (write 0) d d' ∧ refused d') ∧
         (rxBad cfg = false → ∃ d', Does (write 0) d d' ∧ done d' ∧ (d'.rxCtx i).1 = cfg ∧
           (∀ j, j ≠ i → d'.rxCtx j = d.rxCtx j) ∧ d'.mem = d.mem ∧
           (d'.rxCtx i).2 = if cfg % 2 = 0 then (d.rxCtx i).2 / 4 * 4 else if (d.rxCtx i).1 % 2 = 0 then 1 else (d.rxCtx i).2)) ∧
        (let cfg := data &&& ctxMask 1
         (pairBad cfg = true → ∃ d', Does (write 1) d d' ∧ refused d') ∧
         (pairBad cfg = false → ∃ d', Does (write 1) d d' ∧ done d' ∧ (d'.pairCtx i).1 = cfg ∧
           (∀ j, j ≠ i → d'.pairCtx j = d.pairCtx j) ∧ d'.mem = d.mem ∧
           ((d.pairCtx i).1 % 2 = 0 → cfg % 2 = 1 → (d'.pairCtx i).2.testBit 32 = false) ∧
           ((d.pairCtx i).1 % 2 = 1 ∨ cfg % 2 = 0 → (d'.pairCtx i).2 = (d.pairCtx i).2)))) ∧
      (i < 16384 →
        let k := 2 ^ 14 * (p : Nat) + i
        let cfg := data &&& ctxMask 2
        (egrBad cfg = true → ∃ d', Does (write 2) d d' ∧ refused d') ∧
        (egrBad cfg = false → ∃ d', Does (write 2) d d' ∧ done d' ∧ (d'.egrCtx k).1 = cfg ∧
          (∀ j, j ≠ k → d'.egrCtx j = d.egrCtx j) ∧ d'.mem = d.mem ∧
          (cfg % 2 = 0 → (d'.egrCtx k).2 % 8 = 0) ∧
          ((d.egrCtx k).1 % 2 = 0 → cfg % 2 = 1 → (d'.egrCtx k).2 =
            if hasBit d R.MED_TX_HALT_halt [p, i / 64] (i % 64) then 4 else 1) ∧
          ((d.egrCtx k).1 % 2 = 1 → cfg % 2 = 1 → (d'.egrCtx k).2 = (d.egrCtx k).2) ∧
          (cfg % 2 = 0 → (d.egrCtx k).1 % 2 = 1 → tget [] d'.med.egrQ k = []))))

namespace Sys2Proof.Claims

/-- Frames on the droveway to drover `n`. -/
def arriving (d : Dev) (n : Nat) : List RxFrame := tget [] d.med.drvIn n

/-- Buffers a frame takes with its metadata, and where it goes in the ring of 32 (R201). -/
def buffersOf (r : RxFrame) : Nat := (r.frame.bytes.length + 64 + 4095) / 4096
def firstBuffer (d : Dev) (n : Nat) (r : RxFrame) : Nat :=
  if (d.drover n).nextBuf + buffersOf r ≤ 32 then (d.drover n).nextBuf else 0
def buffersTaken (d : Dev) (n : Nat) (r : RxFrame) : Nat :=
  if (d.drover n).nextBuf + buffersOf r ≤ 32 then buffersOf r else 32 - (d.drover n).nextBuf + buffersOf r
def buffersFree (d : Dev) (n : Nat) (r : RxFrame) : Prop :=
  ((d.drover n).wins.map (·.took)).sum + buffersTaken d n r ≤ 32

/-- The frame has become a window: its bytes lie behind the 64 bytes of metadata, the window stands last. -/
def placed (d d' : Dev) (n : Nat) (r : RxFrame) : Prop :=
  let at_ := 2 ^ 48 + n * 2 ^ 32 + 0x20000 + 4096 * firstBuffer d n r
  (∃ sid, (r.byEntry = true → sid = r.sid) ∧
    (d'.drover n).wins = (d.drover n).wins ++ [{ first := firstBuffer d n r, count := buffersOf r, took := buffersTaken d n r, sid := sid }]) ∧
    (d'.drover n).nextBuf = (firstBuffer d n r + buffersOf r) % 32 ∧ (d'.drover n).held = false ∧
    d'.bytes (at_ + 64) r.frame.bytes.length = r.frame.bytes ∧
    (∀ a, a < at_ ∨ at_ + 64 + r.frame.bytes.length ≤ a → d'.byte a = d.byte a) ∧
    d'.rd R.DRV_CNT_count [n, 0] = (d.rd R.DRV_CNT_count [n, 0] + 1) % 2 ^ 64

/-- Drover `n`'s drove runs, the drover is not halted, the device is not stopped. -/
def issuing (d : Dev) (n : Nat) : Prop := d.island (64 + n / 8) = 0 ∧ d.rd R.DRV_STATUS_halted [n] = 0 ∧ d.pwr.stopped = false

/-- Counter `k` of drover `n` has gone up by `m`. -/
def counted (d d' : Dev) (n k m : Nat) : Prop :=
  d'.rd R.DRV_CNT_count [n, k] % 2 ^ 64 = (d.rd R.DRV_CNT_count [n, k] + m) % 2 ^ 64

end Sys2Proof.Claims

/-- R201, R202, R225, R206 to R210, R217, R218, Table 06-5. -/
def Obligations.DroverInputAndQueues : Prop :=
  ∀ d, On d → d.bst.slices = [] → ∀ n : Fin 96,
    (arriving d n = [] → Does (.droverFrameRx n) d d ∧ Does (.windowHoldRelease n) d d) ∧
    (∀ r rest, arriving d n = r :: rest →
      let holds := ∃ i : Fin 8, (d.drover (n / 8 * 8 + i)).held = true
      let stops := d.island (64 + n / 8) ≠ 0
      let halts := d.rd R.DRV_STATUS_halted [n] ≠ 0
      let popped := d.setDrvIn n rest
      (holds → Does (.droverFrameRx n) d d) ∧
      (¬ holds → stops → Does (.droverFrameRx n) d (if 64 + (n : Nat) / 8 ∈ d.tmo then popped else d)) ∧
      (¬ holds → ¬ stops → halts → Does (.droverFrameRx n) d (popped.drvCount n 2)) ∧
      (r.migOut = false → r.frame.bytes.length ≤ 9600 → r.err = false → (d.drover n).nextBuf < 32 →
        (¬ holds → ¬ stops → ¬ halts → buffersFree d n r → ∃ d', Does (.droverFrameRx n) d d' ∧ placed d d' n r ∧
          arriving d' n = rest) ∧
        (¬ holds → ¬ stops → ¬ halts → ¬ buffersFree d n r →
          (d.rd R.DRV_RX_CFG_full_act [n] = 0 → ∃ d', Does (.droverFrameRx n) d d' ∧ arriving d' n = rest ∧ counted d d' n 1 1 ∧
            d'.drover n = d.drover n ∧ d'.rd R.DRV_EVT_rx_full [n] ≠ 0 ∧ d'.mem = d.mem) ∧
          (d.rd R.DRV_RX_CFG_full_act [n] ≠ 0 → Does (.droverFrameRx n) d (d.setDrover n { d.drover n with held := true }))) ∧
        ((d.drover n).held = true → ¬ stops → ¬ halts →
          (buffersFree d n r → ∃ d', Does (.windowHoldRelease n) d d' ∧ placed d d' n r ∧ arriving d' n = rest) ∧
          (¬ buffersFree d n r → Does (.windowHoldRelease n) d d))) ∧
      ((d.drover n).held = false → Does (.windowHoldRelease n) d d) ∧
      ((d.drover n).held = true → ¬ stops → halts → Does (.windowHoldRelease n) d
        (((d.setDrover n { d.drover n with held := false }).setDrvIn n rest).drvCount n 2))) ∧
    (∀ q : Fin 4,
      let queue := d.sendQ n q
      (queue = [] ∨ ¬ issuing d n → Does (.sendQueueIssue n q) d d) ∧
      (∀ x rest, queue = x :: rest → issuing d n →
        let src := x / 2 ^ 64 % 2 ^ 40
        let len := x / 2 ^ 32 % 2 ^ 14
        let target := x / 2 ^ 8 % 2 ^ 14
        let isl := target % 64
        let port := target / 64 % 2
        let bytes := d.bytes (placeKey n src) len
        let goes := fun (d' : Dev) => Does (.sendQueueIssue n q) d d' ∧ d'.sendQ n q = rest ∧ counted d d' n 4 1 ∧
          d'.mem = d.mem ∧ (d'.drover n).wins = (d.drover n).wins
        x.testBit 6 = false →
        (x % 4 = 0 → ∃ d', goes d' ∧ ∃ e : EgReq, e.stream = target ∧ e.bytes = bytes ∧
          e.index = (if x.testBit 4 then some (x / 2 ^ 128 % 2 ^ 64) else none) ∧
          e.elig = (if x.testBit 5 then some (rawToBeads (x / 2 ^ 192 % 2 ^ 96)) else none) ∧
          e.tsTo = (if x.testBit 3 then some ((n : Nat), x / 2 ^ 320 % 2 ^ 32) else none) ∧
          tget [] d'.med.egrIn (x / 4 % 2) = tget [] d.med.egrIn (x / 4 % 2) ++ [e]) ∧
        (x % 4 = 2 → ∃ d', goes d' ∧ ∃ r : RxFrame, r.frame.bytes = bytes ∧ r.err = x.testBit 7 ∧ r.srcDrv = some (n : Nat) ∧
          arriving d' (target % 128) = arriving d (target % 128) ++ [r]) ∧
        (x % 4 = 1 →
          let frozen := hasBit d R.FAB_ISL_STILE_frozen [isl] port = true
          (d.island isl = 0 → ¬ frozen → ∃ d', goes d' ∧ ∃ r : RxFrame, r.frame.bytes = bytes ∧ r.err = x.testBit 7 ∧
            tget [] d'.med.fabIn (2 * isl + port) = tget [] d.med.fabIn (2 * isl + port) ++ [r]) ∧
          (d.island isl = 0 → frozen → hasBit d R.DRV_SQ_STAT_frozen [n] q = true → Does (.sendQueueIssue n q) d d) ∧
          (d.island isl = 0 → frozen → hasBit d R.DRV_SQ_STAT_frozen [n] q = false → ∃ d', Does (.sendQueueIssue n q) d d' ∧
            hasBit d' R.DRV_SQ_STAT_frozen [n] q = true ∧ d'.rd R.DRV_EVT_frozen [n] ≠ 0 ∧ d'.sendQ n q = queue ∧ d'.mem = d.mem) ∧
          (d.island isl ≠ 0 → isl ∈ d.tmo → ∃ d', Does (.sendQueueIssue n q) d d' ∧ d'.sendQ n q = rest ∧ counted d d' n 5 1) ∧
          (d.island isl ≠ 0 → isl ∉ d.tmo → Does (.sendQueueIssue n q) d d)))) ∧
    (∀ (c : Fin 4) (f : NvFind),
      let ch := d.dmaChan n c
      (∀ bad, ch.queue = [] ∨ ¬ issuing d n → Does (.dmaUnitDone n c bad f) d d) ∧
      (∀ e rest, ch.queue = e :: rest → issuing d n → cribRange e.src e.len → cribRange e.dst e.len → e.len % 64 = 0 →
        (e.src + e.len ≤ e.dst ∨ e.dst + e.len ≤ e.src) →
        let at_ := fun (a : Nat) => 2 ^ 48 + (n : Nat) * 2 ^ 32 + (a - cribBase)
        let moved := fun (d' : Dev) (k : Nat) => counted d d' n 9 k ∧
          ∀ a, d'.byte a = if at_ e.dst ≤ a ∧ a < at_ e.dst + k then d.byte (at_ e.src + (a - at_ e.dst)) else d.byte a
        (∃ d', Does (.dmaUnitDone n c none f) d d' ∧ moved d' e.len ∧ d'.dmaChan n c = { ch with queue := rest }) ∧
        (∀ j, 64 * j < e.len → ∃ d', Does (.dmaUnitDone n c (some (j, 2)) f) d d' ∧ moved d' (64 * j) ∧
          d'.dmaChan n c = { ch with queue := rest, status := if ch.status = 0 then 1 else ch.status })))

/-- R223, R224, R226 to R231, R589, R24, Table 06-8. -/
def Obligations.DroverControl : Prop :=
  ∀ d, On d → ∀ n : Fin 96,
    let runs := d.island (64 + n / 8) = 0
    let halts := d.rd R.DRV_STATUS_halted [n] ≠ 0
    (∀ inp : Fin 101,
      (¬ runs → Does (.drvHalt inp n) d (said d inp 2 0) ∧ Does (.drvResume inp n) d (said d inp 2 0) ∧
        Does (.drvReset inp n) d (said d inp 2 0) ∧ Does (.drvStart inp n) d (said d inp 2 0)) ∧
      (runs → ¬ halts → Does (.drvResume inp n) d (said d inp 27 0) ∧ Does (.drvReset inp n) d (said d inp 27 0)) ∧
      (runs → ∃ d', Does (.drvHalt inp n) d d' ∧ d'.rd R.DRV_STATUS_halted [n] ≠ 0 ∧
        hasBit d' R.DRV_STATUS_halt_cause [n] 1 = true ∧ d'.out = .access inp 0 0 :: d.out ∧ d'.mem = d.mem ∧
        d'.drv.thr = d.drv.thr ∧ (d'.drover n).haltAt = if d.rd R.DRV_STATUS_halted [n] = 0 then d.now else (d.drover n).haltAt) ∧
      (runs → halts → ∃ d', Does (.drvResume inp n) d d' ∧ d'.rd R.DRV_STATUS_halted [n] = 0 ∧ d'.rd R.DRV_STATUS_quiet [n] = 0 ∧
        d'.rd R.DRV_STATUS_halt_cause [n] = 0 ∧ d'.out = .access inp 0 0 :: d.out ∧ d'.mem = d.mem ∧
        ((∀ t : Fin 8, d.thrState n t ≠ 2) → ∀ t : Fin 8, d'.thrState n t = d.thrState n t ∧
          d'.thr n t = { d.thr n t with kick := (d.thr n t).kick + (d.now - (d.drover n).haltAt) })) ∧
      (runs → halts → d.rd R.DRV_IMEM_LOAD_busy [n] = 0 → ∃ d', Does (.drvReset inp n) d d' ∧ d'.rd R.DRV_STATUS_halted [n] = 0 ∧
        d'.out = .access inp 0 0 :: d.out ∧ d'.mem = d.mem ∧ (∀ q, q < 4 → d'.sendQ n q = []) ∧ (d'.drover n).wins = [] ∧
        (d'.drover n).ts = [] ∧ (∀ t : Fin 8, d'.thrState n t = 0) ∧
        ∀ c : Fin 4, (d'.dmaChan n c).queue = [] ∧ (d'.dmaChan n c).status =
          if (d.dmaChan n c).queue ≠ [] ∧ (d.dmaChan n c).status = 0 then 3 else (d.dmaChan n c).status) ∧
      (runs → ∃ d', Does (.drvStart inp n) d d' ∧ d'.out = .access inp 0 0 :: d.out ∧ d'.mem = d.mem ∧
        ∀ t : Fin 8, let go := hasBit d R.DRV_CFG_thr_en [n] t = true ∧ d.thrState n t = 0
          (go → d'.thrState n t = 1 ∧ (d'.thr n t).pc = d.rd R.DRV_THR_VEC_start [n, t] / 4 * 4 ∧
            (∀ r, (d'.thr n t).sreg r = 0 ∧ (d'.thr n t).vreg r = 0) ∧ (d'.thr n t).wait = none) ∧
          (¬ go → d'.thrState n t = d.thrState n t ∧ d'.thr n t = d.thr n t))) ∧
    (let still := ∀ t : Fin 8, d.thrState n t = 2 → inFlight ((d.thr n t).wait.getD 0) = false
     let due := halts ∧ d.rd R.DRV_STATUS_quiet [n] = 0 ∧ still
     (¬ due → Does (.drvHaltQuiet n) d d) ∧
     (due → ∃ d', Does (.drvHaltQuiet n) d d' ∧ d'.rd R.DRV_STATUS_quiet [n] = 1 ∧ d'.rd R.DRV_EVT_halted [n] ≠ 0 ∧ d'.mem = d.mem)) ∧
    (∀ (inp : Fin 101) (desc : Bool) (src : BitVec 38) (dst : BitVec 16) (len : BitVec 17),
      let go := Instr.imemFill inp desc n src dst len
      (¬ runs → Does go d (said d inp 2 0)) ∧
      (runs → d.locked ⟨inp, desc⟩ = false → ∃ d', Does go d d' ∧ d'.rd R.DRV_IMEM_LOAD_src [n] = src.toNat ∧
        d'.rd R.DRV_IMEM_LOAD_dst [n] = dst.toNat ∧ d'.rd R.DRV_IMEM_LOAD_len [n] = len.toNat ∧ d'.mem = d.mem ∧
        (d.rd R.DRV_IMEM_LOAD_busy [n] = 0 → d'.rd R.DRV_IMEM_LOAD_busy [n] = 1 ∧ (d'.drover n).fillSrc = src.toNat ∧
          (d'.drover n).fillDst = dst.toNat ∧ (d'.drover n).fillLen = len.toNat ∧ d'.out = .access inp 0 0 :: d.out) ∧
        (d.rd R.DRV_IMEM_LOAD_busy [n] ≠ 0 → d'.rd R.DRV_IMEM_LOAD_refused [n] = 1 ∧ d'.drv = d.drv ∧
          d'.out = .access inp 27 0 :: d.out))) ∧
    (let src := (d.drover n).fillSrc
     let dst := (d.drover n).fillDst
     let len := (d.drover n).fillLen
     let fills := d.rd R.DRV_IMEM_LOAD_busy [n] ≠ 0 ∧ (∀ e ∈ d.nvc.stalled, e.1 ≠ (n : Nat)) ∧ runs
     let legal := len ≠ 0 ∧ dst + len ≤ 65536 ∧ src % 64 = 0 ∧ dst % 64 = 0 ∧ len % 64 = 0
     let ends := fun (d' : Dev) (st : Nat) => d'.rd R.DRV_IMEM_LOAD_busy [n] = 0 ∧ d'.rd R.DRV_IMEM_LOAD_status [n] = st ∧
       d'.rd R.DRV_EVT_fill_done [n] ≠ 0 ∧ counted d d' n 14 1
     (∀ bad, ¬ fills → Does (.imemFillDone n bad) d d) ∧
     (∀ bad, fills → ¬ legal → ∃ d', Does (.imemFillDone n bad) d d' ∧ ends d' 2 ∧ d'.mem = d.mem) ∧
     (fills → legal → d.bst.slices = [] → 0x40000000 ≤ src → src + len ≤ 0x43000000 →
       (∀ g, g < 12 → d.island (64 + g) = 0) → ∃ d', Does (.imemFillDone n none) d d' ∧ ends d' 0 ∧
         ∀ a, let base := 2 ^ 48 + (n : Nat) * 2 ^ 32 + 0x100000 + dst
           d'.byte a = if base ≤ a ∧ a < base + len then d.byte (src + (a - base)) else d.byte a)) ∧
    (∀ t : Fin 8,
      let us := d.rd R.DRV_WDOG_period_us [n]
      let st := d.thrState n t
      let late := (d.thr n t).kick + us * (1000 * 65536) ≤ d.now
      let due := us ≠ 0 ∧ hasBit d R.DRV_WDOG_thr_mask [n] t = true ∧ issuing d n ∧ (st = 1 ∨ st = 2) ∧ late
      let act := d.rd R.DRV_WDOG_action [n]
      (st < 4 → ¬ due → Does (.drvWatchdog n t) d d) ∧
      (due → ∃ d', Does (.drvWatchdog n t) d d' ∧ d'.rd R.DRV_EVT_wdog [n] ≠ 0 ∧ d'.mem = d.mem ∧ counted d d' n 11 1 ∧
        (d'.thr n t).kick = (d.thr n t).kick + us * (1000 * 65536) ∧
        (act = 0 → d'.thrState n t = st ∧ d'.rd R.DRV_STATUS_halted [n] = 0) ∧
        (act = 1 → st = 1 → d'.thrState n t = 1 ∧ (d'.thr n t).due.testBit 1 = true) ∧
        (2 ≤ act → d'.rd R.DRV_STATUS_halted [n] ≠ 0 ∧ hasBit d' R.DRV_STATUS_halt_cause [n] 3 = true)))

namespace Sys2Proof.Claims

/-- Responses waiting for input port `k` of island `i`. -/
def answers (d : Dev) (i k : Nat) : List FabResp := tget [] d.fab.resp (2 * i + k)

/-- A message header with its reserved bits zero, for `words` data words that its length needs (R296, R298). -/
def headerOk (h : BitVec 512) (words : Nat) : Prop :=
  let v := h.toNat
  let op := v % 16
  let len := part v 48 14
  op < 6 ∧ part v 23 9 = 0 ∧ part v 62 2 = 0 ∧ part v 104 24 = 0 ∧ part v 288 224 = 0 ∧ 64 ≤ len ∧
    (op < 3 → len ≤ 9600 ∧ words = (len + 63) / 64) ∧ (op = 1 → part v 8 14 % 128 < 96) ∧
    (3 ≤ op → len ≤ 4096 ∧ len % 64 = 0 ∧ words = if op = 3 then 0 else len / 64)

/-- A range within one drove memory, aligned to 64 bytes. -/
def inOneDroveMemory (a len g : Nat) : Prop :=
  g < 12 ∧ 0x40000000 + g * 0x400000 ≤ a ∧ a + len ≤ 0x40000000 + (g + 1) * 0x400000 ∧ a % 64 = 0

/-- A signed 64-bit sum, saturated. -/
def addSat (a b : BitVec 64) : BitVec 64 := BitVec.ofInt 64 (max (-(2 ^ 63)) (min (a.toInt + b.toInt) (2 ^ 63 - 1)))

/-- The first `n` of a message's data bytes, zeros where there are fewer. -/
def dataByte (l : List Byte) (i : Nat) : Byte := (l[i]?).getD 0

end Sys2Proof.Claims

/-- R296 to R300, R23, R274, Table 08-8. -/
def Obligations.FabricMessages : Prop :=
  ∀ d, On d → d.bst.slices = [] → ∀ (i : Fin 64) (k : Fin 2) (h : BitVec 512) (data : List Byte) (words : Nat),
    let v := h.toNat
    let op := v % 16
    let target := part v 8 14
    let len := part v 48 14
    let a := part v 64 40
    let tag := part v 32 16
    let sends := d.fabSends i k = true
    let sent := fun (d' : Dev) => d'.rd R.FAB_ISL_WCNT_words_out [i] = (d.rd R.FAB_ISL_WCNT_words_out [i] + 1 + words) % 2 ^ 64
    let all := fun (P : Instr → Prop) => P (.frameEgress i k h data words) ∧ (∀ e, P (.frameDrover i k h data words e)) ∧
      (∀ e, P (.frameFabric i k h data words e)) ∧ (∀ ecc errs, words = 0 → P (.stileMemRead i k h ecc errs)) ∧
      P (.stileMemWrite i k h data words) ∧ (∀ ecc, P (.memAdd i k h data words ecc))
    let whole := fun (l : List Byte) => l.length = len ∧ ∀ j, j < len → l[j]? = some (dataByte data j)
    (¬ sends → all fun c => Does c d d) ∧
    (sends → headerOk h words →
      (op = 0 → ∃ d', Does (.frameEgress i k h data words) d d' ∧ sent d' ∧ d'.mem = d.mem ∧ ∃ e : EgReq, e.stream = target ∧
        whole e.bytes ∧ e.tsTo = (if v.testBit 4 then some (96 + 2 * (i : Nat) + k, tag) else none) ∧
        e.index = (if v.testBit 5 then some (part v 128 64) else none) ∧
        e.elig = (if v.testBit 6 then some (rawToBeads (part v 192 96)) else none) ∧
        tget [] d'.med.egrIn (part v 22 1) = tget [] d.med.egrIn (part v 22 1) ++ [e]) ∧
      (op = 1 → ∀ e, ∃ d', Does (.frameDrover i k h data words e) d d' ∧ sent d' ∧ d'.mem = d.mem ∧ ∃ r : RxFrame,
        whole r.frame.bytes ∧ r.err = (v.testBit 7 || e) ∧ arriving d' (target % 128) = arriving d (target % 128) ++ [r]) ∧
      (op = 2 → ∀ e, ∃ d', Does (.frameFabric i k h data words e) d d' ∧ sent d' ∧ d'.mem = d.mem ∧ ∃ r : RxFrame,
        whole r.frame.bytes ∧ r.err = (v.testBit 7 || e) ∧
        tget [] d'.med.fabIn (2 * (target % 64) + target / 64 % 2) = tget [] d.med.fabIn (2 * (target % 64) + target / 64 % 2) ++ [r]) ∧
      (∀ g, inOneDroveMemory a len g →
        let answered := fun (d' : Dev) (st : Nat) (l : List Byte) => sent d' ∧
          answers d' i k = answers d i k ++ [{ kind := op - 3, status := st, tag := tag, data := l }]
        (d.island (64 + g) = 0 →
          (op = 3 → ∃ d', Does (.stileMemRead i k h 0 []) d d' ∧ answered d' 0 (d.bytes a len) ∧ d'.mem = d.mem) ∧
          (op = 4 → ∃ d', Does (.stileMemWrite i k h data words) d d' ∧ answered d' 0 [] ∧
            ∀ b, d'.byte b = if a ≤ b ∧ b < a + len then dataByte data (b - a) else d.byte b) ∧
          (op = 5 → ∃ d', Does (.memAdd i k h data words 0) d d' ∧ answered d' 0 [] ∧
            (∀ b, b < a ∨ a + len ≤ b → d'.byte b = d.byte b) ∧
            ∀ j, 8 * j < len → BitVec.ofNat 64 (d'.load (a + 8 * j) 8) = addSat (BitVec.ofNat 64 (d.load (a + 8 * j) 8))
              (BitVec.ofNat 64 (ofLe ((List.range 8).map fun b => dataByte data (8 * j + b)))))) ∧
        (d.island (64 + g) ≠ 0 →
          (op = 3 → ∃ d', Does (.stileMemRead i k h 0 []) d d' ∧ answered d' 3 [] ∧ d'.mem = d.mem) ∧
          (op = 4 → ∃ d', Does (.stileMemWrite i k h data words) d d' ∧ answered d' 3 [] ∧ d'.mem = d.mem) ∧
          (op = 5 → ∃ d', Does (.memAdd i k h data words 0) d d' ∧ answered d' 3 [] ∧ d'.mem = d.mem)))) ∧
    (sends → (len < 64 ∨ part v 23 9 ≠ 0) →
      let bad := fun (c : Instr) (l : List FabResp) => ∃ d', Does c d d' ∧ sent d' ∧ d'.med = d.med ∧ d'.mem = d.mem ∧
        answers d' i k = answers d i k ++ l ∧
        d'.rd R.FAB_ISL_STILE_bad [i] = min (2 ^ 16 - 1) (d.rd R.FAB_ISL_STILE_bad [i] + 1)
      (op = 0 ∨ 6 ≤ op → bad (.frameEgress i k h data words)
        (if op = 0 ∧ v.testBit 4 = true then [{ kind := 3, status := 0, tag := tag, dropped := true }] else [])) ∧
      (op = 1 → ∀ e, bad (.frameDrover i k h data words e) []) ∧ (op = 2 → ∀ e, bad (.frameFabric i k h data words e) []) ∧
      (op = 3 → words = 0 → bad (.stileMemRead i k h 0 []) [{ kind := 0, status := 1, tag := tag }]) ∧
      (op = 4 → bad (.stileMemWrite i k h data words) [{ kind := 1, status := 1, tag := tag }]) ∧
      (op = 5 → bad (.memAdd i k h data words 0) [{ kind := 2, status := 1, tag := tag }]))

/-- R271, R276, R280, R282, R283, R294, R295, R299, R288, R449, R23, Table 08-3. -/
def Obligations.FabricControl : Prop :=
  ∀ d, On d → ∀ i : Fin 64,
    let off := d.island i ≠ 0
    let state := d.rd R.FAB_ISL_STAT_state [i]
    let x := d.fabIsl i
    (∀ (inp : Fin 101) (mid : BitVec 2),
      (off → Does (.fabUreset inp i mid) d (said d inp 2 0)) ∧
      (¬ off → (state = 1 ∨ state = 3) → Does (.fabUreset inp i mid) d (said d inp 27 0)) ∧
      (¬ off → state ≠ 1 → state ≠ 3 → ∃ d', Does (.fabUreset inp i mid) d d' ∧ d'.fabIsl i = { x with ureset := true, reset := true } ∧
        d'.out = .access inp 0 0 :: d.out ∧ d'.mem = d.mem ∧
        (mid = 0 → d'.regs = d.regs) ∧
        (mid ≠ 0 → d'.rd R.FAB_ISL_STILE_trunc [i] = min (2 ^ 16 - 1) (d.rd R.FAB_ISL_STILE_trunc [i] + if mid = 3 then 2 else 1)))) ∧
    (x.ureset = false → Does (.uresetRelease i) d d) ∧
    (x.ureset = true → ∃ d', Does (.uresetRelease i) d d' ∧ d'.fabIsl i = { x with ureset := false, reset := false } ∧
      d'.regs = d.regs ∧ d'.mem = d.mem ∧ d'.out = d.out) ∧
    (∀ (inp : Fin 101) (desc : Bool) (v : BitVec 32),
      (off → Does (.clkselWrite inp desc i v) d (said d inp 2 0)) ∧
      (¬ off → d.locked ⟨inp, desc⟩ = true → Does (.clkselWrite inp desc i v) d ((said d inp 4 0).raise 3 (inp + 1024))) ∧
      (¬ off → d.locked ⟨inp, desc⟩ = false →
        Does (.clkselWrite inp desc i v) d (said (d.wr R.FAB_ISL_CLKSEL_src [i] v.toNat) inp 0 0))) ∧
    (∀ k : Fin 2,
      let key := 2 * (i : Nat) + k
      let gone := (i : Nat) ∈ d.tmo
      let takes := d.fabRuns i = true ∧ hasBit d R.FAB_ISL_STILE_frozen [i] k = false
      let counts := fun (d' : Dev) (n : Nat) => d'.rd R.FAB_ISL_WCNT_words_in [i] = (d.rd R.FAB_ISL_WCNT_words_in [i] + n) % 2 ^ 64
      (tget [] d.med.fabIn key = [] → Does (.fabricFrameIn i k) d d) ∧
      (∀ r rest, tget [] d.med.fabIn key = r :: rest →
        let popped := { d with med := { d.med with fabIn := tset [] d.med.fabIn key rest } }
        (off → Does (.fabricFrameIn i k) d (if gone then popped else d)) ∧
        (¬ off → ¬ takes → Does (.fabricFrameIn i k) d d) ∧
        (takes → ∃ d' w, Does (.fabricFrameIn i k) d d' ∧ d'.out = .stile i k 2 w r.frame.bytes :: d.out ∧
          counts d' (1 + (r.frame.bytes.length + 63) / 64) ∧ tget [] d'.med.fabIn key = rest ∧ d'.mem = d.mem)) ∧
      (answers d i k = [] → Does (.stileResponse i k) d d) ∧
      (∀ r rest, answers d i k = r :: rest →
        let popped := { d with fab := { d.fab with resp := tset [] d.fab.resp key rest } }
        (off → Does (.stileResponse i k) d (if gone then popped else d)) ∧
        (¬ off → ¬ takes → Does (.stileResponse i k) d d) ∧
        (takes → ∃ d' w, Does (.stileResponse i k) d d' ∧ d'.out = .stile i k 3 w r.data :: d.out ∧
          w % 16 = r.kind % 16 ∧ (r.kind < 16 → r.status < 2 ^ 28 → r.kind ≠ 3 → w = r.kind + 16 * r.status + 2 ^ 32 * (r.tag % 2 ^ 16)) ∧
          counts d' (1 + r.data.length / 64) ∧ answers d' i k = rest ∧ d'.mem = d.mem))) ∧
    (let seen := hasBit d R.FAB_USER_EVT_evt [] i = true
     (d.fabRuns i = false ∨ seen → Does (.fabUserEvent i) d d) ∧
     (d.fabRuns i = true → ¬ seen → ∃ d', Does (.fabUserEvent i) d d' ∧ hasBit d' R.FAB_USER_EVT_evt [] i = true ∧ d'.mem = d.mem ∧
       (hasBit d R.FAB_USER_EVT_EN_en [] i = true → pends d' 248) ∧
       (hasBit d R.FAB_USER_EVT_EN_en [] i = false → d'.evt = d.evt))) ∧
    (∀ (g : Fin 40) (two : Bool),
      (d.fabRuns i = false ∨ x.gran = false → Does (.granaryEccRead i g two) d d) ∧
      (d.fabRuns i = true → x.gran = true → d.bst.slices = [] → ∃ d', Does (.granaryEccRead i g two) d d' ∧
        d'.rd R.FAB_ISL_ECC_granary [i] = g ∧ d'.rd R.FAB_ISL_ECC_uncorr [i] = (if two then 1 else 0) ∧
        d'.rd R.FAB_ISL_ECC_valid [i] = 1 ∧ pends d' 249 ∧ d'.mem = d.mem ∧
        (two = true → d'.rd R.FAB_ISL_ECC_corr [i] = d.rd R.FAB_ISL_ECC_corr [i]) ∧
        (two = false → d'.rd R.FAB_ISL_ECC_uncorr_count [i] = d.rd R.FAB_ISL_ECC_uncorr_count [i])))

namespace Sys2Proof.Claims

/-- The state of the configuration unit: 0 to 4. -/
def unitState (d : Dev) : Nat := d.rd R.CFG_STATUS_state

/-- A load has failed with a code and nothing falls back: FAILED, the fabric flag clear, CFG_FAILED raised. -/
def loadFails (d' : Dev) (code : Nat) : Prop :=
  unitState d' = 4 ∧ d'.rd R.CFG_STATUS_result = code ∧ d'.rd R.SYS_READY_fabric = 0 ∧ d'.cfg.load = 0 ∧ pends d' 251

/-- The golden image's load has begun in place of one that failed with a code (R322). -/
def fallsBack (d' : Dev) (code : Nat) : Prop :=
  unitState d' = 1 ∧ d'.rd R.CFG_STATUS_src = 2 ∧ d'.rd R.CFG_STATUS_fallback = 1 ∧ d'.rd R.CFG_STATUS_boot_result = code ∧
    d'.cfg.golden = true ∧ pends d' 252

/-- Cycles from the pacing edge to start-up phase `k`, never before an earlier phase's (R334). -/
def phaseAt (d : Dev) (k : Nat) : Nat := ((List.range k).map fun j => part (d.rd R.CFG_PHASE_phase) (16 * j) 16).foldl max 0

/-- What start-up phase `k` does to an island of the image's mask (Table 09-7). -/
def phaseIsl (k : Nat) (x : FabIsl) : FabIsl :=
  if k = 1 then { x with clk := true } else if k = 2 then { x with gran := true } else if k = 3 then { x with reset := x.ureset }
  else if k = 5 then { x with ports := true } else x

/-- An access completes with a status. -/
def tells (d d' : Dev) (inp st : Nat) : Prop := d'.out = .access inp st 0 :: d.out

/-- State, result of a reconfiguration slot. -/
def slotIs (d : Dev) (k st result : Nat) : Prop := d.rd R.CFG_PR_STAT_state [k] = st ∧ d.rd R.CFG_PR_STAT_result [k] = result

end Sys2Proof.Claims

/-- R319 to R322, R325, R329, R330, R332 to R334, R337, Table 09-7. -/
def Obligations.LoadsAndStartUp : Prop :=
  ∀ d, On d →
    let src := d.rd R.CFG_STATUS_src
    let st := unitState d
    let c := d.cfg
    let x := c.slave
    let own := c.load = 1 ∨ c.load = 2
    let back := c.fb = true ∧ c.golden = false
    (∀ bad, (¬ own ∨ d.loadNow bad = none) → Does (.loadDone bad) d d) ∧
    (∀ bad img r, own → d.loadNow bad = some (img, r) →
      (r.code ≠ 0 → r.code < 16 → ∃ d', Does (.loadDone bad) d d' ∧ (back → fallsBack d' r.code) ∧ (¬ back → loadFails d' r.code)) ∧
      (r.code = 0 → ∃ d', Does (.loadDone bad) d d' ∧ unitState d' = 2 ∧ d'.rd R.CFG_STATUS_result = 0 ∧ d'.cfg.flockLow = false ∧
        d'.rd R.CFG_LOAD_LOG_bytes = hLen img % 2 ^ 32 ∧
        (∀ a b, r.recs = [a, b] → a.type = 1 → b.type = 7 → ∀ j, 256 * (j + 1) ≤ a.data.length →
          tget 0 d'.cfg.frames (a.target + j) = ofLe ((a.data.drop (256 * j)).take 256)))) ∧
    (let slaves := st = 1 ∧ (src = 3 ∨ src = 4)
     let wanted := if 20 ≤ x.got.length then hLen x.got.reverse else 2 ^ 32
     let due := slaves ∧ x.synced = true ∧ x.got.length < wanted ∧ x.at_ + max 1 (d.rd R.CFG_SLV_TMO_tmo_ms) * millis ≤ d.clock
     (src < 5 → ¬ due → Does .slaveTimeout d d) ∧
     (due → own → ∃ d', Does .slaveTimeout d d' ∧ (back → fallsBack d' 7) ∧ (¬ back → loadFails d' 7)) ∧
     (∀ (v : BitVec 32) (n : Nat) (b : Bool),
       (st ≠ 1 ∨ src < 3 ∨ src = 5 ∨ x.ready = false → Does (.cfgClkEdge v n b) d d) ∧
       (slaves → x.ready = true → x.beyond = false → x.synced = true → 20 ≤ x.got.length →
         let took := fun (l : List Byte) (nib : Option Nat) => ∃ d', Does (.cfgClkEdge v n b) d d' ∧ d'.cfg.slave.got = l ++ x.got ∧
           d'.cfg.slave.nib = nib ∧ d'.cfg.slave.fifo = x.fifo - n + l.length ∧ d'.regs = d.regs ∧ d'.mem = d.mem
         (src = 3 → x.nib = none → took [] (some (v.toNat % 16))) ∧
         (∀ hi, src = 3 → x.nib = some hi → x.got.length < wanted → x.fifo - n < 65536 →
           took [BitVec.ofNat 8 (16 * hi + v.toNat % 16)] none) ∧
         (src = 4 → x.got.length + 4 ≤ wanted → x.fifo - n + 4 ≤ 65536 →
           took [v.extractLsb' 24 8, v.extractLsb' 16 8, v.extractLsb' 8 8, v.extractLsb' 0 8] x.nib) ∧
         (src = 4 → x.got.length < wanted → 65536 ≤ x.fifo - n → own → ∃ d', Does (.cfgClkEdge v n b) d d' ∧
           (back → fallsBack d' 7) ∧ (¬ back → loadFails d' 7))))) ∧
    (let goes := st = 2 ∧ c.flockLow = false ∧ c.seenHigh = false ∧ c.load ≠ 3
     (¬ goes → Does .flockDoneHigh d d) ∧
     (goes → Does .flockDoneHigh d { d.wr R.CFG_STATUS_done_in [] 1 with cfg := { c with seenHigh := true, seenAt := d.clock + 1 } })) ∧
    (let paced := fun (d' : Dev) => d'.cfg.pacedAt = d.clock + 1 ∧ d'.mem = d.mem ∧ d'.rd R.CFG_STATUS_phase = d.rd R.CFG_STATUS_phase
     let bell := d.rd R.CFG_STATUS_bell ≠ 0
     let due := st = 2 ∧ c.seenAt ≠ 0 ∧ c.pacedAt = 0 ∧ c.pulsed = false ∧
       c.seenAt + d.rd R.CFG_PHASE_bell_wait * 655360 ≤ d.clock + 1
     let edge := st = 2 ∧ c.load = 1 ∧ c.seenHigh = true ∧ c.pacedAt = 0 ∧ (bell → c.pulsed = true)
     (¬ due → Does .bellWaitExpire d d) ∧
     (due → c.load = 1 → Does .bellWaitExpire d
       (if bell then { d with out := .flock false :: .flock true :: d.out, cfg := { c with pulsed := true } } else d)) ∧
     (due → c.load ≠ 1 → phaseAt d 1 ≠ 0 → ∃ d', Does .bellWaitExpire d d' ∧ paced d') ∧
     (¬ edge → Does .pacingEdge d d) ∧
     (edge → phaseAt d 1 ≠ 0 → ∃ d', Does .pacingEdge d d' ∧ paced d')) ∧
    (let k := d.rd R.CFG_STATUS_phase + 1
     let due := st = 2 ∧ c.pacedAt ≠ 0 ∧ k ≤ 8 ∧ c.pacedAt + phaseAt d k * 655360 ≤ d.clock + 1
     (¬ due → Does .startupPhase d d) ∧
     (due → k < 8 → phaseAt d (k + 1) ≠ phaseAt d k → ∃ d', Does .startupPhase d d' ∧ d'.rd R.CFG_STATUS_phase = k ∧ unitState d' = 2 ∧
       d'.mem = d.mem ∧ (d'.cfg.io = if k = 4 then true else c.io) ∧ (d'.cfg.shep = if k = 7 then true else c.shep) ∧
       ∀ i, i < 64 → d'.fabIsl i = if c.mask.testBit i then phaseIsl k (d.fabIsl i) else d.fabIsl i) ∧
     (due → k = 8 → c.load ≠ 3 → ∃ d', Does .startupPhase d d' ∧ d'.rd R.CFG_STATUS_phase = 8 ∧ unitState d' = 3 ∧
       d'.rd R.SYS_READY_fabric = 1 ∧ d'.cfg.load = 0 ∧ pends d' 250 ∧ d'.mem = d.mem ∧
       ∀ i, i < 64 → d'.rd R.FAB_ISL_STAT_state [i] = if c.mask.testBit i then 2 else 4)) ∧
    (∀ (inp : Fin 101) (desc : Bool) (v : BitVec 3),
      let go := Instr.reload inp desc v
      (d.island 102 ≠ 0 → Does go d (said d inp 2 0)) ∧
      (d.island 102 = 0 → d.locked ⟨inp, desc⟩ = false →
        (st ≠ 3 → st ≠ 4 → Does go d (said (d.wr R.CFG_CMD_src [] v.toNat) inp 27 0)) ∧
        (st = 3 ∨ st = 4 → ∃ d', Does go d d' ∧ unitState d' = 1 ∧ d'.cfg.load = 2 ∧ d'.cfg.flockLow = true ∧ d'.cfg.frames = [] ∧
          d'.rd R.SYS_READY_fabric = 0 ∧ (1 ≤ v.toNat → v.toNat ≤ 5 → d'.rd R.CFG_STATUS_src = v.toNat - 1) ∧
          (∀ i : Fin 64, d'.rd R.FAB_ISL_STAT_state [i] = 0))))

/-- R338 to R348, Tables 09-8 and 09-9. -/
def Obligations.PartialReconfiguration : Prop :=
  ∀ d, On d → ∀ k : Fin 4,
    let st := d.rd R.CFG_PR_STAT_state [k]
    let x := d.prSlot k
    let off := d.island 102 ≠ 0
    let failed := fun (d' : Dev) (code : Nat) => slotIs d' k 7 code ∧ pends d' 254
    (∀ (inp : Fin 101) (desc : Bool),
      (∀ (nv : Bool) (a : BitVec 38), let go := Instr.stage inp desc k nv a
        (off → Does go d (said d inp 2 0)) ∧
        (¬ off → d.locked ⟨inp, desc⟩ = false →
          (st ≠ 0 → ∃ d', Does go d d' ∧ tells d d' inp 27 ∧ slotIs d' k st 12 ∧ d'.cfg = d.cfg ∧ d'.mem = d.mem) ∧
          (st = 0 → d.rd R.SYS_READY_ddr_ecc = 0 → ∃ d', Does go d d' ∧ tells d d' inp 0 ∧ failed d' 14 ∧ d'.cfg = d.cfg) ∧
          (st = 0 → d.rd R.SYS_READY_ddr_ecc ≠ 0 → ∃ d', Does go d d' ∧ tells d d' inp 0 ∧ slotIs d' k 1 0 ∧ d'.mem = d.mem ∧
            d'.prSlot k = { base := if nv then some a.toNat else none, from_ := a.toNat }))) ∧
      (∀ (mv : Bool) (t s : BitVec 6) (at_ : BitVec 96), let go := Instr.apply inp desc k mv t s at_
        (off → Does go d (said d inp 2 0)) ∧
        (¬ off → d.locked ⟨inp, desc⟩ = false →
          (st ≠ 2 → ∃ d', Does go d d' ∧ tells d d' inp 27 ∧ d'.rd R.CFG_PR_STAT_state [k] = st ∧ d'.cfg = d.cfg) ∧
          (st = 2 → ∃ d', Does go d d' ∧ tells d d' inp 0 ∧ d'.rd R.CFG_PR_STAT_state [k] = 3 ∧ d'.mem = d.mem ∧
            let due := rawToBeads at_.toNat
            d'.rd R.CFG_PR_STAT_late [k] = (if at_ ≠ 0 ∧ due < d.now then 1 else 0) ∧
            d'.prSlot k = { x with target := t.toNat, source := s.toNat, move := mv, at_ := max d.now (if at_ = 0 then 0 else due),
                                   startAt := if mv then d.now else max d.now (if at_ = 0 then 0 else due) }))) ∧
      (off → Does (.releaseSrc inp k) d (said d inp 2 0) ∧ Does (.abort inp k) d (said d inp 2 0) ∧ Does (.clear inp k) d (said d inp 2 0)) ∧
      (¬ off →
        (st ≠ 5 → Does (.releaseSrc inp k) d (said d inp 27 0)) ∧ (st ≠ 1 → st ≠ 3 → Does (.abort inp k) d (said d inp 27 0)) ∧
        (st ≠ 6 → st ≠ 7 → Does (.clear inp k) d (said d inp 27 0)) ∧
        (st = 5 → x.source < 64 → ∃ d', Does (.releaseSrc inp k) d d' ∧ tells d d' inp 0 ∧ slotIs d' k 6 0 ∧ d'.island x.source = 1 ∧
          d'.rd R.FAB_ISL_STAT_state [x.source] = 4 ∧ d'.rd R.FAB_ISL_STILE_frozen [x.source] = 0 ∧ d'.mem = d.mem ∧
          ∀ f, tget 0 d'.cfg.frames f = if f / 4096 = x.source then 0 else tget 0 d.cfg.frames f) ∧
        (st = 1 ∨ st = 3 → ∃ d', Does (.abort inp k) d d' ∧ tells d d' inp 0 ∧ failed d' 15 ∧ d'.cfg = d.cfg ∧ d'.mem = d.mem) ∧
        (st = 6 ∨ st = 7 → ∃ d', Does (.clear inp k) d d' ∧ tells d d' inp 0 ∧ d'.rd R.CFG_PR_STAT_state [k] = 0 ∧ d'.prSlot k = {} ∧
          d'.mem = d.mem))) ∧
    (∀ bad, st ≠ 1 → Does (.stageDone k bad) d d) ∧
    (st = 1 → x.base = none →
      let img := (d.stageBytes x).1
      let r := d.evalLoad true img (d.stageBytes x).2 ((d.stageBadLine x.from_).map fun o => (o, 5)) true
      (r.code ≠ 0 → r.code < 16 → ∃ d', Does (.stageDone k none) d d' ∧ failed d' r.code ∧ d'.mem = d.mem) ∧
      (r.code = 0 → ∃ d', Does (.stageDone k none) d d' ∧ slotIs d' k 2 0 ∧ d'.mem = d.mem ∧
        d'.prSlot k = { x with hdr := img.take 4096, recs := r.recs, keys := r.keys } ∧
        d'.rd R.CFG_PR_STAT_island [k] = hIsland img % 64 ∧ d'.rd R.CFG_PR_STAT_sect [k] = hSect img % 256)) ∧
    (let waits := fun (j : Nat) => j < 4 ∧ d.rd R.CFG_PR_STAT_state [j] = 3 ∧ (d.prSlot j).startAt ≤ d.now
     let applying := ∃ j, j < 4 ∧ d.rd R.CFG_PR_STAT_state [j] = 4
     (applying ∨ (∀ j, ¬ waits j) → Does .applyStart d d) ∧
     (¬ applying → waits k → (∀ j, waits j → j ≠ (k : Nat) → x.startAt < (d.prSlot j).startAt) → x.target < 64 →
       let code := d.applyCheck x
       (code ≠ 0 → ∃ d', Does .applyStart d d' ∧ failed d' code ∧ d'.cfg = d.cfg ∧ d'.mem = d.mem) ∧
       (code = 0 → x.move = true → ∃ d', Does .applyStart d d' ∧ d'.rd R.CFG_PR_STAT_state [k] = 4 ∧ d'.island x.target = 0 ∧
         d'.rd R.FAB_ISL_STAT_state [x.target] = 1 ∧ d'.rd R.FAB_ISL_STILE_frozen [x.target] = 15 ∧ d'.mem = d.mem) ∧
       (code = 0 → x.move = false → ∃ d', Does .applyStart d d' ∧ d'.rd R.CFG_PR_STAT_state [k] = 4 ∧
         d'.rd R.FAB_ISL_STAT_state [x.target] = 3 ∧ d'.rd R.FAB_ISL_STAT_sect_rcfg [x.target] = hSect x.hdr % 256 ∧
         (hSect x.hdr % 2 = 1 → d'.rd R.FAB_ISL_STILE_frozen [x.target] = 15) ∧ d'.mem = d.mem))) ∧
    (∀ (freeze : BitVec 32) (bad : Bool), let go := Instr.applyDone k freeze bad
      (st ≠ 4 → Does go d d) ∧
      (st = 4 → x.target < 64 → x.source < 64 →
        (bad = true → ∃ d', Does go d d' ∧ failed d' 5 ∧ d'.rd R.FAB_ISL_STAT_state [x.target] = 0 ∧ d'.island x.target = 1 ∧
          d'.mem = d.mem ∧ ∀ f, tget 0 d'.cfg.frames f = if f / 4096 = x.target ∧
            (x.move = true ∨ (hSect x.hdr).testBit (f % 4096 / 512) = true) then 0 else tget 0 d.cfg.frames f) ∧
        (bad = false → x.move = true → d.now < x.at_ → Does go d d) ∧
        (bad = false → (x.move = false ∨ x.at_ ≤ d.now) → ∃ d', Does go d d' ∧ slotIs d' k (if x.move then 5 else 6) 0 ∧
          d'.rd R.CFG_PR_STAT_freeze_ns [k] = freeze.toNat ∧ d'.rd R.FAB_ISL_STAT_state [x.target] = 2 ∧
          d'.rd R.FAB_ISL_STILE_frozen [x.target] = 0 ∧ d'.fabIsl x.target = { clk := true, reset := false, gran := true, ports := true } ∧
          pends d' 253 ∧
          (x.move = true → x.source ≠ x.target → (∀ r ∈ x.recs, r.type ≠ 6) →
            d'.rd R.FAB_ISL_STAT_state [x.source] = 3 ∧ d'.rd R.FAB_ISL_STILE_frozen [x.source] = 15))))

/-- R349 to R354, Table 09-10. -/
def Obligations.ReadbackAndShepherd : Prop :=
  ∀ d, On d → d.bst.slices = [] →
    let off := d.island 102 ≠ 0
    let may := d.mayReadBack = true
    (∀ (inp : Fin 101) (f : BitVec 18) (i c : BitVec 6),
      let shows := fun (go : Instr) (st : Nat) (v : Nat) => ∃ d', Does go d d' ∧ tells d d' inp 0 ∧ d'.rd R.CFG_RB_CMD_status = st ∧
        d'.rd R.CFG_RB_DATA_data = v ∧ d'.mem = d.mem ∧ d'.cfg = d.cfg
      (off → Does (.frameReadback inp f) d (said d inp 2 0) ∧ Does (.snap inp i) d (said d inp 2 0) ∧ Does (.snapRead inp c) d (said d inp 2 0)) ∧
      (¬ off → ¬ may → shows (.frameReadback inp f) 1 0 ∧ shows (.snap inp i) 1 0 ∧ shows (.snapRead inp c) 1 0) ∧
      (¬ off → may →
        (f.toNat ∉ d.cfg.bad → shows (.frameReadback inp f) 0 (tget 0 d.cfg.frames f.toNat % 2 ^ 2048)) ∧
        (f.toNat ∈ d.cfg.bad → ∃ d', Does (.frameReadback inp f) d d' ∧ tells d d' inp 0 ∧ d'.rd R.CFG_RB_CMD_status = 2 ∧ d'.cfg = d.cfg) ∧
        (d.rd R.FAB_ISL_STAT_state [i.toNat] ≠ 2 → ∃ d', Does (.snap inp i) d d' ∧ tells d d' inp 0 ∧ d'.rd R.CFG_RB_CMD_status = 3 ∧ d'.cfg = d.cfg) ∧
        (d.rd R.FAB_ISL_STAT_state [i.toNat] = 2 → ∃ d', Does (.snap inp i) d d' ∧ tells d d' inp 0 ∧ d'.rd R.CFG_RB_CMD_status = 0 ∧
          d'.cfg = { d.cfg with snap := d'.cfg.snap } ∧ d'.cfg.snap < 2 ^ 76800) ∧
        shows (.snapRead inp c) 0 (d.cfg.snap / 2 ^ (2048 * c.toNat) % 2 ^ 2048))) ∧
    (let runs := d.cfg.shep = true ∧ d.rd R.CFG_SCRUB_CFG_en ≠ 0 ∧ d.cfg.shepWait = none ∧ unitState d = 3
     let onward := fun (d' : Dev) (f : Nat) => d'.cfg.shepNext = if (d.shepFrame (f + 1)).isSome then f + 1 else 0
     let logged := fun (d' : Dev) (f kind : Nat) => d'.rd R.CFG_SCRUB_LOG_frame = f % 2 ^ 18 ∧ d'.rd R.CFG_SCRUB_LOG_kind = kind ∧
       d'.rd R.CFG_SCRUB_LOG_valid = 1
     (∀ err, ¬ runs ∨ d.shepFrame d.cfg.shepNext = none → Does (.shepherdFrameRead err) d d) ∧
     (∀ f, runs → d.shepFrame d.cfg.shepNext = some f →
       (f ∉ d.cfg.bad → ∃ d', Does (.shepherdFrameRead 0) d d' ∧ onward d' f ∧ d'.cfg.frames = d.cfg.frames ∧ d'.cfg.bad = d.cfg.bad ∧ d'.mem = d.mem) ∧
       (f ∉ d.cfg.bad → ∃ d', Does (.shepherdFrameRead 1) d d' ∧ onward d' f ∧ d'.cfg.frames = d.cfg.frames ∧ logged d' f 1 ∧
         (d.cfg.shepCorr = false → pends d' 255) ∧
         d'.rd R.CFG_SCRUB_STAT_corrected = (d.rd R.CFG_SCRUB_STAT_corrected + 1) % 2 ^ 32) ∧
       (∀ s, tget none d.cfg.src f = some s → ∃ d', Does (.shepherdFrameRead 2) d d' ∧ f ∈ d'.cfg.bad ∧ d'.cfg.shepWait = some f ∧
         d'.cfg.shepNext = f + 1 ∧ d'.regs = d.regs ∧ d'.mem = d.mem) ∧
       (tget none d.cfg.src f = none → ∃ d', Does (.shepherdFrameRead 2) d d' ∧ f ∈ d'.cfg.bad ∧ onward d' f ∧ logged d' f 3 ∧ pends d' 257 ∧
         (d.rd R.CFG_SCRUB_CFG_fatal_act ≠ 0 → f / 512 ∈ d'.cfg.stopped)))) ∧
    (∀ find : NvFind,
      (d.cfg.shepWait = none → Does (.shepherdReload find) d d) ∧
      (∀ f s, d.cfg.shepWait = some f → tget none d.cfg.src f = some s →
        let data := decryptFrom (d.cfg.keys.getD s.seg ⟨0, 0, false⟩) s.blk (d.bytes s.addr 256)
        let same := crc32c data = crc32c (leBytes 256 (tget 0 d.cfg.frames f))
        (d.nvBusy (bankOf s.addr) = true → Does (.shepherdReload find) d d) ∧
        (d.nvBusy (bankOf s.addr) = false → find.first.isSome = true →
          (same → ∃ d', Does (.shepherdReload find) d d' ∧ d'.cfg.shepWait = none ∧ tget 0 d'.cfg.frames f = ofLe data ∧
            f ∉ d'.cfg.bad ∧ pends d' 256 ∧ d'.rd R.CFG_SCRUB_LOG_kind = 2 ∧ d'.mem = d.mem) ∧
          (¬ same → ∃ d', Does (.shepherdReload find) d d' ∧ d'.cfg.shepWait = none ∧ d'.cfg.frames = d.cfg.frames ∧
            d'.rd R.CFG_SCRUB_LOG_kind = 3 ∧ pends d' 257))))

namespace Sys2Proof.Claims

/-- First address of NV bank `b`; bank, row and sector of an array address (R34, Table 10-2). -/
def bankAt (b : Nat) : Nat := 0x10000000 + b * 2 ^ 27
def bankIn (a : Nat) : Nat := (a - 0x10000000) / 2 ^ 27
def rowIn (a : Nat) : Nat := (a - 0x10000000) % 2 ^ 27 / 2 ^ 14
def sectorIn (a : Nat) : Nat := (a - 0x10000000) % 2 ^ 27 / 2 ^ 18

/-- The status word of bank `b` (Table 10-4). -/
def bankStatus (d : Dev) (b : Nat) : Nat := d.rd R.NVC_BANK_STAT_status [b]
def bankBusy (d : Dev) (b : Nat) : Prop := bankStatus d b % 2 = 1

/-- A status word: busy, op, result, pulses, sector, owner. -/
def statusWord (busy op result pulses sector owner : Nat) : Nat :=
  busy + 2 * op + 8 * result + 64 * pulses + 1024 * sector + 2 ^ 19 * owner + 2 ^ 32 * 0x4E565354

/-- A write of an input's sequence: address `a` of the array, `l` its bytes, the state it finds and its bank. -/
structure SeqWrite where
  inp : Fin 101
  a : BitVec 38
  l : List Byte
  st : Nat
  b : Nat

def seqAt (d : Dev) (w : SeqWrite) : Prop :=
  d.island 102 = 0 ∧ 0x10000000 ≤ w.a.toNat ∧ w.a.toNat < 0x2F000000 ∧ bankIn w.a.toNat = w.b ∧
    d.rd R.NVC_REQ_SEQ_state [w.inp] = w.st ∧ (w.st ≠ 0 → d.rd R.NVC_REQ_SEQ_bank [w.inp] = w.b)

/-- It is accepted: the sequence stands in state `st'`, memory is as before, the write completes. -/
def seqTo (c : Instr) (d : Dev) (w : SeqWrite) (st' : Nat) (more : Dev → Prop) : Prop :=
  ∃ d', Does c d d' ∧ d'.rd R.NVC_REQ_SEQ_state [w.inp] = st' ∧ tells d d' w.inp 0 ∧ d'.mem = d.mem ∧ more d'

end Sys2Proof.Claims

/-- R363, R365 to R373, R376, Table 10-4. -/
def Obligations.NvSequences : Prop :=
  ∀ d, On d →
    (∀ (inp : Fin 101) (a : BitVec 38) (len : Fin 65) (f : NvFind), let go := Instr.nvDataRead inp a len f
      let b := bankIn a.toNat
      (0x2F000000 ≤ a.toNat → a.toNat < 0x30000000 → Does go d ((said d inp 1 0).raise 3 (inp + 256))) ∧
      (0x10000000 ≤ a.toNat → a.toNat < 0x2F000000 →
        (d.island 102 ≠ 0 → Does go d (said d inp 2 0)) ∧
        (d.island 102 = 0 → bankIn (a.toNat + len) = b → tget 0 d.nvc.statNext inp ≠ b + 1 →
          (bankBusy d b → ∃ d' v, Does go d d' ∧ d'.out = .access inp 8 v :: d.out ∧ d'.mem = d.mem ∧
            ∀ j, j < (len : Nat) → v / 256 ^ j % 256 = bankStatus d b / 256 ^ ((a.toNat + j) % 8) % 256) ∧
          (¬ bankBusy d b → d.rd R.NVC_REQ_SEQ_rmode [inp] = 0 → f.first.isSome = true →
            ∃ d', Does go d d' ∧ d'.out = .access inp 0 (d.load a.toNat len) :: d.out ∧ d'.mem = d.mem)))) ∧
    (∀ w : SeqWrite, seqAt d w →
      let own := d.rd R.NVC_BUF_OWN_valid [w.b] = 0 ∨ d.rd R.NVC_BUF_OWN_owner [w.b] = w.inp
      let at1 := w.a.toNat = bankAt w.b + 0xAAA8
      let at2 := w.a.toNat = bankAt w.b + 0x5554
      let fixed := tget false d.nvc.rowSet w.b
      let goes := fun (c : Fin 101 → BitVec 38 → List Byte → Instr) => seqTo (c w.inp w.a w.l) d w
      let started := fun (kind unit sector : Nat) (buf : Table Byte) (d' : Dev) =>
        bankStatus d' w.b = statusWord 1 kind 0 0 sector w.inp ∧ d'.rd R.NVC_REQ_SEQ_result [w.inp] = 0 ∧
        tget none d'.nvc.op w.b =
          some ⟨kind, unit, hasBit d R.NVC_WP_prot [(512 * w.b + sector) / 64] ((512 * w.b + sector) % 64), buf⟩
      let refused := fun (c : Instr) => ∃ d', Does c d d' ∧ d'.rd R.NVC_REQ_SEQ_state [w.inp] = 0 ∧
        d'.rd R.NVC_REQ_SEQ_result [w.inp] = 3 ∧ tells d d' w.inp 8 ∧ d'.mem = d.mem ∧ d'.nvc.op = d.nvc.op
      (w.st = 0 ∨ w.st = 6 → w.l = [0x5A] → at1 → goes .nvPrefix 1 fun d' => d'.rd R.NVC_REQ_SEQ_bank [w.inp] = w.b) ∧
      (w.st = 1 → w.l = [0xA5] → at2 → goes .nvPrefix 2 fun _ => True) ∧
      (w.st = 0 ∨ w.st = 1 ∨ w.st = 2 → w.l = [0x77] → ∃ d', Does (.nvPrefix w.inp w.a w.l) d d' ∧
        d'.rd R.NVC_REQ_SEQ_state [w.inp] = 0 ∧ d'.rd R.NVC_REQ_SEQ_result [w.inp] = 4 ∧ tells d d' w.inp 9 ∧ pends d' 267 ∧ d'.mem = d.mem) ∧
      (w.st = 2 → at1 →
        (w.l = [0x10] → own → goes .program 3 fun d' => d'.rd R.NVC_BUF_OWN_owner [w.b] = w.inp ∧ d'.rd R.NVC_BUF_OWN_valid [w.b] = 1 ∧
          tget [] d'.nvc.buf w.b = [] ∧ tget false d'.nvc.rowSet w.b = false) ∧
        (w.l = [0x10] → ¬ own → refused (.program w.inp w.a w.l)) ∧
        (w.l = [0x30] → goes .erase 4 fun _ => True) ∧
        (w.l = [0x70] → goes .readStatus 6 fun d' => tget 0 d'.nvc.statNext w.inp = w.b + 1) ∧
        (w.l = [0x90] → goes .margin 5 fun _ => True)) ∧
      (w.st = 5 → at1 → ∀ m : BitVec 8, m.toNat < 3 → w.l = [m] → goes .margin 0 fun d' =>
        d'.rd R.NVC_REQ_SEQ_rmode [w.inp] = m.toNat ∧ d'.rd R.NVC_REQ_SEQ_rmode_bank [w.inp] = w.b) ∧
      (w.st = 3 → w.l.length = 8 ∨ w.l.length = 16 ∨ w.l.length = 32 ∨ w.l.length = 64 → w.a.toNat % w.l.length = 0 →
        (fixed = true → d.rd R.NVC_BUF_OWN_row [w.b] = rowIn w.a.toNat) → goes .programData 3 fun d' =>
          d'.rd R.NVC_BUF_OWN_row [w.b] = rowIn w.a.toNat ∧ tget false d'.nvc.rowSet w.b = true ∧
          ∀ j, tget 0xFF (tget [] d'.nvc.buf w.b) j =
            if w.a.toNat % 2 ^ 14 ≤ j ∧ j < w.a.toNat % 2 ^ 14 + w.l.length then w.l.getD (j - w.a.toNat % 2 ^ 14) 0xFF
            else tget 0xFF (tget [] d.nvc.buf w.b) j) ∧
      (w.st = 3 → at1 → w.l = [0xD0] → fixed = true →
        (bankBusy d w.b → refused (.programConfirm w.inp w.a w.l)) ∧
        (¬ bankBusy d w.b → d.rd R.NVC_BUF_OWN_row [w.b] < 2 ^ 13 → goes .programConfirm 0
          (started 1 (d.rd R.NVC_BUF_OWN_row [w.b]) (d.rd R.NVC_BUF_OWN_row [w.b] / 16) (tget [] d.nvc.buf w.b)))) ∧
      (w.st = 4 → w.l = [0xD0] →
        (bankBusy d w.b → refused (.eraseConfirm w.inp w.a w.l)) ∧
        (¬ bankBusy d w.b → goes .eraseConfirm 0 (started 2 (sectorIn w.a.toNat) (sectorIn w.a.toNat) []))) ∧
      (w.l = [0xF0] → goes .reset 0 fun d' => d'.rd R.NVC_REQ_SEQ_rmode [w.inp] = 0 ∧ tget 0 d'.nvc.statNext w.inp = 0))

/-- R361, R369, R371, R372, R374, R376, R378, R380, R381, Tables 10-4 and 10-8. -/
def Obligations.NvOperations : Prop :=
  ∀ d, On d →
    (∀ inp : Fin 101,
      let st := d.rd R.NVC_REQ_SEQ_state [inp]
      let due := st ≠ 0 ∧ tget 0 d.nvc.seqAt inp + max 1 (d.rd R.NVC_CFG_seq_tmo_us) * (1000 * 65536) ≤ d.clock
      (¬ due → Does (.seqTimeout inp) d d) ∧
      (due → ∃ d', Does (.seqTimeout inp) d d' ∧ d'.rd R.NVC_REQ_SEQ_state [inp] = 0 ∧ d'.rd R.NVC_REQ_SEQ_result [inp] = 4 ∧
        d'.rd R.NVC_REQ_SEQ_rmode [inp] = 0 ∧ pends d' 267 ∧ d'.mem = d.mem) ∧
      (d.island 102 = 0 →
        (d.nvc.weak = [] → Does (.weakRead inp) d (said d inp 0 0)) ∧
        (∀ cw rest, d.nvc.weak = cw :: rest →
          Does (.weakRead inp) d (said { d with nvc := { d.nvc with weak := rest } } inp 0 (cw + 2 ^ 19))) ∧
        (∀ (desc : Bool) (w : Fin 32) (v : BitVec 64),
          (d.locked ⟨inp, desc⟩ = true → Does (.wpClr inp desc w v) d ((said d inp 4 0).raise 3 (inp + 1024))) ∧
          (d.locked ⟨inp, desc⟩ = false → w = 31 → Does (.wpClr inp desc w v) d (said d inp 0 0)) ∧
          (d.locked ⟨inp, desc⟩ = false → w < 31 → ∃ d', Does (.wpClr inp desc w v) d d' ∧ tells d d' inp 0 ∧
            ∀ b, b < 64 → hasBit d' R.NVC_WP_prot [w] b = (hasBit d R.NVC_WP_prot [w] b && !v.getLsbD b))) ∧
        (∀ (desc : Bool) (sel fb : BitVec 1), d.locked ⟨inp, desc⟩ = false →
          let go := Instr.bootRecordUpdate inp desc sel fb
          (d.rd R.NVC_BOOT_CMD_busy ≠ 0 → ∃ d', Does go d d' ∧ tells d d' inp 27 ∧ d'.rd R.NVC_BOOT_CMD_result = 2 ∧ d'.nvc = d.nvc) ∧
          (d.rd R.NVC_BOOT_CMD_busy = 0 → ∃ d' x, Does go d d' ∧ tells d d' inp 0 ∧ d'.rd R.NVC_BOOT_CMD_busy = 1 ∧
            d'.nvc = { d.nvc with update := some (x, (inp : Nat)) } ∧ part x 0 32 = 0x4E564252 ∧
            part x 64 8 = sel.toNat ∧ part x 72 1 = fb.toNat ∧ part x 2176 32 = crc32c (leBytes 272 x) ∧
            part x 32 32 = (match d.curArea with
              | some k => part (d.areaRec k) 32 32 + 1
              | none => 1) % 2 ^ 32 ∧
            ∀ m, m < 32 → part x (128 + 64 * m) 64 = d.rd R.NVC_PMAP_NEW_map [m] % 2 ^ 64)))) ∧
    (∀ ok, d.nvc.update = none → Does (.bootRecordDone ok) d d) ∧
    (∀ x inp, d.nvc.update = some (x, inp) →
      let other := match d.curArea with
        | some k => 1 - k
        | none => 0
      (∃ d', Does (.bootRecordDone true) d d' ∧ d'.rd R.NVC_BOOT_CMD_busy = 0 ∧ d'.rd R.NVC_BOOT_CMD_result = 0 ∧
        d'.areaRec other = x ∧ d'.areaRec (1 - other) = d.areaRec (1 - other) ∧ d'.nvc.update = none ∧ pends d' 270) ∧
      (∃ d', Does (.bootRecordDone false) d d' ∧ d'.rd R.NVC_BOOT_CMD_busy = 0 ∧ d'.rd R.NVC_BOOT_CMD_result = 1 ∧
        d'.areaRec (1 - other) = d.areaRec (1 - other) ∧ d'.nvc.update = none ∧ pends d' 270)) ∧
    (∀ (b : Fin 4) (p : BitVec 4) (v : Bool),
      let owner := part (bankStatus d b) 19 7
      let sector := part (bankStatus d b) 10 9
      (tget none d.nvc.op b = none → Does (.nvOpEnd b p v) d d) ∧
      (∀ op, tget none d.nvc.op b = some op → op.kind = 1 ∨ op.kind = 2 → d.nvc.stalled = [] →
        let ends := fun (d' : Dev) (result pulses ev : Nat) => bankStatus d' b = statusWord 0 op.kind result pulses sector owner ∧
          tget none d'.nvc.op b = none ∧ pends d' ev
        let base := bankAt b + 2 ^ 14 * op.unit
        let wants := fun (k : Nat) => k < 16 ∧ ∃ e ∈ op.buf, e.1 / 1024 = k
        let fresh := fun (k : Nat) => ∀ j, j < 1024 → d.byte (base + 1024 * k + j) = 0xFF
        let old := fun (k : Nat) => ∀ j, j < 1024 → d.byte (base + 1024 * k + j) = tget 0xFF op.buf (1024 * k + j)
        (op.prot = true → ∃ d', Does (.nvOpEnd b p v) d d' ∧ ends d' 2 0 266 ∧ d'.mem = d.mem) ∧
        (op.prot = false → op.kind = 1 →
          ((∃ k, wants k ∧ ¬ fresh k ∧ ¬ old k) → ∃ d', Does (.nvOpEnd b p v) d d' ∧ ends d' 1 0 266 ∧ d'.mem = d.mem) ∧
          ((∀ k, wants k → fresh k) → (∃ k, wants k) → op.unit < 2 ^ 13 → v = true → ∃ d', Does (.nvOpEnd b p v) d d' ∧
            ends d' 0 (min 12 p.toNat) 264 ∧
            ∀ a, let mine := base ≤ a ∧ wants ((a - base) / 1024)
              (mine → d'.byte a = tget 0xFF op.buf (a - base)) ∧ (¬ mine → d'.byte a = d.byte a)) ∧
          ((∀ k, wants k → fresh k) → (∃ k, wants k) → op.unit < 2 ^ 13 → v = false → ∃ d', Does (.nvOpEnd b p v) d d' ∧ ends d' 5 12 265 ∧
            ∀ a, a < base ∨ base + 2 ^ 14 ≤ a → d'.byte a = d.byte a)) ∧
        (op.prot = false → op.kind = 2 → op.unit < 2 ^ 9 →
          let first := bankAt b + 2 ^ 18 * op.unit
          (v = true → ∃ d', Does (.nvOpEnd b p v) d d' ∧ ends d' 0 (min 8 p.toNat) 264 ∧
            ∀ a, d'.byte a = if first ≤ a ∧ a < first + 2 ^ 18 then 0xFF else d.byte a) ∧
          (v = false → ∃ d', Does (.nvOpEnd b p v) d d' ∧ ends d' 5 (min 8 p.toNat) 265 ∧
            ∀ a, a < first ∨ first + 2 ^ 18 ≤ a → d'.byte a = d.byte a))))

namespace Sys2Proof.Claims

/-- The channel of a DDR4 address and the offset in it (R37). -/
def channelOf (a : Nat) : Nat :=
  let g := (a - 0x1000000000) / 512
  4 * ((g % 12 / 4 + g / 12) % 3) + g % 4
def channelOffset (a : Nat) : Nat := (a - 0x1000000000) / 512 / 12 * 512 + (a - 0x1000000000) % 512

def channelState (d : Dev) (c : Nat) : Nat := d.rd R.DDR_CH_STAT_state [c]

/-- GiB of a channel that DDR_CFG names (Table 11-1). -/
def configured (d : Dev) : Nat :=
  let den := d.rd R.DDR_CFG_density
  4 * 2 ^ (if den = 3 then 1 else den) * 2 ^ d.rd R.DDR_CFG_x4 * 2 ^ d.rd R.DDR_CFG_ranks2

/-- An access of one line outside the ranges that the route engine, the sid counters and the controller keep. -/
def plainLine (d : Dev) (a : Nat) : Prop :=
  0x1055800000 ≤ a ∧ a + 64 ≤ d.ddrEnd ∧ d.ddrEnd ≤ 2 ^ 38 ∧ d.island (79 + channelOf a) = 0 ∧ d.rd R.SYS_READY_ddr_ecc ≠ 0 ∧
    channelState d (channelOf a) = 3

end Sys2Proof.Claims

/-- R37, R390 to R393, R397 to R399, R401, R403, R404, Table 11-1. -/
def Obligations.DdrMemory : Prop :=
  ∀ d, On d →
    (∀ inp : Fin 101,
      (d.island 106 ≠ 0 → Does (.ddrInit inp) d (said d inp 2 0) ∧ Does (.ddrRetrain inp) d (said d inp 2 0)) ∧
      (d.island 106 = 0 →
        (d.ddr.inited = true → Does (.ddrInit inp) d (said d inp 27 0)) ∧
        (d.ddr.inited = false → ∃ d', Does (.ddrInit inp) d d' ∧ tells d d' inp 0 ∧ d'.ddr.inited = true ∧ d'.mem = d.mem ∧
          (∀ c, c < 12 → channelState d' c = 1) ∧ (configured d ≤ 16 → d'.rd R.DDR_STATUS_chan_gib = configured d)) ∧
        ((∀ c, c < 12 → channelState d c ≠ 5) → Does (.ddrRetrain inp) d (said d inp 27 0)) ∧
        ((∃ c, c < 12 ∧ channelState d c = 5) → ∃ d', Does (.ddrRetrain inp) d d' ∧ tells d d' inp 0 ∧ d'.mem = d.mem ∧
          ∀ c, c < 12 → channelState d' c = (if channelState d c = 5 then 1 else channelState d c) ∧
            (channelState d c = 5 → hasBit d' R.DDR_STATUS_failed [] c = false)))) ∧
    (∀ fails : List (Fin 12 × BitVec 3 × BitVec 1),
      ((∀ c, c < 12 → channelState d c ≠ 1) → Does (.ddrTrainDone fails) d d) ∧
      ((∃ c, c < 12 ∧ channelState d c = 1) → configured d ≤ 16 → ∃ d', Does (.ddrTrainDone fails) d d' ∧ d'.mem = d.mem ∧
        (∀ c : Fin 12, channelState d c ≠ 1 → channelState d' c = channelState d c) ∧
        (∀ c : Fin 12, channelState d c = 1 → (∀ f ∈ fails, f.1 ≠ c) → channelState d' c = 2) ∧
        (∀ a f b, fails = a ++ f :: b → (∀ g ∈ a, g.1 ≠ f.1) → channelState d f.1 = 1 → channelState d' f.1 = 5 ∧
          d'.rd R.DDR_CH_STAT_fail_step [f.1] = f.2.1.toNat ∧ d'.rd R.DDR_CH_STAT_fail_rank [f.1] = f.2.2.toNat ∧
          hasBit d' R.DDR_STATUS_failed [] f.1 = true ∧ d'.rd R.DDR_CH_EVT_train_fail [f.1] ≠ 0) ∧
        (fails = [] → d.rd R.DDR_STATUS_failed = 0 → d.rd R.SYS_READY_ddr_trained = 0 →
          d'.rd R.DDR_STATUS_trained = 1 ∧ d'.rd R.SYS_READY_ddr_trained = 1))) ∧
    ((∀ c, c < 12 → channelState d c ≠ 2) → Does .ddrInitDone d d) ∧
    ((∃ c, c < 12 ∧ channelState d c = 2) → d.ddrEnd ≤ 2 ^ 38 → ∃ d', Does .ddrInitDone d d' ∧
      (∀ c, c < 12 → channelState d' c = if channelState d c = 2 then 3 else channelState d c) ∧
      (∀ a, d'.byte a = if 0x1000000000 ≤ a ∧ a < d.ddrEnd ∧ channelState d (channelOf a) = 2 then 0 else d.byte a) ∧
      (d.rd R.DDR_STATUS_trained = 1 → d'.rd R.SYS_READY_ddr_ecc = 1)) ∧
    (∀ (inp : Fin 101) (a : BitVec 38) (len : Fin 65) (data : List Byte) (errs : List (Fin 72 × Byte)),
      let read := Instr.ddrAccess inp false a len data errs
      let write := Instr.ddrAccess inp true a len data errs
      let c := channelOf a.toNat
      let line := a.toNat / 64 * 64
      let wrong := (badSymbols (errs.map fun e => (e.1.val, e.2.toNat))).length
      (a.toNat < 0x1000000000 ∨ d.ddrEnd ≤ a.toNat → Does read d d ∧ Does write d d) ∧
      (plainLine d line → a.toNat + len ≤ line + 64 →
        (line ∉ d.ddr.bad → wrong ≤ 4 →
          ∃ d', Does read d d' ∧ d'.out = .access inp 0 (d.load a.toNat len) :: d.out ∧ d'.mem = d.mem ∧ d'.ddr.bad = d.ddr.bad ∧
            (0 < wrong → (len : Nat) ≠ 0 → d'.rd R.DDR_ERR_LOG_symbols [c] = wrong ∧ d'.rd R.DDR_ERR_LOG_uncorr [c] = 0 ∧ d'.rd R.DDR_ERR_LOG_valid [c] = 1)) ∧
        (line ∈ d.ddr.bad ∨ 4 < wrong → (len : Nat) ≠ 0 →
          ∃ d' v, Does read d d' ∧ d'.out = .access inp 7 v :: d.out ∧ d'.mem = d.mem ∧ line ∈ d'.ddr.bad ∧
            d'.rd R.DDR_ERR_LOG_uncorr [c] = 1 ∧ d'.rd R.DDR_CH_EVT_uncorr [c] ≠ 0)) ∧
      (plainLine d line → a.toNat + data.length ≤ line + 64 →
        (data.length = 64 ∨ (line ∉ d.ddr.bad ∧ wrong ≤ 4) → ∃ d', Does write d d' ∧ tells d d' inp 0 ∧
          (data.length = 64 → line ∉ d'.ddr.bad) ∧
          ∀ x, d'.byte x = if a.toNat ≤ x ∧ x < a.toNat + data.length then data.getD (x - a.toNat) 0 else d.byte x) ∧
        (data.length ≠ 64 → data ≠ [] → line ∈ d.ddr.bad ∨ 4 < wrong → ∃ d', Does write d d' ∧ tells d d' inp 7 ∧ d'.mem = d.mem)) ∧
      (0x1000000000 ≤ a.toNat → a.toNat < d.ddrEnd → d.island (79 + c) ≠ 0 → Does read d (said d inp 2 0) ∧ Does write d (said d inp 2 0)) ∧
      (0x1000000000 ≤ a.toNat → a.toNat < d.ddrEnd → d.island (79 + c) = 0 → channelState d c = 4 → ∃ d' x, Does read d d' ∧
        tget [] d'.ddr.waiting c = tget [] d.ddr.waiting c ++ [x] ∧ x.addr = a.toNat ∧ x.inp = (inp : Nat) ∧ d'.out = d.out ∧ d'.mem = d.mem ∧ d'.regs = d.regs)) ∧
    (∀ c : Fin 12,
      let us := d.rd R.DDR_SR_idle_us
      let sleeps := us ≠ 0 ∧ channelState d c = 3 ∧ tget 0 d.ddr.lastAcc c + us * (1000 * 65536) ≤ d.clock + 1
      let wakes := channelState d c = 4 ∧ tget [] d.ddr.waiting c ≠ [] ∧ d.island (79 + c) = 0
      let due := channelState d c = 3 ∧ tget 0 d.ddr.refAt c + (if d.rd R.DDR_REF_mode = 0 then 7800 else 3900) * 65536 ≤ d.clock
      let at_ := tget 0 d.ddr.scrubAt c
      let scrubs := d.rd R.DDR_SCRUB_period_h ≠ 0 ∧ channelState d c = 3 ∧ d.rd R.SYS_READY_ddr_ecc ≠ 0
      (¬ sleeps → Does (.selfRefreshEntry c) d d) ∧
      (sleeps → Does (.selfRefreshEntry c) d (d.wr R.DDR_CH_STAT_state [c] 4)) ∧
      (¬ wakes → Does (.selfRefreshWake c) d d) ∧
      (∀ x, wakes → tget [] d.ddr.waiting c = [x] → x.write = false → x.errs = [] → x.len ≤ 64 - x.addr % 64 → d.rd R.SYS_READY_ddr_ecc ≠ 0 →
        0x1055800000 ≤ x.addr → x.addr + 64 ≤ d.ddrEnd → x.addr / 64 * 64 ∉ d.ddr.bad →
        ∃ d', Does (.selfRefreshWake c) d d' ∧ channelState d' c = 3 ∧ tget [] d'.ddr.waiting c = [] ∧
          (channelOf x.addr = c → d'.out = .access x.inp 0 (d.load x.addr x.len) :: d.out) ∧ d'.mem = d.mem) ∧
      (¬ due → Does (.refresh c) d d) ∧
      (due → ∃ d', Does (.refresh c) d d' ∧ d'.regs = d.regs ∧ d'.mem = d.mem ∧ tget 0 d'.ddr.refAt c = d.clock ∧
        tget 0 d'.ddr.refEnd c = d.clock + (match d.rd R.DDR_CFG_density with
          | 0 => 260
          | 2 => 550
          | _ => 350) * 65536) ∧
      (∀ errs, ¬ scrubs → Does (.patrolScrub c errs) d d) ∧
      (scrubs → at_ % 64 = 0 → ∃ d', Does (.patrolScrub c []) d d' ∧ d'.mem = d.mem ∧
        d'.rd R.DDR_CH_CNT_count [c, 6] = (d.rd R.DDR_CH_CNT_count [c, 6] + 1) % 2 ^ 64 ∧
        (at_ + 64 < d.rd R.DDR_STATUS_chan_gib * 2 ^ 30 → tget 0 d'.ddr.scrubAt c = at_ + 64) ∧
        (d.rd R.DDR_STATUS_chan_gib * 2 ^ 30 ≤ at_ + 64 → tget 0 d'.ddr.scrubAt c = 0 ∧ d'.rd R.DDR_CH_EVT_scrub_pass [c] ≠ 0 ∧
          d'.rd R.DDR_SCRUB_STAT_passes = (d.rd R.DDR_SCRUB_STAT_passes + 1) % 2 ^ 32)))

namespace Sys2Proof.Claims

/-- The commands of the Sacon engine's network side. -/
def saconNetwork : Instr → Bool
  | .discoveryRequest .. | .arpRequest .. | .neighbourSolicitation .. | .cmReq .. | .cmRtu .. | .cmDreq .. | .ackTimeout ..
  | .nakRx .. | .sendRx .. | .directRdmaWrite .. | .directRdmaRead .. | .cnpRx .. | .rateTimer .. | .commandDoorbell ..
  | .completionDoorbell .. | .eventDoorbell .. | .heartbeat .. | .heartbeatTimeout .. => true
  | _ => false

/-- A message of the Sacon engine leaves port `q` on its Sacon sub-port, tagged when SAC_NET.tagged is set. -/
def sends (d : Dev) (q kind dst dport : Nat) (l : List Byte) : Dev :=
  d.emit (.sacon q (d.rd R.SAC_NET_subport [q]) (if d.rd R.SAC_NET_tagged [q] = 0 then none else some (d.rd R.SAC_NET_vid [q]))
    kind dst dport l)

/-- A queue pair's state: 0 closed, 1 REP sent, 2 RTS, 3 ERROR. -/
def qpState (d : Dev) (c i : Nat) : Nat := d.rd R.SAC_QP_state [c, i]

/-- The MAC address that Sacon has on a port. -/
def macOf (d : Dev) (q : Nat) : Nat := d.rd R.PRT_MAC_ADDR_addr [q, d.rd R.SAC_NET_subport [q]]

/-- The number a rate or a weight stands for. -/
def exact (x : Dyad) : Rat := x.num / 2 ^ x.k

/-- Sacon counter `k` of a controller has counted `n`. -/
def sacCounted (d d' : Dev) (c k n : Nat) : Prop :=
  d'.rd R.SAC_CNT_count [c, k] % 2 ^ 64 = (d.rd R.SAC_CNT_count [c, k] + n) % 2 ^ 64

/-- No other queue pair of a controller is in RTS. -/
def noOther (d : Dev) (c i : Nat) : Prop := ∀ j, j < 16 → j ≠ i → qpState d c j ≠ 2

end Sys2Proof.Claims

/-- R407 to R409, Table 12-1. -/
def Sys2Proof.Claims.SaconDiscovery : Prop :=
  ∀ d, On d →
    (∀ c, saconNetwork c = true → d.island 103 ≠ 0 → Does c d d) ∧
    (d.island 103 = 0 → ∀ q : Fin 2,
      (∀ n, let e := d.takeP7 q n
        tget [] e.prt.p7 q = (tget [] d.prt.p7 q).drop n ∧ e.mem = d.mem ∧ e.sac = d.sac) ∧
      (∀ (n : Nat) (src : BitVec 128) (sport : BitVec 16) (magic : BitVec 32) (ver type : BitVec 8) (nonce : BitVec 64),
        let req := Instr.discoveryRequest q n src sport magic ver type nonce
        let e := d.takeP7 q n
        let full := tget 0 d.sac.discSec q = d.clock / second + 1 ∧ 1000 ≤ tget 0 d.sac.discCount q
        let good := d.rd R.SAC_CFG_disc_en ≠ 0 ∧ magic = 0x53414344 ∧ ver = 1 ∧ type = 0 ∧ ¬ full
        (¬ good → Does req d e) ∧
        (good → ∃ d' l, Does req d d' ∧ d'.out = (sends e q 0 src.toNat sport.toNat l).out ∧ d'.regs = e.regs ∧ d'.mem = d.mem ∧
          tget 0 d'.sac.discCount q = (if tget 0 d.sac.discSec q = d.clock / second + 1 then tget 0 d.sac.discCount q + 1 else 1) ∧
          l.length = 64 ∧ ofBe (l.take 4) = 0x53414344 ∧ l[4]? = some 1 ∧ l[5]? = some 1 ∧ ofBe ((l.drop 8).take 8) = nonce.toNat ∧
          ofBe ((l.drop 16).take 4) = 0x964044D9 ∧ l[20]? = some (BitVec.ofNat 8 (d.rd R.SYS_ID_rev)) ∧
          l[21]? = some (BitVec.ofNat 8 d.lcState) ∧
          l[23]? = some (BitVec.ofNat 8 (q + 2 * d.rd R.SAC_NET_subport [q])) ∧
          ofBe ((l.drop 24).take 16) = d.rd R.SYS_UID_uid % 2 ^ 128 ∧ ofBe ((l.drop 40).take 4) = d.rd R.SAC_NET_ipv4 [q] % 2 ^ 32 ∧
          ofBe ((l.drop 44).take 16) = d.rd R.SAC_NET_ipv6 [q] % 2 ^ 128)) ∧
      (∀ spa tpa : BitVec 32,
        let mine := tpa ≠ 0 ∧ tpa.toNat = d.rd R.SAC_NET_ipv4 [q]
        (¬ mine → Does (.arpRequest q spa tpa) d d) ∧
        (mine → Does (.arpRequest q spa tpa) d (sends d q 1 spa.toNat 0 (beBytes 6 (macOf d q) ++ beBytes 4 tpa.toNat)))) ∧
      (∀ src target : BitVec 128,
        let local_ := 0xFE80 * 2 ^ 112 + d.rd R.SYS_UID_uid % 2 ^ 64
        let mine := target.toNat = local_ ∨ (target ≠ 0 ∧ target.toNat = d.rd R.SAC_NET_ipv6 [q])
        (¬ mine → Does (.neighbourSolicitation q src target) d d) ∧
        (mine → Does (.neighbourSolicitation q src target) d
          (sends d q 2 src.toNat 0 (beBytes 16 target.toNat ++ beBytes 6 (macOf d q))))))

/-- R410 to R414, Table 12-2. -/
def Sys2Proof.Claims.SaconConnections : Prop :=
  ∀ d, On d → d.island 103 = 0 →
    (∀ (q : Fin 2) (n : Nat) (src : BitVec 128) (mac : BitVec 48) (pd : BitVec 32) (mtu : BitVec 16) (rc : Bool) (peer psn : BitVec 24)
      (limit : BitVec 3),
      let req := Instr.cmReq q n src mac pd mtu rc peer psn limit
      let e := d.takeP7 q n
      let c := pd.toNat / 2 ^ 8 % 2
      let i := if pd.getLsbD 9 then 15 else pd.toNat / 2 ^ 16 % 2 ^ 8
      let good := pd.toNat % 256 = 1 ∧ pd.toNat / 2 ^ 10 % 2 ^ 6 = 0 ∧ pd.toNat / 2 ^ 24 = 0 ∧ i ≤ 15 ∧ (i = 15 → pd.getLsbD 9 = true) ∧
        (mtu = 1024 ∨ mtu = 2048 ∨ mtu = 4096) ∧ rc = true
      let bound := tget 0 d.sac.bind c
      let w := if d.rd R.SAC_PEER_ipv6 [c] = 0 then 32 else 128
      let span := 2 ^ (w - d.rd R.SAC_PEER_prefix [c])
      let inside := (2 ^ 32 ≤ src.toNat ↔ d.rd R.SAC_PEER_ipv6 [c] ≠ 0) ∧ src.toNat / span = d.rd R.SAC_PEER_addr [c] % 2 ^ w / span
      let allowed := (if d.rd R.SAC_PEER_en [c] ≠ 0 then inside else bound ≠ 0 ∨ ∀ j, j < 16 → qpState d c j ≠ 2) ∧
        (bound = 0 ∨ bound = src.toNat + 1)
      let used := qpState d c i = 1 ∨ qpState d c i = 2 ∨ qpState d c i = 4
      (¬ good → Does req d (sends e q 4 src.toNat 1 [4])) ∧
      (good → ¬ allowed → Does req d (sends e q 4 src.toNat 1 [1])) ∧
      (good → allowed → used → Does req d (sends e q 4 src.toNat 1 [if i = 15 then 3 else 2])) ∧
      (good → allowed → ¬ used → ∃ d' setup door, Does req d d' ∧ d'.mem = d.mem ∧
        qpState d' c i = 1 ∧ 512 * 2 ^ d'.rd R.SAC_QP_mtu [c, i] = mtu.toNat ∧ d'.rd R.SAC_QP_peer_qpn [c, i] = peer.toNat ∧
        d'.rd R.SAC_QP_rq_psn [c, i] = psn.toNat ∧
        d'.rd R.SAC_QP_rate_mbps [c, i] = 1000 * gbps (d.rd R.PRT_CFG_mode [q]) ∧
        exact (d'.qp c i).alpha = 1 ∧ exact (d'.qp c i).rate = (1000 * gbps (d.rd R.PRT_CFG_mode [q]) : Nat) ∧ (d'.qp c i).port = q ∧
        (d'.qp c i).src = src.toNat ∧ (d'.qp c i).mac = mac.toNat ∧ (d'.qp c i).limit = limit.toNat ∧
        (d'.qp c i).setupKey = setup ∧ setup < 2 ^ 32 ∧ door < 2 ^ 32 ∧ (i ≠ 15 → (d'.qp c i).doorKey = door) ∧
        (bound = 0 → d.rd R.SAC_PEER_en [c] = 0 → tget 0 d'.sac.bind c = src.toNat + 1 ∧ d'.rd R.SAC_CTRL_bound [c] = 1) ∧
        d'.out = (sends e q 3 src.toNat 1 (beBytes 4 setup ++ (if i = 15 then [] else beBytes 4 door))).out)) ∧
    (∀ (q : Fin 2) (n : Nat) (c : Fin 2) (i : Fin 16),
      let e := d.takeP7 q n
      let rts := qpState d c i = 2
      let inUse := qpState d c i = 1 ∨ rts ∨ qpState d c i = 4
      (qpState d c i ≠ 1 → Does (.cmRtu q n c i) d e) ∧
      (qpState d c i = 1 → ∃ d', Does (.cmRtu q n c i) d d' ∧ d'.mem = d.mem ∧ qpState d' c i = 2 ∧ pends d' 287 ∧
        tget false d'.sac.gone c = false ∧
        (i = 15 → ∀ p : Fin 2, d'.rd R.PRT_HALT_QP_valid [p, c] = 1 ∧ tget 0 d'.prt.haltKey c = (d.qp c 15).setupKey ∧
          tget 0 d'.prt.haltIp c = (d.qp c 15).src ∧ d'.rd R.PRT_HALT_QP_epsn [p, c] % 2 ^ 24 = d.rd R.SAC_QP_rq_psn [c, 15] % 2 ^ 24) ∧
        (i ≠ 15 → d'.prt = e.prt)) ∧
      (¬ inUse → Does (.cmDreq q n c i) d e) ∧
      (inUse → ∃ d', Does (.cmDreq q n c i) d d' ∧ qpState d' c i = 0 ∧ d'.qp c i = {} ∧
        (sends e q 5 (d.qp c i).src 1 []).out <:+ d'.out ∧
        (noOther d c i → tget 0 d'.sac.bind c = 0 ∧ d'.rd R.SAC_CTRL_bound [c] = 0) ∧
        (rts → noOther d c i → tget false d.sac.gone c = false → d'.rd R.SAC_CTRL_lost [c] = 1 ∧ pends d' 288)) ∧
      (∀ made : BitVec 3,
        (¬ rts → Does (.ackTimeout c i made) d d) ∧
        (rts → made.toNat < (d.qp c i).limit → Does (.ackTimeout c i made) d (d.bumpWrap R.SAC_CNT_count [c, 12])) ∧
        (rts → (d.qp c i).limit ≤ made.toNat → ∃ d', Does (.ackTimeout c i made) d d' ∧ qpState d' c i = 3 ∧ pends d' 287)) ∧
      (∀ fatal, ¬ rts → Does (.nakRx q n c i fatal) d e) ∧
      (rts → (∃ d', Does (.nakRx q n c i true) d d' ∧ qpState d' c i = 3 ∧ pends d' 287 ∧ sacCounted d d' c 13 1 ∧
          ∀ r : Fin 18, d.rd R.SAC_RING_qp [c, r] = i → d.rd R.SAC_RING_state [c, r] ≠ 0 → (d.ring c r).cur = none →
            d'.rd R.SAC_RING_state [c, r] = 4) ∧
        (∃ d', Does (.nakRx q n c i false) d d' ∧ qpState d' c i = 2 ∧ sacCounted d d' c 13 1 ∧ sacCounted d d' c 12 1 ∧
          d'.mem = d.mem ∧ d'.out = e.out)) ∧
      (¬ rts → Does (.sendRx q n c i) d e ∧ Does (.cnpRx q n c i) d e ∧ Does (.rateTimer c i) d d) ∧
      (rts → Does (.sendRx q n c i) d (sends e (d.qp c i).port 8 (d.qp c i).src (d.rd R.SAC_QP_peer_qpn [c, i]) [])) ∧
      (rts → ∃ d', Does (.cnpRx q n c i) d d' ∧ sacCounted d d' c 10 1 ∧ d'.mem = d.mem ∧ d'.out = e.out ∧
        let x := d.qp c i
        let y := d'.qp c i
        let g : Rat := 1 / 2 ^ d.rd R.SAC_CFG_g_log
        let kept := x.tCut ≠ 0 ∧ d.clock < x.tCut - 1 + d.rd R.SAC_CFG_cnp_us * 65536000
        (kept → y = { x with cnp := true }) ∧
        (¬ kept → exact x.alpha ≤ 1 → y.cnp = true ∧ y.stage = 0 ∧ y.tCut = d.clock + 1 ∧ exact y.target = exact x.rate ∧
          exact y.rate = max (d.rd R.SAC_CFG_min_mbps : Rat) (exact x.rate * (1 - exact x.alpha / 2)) ∧
          exact y.alpha = (1 - g) * exact x.alpha + g ∧ d'.rd R.SAC_QP_rate_mbps [c, i] = (exact y.rate).floor.toNat % 2 ^ 32)) ∧
      (rts → ∃ d', Does (.rateTimer c i) d d' ∧ d'.mem = d.mem ∧ d'.out = d.out ∧
        let x := d.qp c i
        let y := d'.qp c i
        let g : Rat := 1 / 2 ^ d.rd R.SAC_CFG_g_log
        let line : Rat := (1000 * gbps (d.rd R.PRT_CFG_mode [x.port]) : Nat)
        let target := if 5 < x.stage + 1 then min line (exact x.target + d.rd R.SAC_CFG_rai_mbps) else exact x.target
        exact y.alpha = (if x.cnp then exact x.alpha else (1 - g) * exact x.alpha) ∧ y.cnp = false ∧
        (exact x.rate < line → y.stage = x.stage + 1 ∧ exact y.target = target ∧ exact y.rate = (exact x.rate + target) / 2 ∧
          d'.rd R.SAC_QP_rate_mbps [c, i] = ((exact x.rate + target) / 2).floor.toNat % 2 ^ 32) ∧
        (line ≤ exact x.rate → y.rate = x.rate ∧ y.target = x.target ∧ y.stage = x.stage)))

/-- A stopped Sacon engine; discovery, ARP, neighbours; Connections and congestion. -/
def Obligations.SaconDiscoveryAndConnections : Prop :=
  Sys2Proof.Claims.SaconDiscovery ∧ Sys2Proof.Claims.SaconConnections

/-- R413, R416 to R418, R420. -/
def Sys2Proof.Claims.SaconDirectAccess : Prop :=
  ∀ d, On d → d.island 103 = 0 → ∀ (q : Fin 2) (n : Nat) (c : Fin 2) (i : Fin 15) (key : BitVec 32) (va : BitVec 64) (len : BitVec 32)
    (l : List Byte),
    let write := Instr.directRdmaWrite q n c i key va
    let read := Instr.directRdmaRead q n c i key va
    let e := d.takeP7 q n
    let x := d.qp c i
    let rts := qpState d c i = 2
    let reaches := fun (len : Nat) => (key.toNat = x.setupKey ∧ va.toNat + len ≤ 0xF00000) ∨
      (key.toNat = x.doorKey ∧ 0xF00000 + 0x1000 * c ≤ va.toNat ∧ va.toNat + len ≤ 0xF01000 + 0x1000 * c)
    let toward := fun (d' : Dev) (kind : Nat) (l : List Byte) => d'.out = (sends e x.port kind x.src (d.rd R.SAC_QP_peer_qpn [c, i]) l).out
    let nak := fun kind => sends e x.port kind x.src (d.rd R.SAC_QP_peer_qpn [c, i]) []
    let psn := fun (d' : Dev) (k : Nat) => d'.rd R.SAC_QP_rq_psn [c, i] = (d.rd R.SAC_QP_rq_psn [c, i] + k) % 2 ^ 24
    (¬ rts → Does (write l) d e ∧ Does (read len) d e) ∧
    (rts → ¬ reaches l.length → Does (write l) d (nak 9)) ∧
    (rts → ¬ reaches len.toNat → Does (read len) d (nak 9)) ∧
    (rts → reaches l.length → (va.toNat % 8 ≠ 0 ∨ l.length % 8 ≠ 0) → Does (write l) d (nak 8)) ∧
    (rts → reaches len.toNat → (va.toNat % 8 ≠ 0 ∨ len.toNat % 8 ≠ 0 ∨ 4096 < len.toNat) → Does (read len) d (nak 8)) ∧
    (rts → key.toNat = x.setupKey → va.toNat = 0x10A80 →
      (l.length = 8 → ∃ d', Does (write l) d d' ∧ toward d' 7 [] ∧ d'.rd R.TIM_SIN0_TOD_sec = ofLe l % 2 ^ 48 ∧ sacCounted d d' c 6 1 ∧
        sacCounted d d' c 7 0 ∧ psn d' 1 ∧ d'.mem = d.mem) ∧
      (∃ d', Does (read 8) d d' ∧ toward d' 10 (leBytes 8 (d.rd R.TIM_SIN0_TOD_sec)) ∧ sacCounted d d' c 5 1 ∧ psn d' 1 ∧ d'.mem = d.mem)) ∧
    (rts → key.toNat = x.setupKey → va.toNat % 8 = 0 → va.toNat + 8 ≤ 0xF00000 → hitsOf va.toNat = [] →
      (l.length = 8 → ∃ d', Does (write l) d d' ∧ toward d' 7 [] ∧ d'.rd R.SAC_DIRECT_LOG_off [c] = va.toNat ∧
        d'.rd R.SAC_DIRECT_LOG_status [c] = 1 ∧ d'.rd R.SAC_DIRECT_LOG_write [c] = 1 ∧ d'.rd R.SAC_DIRECT_LOG_valid [c] = 1 ∧
        d'.rd R.SAC_DIRECT_LOG_time [c] = d.nowRaw % 2 ^ 96 ∧ sacCounted d d' c 6 1 ∧ sacCounted d d' c 7 1 ∧ pends d' 289 ∧ d'.mem = d.mem) ∧
      (∃ d', Does (read 8) d d' ∧ toward d' 10 (List.replicate 8 0) ∧ d'.rd R.SAC_DIRECT_LOG_off [c] = va.toNat ∧
        d'.rd R.SAC_DIRECT_LOG_status [c] = 1 ∧ d'.rd R.SAC_DIRECT_LOG_write [c] = 0 ∧ sacCounted d d' c 5 1 ∧ sacCounted d d' c 7 1 ∧
        pends d' 289)) ∧
    (rts → key.toNat = x.doorKey → va.toNat = 0xF000F8 + 0x1000 * c → l.length = 8 → ∃ d', Does (write l) d d' ∧ toward d' 7 [] ∧
      tget 0 d'.sac.hbVal c = ofLe l % 2 ^ 32 ∧ tget 0 d'.sac.hbFrom c = d.clock ∧ sacCounted d d' c 14 1) ∧
    (rts → key.toNat = x.doorKey → va.toNat = 0xF000F0 + 0x1000 * c → l.length = 8 → ∃ d', Does (write l) d d' ∧ toward d' 7 [] ∧
      sacCounted d d' c 15 1 ∧ d'.sac = e.sac)

/-- R420 to R425, R437, Table 12-4. -/
def Sys2Proof.Claims.Doorbells : Prop :=
  ∀ d, On d → d.island 103 = 0 → ∀ c : Fin 2,
    let log := fun (r : Nat) => min 16 (max 6 (d.rd R.SAC_RING_size_log [c, r]))
    let st := fun (d : Dev) (r : Nat) => d.rd R.SAC_RING_state [c, r]
    let dev := fun (r : Nat) => BitVec.ofNat 32 (d.rd R.SAC_RING_dev_idx [c, r])
    let host := fun (r : Nat) => BitVec.ofNat 32 (d.rd R.SAC_RING_host_idx [c, r])
    let fits := fun (r : Nat) => d.rd R.SAC_RING_dev_idx [c, r] < 2 ^ 32 ∧ d.rd R.SAC_RING_host_idx [c, r] < 2 ^ 32
    let stops := fun (d' : Dev) (r : Nat) => (d.ring c r).cur = none → st d' r = 4 ∧ pends d' 285 ∧ (d'.ring c r).fetched = [] ∧
      BitVec.ofNat 32 (d'.rd R.SAC_RING_dev_idx [c, r]) = dev r - (d.ring c r).fetched.length
    let accepted := fun (d' : Dev) (r v : Nat) => d'.rd R.SAC_RING_host_idx [c, r] = v ∧ sacCounted d d' c 14 1 ∧ d'.mem = d.mem ∧ d'.out = d.out
    let consumes := fun (cmd : Instr) (r : Nat) (v : BitVec 32) => fits r →
      let ok := (v - dev r).toInt ≤ 0 ∧ 0 ≤ (v - host r).toInt
      (ok → ∃ d', Does cmd d d' ∧ accepted d' r v.toNat) ∧
      (¬ ok → ∃ d', Does cmd d d' ∧ d'.rd R.SAC_RING_host_idx [c, r] = d.rd R.SAC_RING_host_idx [c, r] ∧ sacCounted d d' c 15 1 ∧
        pends d' 289 ∧ d'.sac = d.sac ∧ d'.mem = d.mem)
    (∀ (r : Fin 8) (v : BitVec 32), fits r →
      let x := d.ring c r
      let beyond := st d r ≠ 0 ∧ st d r ≠ 4 ∧ 2 ^ log r < (v - dev r).toNat
      (beyond → ∃ d', Does (.commandDoorbell c r v) d d' ∧ d'.rd R.SAC_RING_host_idx [c, r] = d.rd R.SAC_RING_host_idx [c, r] ∧
        stops d' r ∧ (x.cur ≠ none → st d' r = st d r ∧ d'.ring c r = { x with stopping := true })) ∧
      (¬ beyond → ∃ d', Does (.commandDoorbell c r v) d d' ∧ accepted d' r v.toNat ∧ d'.sac = d.sac ∧
        st d' r = (if st d r = 0 ∨ st d r = 4 then st d r else if x.full then 3 else if x.cur ≠ none then st d r
          else if x.fetched = [] ∧ v = dev r then 1 else 2))) ∧
    (∀ (r : Fin 8) (v : BitVec 32), consumes (.completionDoorbell c r v) (8 + r) v ∧
      ∀ (k : Fin 8), fits (8 + r) → (v - dev (8 + r)).toInt ≤ 0 → 0 ≤ (v - host (8 + r)).toInt → (d.ring c k).full = true →
        (d.ring c k).cur = none → st d k = 3 → d.rd R.SAC_RING_cpl_ring [c, k] = r → d.rd R.SAC_RING_en [c, 8 + r] ≠ 0 → st d (8 + r) ≠ 4 →
        (dev (8 + r) - v).toNat < 2 ^ log (8 + r) → (d.ring c k).fetched ≠ [] →
        ∃ d', Does (.completionDoorbell c r v) d d' ∧ st d' k = 2 ∧ (d'.ring c k).full = false) ∧
    (∀ (e : Fin 2) (v : BitVec 32), consumes (.eventDoorbell c e v) (16 + e) v) ∧
    (∀ v, ∃ d', Does (.heartbeat c v) d d' ∧ tget 0 d'.sac.hbVal c = v.toNat ∧ tget 0 d'.sac.hbFrom c = d.clock ∧ tget false d'.sac.gone c = false ∧
      d'.rd R.SAC_CTRL_last_hb [c] = d.nowRaw % 2 ^ 96 ∧ sacCounted d d' c 14 1 ∧ d'.mem = d.mem ∧ d'.out = d.out) ∧
    (let ms := d.rd R.SAC_CTRL_hb_ms [c]
     let silent := ms ≠ 0 ∧ tget 0 d.sac.hbFrom c + ms * millis ≤ d.clock
     (¬ silent ∨ tget false d.sac.gone c = true → Does (.heartbeatTimeout c) d d) ∧
     (silent → tget false d.sac.gone c = false → ∃ d', Does (.heartbeatTimeout c) d d' ∧ d'.rd R.SAC_CTRL_lost [c] = 1 ∧ pends d' 288 ∧
       tget false d'.sac.gone c = true ∧
       (∀ r : Fin 8, st d r ≠ 0 → st d r ≠ 4 → stops d' r) ∧
       (d.rd R.SAC_CTRL_rel_on_loss [c] = 0 → ∀ s : Fin 256, d'.rd R.SEM_STATE_held [s] = d.rd R.SEM_STATE_held [s]) ∧
       (d.rd R.SAC_CTRL_rel_on_loss [c] ≠ 0 → (∀ r, r < 8 → (d.ring c r).cur = none) →
         (∀ s, s < 256 → hasBit d R.SEM_STATE_waiters [s] (97 + c) = false) →
         ∀ s : Fin 256, ¬ (d'.rd R.SEM_STATE_held [s] ≠ 0 ∧ d'.rd R.SEM_STATE_owner [s] = 97 + c))))

/-- Direct RDMA; Doorbells, heartbeats, the loss of a controller. -/
def Obligations.SaconAccessAndDoorbells : Prop :=
  Sys2Proof.Claims.SaconDirectAccess ∧ Sys2Proof.Claims.Doorbells

namespace Sys2Proof.Claims

/-- Bits [lo+w-1 : lo] of a descriptor. -/
def argBits (lo w : Nat) : Nat := (2 ^ w - 1) * 2 ^ lo

/-- What Table 12-6 says of a descriptor's command: controller, ring, opcode, the argument bits it names. -/
def descRow : Instr → Option (Fin 2 × Fin 8 × Nat × Nat)
  | .nop c r => some (c, r, 0x00, 0)
  | .regRead c r => some (c, r, 0x01, argBits 64 24)
  | .regWrite c r => some (c, r, 0x02, argBits 64 24 + argBits 96 8 + argBits 128 64)
  | .regRmw c r => some (c, r, 0x03, argBits 64 24 + argBits 128 128)
  | .regPoll c r => some (c, r, 0x04, argBits 64 24 + argBits 128 160)
  | .memRead c r _ _ _ => some (c, r, 0x10, argBits 64 40 + argBits 128 25 + argBits 192 96)
  | .memWrite c r _ _ => some (c, r, 0x11, argBits 64 40 + argBits 128 25 + argBits 192 97 + argBits 320 192)
  | .routeInsert c r _ => some (c, r, 0x20, argBits 64 3 + argBits 192 96)
  | .routeModify c r _ => some (c, r, 0x21, argBits 64 3 + argBits 192 96)
  | .routeDelete c r _ => some (c, r, 0x22, argBits 64 3 + argBits 192 96)
  | .routeLookup c r _ _ => some (c, r, 0x23, argBits 192 96 + argBits 320 64)
  | .chanWrite c r _ => some (c, r, 0x24, argBits 64 3 + argBits 128 24 + argBits 192 96)
  | .chanRead c r _ => some (c, r, 0x25, argBits 128 24 + argBits 256 32 + argBits 320 64)
  | .salvoOpen c r => some (c, r, 0x28, 0)
  | .salvoArm c r => some (c, r, 0x29, argBits 64 3 + argBits 128 96 + argBits 256 64)
  | .salvoCancel c r => some (c, r, 0x2A, argBits 64 2)
  | .semAcqDescriptor c r => some (c, r, 0x30, argBits 64 8 + argBits 96 32)
  | .semTryDescriptor c r => some (c, r, 0x31, argBits 64 8)
  | .semRelDescriptor c r => some (c, r, 0x32, argBits 64 8)
  | .waitUntil c r => some (c, r, 0x38, argBits 64 96)
  | _ => none

/-- The opcodes of Table 12-6. -/
def opcodes : List Nat := [0, 1, 2, 3, 4, 0x10, 0x11, 0x20, 0x21, 0x22, 0x23, 0x24, 0x25, 0x28, 0x29, 0x2A, 0x30, 0x31, 0x32, 0x38]

/-- The bits of a descriptor that the common fields and `args` do not name are zero (R426). -/
def clean (x args : Nat) : Prop := ∀ b, b < 512 → x.testBit b = true → b < 9 ∨ (32 ≤ b ∧ b < 64) ∨ args.testBit b = true

def ringSt (d : Dev) (c r : Nat) : Nat := d.rd R.SAC_RING_state [c, r]
def devIx (d : Dev) (c r : Nat) : Nat := d.rd R.SAC_RING_dev_idx [c, r]
def hostIx (d : Dev) (c r : Nat) : Nat := d.rd R.SAC_RING_host_idx [c, r]
def sizeLog (d : Dev) (c r : Nat) : Nat := min 16 (max 6 (d.rd R.SAC_RING_size_log [c, r]))
/-- The completion ring of a command ring. -/
def cplOf (d : Dev) (c r : Nat) : Nat := 8 + d.rd R.SAC_RING_cpl_ring [c, r]

/-- A completion ring has room for one record (R421). -/
def cplRoom (d : Dev) (c r : Nat) : Prop :=
  let k := cplOf d c r
  d.rd R.SAC_RING_en [c, k] ≠ 0 ∧ ringSt d c k ≠ 4 ∧ devIx d c k < 2 ^ 32 ∧ hostIx d c k < 2 ^ 32 ∧
    (BitVec.ofNat 32 (devIx d c k) - BitVec.ofNat 32 (hostIx d c k)).toNat < 2 ^ sizeLog d c k

/-- Ring `r` of controller `c` is about to execute descriptor `x`, and then those of `rest`. -/
def executes (d : Dev) (c r x : Nat) (rest : List Nat) : Prop :=
  On d ∧ d.island 103 = 0 ∧ ringSt d c r = 2 ∧ d.ring c r = { fetched := x :: rest } ∧ cplRoom d c r ∧ devIx d c r < 2 ^ 32

/-- A completion record (Table 12-7). -/
def cplBits (x status ring phase index result : Nat) : BitVec 128 :=
  BitVec.ofNat 64 result ++ BitVec.ofNat 16 index ++ 0#4 ++ BitVec.ofNat 1 phase ++ BitVec.ofNat 3 ring ++ BitVec.ofNat 8 status ++
    BitVec.ofNat 32 (x / 2 ^ 32)

/-- The descriptor `x`, number `index` of its ring, has completed: `out` has left the device before its record, `rest` is
what the ring has fetched behind it. -/
def ended (d d' : Dev) (out : List Out) (c r x index : Nat) (rest : List Nat) (stopping : Bool) (status result : Nat) : Prop :=
  let k := cplOf d c r
  let qp := d.rd R.SAC_RING_qp [c, k]
  let i := devIx d c k
  let quiet := (x.testBit 8 = true ∧ status = 0) ∨ d.rd R.SAC_QP_state [c, qp] ≠ 2
  let stops := stopping = true ∨ (status ≠ 0 ∧ d.rd R.SAC_RING_stop_on_err [c, r] ≠ 0)
  sacCounted d d' c 0 1 ∧ sacCounted d d' c 1 (if status = 0 then 0 else 1) ∧
  (status ≠ 0 → d.rd R.SAC_RING_err_evt [c, r] ≠ 0 → pends d' 284) ∧
  (quiet → d'.out = out ∧ devIx d' c k = i) ∧
  (¬ quiet → devIx d' c k = (i + 1) % 2 ^ 32 ∧
    d'.out = .hostWrite c qp (d.rd R.SAC_RING_base [c, k] + 16 * (i % 2 ^ sizeLog d c k)) (d.rd R.SAC_RING_rkey [c, k])
      (leBytes 16 (cplBits x status r (1 - i / 2 ^ sizeLog d c k % 2) index result).toNat) :: out) ∧
  (stops → d'.ring c r = {} ∧ ringSt d' c r = 4 ∧ pends d' 285 ∧ devIx d' c r = (devIx d c r + 2 ^ 32 - rest.length) % 2 ^ 32) ∧
  (¬ stops → d'.ring c r = { fetched := rest } ∧ ringSt d' c r = if rest = [] ∧ devIx d c r = hostIx d c r then 1 else 2)

/-- The descriptor that was about to execute has completed with a status and a result, and moved nothing else out of the
device than `out`. -/
def completesWith (d d' : Dev) (out : List Out) (c r x : Nat) (rest : List Nat) (status result : Nat) : Prop :=
  ended d d' out c r x (devIx d c r + 2 ^ 32 - (rest.length + 1)) rest false status result

/-- As `completesWith`, with nothing but the record leaving the device. -/
def reports (c : Instr) (d : Dev) (ctl r x : Nat) (rest : List Nat) (status result : Nat) (more : Dev → Prop) : Prop :=
  ∃ d', Does c d d' ∧ completesWith d d' d.out ctl r x rest status result ∧ more d'

/-- As `reports`, with a result the spec does not state (log entry 162). -/
def refuses (c : Instr) (d : Dev) (ctl r x : Nat) (rest : List Nat) (status : Nat) (more : Dev → Prop) : Prop :=
  ∃ result, reports c d ctl r x rest status result more

/-- The opcodes whose result Table 12-6 gives as 0 or as the bytes moved, whatever the status. -/
def plainResult (op : Nat) : Prop := op ∈ [0, 2, 0x10, 0x11, 0x2A, 0x30, 0x31, 0x32]

/-- Another queue pair of the controller than the ring's is in RTS, so that the loss of the ring's does not lose the
controller (R437); a completion ring has fetched nothing. -/
def another (d : Dev) (c r : Nat) : Prop :=
  (∃ i, i < 16 ∧ i ≠ d.rd R.SAC_RING_qp [c, r] ∧ d.rd R.SAC_QP_state [c, i] = 2) ∧ (d.ring c (cplOf d c r)).fetched = []

/-- The descriptor that was about to execute has completed with RDMA_ERROR: the ring's queue pair is in ERROR, and the
ring has stopped (R412, R425). -/
def breaks (d d' : Dev) (out : List Out) (c r x : Nat) (rest : List Nat) (result : Nat) : Prop :=
  let qp := d.rd R.SAC_RING_qp [c, r]
  let lost := d.wr R.SAC_QP_state [c, qp] 3
  ended lost d' out c r x (devIx d c r + 2 ^ 32 - (rest.length + 1)) rest true 12 result ∧
    d'.rd R.SAC_QP_state [c, qp] = 3 ∧ pends d' 286 ∧ pends d' 287

/-- The ring waits in the descriptor it has started, whose time runs out at `deadline` - 1 unless that is 0. -/
def waitsIn (d d' : Dev) (c r x : Nat) (rest : List Nat) (deadline : Nat) : Prop :=
  ringSt d' c r = 3 ∧ d'.out = d.out ∧ d'.mem = d.mem ∧ ∃ cur : CurDesc, d'.ring c r = { fetched := rest, cur := some cur } ∧ cur.desc = x ∧
    cur.deadline = deadline ∧ cur.index % 2 ^ 16 = (devIx d c r + 2 ^ 32 - (rest.length + 1)) % 2 ^ 16

/-- Nothing but the descriptor's completion happens. -/
def still (d d' : Dev) : Prop := d'.mem = d.mem ∧ d'.isl = d.isl ∧ d'.rte = d.rte

end Sys2Proof.Claims

/-- R421, R423 to R426, R432, R435, Tables 12-5 to 12-7. -/
def Obligations.RingsAndDescriptors : Prop :=
  (∀ d, On d → d.island 103 = 0 → ∀ (c : Fin 2) (r : Fin 8) (l : List (BitVec 512)) (ok : Bool), hostIx d c r < 2 ^ 32 → devIx d c r < 2 ^ 32 →
    let x := d.ring c r
    let n := min 32 (BitVec.ofNat 32 (hostIx d c r) - BitVec.ofNat 32 (devIx d c r)).toNat
    let asks := ringSt d c r = 2 ∧ x.full = false ∧ n ≠ 0
    let rts := qpState d c (d.rd R.SAC_RING_qp [c, r]) = 2
    let got := (l.take n).map (·.toNat)
    (¬ asks → Does (.descriptorFetch c r l ok) d d) ∧
    (asks → ¬ rts ∨ (ok = false ∧ another d c r) → ∃ d', Does (.descriptorFetch c r l ok) d d' ∧ d'.mem = d.mem ∧ d'.out = d.out ∧ (rts → pends d' 286 ∧ qpState d' c (d.rd R.SAC_RING_qp [c, r]) = 3) ∧
      (x.cur = none → ringSt d' c r = 4 ∧ pends d' 285) ∧ (x.cur ≠ none → d'.ring c r = { x with stopping := true })) ∧
    (asks → rts → ok = true → ∃ d', Does (.descriptorFetch c r l ok) d d' ∧ d'.ring c r = { x with fetched := x.fetched ++ got } ∧
      devIx d' c r = (devIx d c r + got.length) % 2 ^ 32 ∧ sacCounted d d' c 8 (64 * got.length) ∧ ringSt d' c r = 2 ∧ d'.mem = d.mem ∧
      d'.out = d.out)) ∧
  (∀ cmd c r op args, descRow cmd = some (c, r, op, args) → ∀ d, On d →
    (d.island 103 ≠ 0 → Does cmd d d) ∧
    ((d.ring c r).fetched.head?.map (· % 256) ≠ some op ∨ (d.ring c r).cur ≠ none ∨ ringSt d c r ≠ 2 → Does cmd d d) ∧
    (∀ x rest, x % 256 = op → d.island 103 = 0 → ringSt d c r = 2 → d.ring c r = { fetched := x :: rest } →
      d.rd R.SAC_RING_en [c, cplOf d c r] = 0 → ∃ d', Does cmd d d' ∧ d'.ring c r = { fetched := x :: rest, full := true } ∧
        ringSt d' c r = 3 ∧ pends d' 290 ∧ d'.out = d.out ∧ d'.mem = d.mem) ∧
    (∀ x rest, x % 256 = op → executes d c r x rest → ¬ clean x args → refuses cmd d c r x rest 10 (still d)) ∧
    (∀ x rest, x % 256 = op → executes d c r x rest → ¬ clean x args → plainResult op → reports cmd d c r x rest 10 0 (still d))) ∧
  (∀ d (c : Fin 2) (r : Fin 8) x rest, executes d c r x rest →
    (x % 256 = 0 → clean x 0 → reports (.nop c r) d c r x rest 0 0 (still d)) ∧
    (x % 256 ∈ opcodes → Does (.badOpcode c r) d d) ∧
    (x % 256 ∉ opcodes → refuses (.badOpcode c r) d c r x rest (if x / 2 ^ 9 % 2 ^ 23 = 0 then 11 else 10) (still d))) ∧
  (∀ d, On d → ∀ (inp : Fin 101) (desc : Bool) (c : Fin 2) (r : BitVec 5),
    let x := d.ring c r.toNat
    let st := ringSt d c r.toNat
    let all := fun (P : Instr → Prop) => P (.ringStart inp desc c r) ∧ P (.ringStop inp desc c r) ∧ P (.ringReset inp desc c r)
    (d.island 103 ≠ 0 → all fun cmd => Does cmd d (said d inp 2 0)) ∧
    (d.island 103 = 0 → (inp : Nat) ≠ 97 + c → all fun cmd => Does cmd d ((said d inp 3 0).raise 3 (inp + 768))) ∧
    (d.island 103 = 0 → (inp : Nat) = 97 + c → (17 < r.toNat → all fun cmd => Does cmd d (said d inp 27 0)) ∧
      (r.toNat ≤ 17 →
        (st ≠ 4 → Does (.ringStart inp desc c r) d (said d inp 27 0)) ∧
        (st = 4 → r.toNat < 8 → x = {} → ∃ d', Does (.ringStart inp desc c r) d d' ∧ tells d d' inp 0 ∧ d'.mem = d.mem ∧
          ringSt d' c r.toNat = if devIx d c r.toNat = hostIx d c r.toNat then 1 else 2) ∧
        (st = 4 → 8 ≤ r.toNat → ∃ d', Does (.ringStart inp desc c r) d d' ∧ tells d d' inp 0 ∧ d'.mem = d.mem ∧ ringSt d' c r.toNat = 1) ∧
        (st = 0 ∨ st = 4 → Does (.ringStop inp desc c r) d (said d inp 27 0)) ∧
        (st ≠ 0 → st ≠ 4 → ∃ d', Does (.ringStop inp desc c r) d d' ∧ tells d d' inp 0 ∧ d'.mem = d.mem ∧
          (x.cur = none → ringSt d' c r.toNat = 4 ∧ pends d' 285) ∧
          (x.cur ≠ none → ringSt d' c r.toNat = st ∧ d'.ring c r.toNat = { x with stopping := true })) ∧
        (st ≠ 0 → st ≠ 4 → Does (.ringReset inp desc c r) d (said d inp 27 0)) ∧
        (st = 0 ∨ st = 4 → ∃ d' l, Does (.ringReset inp desc c r) d d' ∧ d'.out = .access inp 0 0 :: l ∧ d'.ring c r.toNat = {} ∧
          devIx d' c r.toNat = 0 ∧ hostIx d' c r.toNat = 0 ∧
          (d.ring c r.toNat = {} → (∀ k, k < 8 → (d.ring c k).cur = none) → tells d d' inp 0 ∧ d'.mem = d.mem)))))

/-- R426 to R428, R419, Tables 12-5, 12-6. -/
def Obligations.DescriptorAccesses : Prop :=
  (∀ d (c : Fin 2) (r : Fin 8) x rest, executes d c r x rest →
    let off := x / 2 ^ 64 % 2 ^ 24
    let v := BitVec.ofNat 64 (x / 2 ^ 128)
    let m := BitVec.ofNat 64 (x / 2 ^ 192)
    let row := fun (cmd : Instr) (op : Nat) => ∃ args, descRow cmd = some (c, r, op, args) ∧ x % 256 = op ∧ clean x args
    let old := d.rd R.TIM_SIN0_TOD_sec
    let nowhere := off % 8 = 0 ∧ pageOf off = none ∧ hitsOf off = []
    (∀ cmd op, (cmd = .regRead c r ∧ op = 1) ∨ (cmd = .regWrite c r ∧ op = 2) ∨ (cmd = .regRmw c r ∧ op = 3) ∨ (cmd = .regPoll c r ∧ op = 4) →
      row cmd op → off % 8 ≠ 0 → refuses cmd d c r x rest 10 (still d)) ∧
    (row (.regRead c r) 1 →
      (off = 0x10A80 → old < 2 ^ 48 → reports (.regRead c r) d c r x rest 0 old (still d)) ∧
      (nowhere → reports (.regRead c r) d c r x rest 1 0 fun d' => still d d' ∧ pends d' 3)) ∧
    (row (.regWrite c r) 2 → let be := x / 2 ^ 96 % 256
      (off = 0x10A80 → be = 255 → reports (.regWrite c r) d c r x rest 0 0 fun d' => still d d' ∧ d'.rd R.TIM_SIN0_TOD_sec = v.toNat % 2 ^ 48) ∧
      (∀ n : Fin 8, off = 8 * (0x2183 + 8 * n) → be = 255 → reports (.regWrite c r) d c r x rest 0 0 fun d' => still d d' ∧
        d'.rd R.TIM_SOUT_PHASE_ofs [n] = v.toNat % 2 ^ R.TIM_SOUT_PHASE_ofs.width) ∧
      (off % 8 = 0 → off / 2 ^ 16 = 0x11 → be = 255 → pageOf off = none → hitsOf off ≠ [] → (∀ h ∈ hitsOf off, h.bitsIn off (2 ^ 64 - 1) ≠ 0) →
        reports (.regWrite c r) d c r x rest 5 0 (still d)) ∧
      (nowhere → be ≠ 0 → reports (.regWrite c r) d c r x rest 1 0 fun d' => still d d' ∧ pends d' 3)) ∧
    (row (.regRmw c r) 3 → off = 0x10A80 → old < 2 ^ 48 → reports (.regRmw c r) d c r x rest 0 old fun d' => still d d' ∧
      d'.rd R.TIM_SIN0_TOD_sec = ((BitVec.ofNat 64 old &&& ~~~m) ||| (v &&& m)).toNat % 2 ^ 48) ∧
    (row (.regPoll c r) 4 → off % 8 = 0 → let us := x / 2 ^ 256 % 2 ^ 32
      (us = 0 ∨ 10000000 < us → refuses (.regPoll c r) d c r x rest 10 (still d)) ∧
      (us ≠ 0 → us ≤ 10000000 → ∃ d', Does (.regPoll c r) d d' ∧ waitsIn d d' c r x rest (d.clock + us * 65536000 + 1))) ∧
    (let a := x / 2 ^ 64 % 2 ^ 40
     let len := x / 2 ^ 128 % 2 ^ 25
     let haddr := x / 2 ^ 192 % 2 ^ 64
     let hkey := x / 2 ^ 256 % 2 ^ 32
     let qp := d.rd R.SAC_RING_qp [c, r]
     let host := d.rd R.SAC_QP_state [c, qp] = 2
     let legal := len ≠ 0 ∧ len ≤ 16777216
     let inl := x.testBit 288 = true
     (∀ errs f fail, row (.memRead c r errs f fail) 0x10 →
       (¬ legal → reports (.memRead c r errs f fail) d c r x rest 10 0 (still d)) ∧
       (legal → ¬ host → reports (.memRead c r errs f fail) d c r x rest 12 0 (still d))) ∧
     (row (.memRead c r [] [] none) 0x10 → legal → host → d.bst.slices = [] → ∀ g, inOneDroveMemory a len g → d.island (64 + g) = 0 →
       (∃ d', Does (.memRead c r [] [] none) d d' ∧ still d d' ∧
         completesWith d d' (.hostWrite c qp haddr hkey (d.bytes a len) :: d.out) c r x rest 0 len) ∧
       (another d c r → ∀ k, k ≠ 0 → k < len → ∃ d', Does (.memRead c r [] [] (some k)) d d' ∧ still d d' ∧
         breaks d d' (.hostWrite c qp haddr hkey (d.bytes a k) :: d.out) c r x rest k)) ∧
     (∀ l errs, row (.memWrite c r l errs) 0x11 →
       let bad := ¬ legal ∨ (inl ∧ (24 < len ∨ haddr ≠ 0 ∨ hkey ≠ 0)) ∨ (¬ inl ∧ x / 2 ^ 320 % 2 ^ 192 ≠ 0)
       (bad → reports (.memWrite c r l errs) d c r x rest 10 0 (still d)) ∧
       (¬ bad → ¬ inl → ¬ host → reports (.memWrite c r l errs) d c r x rest 12 0 (still d)) ∧
       (¬ bad → errs = [] → d.bst.slices = [] → ∀ g, inOneDroveMemory a len g → d.island (64 + g) = 0 →
         (inl → reports (.memWrite c r l errs) d c r x rest 0 len fun d' =>
           ∀ b, d'.byte b = if a ≤ b ∧ b < a + len then BitVec.ofNat 8 (x / 2 ^ (320 + 8 * (b - a))) else d.byte b) ∧
         (¬ inl → host → let n := min len l.length
           let took := fun d' => sacCounted d d' c 8 n ∧ ∀ b, d'.byte b = if a ≤ b ∧ b < a + n then l.getD (b - a) 0 else d.byte b
           (n = len → reports (.memWrite c r l errs) d c r x rest 0 n took) ∧
           (n < len → another d c r → ∃ d', Does (.memWrite c r l errs) d d' ∧ took d' ∧ breaks d d' d.out c r x rest n)))))) ∧
  (∀ d, On d → d.island 103 = 0 → ∀ (c : Fin 2) (r : Fin 8),
    let g := d.ring c r
    (g.cur.any (fun x => x.desc % 256 == 4) = false → Does (.regPollRead c r) d d) ∧
    (∀ cur, g = { fetched := g.fetched, cur := some cur, stopping := g.stopping } → ringSt d c r = 3 → cur.desc % 256 = 4 →
      cur.desc / 2 ^ 64 % 2 ^ 24 = 0x10A80 → d.rd R.TIM_SIN0_TOD_sec < 2 ^ 48 →
      let v := d.rd R.TIM_SIN0_TOD_sec
      let m := BitVec.ofNat 64 (cur.desc / 2 ^ 192)
      let hit := BitVec.ofNat 64 v &&& m = BitVec.ofNat 64 (cur.desc / 2 ^ 128) &&& m
      let late := cur.deadline ≠ 0 ∧ cur.deadline - 1 ≤ d.clock
      let ends := fun st => ∃ d', Does (.regPollRead c r) d d' ∧ d'.mem = d.mem ∧ ended d d' d.out c r cur.desc cur.index g.fetched g.stopping st v
      (hit → ends 0) ∧ (¬ hit → late → ends 13) ∧
      (¬ hit → ¬ late → ∃ d', Does (.regPollRead c r) d d' ∧ d'.regs = d.regs ∧ d'.out = d.out ∧ d'.mem = d.mem ∧
        d'.ring c r = { g with cur := some { cur with value := v } })))

namespace Sys2Proof.Claims

/-- The six descriptors of the route table, with their opcodes, and the three of salvos. -/
def tableRow (c : Fin 2) (r : Fin 8) (img : Option (BitVec 512)) (key : Option (BitVec 320)) (ok : Bool) (cmd : Instr) (op : Nat) : Prop :=
  (cmd = .routeInsert c r img ∧ op = 0x20) ∨ (cmd = .routeModify c r img ∧ op = 0x21) ∨ (cmd = .routeDelete c r img ∧ op = 0x22) ∨
    (cmd = .routeLookup c r key ok ∧ op = 0x23) ∨ (cmd = .chanWrite c r img ∧ op = 0x24) ∨ (cmd = .chanRead c r ok ∧ op = 0x25)
def salvoRow (c : Fin 2) (r : Fin 8) (cmd : Instr) (op : Nat) : Prop :=
  (cmd = .salvoOpen c r ∧ op = 0x28) ∨ (cmd = .salvoArm c r ∧ op = 0x29) ∨ (cmd = .salvoCancel c r ∧ op = 0x2A)

/-- The descriptor is of this opcode and names no other bits. -/
def isRow (cmd : Instr) (c : Fin 2) (r : Fin 8) (op x : Nat) : Prop := x % 256 = op ∧ ∃ args, descRow cmd = some (c, r, op, args) ∧ clean x args

/-- The stored image but for the engine's control word, and its pending fields clear (R430). -/
def storedAs (e img gen hit : Nat) : Prop :=
  e % 2 ^ 320 = img % 2 ^ 320 ∧ e / 2 ^ 348 = img / 2 ^ 348 ∧ ePendSlot e = 0 ∧ ePendIdx e = 0 ∧ eGen e = gen ∧ eLearned e = 0 ∧ eHit e = hit ∧
    eAgeEn e = eAgeEn img ∧ ePin e = ePin img

end Sys2Proof.Claims

/-- R430, R119, R122, R123, R125, R132, R143, R147, Table 04-8. -/
def Obligations.DescriptorRoutes : Prop :=
  ∀ d (c : Fin 2) (r : Fin 8) x rest, executes d c r x rest → ∀ (img : Option (BitVec 512)) (key : Option (BitVec 320)) (ok : Bool),
    let isOff := d.island 78 ≠ 0
    let clearing := d.rd R.RTE_STATUS_clearing ≠ 0
    let up := ¬ isOff ∧ ¬ clearing ∧ d.rd R.SYS_READY_ddr_ecc ≠ 0
    let qp := d.rd R.SAC_RING_qp [c, r]
    let host := d.rd R.SAC_QP_state [c, qp] = 2
    let salvo := x / 2 ^ 64 % 8
    let index := x / 2 ^ 128 % 2 ^ 24
    let hkey := x / 2 ^ 256 % 2 ^ 32
    let raddr := x / 2 ^ 320 % 2 ^ 64
    let change := fun (cmd : Instr) (op : Nat) => ((cmd = .routeInsert c r img ∧ op = 0x20) ∨ (cmd = .routeModify c r img ∧ op = 0x21) ∨
      (cmd = .routeDelete c r img ∧ op = 0x22) ∨ (cmd = .chanWrite c r img ∧ op = 0x24)) ∧ isRow cmd c r op x
    let elsewhere := fun (d' : Dev) (i : Nat) => ∀ k, k < 2 ^ 24 → k ≠ i → d'.entry k = d.entry k
    (∀ cmd op, tableRow c r img key ok cmd op ∨ salvoRow c r cmd op → isRow cmd c r op x → isOff → refuses cmd d c r x rest 2 (still d)) ∧
    (∀ cmd op, tableRow c r img key ok cmd op → isRow cmd c r op x → ¬ isOff → (clearing ∨ d.rd R.SYS_READY_ddr_ecc = 0) →
      refuses cmd d c r x rest 6 (still d)) ∧
    (∀ cmd op, salvoRow c r cmd op → isRow cmd c r op x → ¬ isOff → clearing → refuses cmd d c r x rest 6 (still d)) ∧
    (∀ cmd op, change cmd op → up →
      (4 < salvo → refuses cmd d c r x rest 10 (still d)) ∧
      (salvo ≤ 4 → ¬ host → refuses cmd d c r x rest 12 (still d)) ∧
      (salvo ≤ 4 → host → img = none → another d c r → ∃ d' v, Does cmd d d' ∧ still d d' ∧ breaks d d' d.out c r x rest v)) ∧
    (∀ v : BitVec 512, img = some v → up → host →
      let w := v.toNat
      let counted := fun (d' : Dev) => sacCounted d d' c 8 64
      (salvo ≤ 4 →
        (isRow (.routeInsert c r img) c r 0x20 x → goodStream w = false → refuses (.routeInsert c r img) d c r x rest 10 (still d)) ∧
        (isRow (.routeModify c r img) c r 0x21 x → goodStream w = false → refuses (.routeModify c r img) d c r x rest 10 (still d)) ∧
        (isRow (.chanWrite c r img) c r 0x24 x → goodChan w = false → refuses (.chanWrite c r img) d c r x rest 10 (still d))) ∧
      (goodStream w = true → isRow (.routeInsert c r img) c r 0x20 x → salvo = 0 →
        (∀ i n, d.tableLookup (eKey w) = .entry i n → refuses (.routeInsert c r img) d c r x rest 17 fun d' => still d d' ∧ counted d') ∧
        (∀ n, d.tableLookup (eKey w) = .none n → d.insertSlot (eKey w) = none → tget 0 d.rte.sids (eSid w) = 0 →
          refuses (.routeInsert c r img) d c r x rest 18 fun d' => still d d' ∧ counted d' ∧ pends d' 104) ∧
        (∀ n i, d.tableLookup (eKey w) = .none n → d.insertSlot (eKey w) = some i → tget 0 d.rte.sids (eSid w) ≠ 0 →
          refuses (.routeInsert c r img) d c r x rest 19 fun d' => still d d' ∧ counted d') ∧
        (∀ n i, d.tableLookup (eKey w) = .none n → d.insertSlot (eKey w) = some i → i < 2 ^ 24 → tget 0 d.rte.sids (eSid w) = 0 →
          d.rd R.RTE_STATUS_streams < 262144 →
          reports (.routeInsert c r img) d c r x rest 0 i fun d' => counted d' ∧ storedAs (d'.entry i) w 0 0 ∧ elsewhere d' i ∧
            d'.digest (i / 8) (i % 8) = 32768 + fingerprint (eKey w) ∧ tget 0 d'.rte.sids (eSid w) = i + 1)) ∧
      (goodStream w = true → isRow (.routeModify c r img) c r 0x21 x →
        (salvo = 0 → ∀ n, d.tableLookup (eKey w) = .none n → reports (.routeModify c r img) d c r x rest 16 0 fun d' => still d d' ∧ counted d') ∧
        (∀ i n, d.tableLookup (eKey w) = .entry i n → i < 2 ^ 24 →
          let e := d.entry i
          let free := tget 0 d.rte.sids (eSid w) = 0 ∨ tget 0 d.rte.sids (eSid w) = i + 1
          (salvo = 0 → free → ePendSlot e = 0 → reports (.routeModify c r img) d c r x rest 0 i fun d' => counted d' ∧
            storedAs (d'.entry i) w (eGen e) (eHit e) ∧ elsewhere d' i ∧ tget 0 d'.rte.sids (eSid w) = i + 1) ∧
          (salvo = 0 → free → ePendSlot e ≠ 0 → refuses (.routeModify c r img) d c r x rest 22 fun d' => still d d' ∧ counted d') ∧
          (1 ≤ salvo → salvo ≤ 4 → free → ePendSlot e = 0 → d.rd R.RTE_SALVO_STAT_state [salvo - 1] = 1 → d.changes (salvo - 1) < 2 ^ 20 →
            let j := d.changes (salvo - 1)
            reports (.routeModify c r img) d c r x rest 0 i fun d' => counted d' ∧ d'.changes (salvo - 1) = j + 1 ∧
              ePendSlot (d'.entry i) = salvo ∧ ePendIdx (d'.entry i) = j ∧ eGen (d'.entry i) = eGen e ∧ eKey (d'.entry i) = eKey e ∧
              eGen (d'.record (salvo - 1) j) = 1 - eGen e ∧ eKey (d'.record (salvo - 1) j) = eKey w ∧
              (d'.record (salvo - 1) j) / 2 ^ 348 = w / 2 ^ 348 ∧ elsewhere d' i) ∧
          (1 ≤ salvo → salvo ≤ 4 → free → ePendSlot e = 0 → d.rd R.RTE_SALVO_STAT_state [salvo - 1] ≠ 1 →
            refuses (.routeModify c r img) d c r x rest 24 fun d' => still d d' ∧ counted d'))) ∧
      (isRow (.routeDelete c r img) c r 0x22 x → salvo = 0 → goodStream w = true →
        (∀ n, d.tableLookup (eKey w) = .none n → reports (.routeDelete c r img) d c r x rest 16 0 fun d' => still d d' ∧ counted d') ∧
        (∀ i n, d.tableLookup (eKey w) = .entry i n → i < 2 ^ 24 →
          (ePendSlot (d.entry i) ≠ 0 → refuses (.routeDelete c r img) d c r x rest 22 fun d' => still d d' ∧ counted d') ∧
          (ePendSlot (d.entry i) = 0 →
            reports (.routeDelete c r img) d c r x rest 0 i fun d' => counted d' ∧ d'.entry i = 0 ∧ d'.digest (i / 8) (i % 8) = 0 ∧
              elsewhere d' i ∧ tget 0 d'.rte.sids (eSid (d.entry i)) = 0))) ∧
      (goodChan w = true → isRow (.chanWrite c r img) c r 0x24 x → salvo = 0 →
        (d.chanIndexOk index = false → refuses (.chanWrite c r img) d c r x rest 21 fun d' => still d d' ∧ counted d') ∧
        (d.chanIndexOk index = true → ePendSlot (d.entry index) = 0 →
          reports (.chanWrite c r img) d c r x rest 0 index fun d' => counted d' ∧ storedAs (d'.entry index) w (eGen (d.entry index)) 0 ∧
            elsewhere d' index))) ∧
    (up → host →
      (isRow (.routeLookup c r key ok) c r 0x23 x →
        (key = none → another d c r → ∃ d' v, Does (.routeLookup c r key ok) d d' ∧ still d d' ∧ breaks d d' d.out c r x rest v) ∧
        (∀ k, key = some k →
          (k.toNat % 256 ≠ 1 → k.toNat % 256 ≠ 2 → reports (.routeLookup c r key ok) d c r x rest 16 0 (still d)) ∧
          (k.toNat % 256 = 1 ∨ k.toNat % 256 = 2 →
            (∀ n, d.tableLookup k.toNat = .none n → reports (.routeLookup c r key ok) d c r x rest 16 0 (still d)) ∧
            (∀ n, d.tableLookup k.toNat = .ecc n → refuses (.routeLookup c r key ok) d c r x rest 7 (still d)) ∧
            (∀ i n, d.tableLookup k.toNat = .entry i n → ok = true → ∃ d', Does (.routeLookup c r key ok) d d' ∧ still d d' ∧
              completesWith d d' (.hostWrite c qp raddr hkey (d.bytes (entryAddr i) 64) :: d.out) c r x rest 0 i)))) ∧
      (isRow (.chanRead c r ok) c r 0x25 x → d.lineBad (entryAddr index) = false →
        (d.chanIndexOk index = false → refuses (.chanRead c r ok) d c r x rest 21 (still d)) ∧
        (d.chanIndexOk index = true → ok = true → ∃ d', Does (.chanRead c r ok) d d' ∧ still d d' ∧
          completesWith d d' (.hostWrite c qp raddr hkey (d.bytes (entryAddr index) 64) :: d.out) c r x rest 0 index) ∧
        (d.chanIndexOk index = true → ok = false → another d c r → ∃ d' v, Does (.chanRead c r ok) d d' ∧ still d d' ∧
          breaks d d' d.out c r x rest v))) ∧
    (¬ isOff → ¬ clearing →
      let st := fun (d : Dev) (s : Nat) => d.rd R.RTE_SALVO_STAT_state [s]
      let s := x / 2 ^ 64 % 4
      let quiet := fun (d' : Dev) => d'.mem = d.mem ∧ d'.isl = d.isl
      (isRow (.salvoOpen c r) c r 0x28 x →
        ((∀ s, s < 4 → st d s ≠ 0) → refuses (.salvoOpen c r) d c r x rest 23 (still d)) ∧
        (∀ s : Fin 4, st d s = 0 → (∀ k, k < s.val → st d k ≠ 0) →
          reports (.salvoOpen c r) d c r x rest 0 s fun d' => quiet d' ∧ st d' s = 1 ∧ d'.changes s = 0)) ∧
      (isRow (.salvoArm c r) c r 0x29 x →
        let t := rawToBeads (x / 2 ^ 128 % 2 ^ 96)
        let limit := d.now + d.rd R.RTE_SALVO_CFG_late_us * 65536000
        (st d s ≠ 1 → refuses (.salvoArm c r) d c r x rest 24 (still d)) ∧
        (st d s = 1 → reports (.salvoArm c r) d c r x rest 0 (if t < limit then 1 else 0) fun d' => quiet d' ∧ st d' s = 2 ∧ pends d' 109 ∧
          d'.rd R.RTE_SALVO_STAT_all [s] = x / 2 ^ 66 % 2 ∧ d'.rd R.RTE_SALVO_STAT_late [s] = (if t < limit then 1 else 0) ∧
          (limit ≤ t → d'.teff s = t))) ∧
      (isRow (.salvoCancel c r) c r 0x2A x →
        let before := d.now < d.teff s
        (st d s = 1 ∨ (st d s = 2 ∧ before) → reports (.salvoCancel c r) d c r x rest 0 0 fun d' => quiet d' ∧ st d' s = 4) ∧
        (st d s = 3 ∨ (st d s = 2 ∧ ¬ before) → reports (.salvoCancel c r) d c r x rest 26 0 (still d)) ∧
        (st d s = 0 ∨ 3 < st d s → reports (.salvoCancel c r) d c r x rest 24 0 (still d))))

namespace Sys2Proof.Claims

def semTaken (d : Dev) (s : Nat) : Prop := d.rd R.SEM_STATE_held [s] ≠ 0
def semOwner (d : Dev) (s : Nat) : Nat := d.rd R.SEM_STATE_owner [s]
/-- Input `n` waits for semaphore `s` at the unit. -/
def semWaiter (d : Dev) (s n : Nat) : Prop := hasBit d R.SEM_STATE_waiters [s] n = true
/-- Input `n` holds semaphore `s`, or nobody does. -/
def semMine (d : Dev) (s n : Nat) : Prop := semTaken d s ∧ semOwner d s = n
def semOpen (d : Dev) (s n : Nat) : Prop := ¬ semTaken d s ∨ semOwner d s = n

/-- No thread and no descriptor waits for a semaphore inside its drover or controller. -/
def noneInside (d : Dev) : Prop := (∀ n t, (d.thr n t).semWait = none) ∧ ∀ c r, c < 2 → r < 8 → (d.ring c r).cur = none

/-- A semaphore that its holder gives up: the waiter with the highest number has it, or nobody. -/
def passedOn (d d' : Dev) (s : Nat) : Prop :=
  (∀ n, n < 101 → semWaiter d s n → (∀ m, n < m → m < 101 → ¬ semWaiter d s m) → semMine d' s n) ∧
  ((∀ n, n < 101 → ¬ semWaiter d s n) → noneInside d → ¬ semTaken d' s)

end Sys2Proof.Claims

/-- R438 to R442, R444. -/
def Sys2Proof.Claims.SemaphoreUnit : Prop :=
  ∀ d, On d →
    (∀ (inp : Fin 101) (sem : BitVec 8) (v : BitVec 32), d.island 105 ≠ 0 → Does (.semTryRead inp sem) d (said d inp 2 0) ∧
      Does (.semRelWrite inp sem) d (said d inp 2 0) ∧ Does (.semForce inp v) d (said d inp 2 0)) ∧
    (d.island 105 = 0 →
      (∀ (inp : Fin 101) (sem : BitVec 8), let s := sem.toNat
        (semMine d s inp → Does (.semTryRead inp sem) d (said d inp 0 (1 + 2 * inp))) ∧
        (semTaken d s → semOwner d s ≠ inp → Does (.semTryRead inp sem) d (said d inp 0 (2 * semOwner d s))) ∧
        (¬ semTaken d s → Does (.semTryRead inp sem) d
          (said ((d.wr R.SEM_STATE_owner [s] inp).wr R.SEM_STATE_held [s] 1) inp 0 (1 + 2 * inp))) ∧
        (¬ semMine d s inp → Does (.semRelWrite inp sem) d (said d inp 14 0)) ∧
        (semMine d s inp → ∃ d' l, Does (.semRelWrite inp sem) d d' ∧ d'.out = .access inp 0 0 :: l ∧ passedOn d d' s)) ∧
      (∀ (inp : Fin 101) (v : BitVec 32), let s := v.toNat % 256
        ((inp : Nat) < 97 → Does (.semForce inp v) d ((said d inp 3 0).raise 3 (inp + 768))) ∧
        (97 ≤ (inp : Nat) → (v.getLsbD 8 = false ∨ ¬ semTaken d s) → Does (.semForce inp v) d (said d inp 0 0)) ∧
        (97 ≤ (inp : Nat) → v.getLsbD 8 = true → semTaken d s →
          ∃ d' l, Does (.semForce inp v) d d' ∧ d'.out = .access inp 0 0 :: l ∧ passedOn d d' s))) ∧
    (d.rd R.SEM_CFG_search_en = 0 → Does .deadlockSearch d d) ∧
    (d.rd R.SEM_CFG_search_en ≠ 0 → noneInside d → (∀ s n, s < 256 → n < 101 → ¬ semWaiter d s n) →
      Does .deadlockSearch d { d with sac := { d.sac with cycles := [] } }) ∧
    (d.rd R.SEM_CFG_search_en ≠ 0 → ∀ a b s1 s2 : Nat, a < b → b < 101 → s1 < 256 → s2 < 256 → s1 ≠ s2 →
      (∀ s n, s < 256 → n < 101 → (semWaiter d s n ↔ (s = s1 ∧ n = a) ∨ (s = s2 ∧ n = b))) →
      semMine d s1 b → semMine d s2 a → ∃ d', Does .deadlockSearch d d' ∧ d'.sac.cycles = [[a, b]] ∧ d'.mem = d.mem ∧
        ([a, b] ∉ d.sac.cycles → d'.rd R.SEM_DL_LOG_valid = 1 ∧ d'.rd R.SEM_DL_LOG_len = 2 ∧ d'.rd R.SEM_DL_LOG_members = a + 128 * b ∧ pends d' 293) ∧
        (d.rd R.SEM_CFG_break_en = 0 → noneInside d → semMine d' s1 b ∧ semMine d' s2 a ∧ semWaiter d' s1 a ∧ semWaiter d' s2 b ∧
          ([a, b] ∈ d.sac.cycles → d'.regs = d.regs)) ∧
        (d.rd R.SEM_CFG_break_en ≠ 0 → semMine d' s2 b ∧ ¬ semWaiter d' s2 b ∧ d'.rd R.SEM_STATE_revoked [s2] = 1 ∧ d'.rd R.SEM_DL_LOG_sem = s2 ∧
          d'.rd R.SEM_DL_LOG_broken = 1 ∧ pends d' 294)) ∧
    (∀ (r : Fin 3) (inp : Fin 101) (age : BitVec 32),
      let thr := d.rd R.SEM_ARB_THR_thr [r]
      let k : Nat := 128 * r + inp
      let tells := age ≠ 0 ∧ thr ≠ 0 ∧ thr ≤ age.toNat ∧ tget false d.sac.starved k = false
      ∃ d' e, Does (.arbStarve r inp age) d d' ∧ d'.rd R.SEM_ARB_AGE_cur [r, inp] = age.toNat ∧
        d'.rd R.SEM_ARB_AGE_max [r, inp] = max (d.rd R.SEM_ARB_AGE_max [r, inp]) age.toNat ∧ d'.mem = d.mem ∧ d'.out = d.out ∧
        (tget false d'.sac.starved k = (if age = 0 then false else tget false d.sac.starved k || decide (thr ≠ 0 ∧ thr ≤ age.toNat))) ∧
        (tells → d' = Dev.raise e 295 k ∧ e.evt = d.evt) ∧ (¬ tells → d'.evt = d.evt))

/-- R431, R438, R439, R423, Table 12-6. -/
def Sys2Proof.Claims.DescriptorWaits : Prop :=
  (∀ d (c : Fin 2) (r : Fin 8) x rest, executes d c r x rest →
    let acq := Instr.semAcqDescriptor c r
    let try_ := Instr.semTryDescriptor c r
    let rel := Instr.semRelDescriptor c r
    let s := x / 2 ^ 64 % 256
    let us := x / 2 ^ 96 % 2 ^ 32
    let n : Nat := 97 + c
    let till := if us = 0 then 0 else d.clock + us * 65536000 + 1
    let t := rawToBeads (x / 2 ^ 64 % 2 ^ 96)
    (∀ cmd op, (cmd = acq ∧ op = 0x30) ∨ (cmd = try_ ∧ op = 0x31) ∨ (cmd = rel ∧ op = 0x32) → isRow cmd c r op x → d.island 105 ≠ 0 →
      reports cmd d c r x rest 2 0 (still d)) ∧
    (d.island 105 = 0 →
      (isRow try_ c r 0x31 x →
        (semOpen d s n → reports try_ d c r x rest 0 1 fun d' => still d d' ∧ semMine d' s n) ∧
        (¬ semOpen d s n → reports try_ d c r x rest 0 0 fun d' => still d d' ∧ semTaken d' s ∧ semOwner d' s = semOwner d s)) ∧
      (isRow rel c r 0x32 x →
        (¬ semMine d s n → reports rel d c r x rest 14 0 (still d)) ∧
        (semMine d s n → (∀ k, k < 101 → ¬ semWaiter d s k) → noneInside d → reports rel d c r x rest 0 0 fun d' => still d d' ∧ ¬ semTaken d' s)) ∧
      (isRow acq c r 0x30 x →
        (∀ s', s' < 256 → ¬ semWaiter d s' n) → (∀ k, k < 8 → k ≠ r.val → (d.ring c k).cur = none) →
        (semOpen d s n → reports acq d c r x rest 0 0 fun d' => still d d' ∧ semMine d' s n) ∧
        (¬ semOpen d s n → ∃ d', Does acq d d' ∧ waitsIn d d' c r x rest till ∧ semWaiter d' s n ∧ semOwner d' s = semOwner d s)) ∧
      (isRow acq c r 0x30 x → ∀ s', s' < 256 → semWaiter d s' n → ∃ d', Does acq d d' ∧ waitsIn d d' c r x rest till ∧
        ∀ z k, z < 256 → k < 101 → (semWaiter d' z k ↔ semWaiter d z k))) ∧
    (isRow (.waitUntil c r) c r 0x38 x →
      (t ≤ d.now → reports (.waitUntil c r) d c r x rest 0 1 (still d)) ∧
      (d.now < t → ∃ d', Does (.waitUntil c r) d d' ∧ waitsIn d d' c r x rest 0))) ∧
  (∀ d, On d → d.island 103 = 0 → ∀ (c : Fin 2) (r : Fin 8),
    let g := d.ring c r
    let n : Nat := 97 + c
    let inside := fun op cur => g = { fetched := g.fetched, cur := some cur, stopping := g.stopping } ∧ ringSt d c r = 3 ∧ cur.desc % 256 = op
    let ends := fun cmd cur st => ∃ d', Does cmd d d' ∧ d'.mem = d.mem ∧ ended d d' d.out c r cur.desc cur.index g.fetched g.stopping st 0
    (g.cur.any (fun x => x.desc % 256 == 0x30) = false → Does (.semAcqTimeout c r) d d) ∧
    (g.cur.any (fun x => x.desc % 256 == 0x38) = false → Does (.waitUntilReached c r) d d) ∧
    (∀ cur : CurDesc, inside 0x30 cur →
      (cur.deadline = 0 ∨ d.clock < cur.deadline - 1 → Does (.semAcqTimeout c r) d d) ∧
      (cur.deadline ≠ 0 → cur.deadline - 1 ≤ d.clock → (∀ k, k < 8 → k ≠ r.val → (d.ring c k).cur = none) → ends (.semAcqTimeout c r) cur 13 ∧
        (cur.asked = true → ∀ s, s < 256 → (∀ z, z < s → ¬ semWaiter d z n) → semWaiter d s n →
          ∃ d', Does (.semAcqTimeout c r) d d' ∧ ¬ semWaiter d' s n))) ∧
    (∀ cur : CurDesc, inside 0x38 cur → let t := rawToBeads (cur.desc / 2 ^ 64 % 2 ^ 96)
      (t ≤ d.now → ends (.waitUntilReached c r) cur 0) ∧ (d.now < t → Does (.waitUntilReached c r) d d)))

/-- Semaphores by register, deadlocks, starving requests; Descriptors that wait: semaphores and time. -/
def Obligations.SemaphoresAndWaits : Prop :=
  Sys2Proof.Claims.SemaphoreUnit ∧ Sys2Proof.Claims.DescriptorWaits

namespace Sys2Proof.Claims

/-- Source `src` is delivered to event ring `e` of controller `c`. -/
def toRing (d : Dev) (src c e : Nat) : Prop :=
  d.rd (([R.EVT_SRC_ring_a0, R.EVT_SRC_ring_a1, R.EVT_SRC_ring_b0, R.EVT_SRC_ring_b1].getD (2 * c + e) R.EVT_SRC_ring_a0)) [src] ≠ 0
def toMem (d : Dev) (src : Nat) : Prop := d.rd R.EVT_SRC_mring [src] ≠ 0

/-- An event record (Table 12-8). -/
def evtBits (src info time phase : Nat) (lost : Bool) : BitVec 128 :=
  BitVec.ofNat 96 time ++ BitVec.ofNat 16 info ++ 0#5 ++ BitVec.ofBool lost ++ BitVec.ofNat 1 phase ++ BitVec.ofNat 9 src

/-- An event ring has room for `n` records and can be reached (R421, R433, R457). -/
def evtRoom (d : Dev) (c r n : Nat) : Prop :=
  d.rd R.SAC_RING_en [c, r] ≠ 0 ∧ ringSt d c r ≠ 4 ∧ qpState d c (d.rd R.SAC_RING_qp [c, r]) = 2 ∧
    (BitVec.ofNat 32 (devIx d c r) - BitVec.ofNat 32 (hostIx d c r)).toNat + n ≤ 2 ^ sizeLog d c r

/-- The write of a record at index `i` of an event ring. -/
def evtWrite (d : Dev) (c r i : Nat) (v : BitVec 128) : Out :=
  .hostWrite c (d.rd R.SAC_RING_qp [c, r]) (d.rd R.SAC_RING_base [c, r] + 16 * (i % 2 ^ sizeLog d c r)) (d.rd R.SAC_RING_rkey [c, r])
    (leBytes 16 v.toNat)

/-- The phase of the record at index `i` of a ring of 2^log entries. -/
def phaseAt_ (i log : Nat) : Nat := 1 - i / 2 ^ log % 2

/-- Raise `x` has been handed to the destinations of its source, said for a source with none, with one event ring, with the
memory ring. -/
def handed (d d' : Dev) (x : EvRec) : Prop :=
  ((∀ c e, c < 2 → e < 2 → ¬ toRing d x.src c e) → ¬ toMem d x.src → d'.out = d.out ∧ d'.mem = d.mem ∧ d'.sac = d.sac) ∧
  (∀ c e, c < 2 → e < 2 → (∀ c' e', c' < 2 → e' < 2 → (toRing d x.src c' e' ↔ c' = c ∧ e' = e)) → ¬ toMem d x.src →
    (x.src ≠ 291 ∨ x.info ≠ 2 * c + e) → devIx d c (16 + e) < 2 ^ 32 → hostIx d c (16 + e) < 2 ^ 32 →
    let r := 16 + e
    let i := devIx d c r
    let log := sizeLog d c r
    let lost := tget false d.sac.evtLost (2 * c + e)
    (∀ n, n = (if x.pre = none then 1 else 2) →
      (evtRoom d c r n → devIx d' c r = (i + n) % 2 ^ 32 ∧ d'.mem = d.mem ∧ sacCounted d d' c 3 n ∧
        tget false d'.sac.evtLost (2 * c + e) = false ∧
        (x.pre = none → d'.out = evtWrite d c r i (evtBits x.src x.info x.time (phaseAt_ i log) lost) :: d.out) ∧
        (∀ p, x.pre = some p → let j := (i + 1) % 2 ^ 32
          d'.out = evtWrite d c r j (evtBits x.src (x.info % 2 ^ 15 + 2 ^ 15) x.time (phaseAt_ j log) false) ::
            evtWrite d c r i (evtBits x.src (x.info % 2 ^ 15) p (phaseAt_ i log) lost) :: d.out)) ∧
      (¬ evtRoom d c r n → d'.out = d.out ∧ d'.mem = d.mem ∧ sacCounted d d' c 4 n ∧ tget false d'.sac.evtLost (2 * c + e) = true ∧
        (lost = false → pends d' 291)))) ∧
  ((∀ c e, c < 2 → e < 2 → ¬ toRing d x.src c e) → toMem d x.src → x.pre = none → d.rd R.EVT_MRING_produced < 2 ^ 32 →
    d.rd R.EVT_MRING_CONS_consumed < 2 ^ 32 →
    let i := d.rd R.EVT_MRING_produced
    let log := min 16 (max 6 (d.rd R.EVT_MRING_size_log))
    let a := d.rd R.EVT_MRING_base / 4096 * 4096 + 16 * (i % 2 ^ log)
    let room := (BitVec.ofNat 32 i - BitVec.ofNat 32 (d.rd R.EVT_MRING_CONS_consumed)).toNat < 2 ^ log
    (d.rd R.EVT_MRING_en = 0 → d'.mem = d.mem ∧ d'.out = d.out) ∧
    (d.rd R.EVT_MRING_en ≠ 0 → room → d'.rd R.EVT_MRING_produced = (i + 1) % 2 ^ 32 ∧ d'.out = d.out ∧ d'.evt.mringLost = false ∧
      d'.bytes a 16 = leBytes 16 (evtBits x.src x.info x.time (phaseAt_ i log) d.evt.mringLost).toNat ∧
      ∀ b, b < a ∨ a + 16 ≤ b → d'.byte b = d.byte b) ∧
    (d.rd R.EVT_MRING_en ≠ 0 → ¬ room → d'.mem = d.mem ∧ d'.out = d.out ∧ d'.evt.mringLost = true ∧
      d'.rd R.EVT_STAT_mring_lost = min (2 ^ 16 - 1) (d.rd R.EVT_STAT_mring_lost + 1)))

end Sys2Proof.Claims

/-- R448, R450, R452, R454, R458, R459. Where a raise joins the queue is the model's reading (log entry 161). -/
def Sys2Proof.Claims.Raises : Prop :=
  ∀ (d : Dev) (src info : Nat), src < 320 →
    let d' := d.raise src info
    let x : EvRec := { src := src, info := info % 2 ^ 16, time := d.nowRaw }
    (evtDefaultH src = 0 → d' = d) ∧
    (evtDefaultH src ≠ 0 → pends d' src ∧ d'.mem = d.mem ∧ d'.out = d.out ∧ d'.sac = d.sac ∧
      (∀ s, s < 320 → s ≠ src → (pends d' s ↔ pends d s)) ∧
      (d.rd R.EVT_SRC_hrd [src] ≠ 0 → hasBit d' R.EVT_HPEND_pend [src / 64] (src % 64) = true) ∧
      (d.rd R.EVT_SRC_hrd [src] = 0 → ∀ w, w < 5 → d'.rd R.EVT_HPEND_pend [w] = d.rd R.EVT_HPEND_pend [w]) ∧
      (d.rd R.EVT_CFG_en = 0 → d'.evt = d.evt) ∧
      (d.rd R.EVT_CFG_en ≠ 0 →
        (d.island 105 ≠ 2 → d.evt.queue.length < 4096 →
          let ahead := fun (y : EvRec) => y.time ≠ x.time ∨ y.src ≤ src
          ∀ a b, d.evt.queue = a ++ b → (∀ y ∈ b, ¬ ahead y) → (∀ i y, a = i ++ [y] → ahead y) →
            d'.evt = { d.evt with queue := a ++ x :: b }) ∧
        (d.island 105 ≠ 2 → 4096 ≤ d.evt.queue.length → d'.evt = d.evt ∧
          d'.rd R.EVT_STAT_q_lost = min (2 ^ 16 - 1) (d.rd R.EVT_STAT_q_lost + 1)) ∧
        (d.island 105 = 2 → (∀ a b, d.evt.latched = a ++ b → (∀ y ∈ a, y.src ≤ src) → (∀ y ∈ b, src < y.src) →
          d'.evt = { d.evt with latched := a ++ x :: b }))))

/-- R433, R450, R451, R453 to R457, R459, Table 12-8. -/
def Sys2Proof.Claims.EventDelivery : Prop :=
  ∀ d, On d →
    let us := fun (src : Nat) => d.rd R.EVT_SRC_coal_us [src]
    let win := fun (d : Dev) (src : Nat) => tget 0 d.evt.window src
    let new := fun (src : Nat) => if us src = 0 then 0 else d.clock + us src * 65536000 + 1
    (d.island 105 ≠ 0 → Does .eventAccept d d) ∧
    (d.island 105 = 0 → d.evt.latched = [] →
      (d.evt.queue = [] → Does .eventAccept d d) ∧
      (∀ x rest, d.evt.queue = x :: rest →
        (win d x.src ≠ 0 → ∃ d', Does .eventAccept d d' ∧ d'.evt.queue = rest ∧ tget none d'.evt.held x.src = some x ∧ d'.out = d.out ∧
          d'.mem = d.mem ∧ d'.rd R.EVT_SRC_coalesced [x.src] = min (2 ^ 16 - 1) (d.rd R.EVT_SRC_coalesced [x.src] + 1)) ∧
        (win d x.src = 0 → ∃ d', Does .eventAccept d d' ∧ rest.Sublist d'.evt.queue ∧ win d' x.src = new x.src ∧ handed d d' x))) ∧
    (∀ x rest, d.island 105 = 0 → d.evt.queue = [] → d.evt.latched = x :: rest → rest.length < 4096 → win d x.src ≠ 0 →
      ∃ d', Does .eventAccept d d' ∧ d'.evt.latched = [] ∧ d'.evt.queue = rest ∧ tget none d'.evt.held x.src = some x) ∧
    (∀ src : Fin 320,
      let w := win d src
      let beyond := w ≠ 0 ∧ w - 1 ≤ d.clock
      (¬ beyond → Does (.coalesceWindowEnd src) d d) ∧
      (beyond → tget none d.evt.held src = none → ∃ d', Does (.coalesceWindowEnd src) d d' ∧ win d' src = 0 ∧ d'.out = d.out ∧ d'.mem = d.mem ∧
        d'.regs = d.regs) ∧
      (∀ x, beyond → tget none d.evt.held src = some x → x.src = src → ∃ d', Does (.coalesceWindowEnd src) d d' ∧ win d' src = new src ∧
        tget none d'.evt.held src = none ∧ handed d d' x))

/-- A raise; Accepting raises, coalescing windows, event records. -/
def Obligations.Events : Prop :=
  Sys2Proof.Claims.Raises ∧ Sys2Proof.Claims.EventDelivery

namespace Sys2Proof.Claims

/-- An address of the registers that only the Tally and its alignment change. -/
def tallyKey (k : Nat) : Prop := 0x880000 ≤ k ∧ k < 0x900000

/-- Everything of `d'` is at its reset value but what a reset of the device leaves of `d`: OTP, the NV array, the Tally
(R464, R514, Table 14-5). -/
def resetOf (d d' : Dev) : Prop :=
  (∀ (f : Field) ix, ¬ tallyKey (f.key ix) → d'.rd f ix = f.reset ix) ∧
  (∀ (f : Field) ix, tallyKey (f.key ix) → f.key ix ≠ R.TLY_STAT_time_valid.key [] → d'.rd f ix = d.rd f ix) ∧
  (∀ a, d'.byte a = if 0x10000000 ≤ a ∧ a < 0x30000000 then d.byte a else 0) ∧
  d'.isl = [] ∧ d'.tmo = [] ∧ d'.evt = {} ∧ d'.prt = {} ∧ d'.rte = {} ∧ d'.med = {} ∧ d'.drv = {} ∧ d'.fab = {} ∧ d'.cfg = {} ∧
  d'.ddr = {} ∧ d'.sac = {} ∧ d'.hrd = {} ∧ d'.nvc = { area0 := d.nvc.area0, area1 := d.nvc.area1 } ∧
  d'.bst = { area0 := d.bst.area0, area1 := d.bst.area1 } ∧ d'.lcs = { otp := d.lcs.otp, stash := d.lcs.stash } ∧
  d'.tly.area = d.tly.area ∧ d'.tly.params = d.tly.params ∧ d'.tly.inbox = d.tly.inbox ∧ d'.tly.aligned = false

/-- The device is in OFF: reset, with FLOCK_DONE low. -/
def offNow (d d' : Dev) : Prop :=
  resetOf d d' ∧ d'.pwr = { off := true } ∧ d'.out = if d.cfg.flockLow then d.out else .flock true :: d.out

/-- PWR_LAST_WAKE as a wake leaves it. -/
def lastWake (d' : Dev) (src inp from_ time during aborted : Nat) : Prop :=
  d'.rd R.PWR_LAST_WAKE_source = src % 2 ^ R.PWR_LAST_WAKE_source.width ∧ d'.rd R.PWR_LAST_WAKE_during_entry = during ∧
    d'.rd R.PWR_LAST_WAKE_aborted = aborted ∧ d'.rd R.PWR_LAST_WAKE_valid = 1 ∧
    (src = 6 → d'.rd R.PWR_LAST_WAKE_input = inp % 2 ^ R.PWR_LAST_WAKE_input.width) ∧
    d'.rd R.PWR_LAST_WAKE_from = from_ % 2 ^ R.PWR_LAST_WAKE_from.width ∧ d'.rd R.PWR_LAST_WAKE_time = time % 2 ^ 96

/-- Wake source `src` may wake the device now, and is enabled (Table 14-6). -/
def wakes (d : Dev) (src : Nat) : Prop :=
  let st := if d.rd R.PWR_STAT_entering ≠ 0 then d.pwr.target else d.rd R.PWR_STAT_state
  (if 7 ≤ src ∧ src ≤ 10 then st = 1 else st = 1 ∨ st = 2 ∨ st = 3) ∧ (src = 6 ∨ hasBit d R.PWR_WAKE_EN_en [] src = true) ∧
    d.rd R.PWR_STAT_exiting = 0

/-- Source `src` has fired and waits for the latch. -/
def fired (d : Dev) (src inp : Nat) : Dev := { d with pwr := { d.pwr with fired := d.pwr.fired ++ [(src, inp, d.nowRaw)] } }

end Sys2Proof.Claims

/-- R463 to R466, R468, R514, R541, R543, R483, R485, Tables 14-3, 14-8. -/
def Obligations.ResetAndStartUp : Prop :=
  ∀ d,
    (∃ d', Does .porNAssert d d' ∧ offNow d d') ∧
    (∀ n : Fin 10, (n.val = 0 ∨ n.val = 1 ∨ n.val = 2 ∨ n.val = 4 → ∃ d', Does (.railCollapse n) d d' ∧ offNow d d') ∧
      (n.val ≠ 0 → n.val ≠ 1 → n.val ≠ 2 → n.val ≠ 4 → Does (.railCollapse n) d d)) ∧
    (On d → ∀ n : Fin 10, ∃ d', Does (.railWindowExit n) d d' ∧ hasBit d' R.PWR_RAIL_alarm [] n = true ∧ hasBit d' R.PWR_RAIL_in_win [] n = false ∧
      pends d' 317 ∧ d'.mem = d.mem ∧ d'.isl = d.isl ∧
      ∀ k : Fin 10, k ≠ n → hasBit d' R.PWR_RAIL_alarm [] k = hasBit d R.PWR_RAIL_alarm [] k ∧
        hasBit d' R.PWR_RAIL_in_win [] k = hasBit d R.PWR_RAIL_in_win [] k) ∧
    (∀ (mode : BitVec 2) (bell pull : Bool) (cut : Option Nat),
      (On d → d.pwr.started = true → Does (.powerOnResetRelease mode bell pull cut) d d) ∧
      (d.pwr.off = true ∨ d.pwr.started = false → ∃ d', Does (.powerOnResetRelease mode bell pull cut) d d' ∧
        (cut = none → d'.pwr.off = false) ∧
        (d'.pwr.off = false → d'.pwr.started = true ∧ d'.rd R.CFG_STATUS_mode = mode.toNat ∧ d'.rd R.CFG_STATUS_bell = (if bell then 1 else 0) ∧
          d'.rd R.CFG_STATUS_pull = (if pull then 1 else 0) ∧ d'.rd R.PWR_RAIL_in_win = 1023 ∧ d'.rd R.SYS_READY_lc = 1 ∧
          d'.rd R.SYS_READY_repair = 1 ∧ d'.rd R.SYS_READY_nv = 0 ∧ d'.rd R.SYS_UID_uid = d.lcs.otp % 2 ^ 128 ∧ pends d' 1)) ∧
      (On d → d.rd R.LCS_STATE_pending = 0 → Does (.lcReset mode bell pull cut) d d) ∧
      (On d → d.rd R.LCS_STATE_pending ≠ 0 → ∃ d', Does (.lcReset mode bell pull cut) d d' ∧
        Does (.powerOnResetRelease mode bell pull cut) { d with pwr := { d.pwr with started := false } } d')) ∧
    (On d →
      let due := d.rd R.SYS_READY_repair ≠ 0 ∧ d.rd R.SYS_READY_nv = 0
      (¬ due → Does .nvAwake d d) ∧
      (due → d.rd R.PWR_STAT_state ≠ 0 →
        (d.rd R.PWR_STAT_exiting = 0 → Does .nvAwake d d) ∧
        (d.rd R.PWR_STAT_exiting ≠ 0 → ∃ d', Does .nvAwake d d' ∧ d'.rd R.SYS_READY_nv = 1 ∧ unitState d' = 1 ∧ d'.cfg.load = 3 ∧
          d'.rd R.CFG_STATUS_src = d.rd R.CFG_STATUS_src % 2 ^ R.CFG_STATUS_src.width ∧ d'.mem = d.mem)) ∧
      (due → d.rd R.PWR_STAT_state = 0 → ∃ d', Does .nvAwake d d' ∧ d'.rd R.SYS_READY_nv = 1 ∧ d'.mem = d.mem ∧
        (d.fwChoice = none → d'.rd R.HRD_STAT_state = 3) ∧
        (∀ k, d.fwChoice = some k → d'.rd R.HRD_STAT_state = 1 ∧ d'.rd R.HRD_STAT_slot = k ∧ d'.rd R.HRD_STAT_fw_ver = d.fwVersion k % 2 ^ 32) ∧
        (unitState d = 0 → unitState d' = 1 ∧ d'.cfg.load = 1 ∧
          (d.rd R.CFG_STATUS_mode = 1 → d'.rd R.CFG_STATUS_src = 3) ∧ (d.rd R.CFG_STATUS_mode = 2 → d'.rd R.CFG_STATUS_src = 4)))) ∧
    (On d → ∀ bad, (d.cfg.load ≠ 3 ∨ d.loadNow bad = none → Does (.exitReloadDone bad) d d) ∧
      (∀ img r, d.cfg.load = 3 → d.loadNow bad = some (img, r) →
        (r.code ≠ 0 → r.code < 16 → ∃ d', Does (.exitReloadDone bad) d d' ∧ loadFails d' r.code ∧ d'.rd R.PWR_STAT_exiting = 0 ∧
          d'.rd R.PWR_STAT_state = 0 ∧ pends d' 312) ∧
        (r.code = 0 → ∃ d', Does (.exitReloadDone bad) d d' ∧ unitState d' = 2 ∧ d'.rd R.CFG_STATUS_result = 0 ∧ d'.cfg.seenHigh = true ∧
          d'.cfg.seenAt = d.clock + 1)))

/-- R470, R471, R475 to R479, R481, R482, Tables 14-5 to 14-8. -/
def Obligations.PowerStates : Prop :=
  ∀ d, On d →
    let st := d.rd R.PWR_STAT_state
    let entering := d.rd R.PWR_STAT_entering ≠ 0
    let exiting := d.rd R.PWR_STAT_exiting ≠ 0
    let row := fun (inp : Fin 101) (cmd : Instr) (k : Nat) => (cmd = .pwrReqRun inp ∧ k = 0) ∨ (cmd = .pwrReqIdle inp ∧ k = 1) ∨
      (cmd = .pwrReqDoze inp ∧ k = 2) ∨ (cmd = .pwrReqHibernate inp ∧ k = 3)
    let slot := fun p : Nat → Prop => ∃ k, k < 4 ∧ p (d.rd R.CFG_PR_STAT_state [k])
    let salvo := ∃ k, k < 4 ∧ (d.rd R.RTE_SALVO_STAT_state [k] = 2 ∨ d.rd R.RTE_SALVO_STAT_state [k] = 3 ∨ d.rd R.RTE_SALVO_STAT_state [k] = 4)
    let busy := entering ∨ exiting ∨ unitState d = 1 ∨ unitState d = 2
    let slave := d.rd R.CFG_STATUS_src = 3 ∨ d.rd R.CFG_STATUS_src = 4
    let held := slot fun x => x = 3 ∨ x = 5
    (∀ inp cmd k, row inp cmd k →
      let refused := fun code => ∃ d', Does cmd d d' ∧ d'.out = .access inp 27 0 :: d.out ∧ d' = said (d.wr R.PWR_STAT_result [] code) inp 27 0
      ((inp : Nat) < 97 → Does cmd d ((said d inp 3 0).raise 3 (inp + 768))) ∧
      (97 ≤ (inp : Nat) → k = st → ¬ (k = 0 ∧ entering) → Does cmd d (said (d.wr R.PWR_STAT_result [] 0) inp 0 0)) ∧
      (97 ≤ (inp : Nat) → k = 0 → (entering ∨ st ≠ 0) →
        (wakes d 6 → Does cmd d (said (fired d 6 inp) inp 0 0)) ∧ (¬ wakes d 6 → Does cmd d (said d inp 0 0))) ∧
      (97 ≤ (inp : Nat) → k ≠ 0 → k ≠ st →
        (busy → refused 1) ∧ (¬ busy → slave → refused 2) ∧ (¬ busy → ¬ slave → held → refused 3) ∧
        (¬ busy → ¬ slave → ¬ held → 2 ≤ k → salvo → refused 4) ∧
        (¬ busy → ¬ slave → ¬ held → (k < 2 ∨ ¬ salvo) → k < st → refused 5) ∧
        (¬ busy → ¬ slave → ¬ held → (k < 2 ∨ ¬ salvo) → st < k → ∃ d', Does cmd d d' ∧ tells d d' inp 0 ∧ d'.rd R.PWR_STAT_entering = 1 ∧
          d'.rd R.PWR_STAT_result = 0 ∧ d'.rd R.PWR_STAT_state = st ∧ d'.pwr.target = k ∧ d'.pwr.stage = (if st = 0 then 2 else 3) ∧ d'.mem = d.mem ∧
          (st = 0 → ∀ j : Fin 4, d.rd R.CFG_PR_STAT_state [j] = 1 → slotIs d' j 7 15)))) ∧
    (let p := d.pwr
     let k := p.target
     (¬ entering ∨ (p.stage ≠ 2 ∧ p.stage ≠ 3 ∧ p.stage ≠ 5) → Does .entryContinue d d) ∧
     (entering → p.stage = 2 → (slot (· = 4) → Does .entryContinue d d) ∧
       (¬ slot (· = 4) → Does .entryContinue d { d with pwr := { p with stage := 3, stopped := true, stoppedAt := d.now } })) ∧
     (entering → p.stage = 3 → (2 ≤ k ∧ d.nvAnyBusy = true → Does .entryContinue d d) ∧
       (k < 2 ∨ d.nvAnyBusy = false → Does .entryContinue d { d with pwr := { p with stage := 5 } })) ∧
     (entering → p.stage = 5 → 1 ≤ k → k ≤ 3 → p.latched = none → ∃ d', Does .entryContinue d d' ∧ d'.rd R.PWR_STAT_state = k ∧
       d'.rd R.PWR_STAT_entering = 0 ∧ d'.rd R.PWR_STAT_entries = (d.rd R.PWR_STAT_entries + 1) % 2 ^ R.PWR_STAT_entries.width ∧ pends d' 312 ∧
       d'.pwr.stage = 0 ∧
       (st = 0 → d'.rd R.SYS_READY_fabric = 0 ∧ ∀ i, i < 76 → d'.island i = 2) ∧
       (2 ≤ k → d'.rd R.SYS_READY_serdes = 0 ∧ d'.rd R.SYS_READY_nv = 0) ∧
       (k = 2 → ∀ i, i < 112 → (76 ≤ i ∧ i ≤ 98) ∨ (102 ≤ i ∧ i ≤ 104) ∨ 106 ≤ i → d'.island i = 1) ∧
       (k = 3 → d'.rd R.SYS_READY_time = 0 ∧ ∀ i, i < 112 → i ≤ 98 ∨ 102 ≤ i → d'.island i = 2) ∧
       (∀ i, (99 ≤ i ∧ i ≤ 101) ∨ (k ≤ 2 ∧ i = 105) → d'.island i = d.island i))) ∧
    ((d.pwr.fired = [] → Does .wakeLatch d d) ∧
     (∀ src inp t more, d.pwr.fired = (src, inp, t) :: more →
       let none_ := { d with pwr := { d.pwr with fired := [] } }
       (exiting ∨ (¬ entering ∧ st = 0) ∨ (entering ∧ 5 ≤ d.pwr.stage ∧ d.pwr.latched ≠ none) → Does .wakeLatch d none_) ∧
       (¬ exiting → entering → d.pwr.stage < 5 → ∃ d', Does .wakeLatch d d' ∧ d'.rd R.PWR_STAT_entering = 0 ∧ d'.rd R.PWR_STAT_result = 6 ∧
         d'.rd R.PWR_STAT_state = st ∧ lastWake d' src inp d.pwr.target t 1 1 ∧ pends d' 318 ∧ d'.pwr.stopped = false ∧ d'.mem = d.mem) ∧
       (¬ exiting → entering → 5 ≤ d.pwr.stage → d.pwr.latched = none → Does .wakeLatch d
         { d with pwr := { d.pwr with fired := [], latched := some (src, inp, t) } }) ∧
       (¬ exiting → ¬ entering → st ≠ 0 → ∃ d', Does .wakeLatch d d' ∧ d'.rd R.PWR_STAT_exiting = 1 ∧ d'.rd R.PWR_STAT_state = st ∧
         lastWake d' src inp st t 0 0 ∧ pends d' 313 ∧ d'.pwr.exitFrom = st ∧ (∀ i, i < 112 → d'.island i = 0) ∧ d'.mem = d.mem ∧
         (st = 1 → unitState d' = 1 ∧ d'.cfg.load = 3)))) ∧
    ((wakes d 0 → Does .wakeNLow d (fired d 0 0)) ∧ (¬ wakes d 0 → Does .wakeNLow d d)) ∧
    (let due := d.rd R.PWR_WAKE_AT_arm ≠ 0 ∧ rawToBeads (d.rd R.PWR_WAKE_AT_at) ≤ d.now
     (¬ due → Does .alarm d d) ∧
     (due → wakes d 5 → Does .alarm d ((fired d 5 0).wr R.PWR_WAKE_AT_arm [] 0)) ∧
     (due → ¬ wakes d 5 → Does .alarm d (d.wr R.PWR_WAKE_AT_arm [] 0))) ∧
    (∀ l : List (BitVec 8),
      (l = [] → Does (.temperatureSample l) d d) ∧
      (∀ t : Int, (∃ x ∈ l, x.toInt = t) → (∀ x ∈ l, x.toInt ≤ t) → ∃ d', Does (.temperatureSample l) d d' ∧ d'.mem = d.mem ∧ d'.out = d.out ∧
        d'.rdS R.PWR_THERM_temp_c = t ∧ (∀ n x, n < 128 → l[n]? = some x → d'.rd R.HRD_TEMP_temp_c [n] = x.toNat) ∧
        (let limit := fun f => d.rdS f
         let warn := limit R.PWR_THERM_warn_c
         let crit := limit R.PWR_THERM_crit_c
         d'.pwr.thermWarn = decide (warn ≤ t ∨ (d.pwr.thermWarn = true ∧ warn - 3 < t)) ∧
         d'.pwr.thermCrit = decide (crit ≤ t ∨ (d.pwr.thermCrit = true ∧ crit - 3 < t)) ∧
         (warn ≤ t → d.pwr.thermWarn = false → pends d' 315) ∧ (crit ≤ t → d.pwr.thermCrit = false → pends d' 316) ∧
         ((t < warn ∨ d.pwr.thermWarn = true) → (t < crit ∨ d.pwr.thermCrit = true) → d'.evt = d.evt))))

namespace Sys2Proof.Claims

/-- The Herdsman starts firmware slot `k` (R485). -/
def startsSlot (d d' : Dev) (k : Nat) : Prop :=
  d'.rd R.HRD_STAT_state = 1 ∧ d'.rd R.HRD_STAT_slot = k ∧ d'.rd R.HRD_STAT_fw_ver = d.fwVersion k % 2 ^ 32

/-- The slot the boot ROM chooses: valid, of the higher version, slot 0 on a tie (R485). -/
def newest (d : Dev) (k : Nat) : Prop :=
  k < 2 ∧ d.fwValid k = true ∧ (d.fwValid (1 - k) = true → d.fwVersion (1 - k) < d.fwVersion k ∨ (k = 0 ∧ d.fwVersion 1 = d.fwVersion 0))

/-- A restart of the Herdsman: the third within a second goes to the other slot when that is valid (R485, R486). -/
def restarts (d d' : Dev) : Prop :=
  let other := 1 - d.rd R.HRD_STAT_slot
  let switch := 2 ≤ (d.hrd.restarts.filter fun t => decide (d.clock < t + second)).length ∧ d.fwValid other = true
  d'.rd R.HRD_STAT_resets = (d.rd R.HRD_STAT_resets + 1) % 2 ^ 16 ∧ d'.hrd.kick = d.clock ∧ d'.hrd.trap = false ∧ d'.mem = d.mem ∧
  (switch → startsSlot d d' other ∧ d'.hrd.restarts = [] ∧ pends d' 4 ∧ d'.rd R.HRD_ALERT_code = 6) ∧
  (¬ switch → (∀ k, newest d k → startsSlot d d' k) ∧
    (d.fwValid 0 = false → d.fwValid 1 = false → d'.rd R.HRD_STAT_state = 3 ∧ d'.rd R.HRD_STAT_slot = d.rd R.HRD_STAT_slot))

/-- A field of an island's HRD_ISL registers. -/
def ofIsland (d : Dev) (f : Field) (i : Nat) : Nat := d.rd f [i]

/-- An island that is not pinned. -/
def freeIsland (d : Dev) (i : Nat) : Prop := i < 76 ∧ hasBit d R.HRD_ISL_PIN_pin [] i = false

/-- The highest frequency an island may have, MHz: its ceiling, its grade's limit, and for a fabric island its image's
(Table 00-2, R194, R278). -/
def highest (d : Dev) (i : Nat) : Nat :=
  let grade := if d.rd R.SYS_ID_grade = 1 then (if i < 64 then 850 else 2600) else (if i < 64 then 1000 else 3000)
  let image := d.rd R.FAB_ISL_CLKDIV_fmax_mhz [i]
  let low := min grade (ofIsland d R.HRD_ISL_OBJ_ceil_mhz i)
  if i < 64 ∧ image ≠ 0 then min low image else low

end Sys2Proof.Claims

/-- R194, R278, R363, R485 to R488, R491, R492, R494, R495, Tables 15-3, 15-5. A voltage back in its rail's window shows
the rail in window: the model's choice (log entry 97). -/
def Obligations.HerdsmanFirmware : Prop :=
  ∀ d, On d →
    let running := d.rd R.HRD_STAT_state = 1
    let protectedFor := fun (c : Instr) (inp : Nat) => Does c d ((said d inp 3 0).raise 3 (inp + 768))
    (∀ inp : Fin 101, let may := (inp : Nat) = 97 ∨ (inp : Nat) = 98 ∨ (inp : Nat) = 100
      (may → ∃ d', Does (.hrdRestart inp) d d' ∧ restarts d d' ∧ d'.out.head? = some (.access inp 0 0)) ∧
      (¬ may → protectedFor (.hrdRestart inp) inp) ∧
      ((inp : Nat) = 99 → Does (.hrdWdogKick inp) d (said { d with hrd := { d.hrd with kick := d.clock } } inp 0 0)) ∧
      ((inp : Nat) ≠ 99 → protectedFor (.hrdWdogKick inp) inp)) ∧
    (running → ∃ d', Does .lockstepMismatch d d' ∧ restarts d d' ∧ pends d' 5) ∧
    (¬ running → Does .lockstepMismatch d d) ∧
    (let ms := d.rd R.HRD_WDOG_period_ms
     let due := running ∧ ms ≠ 0 ∧ d.hrd.kick + ms * 65536000000 ≤ d.clock
     (due → ∃ d', Does .hrdWatchdogExpire d d' ∧ restarts d d') ∧ (¬ due → Does .hrdWatchdogExpire d d)) ∧
    (∀ (a : BitVec 38) (len : Fin 65) (f : NvFind) (handler : Bool),
      let go := Instr.nvFetch a len f handler
      let bank := (a.toNat - 0x10000000) / 0x8000000
      let fetches := running ∧ (∀ x ∈ d.nvc.stalled, x.1 ≠ 99) ∧ 0x10000000 ≤ a.toNat ∧ a.toNat < 0x2F000000 ∧ d.island 102 = 0 ∧
        (a.toNat + len - 0x10000000) / 0x8000000 = bank
      let busy := hasBit d R.NVC_BANK_STAT_status [bank] 0
      let lost := f.first = none ∧ f.retry = none
      let corrected := f.first ≠ none
      (¬ (running ∧ (∀ x ∈ d.nvc.stalled, x.1 ≠ 99)) → Does go d d) ∧
      (fetches → busy = true → ∃ d', Does go d d' ∧ d'.mem = d.mem ∧ d'.rd R.HRD_STAT_state = 1 ∧
        d'.nvc.stalled = d.nvc.stalled ++ [(99, a.toNat, (len : Nat), d.clock)]) ∧
      (fetches → busy = false → corrected → ∃ d', Does go d d' ∧ d'.mem = d.mem ∧
        d'.hrd = { d.hrd with trap := d.hrd.trap && handler } ∧ d'.rd R.HRD_FW_fetch_faults = d.rd R.HRD_FW_fetch_faults ∧
        d'.rd R.HRD_STAT_resets = d.rd R.HRD_STAT_resets) ∧
      (fetches → busy = false → lost → d.rd R.HRD_FW_fetch_faults < 2 ^ 16 → ∃ d', Does go d d' ∧
        d'.rd R.HRD_FW_fetch_faults = min (2 ^ 16 - 1) (d.rd R.HRD_FW_fetch_faults + 1) ∧
        ((d.hrd.trap && handler) = false → d'.hrd = { d.hrd with trap := true } ∧ d'.rd R.HRD_STAT_resets = d.rd R.HRD_STAT_resets) ∧
        ((d.hrd.trap && handler) = true → d'.hrd.trap = false ∧ d'.rd R.HRD_STAT_resets = (d.rd R.HRD_STAT_resets + 1) % 2 ^ 16))) ∧
    (let toward := fun (m : Measure) (e : Dev) => (running → Does (.measurementUpdate m) d e) ∧ (¬ running → Does (.measurementUpdate m) d d)
     (∀ mw, toward (.total mw) (d.wr R.HRD_POWER_p_mw [] mw.toNat)) ∧
     (∀ i mw, toward (.islandPower i mw) (d.wr R.HRD_ISL_OP_mw [i] mw.toNat)) ∧
     (∀ i pct, toward (.util i pct) (d.wr R.HRD_ISL_OP_util_pct [i] pct.toNat)) ∧
     (∀ i pct, toward (.slack i pct) (d.wr R.HRD_ISL_OP_slack_pct [i] pct.toNat)) ∧
     (∀ pm, toward (.hitRatio pm) (d.wr R.HRD_RC_hit_pm [] pm.toNat)) ∧
     (∀ ns, ns < 2 ^ 24 → toward (.pdv ns) (d.wr R.HRD_SERVO_pdv_ns [] ns)) ∧
     (∀ (n : Fin 10) mw mv, ∃ d', Does (.measurementUpdate (.rail n mw mv)) d d' ∧ d'.mem = d.mem ∧ d'.out = d.out ∧ d'.evt = d.evt ∧
       d'.rd R.PWR_RAIL_alarm = d.rd R.PWR_RAIL_alarm ∧
       (running → d'.rd R.HRD_RAIL_P_mw [n] = mw.toNat ∧ d'.rd R.HRD_RAIL_P_mv [n] = mv.toNat))) ∧
    (∀ (inp : Fin 101) (i : Fin 76) (mhz : BitVec 12),
      let go := Instr.reqMhzWrite inp i mhz
      let pinned := hasBit d R.HRD_PIN_pin [] 0 = true ∨ hasBit d R.HRD_ISL_PIN_pin [] i = true
      ((inp : Nat) ≠ 99 → protectedFor go inp) ∧
      ((inp : Nat) = 99 → pinned → ∃ d', Does go d d' ∧ d'.out = .access inp 3 0 :: d.out ∧ d'.mem = d.mem ∧
        d'.rd R.HRD_ISL_OP_req_mhz [i] = d.rd R.HRD_ISL_OP_req_mhz [i] ∧ d'.rd R.HRD_CNT_count [11] % 2 ^ 64 = (d.rd R.HRD_CNT_count [11] + 1) % 2 ^ 64) ∧
      ((inp : Nat) = 99 → ¬ pinned → ∃ d', Does go d d' ∧ d'.out = .access inp 0 0 :: d.out ∧ d'.mem = d.mem ∧
        d'.rd R.HRD_ISL_OP_req_mhz [i] = mhz.toNat ∧ ofIsland d' R.HRD_ISL_OP_mhz i = ofIsland d R.HRD_ISL_OP_mhz i ∧
        (ofIsland d R.HRD_ISL_OP_trim i < 16 → ofIsland d' R.HRD_ISL_OP_trim i = ofIsland d R.HRD_ISL_OP_trim i) ∧
        ∀ j, j < 76 → j ≠ i → ofIsland d' R.HRD_ISL_OP_req_mhz j = ofIsland d R.HRD_ISL_OP_req_mhz j)) ∧
    (∀ i : Fin 76,
      let held := hasBit d R.HRD_ISL_PIN_pin [] i = true ∨ d.island i = 2
      let grade := if d.rd R.SYS_ID_grade = 1 then (if (i : Nat) < 64 then 850 else 2600) else (if (i : Nat) < 64 then 1000 else 3000)
      (held → Does (.synthesiserStep i) d d) ∧
      (¬ held → ∃ d', Does (.synthesiserStep i) d d' ∧ d'.mem = d.mem ∧ d'.hrd = d.hrd ∧ d'.out = d.out ∧
        let f := min (highest d i) (max (ofIsland d R.HRD_ISL_OBJ_floor_mhz i) (ofIsland d R.HRD_ISL_OP_req_mhz i))
        ofIsland d' R.HRD_ISL_OP_mhz i = f ∧ (if (i : Nat) < 64 then d'.rd R.FAB_ISL_STAT_mhz [i] = f else d'.rd R.DRV_DROVE_STAT_mhz [(i : Nat) - 64] = f) ∧
        (ofIsland d R.HRD_ISL_OP_trim i ≤ 10 →
          let at_ := fun base => ofIsland d' R.HRD_ISL_OP_mv i = min 850 (base + 5 * ofIsland d R.HRD_ISL_OP_trim i)
          (100 * f ≤ 40 * grade → at_ 620) ∧ (40 * grade < 100 * f → 100 * f ≤ 55 * grade → at_ 670) ∧
          (55 * grade < 100 * f → 100 * f ≤ 70 * grade → at_ 720) ∧ (70 * grade < 100 * f → 100 * f ≤ 80 * grade → at_ 760) ∧
          (80 * grade < 100 * f → 100 * f ≤ 90 * grade → at_ 800) ∧ (90 * grade < 100 * f → at_ 850)) ∧
        ∀ j, j < 76 → j ≠ i → ofIsland d' R.HRD_ISL_OP_mhz j = ofIsland d R.HRD_ISL_OP_mhz j))

/-- R487, R492, R496 to R501, R504, Table 15-4. -/
def Obligations.HerdsmanLoops : Prop :=
  ∀ d, On d →
    let runs := d.rd R.HRD_STAT_state = 1 ∧ ∀ x ∈ d.nvc.stalled, x.1 ≠ 99
    let pinnedLoop := fun k => hasBit d R.HRD_PIN_pin [] k = true
    let temp := d.rdS R.PWR_THERM_temp_c
    let warn := d.rdS R.PWR_THERM_warn_c
    let crit := d.rdS R.PWR_THERM_crit_c
    let counts := fun (d' : Dev) k n => d'.rd R.HRD_CNT_count [k] % 2 ^ 64 = (d.rd R.HRD_CNT_count [k] + n) % 2 ^ 64
    (¬ runs → Does .dvfsDecision d d ∧ Does .routeCacheDecision d d ∧ Does .hrdPrewarmStep d d ∧ Does .recalDecision d d ∧
      (∀ m, Does (.ddrRefreshDecision m) d d) ∧ ∀ g u fr, Does (.loadBalance g u fr) d d) ∧
    (runs → (∀ i, i < 76 → ofIsland d R.HRD_ISL_OP_req_mhz i < 4096 ∧ ofIsland d R.HRD_ISL_OBJ_floor_mhz i < 4096 ∧ ofIsland d R.HRD_ISL_OP_trim i < 16) →
      let floor := ofIsland d R.HRD_ISL_OBJ_floor_mhz
      let req := ofIsland d R.HRD_ISL_OP_req_mhz
      let prio := ofIsland d R.HRD_ISL_OBJ_prio
      let util := ofIsland d R.HRD_ISL_OP_util_pct
      let slack := ofIsland d R.HRD_ISL_OP_slack_pct
      let step := min 1000 (max 25 (d.rd R.HRD_DVFS_step_mhz))
      let power := d.rd R.HRD_POWER_p_mw
      let cap := d.rd R.HRD_POWER_cap_w
      let hot := crit ≤ temp
      let beyond := cap * 1000 < power ∨ warn ≤ temp
      let above := fun i => freeIsland d i ∧ floor i < req i
      let chosen := fun i => above i ∧ prio i < 4 ∧ ∀ j, above j → prio i ≤ prio j
      let down := fun i => if floor i < req i then max (floor i) (req i - step) else req i
      let room := power * 100 < cap * 1000 * (100 - d.rd R.HRD_POWER_margin_pct) ∧ temp ≤ warn - 3
      ∃ d', Does .dvfsDecision d d' ∧ d'.mem = d.mem ∧ d'.out = d.out ∧
        (∀ i, i < 76 → (¬ freeIsland d i ∨ pinnedLoop 0) → ofIsland d' R.HRD_ISL_OP_req_mhz i = req i ∧ ofIsland d' R.HRD_ISL_OP_trim i = ofIsland d R.HRD_ISL_OP_trim i) ∧
        (∀ i, freeIsland d i → ¬ pinnedLoop 0 →
          let asked := ofIsland d' R.HRD_ISL_OP_req_mhz i
          let t := ofIsland d R.HRD_ISL_OP_trim i
          (hot → asked = floor i) ∧
          (¬ hot → beyond → (chosen i → asked = down i ∧ pends d' 314) ∧ (¬ chosen i → asked = req i)) ∧
          (¬ hot → ¬ beyond → util i < d.rd R.HRD_DVFS_down_pct → asked = down i) ∧
          (¬ hot → ¬ beyond → d.rd R.HRD_DVFS_down_pct ≤ util i → d.rd R.HRD_DVFS_up_pct < util i → room →
            asked = if req i < highest d i then min (highest d i) (req i + step) else req i) ∧
          (¬ hot → ¬ beyond → d.rd R.HRD_DVFS_down_pct ≤ util i → (util i ≤ d.rd R.HRD_DVFS_up_pct ∨ ¬ room) → asked = req i) ∧
          ofIsland d' R.HRD_ISL_OP_trim i = (if slack i < 8 ∧ t < 10 then t + 1 else if 15 < slack i ∧ 0 < t then t - 1 else t)) ∧
        (hot → pends d' 4 ∧ d'.rd R.HRD_ALERT_code = 2) ∧
        (¬ hot → beyond → (∀ i, ¬ above i) → d.hrd.capUnmet = false → pends d' 4 ∧ d'.rd R.HRD_ALERT_code = 1 ∧ d'.hrd.capUnmet = true) ∧
        (¬ hot → beyond → (∀ i, ¬ above i) → d.hrd.capUnmet = true → d'.evt = d.evt)) ∧
    (∀ m : BitVec 8, runs →
      let own := temp + d.rdS R.HRD_DDR_ofs_c
      let est := if d.rd R.HRD_DDR_mpr_en = 0 then own else max own m.toInt
      let low := est ≤ (d.rd R.HRD_DDR_lo_c : Int)
      let since := if d.hrd.coolAt = 0 then d.clock + 1 else d.hrd.coolAt
      ∃ d', Does (.ddrRefreshDecision m) d d' ∧ d'.mem = d.mem ∧ d'.out = d.out ∧ (low → d'.hrd.coolAt = since) ∧ (¬ low → d'.hrd.coolAt = 0) ∧
        (pinnedLoop 1 → d'.rd R.DDR_REF_mode = d.rd R.DDR_REF_mode) ∧
        (¬ pinnedLoop 1 → let mode := d'.rd R.DDR_REF_mode
          (d.rd R.HRD_DDR_force2x ≠ 0 ∨ (d.rd R.HRD_DDR_hi_c : Int) ≤ est → mode = 1) ∧
          (d.rd R.HRD_DDR_force2x = 0 → est < (d.rd R.HRD_DDR_hi_c : Int) →
            (low → since + 60 * second ≤ d.clock + 1 → mode = 0) ∧
            (¬ low ∨ d.clock + 1 < since + 60 * second → mode = d.rd R.DDR_REF_mode)))) ∧
    (runs → d.rd R.SYS_READY_ddr_ecc = 0 → Does .routeCacheDecision d d) ∧
    (runs → d.rd R.SYS_READY_ddr_ecc ≠ 0 → (∀ p ∈ d.liveSids, p.2 < 2 ^ 24) → (∀ i ∈ d.hrd.pins, i < 2 ^ 24) →
      let sec := d.clock / second
      let grown := fun sid => d.sidFrames sid - tget 0 d.hrd.frames sid
      let wanting := fun (p : Nat × Nat) => p ∈ d.liveSids ∧ d.rd R.HRD_RC_min_fps ≤ grown p.1 ∧ ePin (d.entry p.2) = 0 ∧ ePendSlot (d.entry p.2) = 0
      let idle := fun i => i ∈ d.hrd.pins ∧ ePendSlot (d.entry i) = 0 ∧ (∀ p ∈ d.liveSids, p.1 = eSid (d.entry i) → grown p.1 = 0) ∧
        tget 0 d.hrd.seen (eSid (d.entry i)) + d.rd R.HRD_RC_idle_s ≤ sec
      let lacking := d.rd R.HRD_RC_hit_pm < d.rd R.HRD_RC_target_pm
      ∃ d', Does .routeCacheDecision d d' ∧ d'.out = d.out ∧
        (pinnedLoop 2 → d'.mem = d.mem ∧ d'.hrd.pins = d.hrd.pins) ∧
        (∀ a, (∀ p ∈ d.liveSids, a ≠ entryAddr p.2 + 40) → (∀ i ∈ d.hrd.pins, a ≠ entryAddr i + 40) → d'.byte a = d.byte a) ∧
        (¬ pinnedLoop 2 → lacking → ∀ p, wanting p → p.2 ∉ d.hrd.pins → (∀ x, wanting x → x ≠ p → x.2 ≠ p.2 ∧ grown x.1 < grown p.1) →
          d.pinnedIn (d.setOfEntry p.2) + 1 < d.pinWays → ePin (d'.entry p.2) = 1 ∧ p.2 ∈ d'.hrd.pins) ∧
        (¬ pinnedLoop 2 → ¬ lacking → d.hrd.pins.length ≤ 10000 → ∀ i, idle i → ePin (d'.entry i) = 0 ∧ i ∉ d'.hrd.pins)) ∧
    (∀ inp : Fin 101, Does (.hrdPrewarm inp) d (said { d with hrd := { d.hrd with warm := 1 } } inp 0 0)) ∧
    (d.hrd.warm = 0 ∨ d.rd R.SYS_READY_ddr_ecc = 0 ∨ d.island 78 ≠ 0 → Does .hrdPrewarmStep d d) ∧
    (runs → d.rd R.SYS_READY_ddr_ecc ≠ 0 → d.island 78 = 0 → d.hrd.warm ≠ 0 →
      let loads := fun i => d.hrd.warm ≤ i + 1 ∧ i < 2 ^ 24 ∧ ePin (d.entry i) = 1 ∧ (isStream (d.entry i) = true ∨ eType (d.entry i) = 0x0C)
      ((∀ i, ¬ loads i) → Does .hrdPrewarmStep d { d with hrd := { d.hrd with warm := 0 } }) ∧
      (∀ i, loads i → (∀ j, j < i → ¬ loads j) → ∃ d', Does .hrdPrewarmStep d d' ∧ d'.hrd.warm = i + 2 ∧ d'.mem = d.mem ∧ d'.out = d.out ∧
        (d.lineBad (entryAddr i) = true → d'.rte = d.rte) ∧ (d.lineBad (entryAddr i) = false → counts d' 5 1 ∧
          d'.rte = (d.loadLine (d.setOfEntry i) (if isStream (d.entry i) = true then .stream i else .chan i) true false).rte))) ∧
    (∀ (g : Fin 4) (u : List (BitVec 7)) (fr : List (BitVec 18 × Nat)), runs →
      let go := Instr.loadBalance g u fr
      let use := fun n : Nat => (u.getD n 0).toNat
      let member := fun n => n < 96 ∧ hasBit d R.HRD_LB_GRP_drovers [g] n = true ∧ (∀ h, h < (g : Nat) → hasBit d R.HRD_LB_GRP_drovers [h] n = false) ∧
        d.rd R.DRV_STATUS_halted [n] = 0
      let done := if d.hrd.lbSec = d.clock / second then tget 0 d.hrd.lbCount g else 0
      (hasBit d R.HRD_LB_en [] g = false → Does go d d) ∧
      (hasBit d R.HRD_LB_en [] g = true → ∀ src dst, member src → member dst → (∀ n, member n → n ≠ src → use n < use src) →
        (∀ n, member n → n ≠ dst → use dst < use n) →
        let total := (fr.map Prod.snd).sum
        let fits := fun p => p ∈ fr ∧ 0 < p.2 ∧ 2 * (use src * p.2) ≤ (use src - use dst) * total ∧ d.mayMove src p.1.toNat = true
        let due := d.rd R.HRD_LB_hi_pct < use src ∧ use dst < d.rd R.HRD_LB_lo_pct ∧ done < d.rd R.HRD_LB_max_moves
        ∃ d', Does go d d' ∧ d'.mem = d.mem ∧ d'.out = d.out ∧
          ((¬ due ∨ pinnedLoop 3 ∨ ∀ p, ¬ fits p) → d'.rte = d.rte) ∧
          (due → ¬ pinnedLoop 3 → ∀ p, fits p → (∀ x, fits x → x ≠ p → x.2 < p.2) →
            d'.rte = { d.rte with moves := d.rte.moves ++ [⟨p.1.toNat, src, dst, d.clock, false⟩] } ∧ tget 0 d'.hrd.lbCount g = done + 1))) ∧
    (∀ sid : BitVec 18,
      let of_ := fun m : Move => m ∈ d.rte.moves ∧ m.sid = sid.toNat
      let late := fun m : Move => m.ready = false ∧ m.since + d.rd R.HRD_LB_tmo_ms * 65536000000 ≤ d.clock
      ((∀ m, of_ m → ¬ late m) → Does (.migrationTimeout sid) d d) ∧
      (∀ m, of_ m → late m → (∀ x, of_ x → x = m) → ∃ d', Does (.migrationTimeout sid) d d' ∧ counts d' 7 1 ∧ d'.mem = d.mem ∧
        d'.rte = { d.rte with moves := d.rte.moves.filter fun x => x.sid != sid.toNat })) ∧
    (runs → ∃ d', Does .recalDecision d d' ∧ d'.mem = d.mem ∧ d'.out = d.out ∧
      (let old := (d.hrd.temps.getLast?.map Prod.snd).getD temp
       let fast := d.rd R.HRD_CAL_fast_dcps < (temp - old).natAbs
       d'.rd R.TIM_CAL_CFG_period_s % 2 ^ 16 = (if pinnedLoop 5 then d.rd R.TIM_CAL_CFG_period_s else if fast then 1 else d.rd R.HRD_CAL_period_s) % 2 ^ 16) ∧
      (d.hrd.alarmed = true → counts d' 10 1 ∧ d'.hrd.again = true ∧ d'.hrd.alarmed = false) ∧ (d.hrd.alarmed = false → d'.hrd = d.hrd))

namespace Sys2Proof.Claims

/-- The Tally measures: it has started and no ROM check has failed (R515). -/
def tallyRuns (d : Dev) : Prop := d.tly.on = true ∧ d.rd R.TLY_STAT_state = 1

/-- A notice is raised where the event unit runs. -/
def noticed (d d' : Dev) (src : Nat) : Prop := d.pwr.off = false → pends d' src

/-- A Tally counter has counted `n`. -/
def tallyCounted (d d' : Dev) (k n : Nat) : Prop :=
  d'.rd R.TLY_CNT_count [k] % 2 ^ 64 = (d.rd R.TLY_CNT_count [k] + n) % 2 ^ 64

/-- The seal state: 0 UNPROVISIONED, 1 OPEN, 2 SEALED (R534). -/
def sealState (d : Dev) : Nat := if part d.lcs.otp 0x1380 384 = 0 then 0 else if d.tly.params.sealed then 2 else 1

/-- A record created now, of a type, with a payload, that relies on the instants since `from_` (R516, R528). -/
def recordOf (d : Dev) (type from_ : Nat) (payload : List Byte) : TlyRec :=
  { type := type, valid := decide (d.tly.aligned = true ∧ d.tly.alignedAt ≤ from_ + 1), sealed := sealState d == 2
    time := beadsToRaw d.now, payload := payload }

/-- Where record `seq` stands; the oldest record there when `n` have been committed (R530). -/
def recordSpot (seq : Nat) : Nat := 0x2F000000 + 256 * (seq % 65536)
def oldestOf (n : Nat) : Nat := (n - 1) / 1024 * 1024 + 1024 - 65536

/-- A byte string filled with zeros to `n` bytes. -/
def filled (n : Nat) (l : List Byte) : List Byte := l ++ List.replicate (n - l.length) 0

/-- `d'` is `d` with record `x` committed, ack_seq standing at `ack` (R528 to R531, R536). -/
def committed (ack : Nat) (d d' : Dev) (x : TlyRec) : Prop :=
  let seq := d.tly.count
  let a := recordSpot seq
  let b := d'.bytes a 256
  b.take 160 = [0x54, 0x52, BitVec.ofNat 8 x.type, BitVec.ofNat 8 ((if x.valid then 1 else 0) + (if x.sealed then 2 else 0))] ++
    leBytes 8 seq ++ leBytes 12 x.time ++ beBytes 48 d.tly.prev ++ filled 88 x.payload ∧
  b.drop 160 = beBytes 96 (Config.tallySign (BitVec.ofNat 384 (part d.lcs.otp 0x1200 384)) (Config.sha384 (b.take 160))).toNat ∧
  d'.tly.count = seq + 1 ∧ d'.tly.prev = (Config.sha384 b).toNat ∧ d'.rd R.TLY_STAT_head_seq = seq % 2 ^ 64 ∧
  d'.rd R.TLY_RING_oldest_seq = oldestOf (seq + 1) % 2 ^ 64 ∧ d'.rd R.TLY_WIN_rec [seq % 64] = ofLe b ∧ tallyCounted d d' 7 1 ∧
  (∀ k, k < a ∨ a + 256 ≤ k → if seq % 1024 = 0 ∧ a ≤ k ∧ k < a + 0x40000 then d'.byte k = ({} : Dev).byte k else d'.byte k = d.byte k) ∧
  (∀ j, j < 32 → let n := d.rd R.TLY_REPLAY_base + j
    d'.rd R.TLY_RWIN_rec [j] = if oldestOf (seq + 1) ≤ n ∧ n < seq + 1 then d'.load (recordSpot n) 256 else 0) ∧
  (let lost := if seq % 1024 = 0 ∧ 65536 ≤ seq then (List.range 1024).filter fun j => decide (ack < seq - 65536 + j) else []
   tallyCounted d d' 8 lost.length ∧ (lost ≠ [] → noticed d d' 296))

/-- A field of TLY_CFG in force: the periods in seconds, the limit in ns (R523, R526, R527, R534). -/
def inForce (d : Dev) (lo w : Nat) : Nat := part (if sealState d = 0 then ({} : TlyParams).cfg else d.tly.params.cfg) lo w
def loudLen (d : Dev) : Nat := inForce d 0 16
def svcLen (d : Dev) : Nat := inForce d 16 16
def tieLen (d : Dev) : Nat := inForce d 32 16

/-- A slot of TLY_PROG in force (TLY_PROG, R534), and those that are enabled, in order. -/
def slotOf (d : Dev) (p : Nat) : Nat := if sealState d = 0 then progDefault else tget progDefault d.tly.params.progs p
def enabledSlots (d : Dev) : List Nat := (List.range 256).filter fun p => (slotOf d p).testBit 576

/-- The number of the period of `len` seconds that is open now, plus one. -/
def openNow (d : Dev) (len : Nat) : Nat := d.now / (len * second) + 1

/-- A message of a tap path is taken: a gap in its counts is counted and raised (R511). -/
def tapCounted (d d' : Dev) (path count : Nat) : Prop :=
  let e := tget 0 d.tly.expect path
  tget 0 d'.tly.expect path = (count + 1) % 65536 + 1 ∧
  ((e = 0 ∨ e = count + 1) → tallyCounted d d' 0 0) ∧
  (e ≠ 0 → e ≠ count + 1 → tallyCounted d d' 0 ((count + 65536 - (e - 1)) % 65536) ∧ noticed d d' 297)

end Sys2Proof.Claims

/-- R506, R508, R514 to R517, R523, R528 to R531, R536. ack_seq of a Tally that starts without a record is 0: the model's
choice (log entry 106). -/
def Obligations.TallyRecords : Prop :=
  ∀ d,
    (∀ ok, d.tly.on = true → Does (.tallyStart ok) d d) ∧
    (d.tly.on = false → ∃ d', Does (.tallyStart false) d d' ∧ d'.tly.on = true ∧ d'.tly.aligned = false ∧ d'.rd R.TLY_STAT_state = 2 ∧
      d'.rd R.TLY_SWID_id = Config.romId.toNat ∧ d'.tly.count = d.tly.count ∧ d'.mem = d.mem ∧ noticed d d' 301) ∧
    (d.tly.on = false → d.tly.count < 2 ^ 64 → ∃ d' x, Does (.tallyStart true) d d' ∧ committed (d.tly.count - 1) d d' x ∧ d'.tly.on = true ∧ d'.tly.aligned = false ∧
      d'.tly.created = [] ∧ d'.tly.params = d.tly.params ∧ d'.rd R.TLY_STAT_state = 1 ∧ d'.rd R.TLY_RING_ack_seq = d.tly.count - 1 ∧
      d'.rd R.TLY_SWID_id = Config.romId.toNat ∧ d'.rd R.TLY_SWID_checksum = ofLe (beBytes 48 Config.romSum.toNat) ∧
      d'.rd R.TLY_STAT_seal = sealState d ∧ d'.rd R.TLY_STAT_time_valid = 0 ∧ x.type = 1 ∧ x.valid = false ∧
      (let key := beBytes 96 (Config.tallyKey (BitVec.ofNat 384 (part d.lcs.otp 0x1200 384))).toNat
       d'.rd R.TLY_PUBKEY_key = ofLe key ∧
       x.payload = [BitVec.ofNat 8 (2 + ofBe (key.drop 48) % 2)] ++ key.take 48 ++ leBytes 4 Config.romVersion.toNat ++ (beBytes 48 Config.romSum.toNat).take 32)) ∧
    (∀ ok, (tallyRuns d → ok = false → ∃ d', Does (.romCheck ok) d d' ∧ d'.rd R.TLY_STAT_state = 2 ∧ d'.tly = d.tly ∧ d'.mem = d.mem ∧ noticed d d' 301) ∧
      (¬ tallyRuns d ∨ ok = true → Does (.romCheck ok) d d)) ∧
    (¬ tallyRuns d ∨ d.tly.created = [] → Does .recordCommit d d) ∧
    (∀ x more, tallyRuns d → d.tly.created = x :: more → ∃ d', Does .recordCommit d d' ∧ committed (d.rd R.TLY_RING_ack_seq) d d' x ∧
      d'.tly.created = more ∧ d'.tly.params = d.tly.params) ∧
    Does .tallyPowerLoss d { d with tly := { area := d.tly.area, params := d.tly.params, other := d.tly.other, count := d.tly.count, prev := d.tly.prev, sent := d.tly.sent } } ∧
    (let comes := d.tly.on = true ∧ d.pwr.off = false ∧ d.tly.aligned = false ∧ (d.tim.replicas.getD 101 {}).aligned = true
     (¬ comes → Does .replicaAligned d d) ∧
     (comes → ∃ d', Does .replicaAligned d d' ∧ d'.tly.aligned = true ∧ d'.tly.alignedAt = d.now + 1 ∧ d'.rd R.TLY_STAT_time_valid = 1 ∧ d'.mem = d.mem ∧
       (tallyRuns d → d'.tly.loudP = openNow d (loudLen d) ∧ d'.tly.svcP = openNow d (svcLen d) ∧ d'.tly.tieP = openNow d (tieLen d) ∧
         (∀ p ∈ enabledSlots d, (d'.tlyRun p).next = (d.now * 10 + second - 1) / second + 1) ∧
         ∃ x more, d'.tly.created = d.tly.created ++ x :: more ∧ x.type = 6 ∧ x.valid = true ∧ x.time = beadsToRaw d.now ∧
           x.payload.length = 24 ∧ x.payload.drop 12 = leBytes 12 (beadsToRaw d.now) ∧
           (d.tly.alignedAt ≠ 0 → x.payload.take 12 = leBytes 12 (beadsToRaw (d.tly.alignedAt - 1))) ∧
           ((d.tly.loudP = 0 ∨ d.tly.loudP = openNow d (loudLen d)) → (d.tly.svcP = 0 ∨ d.tly.svcP = openNow d (svcLen d)) →
             (d.tly.tieP = 0 ∨ d.tly.tieP = openNow d (tieLen d)) → more = []))))

/-- R166, R509, R511, R516 to R520, R525 to R527, Table 16-1. -/
def Obligations.TallyTaps : Prop :=
  ∀ d,
    (d.tly.acctQ = [] → Does .acctTap d d) ∧
    (∀ x rest, d.tly.acctQ = x :: rest → x.tenant < 4096 → x.port < 2 →
      let taken := { d with tly := { d.tly with acctQ := rest } }
      (¬ tallyRuns d → Does .acctTap d taken) ∧
      (tallyRuns d → ∃ d', Does .acctTap d d' ∧ d'.mem = d.mem ∧ d'.tly.acctQ = rest ∧ tapCounted d d' 2 x.count ∧ tallyCounted d d' 6 1 ∧
        (d.tly.aligned = false → d'.tly.svc = d.tly.svc ∧ d'.tly.credited = d.tly.credited) ∧
        (d.tly.aligned = true →
          let t := rawToBeads x.ts
          let k := (4096 * (t / (svcLen d * second)) + x.tenant) * 2 + x.port
          let old := tget {} d.tly.svc k
          let credit := (t / second, x.sid, x.tenant, x.port)
          (∀ j, j ≠ k → tget {} d'.tly.svc j = tget {} d.tly.svc j) ∧
          (credit ∈ d.tly.credited → d'.tly.credited = d.tly.credited ∧
            tget {} d'.tly.svc k = { frames := old.frames + 1, bytes := old.bytes + x.len, secs := old.secs }) ∧
          (credit ∉ d.tly.credited → (∀ c, c ∈ d'.tly.credited ↔ c = credit ∨ c ∈ d.tly.credited) ∧
            tget {} d'.tly.svc k = { frames := old.frames + 1, bytes := old.bytes + x.len, secs := old.secs + 1 })))) ∧
    (d.tly.ppsQ = [] → Does .ppsTap d d) ∧
    (∀ count ts rest, d.tly.ppsQ = (count, ts) :: rest →
      (¬ tallyRuns d → Does .ppsTap d { d with tly := { d.tly with ppsQ := rest } }) ∧
      (tallyRuns d → ∃ d', Does .ppsTap d d' ∧ d'.mem = d.mem ∧ d'.tly.ppsQ = rest ∧ tapCounted d d' 3 count ∧
        (d.tly.aligned = false → d'.tly.tie = d.tly.tie) ∧
        (d.tly.aligned = true → ∀ (edge : Int) (nearest : Nat), (rawToBeads ts : Int) = (nearest : Int) * second + edge → edge * 2 ≤ second → -(second : Int) < edge * 2 →
          let k := rawToBeads ts / (tieLen d * second)
          let old := tget {} d.tly.tie k
          let now_ := tget {} d'.tly.tie k
          let beyond := inForce d 64 32 * 65536 < edge.natAbs
          (∀ j, j ≠ k → tget {} d'.tly.tie j = tget {} d.tly.tie j) ∧ now_.edges = old.edges + 1 ∧ now_.sum = old.sum + edge ∧
          now_.lo = (if old.edges = 0 then edge else min old.lo edge) ∧ now_.hi = (if old.edges = 0 then edge else max old.hi edge) ∧
          (∀ sec, sec ∈ now_.secs ↔ sec = nearest ∨ sec ∈ old.secs) ∧
          (beyond → now_.alarmed = true ∧ (old.alarmed = false → noticed d d' 299)) ∧ (¬ beyond → now_.alarmed = old.alarmed)))) ∧
    (∀ q : Fin 2,
      (tget [] d.tly.audioQ q = [] → Does (.audioTap q) d d) ∧
      (∀ x rest, tget [] d.tly.audioQ q = x :: rest →
        (¬ tallyRuns d → ∃ d', Does (.audioTap q) d d' ∧ tget [] d'.tly.audioQ q = rest ∧ d'.tly.chans = d.tly.chans ∧ d'.tly.expect = d.tly.expect) ∧
        (tallyRuns d → ∃ d', Does (.audioTap q) d d' ∧ d'.mem = d.mem ∧ tget [] d'.tly.audioQ q = rest ∧ tapCounted d d' q x.count ∧
          (d.tly.aligned = false → d'.tly.chans = d.tly.chans) ∧
          (d.tly.aligned = true →
            let t := rawToBeads x.ts
            let k := 16384 * x.port + x.stream
            ((∀ r, tget none d.tly.rates k = some r → r.sec = t / second) → 2 ^ 31 * second ≤ t * 48000 →
            ∀ p m, p < 256 → m < 16 →
              let v := slotOf d p
              let c := part v (32 * m) 32
              let mine := v.testBit 576 = true ∧ c.testBit 0 = true ∧ part c 1 1 * 16384 + part c 2 14 = k
              let width := 2 + part c 30 1
              let step := (part c 22 6 + 1) * width
              let held := fun (e : Dev) n => tget none (e.tlyChan p m).samples n
              (¬ mine → ∀ n, held d' n = held d n) ∧
              (mine → x.payload.length % step ≠ 0 → (∀ n, held d' n = held d n) ∧ (d'.tlyRun p).fmtErr = true) ∧
              (mine → x.payload.length % step = 0 → ∀ (n0 : Nat),
                (n0 + part v 512 32) % 2 ^ 32 = x.rtpTs % 2 ^ 32 → (n0 : Int) < t * 48000 / second + 2 ^ 31 → (t * 48000 / second : Int) ≤ n0 + 2 ^ 31 →
                (∀ n, n < n0 ∨ n0 + x.payload.length / step ≤ n → held d' n = held d n) ∧
                (∀ i, i < x.payload.length / step → let n := n0 + i
                  let late := n * second + 2 * 48000 * second < d.now * 48000
                  let raw := ofBe ((x.payload.drop (i * step + part c 16 6 * width)).take width)
                  (late ∨ held d n ≠ none → held d' n = held d n) ∧
                  (¬ late → held d n = none → held d' n = some (if width = 2 then (BitVec.ofNat 16 raw).toInt * 256 else (BitVec.ofNat 24 raw).toInt)))))))))

/-- R519, R521 to R524, R526 to R528, Table 16-3. The rounding of a mean, and the fields of a period without an edge, are
free (log entry 106). -/
def Obligations.TallyPeriods : Prop :=
  ∀ d,
    let ready := tallyRuns d ∧ d.tly.aligned = true
    (∀ p : Fin 256,
      let x := d.tlyRun p
      let v := slotOf d p
      let j := x.next - 1
      let last := ((4800 * j + 4799) * second + 47999) / 48000
      let due := ready ∧ v.testBit 576 = true ∧ x.next ≠ 0 ∧ last + 2 * second ≤ d.now ∧ last / (loudLen d * second) < d.tly.loudP
      (¬ due → Does (.loudnessBlock p) d d) ∧
      (due → (∀ k, tget none d.tly.rates k = none) → ∃ d', Does (.loudnessBlock p) d d' ∧ d'.mem = d.mem ∧
        let chans := (List.range 16).filter fun m => (part v (32 * m) 32).testBit 0
        let part_ := fun m => (d.tlyChan p m).step (part v (32 * m + 28) 2) j
        let en := ((chans.map fun m => (part_ m).1).sum :: x.energy).take 30
        let y := d'.tlyRun p
        let grows := fun (l l' : List Nat) (n : Nat) => l' = if en.length < n then l else (en.take n).sum :: l
        y.next = x.next + 1 ∧ y.energy = en ∧ grows x.blocks y.blocks 4 ∧ grows x.perBlocks y.perBlocks 4 ∧ grows x.shorts y.shorts 30 ∧
        grows x.perShorts y.perShorts 30 ∧ y.missing = x.missing + (chans.map fun m => (part_ m).2.1).sum ∧ y.fmtErr = x.fmtErr ∧
        (∀ m ∈ chans, d'.tlyChan p m = (part_ m).2.2) ∧
        (4 ≤ en.length → d'.rd R.TLY_LIVE_m [p] = loudField (Config.lufs (en.take 4).sum 19200)) ∧
        (30 ≤ en.length → d'.rd R.TLY_LIVE_s [p] = loudField (Config.lufs en.sum 144000)) ∧
        ∀ q, q ≠ (p : Nat) → d'.tlyRun q = d.tlyRun q)) ∧
    (let due := ready ∧ d.tly.loudP ≠ 0 ∧ (d.tly.loudP * loudLen d + 2) * second ≤ d.now
     (d.tly.loudP = 0 ∨ ¬ ready ∨ d.now < (d.tly.loudP * loudLen d + 2) * second → Does .loudnessRecord d d) ∧
     (due → (∀ p ∈ enabledSlots d, (d.tlyRun p).next ≠ 0 → let j := (d.tlyRun p).next - 1
        d.tly.loudP * loudLen d * second ≤ ((4800 * j + 4799) * second + 47999) / 48000) →
       ∃ d', Does .loudnessRecord d d' ∧ d'.mem = d.mem ∧ d'.tly.loudP = d.tly.loudP + 1 ∧
         d'.tly.created.length = d.tly.created.length + (enabledSlots d).length ∧
         ∀ n p, (enabledSlots d)[n]? = some p → ∃ z : TlyRec, d'.tly.created[d.tly.created.length + n]? = some z ∧
           let x := d.tlyRun p
           let limit := fun lo => (BitVec.ofNat 16 (part (slotOf d p) lo 16)).toInt
           let beyond := part (slotOf d p) 544 16 ≠ 0x8000 ∧ ∃ l, Config.integrated x.blocks = some l ∧ limit 544 < l
           z = recordOf d 2 ((d.tly.loudP - 1) * loudLen d * second) z.payload ∧ z.payload.length = 28 ∧ z.payload.getD 0 0 = BitVec.ofNat 8 p ∧
           ((z.payload.getD 1 0).getLsbD 0 = true ↔ beyond) ∧ ((z.payload.getD 1 0).getLsbD 2 = true ↔ x.missing ≠ 0) ∧
           (z.payload.getD 1 0).getLsbD 3 = x.fmtErr ∧ (beyond → noticed d d' 298) ∧
           (z.payload.drop 2).take 6 = leBytes 2 (loudLen d) ++ leBytes 2 (loudField (Config.integrated x.perBlocks)) ++ leBytes 2 (loudField (Config.integrated x.blocks)) ∧
           (z.payload.drop 12).take 2 = leBytes 2 (loudField (Config.loudRange x.shorts)) ∧
           z.payload.drop 16 = leBytes 4 x.perBlocks.length ++ leBytes 4 (Config.gated x.perBlocks) ++ leBytes 4 x.missing ∧
           d'.tlyRun p = { x with perBlocks := [], perShorts := [], missing := 0, fmtErr := false })) ∧
    (let due := ready ∧ d.tly.svcP ≠ 0 ∧ (d.tly.svcP * svcLen d + 2) * second ≤ d.now
     (¬ due → Does .serviceRecord d d) ∧
     (due → ∃ d', Does .serviceRecord d d' ∧ d'.mem = d.mem ∧ d'.tly.svcP = d.tly.svcP + 1 ∧
       let k := d.tly.svcP - 1
       let at_ := fun t q => tget {} d.tly.svc ((4096 * k + t) * 2 + q)
       let tenants := (List.range 4096).filter fun t => (at_ t 0).frames + (at_ t 1).frames != 0
       let entry := fun t => leBytes 2 (t + 0x8000) ++ leBytes 8 (at_ t 0).bytes ++ leBytes 4 (at_ t 0).secs ++ leBytes 8 (at_ t 1).bytes ++ leBytes 4 (at_ t 1).secs
       (∀ t q, t < 4096 → q < 2 → tget {} d'.tly.svc ((4096 * k + t) * 2 + q) = {}) ∧
       d'.tly.created = d.tly.created ++ (List.range ((tenants.length + 2) / 3)).map fun r =>
         let three := (tenants.drop (3 * r)).take 3
         recordOf d 3 (k * svcLen d * second) (filled 78 (three.map entry).flatten ++ leBytes 2 (svcLen d) ++
           leBytes 8 (three.map fun t => (at_ t 0).frames + (at_ t 1).frames).sum))) ∧
    (let due := ready ∧ d.tly.tieP ≠ 0 ∧ d.tly.tieP * tieLen d * second ≤ d.now
     (¬ due → Does .tieRecord d d) ∧
     (due → ∃ d' z, Does .tieRecord d d' ∧ d'.mem = d.mem ∧ d'.tly.tieP = d.tly.tieP + 1 ∧ d'.tly.created = d.tly.created ++ [z] ∧
       let x := tget {} d.tly.tie (d.tly.tieP - 1)
       tget {} d'.tly.tie (d.tly.tieP - 1) = {} ∧ z = recordOf d 4 ((d.tly.tieP - 1) * tieLen d * second) z.payload ∧ z.payload.length = 35 ∧
       z.payload.take 8 = leBytes 4 x.edges ++ leBytes 4 (tieLen d - x.secs.length) ∧
       z.payload.drop 32 = [BitVec.ofNat 8 (if x.alarmed then 1 else 0)] ++ leBytes 2 (tieLen d) ∧
       (x.edges ≠ 0 → ∃ mean : Int, (mean * x.edges - x.sum).natAbs < x.edges ∧
         (z.payload.drop 8).take 24 = leBytes 8 (BitVec.ofInt 64 x.lo).toNat ++ leBytes 8 (BitVec.ofInt 64 x.hi).toNat ++ leBytes 8 (BitVec.ofInt 64 mean).toNat)))

namespace Sys2Proof.Claims

/-- The result of checks made in order: the code of the first that fails, 0 when none does. -/
def firstFailure : List (Prop × Nat) → Nat → Prop
  | [], r => r = 0
  | (fails, code) :: more, r => (fails → r = code) ∧ (¬ fails → firstFailure more r)

/-- The kinds of Table 16-5: signed, body length. -/
def inboxRow (kind : Nat) : Option (Bool × Nat) :=
  if kind = 0x01 ∨ kind = 0x02 then some (false, 8) else if kind = 0x10 then some (true, 16) else if kind = 0x11 then some (true, 132)
  else if kind = 0x12 then some (true, 48) else if kind = 0x13 then some (true, 0) else if kind = 0x14 then some (true, 4) else none

/-- The worst-case record rate is above 1.0 records/s (R532). -/
def tooFast (progs loud svc tie : Nat) : Prop := loud * svc * tie < progs * svc * tie + 1366 * loud * tie + loud * svc

/-- Channels that a slot names. -/
def chansIn (v : Nat) : Nat := ((List.range 16).filter fun m => v.testBit (32 * m)).length

/-- The values of a message fail with a code (check 8 of R533). -/
def badValues (d : Dev) (kind : Nat) (body : List Byte) : List (Prop × Nat) :=
  let v := ofLe body
  let slots := d.tly.params.progs
  let p := v % 256
  let slot := v / 2 ^ 32
  let out := fun x lo hi => x < lo ∨ hi < x
  let enabled := (enabledSlots d).length
  let others := (((List.range 256).filter (· ≠ p)).map fun k => chansIn (tget progDefault slots k)).sum
  let stays := ((enabledSlots d).filter (· ≠ p)).length
  if kind = 0x01 then [(d.tly.count ≤ v, 8)]
  else if kind = 0x10 then
    [(out (part v 0 16) 10 3600 ∨ part v 16 16 < 60 ∨ out (part v 32 16) 10 3600, 8), (tooFast enabled (part v 0 16) (part v 16 16) (part v 32 16), 9)]
  else if kind = 0x11 then
    [(part v 8 24 ≠ 0 ∨ (∃ m, m < 16 ∧ (part slot (32 * m + 28) 2 = 3 ∨ slot.testBit (32 * m + 31) = true)) ∨ 4096 < others + chansIn slot, 8),
     (tooFast (stays + if slot.testBit 576 then 1 else 0) (loudLen d) (svcLen d) (tieLen d), 9)]
  else if kind = 0x12 then
    [(ofBe body ≠ (Config.sha384 (beBytes 96 (Config.tallyKey (BitVec.ofNat 384 (part d.lcs.otp 0x1200 384))).toNat)).toNat, 8)]
  else if kind = 0x14 then [(part v 8 24 ≠ 0, 8)]
  else []

/-- The checks of an inbox message, in their order (R533, Table 16-4). -/
def inboxChecks (d : Dev) (m : List Byte) : List (Prop × Nat) :=
  let kind := (m.getD 5 0).toNat
  let row := (inboxRow kind).getD (false, 0)
  let signed := row.1 = true
  let n := row.2
  let full := 32 + n + if row.1 then 192 else 0
  let pub := (m.drop (32 + n)).take 96
  let auth := part d.lcs.otp 0x1380 384
  let st := sealState d
  [(inboxRow kind = none ∨ m.length ≠ full ∨ 512 < m.length ∨ m.take 4 ≠ [0x54, 0x4C, 0x59, 0x43] ∨ m.getD 4 0 ≠ 1 ∨ ofBe ((m.drop 6).take 2) ≠ n, 1),
   (ofBe ((m.drop 8).take 16) ≠ d.lcs.otp % 2 ^ 128, 2),
   (signed ∧ auth = 0, 3), (signed ∧ (Config.sha384 pub).toNat ≠ auth, 4),
   (signed ∧ Config.ecdsaP384 (BitVec.ofNat 768 (ofBe pub)) (m.take (32 + n)) (BitVec.ofNat 768 (ofBe (m.drop (128 + n)))) = false, 5),
   (signed ∧ ofBe ((m.drop 24).take 8) ≤ d.tly.params.cmdSeq, 6),
   (signed ∧ ¬ (if kind = 0x13 then st = 2 else if kind = 0x14 then st = 1 ∨ st = 2 else st = 1), 7)] ++ badValues d kind ((m.drop 32).take n)

end Sys2Proof.Claims

/-- R518, R523, R531 to R536, Tables 16-3 to 16-5. -/
def Obligations.TallyInbox : Prop :=
  ∀ d,
    let kindOf := fun m : List Byte => (m.getD 5 0).toNat
    let takes := fun (c : Instr) (k : Nat) => (c = .ack ∧ k = 0x01) ∨ (c = .replay ∧ k = 0x02) ∨ (c = .config ∧ k = 0x10) ∨ (c = .prog ∧ k = 0x11) ∨
      (c = .seal ∧ k = 0x12) ∨ (c = .unseal ∧ k = 0x13) ∨ (c = .restartProg ∧ k = 0x14) ∨ (c = .inboxBadKind ∧ inboxRow k = none)
    ∀ c k₀, takes c k₀ →
      ((∀ m rest, d.tly.inbox = m :: rest → tallyRuns d → ¬ takes c (kindOf m)) → Does c d d) ∧
      (∀ m rest, d.tly.inbox = m :: rest → tallyRuns d → takes c (kindOf m) →
        let kind := kindOf m
        let seq := ofBe ((m.drop 24).take 8)
        let n := ((inboxRow kind).getD (false, 0)).2
        let body := (m.drop 32).take n
        let v := ofLe body
        let p := v % 256
        ∃ d' r, Does c d d' ∧ firstFailure (inboxChecks d m) r ∧ d'.tly.inbox = rest ∧ d'.rd R.TLY_AUTH_result = r ∧ d'.rd R.TLY_AUTH_kind = kind ∧
          d'.mem = d.mem ∧ d'.out = d.out ∧
          (r ≠ 0 → tallyCounted d d' 3 1 ∧ d'.tly = { d.tly with inbox := rest } ∧ d'.rd R.TLY_RING_ack_seq = d.rd R.TLY_RING_ack_seq) ∧
          (r = 0 → kind = 0x01 → d'.tly = { d.tly with inbox := rest } ∧
            d'.rd R.TLY_RING_ack_seq = max (d.rd R.TLY_RING_ack_seq) v % 2 ^ 64) ∧
          (r = 0 → kind = 0x02 → d'.tly = { d.tly with inbox := rest } ∧ d'.rd R.TLY_REPLAY_base = v ∧
            ∀ j, j < 32 → d'.rd R.TLY_RWIN_rec [j] = if oldestOf d.tly.count ≤ v + j ∧ v + j < d.tly.count then d'.load (recordSpot (v + j)) 256 else 0) ∧
          (r = 0 → 0x10 ≤ kind →
            let new := d'.tly.params
            let closes := fun (number : Nat) (old now_ : Nat) => kind = 0x10 ∧ d.tly.aligned = true ∧ number ≠ 0 ∧ old ≠ now_
            new.cmdSeq = seq ∧ new.audit = d.tly.params.audit + 1 ∧ d'.tly.area = 1 - d.tly.area ∧ d'.tly.other = d.tly.params ∧ d'.tly.count = d.tly.count ∧
            d'.rd R.TLY_AUTH_cmd_seq = seq ∧ d'.rd R.TLY_STAT_audit_count = new.audit % 2 ^ 32 ∧ d'.rd R.TLY_STAT_seal = sealState d' ∧
            (sealState d' ≠ sealState d → noticed d d' 300) ∧
            new.cfg = (if kind = 0x10 then v % 2 ^ 48 + part v 64 32 * 2 ^ 64 else d.tly.params.cfg) ∧
            new.sealed = (if kind = 0x12 then true else if kind = 0x13 then false else d.tly.params.sealed) ∧
            (∀ s, s < 256 → tget progDefault new.progs s =
              if kind = 0x11 ∧ s = p then part v 32 577 + part v (32 + 640) 256 * 2 ^ 640 else tget progDefault d.tly.params.progs s) ∧
            (∃ x, d'.tly.created.getLast? = some x ∧ x.type = 5 ∧ x.sealed = (sealState d' == 2) ∧
              x.payload = [BitVec.ofNat 8 kind, BitVec.ofNat 8 (sealState d'), 0, 0] ++ leBytes 8 seq ++ leBytes 4 new.audit ++ beBytes 48 (Config.sha384 body).toNat) ∧
            (¬ closes d.tly.loudP (loudLen d) (loudLen d') → ¬ closes d.tly.svcP (svcLen d) (svcLen d') → ¬ closes d.tly.tieP (tieLen d) (tieLen d') →
              d'.tly.created.length = d.tly.created.length + 1) ∧
            (kind = 0x10 → d'.rd R.TLY_CFG_loud_period_s = loudLen d' ∧ d'.rd R.TLY_CFG_svc_period_s = svcLen d' ∧ d'.rd R.TLY_CFG_tie_period_s = tieLen d' ∧
              d'.rd R.TLY_CFG_tie_limit_ns = part v 64 32 ∧
              (d.tly.loudP ≠ 0 → loudLen d ≠ loudLen d' → d'.tly.loudP = openNow d (loudLen d')) ∧ (loudLen d = loudLen d' → d'.tly.loudP = d.tly.loudP)) ∧
            (kind = 0x11 → d'.rd R.TLY_PROG_chan [p] = part v 32 512 ∧ d'.rd R.TLY_PROG_ts_ofs [p] = part v (32 + 512) 32 ∧
              d'.rd R.TLY_PROG_limit [p] = part v (32 + 544) 16 ∧ d'.rd R.TLY_PROG_tp_limit [p] = part v (32 + 560) 16 ∧ d'.rd R.TLY_PROG_en [p] = part v (32 + 576) 1 ∧
              d'.rd R.TLY_PROG_name [p] = part v (32 + 640) 256 ∧
              (d.tly.aligned = true → d'.tlyRun p = { next := (d.now * 10 + second - 1) / second + 1 }) ∧ ∀ q, q ≠ p → d'.tlyRun q = d.tlyRun q) ∧
            (kind = 0x14 → d'.tlyRun p = { d.tlyRun p with blocks := [], shorts := [] } ∧ ∀ q, q ≠ p → d'.tlyRun q = d.tlyRun q)))

namespace Sys2Proof.Claims

/-- Transition record `k`, and what it says of itself (R540, Table 17-2). -/
def recordBits (d : Dev) (k : Nat) : Nat := part d.lcs.otp (0x400 + 128 * k) 128
def opened (r : Nat) : Prop := part r 126 2 ≠ 0
def complete (r : Nat) : Prop := opened r ∧ part r (16 + 2 * part r 8 5) 2 ≠ 0

/-- The life-cycle state: the target of the last complete record, BLANK when there is none (R537). -/
def inState (d : Dev) (st : Nat) : Prop :=
  (st = 0 ∧ ∀ k, k < 8 → ¬ complete (recordBits d k)) ∨
  ∃ k, k < 8 ∧ complete (recordBits d k) ∧ (∀ j, k < j → j < 8 → ¬ complete (recordBits d j)) ∧ st = part (recordBits d k) 0 4

/-- A hash field and a key field with its check are valid (R545). -/
def goodHash (v : Nat) : Prop := v ≠ 0 ∧ v ≠ 2 ^ 384 - 1
def goodKey (v : Nat) : Prop := let key := v % 2 ^ 256; key ≠ 0 ∧ key ≠ 2 ^ 256 - 1 ∧ part v 256 32 = crc32c (leBytes 32 key)

/-- A field of owner slot `k`, and its two-bit flags at an offset (R541, Table 17-4). -/
def ofSlot (d : Dev) (k lo w : Nat) : Nat := part d.lcs.otp (0x800 + 0x500 * k + lo) w
def slotUsed (d : Dev) (k : Nat) : Prop := ofSlot d k 0x426 2 ≠ 0
def slotGone (d : Dev) (k : Nat) : Prop := ofSlot d k 0x428 6 ≠ 0

/-- Owner slot `k` is the current one (R546). -/
def currentSlot (d : Dev) (k : Nat) : Prop :=
  k < 2 ∧ slotUsed d k ∧ ¬ slotGone d k ∧ ∀ j, j < k → ¬ (slotUsed d j ∧ ¬ slotGone d j)

/-- The life-cycle controller has a check or a transition under way (R549). -/
def lcBusy (d : Dev) : Prop := d.lcs.check ≠ none ∨ d.rd R.LCS_STATE_pending ≠ 0

/-- The steps of each path (Table 17-1). -/
def stepsOf (path : Nat) : Nat := if path = 3 then 5 else if path = 5 ∨ path = 6 ∨ path = 7 then 4 else if path = 8 then 6 else 1

/-- The lowest record not in use may not be taken: there is none, or it is the last one and the request is no SCRAP
(R542). -/
def otpFull (d : Dev) (path : Nat) : Prop := ∀ k, k < 8 → recordBits d k = 0 → (∀ j, j < k → recordBits d j ≠ 0) → k = 7 ∧ path ≠ 8

/-- `d'` is `d` with a transition committed: the lowest record not in use burned, its commit bit last (R541). -/
def commits (d d' : Dev) (target path : Nat) : Prop :=
  ∃ k, k < 8 ∧ recordBits d k = 0 ∧ (∀ j, j < k → recordBits d j ≠ 0) ∧ d'.rd R.LCS_STATE_pending = 1 ∧ d'.rd R.LCS_CMD_result = 0 ∧
    d'.mem = d.mem ∧ d'.lcs.otp = d.lcs.otp ||| (target + 16 * path + 256 * stepsOf path + 3 * 2 ^ 126) * 2 ^ (0x400 + 128 * k)

/-- The TAP has taken an instruction; `pins` says who drives the pins: 0 the functional logic. -/
def scanned (d : Dev) (code pins : Nat) : Dev := { d with lcs := { d.lcs with ir := code, pinMode := pins } }

/-- LCS_CMD.result records `r`. -/
def answered (d : Dev) (r : Nat) : Dev := d.wr R.LCS_CMD_result [] r

/-- A nonce is made: 256 bits that nothing constrains (R548). -/
def freshNonce (d d' : Dev) (v : Nat) : Prop :=
  d'.rd R.LCS_NONCE_nonce = v ∧ v < 2 ^ 256 ∧ d'.lcs.nonceAt = d.tim.mono + 1 ∧ d'.rd R.LCS_CMD_result = 0 ∧ d'.lcs.otp = d.lcs.otp ∧
    d'.lcs.session = d.lcs.session ∧ d'.mem = d.mem

/-- The debug session closes, other than by reset (R550). -/
def sessionEnds (d d' : Dev) : Prop :=
  d'.lcs = { d.lcs with session := none } ∧ pends d' 307 ∧ d'.mem = d.mem ∧ d'.rd R.LCS_DEBUG_compat = 0 ∧ d'.rd R.LCS_DEBUG_not_after = 0 ∧
    (∀ st, inState d st → st ≠ 0 → st ≠ 1 → d'.rd R.LCS_DEBUG_open = 0 ∧ d'.rd R.LCS_DEBUG_rights = 0)

/-- A field of a certificate, little-endian and in network order (Table 17-5). -/
def cert (c i n : Nat) : Nat := part c (8 * i) (8 * n)
def certBytes (c i n : Nat) : List Byte := leBytes n (cert c i n)

/-- The path of a certified transition (Table 17-1). -/
def certified (st target issuer path : Nat) : Prop :=
  (st = 2 ∧ target = 3 ∧ issuer = 0 ∧ path = 3) ∨ (st = 3 ∧ target = 4 ∧ issuer = 1 ∧ path = 4) ∨ (st = 3 ∧ target = 2 ∧ issuer = 1 ∧ path = 5) ∨
  ((st = 3 ∨ st = 4) ∧ target = 5 ∧ issuer = 1 ∧ path = 7) ∨ (st = 2 ∧ target = 5 ∧ issuer = 0 ∧ path = 7) ∨
  ((st = 1 ∨ st = 2 ∨ st = 5) ∧ target = 6 ∧ issuer = 0 ∧ path = 8) ∨ ((st = 3 ∨ st = 4) ∧ target = 6 ∧ issuer = 1 ∧ path = 8)

/-- The checks of a certificate, in their order (R549), in state `st` with owner slot `s`. -/
def certChecks (d : Dev) (st s kind c : Nat) : List (Prop × Nat) :=
  let issuer := cert c 6 1
  let target := cert c 7 1
  let own := kind = 2 ∧ target = 3
  let auth := if issuer = 0 then part d.lcs.otp 0x200 384 else ofSlot d s 0x2A0 384
  let key := part d.lcs.otp 0xC0 288
  let hash := fun i => ofBe (certBytes c i 48)
  let accepted := if kind = 1 then
      ((st = 2 ∨ st = 5) ∧ issuer = 0) ∨ (st = 3 ∧ (issuer = 1 ∨ ofSlot d s 0x422 2 ≠ 0)) ∨ (st = 4 ∧ issuer = 1)
    else ((st = 1 ∨ st = 2 ∨ st = 5) ∧ issuer = 0) ∨ ((st = 3 ∨ st = 4) ∧ issuer = 1)
  let path := fun p => certified st target issuer p
  [(¬ (certBytes c 0 6 = [0x4C, 0x43, 0x45, 0x52, 1, BitVec.ofNat 8 kind] ∧ issuer ≤ 1 ∧ (kind = 1 → target = 0) ∧ cert c 8 8 = 0 ∧ cert c 70 2 = 0 ∧
      cert c 80 48 = 0 ∧ (kind = 2 → cert c 72 8 = 0) ∧ (own → cert c 312 1 < 8 ∧ cert c 313 7 = 0) ∧ (¬ own → cert c 128 192 = 0)), 1),
   (ofBe (certBytes c 16 16) ≠ d.lcs.otp % 2 ^ 128, 2),
   (d.lcs.nonceAt = 0 ∨ cert c 32 32 ≠ d.rd R.LCS_NONCE_nonce, 3),
   (¬ accepted, 4),
   (¬ goodHash auth ∨ (Config.sha384 (certBytes c 320 96)).toNat ≠ auth, 5),
   (Config.ecdsaP384 (BitVec.ofNat 768 (ofBe (certBytes c 320 96))) (certBytes c 0 320) (BitVec.ofNat 768 (ofBe (certBytes c 416 96))) = false, 6),
   (cert c 64 6 ≤ d.now / second, 7),
   (kind = 2 ∧ ∀ p, ¬ path p, 8),
   (kind = 2 ∧ ((path 3 ∧ ¬ (goodKey key ∧ Config.aesUnwrap (BitVec.ofNat 256 key) (BitVec.ofNat 320 (cert c 128 40)) ≠ none ∧ goodHash (hash 168) ∧
      goodHash (hash 216) ∧ (hash 264 = 0 ∨ goodHash (hash 264)))) ∨ (path 4 ∧ ¬ goodHash (ofSlot d s 0x120 384))), 9),
   (kind = 2 ∧ ((∃ p, path p ∧ otpFull d p) ∨ (path 3 ∧ ∀ k, k < 2 → slotUsed d k ∨ slotGone d k)), 10),
   (kind = 1 ∧ (cert c 72 4 = 0 ∨ 604800 < cert c 72 4 ∨ 512 ≤ cert c 76 4 ∨ (st = 4 ∧ (cert c 76 4).testBit 3 = true)), 11)]

end Sys2Proof.Claims

/-- R537, R538, R541, R542, R545, R546, R548 to R550, R553, R554, Tables 17-1, 17-8. -/
def Sys2Proof.Claims.LifeCycleRequests : Prop :=
  ∀ d, On d →
    (∀ inp : Fin 101, let may := (inp : Nat) = 97 ∨ (inp : Nat) = 98 ∨ (inp : Nat) = 100
      let refusedTo := fun (c : Instr) => Does c d ((said d inp 3 0).raise 3 (inp + 768))
      (¬ may → refusedTo (.nonce inp) ∧ refusedTo (.debug inp) ∧ refusedTo (.transition inp) ∧ refusedTo (.close inp)) ∧
      (may → lcBusy d → ∀ c ∈ [Instr.nonce inp, .debug inp, .transition inp], ∃ d', Does c d d' ∧ d' = said (answered d 12) inp 27 0) ∧
      (may → ¬ lcBusy d → (∃ d' v, Does (.nonce inp) d d' ∧ freshNonce d d' v ∧ d'.out = .access inp 0 0 :: d.out) ∧
        Does (.debug inp) d (said ({ d with lcs := { d.lcs with check := some (1, d.rd R.LCS_CERT_cert) } }.wr R.LCS_CMD_busy [] 1) inp 0 0) ∧
        Does (.transition inp) d (said ({ d with lcs := { d.lcs with check := some (2, d.rd R.LCS_CERT_cert) } }.wr R.LCS_CMD_busy [] 1) inp 0 0)) ∧
      (may → d.lcs.session = none → Does (.close inp) d (said d inp 0 0)) ∧
      (may → d.lcs.session ≠ none → ∃ d', Does (.close inp) d d' ∧ sessionEnds d d' ∧ d'.out = .access inp 0 0 :: d.out)) ∧
    (d.lcs.session = none → Does .dbgClose d (scanned d 0x17 0) ∧ Does .debugSessionExpire d d) ∧
    (d.lcs.session ≠ none → ∃ d', Does .dbgClose d d' ∧ sessionEnds (scanned d 0x17 0) d') ∧
    (∀ x, d.lcs.session = some x →
      let beyond := x.compat = false ∧ (x.notAfter ≤ d.now / second ∨ x.dur * 1000000000 ≤ (d.tim.mono - x.opened) * 256)
      (beyond → ∃ d', Does .debugSessionExpire d d' ∧ sessionEnds d d') ∧ (¬ beyond → Does .debugSessionExpire d d)) ∧
    (let old := d.lcs.nonceAt ≠ 0 ∧ 600000000000 ≤ (d.tim.mono + 1 - d.lcs.nonceAt) * 256
     (old → Does .nonceLapse d ({ d with lcs := { d.lcs with nonceAt := 0 } }.wr R.LCS_NONCE_nonce [] 0)) ∧ (¬ old → Does .nonceLapse d d)) ∧
    (∀ st, inState d st →
      (st = 6 → Does .nonceGet d ((answered (scanned d 0x11 0) 8).emit (.tdo 1 0)) ∧ ∀ c, Does (.certLoad c) d ((answered (scanned d 0x12 0) 8).emit (.tdo 1 0))) ∧
      (st ≠ 6 → lcBusy d → Does .nonceGet d ((answered (scanned d 0x11 0) 12).emit (.tdo 1 0)) ∧
        ∀ c, Does (.certLoad c) d (answered ((scanned d 0x12 0).wr R.LCS_CERT_cert [] c.toNat) 12)) ∧
      (st ≠ 6 → ¬ lcBusy d → (∃ d' v, Does .nonceGet d d' ∧ freshNonce d d' v ∧ d'.out = .tdo 256 v :: d.out) ∧
        ∀ c, let e := (scanned d 0x12 0).wr R.LCS_CERT_cert [] c.toNat
          Does (.certLoad c) d ({ e with lcs := { e.lcs with check := some (if cert c.toNat 5 1 = 2 then 2 else 1, c.toNat) } }.wr R.LCS_CMD_busy [] 1)) ∧
      (∀ target : BitVec 3,
        let t := target.toNat
        let e := scanned d 0x14 0
        let row := fun p => (st = 0 ∧ t = 1 ∧ p = 1) ∨ (st = 1 ∧ t = 2 ∧ p = 2) ∨ (st = 0 ∧ t = 6 ∧ p = 8)
        let fields := d.lcs.otp % 2 ^ 128 ≠ 0 ∧ goodKey (part d.lcs.otp 0xC0 288) ∧ goodHash (part d.lcs.otp 0x200 384)
        (lcBusy d → Does (.lcRequest target) d (answered e 12)) ∧
        (¬ lcBusy d → (∀ p, ¬ row p) → Does (.lcRequest target) d (answered e 8)) ∧
        (¬ lcBusy d → row 2 → ¬ fields → Does (.lcRequest target) d (answered e 9)) ∧
        (∀ p, ¬ lcBusy d → row p → (p = 2 → fields) → (otpFull d p → Does (.lcRequest target) d (answered e 10)) ∧
          (¬ otpFull d p → ∃ d', Does (.lcRequest target) d d' ∧ commits d d' t p))) ∧
      (∀ word : BitVec 32,
        let e := scanned d 0x2C 0
        (word ≠ 0x3220A5C3 → Does (.compatUnlock word) d e) ∧
        (word = 0x3220A5C3 → (lcBusy d → Does (.compatUnlock word) d (answered e 12)) ∧
          (¬ lcBusy d → st ≠ 3 → Does (.compatUnlock word) d (answered e 8)) ∧
          (∀ s, ¬ lcBusy d → st = 3 → currentSlot d s → (ofSlot d s 0x424 2 ≠ 0 → Does (.compatUnlock word) d (answered e 13)) ∧
            (ofSlot d s 0x424 2 = 0 → otpFull d 6 → Does (.compatUnlock word) d (answered e 10)) ∧
            (ofSlot d s 0x424 2 = 0 → ¬ otpFull d 6 → ∃ d', Does (.compatUnlock word) d d' ∧ commits d d' 2 6)))))

/-- R538, R541, R542, R545 to R550, Tables 17-1, 17-5 to 17-7. -/
def Sys2Proof.Claims.Certificates : Prop :=
  ∀ d, On d →
    (d.lcs.check = none → Does .certCheckDone d d) ∧
    (∀ kind c st s, d.lcs.check = some (kind, c) → kind = 1 ∨ kind = 2 → inState d st → (currentSlot d s ∨ (s = 0 ∧ ∀ k, ¬ currentSlot d k)) →
      ∃ d' r, Does .certCheckDone d d' ∧ firstFailure (certChecks d st s kind c) r ∧ d'.lcs.check = none ∧ d'.lcs.nonceAt = 0 ∧
        d'.rd R.LCS_NONCE_nonce = 0 ∧ d'.rd R.LCS_CMD_busy = 0 ∧ d'.rd R.LCS_CMD_result = r ∧ d'.mem = d.mem ∧ d'.out = d.out ∧
        (r ≠ 0 → d'.lcs = { d.lcs with check := none, nonceAt := 0 } ∧ d'.evt = d.evt ∧ d'.rd R.LCS_STATE_pending = d.rd R.LCS_STATE_pending) ∧
        (r = 0 → kind = 1 → d'.lcs = { d.lcs with check := none, nonceAt := 0, session := some { rights := cert c 76 4, issuer := cert c 6 1, notAfter := cert c 64 6, dur := cert c 72 4, opened := d.tim.mono } } ∧
          pends d' 306 ∧ d'.rd R.LCS_DEBUG_open = 1 ∧ d'.rd R.LCS_DEBUG_issuer = cert c 6 1 ∧ d'.rd R.LCS_DEBUG_not_after = cert c 64 6 ∧
          (st ≠ 1 → d'.rd R.LCS_DEBUG_rights = cert c 76 4)) ∧
        (r = 0 → kind = 2 → ∃ p, certified st (cert c 7 1) (cert c 6 1) p ∧ commits d d' (cert c 7 1) p ∧ (p = 3 → d'.lcs.stash = c)))

/-- Life-cycle requests: LCS_CMD and its JTAG forms; The end of a certificate check. -/
def Obligations.LifeCycleAuthority : Prop :=
  Sys2Proof.Claims.LifeCycleRequests ∧ Sys2Proof.Claims.Certificates

/-- R537, R539 to R541, R543 to R545, R551, Tables 17-1 to 17-4. A TLY_SEED that is burned is what the random source
gives: a free value (log entry 70). -/
def Obligations.LifeCycleSteps : Prop :=
  ∀ d, On d → d.rd R.LCS_STATE_pending ≠ 0 →
    ∀ (k target path j : Nat) (mode : BitVec 2) (bell pull : Bool), k < 8 → target < 8 → 1 ≤ path → path ≤ 8 → j < stepsOf path →
      recordBits d k = target + 16 * path + 256 * stepsOf path + 3 * 2 ^ 126 + ((List.range j).map fun i => 3 * 2 ^ (18 + 2 * i)).sum →
      (∀ i, k < i → i < 8 → ¬ opened (recordBits d i)) →
      let go := fun cut => Instr.lcReset mode bell pull cut
      let otp := d.lcs.otp
      let marked := fun (e : Dev) n => recordBits e k = target + 16 * path + 256 * stepsOf path + 3 * 2 ^ 126 + ((List.range n).map fun i => 3 * 2 ^ (18 + 2 * i)).sum
      let key := 2 ^ 288 - 1
      (∀ n, j + n < stepsOf path → ∃ d', Does (go (some n)) d d' ∧ d'.pwr.off = true ∧ marked d' (j + n)) ∧
      (∃ d', Does (go none) d d' ∧ d'.pwr.off = false ∧ marked d' (stepsOf path) ∧ inState d' target ∧ d'.rd R.LCS_STATE_state = target ∧
        d'.rd R.LCS_STATE_pending = 0 ∧ d'.rd R.SYS_READY_lc = 1 ∧ pends d' 304 ∧ pends d' 305 ∧
        (∀ i, i < 8 → i ≠ k → recordBits d' i = recordBits d i) ∧ part d'.lcs.otp 0 0x400 = (if path = 8 ∧ j < 2 then part otp 0 0x400 ||| key * 2 ^ 0xC0 else part otp 0 0x400) ∧
        (∀ a, 0x2F000000 ≤ a → a < 0x30000000 → d'.byte a = d.byte a) ∧
        (let user := fun a => 0x28000000 ≤ a ∧ a < 0x2E000000
         let erased := fun a => (path = 5 ∨ path = 6 ∨ path = 7) ∧ j < 4 ∧ user a ∨
           path = 8 ∧ ((j < 3 ∧ 0x10000000 ≤ a ∧ a < 0x18000000) ∨ (j < 4 ∧ 0x18000000 ≤ a ∧ a < 0x20000000) ∨ (j < 5 ∧ 0x20000000 ≤ a ∧ a < 0x28000000) ∨ user a)
         ∀ a, 0x10000000 ≤ a → a < 0x2F000000 → (erased a → d'.byte a = ({} : Dev).byte a) ∧ (¬ erased a → d'.byte a = d.byte a)) ∧
        (path = 1 → part otp 0x1200 384 ≠ 0 → part d'.lcs.otp 0x800 0xD00 = part otp 0x800 0xD00) ∧
        (path = 2 → part d'.lcs.otp 0x800 0x1800 = part otp 0x800 0x1800) ∧
        (path = 4 → ∀ s, currentSlot d s → part d'.lcs.otp 0x800 0x1800 = part otp 0x800 0x1800 ||| 3 * 2 ^ (0x500 * s + 0x420)) ∧
        (path = 5 ∨ path = 6 ∨ path = 7 → j = 0 → ∀ s, currentSlot d s → part d'.lcs.otp 0x800 0x1800 =
          part otp 0x800 0x1800 ||| (key + 63 * 2 ^ 0x428) * 2 ^ (0x500 * s)) ∧
        (path = 5 ∨ path = 6 ∨ path = 7 → (∀ s, ¬ currentSlot d s) → part d'.lcs.otp 0x800 0x1800 = part otp 0x800 0x1800) ∧
        (path = 8 → j < 2 → part d'.lcs.otp 0x800 0x1800 = part otp 0x800 0x1800 ||| key + key * 2 ^ 0x500) ∧
        (if path = 6 then d'.lcs.session = some { rights := 0x1E7, compat := true } ∧ (target = 2 → d'.rd R.LCS_DEBUG_rights = 0x1E7) else d'.lcs.session = none) ∧
        (path = 3 → j = 0 → ∀ (s : Nat) (image : BitVec 256), s < 2 → part otp (0x800 + 0x500 * s) 0x500 = 0 → (∀ i, i < s → slotUsed d i ∨ slotGone d i) →
          Config.aesUnwrap (BitVec.ofNat 256 (part otp 0xC0 288)) (BitVec.ofNat 320 (cert d.lcs.stash 128 40)) = some image →
          let c := d.lcs.stash
          let f := cert c 312 1
          ofSlot d' s 0 256 = image.toNat ∧ ofSlot d' s 0x100 32 = crc32c (leBytes 32 image.toNat) ∧ ofSlot d' s 0x120 384 = ofBe (certBytes c 168 48) ∧
          ofSlot d' s 0x2A0 384 = ofBe (certBytes c 216 48) ∧
          ofSlot d' s 0x420 14 = 3 * part f 0 1 + 12 * part f 1 1 + 48 * part f 2 1 + 192 ∧ d'.lcs.stash = 2 ^ 4096 - 1 ∧
          part d'.lcs.otp 0x1380 384 = if part otp 0x1380 384 = 0 then ofBe (certBytes c 264 48) else part otp 0x1380 384))

namespace Sys2Proof.Claims

/-- Right `b` is in force for input 100: without a certificate in BLANK and VENDOR_TEST, by the open session else
(R550, R552). -/
def granted (d : Dev) (b : Nat) : Prop :=
  ∃ st, inState d st ∧ if st = 0 ∨ st = 1 then b < 9 else ∃ x, d.lcs.session = some x ∧ x.rights.testBit b = true

/-- The right that a debug access to an address needs (R554, Table 17-8). -/
def rightFor (write : Bool) (a : Nat) : Option Nat :=
  if a < 0x1000000 then some (if write then 6 else 5)
  else if 0x10000000 ≤ a ∧ a < 0x30000000 then some (if write then 8 else 2)
  else if inDroves a = true ∨ inDdr a = true then some 7 else none

/-- Bits of OTP that are burned through OTP_WRITE (Table 17-3). -/
def vendorField (b : Nat) : Prop :=
  b < 0x85 ∨ (0xA0 ≤ b ∧ b < 0xA4) ∨ (0xC0 ≤ b ∧ b < 0x1E0) ∨ (0x200 ≤ b ∧ b < 0x380) ∨ (0x1500 ≤ b ∧ b < 0x2000)

end Sys2Proof.Claims

/-- R224, R513, R545, R550, R552, R554, R555, R574, R579, Tables 17-3, 17-7, 17-8. The boundary register's length is a
constant that nothing states (log entry 131). -/
def Obligations.JtagInstructions : Prop :=
  ∀ d, On d →
    let bypassed := fun (e : Dev) => e.emit (.tdo 1 0)
    let w := Config.boundaryLen
    let latched := fun (e : Dev) (cap v : Nat) => { e with lcs := { e.lcs with bsr := v % 2 ^ w, bsrOut := v % 2 ^ w } }.emit (.tdo w (cap % 2 ^ w))
    (∀ cap v, Does (.extest cap v) d (latched (scanned d 0x00 1) cap v) ∧ Does (.samplePreload cap v) d (latched (scanned d 0x01 0) cap v)) ∧
    Does .idcode d ((scanned d 0x02 0).emit (.tdo 32 0x19640D3B)) ∧ Does .clamp d (bypassed (scanned d 0x03 2)) ∧
    Does .highz d (bypassed (scanned d 0x04 3)) ∧ Does .trst d (scanned d 0x02 0) ∧
    (∀ code : BitVec 8, let listed := code.toNat ≤ 4 ∨ code.toNat = 0x2C ∨ (0x10 ≤ code.toNat ∧ code.toNat ≤ 0x1C ∧ code.toNat ≠ 0x13 ∧ code.toNat ≠ 0x1B)
      ¬ listed → Does (.bypass code) d (bypassed (scanned d code.toNat 0))) ∧
    (∃ v, Does .lcStatus d ((scanned d 0x10 0).emit (.tdo 72 (v + d.rd R.LCS_CMD_result * 2 ^ 64))) ∧
      (∀ f : Field, ∀ k, (f, k) ∈ [(R.LCS_STATE_state, 0), (R.LCS_STATE_pending, 3), (R.LCS_STATE_target, 4), (R.LCS_STATE_path, 7), (R.LCS_STATE_step, 11),
        (R.LCS_STATE_records, 16), (R.LCS_STATE_torn, 20), (R.LCS_STATE_slot, 21), (R.LCS_STATE_slots_used, 22), (R.LCS_STATE_sig_req, 26)] →
        d.rd f < 2 ^ f.width → part v k f.width = d.rd f)) ∧
    ((wakes d 11 → Does .wake d (fired (scanned d 0x18 0) 11 0)) ∧ (¬ wakes d 11 → Does .wake d (scanned d 0x18 0))) ∧
    (∀ v : BitVec 96,
      (¬ granted d 0 → Does (.dbgHalt v) d (bypassed (scanned d 0x16 0))) ∧
      (granted d 0 → ∃ d', Does (.dbgHalt v) d d' ∧ d'.mem = d.mem ∧ d'.out = d.out ∧ ∀ n, n < 96 →
        (v.getLsbD n = true → d.island (64 + n / 8) = 0 → d'.rd R.DRV_STATUS_halted [n] ≠ 0 ∧ hasBit d' R.DRV_STATUS_halt_cause [n] 2 = true) ∧
        (v.getLsbD n = false → d'.rd R.DRV_STATUS_halted [n] = d.rd R.DRV_STATUS_halted [n] ∧
          d'.rd R.DRV_STATUS_halt_cause [n] = d.rd R.DRV_STATUS_halt_cause [n]))) ∧
    (∀ clean st, inState d st →
      let clears := part d.lcs.otp 0xA0 2 ≠ 0
      let may := granted d 3 ∧ (part d.lcs.otp 0xA2 2 = 0 ∨ st = 1 ∨ st = 5)
      let e := scanned d 0x19 0
      (¬ may → Does (.scanEnter clean) d (bypassed e)) ∧
      (may → ¬ clears → Does (.scanEnter clean) d { e with lcs := { e.lcs with scan := true } }) ∧
      (may → clears → ∃ d', Does (.scanEnter clean) d d' ∧ d'.rd R.LCS_NONCE_nonce = 0 ∧ d'.rd R.LCS_CERT_cert = 0 ∧ d'.rte.cache = [] ∧ d'.cfg.keys = [] ∧
        d'.hrd.sram = 0 ∧ d'.lcs = { e.lcs with nonceAt := 0, scan := clean || d.lcs.scan } ∧
        (∀ a, 0x40000000 ≤ a → a < 0x43000000 → d'.byte a = 0) ∧ (∀ a, a < 0x40000000 → d'.byte a = d.byte a) ∧
        (if clean then d'.rd R.BST_GUARD_cleared = 1 else d'.rd R.BST_GUARD_clear_fail = 1))) ∧
    (∀ off : BitVec 24,
      (¬ granted d 4 → Does (.tlyRead off) d (bypassed (scanned d 0x1A 0))) ∧
      (granted d 4 → Does (.tlyRead off) d ((scanned d 0x1A 0).emit (.tdo 2072 (off.toNat + d.load (0x2F000000 + off.toNat / 256 * 256) 256 * 2 ^ 24))))) ∧
    (∀ (first : BitVec 13) (n : BitVec 11) (data : BitVec 384),
      let bits := n.toNat
      let may := inState d 1 ∧ 1 ≤ bits ∧ bits ≤ 384 ∧ ∀ k, k < bits → vendorField (first.toNat + k)
      (¬ may → Does (.otpWrite first n data) d (bypassed (scanned d 0x1C 0))) ∧
      (may → ∃ d', Does (.otpWrite first n data) d d' ∧ d'.lcs = { (scanned d 0x1C 0).lcs with otp := d.lcs.otp ||| data.toNat % 2 ^ bits * 2 ^ first.toNat } ∧
        d'.mem = d.mem ∧ d'.out = d.out)) ∧
    (∀ (v : BitVec 113) (errs : List (Nat × Nat)) (find : NvFind),
      let go := Instr.dbgAccess v errs find
      let write := v.getLsbD 0
      let a := part v.toNat 4 37 * 8
      let sent := part v.toNat 41 64
      let e := (scanned d 0x15 0).emit (.tdo 113 (d.lcs.dr + d.lcs.dbgStatus * 2 ^ 105))
      let done := fun (e : Dev) st data => { e with lcs := { e.lcs with dr := part v.toNat 0 41 + data * 2 ^ 41, dbgStatus := st } }
      (∀ r, rightFor write a = some r → ¬ granted d r → Does go d (done e 0x80 sent)) ∧
      ((∀ r, rightFor write a = some r → granted d r) →
        (write = true → let x := spaceWrite ⟨100, false⟩ a (leBytes 8 sent) errs e
          Does go d (done (x.1.denied 100 x.2) x.2 sent)) ∧
        (write = false → let x := spaceRead ⟨100, false⟩ a 8 errs find e
          Does go d (done (x.1.denied 100 x.2.1) x.2.1 (ofLe x.2.2)))))

namespace Sys2Proof.Claims

/-- Macros of each class, and the global number of its first (Table 18-1). -/
def macrosOf : List Nat := [768, 3072, 6144, 2560, 2048, 6144, 64, 512, 256, 64, 8192]
def baseOf (c : Nat) : Nat := (macrosOf.take c).sum

/-- What a slice names: its class, its first index, the index after its last (BST_SLICE). -/
def classOf (d : Dev) (k : Nat) : Nat := d.rd R.BST_SLICE_cls [k]
def firstOf (d : Dev) (k : Nat) : Nat := d.rd R.BST_SLICE_first [k]
def lastOf (d : Dev) (k : Nat) : Nat :=
  let size := macrosOf.getD (classOf d k) 0
  if d.rd R.BST_SLICE_count [k] = 0 then size else min size (firstOf d k + d.rd R.BST_SLICE_count [k])

/-- Slice `k` leaves its macros with their contents lost: no shadow (R560, R563). -/
def bare (d : Dev) (k : Nat) : Prop := d.rd R.BST_SLICE_shadow [k] = 0 ∨ classOf d k = 3

/-- The bytes of macro `g` that the device's memory shows: instruction memory, crib, drove memory (Table 18-1). -/
def macroBase (g : Nat) : Option Nat :=
  if g < 768 then some (droverPrivate (g / 8) + 0x100000 + 8192 * (g % 8))
  else if g < 3840 then some (droverPrivate ((g - 768) / 32) + 8192 * ((g - 768) % 32))
  else if g < 9984 then some (0x40000000 + 8192 * (g - 3840)) else none

/-- A byte of macro `g`. -/
def inMacro (g a : Nat) : Prop := ∃ b, macroBase g = some b ∧ b ≤ a ∧ a < b + 8192

/-- Slice `k` has ended with a result and its event (R559, R562, R564, R565). -/
def sliceEnds (d d' : Dev) (k result ev : Nat) : Prop :=
  let x := d.slice k
  let again := result = 4 ∧ x.tries < d.rd R.BST_CFG_retry_max
  let y := d'.slice k
  y.on = false ∧ y.act = [] ∧ y.tries = x.tries ∧ y.retryAt = (if again then d.clock + d.rd R.BST_CFG_retry_us * 65536000 + 1 else 0) ∧
    d'.rd R.BST_SLICE_RES_result [k] = result ∧ pends d' ev ∧ hasBit d' R.BST_STAT_running [] k = false

/-- Every macro of running slice `k` has stopped at its next element step: some steps below a whole test each, and
contents lost where nothing shadows them (R560, R562). -/
def sliceStops (d d' : Dev) (k result ev : Nat) : Prop :=
  let x := d.slice k
  let steps := fun e : Dev => e.rd R.BST_SLICE_RES_steps [k]
  sliceEnds d d' k result ev ∧
  (steps d + 6144 * x.act.length < 2 ^ 32 → steps d ≤ steps d' ∧ steps d' ≤ steps d + 6143 * x.act.length) ∧
  (¬ bare d k → d'.mem = d.mem) ∧ (∀ a, (∀ g ∈ x.act, ¬ inMacro g a) → d'.byte a = d.byte a)

/-- The cells (row, column group) of failures (word, failing bits) (R569). -/
def failing (fails : List (Fin 6 × Fin 1024 × BitVec 72)) (row col : Nat) : Prop :=
  ∃ f ∈ fails, row = f.2.1.val / 16 ∧ f.2.2.getLsbD col = true

/-- Entry `e` of the repairs: a spare of a kind of macro `g`, taken for a row or column group (Table 18-3). -/
def spareFor (e g kind spare addr : Nat) : Prop := e = g + kind * 2 ^ 15 + spare * 2 ^ 16 + addr * 2 ^ 17 + 3 * 2 ^ 30
def spareTaken (l : List Nat) (g kind spare : Nat) : Prop := ∃ e ∈ l, e % 2 ^ 17 = g + kind * 2 ^ 15 + spare * 2 ^ 16

end Sys2Proof.Claims

/-- R557 to R565, R567, R568, Table 18-1. The steps made when a slice stops, and the contents it leaves, are free. -/
def Obligations.SelfTestSlices : Prop :=
  ∀ d, On d →
    let idle := ∀ k, (d.slice k).on = false ∧ (d.slice k).act = []
    let par := max 1 (d.rd R.BST_CFG_max_par)
    (∀ (inp : Fin 101) (k : Fin 64),
      let refused := 11 ≤ classOf d k ∨ (d.slice k).on = true ∨ d.rd R.PWR_STAT_entering ≠ 0 ∨ d.rd R.PWR_STAT_exiting ≠ 0
      (d.island 104 ≠ 0 → Does (.start inp k) d (said d inp 2 0) ∧ Does (.stop inp k) d (said d inp 2 0)) ∧
      (d.island 104 = 0 → refused → Does (.start inp k) d (said (d.wr R.BST_CMD_result [] 1) inp 27 0)) ∧
      (d.island 104 = 0 → ¬ refused → idle → (∀ i, i < 112 → d.island i ≠ 2) → (bare d k ∨ par = 1) → firstOf d k < lastOf d k →
        let n := min par (lastOf d k - firstOf d k)
        ∃ d', Does (.start inp k) d d' ∧ tells d d' inp 0 ∧ d'.mem = d.mem ∧ d'.rd R.BST_CMD_result = 0 ∧
          d'.slice k = { on := true, tries := 0, next := firstOf d k + n, act := (List.range n).map (baseOf (classOf d k) + firstOf d k + ·), start := d.clock } ∧
          d'.rd R.BST_SLICE_RES_result [k] = 5 ∧ d'.rd R.BST_SLICE_RES_steps [k] = 0 ∧ d'.rd R.BST_SLICE_RES_failed [k] = 0 ∧
          d'.rd R.BST_SLICE_RES_retries [k] = 0 ∧ d'.rd R.BST_SLICE_RES_expected [k] = 6144 * (lastOf d k - firstOf d k) ∧
          hasBit d' R.BST_STAT_running [] k = true ∧ d'.rd R.BST_STAT_active = n % 2 ^ 16) ∧
      (d.island 104 = 0 → (d.slice k).on = false → Does (.stop inp k) d (said (d.wr R.BST_CMD_result [] 0) inp 0 0)) ∧
      (d.island 104 = 0 → (d.slice k).on = true → ∃ d', Does (.stop inp k) d d' ∧ tells d d' inp 0 ∧ sliceStops d d' k 3 309)) ∧
    (∀ k : Fin 64,
      let x := d.slice k
      let us := d.rd R.BST_SLICE_budget_us [k]
      let passed := us ≠ 0 ∧ x.start + us * 65536000 ≤ d.clock
      (x.on = false ∨ ¬ passed → Does (.sliceBudgetExpire k) d d) ∧
      (x.on = true → passed → ∃ d', Does (.sliceBudgetExpire k) d d' ∧ d'.out = d.out ∧ sliceStops d d' k 3 309) ∧
      (let due := x.retryAt ≠ 0 ∧ x.on = false ∧ x.retryAt ≤ d.clock + 1
       (¬ due → Does (.sliceRetry k) d d) ∧
       (due → idle → (∀ i, i < 112 → d.island i ≠ 2) → (bare d k ∨ par = 1) → classOf d k < 11 → firstOf d k < lastOf d k →
         ∃ d', Does (.sliceRetry k) d d' ∧ d'.mem = d.mem ∧ (d'.slice k).on = true ∧ (d'.slice k).tries = x.tries + 1 ∧
           d'.rd R.BST_SLICE_RES_retries [k] = (x.tries + 1) % 8 ∧ d'.rd R.BST_SLICE_RES_steps [k] = 0 ∧ d'.rd R.BST_SLICE_RES_result [k] = 5)) ∧
      (∀ (g : Fin 29824) (steps : Nat) fails (sigBad served : Bool),
        let go := Instr.macroTestDone k g steps fails sigBad served
        let found := ∃ f ∈ fails, f.2.2 ≠ 0
        let last := x.act = [g.val] ∧ lastOf d k ≤ x.next
        let failed := d.rd R.BST_SLICE_RES_failed [k]
        let made := fun e : Dev => e.rd R.BST_SLICE_RES_steps [k]
        (x.on = false ∨ g.val ∉ x.act → Does go d d) ∧
        (x.on = true → g.val ∈ x.act → served = true → bare d k → ∃ d', Does go d d' ∧ d'.out = d.out ∧ sliceStops d d' k 4 310) ∧
        (x.on = true → g.val ∈ x.act → served = false ∨ ¬ bare d k → made d + 6144 < 2 ^ 32 → failed < 2 ^ 16 - 1 →
          (∀ h ∈ x.act, h < baseOf (classOf d k) + x.next) →
          (steps < 6144 → ∃ d', Does go d d' ∧ made d' = made d + steps ∧ (¬ bare d k → d'.mem = d.mem) ∧ (∀ a, ¬ inMacro g a → d'.byte a = d.byte a) ∧
            (last → sliceEnds d d' k 3 309) ∧ (¬ last → (d'.slice k).cut = true ∧ g.val ∉ (d'.slice k).act)) ∧
          (6144 ≤ steps → (found → d.rd R.BST_SLICE_rep [k] = 0 ∨ g.val ∈ x.again) → ∃ d', Does go d d' ∧ made d' = made d + 6144 ∧
            (∀ a, d'.byte a = d.byte a ∨ (bare d k ∧ inMacro g a)) ∧ (bare d k → ∀ a, inMacro g a → d'.byte a = 0) ∧
            let bad := sigBad = true ∨ found
            (bad → d'.rd R.BST_SLICE_RES_failed [k] = failed + 1) ∧ (¬ bad → d'.rd R.BST_SLICE_RES_failed [k] = failed) ∧
            (last → (x.cut = true → sliceEnds d d' k 3 309) ∧ (x.cut = false → (bad ∨ failed ≠ 0) → sliceEnds d d' k 2 309) ∧
              (x.cut = false → ¬ bad → failed = 0 → sliceEnds d d' k 1 308)) ∧
            (¬ last → g.val ∉ (d'.slice k).act))))) ∧
    (let go := Instr.startupSelfTest
     (d.rd R.SYS_READY_repair = 0 ∨ d.bst.slices ≠ [] → Does go d d) ∧
     (d.rd R.SYS_READY_repair ≠ 0 → d.bst.slices = [] → d.rd R.BST_CFG_max_par = 4096 → (∀ i, i < 112 → d.island i ≠ 2) →
       (∀ k, k < 11 → classOf d k = k ∧ firstOf d k = 0 ∧ d.rd R.BST_SLICE_count [k] = 0 ∧ d.rd R.BST_SLICE_shadow [k] = 0) →
       ∃ d', Does go d d' ∧ d'.mem = d.mem ∧ d'.rd R.BST_STAT_running = 2047 ∧ d'.rd R.BST_STAT_active = 4096 ∧
         (∀ k, k < 11 → (d'.slice k).on = true ∧ (d'.slice k).start = d.clock ∧ d'.rd R.BST_SLICE_RES_result [k] = 5 ∧
           d'.rd R.BST_SLICE_RES_expected [k] = 6144 * macrosOf.getD k 0) ∧
         (d'.slice 0).act = List.range 768 ∧ (d'.slice 1).act = (List.range 3072).map (768 + ·) ∧ (d'.slice 2).act = (List.range 256).map (3840 + ·)))

/-- R559, R569 to R573, Table 18-3. -/
def Obligations.SelfTestRepairs : Prop :=
  ∀ d, On d →
    (∀ (k : Fin 64) (g : Fin 29824) (steps : Nat) fails (sigBad : Bool),
      let x := d.slice k
      let go := Instr.macroTestDone k g steps fails sigBad false
      let taken := spareTaken (d.bst.fuse ++ d.bst.soft) g
      let free := fun kind => ((List.range 2).filter fun s => !(d.bst.fuse ++ d.bst.soft).any fun e => e % 2 ^ 17 == g.val + kind * 2 ^ 15 + s * 2 ^ 16).length
      let rows := ((List.range 64).filter fun r => fails.any fun f => f.2.1.val / 16 == r && f.2.2 != 0).length
      x.on = true → g.val ∈ x.act → 6144 ≤ steps → d.rd R.BST_SLICE_rep [k] ≠ 0 → g.val ∉ x.again → (∃ f ∈ fails, f.2.2 ≠ 0) →
        ∃ (d' : Dev) (new : List Nat), Does go d d' ∧ d'.bst.soft = d.bst.soft ++ new ∧ d'.bst.fuse = d.bst.fuse ∧
          (let entry := fun (f : Fin 6 × Fin 1024 × BitVec 72) => g.val + f.1.val * 2 ^ 15 + f.2.1.val * 2 ^ 18 + (if new = [] then 0 else 2 ^ 28) + 2 ^ 29 + f.2.2.toNat * 2 ^ 32
           d.bst.log.length ≤ 32 → d'.bst.log = (d.bst.log ++ fails.map entry).take 32 ∧
             (d.rd R.BST_STAT_log_lost < 2 ^ 16 → d'.rd R.BST_STAT_log_lost = min (2 ^ 16 - 1) (d.rd R.BST_STAT_log_lost + (d.bst.log.length + fails.length - 32)))) ∧
          (rows ≤ free 0 → new ≠ []) ∧
          (new ≠ [] → pends d' 311 ∧ (d'.slice k).act = x.act ∧ (d'.slice k).again = x.again ++ [g.val] ∧ d'.mem = d.mem ∧
            d'.rd R.BST_SLICE_RES_repairs [k] = (d.rd R.BST_SLICE_RES_repairs [k] + new.length) % 2 ^ 10 ∧
            d'.rd R.BST_REPAIR_pending = (d'.bst.soft.filter fun e => decide (e ∉ d'.bst.saved)).length % 2 ^ 11 ∧
            (∀ e ∈ new, ∃ kind spare addr, spareFor e g kind spare addr ∧ kind < 2 ∧ spare < 2 ∧ ¬ taken kind spare ∧
              ((kind = 0 ∧ ∃ c, failing fails addr c) ∨ (kind = 1 ∧ ∃ r, failing fails r addr))) ∧
            (new.map (· % 2 ^ 17)).Nodup ∧
            (∀ r c, failing fails r c → ∃ e ∈ new, ∃ spare, spareFor e g 0 spare r ∨ spareFor e g 1 spare c)) ∧
          (new = [] → d.rd R.BST_SLICE_RES_failed [k] < 2 ^ 16 - 1 → d'.rd R.BST_SLICE_RES_failed [k] = d.rd R.BST_SLICE_RES_failed [k] + 1)) ∧
    (∀ inp : Fin 101,
      let seq := match d.bst.area0, d.bst.area1 with | some a, some b => max a.1 b.1 | some a, none => a.1 | none, some b => b.1 | none, none => 0
      (d.island 104 ≠ 0 → Does (.saveRepair inp) d (said d inp 2 0) ∧ ∀ u, Does (.failLogRead inp u) d (said d inp 2 0)) ∧
      (d.island 104 = 0 →
        (d.rd R.BST_CMD_busy ≠ 0 → Does (.saveRepair inp) d (said (d.wr R.BST_CMD_result [] 1) inp 27 0)) ∧
        (d.rd R.BST_CMD_busy = 0 → 1024 < d.bst.soft.length → Does (.saveRepair inp) d (said (d.wr R.BST_CMD_result [] 3) inp 27 0)) ∧
        (d.rd R.BST_CMD_busy = 0 → d.bst.soft.length ≤ 1024 →
          Does (.saveRepair inp) d (said (({ d with bst := { d.bst with saving := some (seq + 1, d.bst.soft) } }.wr R.BST_CMD_busy [] 1).wr R.BST_CMD_result [] 0) inp 0 0)) ∧
        (d.bst.log = [] → ∀ u, Does (.failLogRead inp u) d (said d inp 0 0)) ∧
        (∀ e more, d.bst.log = e :: more →
          Does (.failLogRead inp 0) d (said { d with bst := { d.bst with log := more } } inp 0 (part e 0 64)) ∧
          Does (.failLogRead inp 1) d (said d inp 0 (part e 64 64))))) ∧
    (d.bst.saving = none → ∀ ok, Does (.saveRepairDone ok) d d) ∧
    (∀ t, d.bst.saving = some t →
      let into := match d.bst.area0, d.bst.area1 with | some a, some b => if a.1 < b.1 then 0 else 1 | some _, none => 1 | none, some _ => 0 | none, none => 0
      (∃ d', Does (.saveRepairDone true) d d' ∧ d'.bst = { d.bst with saving := none, saved := t.2, area0 := if into = 0 then some t else d.bst.area0, area1 := if into = 1 then some t else d.bst.area1 } ∧
        d'.rd R.BST_CMD_busy = 0 ∧ d'.rd R.BST_CMD_result = 0 ∧ d'.rd R.BST_REPAIR_seq = t.1 % 2 ^ 24 ∧ d'.rd R.BST_REPAIR_table_valid = 1 ∧ d'.mem = d.mem) ∧
      (∃ d', Does (.saveRepairDone false) d d' ∧ d'.bst = { d.bst with saving := none, area0 := if into = 0 then none else d.bst.area0, area1 := if into = 1 then none else d.bst.area1 } ∧
        d'.rd R.BST_CMD_busy = 0 ∧ d'.rd R.BST_CMD_result = 2 ∧ d'.mem = d.mem))

namespace Sys2Proof.Claims

/-- The commands of the Tally and of power itself: what runs while the rest of the device is in OFF (R464, R514). -/
def worksInOff (c : Instr) : Prop :=
  (∃ mode bell pull cut, c = .powerOnResetRelease mode bell pull cut) ∨ c = .porNAssert ∨ (∃ n, c = .railCollapse n) ∨ (∃ ok, c = .tallyStart ok) ∨
  (∃ ok, c = .romCheck ok) ∨ c = .replicaAligned ∨ (∃ q, c = .audioTap q) ∨ c = .acctTap ∨ c = .ppsTap ∨ c = .ack ∨ c = .replay ∨ c = .config ∨
  c = .prog ∨ c = .seal ∨ c = .unseal ∨ c = .restartProg ∨ c = .inboxBadKind ∨ (∃ p, c = .loudnessBlock p) ∨ c = .loudnessRecord ∨ c = .serviceRecord ∨
  c = .tieRecord ∨ c = .recordCommit ∨ c = .tallyPowerLoss

/-- The signed commands of the Tally authority (Table 16-5). -/
def authority (c : Instr) : Prop := c = .config ∨ c = .prog ∨ c = .seal ∨ c = .unseal ∨ c = .restartProg

/-- The commands that commit a record of the Tally (R514, R529). -/
def commitsRecord (c : Instr) : Prop := c = .recordCommit ∨ ∃ ok, c = .tallyStart ok

end Sys2Proof.Claims

/-- R464, R514. That an empty queue idles is the model's choice (log entry 136). -/
def Obligations.StepTakesTheFrontCommand : Prop :=
  (∀ (c : Instr) (rest : List Instr) (d : Dev), step ⟨c :: rest, d⟩ = exec c ⟨rest, d⟩) ∧
  (∀ d : Dev, step ⟨[], d⟩ = .next ⟨[], d⟩) ∧
  (∀ s : State, ∃ t, step s = .next t ∧ t.pending = s.pending.tail) ∧
  (∀ (c : Instr) (d : Dev), d.pwr.off = true → ¬ worksInOff c → Does c d d)

/-- R464, R541, R545, Table 00-6. What unwritten memory reads as, and the reset values the spec does not state, are the
model's choices (log entries 3 and 6). -/
def Obligations.ResetState : Prop :=
  State.reset.pending = [] ∧ (∀ (f : Field) (ix : List Nat), State.reset.dev.rd f ix = f.reset ix) ∧
  (∀ a, State.reset.dev.byte a = if 0x10000000 ≤ a ∧ a < 0x30000000 then 0xFF else 0) ∧ State.reset.dev.lcs.otp = 0 ∧
  State.reset.dev.out = [] ∧ (∀ i, State.reset.dev.island i = 0) ∧ canonical State.reset.dev = true ∧ inState State.reset.dev 0

/-- R35, R38. The canonical form is the model's own. -/
def Obligations.TablesStayCanonical : Prop :=
  ∀ s t, canonical s.dev = true → step s = .next t → canonical t.dev = true

/-- R537, R541, R545. -/
def Obligations.OtpOnlyGrows : Prop :=
  ∀ s t, step s = .next t → ∀ b, s.dev.lcs.otp.testBit b = true → t.dev.lcs.otp.testBit b = true

/-- R506, R508, R513, R514, R529, R534. -/
def Obligations.TallyIsolation : Prop :=
  ∀ (c : Instr) (s t : State), exec c s = .next t →
    (¬ authority c → t.dev.tly.params = s.dev.tly.params ∧ t.dev.tly.area = s.dev.tly.area) ∧
    (¬ commitsRecord c → t.dev.tly.count = s.dev.tly.count ∧ t.dev.tly.prev = s.dev.tly.prev)
end

