-- ==== Sys2Proof/Laws/Store.lean ====
section
/-! SUPPORT. The laws of sparse tables: reading after writing, and the canonical form. -/

namespace Sys2Proof.Machine

variable {α : Type}

theorem terase_terase (t : Table α) (k : Nat) : terase (terase t k) k = terase t k := by
  induction t with
  | nil => rfl
  | cons e r ih =>
    by_cases h : e.1 = k
    · simp [terase, h, ih]
    · simp [terase, h, ih]

theorem tget_terase (d : α) (t : Table α) (k : Nat) : tget d (terase t k) k = d := by
  induction t with
  | nil => rfl
  | cons e r ih =>
    by_cases h : e.1 = k
    · simp [terase, h, ih]
    · simp [terase, h, tget, ih]

theorem tget_terase_ne (d : α) (t : Table α) {k j : Nat} (h : j ≠ k) : tget d (terase t k) j = tget d t j := by
  induction t with
  | nil => rfl
  | cons e r ih =>
    by_cases he : e.1 = k
    · have : e.1 ≠ j := fun x => h (x.symm.trans he)
      simp [terase, he, tget, ih, this]
      intro hk; exact absurd hk.symm h
    · by_cases hj : e.1 = j
      · rw [terase, if_neg he, tget, if_pos hj, tget, if_pos hj]
      · simp [terase, he, tget, hj, ih]

theorem terase_tinsert (t : Table α) (k : Nat) (v : α) : terase (tinsert t k v) k = terase t k := by
  induction t with
  | nil => simp [tinsert, terase]
  | cons e r ih =>
    unfold tinsert
    split
    · simp [terase]
    · simp only [terase, ih]

theorem tget_tinsert_erase (d : α) (t : Table α) (k : Nat) (v : α) :
    tget d (tinsert (terase t k) k v) k = v := by
  induction t with
  | nil => simp [terase, tinsert, tget]
  | cons e r ih =>
    by_cases h : e.1 = k
    · simp [terase, h, ih]
    · simp only [terase, h, if_false]
      unfold tinsert
      split
      · simp [tget]
      · simp [tget, h, ih]

theorem tget_tinsert_ne (d : α) (t : Table α) (k : Nat) (v : α) {j : Nat} (h : j ≠ k) :
    tget d (tinsert t k v) j = tget d t j := by
  induction t with
  | nil => simp [tinsert, tget, Ne.symm h]
  | cons e r ih =>
    unfold tinsert
    split
    · simp [tget, Ne.symm h]
    · simp only [tget, ih]

/-- Reading the key written gives the value written. -/
@[simp] theorem tget_tset [DecidableEq α] (d : α) (t : Table α) (k : Nat) (v : α) : tget d (tset d t k v) k = v := by
  unfold tset
  split
  · rename_i h; rw [tget_terase]; exact h.symm
  · exact tget_tinsert_erase d t k v

/-- A write leaves every other key alone. -/
theorem tget_tset_ne [DecidableEq α] (d d' : α) (t : Table α) (k : Nat) (v : α) {j : Nat} (h : j ≠ k) :
    tget d' (tset d t k v) j = tget d' t j := by
  unfold tset
  split
  · exact tget_terase_ne d' t h
  · rw [tget_tinsert_ne _ _ _ _ h, tget_terase_ne _ _ h]

/-- The second of two writes of a key stands. -/
@[simp] theorem tset_tset [DecidableEq α] (d : α) (t : Table α) (k : Nat) (a b : α) :
    tset d (tset d t k a) k b = tset d t k b := by
  have h : terase (tset d t k a) k = terase t k := by
    unfold tset
    split
    · exact terase_terase t k
    · rw [terase_tinsert, terase_terase]
  show (if b = d then terase (tset d t k a) k else tinsert (terase (tset d t k a) k) k b) = _
  rw [h]
  rfl

/-! ### The canonical form -/

/-- Every key of the table is above `k`. -/
def above (k : Nat) (t : Table α) : Prop := ∀ e ∈ t, k < e.1

theorem rising_cons (e : Nat × α) (r : Table α) : rising (e :: r) = true ↔ above e.1 r ∧ rising r = true := by
  induction r generalizing e with
  | nil => simp [rising, above]
  | cons f r ih =>
    simp only [rising, Bool.and_eq_true, decide_eq_true_eq, above, List.mem_cons, forall_eq_or_imp]
    constructor
    · rintro ⟨h1, h2⟩
      exact ⟨⟨h1, fun x hx => Nat.lt_trans h1 (((ih f).mp h2).1 x hx)⟩, h2⟩
    · rintro ⟨⟨h1, _⟩, h2⟩
      exact ⟨h1, h2⟩

theorem mem_terase (t : Table α) (k : Nat) (e : Nat × α) (h : e ∈ terase t k) : e ∈ t ∧ e.1 ≠ k := by
  induction t with
  | nil => simp [terase] at h
  | cons f r ih =>
    unfold terase at h
    split at h
    · exact ⟨List.mem_cons_of_mem _ (ih h).1, (ih h).2⟩
    · rename_i hf
      rcases List.mem_cons.mp h with rfl | h
      · exact ⟨List.mem_cons_self, hf⟩
      · exact ⟨List.mem_cons_of_mem _ (ih h).1, (ih h).2⟩

theorem rising_terase (t : Table α) (k : Nat) (h : rising t = true) : rising (terase t k) = true := by
  induction t with
  | nil => exact h
  | cons e r ih =>
    obtain ⟨ha, hr⟩ := (rising_cons e r).mp h
    unfold terase
    split
    · exact ih hr
    · exact (rising_cons _ _).mpr ⟨fun x hx => ha x (mem_terase r k x hx).1, ih hr⟩

theorem mem_tinsert (t : Table α) (k : Nat) (v : α) (e : Nat × α) (h : e ∈ tinsert t k v) : e = (k, v) ∨ e ∈ t := by
  induction t with
  | nil => simpa [tinsert] using h
  | cons f r ih =>
    unfold tinsert at h
    split at h
    · simpa using h
    · rcases List.mem_cons.mp h with rfl | h
      · exact .inr List.mem_cons_self
      · exact (ih h).imp id (List.mem_cons_of_mem _)

theorem rising_tinsert (t : Table α) (k : Nat) (v : α) (h : rising t = true) (hk : ∀ e ∈ t, e.1 ≠ k) :
    rising (tinsert t k v) = true := by
  induction t with
  | nil => simp [tinsert, rising]
  | cons e r ih =>
    obtain ⟨ha, hr⟩ := (rising_cons e r).mp h
    unfold tinsert
    split
    · rename_i hlt
      refine (rising_cons _ _).mpr ⟨?_, h⟩
      intro x hx
      rcases List.mem_cons.mp hx with rfl | hx
      · exact hlt
      · exact Nat.lt_trans hlt (ha x hx)
    · rename_i hlt
      refine (rising_cons _ _).mpr ⟨?_, ih hr fun x hx => hk x (List.mem_cons_of_mem _ hx)⟩
      intro x hx
      rcases mem_tinsert r k v x hx with rfl | hx
      · have := hk e List.mem_cons_self
        simp only at hlt ⊢
        omega
      · exact ha x hx

/-- A write keeps keys rising. -/
theorem rising_tset [DecidableEq α] (d : α) (t : Table α) (k : Nat) (v : α) (h : rising t = true) :
    rising (tset d t k v) = true := by
  unfold tset
  split
  · exact rising_terase t k h
  · exact rising_tinsert _ k v (rising_terase t k h) fun e he => (mem_terase t k e he).2

/-- A write keeps the canonical form. -/
theorem tableWf_tset [DecidableEq α] (d : Nat → α) (t : Table α) (k : Nat) (v : α) (h : tableWf d t = true) :
    tableWf d (tset (d k) t k v) = true := by
  simp only [tableWf, Bool.and_eq_true, List.all_eq_true, decide_eq_true_eq] at h ⊢
  refine ⟨rising_tset _ _ _ _ h.1, ?_⟩
  intro e he
  unfold tset at he
  split at he
  · exact h.2 e (mem_terase t k e he).1
  · rename_i hv
    rcases mem_tinsert _ _ _ _ he with rfl | he
    · exact hv
    · exact h.2 e (mem_terase t k e he).1

end Sys2Proof.Machine
end

