-- ==== Sys2Proof/Laws/State.lean ====
section
/-! SUPPORT. The laws of the state: what each update of it changes and leaves, registers and memory read after they are
written, the canonical form kept. -/

namespace Sys2Proof.Machine

/-! ### Updates of one field leave the others -/

@[simp] theorem wr_mem (d : Dev) (f : Field) (ix : List Nat) (v : Nat) : (d.wr f ix v).mem = d.mem := rfl
@[simp] theorem wr_isl (d : Dev) (f : Field) (ix : List Nat) (v : Nat) : (d.wr f ix v).isl = d.isl := rfl
@[simp] theorem wr_tmo (d : Dev) (f : Field) (ix : List Nat) (v : Nat) : (d.wr f ix v).tmo = d.tmo := rfl
@[simp] theorem wr_free (d : Dev) (f : Field) (ix : List Nat) (v : Nat) : (d.wr f ix v).free = d.free := rfl
@[simp] theorem wr_out (d : Dev) (f : Field) (ix : List Nat) (v : Nat) : (d.wr f ix v).out = d.out := rfl
@[simp] theorem wr_tim (d : Dev) (f : Field) (ix : List Nat) (v : Nat) : (d.wr f ix v).tim = d.tim := rfl
@[simp] theorem wr_evt (d : Dev) (f : Field) (ix : List Nat) (v : Nat) : (d.wr f ix v).evt = d.evt := rfl
@[simp] theorem wr_prt (d : Dev) (f : Field) (ix : List Nat) (v : Nat) : (d.wr f ix v).prt = d.prt := rfl
@[simp] theorem wr_rte (d : Dev) (f : Field) (ix : List Nat) (v : Nat) : (d.wr f ix v).rte = d.rte := rfl
@[simp] theorem wr_drv (d : Dev) (f : Field) (ix : List Nat) (v : Nat) : (d.wr f ix v).drv = d.drv := rfl
@[simp] theorem wr_ddr (d : Dev) (f : Field) (ix : List Nat) (v : Nat) : (d.wr f ix v).ddr = d.ddr := rfl
@[simp] theorem wr_nvc (d : Dev) (f : Field) (ix : List Nat) (v : Nat) : (d.wr f ix v).nvc = d.nvc := rfl
@[simp] theorem wr_med (d : Dev) (f : Field) (ix : List Nat) (v : Nat) : (d.wr f ix v).med = d.med := rfl
@[simp] theorem wr_sac (d : Dev) (f : Field) (ix : List Nat) (v : Nat) : (d.wr f ix v).sac = d.sac := rfl
@[simp] theorem wr_cfg (d : Dev) (f : Field) (ix : List Nat) (v : Nat) : (d.wr f ix v).cfg = d.cfg := rfl
@[simp] theorem wr_fab (d : Dev) (f : Field) (ix : List Nat) (v : Nat) : (d.wr f ix v).fab = d.fab := rfl
@[simp] theorem wr_hrd (d : Dev) (f : Field) (ix : List Nat) (v : Nat) : (d.wr f ix v).hrd = d.hrd := rfl
@[simp] theorem wr_bst (d : Dev) (f : Field) (ix : List Nat) (v : Nat) : (d.wr f ix v).bst = d.bst := rfl
@[simp] theorem wr_tly (d : Dev) (f : Field) (ix : List Nat) (v : Nat) : (d.wr f ix v).tly = d.tly := rfl
@[simp] theorem wr_pwr (d : Dev) (f : Field) (ix : List Nat) (v : Nat) : (d.wr f ix v).pwr = d.pwr := rfl
@[simp] theorem wr_lcs (d : Dev) (f : Field) (ix : List Nat) (v : Nat) : (d.wr f ix v).lcs = d.lcs := rfl
@[simp] theorem setByte_regs (d : Dev) (a : Nat) (b : Byte) : (d.setByte a b).regs = d.regs := rfl
@[simp] theorem setByte_isl (d : Dev) (a : Nat) (b : Byte) : (d.setByte a b).isl = d.isl := rfl
@[simp] theorem setByte_tmo (d : Dev) (a : Nat) (b : Byte) : (d.setByte a b).tmo = d.tmo := rfl
@[simp] theorem setByte_free (d : Dev) (a : Nat) (b : Byte) : (d.setByte a b).free = d.free := rfl
@[simp] theorem setByte_out (d : Dev) (a : Nat) (b : Byte) : (d.setByte a b).out = d.out := rfl
@[simp] theorem setByte_tim (d : Dev) (a : Nat) (b : Byte) : (d.setByte a b).tim = d.tim := rfl
@[simp] theorem setByte_evt (d : Dev) (a : Nat) (b : Byte) : (d.setByte a b).evt = d.evt := rfl
@[simp] theorem setByte_prt (d : Dev) (a : Nat) (b : Byte) : (d.setByte a b).prt = d.prt := rfl
@[simp] theorem setByte_rte (d : Dev) (a : Nat) (b : Byte) : (d.setByte a b).rte = d.rte := rfl
@[simp] theorem setByte_drv (d : Dev) (a : Nat) (b : Byte) : (d.setByte a b).drv = d.drv := rfl
@[simp] theorem setByte_ddr (d : Dev) (a : Nat) (b : Byte) : (d.setByte a b).ddr = d.ddr := rfl
@[simp] theorem setByte_nvc (d : Dev) (a : Nat) (b : Byte) : (d.setByte a b).nvc = d.nvc := rfl
@[simp] theorem setByte_med (d : Dev) (a : Nat) (b : Byte) : (d.setByte a b).med = d.med := rfl
@[simp] theorem setByte_sac (d : Dev) (a : Nat) (b : Byte) : (d.setByte a b).sac = d.sac := rfl
@[simp] theorem setByte_cfg (d : Dev) (a : Nat) (b : Byte) : (d.setByte a b).cfg = d.cfg := rfl
@[simp] theorem setByte_fab (d : Dev) (a : Nat) (b : Byte) : (d.setByte a b).fab = d.fab := rfl
@[simp] theorem setByte_hrd (d : Dev) (a : Nat) (b : Byte) : (d.setByte a b).hrd = d.hrd := rfl
@[simp] theorem setByte_bst (d : Dev) (a : Nat) (b : Byte) : (d.setByte a b).bst = d.bst := rfl
@[simp] theorem setByte_tly (d : Dev) (a : Nat) (b : Byte) : (d.setByte a b).tly = d.tly := rfl
@[simp] theorem setByte_pwr (d : Dev) (a : Nat) (b : Byte) : (d.setByte a b).pwr = d.pwr := rfl
@[simp] theorem setByte_lcs (d : Dev) (a : Nat) (b : Byte) : (d.setByte a b).lcs = d.lcs := rfl
@[simp] theorem emit_regs (d : Dev) (x : Out) : (d.emit x).regs = d.regs := rfl
@[simp] theorem emit_mem (d : Dev) (x : Out) : (d.emit x).mem = d.mem := rfl
@[simp] theorem emit_isl (d : Dev) (x : Out) : (d.emit x).isl = d.isl := rfl
@[simp] theorem emit_tmo (d : Dev) (x : Out) : (d.emit x).tmo = d.tmo := rfl
@[simp] theorem emit_free (d : Dev) (x : Out) : (d.emit x).free = d.free := rfl
@[simp] theorem emit_tim (d : Dev) (x : Out) : (d.emit x).tim = d.tim := rfl
@[simp] theorem emit_evt (d : Dev) (x : Out) : (d.emit x).evt = d.evt := rfl
@[simp] theorem emit_prt (d : Dev) (x : Out) : (d.emit x).prt = d.prt := rfl
@[simp] theorem emit_rte (d : Dev) (x : Out) : (d.emit x).rte = d.rte := rfl
@[simp] theorem emit_drv (d : Dev) (x : Out) : (d.emit x).drv = d.drv := rfl
@[simp] theorem emit_ddr (d : Dev) (x : Out) : (d.emit x).ddr = d.ddr := rfl
@[simp] theorem emit_nvc (d : Dev) (x : Out) : (d.emit x).nvc = d.nvc := rfl
@[simp] theorem emit_med (d : Dev) (x : Out) : (d.emit x).med = d.med := rfl
@[simp] theorem emit_sac (d : Dev) (x : Out) : (d.emit x).sac = d.sac := rfl
@[simp] theorem emit_cfg (d : Dev) (x : Out) : (d.emit x).cfg = d.cfg := rfl
@[simp] theorem emit_fab (d : Dev) (x : Out) : (d.emit x).fab = d.fab := rfl
@[simp] theorem emit_hrd (d : Dev) (x : Out) : (d.emit x).hrd = d.hrd := rfl
@[simp] theorem emit_bst (d : Dev) (x : Out) : (d.emit x).bst = d.bst := rfl
@[simp] theorem emit_tly (d : Dev) (x : Out) : (d.emit x).tly = d.tly := rfl
@[simp] theorem emit_pwr (d : Dev) (x : Out) : (d.emit x).pwr = d.pwr := rfl
@[simp] theorem emit_lcs (d : Dev) (x : Out) : (d.emit x).lcs = d.lcs := rfl
@[simp] theorem draw_regs (d : Dev) (w : Nat) : (d.draw w).1.regs = d.regs := rfl
@[simp] theorem draw_mem (d : Dev) (w : Nat) : (d.draw w).1.mem = d.mem := rfl
@[simp] theorem draw_isl (d : Dev) (w : Nat) : (d.draw w).1.isl = d.isl := rfl
@[simp] theorem draw_tmo (d : Dev) (w : Nat) : (d.draw w).1.tmo = d.tmo := rfl
@[simp] theorem draw_out (d : Dev) (w : Nat) : (d.draw w).1.out = d.out := rfl
@[simp] theorem draw_tim (d : Dev) (w : Nat) : (d.draw w).1.tim = d.tim := rfl
@[simp] theorem draw_evt (d : Dev) (w : Nat) : (d.draw w).1.evt = d.evt := rfl
@[simp] theorem draw_prt (d : Dev) (w : Nat) : (d.draw w).1.prt = d.prt := rfl
@[simp] theorem draw_rte (d : Dev) (w : Nat) : (d.draw w).1.rte = d.rte := rfl
@[simp] theorem draw_drv (d : Dev) (w : Nat) : (d.draw w).1.drv = d.drv := rfl
@[simp] theorem draw_ddr (d : Dev) (w : Nat) : (d.draw w).1.ddr = d.ddr := rfl
@[simp] theorem draw_nvc (d : Dev) (w : Nat) : (d.draw w).1.nvc = d.nvc := rfl
@[simp] theorem draw_med (d : Dev) (w : Nat) : (d.draw w).1.med = d.med := rfl
@[simp] theorem draw_sac (d : Dev) (w : Nat) : (d.draw w).1.sac = d.sac := rfl
@[simp] theorem draw_cfg (d : Dev) (w : Nat) : (d.draw w).1.cfg = d.cfg := rfl
@[simp] theorem draw_fab (d : Dev) (w : Nat) : (d.draw w).1.fab = d.fab := rfl
@[simp] theorem draw_hrd (d : Dev) (w : Nat) : (d.draw w).1.hrd = d.hrd := rfl
@[simp] theorem draw_bst (d : Dev) (w : Nat) : (d.draw w).1.bst = d.bst := rfl
@[simp] theorem draw_tly (d : Dev) (w : Nat) : (d.draw w).1.tly = d.tly := rfl
@[simp] theorem draw_pwr (d : Dev) (w : Nat) : (d.draw w).1.pwr = d.pwr := rfl
@[simp] theorem draw_lcs (d : Dev) (w : Nat) : (d.draw w).1.lcs = d.lcs := rfl
@[simp] theorem withTim_regs (d : Dev) (g : TimSt → TimSt) : (d.withTim g).regs = d.regs := rfl
@[simp] theorem withTim_mem (d : Dev) (g : TimSt → TimSt) : (d.withTim g).mem = d.mem := rfl
@[simp] theorem withTim_isl (d : Dev) (g : TimSt → TimSt) : (d.withTim g).isl = d.isl := rfl
@[simp] theorem withTim_tmo (d : Dev) (g : TimSt → TimSt) : (d.withTim g).tmo = d.tmo := rfl
@[simp] theorem withTim_free (d : Dev) (g : TimSt → TimSt) : (d.withTim g).free = d.free := rfl
@[simp] theorem withTim_out (d : Dev) (g : TimSt → TimSt) : (d.withTim g).out = d.out := rfl
@[simp] theorem withTim_tim (d : Dev) (g : TimSt → TimSt) : (d.withTim g).tim = g d.tim := rfl
@[simp] theorem withTim_evt (d : Dev) (g : TimSt → TimSt) : (d.withTim g).evt = d.evt := rfl
@[simp] theorem withTim_prt (d : Dev) (g : TimSt → TimSt) : (d.withTim g).prt = d.prt := rfl
@[simp] theorem withTim_rte (d : Dev) (g : TimSt → TimSt) : (d.withTim g).rte = d.rte := rfl
@[simp] theorem withTim_drv (d : Dev) (g : TimSt → TimSt) : (d.withTim g).drv = d.drv := rfl
@[simp] theorem withTim_ddr (d : Dev) (g : TimSt → TimSt) : (d.withTim g).ddr = d.ddr := rfl
@[simp] theorem withTim_nvc (d : Dev) (g : TimSt → TimSt) : (d.withTim g).nvc = d.nvc := rfl
@[simp] theorem withTim_med (d : Dev) (g : TimSt → TimSt) : (d.withTim g).med = d.med := rfl
@[simp] theorem withTim_sac (d : Dev) (g : TimSt → TimSt) : (d.withTim g).sac = d.sac := rfl
@[simp] theorem withTim_cfg (d : Dev) (g : TimSt → TimSt) : (d.withTim g).cfg = d.cfg := rfl
@[simp] theorem withTim_fab (d : Dev) (g : TimSt → TimSt) : (d.withTim g).fab = d.fab := rfl
@[simp] theorem withTim_hrd (d : Dev) (g : TimSt → TimSt) : (d.withTim g).hrd = d.hrd := rfl
@[simp] theorem withTim_bst (d : Dev) (g : TimSt → TimSt) : (d.withTim g).bst = d.bst := rfl
@[simp] theorem withTim_tly (d : Dev) (g : TimSt → TimSt) : (d.withTim g).tly = d.tly := rfl
@[simp] theorem withTim_pwr (d : Dev) (g : TimSt → TimSt) : (d.withTim g).pwr = d.pwr := rfl
@[simp] theorem withTim_lcs (d : Dev) (g : TimSt → TimSt) : (d.withTim g).lcs = d.lcs := rfl
@[simp] theorem withPrt_regs (d : Dev) (g : PrtSt → PrtSt) : (d.withPrt g).regs = d.regs := rfl
@[simp] theorem withPrt_mem (d : Dev) (g : PrtSt → PrtSt) : (d.withPrt g).mem = d.mem := rfl
@[simp] theorem withPrt_isl (d : Dev) (g : PrtSt → PrtSt) : (d.withPrt g).isl = d.isl := rfl
@[simp] theorem withPrt_tmo (d : Dev) (g : PrtSt → PrtSt) : (d.withPrt g).tmo = d.tmo := rfl
@[simp] theorem withPrt_free (d : Dev) (g : PrtSt → PrtSt) : (d.withPrt g).free = d.free := rfl
@[simp] theorem withPrt_out (d : Dev) (g : PrtSt → PrtSt) : (d.withPrt g).out = d.out := rfl
@[simp] theorem withPrt_tim (d : Dev) (g : PrtSt → PrtSt) : (d.withPrt g).tim = d.tim := rfl
@[simp] theorem withPrt_evt (d : Dev) (g : PrtSt → PrtSt) : (d.withPrt g).evt = d.evt := rfl
@[simp] theorem withPrt_prt (d : Dev) (g : PrtSt → PrtSt) : (d.withPrt g).prt = g d.prt := rfl
@[simp] theorem withPrt_rte (d : Dev) (g : PrtSt → PrtSt) : (d.withPrt g).rte = d.rte := rfl
@[simp] theorem withPrt_drv (d : Dev) (g : PrtSt → PrtSt) : (d.withPrt g).drv = d.drv := rfl
@[simp] theorem withPrt_ddr (d : Dev) (g : PrtSt → PrtSt) : (d.withPrt g).ddr = d.ddr := rfl
@[simp] theorem withPrt_nvc (d : Dev) (g : PrtSt → PrtSt) : (d.withPrt g).nvc = d.nvc := rfl
@[simp] theorem withPrt_med (d : Dev) (g : PrtSt → PrtSt) : (d.withPrt g).med = d.med := rfl
@[simp] theorem withPrt_sac (d : Dev) (g : PrtSt → PrtSt) : (d.withPrt g).sac = d.sac := rfl
@[simp] theorem withPrt_cfg (d : Dev) (g : PrtSt → PrtSt) : (d.withPrt g).cfg = d.cfg := rfl
@[simp] theorem withPrt_fab (d : Dev) (g : PrtSt → PrtSt) : (d.withPrt g).fab = d.fab := rfl
@[simp] theorem withPrt_hrd (d : Dev) (g : PrtSt → PrtSt) : (d.withPrt g).hrd = d.hrd := rfl
@[simp] theorem withPrt_bst (d : Dev) (g : PrtSt → PrtSt) : (d.withPrt g).bst = d.bst := rfl
@[simp] theorem withPrt_tly (d : Dev) (g : PrtSt → PrtSt) : (d.withPrt g).tly = d.tly := rfl
@[simp] theorem withPrt_pwr (d : Dev) (g : PrtSt → PrtSt) : (d.withPrt g).pwr = d.pwr := rfl
@[simp] theorem withPrt_lcs (d : Dev) (g : PrtSt → PrtSt) : (d.withPrt g).lcs = d.lcs := rfl
@[simp] theorem withRte_regs (d : Dev) (g : RteSt → RteSt) : (d.withRte g).regs = d.regs := rfl
@[simp] theorem withRte_mem (d : Dev) (g : RteSt → RteSt) : (d.withRte g).mem = d.mem := rfl
@[simp] theorem withRte_isl (d : Dev) (g : RteSt → RteSt) : (d.withRte g).isl = d.isl := rfl
@[simp] theorem withRte_tmo (d : Dev) (g : RteSt → RteSt) : (d.withRte g).tmo = d.tmo := rfl
@[simp] theorem withRte_free (d : Dev) (g : RteSt → RteSt) : (d.withRte g).free = d.free := rfl
@[simp] theorem withRte_out (d : Dev) (g : RteSt → RteSt) : (d.withRte g).out = d.out := rfl
@[simp] theorem withRte_tim (d : Dev) (g : RteSt → RteSt) : (d.withRte g).tim = d.tim := rfl
@[simp] theorem withRte_evt (d : Dev) (g : RteSt → RteSt) : (d.withRte g).evt = d.evt := rfl
@[simp] theorem withRte_prt (d : Dev) (g : RteSt → RteSt) : (d.withRte g).prt = d.prt := rfl
@[simp] theorem withRte_rte (d : Dev) (g : RteSt → RteSt) : (d.withRte g).rte = g d.rte := rfl
@[simp] theorem withRte_drv (d : Dev) (g : RteSt → RteSt) : (d.withRte g).drv = d.drv := rfl
@[simp] theorem withRte_ddr (d : Dev) (g : RteSt → RteSt) : (d.withRte g).ddr = d.ddr := rfl
@[simp] theorem withRte_nvc (d : Dev) (g : RteSt → RteSt) : (d.withRte g).nvc = d.nvc := rfl
@[simp] theorem withRte_med (d : Dev) (g : RteSt → RteSt) : (d.withRte g).med = d.med := rfl
@[simp] theorem withRte_sac (d : Dev) (g : RteSt → RteSt) : (d.withRte g).sac = d.sac := rfl
@[simp] theorem withRte_cfg (d : Dev) (g : RteSt → RteSt) : (d.withRte g).cfg = d.cfg := rfl
@[simp] theorem withRte_fab (d : Dev) (g : RteSt → RteSt) : (d.withRte g).fab = d.fab := rfl
@[simp] theorem withRte_hrd (d : Dev) (g : RteSt → RteSt) : (d.withRte g).hrd = d.hrd := rfl
@[simp] theorem withRte_bst (d : Dev) (g : RteSt → RteSt) : (d.withRte g).bst = d.bst := rfl
@[simp] theorem withRte_tly (d : Dev) (g : RteSt → RteSt) : (d.withRte g).tly = d.tly := rfl
@[simp] theorem withRte_pwr (d : Dev) (g : RteSt → RteSt) : (d.withRte g).pwr = d.pwr := rfl
@[simp] theorem withRte_lcs (d : Dev) (g : RteSt → RteSt) : (d.withRte g).lcs = d.lcs := rfl
@[simp] theorem withDrv_regs (d : Dev) (g : DrvSt → DrvSt) : (d.withDrv g).regs = d.regs := rfl
@[simp] theorem withDrv_mem (d : Dev) (g : DrvSt → DrvSt) : (d.withDrv g).mem = d.mem := rfl
@[simp] theorem withDrv_isl (d : Dev) (g : DrvSt → DrvSt) : (d.withDrv g).isl = d.isl := rfl
@[simp] theorem withDrv_tmo (d : Dev) (g : DrvSt → DrvSt) : (d.withDrv g).tmo = d.tmo := rfl
@[simp] theorem withDrv_free (d : Dev) (g : DrvSt → DrvSt) : (d.withDrv g).free = d.free := rfl
@[simp] theorem withDrv_out (d : Dev) (g : DrvSt → DrvSt) : (d.withDrv g).out = d.out := rfl
@[simp] theorem withDrv_tim (d : Dev) (g : DrvSt → DrvSt) : (d.withDrv g).tim = d.tim := rfl
@[simp] theorem withDrv_evt (d : Dev) (g : DrvSt → DrvSt) : (d.withDrv g).evt = d.evt := rfl
@[simp] theorem withDrv_prt (d : Dev) (g : DrvSt → DrvSt) : (d.withDrv g).prt = d.prt := rfl
@[simp] theorem withDrv_rte (d : Dev) (g : DrvSt → DrvSt) : (d.withDrv g).rte = d.rte := rfl
@[simp] theorem withDrv_drv (d : Dev) (g : DrvSt → DrvSt) : (d.withDrv g).drv = g d.drv := rfl
@[simp] theorem withDrv_ddr (d : Dev) (g : DrvSt → DrvSt) : (d.withDrv g).ddr = d.ddr := rfl
@[simp] theorem withDrv_nvc (d : Dev) (g : DrvSt → DrvSt) : (d.withDrv g).nvc = d.nvc := rfl
@[simp] theorem withDrv_med (d : Dev) (g : DrvSt → DrvSt) : (d.withDrv g).med = d.med := rfl
@[simp] theorem withDrv_sac (d : Dev) (g : DrvSt → DrvSt) : (d.withDrv g).sac = d.sac := rfl
@[simp] theorem withDrv_cfg (d : Dev) (g : DrvSt → DrvSt) : (d.withDrv g).cfg = d.cfg := rfl
@[simp] theorem withDrv_fab (d : Dev) (g : DrvSt → DrvSt) : (d.withDrv g).fab = d.fab := rfl
@[simp] theorem withDrv_hrd (d : Dev) (g : DrvSt → DrvSt) : (d.withDrv g).hrd = d.hrd := rfl
@[simp] theorem withDrv_bst (d : Dev) (g : DrvSt → DrvSt) : (d.withDrv g).bst = d.bst := rfl
@[simp] theorem withDrv_tly (d : Dev) (g : DrvSt → DrvSt) : (d.withDrv g).tly = d.tly := rfl
@[simp] theorem withDrv_pwr (d : Dev) (g : DrvSt → DrvSt) : (d.withDrv g).pwr = d.pwr := rfl
@[simp] theorem withDrv_lcs (d : Dev) (g : DrvSt → DrvSt) : (d.withDrv g).lcs = d.lcs := rfl
@[simp] theorem withDdr_regs (d : Dev) (g : DdrSt → DdrSt) : (d.withDdr g).regs = d.regs := rfl
@[simp] theorem withDdr_mem (d : Dev) (g : DdrSt → DdrSt) : (d.withDdr g).mem = d.mem := rfl
@[simp] theorem withDdr_isl (d : Dev) (g : DdrSt → DdrSt) : (d.withDdr g).isl = d.isl := rfl
@[simp] theorem withDdr_tmo (d : Dev) (g : DdrSt → DdrSt) : (d.withDdr g).tmo = d.tmo := rfl
@[simp] theorem withDdr_free (d : Dev) (g : DdrSt → DdrSt) : (d.withDdr g).free = d.free := rfl
@[simp] theorem withDdr_out (d : Dev) (g : DdrSt → DdrSt) : (d.withDdr g).out = d.out := rfl
@[simp] theorem withDdr_tim (d : Dev) (g : DdrSt → DdrSt) : (d.withDdr g).tim = d.tim := rfl
@[simp] theorem withDdr_evt (d : Dev) (g : DdrSt → DdrSt) : (d.withDdr g).evt = d.evt := rfl
@[simp] theorem withDdr_prt (d : Dev) (g : DdrSt → DdrSt) : (d.withDdr g).prt = d.prt := rfl
@[simp] theorem withDdr_rte (d : Dev) (g : DdrSt → DdrSt) : (d.withDdr g).rte = d.rte := rfl
@[simp] theorem withDdr_drv (d : Dev) (g : DdrSt → DdrSt) : (d.withDdr g).drv = d.drv := rfl
@[simp] theorem withDdr_ddr (d : Dev) (g : DdrSt → DdrSt) : (d.withDdr g).ddr = g d.ddr := rfl
@[simp] theorem withDdr_nvc (d : Dev) (g : DdrSt → DdrSt) : (d.withDdr g).nvc = d.nvc := rfl
@[simp] theorem withDdr_med (d : Dev) (g : DdrSt → DdrSt) : (d.withDdr g).med = d.med := rfl
@[simp] theorem withDdr_sac (d : Dev) (g : DdrSt → DdrSt) : (d.withDdr g).sac = d.sac := rfl
@[simp] theorem withDdr_cfg (d : Dev) (g : DdrSt → DdrSt) : (d.withDdr g).cfg = d.cfg := rfl
@[simp] theorem withDdr_fab (d : Dev) (g : DdrSt → DdrSt) : (d.withDdr g).fab = d.fab := rfl
@[simp] theorem withDdr_hrd (d : Dev) (g : DdrSt → DdrSt) : (d.withDdr g).hrd = d.hrd := rfl
@[simp] theorem withDdr_bst (d : Dev) (g : DdrSt → DdrSt) : (d.withDdr g).bst = d.bst := rfl
@[simp] theorem withDdr_tly (d : Dev) (g : DdrSt → DdrSt) : (d.withDdr g).tly = d.tly := rfl
@[simp] theorem withDdr_pwr (d : Dev) (g : DdrSt → DdrSt) : (d.withDdr g).pwr = d.pwr := rfl
@[simp] theorem withDdr_lcs (d : Dev) (g : DdrSt → DdrSt) : (d.withDdr g).lcs = d.lcs := rfl
@[simp] theorem withNvc_regs (d : Dev) (g : NvcSt → NvcSt) : (d.withNvc g).regs = d.regs := rfl
@[simp] theorem withNvc_mem (d : Dev) (g : NvcSt → NvcSt) : (d.withNvc g).mem = d.mem := rfl
@[simp] theorem withNvc_isl (d : Dev) (g : NvcSt → NvcSt) : (d.withNvc g).isl = d.isl := rfl
@[simp] theorem withNvc_tmo (d : Dev) (g : NvcSt → NvcSt) : (d.withNvc g).tmo = d.tmo := rfl
@[simp] theorem withNvc_free (d : Dev) (g : NvcSt → NvcSt) : (d.withNvc g).free = d.free := rfl
@[simp] theorem withNvc_out (d : Dev) (g : NvcSt → NvcSt) : (d.withNvc g).out = d.out := rfl
@[simp] theorem withNvc_tim (d : Dev) (g : NvcSt → NvcSt) : (d.withNvc g).tim = d.tim := rfl
@[simp] theorem withNvc_evt (d : Dev) (g : NvcSt → NvcSt) : (d.withNvc g).evt = d.evt := rfl
@[simp] theorem withNvc_prt (d : Dev) (g : NvcSt → NvcSt) : (d.withNvc g).prt = d.prt := rfl
@[simp] theorem withNvc_rte (d : Dev) (g : NvcSt → NvcSt) : (d.withNvc g).rte = d.rte := rfl
@[simp] theorem withNvc_drv (d : Dev) (g : NvcSt → NvcSt) : (d.withNvc g).drv = d.drv := rfl
@[simp] theorem withNvc_ddr (d : Dev) (g : NvcSt → NvcSt) : (d.withNvc g).ddr = d.ddr := rfl
@[simp] theorem withNvc_nvc (d : Dev) (g : NvcSt → NvcSt) : (d.withNvc g).nvc = g d.nvc := rfl
@[simp] theorem withNvc_med (d : Dev) (g : NvcSt → NvcSt) : (d.withNvc g).med = d.med := rfl
@[simp] theorem withNvc_sac (d : Dev) (g : NvcSt → NvcSt) : (d.withNvc g).sac = d.sac := rfl
@[simp] theorem withNvc_cfg (d : Dev) (g : NvcSt → NvcSt) : (d.withNvc g).cfg = d.cfg := rfl
@[simp] theorem withNvc_fab (d : Dev) (g : NvcSt → NvcSt) : (d.withNvc g).fab = d.fab := rfl
@[simp] theorem withNvc_hrd (d : Dev) (g : NvcSt → NvcSt) : (d.withNvc g).hrd = d.hrd := rfl
@[simp] theorem withNvc_bst (d : Dev) (g : NvcSt → NvcSt) : (d.withNvc g).bst = d.bst := rfl
@[simp] theorem withNvc_tly (d : Dev) (g : NvcSt → NvcSt) : (d.withNvc g).tly = d.tly := rfl
@[simp] theorem withNvc_pwr (d : Dev) (g : NvcSt → NvcSt) : (d.withNvc g).pwr = d.pwr := rfl
@[simp] theorem withNvc_lcs (d : Dev) (g : NvcSt → NvcSt) : (d.withNvc g).lcs = d.lcs := rfl
@[simp] theorem withMed_regs (d : Dev) (g : MedSt → MedSt) : (d.withMed g).regs = d.regs := rfl
@[simp] theorem withMed_mem (d : Dev) (g : MedSt → MedSt) : (d.withMed g).mem = d.mem := rfl
@[simp] theorem withMed_isl (d : Dev) (g : MedSt → MedSt) : (d.withMed g).isl = d.isl := rfl
@[simp] theorem withMed_tmo (d : Dev) (g : MedSt → MedSt) : (d.withMed g).tmo = d.tmo := rfl
@[simp] theorem withMed_free (d : Dev) (g : MedSt → MedSt) : (d.withMed g).free = d.free := rfl
@[simp] theorem withMed_out (d : Dev) (g : MedSt → MedSt) : (d.withMed g).out = d.out := rfl
@[simp] theorem withMed_tim (d : Dev) (g : MedSt → MedSt) : (d.withMed g).tim = d.tim := rfl
@[simp] theorem withMed_evt (d : Dev) (g : MedSt → MedSt) : (d.withMed g).evt = d.evt := rfl
@[simp] theorem withMed_prt (d : Dev) (g : MedSt → MedSt) : (d.withMed g).prt = d.prt := rfl
@[simp] theorem withMed_rte (d : Dev) (g : MedSt → MedSt) : (d.withMed g).rte = d.rte := rfl
@[simp] theorem withMed_drv (d : Dev) (g : MedSt → MedSt) : (d.withMed g).drv = d.drv := rfl
@[simp] theorem withMed_ddr (d : Dev) (g : MedSt → MedSt) : (d.withMed g).ddr = d.ddr := rfl
@[simp] theorem withMed_nvc (d : Dev) (g : MedSt → MedSt) : (d.withMed g).nvc = d.nvc := rfl
@[simp] theorem withMed_med (d : Dev) (g : MedSt → MedSt) : (d.withMed g).med = g d.med := rfl
@[simp] theorem withMed_sac (d : Dev) (g : MedSt → MedSt) : (d.withMed g).sac = d.sac := rfl
@[simp] theorem withMed_cfg (d : Dev) (g : MedSt → MedSt) : (d.withMed g).cfg = d.cfg := rfl
@[simp] theorem withMed_fab (d : Dev) (g : MedSt → MedSt) : (d.withMed g).fab = d.fab := rfl
@[simp] theorem withMed_hrd (d : Dev) (g : MedSt → MedSt) : (d.withMed g).hrd = d.hrd := rfl
@[simp] theorem withMed_bst (d : Dev) (g : MedSt → MedSt) : (d.withMed g).bst = d.bst := rfl
@[simp] theorem withMed_tly (d : Dev) (g : MedSt → MedSt) : (d.withMed g).tly = d.tly := rfl
@[simp] theorem withMed_pwr (d : Dev) (g : MedSt → MedSt) : (d.withMed g).pwr = d.pwr := rfl
@[simp] theorem withMed_lcs (d : Dev) (g : MedSt → MedSt) : (d.withMed g).lcs = d.lcs := rfl
@[simp] theorem withSac_regs (d : Dev) (g : SacSt → SacSt) : (d.withSac g).regs = d.regs := rfl
@[simp] theorem withSac_mem (d : Dev) (g : SacSt → SacSt) : (d.withSac g).mem = d.mem := rfl
@[simp] theorem withSac_isl (d : Dev) (g : SacSt → SacSt) : (d.withSac g).isl = d.isl := rfl
@[simp] theorem withSac_tmo (d : Dev) (g : SacSt → SacSt) : (d.withSac g).tmo = d.tmo := rfl
@[simp] theorem withSac_free (d : Dev) (g : SacSt → SacSt) : (d.withSac g).free = d.free := rfl
@[simp] theorem withSac_out (d : Dev) (g : SacSt → SacSt) : (d.withSac g).out = d.out := rfl
@[simp] theorem withSac_tim (d : Dev) (g : SacSt → SacSt) : (d.withSac g).tim = d.tim := rfl
@[simp] theorem withSac_evt (d : Dev) (g : SacSt → SacSt) : (d.withSac g).evt = d.evt := rfl
@[simp] theorem withSac_prt (d : Dev) (g : SacSt → SacSt) : (d.withSac g).prt = d.prt := rfl
@[simp] theorem withSac_rte (d : Dev) (g : SacSt → SacSt) : (d.withSac g).rte = d.rte := rfl
@[simp] theorem withSac_drv (d : Dev) (g : SacSt → SacSt) : (d.withSac g).drv = d.drv := rfl
@[simp] theorem withSac_ddr (d : Dev) (g : SacSt → SacSt) : (d.withSac g).ddr = d.ddr := rfl
@[simp] theorem withSac_nvc (d : Dev) (g : SacSt → SacSt) : (d.withSac g).nvc = d.nvc := rfl
@[simp] theorem withSac_med (d : Dev) (g : SacSt → SacSt) : (d.withSac g).med = d.med := rfl
@[simp] theorem withSac_sac (d : Dev) (g : SacSt → SacSt) : (d.withSac g).sac = g d.sac := rfl
@[simp] theorem withSac_cfg (d : Dev) (g : SacSt → SacSt) : (d.withSac g).cfg = d.cfg := rfl
@[simp] theorem withSac_fab (d : Dev) (g : SacSt → SacSt) : (d.withSac g).fab = d.fab := rfl
@[simp] theorem withSac_hrd (d : Dev) (g : SacSt → SacSt) : (d.withSac g).hrd = d.hrd := rfl
@[simp] theorem withSac_bst (d : Dev) (g : SacSt → SacSt) : (d.withSac g).bst = d.bst := rfl
@[simp] theorem withSac_tly (d : Dev) (g : SacSt → SacSt) : (d.withSac g).tly = d.tly := rfl
@[simp] theorem withSac_pwr (d : Dev) (g : SacSt → SacSt) : (d.withSac g).pwr = d.pwr := rfl
@[simp] theorem withSac_lcs (d : Dev) (g : SacSt → SacSt) : (d.withSac g).lcs = d.lcs := rfl
@[simp] theorem withCfg_regs (d : Dev) (g : CfgSt → CfgSt) : (d.withCfg g).regs = d.regs := rfl
@[simp] theorem withCfg_mem (d : Dev) (g : CfgSt → CfgSt) : (d.withCfg g).mem = d.mem := rfl
@[simp] theorem withCfg_isl (d : Dev) (g : CfgSt → CfgSt) : (d.withCfg g).isl = d.isl := rfl
@[simp] theorem withCfg_tmo (d : Dev) (g : CfgSt → CfgSt) : (d.withCfg g).tmo = d.tmo := rfl
@[simp] theorem withCfg_free (d : Dev) (g : CfgSt → CfgSt) : (d.withCfg g).free = d.free := rfl
@[simp] theorem withCfg_out (d : Dev) (g : CfgSt → CfgSt) : (d.withCfg g).out = d.out := rfl
@[simp] theorem withCfg_tim (d : Dev) (g : CfgSt → CfgSt) : (d.withCfg g).tim = d.tim := rfl
@[simp] theorem withCfg_evt (d : Dev) (g : CfgSt → CfgSt) : (d.withCfg g).evt = d.evt := rfl
@[simp] theorem withCfg_prt (d : Dev) (g : CfgSt → CfgSt) : (d.withCfg g).prt = d.prt := rfl
@[simp] theorem withCfg_rte (d : Dev) (g : CfgSt → CfgSt) : (d.withCfg g).rte = d.rte := rfl
@[simp] theorem withCfg_drv (d : Dev) (g : CfgSt → CfgSt) : (d.withCfg g).drv = d.drv := rfl
@[simp] theorem withCfg_ddr (d : Dev) (g : CfgSt → CfgSt) : (d.withCfg g).ddr = d.ddr := rfl
@[simp] theorem withCfg_nvc (d : Dev) (g : CfgSt → CfgSt) : (d.withCfg g).nvc = d.nvc := rfl
@[simp] theorem withCfg_med (d : Dev) (g : CfgSt → CfgSt) : (d.withCfg g).med = d.med := rfl
@[simp] theorem withCfg_sac (d : Dev) (g : CfgSt → CfgSt) : (d.withCfg g).sac = d.sac := rfl
@[simp] theorem withCfg_cfg (d : Dev) (g : CfgSt → CfgSt) : (d.withCfg g).cfg = g d.cfg := rfl
@[simp] theorem withCfg_fab (d : Dev) (g : CfgSt → CfgSt) : (d.withCfg g).fab = d.fab := rfl
@[simp] theorem withCfg_hrd (d : Dev) (g : CfgSt → CfgSt) : (d.withCfg g).hrd = d.hrd := rfl
@[simp] theorem withCfg_bst (d : Dev) (g : CfgSt → CfgSt) : (d.withCfg g).bst = d.bst := rfl
@[simp] theorem withCfg_tly (d : Dev) (g : CfgSt → CfgSt) : (d.withCfg g).tly = d.tly := rfl
@[simp] theorem withCfg_pwr (d : Dev) (g : CfgSt → CfgSt) : (d.withCfg g).pwr = d.pwr := rfl
@[simp] theorem withCfg_lcs (d : Dev) (g : CfgSt → CfgSt) : (d.withCfg g).lcs = d.lcs := rfl
@[simp] theorem withHrd_regs (d : Dev) (g : HrdSt → HrdSt) : (d.withHrd g).regs = d.regs := rfl
@[simp] theorem withHrd_mem (d : Dev) (g : HrdSt → HrdSt) : (d.withHrd g).mem = d.mem := rfl
@[simp] theorem withHrd_isl (d : Dev) (g : HrdSt → HrdSt) : (d.withHrd g).isl = d.isl := rfl
@[simp] theorem withHrd_tmo (d : Dev) (g : HrdSt → HrdSt) : (d.withHrd g).tmo = d.tmo := rfl
@[simp] theorem withHrd_free (d : Dev) (g : HrdSt → HrdSt) : (d.withHrd g).free = d.free := rfl
@[simp] theorem withHrd_out (d : Dev) (g : HrdSt → HrdSt) : (d.withHrd g).out = d.out := rfl
@[simp] theorem withHrd_tim (d : Dev) (g : HrdSt → HrdSt) : (d.withHrd g).tim = d.tim := rfl
@[simp] theorem withHrd_evt (d : Dev) (g : HrdSt → HrdSt) : (d.withHrd g).evt = d.evt := rfl
@[simp] theorem withHrd_prt (d : Dev) (g : HrdSt → HrdSt) : (d.withHrd g).prt = d.prt := rfl
@[simp] theorem withHrd_rte (d : Dev) (g : HrdSt → HrdSt) : (d.withHrd g).rte = d.rte := rfl
@[simp] theorem withHrd_drv (d : Dev) (g : HrdSt → HrdSt) : (d.withHrd g).drv = d.drv := rfl
@[simp] theorem withHrd_ddr (d : Dev) (g : HrdSt → HrdSt) : (d.withHrd g).ddr = d.ddr := rfl
@[simp] theorem withHrd_nvc (d : Dev) (g : HrdSt → HrdSt) : (d.withHrd g).nvc = d.nvc := rfl
@[simp] theorem withHrd_med (d : Dev) (g : HrdSt → HrdSt) : (d.withHrd g).med = d.med := rfl
@[simp] theorem withHrd_sac (d : Dev) (g : HrdSt → HrdSt) : (d.withHrd g).sac = d.sac := rfl
@[simp] theorem withHrd_cfg (d : Dev) (g : HrdSt → HrdSt) : (d.withHrd g).cfg = d.cfg := rfl
@[simp] theorem withHrd_fab (d : Dev) (g : HrdSt → HrdSt) : (d.withHrd g).fab = d.fab := rfl
@[simp] theorem withHrd_hrd (d : Dev) (g : HrdSt → HrdSt) : (d.withHrd g).hrd = g d.hrd := rfl
@[simp] theorem withHrd_bst (d : Dev) (g : HrdSt → HrdSt) : (d.withHrd g).bst = d.bst := rfl
@[simp] theorem withHrd_tly (d : Dev) (g : HrdSt → HrdSt) : (d.withHrd g).tly = d.tly := rfl
@[simp] theorem withHrd_pwr (d : Dev) (g : HrdSt → HrdSt) : (d.withHrd g).pwr = d.pwr := rfl
@[simp] theorem withHrd_lcs (d : Dev) (g : HrdSt → HrdSt) : (d.withHrd g).lcs = d.lcs := rfl
@[simp] theorem withBst_regs (d : Dev) (g : BstSt → BstSt) : (d.withBst g).regs = d.regs := rfl
@[simp] theorem withBst_mem (d : Dev) (g : BstSt → BstSt) : (d.withBst g).mem = d.mem := rfl
@[simp] theorem withBst_isl (d : Dev) (g : BstSt → BstSt) : (d.withBst g).isl = d.isl := rfl
@[simp] theorem withBst_tmo (d : Dev) (g : BstSt → BstSt) : (d.withBst g).tmo = d.tmo := rfl
@[simp] theorem withBst_free (d : Dev) (g : BstSt → BstSt) : (d.withBst g).free = d.free := rfl
@[simp] theorem withBst_out (d : Dev) (g : BstSt → BstSt) : (d.withBst g).out = d.out := rfl
@[simp] theorem withBst_tim (d : Dev) (g : BstSt → BstSt) : (d.withBst g).tim = d.tim := rfl
@[simp] theorem withBst_evt (d : Dev) (g : BstSt → BstSt) : (d.withBst g).evt = d.evt := rfl
@[simp] theorem withBst_prt (d : Dev) (g : BstSt → BstSt) : (d.withBst g).prt = d.prt := rfl
@[simp] theorem withBst_rte (d : Dev) (g : BstSt → BstSt) : (d.withBst g).rte = d.rte := rfl
@[simp] theorem withBst_drv (d : Dev) (g : BstSt → BstSt) : (d.withBst g).drv = d.drv := rfl
@[simp] theorem withBst_ddr (d : Dev) (g : BstSt → BstSt) : (d.withBst g).ddr = d.ddr := rfl
@[simp] theorem withBst_nvc (d : Dev) (g : BstSt → BstSt) : (d.withBst g).nvc = d.nvc := rfl
@[simp] theorem withBst_med (d : Dev) (g : BstSt → BstSt) : (d.withBst g).med = d.med := rfl
@[simp] theorem withBst_sac (d : Dev) (g : BstSt → BstSt) : (d.withBst g).sac = d.sac := rfl
@[simp] theorem withBst_cfg (d : Dev) (g : BstSt → BstSt) : (d.withBst g).cfg = d.cfg := rfl
@[simp] theorem withBst_fab (d : Dev) (g : BstSt → BstSt) : (d.withBst g).fab = d.fab := rfl
@[simp] theorem withBst_hrd (d : Dev) (g : BstSt → BstSt) : (d.withBst g).hrd = d.hrd := rfl
@[simp] theorem withBst_bst (d : Dev) (g : BstSt → BstSt) : (d.withBst g).bst = g d.bst := rfl
@[simp] theorem withBst_tly (d : Dev) (g : BstSt → BstSt) : (d.withBst g).tly = d.tly := rfl
@[simp] theorem withBst_pwr (d : Dev) (g : BstSt → BstSt) : (d.withBst g).pwr = d.pwr := rfl
@[simp] theorem withBst_lcs (d : Dev) (g : BstSt → BstSt) : (d.withBst g).lcs = d.lcs := rfl
@[simp] theorem withTly_regs (d : Dev) (g : TlySt → TlySt) : (d.withTly g).regs = d.regs := rfl
@[simp] theorem withTly_mem (d : Dev) (g : TlySt → TlySt) : (d.withTly g).mem = d.mem := rfl
@[simp] theorem withTly_isl (d : Dev) (g : TlySt → TlySt) : (d.withTly g).isl = d.isl := rfl
@[simp] theorem withTly_tmo (d : Dev) (g : TlySt → TlySt) : (d.withTly g).tmo = d.tmo := rfl
@[simp] theorem withTly_free (d : Dev) (g : TlySt → TlySt) : (d.withTly g).free = d.free := rfl
@[simp] theorem withTly_out (d : Dev) (g : TlySt → TlySt) : (d.withTly g).out = d.out := rfl
@[simp] theorem withTly_tim (d : Dev) (g : TlySt → TlySt) : (d.withTly g).tim = d.tim := rfl
@[simp] theorem withTly_evt (d : Dev) (g : TlySt → TlySt) : (d.withTly g).evt = d.evt := rfl
@[simp] theorem withTly_prt (d : Dev) (g : TlySt → TlySt) : (d.withTly g).prt = d.prt := rfl
@[simp] theorem withTly_rte (d : Dev) (g : TlySt → TlySt) : (d.withTly g).rte = d.rte := rfl
@[simp] theorem withTly_drv (d : Dev) (g : TlySt → TlySt) : (d.withTly g).drv = d.drv := rfl
@[simp] theorem withTly_ddr (d : Dev) (g : TlySt → TlySt) : (d.withTly g).ddr = d.ddr := rfl
@[simp] theorem withTly_nvc (d : Dev) (g : TlySt → TlySt) : (d.withTly g).nvc = d.nvc := rfl
@[simp] theorem withTly_med (d : Dev) (g : TlySt → TlySt) : (d.withTly g).med = d.med := rfl
@[simp] theorem withTly_sac (d : Dev) (g : TlySt → TlySt) : (d.withTly g).sac = d.sac := rfl
@[simp] theorem withTly_cfg (d : Dev) (g : TlySt → TlySt) : (d.withTly g).cfg = d.cfg := rfl
@[simp] theorem withTly_fab (d : Dev) (g : TlySt → TlySt) : (d.withTly g).fab = d.fab := rfl
@[simp] theorem withTly_hrd (d : Dev) (g : TlySt → TlySt) : (d.withTly g).hrd = d.hrd := rfl
@[simp] theorem withTly_bst (d : Dev) (g : TlySt → TlySt) : (d.withTly g).bst = d.bst := rfl
@[simp] theorem withTly_tly (d : Dev) (g : TlySt → TlySt) : (d.withTly g).tly = g d.tly := rfl
@[simp] theorem withTly_pwr (d : Dev) (g : TlySt → TlySt) : (d.withTly g).pwr = d.pwr := rfl
@[simp] theorem withTly_lcs (d : Dev) (g : TlySt → TlySt) : (d.withTly g).lcs = d.lcs := rfl
@[simp] theorem withPwr_regs (d : Dev) (g : PwrSt → PwrSt) : (d.withPwr g).regs = d.regs := rfl
@[simp] theorem withPwr_mem (d : Dev) (g : PwrSt → PwrSt) : (d.withPwr g).mem = d.mem := rfl
@[simp] theorem withPwr_isl (d : Dev) (g : PwrSt → PwrSt) : (d.withPwr g).isl = d.isl := rfl
@[simp] theorem withPwr_tmo (d : Dev) (g : PwrSt → PwrSt) : (d.withPwr g).tmo = d.tmo := rfl
@[simp] theorem withPwr_free (d : Dev) (g : PwrSt → PwrSt) : (d.withPwr g).free = d.free := rfl
@[simp] theorem withPwr_out (d : Dev) (g : PwrSt → PwrSt) : (d.withPwr g).out = d.out := rfl
@[simp] theorem withPwr_tim (d : Dev) (g : PwrSt → PwrSt) : (d.withPwr g).tim = d.tim := rfl
@[simp] theorem withPwr_evt (d : Dev) (g : PwrSt → PwrSt) : (d.withPwr g).evt = d.evt := rfl
@[simp] theorem withPwr_prt (d : Dev) (g : PwrSt → PwrSt) : (d.withPwr g).prt = d.prt := rfl
@[simp] theorem withPwr_rte (d : Dev) (g : PwrSt → PwrSt) : (d.withPwr g).rte = d.rte := rfl
@[simp] theorem withPwr_drv (d : Dev) (g : PwrSt → PwrSt) : (d.withPwr g).drv = d.drv := rfl
@[simp] theorem withPwr_ddr (d : Dev) (g : PwrSt → PwrSt) : (d.withPwr g).ddr = d.ddr := rfl
@[simp] theorem withPwr_nvc (d : Dev) (g : PwrSt → PwrSt) : (d.withPwr g).nvc = d.nvc := rfl
@[simp] theorem withPwr_med (d : Dev) (g : PwrSt → PwrSt) : (d.withPwr g).med = d.med := rfl
@[simp] theorem withPwr_sac (d : Dev) (g : PwrSt → PwrSt) : (d.withPwr g).sac = d.sac := rfl
@[simp] theorem withPwr_cfg (d : Dev) (g : PwrSt → PwrSt) : (d.withPwr g).cfg = d.cfg := rfl
@[simp] theorem withPwr_fab (d : Dev) (g : PwrSt → PwrSt) : (d.withPwr g).fab = d.fab := rfl
@[simp] theorem withPwr_hrd (d : Dev) (g : PwrSt → PwrSt) : (d.withPwr g).hrd = d.hrd := rfl
@[simp] theorem withPwr_bst (d : Dev) (g : PwrSt → PwrSt) : (d.withPwr g).bst = d.bst := rfl
@[simp] theorem withPwr_tly (d : Dev) (g : PwrSt → PwrSt) : (d.withPwr g).tly = d.tly := rfl
@[simp] theorem withPwr_pwr (d : Dev) (g : PwrSt → PwrSt) : (d.withPwr g).pwr = g d.pwr := rfl
@[simp] theorem withPwr_lcs (d : Dev) (g : PwrSt → PwrSt) : (d.withPwr g).lcs = d.lcs := rfl
@[simp] theorem withLcs_regs (d : Dev) (g : LcsSt → LcsSt) : (d.withLcs g).regs = d.regs := rfl
@[simp] theorem withLcs_mem (d : Dev) (g : LcsSt → LcsSt) : (d.withLcs g).mem = d.mem := rfl
@[simp] theorem withLcs_isl (d : Dev) (g : LcsSt → LcsSt) : (d.withLcs g).isl = d.isl := rfl
@[simp] theorem withLcs_tmo (d : Dev) (g : LcsSt → LcsSt) : (d.withLcs g).tmo = d.tmo := rfl
@[simp] theorem withLcs_free (d : Dev) (g : LcsSt → LcsSt) : (d.withLcs g).free = d.free := rfl
@[simp] theorem withLcs_out (d : Dev) (g : LcsSt → LcsSt) : (d.withLcs g).out = d.out := rfl
@[simp] theorem withLcs_tim (d : Dev) (g : LcsSt → LcsSt) : (d.withLcs g).tim = d.tim := rfl
@[simp] theorem withLcs_evt (d : Dev) (g : LcsSt → LcsSt) : (d.withLcs g).evt = d.evt := rfl
@[simp] theorem withLcs_prt (d : Dev) (g : LcsSt → LcsSt) : (d.withLcs g).prt = d.prt := rfl
@[simp] theorem withLcs_rte (d : Dev) (g : LcsSt → LcsSt) : (d.withLcs g).rte = d.rte := rfl
@[simp] theorem withLcs_drv (d : Dev) (g : LcsSt → LcsSt) : (d.withLcs g).drv = d.drv := rfl
@[simp] theorem withLcs_ddr (d : Dev) (g : LcsSt → LcsSt) : (d.withLcs g).ddr = d.ddr := rfl
@[simp] theorem withLcs_nvc (d : Dev) (g : LcsSt → LcsSt) : (d.withLcs g).nvc = d.nvc := rfl
@[simp] theorem withLcs_med (d : Dev) (g : LcsSt → LcsSt) : (d.withLcs g).med = d.med := rfl
@[simp] theorem withLcs_sac (d : Dev) (g : LcsSt → LcsSt) : (d.withLcs g).sac = d.sac := rfl
@[simp] theorem withLcs_cfg (d : Dev) (g : LcsSt → LcsSt) : (d.withLcs g).cfg = d.cfg := rfl
@[simp] theorem withLcs_fab (d : Dev) (g : LcsSt → LcsSt) : (d.withLcs g).fab = d.fab := rfl
@[simp] theorem withLcs_hrd (d : Dev) (g : LcsSt → LcsSt) : (d.withLcs g).hrd = d.hrd := rfl
@[simp] theorem withLcs_bst (d : Dev) (g : LcsSt → LcsSt) : (d.withLcs g).bst = d.bst := rfl
@[simp] theorem withLcs_tly (d : Dev) (g : LcsSt → LcsSt) : (d.withLcs g).tly = d.tly := rfl
@[simp] theorem withLcs_pwr (d : Dev) (g : LcsSt → LcsSt) : (d.withLcs g).pwr = d.pwr := rfl
@[simp] theorem withLcs_lcs (d : Dev) (g : LcsSt → LcsSt) : (d.withLcs g).lcs = g d.lcs := rfl
@[simp] theorem setBytes_regs (d : Dev) (a : Nat) (l : List Byte) : (d.setBytes a l).regs = d.regs := by
  induction l generalizing d a with
  | nil => rfl
  | cons b r ih => simp [Dev.setBytes, ih]
@[simp] theorem setBytes_isl (d : Dev) (a : Nat) (l : List Byte) : (d.setBytes a l).isl = d.isl := by
  induction l generalizing d a with
  | nil => rfl
  | cons b r ih => simp [Dev.setBytes, ih]
@[simp] theorem setBytes_tmo (d : Dev) (a : Nat) (l : List Byte) : (d.setBytes a l).tmo = d.tmo := by
  induction l generalizing d a with
  | nil => rfl
  | cons b r ih => simp [Dev.setBytes, ih]
@[simp] theorem setBytes_free (d : Dev) (a : Nat) (l : List Byte) : (d.setBytes a l).free = d.free := by
  induction l generalizing d a with
  | nil => rfl
  | cons b r ih => simp [Dev.setBytes, ih]
@[simp] theorem setBytes_out (d : Dev) (a : Nat) (l : List Byte) : (d.setBytes a l).out = d.out := by
  induction l generalizing d a with
  | nil => rfl
  | cons b r ih => simp [Dev.setBytes, ih]
@[simp] theorem setBytes_tim (d : Dev) (a : Nat) (l : List Byte) : (d.setBytes a l).tim = d.tim := by
  induction l generalizing d a with
  | nil => rfl
  | cons b r ih => simp [Dev.setBytes, ih]
@[simp] theorem setBytes_evt (d : Dev) (a : Nat) (l : List Byte) : (d.setBytes a l).evt = d.evt := by
  induction l generalizing d a with
  | nil => rfl
  | cons b r ih => simp [Dev.setBytes, ih]
@[simp] theorem setBytes_prt (d : Dev) (a : Nat) (l : List Byte) : (d.setBytes a l).prt = d.prt := by
  induction l generalizing d a with
  | nil => rfl
  | cons b r ih => simp [Dev.setBytes, ih]
@[simp] theorem setBytes_rte (d : Dev) (a : Nat) (l : List Byte) : (d.setBytes a l).rte = d.rte := by
  induction l generalizing d a with
  | nil => rfl
  | cons b r ih => simp [Dev.setBytes, ih]
@[simp] theorem setBytes_drv (d : Dev) (a : Nat) (l : List Byte) : (d.setBytes a l).drv = d.drv := by
  induction l generalizing d a with
  | nil => rfl
  | cons b r ih => simp [Dev.setBytes, ih]
@[simp] theorem setBytes_ddr (d : Dev) (a : Nat) (l : List Byte) : (d.setBytes a l).ddr = d.ddr := by
  induction l generalizing d a with
  | nil => rfl
  | cons b r ih => simp [Dev.setBytes, ih]
@[simp] theorem setBytes_nvc (d : Dev) (a : Nat) (l : List Byte) : (d.setBytes a l).nvc = d.nvc := by
  induction l generalizing d a with
  | nil => rfl
  | cons b r ih => simp [Dev.setBytes, ih]
@[simp] theorem setBytes_med (d : Dev) (a : Nat) (l : List Byte) : (d.setBytes a l).med = d.med := by
  induction l generalizing d a with
  | nil => rfl
  | cons b r ih => simp [Dev.setBytes, ih]
@[simp] theorem setBytes_sac (d : Dev) (a : Nat) (l : List Byte) : (d.setBytes a l).sac = d.sac := by
  induction l generalizing d a with
  | nil => rfl
  | cons b r ih => simp [Dev.setBytes, ih]
@[simp] theorem setBytes_cfg (d : Dev) (a : Nat) (l : List Byte) : (d.setBytes a l).cfg = d.cfg := by
  induction l generalizing d a with
  | nil => rfl
  | cons b r ih => simp [Dev.setBytes, ih]
@[simp] theorem setBytes_fab (d : Dev) (a : Nat) (l : List Byte) : (d.setBytes a l).fab = d.fab := by
  induction l generalizing d a with
  | nil => rfl
  | cons b r ih => simp [Dev.setBytes, ih]
@[simp] theorem setBytes_hrd (d : Dev) (a : Nat) (l : List Byte) : (d.setBytes a l).hrd = d.hrd := by
  induction l generalizing d a with
  | nil => rfl
  | cons b r ih => simp [Dev.setBytes, ih]
@[simp] theorem setBytes_bst (d : Dev) (a : Nat) (l : List Byte) : (d.setBytes a l).bst = d.bst := by
  induction l generalizing d a with
  | nil => rfl
  | cons b r ih => simp [Dev.setBytes, ih]
@[simp] theorem setBytes_tly (d : Dev) (a : Nat) (l : List Byte) : (d.setBytes a l).tly = d.tly := by
  induction l generalizing d a with
  | nil => rfl
  | cons b r ih => simp [Dev.setBytes, ih]
@[simp] theorem setBytes_pwr (d : Dev) (a : Nat) (l : List Byte) : (d.setBytes a l).pwr = d.pwr := by
  induction l generalizing d a with
  | nil => rfl
  | cons b r ih => simp [Dev.setBytes, ih]
@[simp] theorem setBytes_lcs (d : Dev) (a : Nat) (l : List Byte) : (d.setBytes a l).lcs = d.lcs := by
  induction l generalizing d a with
  | nil => rfl
  | cons b r ih => simp [Dev.setBytes, ih]

@[simp] theorem emit_out (d : Dev) (x : Out) : (d.emit x).out = x :: d.out := rfl

/-! ### Registers -/

@[simp] theorem rd_wr (d : Dev) (f : Field) (ix : List Nat) (v : Nat) : (d.wr f ix v).rd f ix = v % 2 ^ f.width := by
  simp [Dev.rd, Dev.wr]

/-- A write of a field leaves what stands at another bit address. -/
theorem rd_wr_ne (d : Dev) (f g : Field) (ix jx : List Nat) (v : Nat) (h : g.key jx ≠ f.key ix) :
    (d.wr f ix v).rd g jx = d.rd g jx := by
  simp only [Dev.rd, Dev.wr]
  exact tget_tset_ne _ _ _ _ _ h

@[simp] theorem wr_wr (d : Dev) (f : Field) (ix : List Nat) (v w : Nat) : (d.wr f ix v).wr f ix w = d.wr f ix w := by
  simp [Dev.wr]

/-! ### Memory -/

@[simp] theorem byte_setByte (d : Dev) (a : Nat) (b : Byte) : (d.setByte a b).byte a = b := by
  simp [Dev.byte, Dev.setByte]

theorem byte_setByte_ne (d : Dev) (a j : Nat) (b : Byte) (h : j ≠ a) : (d.setByte a b).byte j = d.byte j := by
  simp only [Dev.byte, Dev.setByte]
  exact tget_tset_ne _ _ _ _ _ h

/-- Bytes outside those stored stand. -/
theorem byte_setBytes_out (d : Dev) (a j : Nat) (l : List Byte) (h : j < a ∨ a + l.length ≤ j) :
    (d.setBytes a l).byte j = d.byte j := by
  induction l generalizing d a with
  | nil => rfl
  | cons b r ih =>
    simp only [List.length_cons] at h
    rw [Dev.setBytes, ih (d.setByte a b) (a + 1) (by omega), byte_setByte_ne]
    omega

/-- A byte of those stored. -/
theorem byte_setBytes_in (d : Dev) (a i : Nat) (l : List Byte) (h : i < l.length) :
    (d.setBytes a l).byte (a + i) = l.getD i 0 := by
  induction l generalizing d a i with
  | nil => simp at h
  | cons b r ih =>
    cases i with
    | zero =>
      rw [Dev.setBytes, byte_setBytes_out _ _ _ _ (by omega)]
      simp
    | succ i =>
      have : a + (i + 1) = a + 1 + i := by omega
      rw [Dev.setBytes, this, ih (d.setByte a b) (a + 1) i (by simpa using h)]
      simp

/-- A range read after it was written. -/
theorem bytes_setBytes (d : Dev) (a : Nat) (l : List Byte) : (d.setBytes a l).bytes a l.length = l := by
  apply List.ext_getElem
  · simp [Dev.bytes]
  · intro i h _
    have hl : i < l.length := by simpa [Dev.bytes] using h
    simp only [Dev.bytes, List.getElem_map, List.getElem_range]
    rw [byte_setBytes_in d a i l hl]
    simp [hl]

@[simp] theorem store_regs (d : Dev) (a n v : Nat) : (d.store a n v).regs = d.regs := by simp [Dev.store]
@[simp] theorem store_drv (d : Dev) (a n v : Nat) : (d.store a n v).drv = d.drv := by simp [Dev.store]

/-- Every memory operation keeps the canonical form. -/
theorem memWf_setByte (d : Dev) (a : Nat) (b : Byte) (h : memWf d.mem = true) : memWf (d.setByte a b).mem = true :=
  tableWf_tset memDefault d.mem a b h

theorem memWf_setBytes (d : Dev) (a : Nat) (l : List Byte) (h : memWf d.mem = true) :
    memWf (d.setBytes a l).mem = true := by
  induction l generalizing d a with
  | nil => exact h
  | cons b r ih => exact ih _ _ (memWf_setByte d a b h)

theorem memWf_store (d : Dev) (a n v : Nat) (h : memWf d.mem = true) : memWf (d.store a n v).mem = true :=
  memWf_setBytes d a _ h

theorem memWf_loseMem (d : Dev) (a n : Nat) (h : memWf d.mem = true) : memWf (d.loseMem a n).mem = true := by
  unfold Dev.loseMem
  generalize List.range n = l
  induction l generalizing d with
  | nil => exact h
  | cons i r ih => exact ih _ (memWf_setByte _ _ _ h)

theorem rising_filter {α : Type} (t : Table α) (p : Nat × α → Bool) (h : rising t = true) : rising (t.filter p) = true := by
  induction t with
  | nil => exact h
  | cons e r ih =>
    obtain ⟨ha, hr⟩ := (rising_cons e r).mp h
    rw [List.filter_cons]
    split
    · exact (rising_cons _ _).mpr ⟨fun x hx => ha x ((List.mem_filter.mp hx).1), ih hr⟩
    · exact ih hr

theorem memWf_wipe (d : Dev) (a n : Nat) (h : memWf d.mem = true) : memWf (d.wipe a n).mem = true := by
  simp only [memWf, tableWf, Bool.and_eq_true, List.all_eq_true, Dev.wipe] at h ⊢
  exact ⟨rising_filter _ _ h.1, fun e he => h.2 e ((List.mem_filter.mp he).1)⟩

/-- Register writes keep the keys of the register table rising. -/
theorem rising_wr (d : Dev) (f : Field) (ix : List Nat) (v : Nat) (h : rising d.regs = true) :
    rising (d.wr f ix v).regs = true := rising_tset _ _ _ _ h

/-! ### Threads -/

@[simp] theorem thr_setThr (d : Dev) (n t : Nat) (x : Thr) : (d.setThr n t x).thr n t = x := by
  simp [Dev.thr, Dev.setThr]

@[simp] theorem setThr_setThr (d : Dev) (n t : Nat) (x y : Thr) : (d.setThr n t x).setThr n t y = d.setThr n t y := by
  simp [Dev.setThr, Dev.withDrv]

@[simp] theorem setThr_regs (d : Dev) (n t : Nat) (x : Thr) : (d.setThr n t x).regs = d.regs := rfl
@[simp] theorem setThr_mem (d : Dev) (n t : Nat) (x : Thr) : (d.setThr n t x).mem = d.mem := rfl
@[simp] theorem setThr_bst (d : Dev) (n t : Nat) (x : Thr) : (d.setThr n t x).bst = d.bst := rfl
@[simp] theorem setThrState_thr (d : Dev) (n t x m u : Nat) : (d.setThrState n t x).thr m u = d.thr m u := rfl

end Sys2Proof.Machine
end

