-- ==== Sys2Proof/Laws/Issue.lean ====
section
/-! SUPPORT. What issuing an instruction comes to, by what its meaning answers. -/

namespace Sys2Proof.Machine

/-- What an instruction acts under, and on, when the word `w` is fetched. -/
def ctxOf (i : Issue) (w fine : Nat) : QCtx := { n := i.n.val, t := i.t.val, w := w, ecc := i.dataEcc.val, fine := fine }
def thrOf (d : Dev) (i : Issue) (w : Nat) : Thr := { self d i with wait := some w }
def devOf (d : Dev) (i : Issue) (w : Nat) : Dev := d.setThr i.n i.t (thrOf d i w)

theorem serviceAt_idle (d : Dev) (a : Nat) (h : d.bst.slices = []) : d.serviceAt a = d := by
  unfold Dev.serviceAt
  split <;> simp [h]

theorem sramEcc_none (d : Dev) (n k : Nat) : d.sramEcc n k 0 = d := by simp [Dev.sramEcc]

/-- A fetched word of the operation runs its meaning. -/
theorem qIssue_fetched {d : Dev} {i : Issue} {w : Nat} (h : Fetches d i w) (f : QOp) (fine : Nat) :
    qIssue i (opKey w) f fine d = Dev.retire (ctxOf i w fine) (f (ctxOf i w fine) (devOf d i w) (thrOf d i w)) := by
  have h1 : ¬ (d.thr i.n i.t).due ≠ 0 := fun hn => hn h.due
  have h2 : ¬ i.fetchEcc = 2 := by rw [h.good]; decide
  have h3 : ¬ 0x10000 ≤ (d.thr i.n i.t).pc := Nat.not_le.mpr h.inside
  have h4 : (i.fetchEcc : Nat) = 0 := by rw [h.good]; rfl
  have h5 : ¬ d.canIssue i.n i.t = false := by simp [h.can]
  simp only [qIssue, h.word, if_neg h1, if_neg h2, if_neg h3, if_neg h5, serviceAt_idle d _ h.tests, h4, sramEcc_none,
    ne_eq, not_true_eq_false, if_false]
  rfl

/-- The command of an operation whose word is fetched. -/
theorem issue_fetched {d : Dev} {i : Issue} {w key : Nat} (h : Fetches d i w) (hk : opKey w = some key) (f : QOp)
    (q : List Instr) (fine : Nat) :
    issue i key f ⟨q, d⟩ fine =
      .next ⟨q, Dev.retire (ctxOf i w fine) (f (ctxOf i w fine) (devOf d i w) (thrOf d i w))⟩ := by
  rw [← qIssue_fetched h f fine, hk]
  simp [issue, run, runAlways, State.upd, h.on]

/-- An instruction that goes on leaves its thread at the next instruction. -/
theorem retire_go (d : Dev) (i : Issue) (w fine : Nat) (x : Thr) :
    Dev.retire (ctxOf i w fine) (.go (devOf d i w) x) = ranTo d i x (x.pc + 4) := by
  simp [Dev.retire, Dev.goOn, ctxOf, devOf, thrOf, ranTo]

theorem retire_jump (d : Dev) (i : Issue) (w fine : Nat) (x : Thr) (pc : Nat) :
    Dev.retire (ctxOf i w fine) (.jump (devOf d i w) x pc) = ranTo d i x pc := by
  simp [Dev.retire, Dev.goOn, ctxOf, devOf, thrOf, ranTo]

end Sys2Proof.Machine
end

