-- ==== Sys2Proof/WellFormed.lean ====
section
/-! DEFINITION. Well-formed commands: what a command brings is what the physical layer can bring. The types of the
operands say most of it; the checks here say the rest. No step asks for it: a command acts on any operands. -/

namespace Sys2Proof

open Sys2Proof.Machine

/-- A grid step of 31.25 ps within the 256 ns between two markers (R51, R53). -/
def fineOk (n : Nat) : Bool := decide (n < 8192)

/-- Symbols of a DDR4 codeword in error: each of the 72 at most once, with the bits that differ (R395). -/
def symbolsOk (l : List (Nat × Nat)) : Bool :=
  (l.all fun e => decide (e.1 < 72) && decide (0 < e.2) && decide (e.2 < 256)) && decide ((l.map Prod.fst).Nodup)

/-- The sense of an NV codeword: at most 40 bits corrected, at one of the seven retries when the first sense does not
decode (R358, R359). -/
def findOk (f : NvFind) : Bool :=
  (f.first.all fun n => decide (n ≤ 40)) && f.retry.all fun r => decide (1 ≤ r.1 ∧ r.1 ≤ 7 ∧ r.2 ≤ 40)

/-- The bytes of a stile message are those of its 64-byte data words, as many as a 14-bit length can name. -/
def stileOk (data : List Byte) (words : Nat) : Bool := data.length == 64 * words && decide (words ≤ 256)

/-- The bytes of one access to a memory: 1 to 64. -/
def accessOk (l : List Byte) : Bool := decide (1 ≤ l.length ∧ l.length ≤ 64)

/-- An offset in a configuration partition (128 MiB). -/
def partOffset (n : Nat) : Bool := decide (n < 0x8000000)

/-- A Sacon message takes at least one frame of the buffer. -/
def framesOk (n : Nat) : Bool := decide (1 ≤ n)

/-- A frame for an egress queue: its length is that of its bytes and a frame check sequence, its priority and
sub-port exist. -/
def egFrameOk (f : EgFrame) : Bool := decide (f.bytes.length ≤ f.len) && decide (f.pri < 8) && decide (f.sp < 4)

/-- The command brings what the physical layer can bring. -/
def Instr.wf : Instr → Bool
  | .ptpMessageRx _ _ _ _ len _ _ _ _ => decide (len < 65536)
  | .ptpSyncTx _ fine => fineOk fine
  | .syncInEdge _ fine _ => fineOk fine
  | .frameRx _ _ _ fine => fineOk fine
  | .egressStart _ _ fine _ => fineOk fine
  | .egressStop _ fine => fineOk fine
  | .egressRelease _ fine => fineOk fine
  | .ingressDrop _ fine => fineOk fine
  | .ingressRelease _ fine => fineOk fine
  | .streamStop _ fine => fineOk fine
  | .streamRelease _ fine => fineOk fine
  | .droverHalt _ fine => fineOk fine
  | .halterSalvoCancel _ fine => fineOk fine
  | .timeTreeCalDone sums errs => sums.length == 112 && errs.length == 112
  | .backgroundCal _ sums errs => sums.length == 112 && errs.length == 112
  | .fecCodeword _ _ r => r.all fun n => decide (n ≤ 15)
  | .pfcFrameRx _ _ _ times => times.length == 8 && times.all fun t => decide (t < 65536)
  | .egressQueueEnter _ f => egFrameOk f
  | .longOpComplete _ _ _ errs f => symbolsOk errs && findOk f
  | .dmaUnitDone _ _ _ f => findOk f
  | .frameEgress _ _ _ data words => stileOk data words
  | .frameDrover _ _ _ data words _ => stileOk data words
  | .frameFabric _ _ _ data words _ => stileOk data words
  | .stileMemWrite _ _ _ data words => stileOk data words
  | .memAdd _ _ _ data words _ => stileOk data words
  | .loadDone bad => bad.all partOffset
  | .stageDone _ bad => bad.all partOffset
  | .exitReloadDone bad => bad.all partOffset
  | .shepherdReload f => findOk f
  | .nvDataRead _ _ len f => len != 0 && findOk f
  | .nvFetch _ len f _ => len != 0 && findOk f
  | .nvPrefix _ _ data => accessOk data
  | .program _ _ data => accessOk data
  | .programData _ _ data => accessOk data
  | .programConfirm _ _ data => accessOk data
  | .erase _ _ data => accessOk data
  | .eraseConfirm _ _ data => accessOk data
  | .readStatus _ _ data => accessOk data
  | .margin _ _ data => accessOk data
  | .reset _ _ data => accessOk data
  | .ddrAccess _ write _ len data _ => if write then accessOk data else len != 0
  | .discoveryRequest _ n _ _ _ _ _ _ => framesOk n
  | .cmReq _ n _ _ _ _ _ _ _ _ => framesOk n
  | .cmRtu _ n _ _ => framesOk n
  | .cmDreq _ n _ _ => framesOk n
  | .nakRx _ n _ _ _ => framesOk n
  | .sendRx _ n _ _ => framesOk n
  | .directRdmaWrite _ n _ _ _ _ l => framesOk n && l != []
  | .directRdmaRead _ n _ _ _ _ len => framesOk n && len != 0
  | .cnpRx _ n _ _ => framesOk n
  | .descriptorFetch _ _ descs _ => decide (descs.length ≤ 32)
  | .memRead _ _ errs find _ => (errs.all fun l => symbolsOk l) && find.all findOk
  | .memWrite _ _ _ errs => errs.all fun l => symbolsOk l
  | .temperatureSample l => l.length == 128
  | .loadBalance _ u _ => u.length == 96 && u.all fun x => decide (x ≤ 100#7)
  | .powerOnResetRelease _ _ _ cut => cut.all fun c => decide (c ≤ 64)
  | .lcReset _ _ _ cut => cut.all fun c => decide (c ≤ 64)
  | .dbgAccess _ errs find => symbolsOk errs && findOk find
  | .macroTestDone _ _ steps fails _ _ => decide (steps ≤ 6144) && decide (fails.length ≤ steps)
  | .cfgClkEdge _ drain _ => decide (drain ≤ 65536)
  | .registerWrite .. | .stileTimeout .. | .synthesiserStep .. | .markerEdge .. | .timSetGo .. | .timStep ..
  | .timFreqAdjWrite .. | .comparatorFire .. | .servoSrcWrite .. | .servoSample .. | .announceReceiptTimeout ..
  | .ppsSourceLost .. | .holdoverSpec .. | .smpteTlvTx .. | .sinTsRead .. | .syncOutEdge .. | .soutCommit ..
  | .soutCommitApply .. | .pllLock .. | .portTsCalDone .. | .prtCfgWrite .. | .prtBufLimWrite .. | .serdesCalDone ..
  | .cdrLock .. | .fecLock .. | .pcsLock .. | .pcsLockLoss .. | .faultChange .. | .ingressCellAlloc ..
  | .pfcRefresh .. | .pfcPauseExpire .. | .egressQueueWaitAdmit .. | .haltStateClear .. | .frameRoute ..
  | .missLookupDone .. | .rteCfgWrite .. | .routeTableClear .. | .routeClearDone .. | .agerVisit ..
  | .learnLogRead .. | .prewarmStep .. | .salvoCommit .. | .salvoSwap .. | .salvoRetire .. | .salvoRetireDone ..
  | .salvoCancelDone .. | .streamStall .. | .mergeLegTimeout .. | .storeReleaseDelay .. | .storeSyncBoundary ..
  | .storeReleaseDone .. | .asmPacketClose .. | .egressStreamEnqueue .. | .txStarved .. | .rosterSlot ..
  | .rosterCommit .. | .rosterSwap .. | .rosterCopyDone .. | .rosterWinWrite .. | .txHaltClear .. | .ctxRead ..
  | .ctxWrite .. | .clrSid .. | .ctxCmdDone .. | .droverFrameRx .. | .windowHoldRelease .. | .sendQueueIssue ..
  | .drvWatchdog .. | .drvHalt .. | .drvHaltQuiet .. | .drvResume .. | .drvReset .. | .drvStart .. | .imemFill ..
  | .imemFillDone .. | .add .. | .sub .. | .and .. | .or .. | .xor .. | .sll .. | .srl .. | .sra .. | .clt ..
  | .cltu .. | .min .. | .max .. | .minu .. | .maxu .. | .clz .. | .popc .. | .bswapD .. | .bswapW .. | .bswapH ..
  | .bfx .. | .bfi .. | .mul .. | .mulh .. | .mulhu .. | .div .. | .divu .. | .rem .. | .remu .. | .addi ..
  | .andi .. | .ori .. | .xori .. | .slli .. | .srli .. | .srai .. | .clti .. | .cltui .. | .setk .. | .shk ..
  | .beq .. | .bne .. | .blt .. | .bge .. | .bltu .. | .bgeu .. | .lnk .. | .lnkr .. | .lb .. | .lbu .. | .lh ..
  | .lhu .. | .lw .. | .lwu .. | .ld .. | .sb .. | .sh .. | .sw .. | .sd .. | .aaddW .. | .aaddD .. | .aswpW ..
  | .aswpD .. | .acasW .. | .acasD .. | .vld .. | .vst .. | .vadd .. | .vsub .. | .vadds .. | .vsubs .. | .vand ..
  | .vor .. | .vxor .. | .vsll .. | .vsrl .. | .vsra .. | .vmin .. | .vmax .. | .vminu .. | .vmaxu .. | .vceq ..
  | .vclt .. | .vcltu .. | .vbsw .. | .vmul .. | .vmulh .. | .vmulhu .. | .vmac .. | .vsplB .. | .vsplH ..
  | .vsplW .. | .vsplD .. | .vext .. | .vins .. | .vmov .. | .vxfw .. | .mtm .. | .mfm .. | .mlen .. | .vaadd ..
  | .vaput .. | .unpkP10 .. | .pkP10 .. | .adcfg .. | .adeint .. | .amix .. | .amov .. | .crcC .. | .pktNext ..
  | .pktNextNb .. | .pktFree .. | .pktSend .. | .pktSqflush .. | .pktTsrd .. | .chrd .. | .stamp .. | .stampLate ..
  | .waitu .. | .tadd .. | .tcmp .. | .tidxC .. | .tidxF .. | .tat .. | .dmaGo .. | .dmaWait .. | .dmaPoll ..
  | .semAcq .. | .semTry .. | .semRel .. | .fence .. | .wdogKick .. | .evtRaise .. | .tret .. | .brk .. | .rdid ..
  | .rdcyc .. | .fabUreset .. | .uresetRelease .. | .clkselWrite .. | .stileMemRead .. | .fabricFrameIn ..
  | .stileResponse .. | .fabMgmtRequest .. | .fabUserEvent .. | .slaveTimeout .. | .flockDoneHigh ..
  | .bellWaitExpire .. | .pacingEdge .. | .startupPhase .. | .reload .. | .stage .. | .apply .. | .applyStart ..
  | .applyDone .. | .releaseSrc .. | .abort .. | .clear .. | .frameReadback .. | .snap .. | .snapRead ..
  | .shepherdFrameRead .. | .seqTimeout .. | .nvOpEnd .. | .wpClr .. | .bootRecordUpdate .. | .bootRecordDone ..
  | .weakRead .. | .ddrInit .. | .ddrTrainDone .. | .ddrInitDone .. | .ddrRetrain .. | .patrolScrub .. | .refresh ..
  | .selfRefreshEntry .. | .selfRefreshWake .. | .arpRequest .. | .neighbourSolicitation .. | .ackTimeout ..
  | .rateTimer .. | .commandDoorbell .. | .completionDoorbell .. | .eventDoorbell .. | .heartbeat ..
  | .heartbeatTimeout .. | .nop .. | .regRead .. | .regWrite .. | .regRmw .. | .regPoll .. | .regPollRead ..
  | .routeInsert .. | .routeModify .. | .routeDelete .. | .routeLookup .. | .chanWrite .. | .chanRead ..
  | .salvoOpen .. | .salvoArm .. | .salvoCancel .. | .semAcqDescriptor .. | .semTryDescriptor ..
  | .semRelDescriptor .. | .semAcqTimeout .. | .waitUntil .. | .waitUntilReached .. | .ringStart .. | .ringStop ..
  | .ringReset .. | .ringLock .. | .semTryRead .. | .semRelWrite .. | .semForce .. | .deadlockSearch ..
  | .eventAccept .. | .coalesceWindowEnd .. | .causeEnableWrite .. | .porNAssert .. | .railWindowExit ..
  | .railCollapse .. | .nvAwake .. | .startupSelfTest .. | .pwrReqRun .. | .pwrReqIdle .. | .pwrReqDoze ..
  | .pwrReqHibernate .. | .entryContinue .. | .wakeLatch .. | .wakeNLow .. | .alarm .. | .measurementUpdate ..
  | .hrdRestart .. | .lockstepMismatch .. | .hrdWatchdogExpire .. | .hrdWdogKick .. | .dvfsDecision ..
  | .reqMhzWrite .. | .ddrRefreshDecision .. | .routeCacheDecision .. | .hrdPrewarm .. | .hrdPrewarmStep ..
  | .migrationTimeout .. | .recalDecision .. | .tallyStart .. | .romCheck .. | .replicaAligned .. | .audioTap ..
  | .acctTap .. | .ppsTap .. | .ack .. | .replay .. | .config .. | .prog .. | .seal .. | .unseal .. | .restartProg ..
  | .loudnessBlock .. | .loudnessRecord .. | .serviceRecord .. | .tieRecord .. | .recordCommit .. | .nonce ..
  | .debug .. | .transition .. | .close .. | .certCheckDone .. | .debugSessionExpire .. | .nonceLapse .. | .extest ..
  | .samplePreload .. | .idcode .. | .clamp .. | .highz .. | .lcStatus .. | .nonceGet .. | .certLoad ..
  | .lcRequest .. | .dbgHalt .. | .dbgClose .. | .wake .. | .scanEnter .. | .tlyRead .. | .otpWrite ..
  | .compatUnlock .. | .bypass .. | .trst .. | .start .. | .stop .. | .saveRepair .. | .saveRepairDone ..
  | .sliceBudgetExpire .. | .sliceRetry .. | .failLogRead .. | .announceTx .. | .delayReqTx .. | .arbStarve ..
  | .granaryEccRead .. | .tallyPowerLoss .. | .unassignedEncoding .. | .badOpcode .. | .inboxBadKind .. => true

end Sys2Proof
end

