-- ==== Sys2Proof/Tests/Slice0.lean ====
section
/-! SUPPORT. Tests: ill-formed commands that the checks refuse, worked values of the spec, and for the statements with
hypotheses a concrete state that meets them (named wit_ and the name of the statement, or of the part of it; what only a
constant without a body decides, a signature or an unwrapped key, no state can show). -/

open Sys2Proof Sys2Proof.Machine Sys2Proof.Claims

namespace Sys2Proof.Tests

-- One theorem at a time: each thread of its own takes memory that the compile of the whole package does not have.
set_option Elab.async false

/-! ### A device about to run an instruction -/

/-- Thread 5 of drover 3. -/
def iss : Issue := ⟨3, 5, 0, 0⟩
/-- The device `d` with registers `x` in thread 5 of drover 3 and the word `w` at its pc. -/
def issuing (w : Nat) (x : Thr := {}) (d : Dev := {}) : Dev := ((d.setThr 3 5 x).setThrState 3 5 1).store (imemKey 3 x.pc) 4 w
/-- A thread's registers: scalar registers from s1 on. -/
def regs (l : List Nat) : Thr := { s := ((List.range l.length).map fun k => (k + 1, l.getD k 0)).filter fun p => p.2 != 0 }
/-- The hypotheses of `Fetches`, as a check. -/
def ready (d : Dev) (i : Issue) (w : Nat) : Bool :=
  !d.pwr.off && d.canIssue i.n i.t && (d.thr i.n i.t).due == 0 && decide ((d.thr i.n i.t).pc < 0x10000) && i.fetchEcc == 0 &&
    d.load (imemKey i.n (d.thr i.n i.t).pc) 4 == w && d.bst.slices == []

theorem ready_fetches (d : Dev) (i : Issue) (w : Nat) (h : ready d i w = true) : Fetches d i w := by
  simp [ready] at h
  obtain ⟨⟨⟨⟨⟨⟨h1, h2⟩, h3⟩, h4⟩, h5⟩, h6⟩, h7⟩ := h
  exact ⟨h1, h2, h3, h4, h5, h6, h7⟩

/-- A word of an operation with rd = s1, ra = s2, rb = s3 (Tables 07-1 and 07-2). -/
def wordOf (key : Nat) (rd : Nat := 1) (ra : Nat := 2) (rb : Nat := 3) (mk : Nat := 0) : Nat :=
  let m := key / 256
  let sub := key % 256
  m + rd * 2 ^ 7 + ra * 2 ^ 12 + rb * 2 ^ 17 + mk * 2 ^ 22 +
    sub * (if m = 0x06 then 2 ^ 23 else if m = 0x22 ∨ m = 0x23 ∨ m = 0x32 then 2 ^ 27 else 2 ^ 25)

/-- The branch word: the condition stands where rb does. -/
def branchOf (key : Nat) : Nat := 0x0C + 1 * 2 ^ 7 + 2 * 2 ^ 12 + key % 256 * 2 ^ 17 + 4 * 2 ^ 20

/-- The thread runs operation `key`, and `p` holds of the word and the device. -/
def runs (key : Nat) (x : Thr) (p : Dev → Nat → Bool := fun _ _ => true) (w : Nat := wordOf key) (d : Dev := {}) : Bool :=
  ready (issuing w x d) iss w && opKey w == some key && p (issuing w x d) w

/-- What a command makes of a device. -/
def after (c : Instr) (d : Dev) : Dev := match exec c ⟨[], d⟩ with | .next t => t.dev | _ => {}
/-- The device of reset with some register fields set. -/
def dev (l : List (Field × List Nat × Nat)) (d : Dev := {}) : Dev := l.foldl (fun d x => d.wr x.1 x.2.1 x.2.2) d
/-- A field holds a value. -/
def has (d : Dev) (f : Field) (ix : List Nat) (v : Nat) : Bool := d.rd f ix == v && !d.pwr.off
/-- The device of reset at a Reckoning time, in beads, and with as many on the timebase clock or more. -/
def atBeads (b : Nat) : Dev := { tim := { now := b * 2 ^ 32, mono := (b + 16777215) / 16777216 } }

/-! ### Scalar and memory instructions -/

theorem wit_ScalarResults : (aluRows.all fun r => runs r.key (regs [1, 2, 3]) (fun _ _ => true) (wordOf r.key 1 2 (if 0x10E ≤ r.key ∧ r.key ≤ 0x112 then 0 else 3))) && (immRows.all fun r => runs r.key (regs [1, 2, 3]))
    && runs 0x900 (regs [1]) && runs 0xA00 (regs [1]) := by decide

theorem wit_DivideAndFieldResults :
    ([0xB03, 0xB04, 0xB05, 0xB06].all fun k => runs k (regs [0, 2 ^ 63, 2 ^ 64 - 1]) (fun d w => sval d iss (wRb w) != 0) && runs k (regs [1, 2])) &&
    ([0x114, 0x115].all fun k => runs k (regs [0, 7, 63]) (fun d w => (sval d iss (wRb w)).toNat / 64 == 0) &&
      runs k (regs [0, 7, 63 + 64])) := by decide

theorem wit_BranchResults : (branchRows.all fun r => runs r.key (regs [1, 2]) (fun _ _ => true) (branchOf r.key)) &&
    runs 0xD00 (regs [1]) && runs 0xE00 (regs [1, 8]) (fun _ _ => true) (wordOf 0xE00 1 2 4) &&
    runs 0xE00 (regs [1, 6]) (fun _ _ => true) (wordOf 0xE00 1 2 4) && (self (issuing 0 {}) iss).pc % 4 == 0 := by decide

/-- The last bytes of the crib and the first address past it, an odd address, a hole. -/
theorem wit_LoadResults : (loadRows.all fun r =>
      runs r.key (regs [1, cribBase + 0x40000 - r.len]) (fun d w => ea d iss w + r.len == cribBase + 0x40000) (wordOf r.key 1 2 0) &&
      runs r.key (regs [1, 0x5000000000]) (fun d w => decide (0x4000000000 ≤ ea d iss w)) (wordOf r.key 1 2 0)) &&
    ([0x1200, 0x1300, 0x1400, 0x1500, 0x1600].all fun k => runs k (regs [1, cribBase + 1]) (fun _ _ => true) (wordOf k 1 2 0)) &&
    runs 0x2000 (regs [1, droveAlias + 0x400000 - 64]) (fun d w => vea d iss w + 64 == droveAlias + 0x400000) (wordOf 0x2000 1 2 0) &&
    runs 0x2000 (regs [1, cribBase + 8]) (fun _ _ => true) (wordOf 0x2000 1 2 0) &&
    runs 0x2000 (regs [1, 0x4000000000]) (fun _ _ => true) (wordOf 0x2000 1 2 0) := by decide

theorem wit_StoreResults : (storeRows.all fun r =>
      runs r.key (regs [1, droveAlias + 0x400000 - r.len]) (fun d w => ea d iss w + r.len == droveAlias + 0x400000) (wordOf r.key 1 2 0) &&
      runs r.key (regs [1, imemBase]) (fun _ _ => true) (wordOf r.key 1 2 0) &&
      runs r.key (regs [1, cribBase + 0x40000]) (fun _ _ => true) (wordOf r.key 1 2 0)) &&
    ([0x1900, 0x1A00, 0x1B00].all fun k => runs k (regs [1, cribBase + 1]) (fun _ _ => true) (wordOf k 1 2 0)) &&
    runs 0x2100 (regs [1, cribBase]) (fun _ _ => true) (wordOf 0x2100 1 2 0) &&
    runs 0x2100 (regs [1, cribBase + 32]) (fun _ _ => true) (wordOf 0x2100 1 2 0) &&
    runs 0x2100 (regs [1, 0x4000000000]) (fun _ _ => true) (wordOf 0x2100 1 2 0) := by decide

theorem wit_AtomicResults : (atomRows.all fun r =>
      runs r.key (regs [1, cribBase, 5]) && runs r.key (regs [1, droveAlias, 5]) && runs r.key (regs [1, cribBase + 2, 5]) &&
      runs r.key (regs [1, imemBase + 0xFFF8, 5]) && runs r.key (regs [1, regAlias + 0xFF8, 5]) &&
      runs r.key (regs [1, 0x4000000000, 5])) := by decide

/-- No two regions of the holes' statement meet: the crib, the instruction memory, the alias, the registers. -/
theorem wit_isNowhere : isNowhere (cribBase + 0x40000) ∧ isNowhere (imemBase + 0x10000) ∧ ¬ isNowhere cribBase ∧ ¬ isNowhere imemBase ∧
    ¬ isNowhere droveAlias ∧ ¬ isNowhere regAlias ∧ isNowhere 0x4000000000 := by
  unfold isNowhere cribBase imemBase droveAlias regAlias
  refine ⟨by decide, by decide, by decide, by decide, by decide, by decide, by decide⟩

/-! ### Vector and media instructions -/

theorem wit_VectorLaneResults : laneRows.all fun r => [0, 1, 2, 3].all fun e =>
    runs r.key { v := [(1, 5), (2, 6), (3, 7)], m := [(2, 0xA5)] } (fun _ _ => true) (wordOf r.key 1 2 3 2 + e * 2 ^ 25) := by decide

theorem wit_VectorMoveResults : (List.range 11).all fun k => runs (0x2400 + k) (regs [1, 2, 3]) (fun _ _ => true)
    (wordOf (0x2400 + k) 1 2 3 (if 8 ≤ k then 1 else 0)) := by decide

theorem wit_VectorAtomicResults : (List.all [0x2500, 0x2501] fun k => runs k (regs [0, cribBase]) && runs k (regs [0, droveAlias]) &&
      runs k (regs [0, cribBase + 8])) && runs 0x2805 (regs [0, droveAlias + 0x400000 - 64, cribBase + 0x40000 - 32]) &&
    runs 0x2805 (regs [0, droveAlias + 8, cribBase]) := by decide

theorem wit_MediaResults : (List.all [0x2800, 0x2801] fun k => runs k (regs [0, cribBase + 0x40000 - 40]) && runs k (regs [0, cribBase - 1]))
    && runs 0x2804 (regs [0, cribBase]) && runs 0x2804 (regs [0, cribBase + 8]) && runs 0x2900 (regs [0, 0xFFFFFFFF]) := by decide

/-- A deinterleave state of 2 channels of L16, 8 samples, from the crib to the crib. -/
def deint0 : Deint := { src := cribBase, dst := cribBase + 0x1000, fmt := 0, chans := 2, spp := 8 }
def deintWord (y : Deint) : Nat := y.src + y.dst * 2 ^ 64 + y.fmt * 2 ^ 128 + y.chans * 2 ^ 136 + y.spp * 2 ^ 144

theorem wit_deintOk : deintOk deint0 ∧ adcfgOf (deintWord deint0) = deint0 := by
  unfold deintOk cribRange sampleWidth deint0 adcfgOf deintWord cribBase; decide

theorem wit_DeinterleaveResults : runs 0x2802 { v := [(2, deintWord deint0)] } && runs 0x2802 { v := [(2, deintWord { deint0 with fmt := 3 })] } &&
    runs 0x2802 { v := [(2, deintWord { deint0 with dst := cribBase + 0x1008 })] } && runs 0x2803 { deint := deint0 } &&
    decide (deint0.done ≤ deint0.spp * deint0.chans * sampleWidth deint0.fmt) && deint0.carry.length == 0 := by decide

/-! ### Windows, sends, channel reads, DMA, time, threads -/

/-- Two windows of drover 3, the first given. -/
def wins : List Window := [{ first := 0, count := 1, took := 1, given := true }, { first := 1, count := 2, took := 2 }]
def withW (l : List Window) : Dev := withWins {} 3 l

theorem wit_WindowResults : (List.all [0x3000, 0x3001] fun k => runs k {} (fun d _ => (d.drover 3).wins == wins && d.rd R.DRV_RX_CFG_affinity [3] == 0) (wordOf k 1 0 0) (withW wins)
      && runs k {} (fun d _ => (d.drover 3).wins == []) (wordOf k 1 0 0)) &&
    runs 0x3002 (regs [0, 0xFF00020000]) (fun d w => (sval d iss (wRa w)).toNat == 0xFF00020000) (wordOf 0x3002 0 2 0) (withW wins) &&
    runs 0x3002 (regs [0, 0xFF00021000]) (fun _ _ => true) (wordOf 0x3002 0 2 0) (withW wins) := by decide

/-- A send descriptor: 64 bytes at the crib's start to an egress stream. -/
def send0 : Nat := 64 * 2 ^ 32 + cribBase * 2 ^ 64
def withQ (l : List Nat) : Dev := ({} : Dev).setSendQ 3 0 l

theorem wit_SendResults : runs 0x3003 { v := [(3, send0)] } && runs 0x3003 { v := [(3, send0)] } (fun d _ => (d.sendQ 3 0).length == 8) (wordOf 0x3003) (withQ (List.replicate 8 send0))
    && runs 0x3003 { v := [(3, send0 + 3)] } && (List.all [0, 4] fun k => runs 0x3004 (regs [0, cribBase + 16 * k]) (fun _ _ => true) (wordOf 0x3004) (withQ [send0, send0])) &&
    runs 0x3004 (regs [0, cribBase + 0x40000]) && runs 0x3005 {} &&
    runs 0x3005 {} (fun d _ => (d.drover 3).ts.length == 1) (wordOf 0x3005 1 0 0) (({} : Dev).setDrover 3 { ts := [⟨5, 6, false⟩] }) := by decide

theorem wit_sendLegal : sendLegal {} 3 send0 ∧ ¬ sendLegal {} 3 (send0 + 3) := by
  refine ⟨?_, fun h => h.1 (by decide)⟩
  refine ⟨by decide, by decide, by decide, by decide, by decide +kernel, by decide +kernel, by decide, by decide, by decide, fun h => ?_⟩
  exact absurd h (by decide)

/-- Thread 5 of drover 3 blocked in the word `w`. -/
def blockedIn (w : Nat) (x : Thr) (d : Dev := {}) : Dev := (d.setThr 3 5 { x with wait := some w }).setThrState 3 5 2
def isBlocked (d : Dev) (w : Nat) : Bool := !d.pwr.off && d.droveRuns 3 && d.thrState 3 5 == 2 && (self d iss).wait == some w && d.bst.slices == []

theorem wit_ChannelReadResults : runs 0x3006 (regs [0, 2 ^ 24 + 5]) (fun _ _ => true) (wordOf 0x3006 2 2 0) && runs 0x3006 (regs [0, 5]) (fun _ _ => true) (wordOf 0x3006 1 2 0) &&
    runs 0x3006 (regs [0, 2 ^ 42]) (fun _ _ => true) (wordOf 0x3006 2 2 0) &&
    (let d := blockedIn (wordOf 0x3006 2 2 0) (regs [0, 5])
     isBlocked d (wordOf 0x3006 2 2 0) && !d.lineBad (entryAddr 5) && d.entry 5 / 2 ^ 320 % 8 == 0) := by decide +kernel

/-- A DMA descriptor: 64 bytes within the crib. -/
def dma0 : Nat := cribBase + (cribBase + 64) * 2 ^ 64 + 64 * 2 ^ 128
def withDma (c : DmaChan) : Dev := ({} : Dev).setDma 3 0 c

theorem wit_DmaResults : runs 0x3200 { v := [(3, dma0)] } && runs 0x3200 { v := [(3, dma0 + 2 ^ 40)] } && runs 0x3200 { v := [(3, dma0 + 8)] } &&
    runs 0x3200 { v := [(3, dma0 + 0x40000)] } && runs 0x3200 { v := [(3, dma0)] } (fun _ _ => true) (wordOf 0x3200) (withDma { queue := List.replicate 4 ⟨0, 0, 64⟩ }) &&
    (List.all [{}, { queue := [⟨0, 0, 64⟩] }, { status := 2 }, { status := 2, busRaised := true }] fun c : DmaChan =>
      List.all [0x3201, 0x3202] fun k => runs k {} (fun d _ => d.dmaChan 3 0 == c) (wordOf k 1 0 0) (withDma c)) := by decide

theorem wit_TimeResults : runs 0x3100 {} (fun _ _ => true) (wordOf 0x3100 2 0 0) && runs 0x3100 {} (fun _ _ => true) (wordOf 0x3100 1 0 0) && runs 0x3101 {} (fun _ _ => true) (wordOf 0x3101 1 0 0) &&
    (List.all [0x3105, 0x3106, 0x3107] fun k => runs k (regs [0, 5, 6, 3 + 2 ^ 32]) (fun d w => rateP d iss w == 3 && rateQ d iss w == 1) (wordOf k 2 2 4) &&
      runs k (regs [0, 5, 6, 3]) (fun d w => rateQ d iss w == 0) (wordOf k 2 2 4) && runs k {} (fun _ _ => true) (wordOf k 1 3 4)) := by decide

theorem wit_TimePairArithmetic : List.all [0x3103, 0x3104] fun k => runs k (regs [0, 7, 1]) (fun d _ => pairAt d iss 2 == 7 + 65536000000000 * 65536) (wordOf k 2 2 4) &&
    runs k {} (fun _ _ => true) (wordOf k 1 1 1) := by decide

theorem wit_WaitUntilResults : runs 0x3102 {} (fun d w => decide (pairAt d iss (wRa w) ≤ replicaAt d iss 0)) (wordOf 0x3102 0 2 0) &&
    runs 0x3102 (regs [0, 2 ^ 40]) (fun d w => decide (replicaAt d iss 255 < pairAt d iss (wRa w))) (wordOf 0x3102 0 2 0) &&
    runs 0x3102 {} (fun _ _ => true) (wordOf 0x3102 0 3 0) &&
    (let w := wordOf 0x3102 0 2 0
     let d := fun t => blockedIn w { cmp := some t }
     isBlocked (d 0) w && decide (replicaAt (d (2 ^ 40)) iss 0 < 2 ^ 40) && (d 0).issues 3 && !(d 0).halted 3 &&
       isBlocked ((d 0).wr R.DRV_STATUS_halted [3] 1) w) := by decide

/-- Semaphore 7 held by an input, and by thread `t` of it where the input is drover 3. -/
def held (n t : Nat) : Dev := ((({} : Dev).wr R.SEM_STATE_owner [7] n).wr R.SEM_STATE_held [7] 1).setDrover 3 { sem := tset 0 [] 7 t }

theorem wit_ThreadResults :
    (List.all [held 3 6, held 9 0, held 3 1, {}] fun d => List.all [0x3300, 0x3301, 0x3302] fun k =>
      runs k (regs [0, 7]) (fun d _ => (List.range 8).all (fun t => t == 5 || d.thrState 3 t != 2) && d.semWaitOf 3 == none) (wordOf k 1 2 0) d) &&
    ((held 9 0).semHeld 7 && (held 9 0).semOwner 7 == 9 && (held 3 6).semOwner 7 == 3 && !({} : Dev).semHeld 7) &&
    (let d := (held 3 6).wr R.SEM_STATE_waiters [7] (2 ^ 100)
     d.semWaits 7 100 && (List.range 100).all fun k => !d.semWaits 7 k) &&
    (List.all [0x3303, 0x3304, 0x3305, 0x3306, 0x3307, 0x3308, 0x3309] fun k => runs k {} (fun _ _ => true) (wordOf k 0 0 0) &&
      runs k {} (fun _ _ => true) (wordOf k 0 0 0) ((({} : Dev).wr R.DRV_THR_FAULT_active [3, 5] 1).wr R.DRV_EVT_sw [3] 1)) &&
    (ready (issuing 0x7F) iss 0x7F && opKey 0x7F == none && ready (issuing 0) iss 0) &&
    runs 0x1600 (regs [0, 0x40400000]) (fun _ _ => true) (wordOf 0x1600 1 2 0) && runs 0x1B00 (regs [0, 0x3FFFFFFFF8]) (fun _ _ => true) (wordOf 0x1B00 1 2 0) &&
    (List.all [0x1600, 0x1B00] fun k => isBlocked (blockedIn (wordOf k 1 2 0) (regs [0, 0x42C00000])) (wordOf k 1 2 0)) := by decide

/-! ### The timebase -/

def withReqs (l : List StepReq) : Dev := { tim := { stepReqs := l, servoStep := some 5 } }

theorem wit_TimebaseSteps : (({} : Dev).tim.stepReqs == [] && ({} : Dev).tim.servoStep == none && !({} : Dev).pwr.off) &&
    ((withReqs (offsets [3, -4])).tim.stepReqs == offsets [3, -4]) &&
    ((withReqs [.step 1, .set 7, .step 2]).tim.stepReqs == [.step 1] ++ .set 7 :: offsets [2]) &&
    (List.all [0, 1, 2, 3] fun k => has (dev [(R.TIM_SERVO_CFG_src, [], k)]) R.TIM_SERVO_CFG_src [] k) &&
    !({} : Dev).locked ⟨0, false⟩ && (dev [(R.SYS_RING_LOCK_lock, [], 1)]).locked ⟨0, false⟩ := by decide

theorem wit_ServoAndCalibration :
    (List.all [0, 1, 2, 3] fun st => List.all [0, 1, 2] fun src => let d := dev [(R.TIM_STATUS_servo, [], st), (R.TIM_SERVO_CFG_src, [], src)]
      has d R.TIM_STATUS_servo [] st && has d R.TIM_SERVO_CFG_src [] src && !d.flag R.SYS_RING_LOCK_lock) &&
    (List.all [2, 3, 4] fun n => ({ tim := { unlockRun := n } } : Dev).tim.unlockRun == n) &&
    (List.all [14, 15] fun n => ({ tim := { lockRun := n } } : Dev).tim.lockRun == n) &&
    (decide (0 + 2 * second ≤ (atBeads (2 * second)).clock) && decide (0 + 10 * 2 * second ≤ (atBeads (20 * second)).clock)) &&
    has (dev [(R.TIM_PTP_STAT_state, [1], 9), (R.TIM_SERVO_CFG_src, [], 1)]) R.TIM_PTP_STAT_state [1] 9 &&
    (let d : Dev := { (dev [(R.TIM_STATUS_servo, [], 3)]) with tim := { (atBeads (4000000 * second)).tim with everLocked := true } }
     has d R.TIM_STATUS_servo [] 3 && !d.tim.specDone && decide (d.tim.leftLocked + d.rd R.TIM_HOLD_CFG_spec_s * second < d.clock)) &&
    (({} : Dev).tim.calStep == 0 && ({} : Dev).tim.replicas.length == 112 && has {} R.PWR_STAT_state [] 0 &&
      (List.replicate 112 (7 : Int)).length == 112) &&
    ((({} : Dev).rd R.PRT_STATUS_pcs_lock [1]).testBit 3 == false && ((dev [(R.PRT_STATUS_pcs_lock, [1], 15)]).rd R.PRT_STATUS_pcs_lock [1]).testBit 3) := by decide

theorem wit_PtpAndSyncPins :
    (List.all [6, 9, 4] fun st => let d := dev [(R.TIM_PTP_CFG_en, [1], 1), (R.TIM_CLK_CFG_role, [], 2), (R.TIM_PTP_STAT_state, [1], st), (R.TIM_PTP_CFG_one_step, [1], st % 2)]
      d.flag R.TIM_PTP_CFG_en [1] && has d R.TIM_CLK_CFG_role [] 2 && has d R.TIM_PTP_STAT_state [1] st && decide (tget 0 d.tim.ptpQ 1 + 65536 ≤ 65536)) &&
    (List.all [1, 2] fun m => List.all [0, 4] fun k => let d : Dev := { (dev [(R.TIM_SIN_CFG_mode, [0], m)]) with tim := { sinFifo := [(0, List.replicate k 9)] } }
      has d R.TIM_SIN_CFG_mode [0] m && !d.flag R.TIM_SIN_CFG_fall [0] && (tget [] d.tim.sinFifo 0).length == k) &&
    (let d := dev [(R.TIM_STATUS_servo, [], 2), (R.TIM_SERVO_CFG_src, [], 2), (R.TIM_SIN0_TOD_sec, [], 9)] (atBeads second)
     decide (100000 * 65536 < ((d.now : Int) - (d.rd R.TIM_SIN0_TOD_sec * second : Nat)).natAbs)) &&
    (List.all [1, 2] fun m => let d : Dev := { tim := { sout := [(7, { mode := m, num := 1, den := 1 })], soutCommit := [(7, 1)] } }
      (tget {} d.tim.sout 7).mode == m && (tget {} d.tim.sout 7).num != 0 && (tget {} d.tim.sout 7).den != 0 && tget 0 d.tim.soutCommit 7 == 0 + 1) := by decide

/-! ### Registers -/

theorem wit_RegisterRules :
    (List.all [R.TIM_SIN0_TOD_sec, R.TIM_SOUT_PHASE_ofs, R.DRV_EVT_sw, R.SYS_ID_grade] fun f => decide (({} : Dev).rd f [0] < 2 ^ f.width)) &&
    (dev [(R.SYS_RING_LOCK_lock, [], 1)]).locked ⟨5, false⟩ && !(dev [(R.SYS_RING_LOCK_lock, [], 1)]).locked ⟨5, true⟩ &&
    ({} : Dev).island (64 + 95 / 8) == 0 && (({} : Dev).setIsland (64 + 95 / 8) 2).island 75 != 0 &&
    (pageOf (8 * 0x2150) == none && pageOf (8 * 0x1FFFFF) == none && (hitsOf (8 * 0x1FFFFF)).length == 0) &&
    (let h := hitsOf (8 * 0x22000)
     h.length != 0 && h.any fun x => x.bitsIn (8 * 0x22000) (byteMask 255) != 0) &&
    (let d := dev ((List.range 8).map fun b => (drvEnFields.getD b R.DRV_EVT_EN_sw, [95], 0))
     (List.range 8).all fun b => !d.flag (drvEnFields.getD b R.DRV_EVT_EN_sw) [95]) &&
    (dev [(R.SYS_RING_LOCK_lock, [], 1)]).flag R.SYS_RING_LOCK_lock && !({} : Dev).flag R.SYS_RING_LOCK_lock &&
    ((({} : Dev).setFabIsl 63 { clk := true, reset := false, ports := true }).fabRuns 63) := by decide

/-! ### Ports, halters, the route engine -/

theorem wit_PortBringUp : ({} : Dev).island 77 == 0 && (({} : Dev).setIsland 77 1).island 77 != 0 && has {} R.PRT_CFG_en [1] 0 &&
    laneMapOk (({} : Dev).rd R.PRT_LANE_MAP_tx_map [1]) && laneMapOk (({} : Dev).rd R.PRT_LANE_MAP_rx_map [1]) &&
    !laneMapOk ((dev [(R.PRT_LANE_MAP_tx_map, [1], 0)]).rd R.PRT_LANE_MAP_tx_map [1]) && has (dev [(R.PRT_CFG_en, [1], 3)]) R.PRT_CFG_en [1] 3 &&
    has {} R.PWR_STAT_state [] 0 &&
    (List.all [0, 2, 3, 4, 5] fun k => stepOf { prt := { step := [(7, k)] } } 1 3 == k) &&
    (List.all [98304, 98305] fun v => ((List.range 7).map fun k => if k = 6 then v - 6 * ({} : Dev).rd R.PRT_BUF_LIM_min [1, 0] else ({} : Dev).rd R.PRT_BUF_LIM_min [1, k]).sum == v) := by decide

/-- A frame of `n` bytes to the broadcast address, with an EtherType that names no protocol of the parser. -/
def frame0 (n : Nat) : Frame := { bytes := List.replicate 6 255 ++ List.replicate 6 1 ++ [0x12, 0x34] ++ List.replicate (n - 14) 0 }
/-- Port 1 with sub-port 3 up. -/
def up : Dev := dev [(R.PRT_STATUS_link, [1], 15)]

theorem wit_FrameReception : hasBit up R.PRT_STATUS_link [1] 3 && !hasBit {} R.PRT_STATUS_link [1] 3 &&
    (List.all [63, 64] fun n => (frame0 n).bytes.length == n) && min 9600 (max 1518 (up.rd R.PRT_CFG_max_len [1])) == 9600 &&
    ofLe ((frame0 64).bytes.take 6) % 2 == 1 && (parse (frame0 64).bytes).etherType == 0x1234 && (parse (frame0 64).bytes).ip == 0 &&
    !(parse (frame0 64).bytes).udp && decide (up.priOf 1 (parse (frame0 64).bytes) < 7) && (tget {} up.prt.prog 7 == {}) &&
    !hasBit up R.PRT_HALT_STATE_ingr_drop [1] 3 && has up R.PWR_STAT_state [] 0 && !up.flag R.PWR_STAT_entering &&
    decide (up.rd R.PRT_BUF_OCC_cells [1, 0] + 1 ≤ up.rd R.PRT_BUF_LIM_max [1, 0]) && decide (up.rd R.PRT_BUF_LIM_max [1, 0] < 2 ^ 17) &&
    decide (up.poolKept 1 + 1 ≤ up.poolFree 1) &&
    (let b := frame0 64
     (parse (b.bytes.take 12 ++ [0x88, 0xA8] ++ b.bytes.drop 14)).tpid == 0x88A8) &&
    ofLe (((frame0 64).bytes.drop 6).take 6) % 2 == 1 &&
    decide ((dev [(R.PRT_BUF_LIM_max, [1, 6], 0)]).rd R.PRT_BUF_LIM_max [1, 6] ≤ up.rd R.PRT_BUF_OCC_cells [1, 6]) := by decide

def eg (n : Nat) (src : EgSrc := .sacon) : EgFrame := { len := n, src := src, pri := 0, sp := 3 }

theorem wit_FlowControlAndHalters : hasBit up R.PRT_STATUS_link [1] 3 && !hasBit {} R.PRT_STATUS_link [1] 3 &&
    (List.all [0, 5] fun p => let d : Dev := { prt := { paused := [(8 * 7 + 6, p)] }, tim := (atBeads 5).tim }
      tget 0 d.prt.paused (8 * (4 * 1 + 3) + 6) == p && decide (p ≤ d.clock)) && decide (({} : Dev).clock < 1) &&
    (let d : Dev := { (dev [(R.PRT_BUF_PFC_xon, [1, 6], 0)]) with prt := { xoff := [(14, true)] } }
     tget false d.prt.xoff 14 && decide (d.rd R.PRT_BUF_PFC_xon [1, 6] ≤ d.rd R.PRT_BUF_OCC_cells [1, 6])) &&
    (hasBit up R.PRT_STATUS_lfault [1] 3 == false && hasBit up R.PRT_STATUS_rfault [1] 3 == false &&
      decide (tget 0 up.prt.egBytes 1 + (eg 0x200000).len ≤ 2 ^ 21) && decide (2 ^ 21 < tget 0 up.prt.egBytes 1 + (eg 0x200001).len)) &&
    (let d : Dev := { up with prt := { egWait := [(1, [eg 0x200000, eg 64])], egBytes := [(1, 64)] } }
     tget [] d.prt.egWait 1 == [eg 0x200000] ++ eg 64 :: [] && decide (2 ^ 21 - 64 < (eg 0x200000).len) && decide ((eg 64).len ≤ 2 ^ 21 - 64)) &&
    (haltRows.all fun r => List.all [1, min (2 ^ r.width) (2 ^ 95)] fun target =>
      let h : Halter := { ctrl := 1, sp := 3, mac := 1, psn := 2, record := r.action * 2 ^ 16 + target * 2 ^ 64 }
      let d : Dev := { prt := { halters := [(1, [h])] } }
      tget [] d.prt.halters 1 == [h] && haltAct h == r.action && haltTarget h == target) &&
    (List.all [1, 2, 3] fun st => has (dev [(R.RTE_SALVO_STAT_state, [0], st)]) R.RTE_SALVO_STAT_state [0] st) &&
    ({} : Dev).droveRuns 0 && ({} : Dev).island 77 == 0 := by decide

/-- A key of an IPv4 stream, and a device whose table holds an entry with it in the first slot of its first rod. -/
def key0 : Nat := 1 + 2 ^ 64
def tabled (more : Nat) : Dev :=
  let r := ({} : Dev).rodA key0
  (({} : Dev).setEntry (8 * r) (key0 + more)).store (digestAddr r 0) 2 (32768 + fingerprint key0)

theorem wit_RouteTable :
    (match (tabled 0).tableLookup key0 with | .entry i _ => i == 8 * ({} : Dev).rodA key0 | _ => false) &&
    (match ({} : Dev).tableLookup key0 with | .none _ => true | _ => false) &&
    (match ({ ddr := { bad := [digestAddr (({} : Dev).rodA key0) 0 / 64 * 64] } } : Dev).tableLookup key0 with | .ecc _ => true | _ => false) &&
    (({} : Dev).insertSlot key0).isSome &&
    (List.all [0, 2 ^ 326, 2 ^ 320] fun m => let d := (tabled (2 ^ 325 + m)).wr R.RTE_AGE_period_s [] 1
      let e := d.entry (8 * ({} : Dev).rodA key0)
      has d R.RTE_AGE_period_s [] 1 && isStream e && eAgeEn e == 1 && (decide (eHit e = 1) == decide (m = 2 ^ 326)) &&
        (decide (ePendSlot e = 0) == decide (m ≠ 2 ^ 320))) := by decide +kernel

/-- A full rod gives an insert no slot. -/
theorem wit_RouteTable_full : (let d := (List.range 8).foldl (fun (d : Dev) k => (d.setEntry k 1).setEntry (8 * 1 + k) 1) {}
    (List.range 8).all fun k => eType (d.entry k) != 0) := by decide +kernel

theorem wit_FramesThroughTheRouteEngine :
    (let f : IngFrame := { bytes := (frame0 64).bytes, port := 1, sp := 3, ts := 0, tsValid := false, pri := 0, cells := 1 }
     let d : Dev := { (dev [(R.RTE_DEFAULT_kind, [4], 1), (R.RTE_DEFAULT_id, [4], 95)]) with prt := { ingress := [(1, [f])] } }
     tget [] d.prt.ingress 1 == [f] && has d R.RTE_CFG_en [] 0 && has d R.RTE_DEFAULT_kind [4] 1 && has d R.RTE_DEFAULT_id [4] 95) &&
    (let d : Dev := { rte := { inflight := [7] } }
     d.rte.inflight[0]? == some 7 && d.rte.inflight[1]? == none) &&
    (List.all [0, 1] fun e => has (dev [(R.RTE_CFG_en, [], e), (R.SYS_READY_ddr_ecc, [], 1)]) R.RTE_CFG_en [] e &&
      has (dev [(R.SYS_READY_ddr_ecc, [], 1)]) R.SYS_READY_ddr_ecc [] 1 && has {} R.RTE_STATUS_clearing [] 0 && has {} R.SYS_READY_ddr_ecc [] 0) &&
    ({} : Dev).island 78 == 0 && !({} : Dev).locked ⟨100, false⟩ &&
    (let d : Dev := { rte := { learnLog := [(3, 16777215)] } }
     d.rte.learnLog == (3, 16777215) :: []) := by decide

/-- An IPv4 frame over UDP: it has a key once the engine is on. -/
def ipFrame : List Byte := List.replicate 6 255 ++ List.replicate 6 1 ++ [0x08, 0x00, 0x45, 0, 0, 50, 0, 0, 0, 0, 64, 17, 0, 0, 10, 0, 0, 1, 239, 0, 0, 1,
  0, 9, 0x13, 0x8C, 0, 30, 0, 0] ++ List.replicate 26 0

theorem wit_routeKey : let d := dev [(R.RTE_CFG_en, [], 1)]
    (parse ipFrame).ip != 0 && (d.keyOf 1 3 (parse ipFrame)).isSome &&
    (match d.keyOf 1 3 (parse ipFrame) with | some k => d.cachedEntry k == none && !d.cachedNeg k | none => false) &&
    decide (d.rd R.RTE_MISS_OCC_frames [1] < min 65536 (d.rd R.RTE_MISS_LIM_level [6])) &&
    decide (min 65536 ((dev [(R.RTE_MISS_LIM_level, [6], 0)]).rd R.RTE_MISS_LIM_level [6]) ≤ d.rd R.RTE_MISS_OCC_frames [1]) := by decide

/-- A salvo in slot 3 with two changes, the first a modify of entry 0xFFFFFF, at the moment `t` beads. -/
def salvoAt (st t : Nat) (run : SalvoRun) : Dev :=
  { (dev [(R.RTE_SALVO_STAT_state, [3], st), (R.RTE_SALVO_STAT_changes, [3], 2), (R.RTE_SALVO_STAT_t_eff, [3], 5 * 2 ^ 16)]) with
    tim := { now := t * 2 ^ 32 }
    rte := { salvo := tset {} [] 3 run, chgKind := [(3 * 2 ^ 20, 2), (3 * 2 ^ 20 + 1, 3)], chgEntry := [(3 * 2 ^ 20, 0xFFFFFF), (3 * 2 ^ 20 + 1, 0)] } }

theorem wit_SalvoSteps :
    (List.all [0, 2, 3, 4] fun st => List.all [5 * 65536 - 1, 5 * 65536] fun t => has (salvoAt st t {}) R.RTE_SALVO_STAT_state [3] st &&
      (decide ((salvoAt st t {}).teff 3 ≤ (salvoAt st t {}).now) == decide (5 * 65536 ≤ t))) &&
    (let d := salvoAt 3 (5 * 65536) {}
     decide ((tget {} d.rte.salvo 3).swapPos < d.rd R.RTE_SALVO_STAT_changes [3]) && !d.lineBad (recordAddr 3 0) && d.chgEntry 3 0 == 0xFFFFFF && d.chgKind 3 0 == 2) &&
    (let d := salvoAt 3 (10 ^ 9 * 65536) { swapPos := 2 }
     decide (d.teff 3 + d.rd R.RTE_SALVO_CFG_drain_us [] * 65536000 ≤ d.now) && decide (2 ≤ (tget {} d.rte.salvo 3).swapPos)) &&
    (tget {} (salvoAt 3 0 { retiring := true }).rte.salvo 3).retiring := by decide

theorem wit_SwapKeepsTheImageInForce :
    let d := ((salvoAt 3 (5 * 65536) {}).setEntry 0xFFFFFF (key0 + 4 * 2 ^ 320)).setRecord 3 0 (key0 + 2 ^ 323)
    has d R.RTE_SALVO_STAT_state [3] 3 && !(tget {} d.rte.salvo 3).retiring && decide (0 < d.changes 3) && decide (d.teff 3 ≤ d.now) &&
      d.chgEntry 3 0 == 0xFFFFFF && d.chgKind 3 0 == 2 && !d.lineBad (recordAddr 3 0) && ePendSlot (d.entry 0xFFFFFF) == 4 &&
      ePendIdx (d.entry 0xFFFFFF) == 0 && eGen (d.entry 0xFFFFFF) != eGen (d.record 3 0) := by decide +kernel

/-! ### Media streams, the roster -/

/-- A frame store in context 65535: enabled, two slots, mode SYNC when `sync`, one stored frame in slot 1. -/
def storeCfg (sync : Nat) : Nat := 1 + 2 ^ 13 + 2 ^ 230 + sync * 2 ^ 276 + 2 ^ 384 + 60 * 2 ^ 416
def store (sync t : Nat) : Dev :=
  { tim := { now := t * 2 ^ 32 }
    med := { rx := [(65535, (storeCfg sync, 1))], slots := tset {} [] (slotKey 65535 1) { used := true, count := some 1, present := [0], order := 4 },
             cur := [(65535, { boundary := some 0, order := 4, released := 5 })], releases := [{ ctx := 65535, slot := 1 }] } }

theorem wit_ReceiveTimersAndTheStore :
    (let d : Dev := { tim := (atBeads millis).tim, med := { rx := [(65535, (1 + 2 ^ 144, 2))], pair := [(65535, (1 + 2 ^ 96, 2 ^ 34))], legSeen := [(131071, 1)] } }
     (d.rxCtx 65535).2 % 4 == 2 && part (d.rxCtx 65535).1 144 16 == 1 && decide (tget 0 d.med.rxSeen 65535 + millis ≤ d.clock) &&
       tget 0 d.med.legSeen (2 * 65535 + 1) == 0 + 1 && (d.pairCtx 65535).2.testBit (33 + 1) && part (d.pairCtx 65535).1 96 16 == 1 && decide (0 + millis ≤ d.clock)) &&
    (List.all [0, 1] fun sync =>
      let d := store sync 5
      let s := d.slotAt 65535 1
      (d.rxCtx 65535).1.testBit 13 && (d.rxCtx 65535).1.testBit 276 == (sync == 1) && s.used && !s.locked && !s.released && s.count.isSome &&
        decide (mediaTime s.index (storeRate (d.rxCtx 65535).1) + part (d.rxCtx 65535).1 320 64 ≤ d.now) && decide (1 ≤ part (d.rxCtx 65535).1 230 16) &&
        (d.curAt 65535).boundary == some 0 && decide ((syncBoundary (d.rxCtx 65535).1 0).toNat ≤ d.now) && decide (s.order ≤ (d.curAt 65535).order) &&
        (d.curAt 65535).released == s.order + 1 && d.med.releases == [] ++ { ctx := 65535, slot := 1 } :: [] && tget [] d.med.egrIn 0 == []) &&
    decide ((store 1 0).now < (syncBoundary (storeCfg 1) 1).toNat) && (({} : Dev).slotAt 0 0).used == false := by decide +kernel

/-- Egress stream 16383 of port 1: enabled, kind, mode, sub-port 3, queue limit 4; a frame for it waits. -/
def egress (kind mode more st : Nat) (r : EgReq := { stream := 16383, bytes := [], index := some 3 }) : Dev :=
  { (dev [(R.PRT_STATUS_link, [1], 15)]) with
    med := { egr := [(32767, (1 + mode * 2 + kind * 8 + 3 * 128 + 4 * 2 ^ 16 + more, st))], egrIn := [(1, [r])] } }

theorem wit_EgressStreams :
    (List.all [0, 1, 2] fun kind => List.all [0, 1, 2, 3] fun mode =>
      let d := egress kind mode (48000 * 2 ^ 96) 1
      tget [] d.med.egrIn 1 == { stream := 16383, bytes := [], index := some 3 } :: [] && (d.egrCtx 32767).1 % 2 == 1 &&
        part (d.egrCtx 32767).1 3 2 == kind && part (d.egrCtx 32767).1 1 2 == mode && !(d.egrCtx 32767).1.testBit 5 &&
        decide (part (d.egrCtx 32767).2 16 16 < part (d.egrCtx 32767).1 16 16) && hasBit d R.PRT_STATUS_link [1] 3 &&
        !hasBit d R.PRT_STATUS_lfault [1] 3 && !hasBit d R.PRT_STATUS_rfault [1] 3 && decide (tget 0 d.prt.egStreamBytes 1 + 64 ≤ 2 ^ 21 - 2 ^ 16)) &&
    decide (part (egress 0 0 0 (1 + 4 * 2 ^ 16)).med.egr.head!.2.1 16 16 ≤ part (1 + 4 * 2 ^ 16) 16 16) &&
    (let d : Dev := { (egress 1 0 (6 * 2 ^ 160 + 48000 * 2 ^ 96 + 2 ^ 352) 2) with tim := (atBeads (5 + millis)).tim }
     let d := { d with med := { d.med with emptyAt := [(32767, 1)], audNext := [(32767, 1)] } }
     (d.egrCtx 32767).2 % 8 == 2 && part (d.egrCtx 32767).1 352 16 == 1 && part (d.egrCtx 32767).2 16 16 == 0 && tget 0 d.med.emptyAt 32767 == 1 &&
       decide (1 + millis ≤ d.clock + 1) && tget 0 d.med.audNext 32767 == 0 + 1 && part (d.egrCtx 32767).1 160 7 == 6 &&
       (audioElig (d.egrCtx 32767).1 0).isSome && has d R.PWR_STAT_state [] 0) &&
    (let d := dev [(R.MED_TX_HALT_halt, [1, 255], 2 ^ 63)]
     hasBit d R.MED_TX_HALT_halt [1, 255] 63 && !hasBit d R.MED_TX_HALT_halt [1, 255] 62 && d.island 78 == 0) := by decide +kernel

/-- Sub-port 3 of port 1 is up; frames wait for it. -/
def scheduling (egq fifo : List EgFrame) : Dev := { up with prt := { egq := [(1, egq)], fifo := [(7, fifo)] }, tim := (atBeads (2 ^ 30)).tim }
def p7 : EgFrame := { len := 64, src := .sacon, pri := 7, sp := 3 }

theorem wit_RosterAndEgressScheduling :
    (List.all [([], []), ([eg 64 .halter], [eg 65]), ([p7], [eg 64]), ([], [eg 64]), ([eg 64 .herdsman], [])] fun x =>
      let d := scheduling x.1 x.2
      hasBit d R.PRT_STATUS_link [1] 3 && decide (tget 0 d.prt.txEnd 7 + 64 * 65536 * (400 / gbps (d.rd R.PRT_CFG_mode [1])) ≤ d.clock * 400) &&
        (tget [] d.prt.egq 1).filter (fun f => f.sp == 3) == x.1 && tget [] d.prt.fifo 7 == x.2 && decide (tget 0 d.prt.paused (8 * 7 + 7) ≤ d.clock) &&
        !hasBit d R.PRT_HALT_STATE_egr_stop [1] 3) && hasBit (dev [(R.PRT_HALT_STATE_egr_stop, [1], 8)]) R.PRT_HALT_STATE_egr_stop [1] 3 &&
    has (dev [(R.PRT_P7_RATE_mbps, [1], 0)]) R.PRT_P7_RATE_mbps [1] 0 && has (dev [(R.MED_ROSTER_CFG_guard, [1], 0)]) R.MED_ROSTER_CFG_guard [1] 0 &&
    part ((dev [(R.PRT_EGR_WRR_w, [1], 0)]).rd R.PRT_EGR_WRR_w [1]) 0 8 == 0 && !hasBit {} R.PRT_STATUS_link [1] 3 &&
    decide (({} : Dev).clock * 400 < 0 + 64 * 65536 * (400 / gbps 0)) &&
    (let f : EgFrame := { len := 64, src := .stream, pri := 0, sp := 3, stream := 16383, elig := some 0 }
     List.all [0, 2] fun frames =>
      let d : Dev := { (dev [(R.MED_ROSTER_CFG_en, [1], 1), (R.PRT_STATUS_link, [1], 15)]) with
        med := { rosAt := [(1, 1)], rosAct := tset 0 [] 65536 (2 ^ 14 + 16383), egrQ := [(32767, List.replicate frames f)] }
        prt := { fifo := [(7, List.replicate (8 * frames) f)] }, tim := { now := 2 ^ 40 * 2 ^ 32 } }
      tget 0 d.med.rosAt 1 == 0 + 1 && has d R.MED_ROSTER_CFG_en [1] 1 && tget 0 d.med.rosWrap 1 == 0 && (rosterAt d.med.rosAct 1 0).testBit 14 &&
        (tget [] d.med.egrQ 32767).length == frames && !d.controlOnly && (tget [] d.prt.fifo 7).length == 8 * frames &&
        decide (tget 0 d.med.rosPhase 1 % ((slots d 1 * slotWidth d 1 : Nat) : Int) - ((slots d 1 * slotWidth d 1 : Nat) : Int) ≤ d.now)) &&
    (let d : Dev := { (dev [(R.MED_ROSTER_STAT_pending, [1], 1), (R.MED_ROSTER_STAT_copying, [1], 1)]) with med := { rosWrap := [(1, 1)], rosWait := [(97, 65536 * 1 + 65535, 5)] } }
     has d R.MED_ROSTER_STAT_pending [1] 1 && tget 0 d.med.rosWrap 1 == 1 && decide (1 ≤ d.now + 1) && has d R.MED_ROSTER_STAT_copying [1] 1 &&
       d.med.rosWait == [(97, 65536 * 1 + 65535, 5)]) && has {} R.MED_ROSTER_STAT_copying [1] 0 &&
    (List.all [0, 1] fun b => has (dev [(R.MED_ROSTER_SEL_bank, [], b)]) R.MED_ROSTER_SEL_bank [] b) := by decide

theorem wit_ContextCommands : ({} : Dev).island 78 == 0 && has {} R.MED_CTX_CMD_busy [] 0 && !({} : Dev).locked ⟨97, false⟩ &&
    has (dev [(R.MED_CTX_CMD_busy, [], 1)]) R.MED_CTX_CMD_busy [] 1 && !({} : Dev).lineBad (0x1054000000 + 32 * (2 ^ 18 - 1)) &&
    !rxBad (1 &&& ctxMask 0) && rxBad ((1 + 2 ^ 13) &&& ctxMask 0) && !pairBad ((1 + 8 * 4) &&& ctxMask 1) && pairBad 0 && egrBad 1 && !egrBad (1 + 2) := by decide +kernel

/-! ### Drovers and the fabric -/

def rx0 : RxFrame := { frame := { bytes := List.replicate 64 0, port := 0, sp := 0, ts := 0, tsValid := true, pri := 0, cells := 1 } }
def arrives (wins : List Window) (held : Bool) : Dev := { med := { drvIn := [(95, [rx0])] }, drv := { drv := [(95, { wins := wins, held := held })] } }
def full32 : List Window := [{ first := 0, count := 32, took := 32 }]

theorem wit_DroverInputAndQueues :
    (List.all [[], full32] fun l => List.all [false, true] fun h => let d := arrives l h
      arriving d 95 == rx0 :: [] && (d.drover 95).held == h && decide (((d.drover 95).wins.map (·.took)).sum + buffersTaken d 95 rx0 ≤ 32) == l.isEmpty &&
        d.island (64 + 95 / 8) == 0 && has d R.DRV_STATUS_halted [95] 0 && has d R.DRV_RX_CFG_full_act [95] 0 && decide ((d.drover 95).nextBuf < 32)) &&
    has (dev [(R.DRV_STATUS_halted, [95], 1)]) R.DRV_STATUS_halted [95] 1 && has (dev [(R.DRV_RX_CFG_full_act, [95], 1)]) R.DRV_RX_CFG_full_act [95] 1 &&
    (List.all [0, 1, 2] fun dest => let d := ({} : Dev).setSendQ 95 3 [send0 + dest]
      d.sendQ 95 3 == (send0 + dest) :: [] && d.rd R.DRV_STATUS_halted [95] == 0 && !d.pwr.stopped && !(send0 + dest).testBit 6 && d.island 0 == 0) &&
    (let d := ((({} : Dev).setIsland 0 2).wr R.FAB_ISL_STILE_frozen [0] 1)
     hasBit d R.FAB_ISL_STILE_frozen [0] 0 && d.island 0 != 0 && hasBit (d.wr R.DRV_SQ_STAT_frozen [95] 8) R.DRV_SQ_STAT_frozen [95] 3 && !hasBit d R.DRV_SQ_STAT_frozen [95] 3) &&
    (let e : DmaDesc := ⟨cribBase, cribBase + 0x40000 - 64, 64⟩
     let d := ({} : Dev).setDma 95 3 { queue := [e] }
     (d.dmaChan 95 3).queue == e :: [] && decide (e.src + e.len ≤ e.dst) && decide (e.dst + e.len ≤ cribBase + 0x40000) && decide (64 * 0 < e.len)) := by decide

theorem wit_DroverControl :
    (List.all [0, 1] fun h => let d := dev [(R.DRV_STATUS_halted, [95], h)]
      has d R.DRV_STATUS_halted [95] h && d.island 75 == 0 && has d R.DRV_IMEM_LOAD_busy [95] 0 && has d R.DRV_STATUS_quiet [95] 0 &&
        (List.range 8).all fun t => d.thrState 95 t != 2) && (({} : Dev).setIsland 75 1).island 75 != 0 &&
    hasBit (dev [(R.DRV_CFG_thr_en, [95], 128)]) R.DRV_CFG_thr_en [95] 7 &&
    (let d := (dev [(R.DRV_IMEM_LOAD_busy, [95], 1)]).setDrover 95 { fillSrc := 0x42FFFFC0, fillDst := 65536 - 64, fillLen := 64 }
     has d R.DRV_IMEM_LOAD_busy [95] 1 && (d.drover 95).fillLen == 64 && d.nvc.stalled == [] && (List.range 12).all (fun g => d.island (64 + g) == 0)) &&
    (List.all [0, 1, 2] fun act => List.all [1, 2] fun st =>
      let d := (dev [(R.DRV_WDOG_period_us, [95], 1), (R.DRV_WDOG_thr_mask, [95], 128), (R.DRV_WDOG_action, [95], act)] (atBeads 65536000)).setThrState 95 7 st
      has d R.DRV_WDOG_period_us [95] 1 && hasBit d R.DRV_WDOG_thr_mask [95] 7 && d.thrState 95 7 == st && has d R.DRV_WDOG_action [95] act &&
        decide ((d.thr 95 7).kick + 1 * (1000 * 65536) ≤ d.now)) := by decide

/-- Fabric island 63 in USER. -/
def fab63 : Dev := ({} : Dev).setFabIsl 63 { clk := true, reset := false, gran := true, ports := true }
def header (op len addr more : Nat) : Nat := op + len * 2 ^ 48 + addr * 2 ^ 64 + more

theorem wit_FabricMessages : fab63.fabSends 63 1 && !({} : Dev).fabSends 63 1 &&
    (List.range 3).all (fun op => let v := header op 9600 0 (95 * 2 ^ 8)
      v % 16 == op && part v 23 9 == 0 && part v 62 2 == 0 && part v 104 24 == 0 && part v 48 14 == 9600 && part v 8 14 % 128 == 95 && (9600 + 63) / 64 == 150) &&
    (List.all [3, 4, 5] fun op => let v := header op 4096 (0x43000000 - 4096) 0
      v % 16 == op && part v 48 14 == 4096 && part v 64 40 % 64 == 0 && decide (0x40000000 + 11 * 0x400000 ≤ part v 64 40) &&
        decide (part v 64 40 + 4096 ≤ 0x40000000 + 12 * 0x400000)) &&
    (part (header 0 63 0 0) 48 14 == 63 && part (header 6 64 0 (2 ^ 23)) 23 9 == 1) && fab63.island 75 == 0 &&
    (fab63.setIsland 75 2).island 75 != 0 := by decide

theorem wit_FabricControl : (List.all [0, 1, 2, 3, 4] fun st => has (dev [(R.FAB_ISL_STAT_state, [63], st)]) R.FAB_ISL_STAT_state [63] st) &&
    ({} : Dev).island 63 == 0 && (({} : Dev).setIsland 63 1).island 63 != 0 && (fab63.fabIsl 63).ureset == false &&
    ((({} : Dev).setFabIsl 63 { ureset := true }).fabIsl 63).ureset && fab63.fabRuns 63 && (fab63.fabIsl 63).gran && !hasBit fab63 R.FAB_ISL_STILE_frozen [63] 1 &&
    (let d : Dev := { fab63 with med := { fabIn := [(127, [rx0])] }, fab := { fab63.fab with resp := [(127, [{ kind := 0, status := 0, tag := 5 }])] }, tmo := [63] }
     tget [] d.med.fabIn 127 == rx0 :: [] && answers d 63 1 == { kind := 0, status := 0, tag := 5 } :: [] && d.tmo.elem 63 && d.fabRuns 63) &&
    !hasBit fab63 R.FAB_USER_EVT_evt [] 63 && hasBit (dev [(R.FAB_USER_EVT_EN_en, [], 2 ^ 63)]) R.FAB_USER_EVT_EN_en [] 63 := by decide

/-! ### Configuration -/

/-- An image in the clear (Table 09-1): a header, one segment with an empty frames record and the trailer, a zero tag. `flags` bit 1 makes it
partial, for island 62 and all its sections. -/
def image (flags : Nat) : List Byte :=
  let part := flags / 2 % 2
  let head := leBytes 4 0x4D495244 ++ leBytes 2 2 ++ leBytes 2 0x44D9 ++ leBytes 2 0x9640 ++ leBytes 1 0 ++ leBytes 1 255 ++ leBytes 4 flags ++
    leBytes 4 4192 ++ leBytes 2 1 ++ leBytes 1 (62 * part) ++ leBytes 1 (255 * part) ++ leBytes 8 (if part = 1 then 0 else 2 ^ 62) ++ leBytes 8 0 ++ leBytes 4 0
  head ++ List.replicate (0x180 - head.length) 0 ++ leBytes 4 4096 ++ leBytes 4 80 ++ List.replicate (4096 - 0x188) 0 ++
    leBytes 4 1 ++ leBytes 4 0 ++ leBytes 8 (62 * 4096) ++ leBytes 4 7 ++ leBytes 4 48 ++ List.replicate (8 + 48 + 16) 0

/-- A boot load in progress from the slave port, with the whole image or 4,096 zero bytes taken. -/
def loading (good fb : Bool) : Dev :=
  { (dev [(R.CFG_STATUS_state, [], 1), (R.CFG_STATUS_src, [], 3)]) with
    cfg := { load := 1, fb := fb, slave := { got := if good then (image 0).reverse else List.replicate 4096 0 } } }

theorem wit_LoadsAndStartUp_image : (match (loading true false).loadNow none with
      | some (_, r) => r.code == 0 && r.recs.length == 2 && r.recs.map (·.type) == [1, 7]
      | none => false) && (loading true false).cfg.load == 1 := by decide +kernel

theorem wit_LoadsAndStartUp_bad : List.all [true, false] fun fb => (match (loading false fb).loadNow none with
      | some (_, r) => r.code == 2
      | none => false) && (loading false fb).cfg.load == 1 && (loading false fb).cfg.fb == fb && !(loading false fb).cfg.golden := by decide +kernel

theorem wit_LoadsAndStartUp :
    (List.all [1, 2, 3, 4] fun st => List.all [0, 3, 4] fun src => let d := dev [(R.CFG_STATUS_state, [], st), (R.CFG_STATUS_src, [], src)]
      unitState d == st && has d R.CFG_STATUS_src [] src) &&
    (let d : Dev := { (dev [(R.CFG_STATUS_state, [], 1), (R.CFG_STATUS_src, [], 4)] (atBeads (100000 * millis))) with
        cfg := { load := 1, slave := { ready := true, synced := true, got := List.replicate 20 0 } } }
     d.cfg.slave.got.length == 20 && decide (0 + max 1 (d.rd R.CFG_SLV_TMO_tmo_ms) * millis ≤ d.clock) && d.cfg.slave.nib == none) &&
    (let d : Dev := { (dev [(R.CFG_STATUS_state, [], 2), (R.CFG_STATUS_bell, [], 1), (R.CFG_PHASE_phase, [], 1)] (atBeads (10 ^ 9 * 65536))) with cfg := { load := 1, flockLow := false } }
     unitState d == 2 && !d.cfg.flockLow && !d.cfg.seenHigh && d.cfg.load != 3 && phaseAt d 1 == 1 && phaseAt d 2 == 1 &&
       decide (1 + d.rd R.CFG_PHASE_bell_wait * 655360 ≤ d.clock + 1)) &&
    (let d : Dev := { (dev [(R.CFG_STATUS_state, [], 2), (R.CFG_STATUS_phase, [], 7)] (atBeads (10 ^ 9 * 65536))) with cfg := { load := 1, seenAt := 1, seenHigh := true, pacedAt := 1, mask := 2 ^ 63 } }
     has d R.CFG_STATUS_phase [] 7 && decide (1 + phaseAt d 8 * 655360 ≤ d.clock + 1) && d.cfg.mask.testBit 63) &&
    ({} : Dev).island 102 == 0 && !({} : Dev).locked ⟨0, false⟩ := by decide +kernel

/-- Slot 3 stages from the last `n` bytes of DDR4, where the partial image stands when it fits. -/
def staging (n : Nat) : Dev :=
  let d := dev [(R.CFG_PR_STAT_state, [3], 1), (R.DDR_STATUS_chan_gib, [], 16)]
  let a := d.ddrEnd - n
  { d with cfg := { slots := [(3, { from_ := a })] }
           mem := if n = 64 then [] else ((List.range 4192).zip (image 2)).filterMap fun p => if p.2 = 0 then none else some (a + p.1, p.2) }

theorem wit_PartialReconfiguration :
    (List.all [0, 1, 2, 3, 4, 5, 6, 7] fun st => let d : Dev := { (dev [(R.CFG_PR_STAT_state, [3], st), (R.SYS_READY_ddr_ecc, [], st % 2)]) with cfg := { slots := [(3, { source := 63, target := 62, from_ := 0x1060000000 })] } }
      has d R.CFG_PR_STAT_state [3] st && has d R.SYS_READY_ddr_ecc [] (st % 2) && d.island 102 == 0 && (d.prSlot 3).source == 63 && (d.prSlot 3).target == 62 &&
        (d.prSlot 3).base == none && decide ((d.prSlot 3).startAt ≤ d.now)) &&
    (List.all [64, 4192] fun n => let d := staging n
      let r := d.evalLoad true (d.stageBytes (d.prSlot 3)).1 (d.stageBytes (d.prSlot 3)).2 ((d.stageBadLine (d.prSlot 3).from_).map fun o => (o, 5)) true
      has d R.CFG_PR_STAT_state [3] 1 && (d.prSlot 3).base == none && r.code == (if n = 64 then 7 else 0)) := by decide +kernel

theorem wit_ReadbackAndShepherd : ({} : Dev).bst.slices == [] && ({} : Dev).island 102 == 0 && !({} : Dev).mayReadBack &&
    ({ lcs := { session := some { rights := 2 ^ 32 - 1 } } } : Dev).lcs.session.isSome &&
    (List.all [0, 2] fun st => has (dev [(R.FAB_ISL_STAT_state, [63], st)]) R.FAB_ISL_STAT_state [63] st) &&
    (let d : Dev := { (dev [(R.CFG_STATUS_state, [], 3), (R.CFG_SCRUB_CFG_en, [], 1), (R.FAB_ISL_STAT_state, [0], 2)]) with cfg := { shep := true, src := [(0, some ⟨0x10000000, 0, 0⟩)], mask := 1 } }
     d.cfg.shep && has d R.CFG_SCRUB_CFG_en [] 1 && d.cfg.shepWait == none && unitState d == 3 && (d.shepFrame 0).isSome && (tget none d.cfg.src 0).isSome) &&
    (let d : Dev := { cfg := { shepWait := some 0, src := [(0, some ⟨0x10000000, 0, 0⟩)] } }
     d.cfg.shepWait == some 0 && !d.nvBusy (bankOf 0x10000000) && ({} : NvFind).first.isSome) := by decide +kernel

/-! ### The NV array and DDR4 -/

/-- Input 100 in state `st` of a sequence in bank 3, with or without a running operation. -/
def nvSeq (st busy : Nat) : Dev := dev [(R.NVC_REQ_SEQ_state, [100], st), (R.NVC_REQ_SEQ_bank, [100], 3), (R.NVC_BANK_STAT_status, [3], busy)]
  { nvc := { rowSet := [(3, true)] } }

theorem wit_NvSequences :
    (List.all [0, 1, 2, 3, 4, 5, 6] fun st => List.all [0, 1] fun busy => let d := nvSeq st busy
      has d R.NVC_REQ_SEQ_state [100] st && has d R.NVC_REQ_SEQ_bank [100] 3 && d.island 102 == 0 && bankStatus d 3 % 2 == busy && tget false d.nvc.rowSet 3 &&
        has d R.NVC_REQ_SEQ_rmode [100] 0 && has d R.NVC_BUF_OWN_valid [3] 0 && decide (d.rd R.NVC_BUF_OWN_row [3] < 2 ^ 13) && tget 0 d.nvc.statNext 100 == 0) &&
    (bankIn (bankAt 3 + 0xAAA8) == 3 && bankIn (bankAt 3 + 0x5554) == 3 && decide (bankAt 3 + 0xAAA8 < 0x2F000000) && bankIn 0x2EFFFFC0 == 3) &&
    (let d := dev [(R.NVC_BUF_OWN_valid, [3], 1), (R.NVC_BUF_OWN_owner, [3], 5)]
     has d R.NVC_BUF_OWN_valid [3] 1 && has d R.NVC_BUF_OWN_owner [3] 5) && (({} : Dev).setIsland 102 1).island 102 != 0 := by decide

theorem wit_NvOperations :
    (let d := dev [(R.NVC_REQ_SEQ_state, [100], 3)] (atBeads (10 ^ 6 * 65536000))
     has d R.NVC_REQ_SEQ_state [100] 3 && decide (0 + max 1 (d.rd R.NVC_CFG_seq_tmo_us) * (1000 * 65536) ≤ d.clock)) &&
    (({ nvc := { weak := [2 ^ 19 - 1] } } : Dev).nvc.weak == (2 ^ 19 - 1) :: []) &&
    (List.all [0, 1] fun b => has (dev [(R.NVC_BOOT_CMD_busy, [], b)]) R.NVC_BOOT_CMD_busy [] b) &&
    (({ nvc := { update := some (5, 97) } } : Dev).nvc.update == some (5, 97)) &&
    (List.all [true, false] fun prot => List.all [1, 2] fun kind => let op : NvOp := { kind := kind, unit := 511, prot := prot, buf := [(16383, 0)] }
      let d : Dev := { nvc := { op := [(3, some op)] } }
      tget none d.nvc.op 3 == some op && d.nvc.stalled == [] && op.buf.any (fun e => e.1 / 1024 == 15) && d.byte (bankAt 3 + 2 ^ 14 * 511 + 15 * 1024) == 0xFF) &&
    ((({} : Dev).setByte (bankAt 3 + 2 ^ 14 * 511 + 16383) 0x12).byte (bankAt 3 + 2 ^ 14 * 511 + 16383) != 0xFF) := by decide

theorem wit_DdrMemory :
    (List.all [0, 1, 2, 3, 4, 5] fun st => let d := dev [(R.DDR_CH_STAT_state, [11], st), (R.SYS_READY_ddr_ecc, [], 1), (R.DDR_STATUS_chan_gib, [], 16)]
      channelState d 11 == st && decide (configured d ≤ 16) && decide (d.ddrEnd ≤ 2 ^ 38) && d.island 106 == 0 && d.island (79 + 11) == 0 && !d.ddr.inited &&
        has d R.DDR_STATUS_failed [] 0 && has d R.SYS_READY_ddr_trained [] 0) &&
    ({ ddr := { inited := true } } : Dev).ddr.inited &&
    (List.all [0x1055800000, 0x1055800000 + 511 * 64] fun a => let d := dev ((R.SYS_READY_ddr_ecc, [], 1) :: (R.DDR_STATUS_chan_gib, [], 16) :: (List.range 12).map fun c => (R.DDR_CH_STAT_state, [c], 3))
      decide (a + 64 ≤ d.ddrEnd) && channelState d (channelOf a) == 3 && d.island (79 + channelOf a) == 0 && has d R.SYS_READY_ddr_ecc [] 1) &&
    (let d : Dev := { (dev [(R.DDR_SR_idle_us, [], 1), (R.DDR_CH_STAT_state, [11], 3), (R.DDR_SCRUB_period_h, [], 1), (R.SYS_READY_ddr_ecc, [], 1)] (atBeads (10 ^ 9))) with ddr := { scrubAt := [(11, 64)] } }
     decide (0 + 1 * (1000 * 65536) ≤ d.clock + 1) && decide (0 + 7800 * 65536 ≤ d.clock) && tget 0 d.ddr.scrubAt 11 % 64 == 0 && has d R.DDR_SCRUB_period_h [] 1) &&
    (let x : DdrAcc := { inp := 5, write := false, addr := 0x1055800000, len := 64 }
     let d : Dev := { (dev [(R.DDR_CH_STAT_state, [channelOf x.addr], 4)]) with ddr := { waiting := [(channelOf x.addr, [x])] } }
     channelState d (channelOf x.addr) == 4 && tget [] d.ddr.waiting (channelOf x.addr) == [x]) := by decide

/-! ### The Sacon engine, rings, descriptors, semaphores, events -/

/-- The fields of a connection request: magic and controller in the first bytes, queue pair `i`. -/
def reqWord (c i : Nat) : BitVec 32 := BitVec.ofNat 32 (1 + c * 256 + (if i = 15 then 512 else i * 2 ^ 16))

theorem wit_SaconDiscoveryAndConnections : ({} : Dev).island 103 == 0 && (({} : Dev).setIsland 103 1).island 103 != 0 &&
    (let d := dev [(R.SAC_CFG_disc_en, [], 1), (R.SAC_NET_ipv4, [1], 0x0A000001), (R.SAC_NET_ipv6, [1], 2 ^ 100)]
     has d R.SAC_CFG_disc_en [] 1 && d.rd R.SAC_NET_ipv4 [1] == (0x0A000001#32).toNat && d.rd R.SAC_NET_ipv6 [1] == 2 ^ 100) &&
    (List.all [0, 14, 15] fun i => let pd := reqWord 1 i
      pd.toNat % 256 == 1 && pd.toNat / 2 ^ 8 % 2 == 1 && (if pd.getLsbD 9 then 15 else pd.toNat / 2 ^ 16 % 2 ^ 8) == i && pd.toNat / 2 ^ 24 == 0 && pd.toNat / 2 ^ 10 % 2 ^ 6 == 0) &&
    (List.range 5).all (fun st => let d := dev [(R.SAC_QP_state, [1, 15], st)]
      qpState d 1 15 == st && has d R.SAC_PEER_en [1] 0 && tget 0 d.sac.bind 1 == 0 && (List.range 15).all fun j => qpState d 1 j != 2) &&
    (let d : Dev := { (dev [(R.SAC_QP_state, [1, 3], 2)]) with sac := { qp := [(19, { limit := 3, tCut := 1, rate := ⟨100, 0⟩ })] } }
     (d.qp 1 3).limit == 3 && decide ((2 : BitVec 3).toNat < (d.qp 1 3).limit) && decide (d.clock < (d.qp 1 3).tCut - 1 + d.rd R.SAC_CFG_cnp_us * 65536000)) &&
    (let d := dev [(R.SAC_PEER_en, [1], 1), (R.SAC_PEER_prefix, [1], 24), (R.SAC_PEER_addr, [1], 0x0A000000)]
     has d R.SAC_PEER_en [1] 1 && has d R.SAC_PEER_ipv6 [1] 0 && 0x0A000017 / 2 ^ (32 - d.rd R.SAC_PEER_prefix [1]) == d.rd R.SAC_PEER_addr [1] % 2 ^ 32 / 2 ^ (32 - d.rd R.SAC_PEER_prefix [1])) := by
  decide +kernel

/-- Queue pair 14 of controller 1 in RTS. -/
def rts : Dev := { (dev [(R.SAC_QP_state, [1, 14], 2)]) with sac := { qp := [(30, { setupKey := 7, doorKey := 9 })] } }

theorem wit_SaconAccessAndDoorbells : qpState rts 1 14 == 2 && (rts.qp 1 14).setupKey == 7 && (rts.qp 1 14).doorKey == 9 && rts.island 103 == 0 && (hitsOf 0xEFFFF8).length == 0 &&
    (hitsOf 0x10A80).length == 1 && (leBytes 8 5).length == 8 && decide (0xF00000 + 0x1000 * 1 ≤ 0xF000F8 + 0x1000) &&
    (List.range 5).all (fun st => List.all [0, 64, 65] fun n => let d := dev [(R.SAC_RING_state, [1, 7], st), (R.SAC_RING_size_log, [1, 7], 6), (R.SAC_RING_dev_idx, [1, 7], 2 ^ 32 - 1)]
      has d R.SAC_RING_state [1, 7] st && decide (d.rd R.SAC_RING_dev_idx [1, 7] < 2 ^ 32) && ((BitVec.ofNat 32 (2 ^ 32 - 1 + n)) - BitVec.ofNat 32 (d.rd R.SAC_RING_dev_idx [1, 7])).toNat == n) &&
    (let d : Dev := { (dev [(R.SAC_RING_state, [1, 7], 3), (R.SAC_RING_cpl_ring, [1, 7], 7), (R.SAC_RING_en, [1, 15], 1), (R.SAC_RING_dev_idx, [1, 15], 64), (R.SAC_RING_state, [1, 15], 1)]) with
        sac := { ring := [(39, { fetched := [0], full := true })] } }
     (d.ring 1 7).full && (d.ring 1 7).cur == none && has d R.SAC_RING_state [1, 7] 3 && has d R.SAC_RING_cpl_ring [1, 7] 7 && has d R.SAC_RING_en [1, 15] 1 &&
       decide (((1 : BitVec 32) - BitVec.ofNat 32 (d.rd R.SAC_RING_dev_idx [1, 15])).toInt ≤ 0)) &&
    (let d := dev [(R.SAC_CTRL_hb_ms, [1], 1), (R.SAC_CTRL_rel_on_loss, [1], 1)] (atBeads millis)
     has d R.SAC_CTRL_hb_ms [1] 1 && decide (tget 0 d.sac.hbFrom 1 + 1 * millis ≤ d.clock) && !tget false d.sac.gone 1) := by decide +kernel

/-- Ring 7 of controller 1 is about to execute descriptor `x`; its completion ring is the last one. -/
def ring7 (x : Nat) (l : List (Field × List Nat × Nat) := []) (d : Dev := {}) : Dev :=
  (dev ([(R.SAC_RING_state, [1, 7], 2), (R.SAC_RING_cpl_ring, [1, 7], 7), (R.SAC_RING_en, [1, 15], 1), (R.SAC_RING_state, [1, 15], 1), (R.SAC_RING_dev_idx, [1, 7], 1),
    (R.SAC_RING_qp, [1, 7], 3), (R.SAC_QP_state, [1, 3], 2)] ++ l) d).setRing 1 7 { fetched := [x] }
/-- The conditions of `executes`, as a check. -/
def canExecute (x : Nat) (l : List (Field × List Nat × Nat) := []) (d : Dev := {}) : Bool :=
  let d := ring7 x l d
  !d.pwr.off && d.island 103 == 0 && ringSt d 1 7 == 2 && d.ring 1 7 == { fetched := [x] } && decide (devIx d 1 7 < 2 ^ 32) && d.rd R.SAC_RING_en [1, cplOf d 1 7] != 0 &&
    ringSt d 1 15 != 4 && decide ((BitVec.ofNat 32 (devIx d 1 15) - BitVec.ofNat 32 (hostIx d 1 15)).toNat < 2 ^ sizeLog d 1 15) && d.rd R.SAC_QP_state [1, 3] == 2
/-- The bits of a descriptor outside the common fields and `args` are zero, as a check. -/
def cleanOf (x args : Nat) : Bool := (List.range 512).all fun b => !x.testBit b || decide (b < 9) || (decide (32 ≤ b) && decide (b < 64)) || args.testBit b

/-- A ring whose pair is not the only one of its controller in RTS, before and after it fails. -/
theorem wit_another : (let d := ring7 0x10 [(R.SAC_QP_state, [1, 4], 2)]
    has d R.SAC_QP_state [1, 4] 2 && has d R.SAC_RING_qp [1, 7] 3 && (d.ring 1 (cplOf d 1 7)).fetched == [] && canExecute 0x10 [(R.SAC_QP_state, [1, 4], 2)]) := by decide +kernel

theorem wit_RingsAndDescriptors : (List.all opcodes fun op => canExecute op && cleanOf (op + 5 * 2 ^ 32) 0) && canExecute 0x3F && !cleanOf (2 ^ 9) 0 && !opcodes.elem 0x3F &&
    (let d := (ring7 0).setRing 1 7 {}
     ringSt d 1 7 == 2 && min 32 (BitVec.ofNat 32 (hostIx (d.wr R.SAC_RING_host_idx [1, 7] 40) 1 7) - BitVec.ofNat 32 (devIx d 1 7)).toNat == 32) &&
    has (dev [(R.SAC_RING_en, [1, 15], 0)]) R.SAC_RING_en [1, cplOf (ring7 0) 1 7] 0 && (List.range 5).all (fun st => has (dev [(R.SAC_RING_state, [1, 17], st)]) R.SAC_RING_state [1, 17] st) := by
  decide +kernel

theorem wit_DescriptorAccesses :
    (let off := 0x10A80 * 2 ^ 64
     canExecute (1 + off) && cleanOf (1 + off) (argBits 64 24) && canExecute (2 + off + 255 * 2 ^ 96) && cleanOf (2 + off + 255 * 2 ^ 96) (argBits 64 24 + argBits 96 8 + argBits 128 64) &&
       canExecute (4 + off + 10000000 * 2 ^ 256) && (1 + off + 4 * 2 ^ 64) / 2 ^ 64 % 2 ^ 24 % 8 != 0) &&
    (let x := 0x10 + 0x42FFFFC0 * 2 ^ 64 + 64 * 2 ^ 128
     canExecute x && cleanOf x (argBits 64 40 + argBits 128 25 + argBits 192 96) && x / 2 ^ 128 % 2 ^ 25 == 64 && decide (0x40000000 + 11 * 0x400000 ≤ x / 2 ^ 64 % 2 ^ 40)) &&
    (let x := 0x11 + 0x42FFFFC0 * 2 ^ 64 + 24 * 2 ^ 128 + 2 ^ 288
     canExecute x && x.testBit 288 && cleanOf x (argBits 64 40 + argBits 128 25 + argBits 192 97 + argBits 320 192)) &&
    (List.all [0, 5, 65536000] fun t => let x := 4 + 0x10A80 * 2 ^ 64 + (2 ^ 64 - 1) * 2 ^ 192 + t / 65536000 * 2 ^ 128
      let d := (ring7 0 [(R.SAC_RING_state, [1, 7], 3)] (atBeads 5)).setRing 1 7 { cur := some { desc := x, index := 0, deadline := if t = 5 then 6 else 0 } }
      ringSt d 1 7 == 3 && (d.ring 1 7).cur.any (fun c => c.desc % 256 == 4) && (d.rd R.TIM_SIN0_TOD_sec == 0) == ({} : Dev).regs.isEmpty) := by decide +kernel

/-- A good stream image for `key0` with sid 5, and a good channel image. -/
def img0 : Nat := key0 + 5 * 2 ^ 379
theorem wit_DescriptorRoutes :
    (List.all [0x20, 0x21, 0x22, 0x23, 0x24, 0x25, 0x28, 0x29, 0x2A] fun op => canExecute op [(R.SYS_READY_ddr_ecc, [], 1)] && canExecute op [(R.RTE_STATUS_clearing, [], 1)]) &&
    (ring7 0x20).island 78 == 0 && has (ring7 0x20 [(R.SYS_READY_ddr_ecc, [], 1)]) R.SYS_READY_ddr_ecc [] 1 && has (ring7 0x20) R.RTE_STATUS_clearing [] 0 &&
    (List.all [img0, 3] fun w => goodStream w == (w == img0)) && (List.any [0x0C, 0x10C, 0] goodChan) && !goodChan 3 &&
    (match ({} : Dev).tableLookup (eKey img0) with | .none _ => true | _ => false) && (({} : Dev).insertSlot (eKey img0)).isSome && tget 0 ({} : Dev).rte.sids (eSid img0) == 0 &&
    (match (tabled 0).tableLookup (eKey img0) with | .entry i _ => ePendSlot ((tabled 0).entry i) == 0 | _ => false) &&
    (List.range 5).all (fun st => has (ring7 0x29 [(R.RTE_SALVO_STAT_state, [3], st)]) R.RTE_SALVO_STAT_state [3] st) := by decide +kernel

theorem wit_SemaphoresAndWaits :
    (List.all [0x30, 0x31, 0x32, 0x38] fun op => canExecute (op + 7 * 2 ^ 64)) && cleanOf (0x30 + 7 * 2 ^ 64 + 5 * 2 ^ 96) (argBits 64 8 + argBits 96 32) && ({} : Dev).island 105 == 0 &&
    (List.all [98, 9] fun n => let d := dev [(R.SEM_STATE_held, [255], 1), (R.SEM_STATE_owner, [255], n)] (ring7 0x30)
      has d R.SEM_STATE_held [255] 1 && has d R.SEM_STATE_owner [255] n && !hasBit d R.SEM_STATE_waiters [255] 98) &&
    (let d := dev [(R.SEM_CFG_search_en, [], 1), (R.SEM_STATE_held, [0], 1), (R.SEM_STATE_owner, [0], 100), (R.SEM_STATE_held, [255], 1), (R.SEM_STATE_owner, [255], 3),
        (R.SEM_STATE_waiters, [0], 2 ^ 3), (R.SEM_STATE_waiters, [255], 2 ^ 100)]
     hasBit d R.SEM_STATE_waiters [0] 3 && hasBit d R.SEM_STATE_waiters [255] 100 && has d R.SEM_STATE_owner [0] 100 && has d R.SEM_STATE_owner [255] 3 &&
       (List.range 256).all fun s => (List.range 101).all fun n => hasBit d R.SEM_STATE_waiters [s] n == ((s == 0 && n == 3) || (s == 255 && n == 100))) &&
    (List.all [0, 5] fun thr => has (dev [(R.SEM_ARB_THR_thr, [2], thr)]) R.SEM_ARB_THR_thr [2] thr) &&
    (List.all [0x30, 0x38] fun op => let d := (ring7 0 [(R.SAC_RING_state, [1, 7], 3)] (atBeads 9)).setRing 1 7 { cur := some { desc := op, index := 0, deadline := 10, asked := true } }
      ringSt d 1 7 == 3 && (d.ring 1 7).cur.any (fun c => c.desc % 256 == op && decide (c.deadline - 1 ≤ d.clock))) := by decide +kernel

/-- A queue of raises and where one of source 5 joins it. -/
theorem wit_Raises : (List.all [([3], [9, 7]), ([], [9]), ([9, 5], []), ([], [])] fun p =>
    let at_ := fun (s : Nat) => ({ src := s, info := 0, time := 4 } : EvRec)
    queueRaise (at_ 5) (p.1.map at_ ++ p.2.map at_) == p.1.map at_ ++ at_ 5 :: p.2.map at_ && p.2.all (5 < ·) && p.1.getLast?.all (· ≤ 5)) := by decide

theorem wit_Events : evtDefaultH 3 != 0 && (List.range 320).any (fun s => evtDefaultH s == 0) && has {} R.EVT_CFG_en [] (({} : Dev).rd R.EVT_CFG_en) &&
    has (dev [(R.EVT_CFG_en, [], 1)]) R.EVT_CFG_en [] 1 && ({} : Dev).island 105 != 2 && (({} : Dev).setIsland 105 2).island 105 == 2 &&
    (List.all [0, 1] fun win => List.all [none, some 5] fun pre => let x : EvRec := { src := 3, info := 0xFFFF, time := 7, pre := pre }
      let d : Dev := { (dev [(R.EVT_SRC_ring_b1, [3], 1), (R.EVT_SRC_ring_a0, [3], 0), (R.EVT_SRC_ring_a1, [3], 0), (R.EVT_SRC_ring_b0, [3], 0), (R.EVT_SRC_mring, [3], 0),
          (R.SAC_RING_en, [1, 17], 1), (R.SAC_RING_state, [1, 17], 1), (R.SAC_QP_state, [1, 0], 2)]) with evt := { queue := [x], window := tset 0 [] 3 win, held := [(3, some x)] } }
      d.evt.queue == x :: [] && tget 0 d.evt.window 3 == win && d.evt.latched == [] && tget none d.evt.held 3 == some x && d.rd R.EVT_SRC_ring_b1 [3] != 0 && d.rd R.EVT_SRC_ring_a0 [3] == 0 &&
        d.rd R.SAC_RING_en [1, 17] != 0 && qpState d 1 (d.rd R.SAC_RING_qp [1, 17]) == 2 && decide (0 + 2 ≤ 2 ^ sizeLog d 1 17)) &&
    (let d := dev [(R.EVT_MRING_en, [], 1), (R.EVT_SRC_mring, [3], 1), (R.EVT_MRING_produced, [], 64), (R.EVT_MRING_size_log, [], 6)]
     has d R.EVT_MRING_en [] 1 && has d R.EVT_SRC_mring [3] 1 && !decide ((BitVec.ofNat 32 (d.rd R.EVT_MRING_produced) - BitVec.ofNat 32 (d.rd R.EVT_MRING_CONS_consumed)).toNat < 2 ^ 6)) &&
    ({ evt := { latched := [{ src := 3, info := 0, time := 0 }] } } : Dev).evt.latched == { src := 3, info := 0, time := 0 } :: [] := by decide +kernel

/-! ### Power, the Herdsman, the Tally, life cycle, self-test -/

/-- Firmware slot `k` holds a header of version `v` and an empty body. -/
def withFirmware (k v : Nat) (d : Dev := {}) : Dev := d.store (fwAddr k) 256 (0x46445248 + v * 2 ^ 32)

theorem wit_ResetAndStartUp : ({} : Dev).pwr.off == false && !({} : Dev).pwr.started && ({ pwr := { started := true } } : Dev).pwr.started &&
    has {} R.LCS_STATE_pending [] 0 && has (dev [(R.LCS_STATE_pending, [], 1)]) R.LCS_STATE_pending [] 1 &&
    (List.all [(0, 0), (1, 0), (1, 1)] fun x => let d := dev [(R.SYS_READY_repair, [], 1), (R.PWR_STAT_state, [], x.1), (R.PWR_STAT_exiting, [], x.2)]
      has d R.SYS_READY_repair [] 1 && has d R.SYS_READY_nv [] 0 && has d R.PWR_STAT_state [] x.1 && has d R.PWR_STAT_exiting [] x.2 && unitState d == 0) &&
    (List.all [1, 2] fun m => has (dev [(R.CFG_STATUS_mode, [], m)]) R.CFG_STATUS_mode [] m) &&
    ({} : Dev).fwChoice == none := by decide +kernel

theorem wit_ResetAndStartUp_exit : List.all [true, false] fun good => let d : Dev := { loading good false with cfg := { (loading good false).cfg with load := 3 } }
    d.cfg.load == 3 && match d.loadNow none with
      | some (_, r) => r.code == (if good then 0 else 2)
      | none => false := by decide +kernel

/-- A device in power state `st`, with an entry towards `k` at a stage or without one. -/
def powered (st : Nat) (entry : Option (Nat × Nat) := none) (fires : List (Nat × Nat × Nat) := []) (latch : Option (Nat × Nat × Nat) := none) : Dev :=
  { (dev [(R.PWR_STAT_state, [], st), (R.PWR_STAT_entering, [], if entry.isSome then 1 else 0), (R.PWR_WAKE_EN_en, [], 0xFFF)]) with
    pwr := { started := true, target := (entry.map Prod.fst).getD 0, stage := (entry.map Prod.snd).getD 0, fired := fires, latched := latch } }

theorem wit_PowerStates :
    (List.range 4).all (fun st => has (powered st) R.PWR_STAT_state [] st && has (powered st) R.PWR_STAT_entering [] 0 && has (powered st) R.PWR_STAT_exiting [] 0 && unitState (powered st) == 0) &&
    (List.all [2, 3, 5] fun g => (List.range 3).all fun k => let d := powered 0 (some (k + 1, g))
      has d R.PWR_STAT_entering [] 1 && d.pwr.stage == g && d.pwr.target == k + 1 && d.pwr.latched == none && !d.nvAnyBusy) &&
    (List.range 4).all (fun j => has {} R.CFG_PR_STAT_state [j] 0 && has (dev [(R.CFG_PR_STAT_state, [j], 3)]) R.CFG_PR_STAT_state [j] 3 &&
      has (dev [(R.CFG_PR_STAT_state, [j], 1)]) R.CFG_PR_STAT_state [j] 1 && has (dev [(R.RTE_SALVO_STAT_state, [j], 4)]) R.RTE_SALVO_STAT_state [j] 4) &&
    has (dev [(R.CFG_STATUS_src, [], 4)]) R.CFG_STATUS_src [] 4 && has (dev [(R.PWR_STAT_exiting, [], 1)]) R.PWR_STAT_exiting [] 1 &&
    (List.all [0, 5, 6] fun src => hasBit (powered 3) R.PWR_WAKE_EN_en [] src && (powered 3).pwr.fired == [] && !hasBit {} R.PWR_WAKE_EN_en [] 5) &&
    (powered 2 none [(0, 0, 5)]).pwr.fired == [(0, 0, 5)] && (powered 0 (some (2, 3)) [(5, 0, 5)]).pwr.stage == 3 &&
    (powered 0 (some (2, 5)) [(5, 0, 5)] (some (0, 0, 1))).pwr.latched == some (0, 0, 1) &&
    (let d := dev [(R.PWR_WAKE_AT_arm, [], 1), (R.PWR_WAKE_AT_at, [], 0)] (powered 1)
     has d R.PWR_WAKE_AT_arm [] 1 && decide (rawToBeads (d.rd R.PWR_WAKE_AT_at) ≤ d.now) && hasBit d R.PWR_WAKE_EN_en [] 5) &&
    (List.all [(60 : BitVec 8), 105, 127] fun t => List.all [t, 0xF0] fun x => decide (x.toInt ≤ t.toInt)) && ({} : Dev).rdS R.PWR_THERM_warn_c == 95 && ({} : Dev).rdS R.PWR_THERM_crit_c == 105 := by
  decide

/-- The Herdsman's firmware runs. -/
def herding (l : List (Field × List Nat × Nat) := []) (d : Dev := {}) : Dev := dev ((R.HRD_STAT_state, [], 1) :: l) d

/-- Of ResetAndStartUp too: the firmware's choice with one valid slot. -/
theorem wit_HerdsmanFirmware_slots : let d : Dev := { herding [(R.HRD_STAT_slot, [], 0), (R.SYS_READY_repair, [], 1)] (withFirmware 1 8) with hrd := { restarts := [1, 1] } }
     2 ≤ (d.hrd.restarts.filter fun t => decide (d.clock < t + second)).length ∧ d.fwChoice = some 1 ∧ d.rd R.SYS_READY_repair = 1 := by decide +kernel

theorem wit_HerdsmanFirmware : has (herding []) R.HRD_STAT_state [] 1 && (herding []).nvc.stalled == [] && has (dev [(R.HRD_STAT_state, [], 3)]) R.HRD_STAT_state [] 3 &&
    (let d := herding [(R.HRD_WDOG_period_ms, [], 10)] (atBeads (10 * millis))
     has d R.HRD_WDOG_period_ms [] 10 && decide (d.hrd.kick + 10 * 65536000000 ≤ d.clock)) &&
    (List.all [0, 1] fun b => let d := herding [(R.NVC_BANK_STAT_status, [3], b)]
      (0x2EFFFFC0 - 0x10000000) / 0x8000000 == 3 && (0x2EFFFFC0 + 64 - 0x10000000) / 0x8000000 == 3 && hasBit d R.NVC_BANK_STAT_status [3] 0 == (b == 1) && d.island 102 == 0) &&
    ({ first := none } : NvFind).retry == none && ({} : NvFind).first != none && ({ herding [] with hrd := { trap := true } } : Dev).hrd.trap &&
    hasBit (herding [(R.HRD_PIN_pin, [], 1)]) R.HRD_PIN_pin [] 0 && hasBit (herding [(R.HRD_ISL_PIN_pin, [], 2 ^ 75)]) R.HRD_ISL_PIN_pin [] 75 && !hasBit (herding []) R.HRD_ISL_PIN_pin [] 75 &&
    has (herding []) R.HRD_ISL_OP_trim [75] 0 && ({} : Dev).island 75 == 0 && (({} : Dev).setIsland 75 2).island 75 == 2 := by decide +kernel

/-- A stream with sid 9 in entry 0, that has had `n` frames and whose pin bit is `p`; the route engine is up. -/
def herdStream (n p : Nat) (l : List (Field × List Nat × Nat) := []) : Dev :=
  let d := herding ((R.SYS_READY_ddr_ecc, [], 1) :: (R.HRD_RC_min_fps, [], 10) :: l)
  (({ d with rte := { sids := [(9, 1)] } }.setEntry 0 (1 + 9 * 2 ^ 379 + p * 2 ^ 327)).store (sidAddr 9) 8 n)

theorem wit_HerdsmanLoops : has (herding []) R.HRD_STAT_state [] 1 && (herding []).nvc.stalled == [] &&
    (let d := herding [(R.HRD_ISL_OP_req_mhz, [75], 3000), (R.HRD_ISL_OBJ_floor_mhz, [75], 1500), (R.HRD_POWER_p_mw, [], 50001), (R.HRD_POWER_cap_w, [], 50)]
     has d R.HRD_ISL_OP_req_mhz [75] 3000 && has d R.HRD_ISL_OBJ_floor_mhz [75] 1500 && decide (d.rd R.HRD_POWER_cap_w * 1000 < d.rd R.HRD_POWER_p_mw) && !hasBit d R.HRD_ISL_PIN_pin [] 75 &&
       (List.range 76).all fun i => decide (ofIsland d R.HRD_ISL_OP_req_mhz i < 4096) && decide (ofIsland d R.HRD_ISL_OBJ_floor_mhz i < 4096) && decide (ofIsland d R.HRD_ISL_OP_trim i < 16)) &&
    (let d := dev [(R.PWR_THERM_temp_c, [], 115)]
     decide (d.rdS R.PWR_THERM_crit_c ≤ d.rdS R.PWR_THERM_temp_c)) &&
    (let d := herding [(R.HRD_POWER_cap_w, [], 50), (R.HRD_ISL_OP_util_pct, [75], 99), (R.HRD_ISL_OP_util_pct, [74], 1), (R.HRD_DVFS_up_pct, [], 85), (R.HRD_DVFS_down_pct, [], 50)]
     decide (d.rd R.HRD_DVFS_up_pct < d.rd R.HRD_ISL_OP_util_pct [75]) && decide (d.rd R.HRD_ISL_OP_util_pct [74] < d.rd R.HRD_DVFS_down_pct) &&
       decide (d.rd R.HRD_POWER_p_mw * 100 < 50 * 1000 * (100 - d.rd R.HRD_POWER_margin_pct)) && decide (d.rdS R.PWR_THERM_temp_c ≤ d.rdS R.PWR_THERM_warn_c - 3)) &&
    (List.range 6).all (fun k => hasBit (herding [(R.HRD_PIN_pin, [], 2 ^ k)]) R.HRD_PIN_pin [] k && !hasBit (herding []) R.HRD_PIN_pin [] k) &&
    (let d := herdStream 50 0 [(R.HRD_RC_hit_pm, [], 1), (R.HRD_RC_target_pm, [], 2), (R.RTE_CACHE_CFG_pin_ways, [], 4)]
     d.liveSids == [(9, 0)] && d.sidFrames 9 == 50 && ePin (d.entry 0) == 0 && ePendSlot (d.entry 0) == 0 && has d R.SYS_READY_ddr_ecc [] 1 && has d R.HRD_RC_min_fps [] 10 &&
       decide (d.rd R.HRD_RC_hit_pm < d.rd R.HRD_RC_target_pm) && d.hrd.pins == [] && decide (d.pinnedIn (d.setOfEntry 0) + 1 < d.pinWays)) &&
    (let d0 := herdStream 50 1 [(R.HRD_RC_idle_s, [], 0)]
     let d : Dev := { d0 with hrd := { pins := [0], frames := [(9, 50)], warm := 1 } }
     d.hrd.pins == [0] && ePin (d.entry 0) == 1 && eSid (d.entry 0) == 9 && d.sidFrames 9 - tget 0 d.hrd.frames 9 == 0 && has d R.HRD_RC_idle_s [] 0 && isStream (d.entry 0) &&
       d.hrd.warm == 1 && d.island 78 == 0 && !d.lineBad (entryAddr 0)) &&
    (let d0 := herding [(R.HRD_LB_en, [], 1), (R.HRD_LB_GRP_drovers, [0], 2 ^ 95 + 1), (R.HRD_LB_hi_pct, [], 80), (R.HRD_LB_lo_pct, [], 50), (R.HRD_LB_max_moves, [], 1)]
     let d := { d0 with rte := { sids := [(9, 1)] } }.setEntry 0 (1 + 1 * 2 ^ 348 + 0 * 2 ^ 352 + 9 * 2 ^ 379)
     hasBit d R.HRD_LB_en [] 0 && hasBit d R.HRD_LB_GRP_drovers [0] 0 && hasBit d R.HRD_LB_GRP_drovers [0] 95 && has d R.DRV_STATUS_halted [0] 0 && has d R.DRV_STATUS_halted [95] 0 &&
       (List.range 96).all (fun n => hasBit d R.HRD_LB_GRP_drovers [0] n == (n == 0 || n == 95)) &&
       decide (d.rd R.HRD_LB_hi_pct < 90) && decide (0 < d.rd R.HRD_LB_lo_pct) && has d R.HRD_LB_max_moves [] 1 && d.mayMove 0 9 && decide (2 * (90 * 3) ≤ (90 - 0) * 6)) &&
    (let d : Dev := { (dev [(R.HRD_LB_tmo_ms, [], 10)] (atBeads (10 * millis))) with rte := { moves := [⟨9, 0, 95, 0, false⟩] } }
     d.rte.moves == [⟨9, 0, 95, 0, false⟩] && decide (0 + d.rd R.HRD_LB_tmo_ms * 65536000000 ≤ d.clock)) := by decide +kernel

/-- The Tally measures at `b` beads, its periods open, OTP holding the authority's hash. -/
def measuring (b : Nat) (t : TlySt := {}) (l : List (Field × List Nat × Nat) := []) : Dev :=
  let d := dev ((R.TLY_STAT_state, [], 1) :: l)
  { d with tim := { d.tim with now := b * 2 ^ 32 }, tly := { t with on := true, aligned := true, alignedAt := 1 }, lcs := { otp := 2 ^ 0x1380 } }
def measures (d : Dev) : Bool := d.tly.on && d.rd R.TLY_STAT_state == 1 && d.tly.aligned

theorem wit_TallyRecords : !({} : Dev).tly.on && ({} : Dev).tly.created == [] && measures (measuring 0) && (measuring 0 {} [(R.TLY_STAT_state, [], 2)]).rd R.TLY_STAT_state == 2 &&
    (let d := measuring 5 { created := [⟨6, true, false, 5, []⟩], count := 65536 }
     measures d && d.tly.created.length == 1 && d.tly.count % 1024 == 0 && decide (65536 ≤ d.tly.count)) &&
    (let d : Dev := { ({} : Dev) with tly := { on := true }, tim := { replicas := (({} : Dev).tim.replicas.take 101) ++ [{ aligned := true }] } }
     d.tly.on && !d.pwr.off && !d.tly.aligned && (d.tim.replicas.getD 101 {}).aligned) &&
    enabledSlots (measuring 0 { params := { progs := [(255, 2 ^ 576)] } }) == [255] && ({} : Dev).tly.loudP == 0 := by decide +kernel

/-- Programme 255 takes its first channel from stream 5 of port 1, pair 0. -/
def prog255 : Nat := 2 ^ 576 + (1 + 1 * 2 + 5 * 4)
theorem wit_TallyTaps :
    (let x : TapAcct := { count := 65535, tenant := 4095, sid := 9, port := 1, len := 64, ts := beadsToRaw (5 * second) }
     List.all [true, false] fun credited =>
       let d := measuring (6 * second) { acctQ := [x], expect := [(2, 7)], credited := if credited then [(5, 9, 4095, 1)] else [] }
       measures d && d.tly.acctQ == x :: [] && decide (x.tenant < 4096) && decide (x.port < 2) && (rawToBeads x.ts / second, x.sid, x.tenant, x.port) == (5, 9, 4095, 1) && tget 0 d.tly.expect 2 == 7) &&
    (List.all [(5 * second + 65536 * 2000, 5, 65536 * 2000), (5 * second - 7, 5, -7), (5 * second + second / 2, 5, (second / 2 : Int))] fun x =>
      let d := measuring (6 * second) { ppsQ := [(3, beadsToRaw x.1)] }
      measures d && d.tly.ppsQ == (3, beadsToRaw x.1) :: [] && decide ((rawToBeads (beadsToRaw x.1) : Int) = (x.2.1 : Nat) * second + x.2.2) && decide (x.2.2 * 2 ≤ second) && decide (-(second : Int) < x.2.2 * 2)) &&
    (List.all [6, 7] fun len =>
      let t := 50000 * second
      let x : TapAudio := { count := 1, port := 1, stream := 5, rtpTs := 50000 * 48000, ts := beadsToRaw t, payload := List.replicate len 1 }
      let d := measuring (t + 7) { audioQ := [(1, [x])], params := { progs := [(255, prog255)] } }
      let c := part (slotOf d 255) 0 32
      measures d && tget [] d.tly.audioQ 1 == x :: [] && rawToBeads x.ts == t && decide (2 ^ 31 * second ≤ t * 48000) && (tget none d.tly.rates (16384 * 1 + 5)).isNone && sealState d == 1 &&
        (slotOf d 255).testBit 576 && c.testBit 0 && part c 1 1 * 16384 + part c 2 14 == 16384 + 5 && (len % ((part c 22 6 + 1) * (2 + part c 30 1)) == 0) == (len == 6) &&
        (50000 * 48000 + part (slotOf d 255) 512 32) % 2 ^ 32 == x.rtpTs % 2 ^ 32 && t * 48000 / second == 50000 * 48000) := by decide +kernel

theorem wit_TallyPeriods :
    (let d := measuring (3 * second) { loudP := 1, params := { progs := [(255, prog255)] }, runs := [(255, { next := 1 })] }
     let last := (4799 * second + 47999) / 48000
     measures d && (slotOf d 255).testBit 576 && (d.tlyRun 255).next == 1 && decide (last + 2 * second ≤ d.now) && decide (last / (loudLen d * second) < d.tly.loudP) && d.tly.rates.length == 0) &&
    (let d := measuring (602 * second) { loudP := 1, params := { progs := [(255, prog255)] }, runs := [(255, { next := 6001 })] }
     measures d && decide ((d.tly.loudP * loudLen d + 2) * second ≤ d.now) && enabledSlots d == [255] && (d.tlyRun 255).next == 6001 &&
       decide (d.tly.loudP * loudLen d * second ≤ ((4800 * 6000 + 4799) * second + 47999) / 48000)) &&
    (let d := measuring (3602 * second) { svcP := 1, svc := [(2 * 4095 + 1, { frames := 1, bytes := 64, secs := 1 })] }
     measures d && decide ((d.tly.svcP * svcLen d + 2) * second ≤ d.now)) &&
    (let d := measuring (60 * second) { tieP := 1, tie := [(0, { edges := 3, secs := [1], lo := -4, hi := 9, sum := -1 })] }
     measures d && decide (d.tly.tieP * tieLen d * second ≤ d.now) && (tget {} d.tly.tie 0).edges == 3) := by decide +kernel

/-- An inbox message with a zero UID and signature. -/
def message (kind : Nat) (body : List Byte) (signed : Bool) : List Byte :=
  [0x54, 0x4C, 0x59, 0x43, 1, BitVec.ofNat 8 kind] ++ beBytes 2 body.length ++ beBytes 16 0 ++ beBytes 8 1 ++ body ++ List.replicate (if signed then 192 else 0) 0

theorem wit_TallyInbox : (List.all [(0x01, 8, false), (0x02, 8, false), (0x10, 16, true), (0x11, 132, true), (0x12, 48, true), (0x13, 0, true), (0x14, 4, true), (0x7F, 0, false)] fun x =>
      let m := message x.1 (List.replicate x.2.1 0) x.2.2
      let d := measuring 0 { inbox := [m], count := 1 }
      measures d && d.tly.inbox == m :: [] && (m.getD 5 0).toNat == x.1 && decide (inboxRow (m.getD 5 0).toNat = if x.1 = 0x7F then none else some (x.2.2, x.2.1)) &&
        m.length == 32 + x.2.1 + (if x.2.2 then 192 else 0)) := by decide +kernel

/-- A transition record with `n` of its steps done, and OTP with the records given. -/
def rec_ (target path n : Nat) : Nat := target + 16 * path + 256 * stepsOf path + 3 * 2 ^ 126 + ((List.range n).map fun i => 3 * 2 ^ (18 + 2 * i)).sum
def burned (l : List Nat) (more : Nat := 0) : Dev :=
  { ({} : Dev) with lcs := { otp := (((List.range l.length).map fun k => l.getD k 0 * 2 ^ (0x400 + 128 * k)).sum) + more } }
/-- VENDOR_TEST, VENDOR and OWNED, the last with slot 0 in use. -/
def tested : Dev := burned [rec_ 1 1 1]
def vendor (more : Nat := 0) : Dev := burned [rec_ 1 1 1, rec_ 2 2 1] more
def owned (more : Nat := 0) : Dev := burned [rec_ 1 1 1, rec_ 2 2 1, rec_ 3 3 5] (3 * 2 ^ (0x800 + 0x426) + more)

/-- The condition of `inState`, as a check. -/
def stateIs (d : Dev) (st : Nat) : Bool :=
  match ((List.range 8).filter fun k => let r := recordBits d k
    part r 126 2 != 0 && part r (16 + 2 * part r 8 5) 2 != 0).getLast? with
  | none => st == 0
  | some k => part (recordBits d k) 0 4 == st
/-- The conditions of `currentSlot 0`, as a check. -/
def slotZero (d : Dev) : Bool := ofSlot d 0 0x426 2 != 0 && ofSlot d 0 0x428 6 == 0
def asking (kind c : Nat) (d : Dev) : Dev := { d with lcs := { d.lcs with check := some (kind, c) } }
def debugging (x : Session) (d : Dev) : Dev := { d with lcs := { d.lcs with session := some x } }

/-- For LifeCycleRequests and Certificates. -/
theorem wit_LifeCycleAuthority : stateIs {} 0 && stateIs tested 1 && stateIs (vendor) 2 && stateIs (owned) 3 && stateIs (burned [rec_ 6 8 6]) 6 && slotZero (owned) &&
    !slotZero (vendor) && slotZero (owned (3 * 2 ^ (0x800 + 0x424))) && ofSlot (owned (3 * 2 ^ (0x800 + 0x424))) 0 0x424 2 != 0 && ofSlot (owned) 0 0x424 2 == 0 &&
    ({} : Dev).lcs.check == none && (asking 1 0 {}).lcs.check == some (1, 0) && (asking 2 5 (owned)).lcs.check == some (2, 5) && has {} R.LCS_STATE_pending [] 0 &&
    (debugging ⟨1, 0, 0, 1, 0, false⟩ {}).lcs.session == some ⟨1, 0, 0, 1, 0, false⟩ && decide (0 ≤ ({} : Dev).now / second) &&
    decide (604800 * 1000000000 > (({} : Dev).tim.mono - 0) * 256) && (debugging ⟨1, 0, 0, 1, 0, true⟩ {}).lcs.session == some ⟨1, 0, 0, 1, 0, true⟩ &&
    (let d : Dev := { ({} : Dev) with lcs := { nonceAt := 1 }, tim := { mono := 2343750000 } }
     d.lcs.nonceAt != 0 && decide (600000000000 ≤ (d.tim.mono + 1 - d.lcs.nonceAt) * 256)) &&
    -- VENDOR_TEST with every field of a transition to VENDOR valid
    (let d := burned [rec_ 1 1 1] (1 + (1 + crc32c (leBytes 32 1) * 2 ^ 256) * 2 ^ 0xC0 + 5 * 2 ^ 0x200)
     stateIs d 1 && d.lcs.otp % 2 ^ 128 != 0 && part d.lcs.otp 0xC0 256 == 1 && part d.lcs.otp (0xC0 + 256) 32 == crc32c (leBytes 32 1) && part d.lcs.otp 0x200 384 == 5) &&
    -- OTP with all but the last record in use
    (let d := burned ((List.range 7).map fun _ => rec_ 1 1 1)
     (List.range 7).all (fun k => recordBits d k != 0) && recordBits d 7 == 0) := by decide +kernel

theorem wit_LifeCycleSteps : (List.all [(1, 1), (2, 2), (3, 3), (4, 4), (2, 5), (2, 6), (5, 7), (6, 8)] fun x => (List.range (stepsOf x.2)).all fun j =>
      let d := dev [(R.LCS_STATE_pending, [], 1)] (burned [rec_ 1 1 1, rec_ x.1 x.2 j])
      d.rd R.LCS_STATE_pending == 1 && recordBits d 1 == rec_ x.1 x.2 j && (List.all [2, 3, 4, 5, 6, 7] fun i => recordBits d i == 0) && !d.pwr.off &&
        part d.lcs.otp 0x800 0x500 == 0) && slotZero (burned [rec_ 1 1 1, rec_ 2 5 0] (3 * 2 ^ (0x800 + 0x426))) := by decide +kernel

theorem wit_JtagInstructions : stateIs tested 1 && stateIs (vendor) 2 && (vendor).lcs.session == none && stateIs (debugging ⟨0x1FF, 0, 0, 1, 0, false⟩ (owned)) 3 &&
    (List.range 9).all (fun b => (0x1FF : Nat).testBit b) && part tested.lcs.otp 0xA0 2 == 0 && part (burned [rec_ 1 1 1] (3 * 2 ^ 0xA0)).lcs.otp 0xA0 2 == 3 &&
    stateIs (burned [rec_ 1 1 1] (3 * 2 ^ 0xA0)) 1 && ({} : Dev).island 75 == 0 && (List.range 384).all (fun k => decide (0x1500 ≤ 0x1E80 + k) && decide (0x1E80 + k < 0x2000)) &&
    decide (rightFor true 0x0 = some 6) && decide (rightFor false 0x28000000 = some 2) && decide (rightFor true 0x30000000 = none) && decide (rightFor false 0x40000000 = some 7) &&
    (dev [(R.PWR_STAT_state, [], 1), (R.PWR_WAKE_EN_en, [], 2 ^ 11)]).rd R.PWR_STAT_state == 1 && hasBit (dev [(R.PWR_WAKE_EN_en, [], 2 ^ 11)]) R.PWR_WAKE_EN_en [] 11 := by decide +kernel

/-- Slice 63 runs with the macros `act`. -/
def slicing (cls : Nat) (act : List Nat) (next : Nat) (again : List Nat := []) (cut : Bool := false) (l : List (Field × List Nat × Nat) := []) : Dev :=
  { (dev ((R.BST_SLICE_cls, [63], cls) :: l)) with bst := { slices := [(63, { on := true, act := act, next := next, again := again, cut := cut })] } }

theorem wit_SelfTestSlices :
    (let d := dev [(R.BST_SLICE_cls, [63], 10), (R.BST_SLICE_first, [63], 8191), (R.BST_SLICE_shadow, [63], 0)]
     d.bst.slices == [] && classOf d 63 == 10 && decide (firstOf d 63 < lastOf d 63) && has d R.BST_SLICE_shadow [63] 0 && (List.range 112).all (fun i => d.island i == 0) &&
       has d R.PWR_STAT_entering [] 0 && has d R.PWR_STAT_exiting [] 0) &&
    classOf (dev [(R.BST_SLICE_cls, [63], 11)]) 63 == 11 && (({} : Dev).setIsland 104 1).island 104 != 0 && ((slicing 0 [0] 1).slice 63).on &&
    (let d : Dev := { (dev [(R.BST_SLICE_budget_us, [63], 1)] (atBeads 65536000)) with bst := { slices := [(63, { on := true, act := [0] })] } }
     has d R.BST_SLICE_budget_us [63] 1 && decide ((d.slice 63).start + 1 * 65536000 ≤ d.clock) && (d.slice 63).on) &&
    (let d : Dev := { (dev [(R.BST_SLICE_cls, [63], 0)]) with bst := { slices := [(63, { retryAt := 1 })] } }
     (d.slice 63).retryAt == 1 && !(d.slice 63).on && decide ((d.slice 63).retryAt ≤ d.clock + 1) && classOf d 63 == 0 && decide (firstOf d 63 < lastOf d 63)) &&
    (List.all [([767], 768), ([766, 767], 768)] fun x => List.all [false, true] fun cut => let d := slicing 0 x.1 x.2 [] cut [(R.BST_SLICE_rep, [63], 0)]
      (d.slice 63).act == x.1 && x.1.elem 767 && decide (x.1 = [767]) == (x.1.length == 1) && decide (lastOf d 63 ≤ (d.slice 63).next) && (d.slice 63).cut == cut && x.1.all (fun h => decide (h < baseOf 0 + x.2)) &&
        decide (d.rd R.BST_SLICE_RES_steps [63] + 6144 < 2 ^ 32) && decide (d.rd R.BST_SLICE_RES_failed [63] < 2 ^ 16 - 1) && has d R.BST_SLICE_rep [63] 0) &&
    (let d := dev ([(R.SYS_READY_repair, [], 1), (R.BST_CFG_max_par, [], 4096)] ++ (List.range 11).map fun k => (R.BST_SLICE_cls, [k], k))
     has d R.SYS_READY_repair [] 1 && d.bst.slices == [] && has d R.BST_CFG_max_par [] 4096 && (List.range 11).all fun k => classOf d k == k && firstOf d k == 0 && has d R.BST_SLICE_count [k] 0 && has d R.BST_SLICE_shadow [k] 0) := by
  decide +kernel

theorem wit_SelfTestRepairs :
    (let d := slicing 0 [767] 768 [] false [(R.BST_SLICE_rep, [63], 1)]
     let fails : List (Fin 6 × Fin 1024 × BitVec 72) := [(0, 1023, 1), (5, 16, 3)]
     (d.slice 63).on && (d.slice 63).act.elem 767 && has d R.BST_SLICE_rep [63] 1 && (d.slice 63).again == [] && fails.any (fun f => f.2.2 != 0) && decide (d.bst.log.length ≤ 32) &&
       ((List.range 64).filter fun r => fails.any fun f => f.2.1.val / 16 == r && f.2.2 != 0).length == 2 && d.bst.fuse ++ d.bst.soft == []) &&
    (let d : Dev := { bst := { log := [7], area0 := some (5, []), area1 := some (6, [3]), saving := some (7, [3]) } }
     d.bst.log == 7 :: [] && d.bst.saving == some (7, [3]) && d.island 104 == 0 && has d R.BST_CMD_busy [] 0) && ({} : Dev).bst.saving == none &&
    (dev [(R.BST_CMD_busy, [], 1)]).rd R.BST_CMD_busy == 1 && (({} : Dev).setIsland 104 1).island 104 != 0 := by decide +kernel

theorem wit_StepTakesTheFrontCommand : ({ pwr := { off := true } } : Dev).pwr.off = true ∧ ¬ worksInOff .idcode := by
  exact ⟨rfl, by simp [worksInOff]⟩
theorem wit_TablesStayCanonical : canonical ({} : Dev) = true ∧ step ⟨[], {}⟩ = .next ⟨[], {}⟩ := ⟨by decide, rfl⟩
theorem wit_OtpOnlyGrows : step ⟨[], tested⟩ = .next ⟨[], tested⟩ ∧ tested.lcs.otp.testBit 0x400 = true := ⟨rfl, by decide +kernel⟩
theorem wit_TallyIsolation : exec .idcode ⟨[], { pwr := { off := true } }⟩ = .next ⟨[], { pwr := { off := true } }⟩ ∧ ¬ authority .idcode ∧ ¬ commitsRecord .idcode := by
  exact ⟨rfl, by simp [authority], by simp [commitsRecord]⟩

/-! ### Ill-formed commands: each check of `Instr.wf` refuses -/

theorem test_wf_refuses : (([.ptpSyncTx 0 8192, .syncInEdge 0 8192 true, .egressStart 0 0 8192 false, .egressStop 1 8192, .droverHalt 0 8192,
     .ptpMessageRx 0 0 0 0 65536 0 none 0 false, .timeTreeCalDone [] [], .backgroundCal true (List.replicate 112 0) [], .fecCodeword 0 0 (some 16),
     .pfcFrameRx 0 0 0 [1], .pfcFrameRx 0 0 0 (List.replicate 8 65536), .egressQueueEnter 0 { len := 0, src := .sacon, pri := 8, sp := 0 },
     .longOpComplete 0 0 0 [(72, 1)] {}, .longOpComplete 0 0 0 [(1, 1), (1, 2)] {}, .dmaUnitDone 0 0 none { first := some 41 },
     .dmaUnitDone 0 0 none { first := none, retry := some (8, 0) }, .frameEgress 0 0 0 [] 1, .stileMemWrite 0 0 0 [1] 0,
     .loadDone (some 0x8000000), .stageDone 0 (some 0x8000000), .nvDataRead 0 0 0 {}, .nvPrefix 0 0 [], .program 0 0 (List.replicate 65 0), .ddrAccess 0 false 0 0 [] [],
     .discoveryRequest 0 0 0 0 0 0 0 0, .cmDreq 0 0 0 0, .directRdmaWrite 0 1 0 0 0 0 [], .directRdmaRead 0 1 0 0 0 0 0, .descriptorFetch 0 0 (List.replicate 33 0) true,
     .memWrite 0 0 [] [[(5, 0)]], .temperatureSample [], .loadBalance 0 (List.replicate 96 101) [], .lcReset 0 false false (some 65), .dbgAccess 0 [(5, 256)] {},
     .macroTestDone 0 0 6145 [] false false, .macroTestDone 0 0 0 [(0, 0, 1)] false false, .cfgClkEdge 0 65537 false] : List Instr).all fun i => !i.wf) &&
    (([.ptpSyncTx 0 8191, .idcode, .fecCodeword 0 0 (some 15), .fecCodeword 0 0 none, .frameEgress 0 0 0 (List.replicate 64 0) 1, .nvPrefix 0 0 [0]] : List Instr).all Instr.wf) := by decide

/-! ### Instructions, with the values of the spec's examples -/

/-- The thread after one command that executes the word `w`. -/
def ran (c : Issue → Instr) (w : Nat) (x : Thr) (d : Dev := {}) : Thr := (after (c iss) (issuing w x d)).thr 3 5

theorem test_add_wraps : let x := ran .add (wordOf 0x100) (regs [9, 2 ^ 64 - 1, 2])
    x.sreg 1 = 1 ∧ x.sreg 2 = 2 ^ 64 - 1 ∧ x.pc = 4 := by decide
theorem test_sub_source_is_destination : (ran .sub (wordOf 0x101 2 2 2) (regs [9, 5, 7])).sreg 2 = 0 := by decide

/-- Chapter 7, the crossfade's sample index: 1,718,000,000.5168 s at 48 kHz. -/
theorem test_tidx_c : (ran .tidxC (wordOf 0x3105 1 2 4) (regs [0, 0x99801ECDBE000000, 0x6666, 0x10000BB80])).sreg 1 = 82464000024807 := by decide

/-- Chapter 7, VXFW at m0 = -7: lanes 0 to 6 are 0, lane 7 is 39; at m0 = 25 lane 7 has weight 65,536. -/
theorem test_vxfw : ((List.range 8).map (fun i => lane 64 ((ran .vxfw (wordOf 0x2407) (regs [0, 2 ^ 64 - 7])).vreg 1) i) == [0, 0, 0, 0, 0, 0, 0, 39] &&
    lane 64 ((ran .vxfw (wordOf 0x2407) (regs [0, 25])).vreg 1) 7 == 65536) := by decide +kernel

/-- Lane 7 of AMIX of sample words whose last is 2^22 with factor `f` in lane 7. -/
def amixed (f : Nat) : Nat :=
  lane 64 ((ran .amix (wordOf 0x2804) { regs [0, cribBase] with v := [(3, f <<< 448)] } (({} : Dev).store (droverPrivate 3 + 28) 4 0x400000)).vreg 1) 7
/-- Chapters 5 and 7, AMIX of an input of 2^22 with the old and the new factor of sample 39, and at m = 16. -/
theorem test_amix : ((List.all [(8192 * 39, 1248), (16384 * 65497, 4191808), (16384 * (65536 - 34376), 1994240), (8192 * 34376, 1100032)] fun x =>
    amixed x.1 == x.2 * 2 ^ 30) : Bool) := by decide +kernel

/-! ### Time, addresses, tables -/

/-- Chapter 2: the edges of 59.94 Hz after 1718000000 s. -/
theorem test_sync_out : let c : SyncSet := { mode := 1, num := 1001, den := 60000 }
    c.firstEdge (1718000000 * second) = 102977022978 ∧ c.grid 102977022978 = (1718000000 * second + 16300000 * 65536 : Nat) ∧
    c.grid 102977022979 = (1718000000 * second + 32983333 * 65536 + 22528 : Nat) := by decide
/-- Chapter 4: a late salvo takes effect at the frame boundary after ta + late_us. -/
theorem test_salvo_t_eff : frameBoundary 1001 60000 (1718000000 * second + 501000000 * 65536) = 1718000000 * second + 516800000 * 65536 := by decide
/-- Chapters 1 and 4: the channel and offset of an address, a route entry's and a digest's address. -/
theorem test_ddr_addresses : chanOf 0x1000001A40 = (5, 0x240) ∧ addrOf 5 0x240 = 0x1000001A40 ∧ entryAddr 40883 = 0x100027ECC0 ∧
    chanOf (entryAddr 40883) = (6, 0x352C0) ∧ digestAddr 5110 3 = 0x1040013F66 := by decide
/-- Chapter 3: a 1,200-byte frame takes five cells, a 64-byte frame one. -/
theorem test_cells : cellsOf 1200 = 5 ∧ cellsOf 64 = 1 := by decide
/-- The check value of CRC-32C, of general knowledge, not from the spec. -/
theorem test_crc32c : crc32c ([0x31, 0x32, 0x33, 0x34, 0x35, 0x36, 0x37, 0x38, 0x39] : List Byte) = 0xE3069283 := by decide +kernel
/-- Chapter 0: a step of 31.25 ps is 2,048 beads; a write of UI fields keeps other fields. -/
theorem test_raw_beads : beadsToRaw second = 2 ^ 48 ∧ rawToBeads (beadsToRaw (5 * second + 7)) = 5 * second + 7 := by decide

/-! ### Control -/

/-- Chapter 15: over a cap of 180 W an island of class 0 steps from 900 to 800 MHz, one of class 1 stays. -/
theorem test_dvfs_steps_down : let d := after .dvfsDecision (herding [(R.HRD_POWER_cap_w, [], 180), (R.HRD_POWER_p_mw, [], 190000), (R.HRD_DVFS_step_mhz, [], 100),
      (R.HRD_ISL_OP_req_mhz, [7], 900), (R.HRD_ISL_OBJ_floor_mhz, [7], 500), (R.HRD_ISL_OBJ_prio, [7], 0), (R.HRD_ISL_OP_req_mhz, [8], 900), (R.HRD_ISL_OBJ_floor_mhz, [8], 500), (R.HRD_ISL_OBJ_prio, [8], 1)])
    d.rd R.HRD_ISL_OP_req_mhz [7] = 800 ∧ d.rd R.HRD_ISL_OP_req_mhz [8] = 900 := by decide +kernel
/-- COMPAT interrupted in step 4: three marks burned, the slot retired. -/
def resuming : Dev :=
  dev [(R.LCS_STATE_pending, [], 1)] (burned [rec_ 1 1 1, rec_ 2 2 1, rec_ 3 3 5, rec_ 2 6 3] (3 * 2 ^ (0x800 + 0x426) + 63 * 2 ^ (0x800 + 0x428)))
/-- Chapter 17: the boot after the loss of power resumes COMPAT at step 4 and ends in VENDOR with the session open. -/
theorem test_compat_resumes : List.all [after (.lcReset 0 false false none) resuming] (fun d => d.rd R.LCS_STATE_state == 2 && recordBits d 3 == rec_ 2 6 4 &&
    d.lcs.session.isSome && d.rd R.LCS_DEBUG_rights == 0x1E7) := by decide +kernel
/-- Chapter 17: IDCODE shifts out 0x19640D3B. -/
theorem test_idcode : (after .idcode {}).out = [.tdo 32 0x19640D3B] := by decide
/-- The table gives no bits to any row. -/
theorem test_table_word : decodeTableWord 16 0 = none ∧ State.reset.withFetchWord 16 0 = State.reset := ⟨rfl, rfl⟩
/-- The queue gives its front. -/
theorem test_step : (match step ⟨[.idcode, .clamp], {}⟩ with | .next t => t.pending == [.clamp] && t.dev.out == [.tdo 32 0x19640D3B] | _ => false) = true := by decide

end Sys2Proof.Tests
end

section
/-! SUPPORT. Writing a field by its access code (Table 00-6), bit by bit, and what the write leaves unchanged. -/

namespace Sys2Proof.Machine

open Sys2Proof.Claims

theorem testBit_ones_sub {w x i : Nat} (h : x < 2 ^ w) : (ones w - x).testBit i = (decide (i < w) && !x.testBit i) := by
  rw [ones, Nat.sub_sub, Nat.add_comm 1 x]
  exact Nat.testBit_two_pow_sub_succ h i

theorem testBit_mix {w b : Nat} (old m v : Nat) (hb : b < w) :
    (mix w old m v).testBit b = if m.testBit b then v.testBit b else old.testBit b := by
  rw [mix, Nat.testBit_or, Nat.testBit_and, Nat.testBit_and, testBit_ones_sub (Nat.mod_lt _ (Nat.two_pow_pos w)),
    Nat.testBit_mod_two_pow]
  cases m.testBit b <;> simp [hb]

/-- With every bit written the new value stands. -/
theorem mix_ones (w old v : Nat) : mix w old (ones w) v = v % 2 ^ w := by
  have h : ones w % 2 ^ w = ones w := Nat.mod_eq_of_lt (Nat.sub_lt (Nat.two_pow_pos w) Nat.one_pos)
  rw [mix, h, Nat.sub_self, Nat.and_zero, Nat.zero_or, ones, Nat.and_two_pow_sub_one_eq_mod]

theorem wr_mod (d : Dev) (f : Field) (ix : List Nat) (v : Nat) : d.wr f ix (v % 2 ^ f.width) = d.wr f ix v := by
  simp [Dev.wr]

/-! ### The bits of a field -/

theorem testBit_of (f : Field) (pos x b : Nat) : (f.of pos x).testBit b = fieldBit f pos x b := by
  simp [Field.of, bits, fieldBit, Nat.testBit_mod_two_pow, Nat.testBit_div_two_pow, Nat.add_comm]

theorem of_eq_zero_iff (f : Field) (pos x : Nat) : f.of pos x = 0 ↔ ∀ b, fieldBit f pos x b = false := by
  constructor
  · intro h b
    rw [← testBit_of, h, Nat.zero_testBit]
  · intro h
    refine Nat.eq_of_testBit_eq fun b => ?_
    rw [testBit_of, h, Nat.zero_testBit]

/-! ### One field -/

variable {q : Req} {pos : Nat} {ix : List Nat} {m v : Nat} {p : Dev × Nat} {f : Field}

theorem writeField_unwritten (h : f.of pos m = 0) : writeField q pos ix m v p f = p := by
  simp [writeField, h]

/-- Whatever its access code, the write of a field writes that field of the device or nothing. -/
theorem writeField_fst : (writeField q pos ix m v p f).1 = p.1 ∨ ∃ x, (writeField q pos ix m v p f).1 = p.1.wr f ix x := by
  by_cases h : f.of pos m = 0
  · exact .inl (by rw [writeField_unwritten h])
  · simp only [writeField, if_neg h]
    cases f.acc with
    | ro | wo | rwt => exact .inl rfl
    | rw | w1c | w1s => exact .inr ⟨_, rfl⟩
    | rwl =>
      by_cases hl : p.1.locked q = true
      · exact .inl (by simp [hl])
      · exact .inr ⟨_, by simp [hl]; rfl⟩

@[simp] theorem writeField_mem : (writeField q pos ix m v p f).1.mem = p.1.mem := by
  rcases writeField_fst (q := q) (pos := pos) (ix := ix) (m := m) (v := v) (p := p) (f := f) with h | ⟨x, h⟩ <;> simp [h]

@[simp] theorem writeField_out : (writeField q pos ix m v p f).1.out = p.1.out := by
  rcases writeField_fst (q := q) (pos := pos) (ix := ix) (m := m) (v := v) (p := p) (f := f) with h | ⟨x, h⟩ <;> simp [h]

theorem writeField_rd_ne {g : Field} {jx : List Nat} (hk : g.key jx ≠ f.key ix) :
    (writeField q pos ix m v p f).1.rd g jx = p.1.rd g jx := by
  rcases writeField_fst (q := q) (pos := pos) (ix := ix) (m := m) (v := v) (p := p) (f := f) with h | ⟨x, h⟩
  · rw [h]
  · rw [h, rd_wr_ne _ _ _ _ _ _ hk]

theorem writeField_locked (hf : f.acc = .rwl) (hl : p.1.locked q = true) (hm : f.of pos m ≠ 0) :
    writeField q pos ix m v p f = (p.1, worst p.2 Sts.locked) := by
  simp [writeField, hf, hl, hm]

theorem writeField_rwt (hf : f.acc = .rwt) (hm : f.of pos m ≠ 0) :
    writeField q pos ix m v p f = (p.1, worst p.2 Sts.tallyOnly) := by
  simp [writeField, hf, hm]

/-- A field of code RW, or of RWL while ring lock does not stand against the requester, takes the bits written. -/
theorem writeField_takes (hf : f.acc = .rw ∨ f.acc = .rwl ∧ p.1.locked q = false) (hm : f.of pos m ≠ 0) :
    writeField q pos ix m v p f = (p.1.wr f ix (mix f.width (p.1.rd f ix) (f.of pos m) (f.of pos v)), p.2) := by
  rcases hf with hf | ⟨hf, hl⟩
  · simp [writeField, hf, hm]
  · simp [writeField, hf, hm, hl]

theorem writeField_w1c (hf : f.acc = .w1c) (hm : f.of pos m ≠ 0) :
    writeField q pos ix m v p f = (p.1.wr f ix (p.1.rd f ix &&& (ones f.width - (f.of pos m &&& f.of pos v))), p.2) := by
  simp [writeField, hf, hm]

theorem writeField_w1s (hf : f.acc = .w1s) (hm : f.of pos m ≠ 0) :
    writeField q pos ix m v p f = (p.1.wr f ix (p.1.rd f ix ||| (f.of pos m &&& f.of pos v)), p.2) := by
  simp [writeField, hf, hm]

theorem writeField_keeps (hf : f.acc = .ro ∨ f.acc = .wo) : writeField q pos ix m v p f = p := by
  rcases hf with hf | hf <;> simp [writeField, hf]

/-- A written field that ring lock does not guard: each of its bits afterwards (Table 00-6). -/
theorem testBit_rd_writeField (hl : ¬ (f.acc = .rwl ∧ p.1.locked q = true)) {b : Nat} (hb : b < f.width) :
    ((writeField q pos ix m v p f).1.rd f ix).testBit b =
      bitAfter f ((p.1.rd f ix).testBit b) (fieldBit f pos m b) (fieldBit f pos v b) := by
  by_cases hm : f.of pos m = 0
  · rw [writeField_unwritten hm, (of_eq_zero_iff f pos m).mp hm b]
    cases h : f.acc <;> simp [bitAfter, h]
  have hand : f.of pos m &&& f.of pos v < 2 ^ f.width :=
    Nat.lt_of_le_of_lt Nat.and_le_left (Nat.mod_lt _ (Nat.two_pow_pos _))
  cases h : f.acc with
  | ro => rw [writeField_keeps (.inl h)]; simp [bitAfter, h]
  | wo => rw [writeField_keeps (.inr h)]; simp [bitAfter, h]
  | rwt => rw [writeField_rwt h hm]; simp [bitAfter, h]
  | rw =>
    rw [writeField_takes (.inl h) hm]
    simp [bitAfter, h, hb, Nat.testBit_mod_two_pow, testBit_mix, testBit_of]
  | rwl =>
    have hu : p.1.locked q = false := by simpa [h] using hl
    rw [writeField_takes (.inr ⟨h, hu⟩) hm]
    simp [bitAfter, h, hb, Nat.testBit_mod_two_pow, testBit_mix, testBit_of]
  | w1c =>
    rw [writeField_w1c h hm]
    simp [bitAfter, h, hb, Nat.testBit_mod_two_pow, testBit_ones_sub hand, testBit_of]
  | w1s =>
    rw [writeField_w1s h hm]
    simp [bitAfter, h, hb, Nat.testBit_mod_two_pow, testBit_of]

end Sys2Proof.Machine

namespace Sys2Proof.Claims
open Sys2Proof.Machine

/-- The first half of O14: every access code, from the equations of `writeField`. -/
theorem fieldAccessCodes : FieldAccessCodes := by
  intro q pos ix m v st d f _
  have written : (∃ b, fieldBit f pos m b = true) → f.of pos m ≠ 0 := by
    rintro ⟨b, hb⟩ h0
    simp [(of_eq_zero_iff f pos m).mp h0 b] at hb
  refine ⟨fun hl b hb => testBit_rd_writeField hl hb,
    fun ⟨hf, hl⟩ hw => writeField_locked hf hl (written hw),
    fun hf hw => writeField_rwt hf (written hw),
    fun hz => writeField_unwritten ((of_eq_zero_iff f pos m).mpr hz),
    fun g jx hk => writeField_rd_ne hk, writeField_mem, writeField_out⟩

end Sys2Proof.Claims
end

section
/-! SUPPORT. What raising an event leaves unchanged. -/

namespace Sys2Proof.Machine

/-- `e` differs from `d` in the event block at most: its queues, and the registers at setup offset 0x0C_0000. -/
structure EventsOnly (d e : Dev) : Prop where
  eq : e = { d with regs := e.regs, evt := e.evt }
  regs : ∀ k, k < 0x600000 ∨ 0x602000 ≤ k → ∀ x, tget x e.regs k = tget x d.regs k

namespace EventsOnly

theorem refl (d : Dev) : EventsOnly d d := ⟨rfl, fun _ _ _ => rfl⟩

theorem trans {a b c : Dev} (h : EventsOnly a b) (g : EventsOnly b c) : EventsOnly a c :=
  ⟨by rw [g.eq, h.eq], fun k hk x => (g.regs k hk x).trans (h.regs k hk x)⟩

theorem of_evt (d : Dev) (x : EvtSt) : EventsOnly d { d with evt := x } := ⟨rfl, fun _ _ _ => rfl⟩

theorem of_wr (d : Dev) (f : Field) (ix : List Nat) (v : Nat) (h : 0x600000 ≤ f.key ix ∧ f.key ix < 0x602000) :
    EventsOnly d (d.wr f ix v) :=
  ⟨rfl, fun _ hk _ => tget_tset_ne _ _ _ _ _ (by omega)⟩

theorem ite {c : Prop} [Decidable c] {d a b : Dev} (ha : EventsOnly d a) (hb : EventsOnly d b) :
    EventsOnly d (if c then a else b) := by
  split
  · exact ha
  · exact hb

variable {d e : Dev} (h : EventsOnly d e)
include h

theorem mem : e.mem = d.mem := by rw [h.eq]
theorem out : e.out = d.out := by rw [h.eq]
theorem tmo : e.tmo = d.tmo := by rw [h.eq]
theorem rd (f : Field) (ix : List Nat) (hk : f.key ix < 0x600000 ∨ 0x602000 ≤ f.key ix) : e.rd f ix = d.rd f ix :=
  h.regs _ hk _

end EventsOnly

theorem acceptRaise_eventsOnly (d : Dev) (put : List EvRec → List EvRec) : EventsOnly d (d.acceptRaise put) := by
  unfold Dev.acceptRaise
  split
  · exact .of_evt d _
  · exact .of_wr d _ _ _ (by decide)

/-- A pending register of the event block is written. -/
theorem setPending_eventsOnly (d : Dev) (f : Field) {src : Nat} (hs : src < 320) (b : Nat)
    (hf : f = R.EVT_PEND_pend ∨ f = R.EVT_HPEND_pend) : EventsOnly d (d.setBit f [src / 64] b) := by
  refine .of_wr d _ _ _ ?_
  rcases hf with rfl | rfl <;> simp [Field.key, R.EVT_PEND_pend, R.EVT_HPEND_pend] <;> omega

theorem raiseAt_eventsOnly (d : Dev) {src : Nat} (hs : src < 320) (info time : Nat) (pre : Option Nat) :
    EventsOnly d (d.raiseAt src info time pre) := by
  unfold Dev.raiseAt
  split
  · exact .refl d
  · extract_lets d₁ d₂ r
    have pend : EventsOnly d d₁ := setPending_eventsOnly d _ hs _ (.inl rfl)
    have hpend : EventsOnly d₁ d₂ := .ite (setPending_eventsOnly d₁ _ hs _ (.inr rfl)) (.refl d₁)
    exact (pend.trans hpend).trans (.ite (.ite (.of_evt d₂ _) (acceptRaise_eventsOnly d₂ _)) (.refl d₂))

theorem raise_eventsOnly (d : Dev) {src : Nat} (hs : src < 320) (info : Nat) : EventsOnly d (d.raise src info) :=
  raiseAt_eventsOnly d hs info d.nowRaw none

end Sys2Proof.Machine
end

section
/-! SUPPORT. The access of one unit of the setup registers: where it falls, a unit that falls on one register, and the
commands that access a unit. -/

namespace Sys2Proof.Machine

open Sys2Proof.Claims

/-! ### The completion of an access -/

theorem complete_accepted (d : Dev) (q : Req) {st : Nat} (v : Nat) (h : st ≠ 1 ∧ st ≠ 3 ∧ st ≠ 4) :
    d.complete q st v = said d q.inp st v := by
  simp [Dev.complete, Dev.denied, Sts.unmapped, Sts.protected_, Sts.locked, h, said]

theorem complete_denied (d : Dev) (q : Req) {st : Nat} (v : Nat) (h : st = 1 ∨ st = 3 ∨ st = 4) :
    d.complete q st v = (said d q.inp st v).raise 3 (q.inp + 256 * st) :=
  if_pos h

/-- A command whose meaning changes the device outside OFF. -/
theorem does_of_run {c : Instr} {d : Dev} {g : Dev → Dev} (hon : On d) (h : ∀ s, exec c s = run s g) : Does c d (g d) := by
  intro l
  have hoff : d.pwr.off = false := hon
  simp [h, run, runAlways, State.upd, hoff]

theorem does_registerWrite {inp : Fin 101} {desc : Bool} {a : BitVec 21} {be : BitVec 8} {v : BitVec 64} {d e : Dev} {st : Nat}
    (hon : On d) (h : regWrite ⟨inp, desc⟩ (8 * a.toNat) be.toNat v.toNat d = (e, some st)) :
    Does (.registerWrite inp desc a be v) d (e.complete ⟨inp, desc⟩ st 0) := by
  have := does_of_run (c := .registerWrite inp desc a be v) hon fun _ => rfl
  simpa only [h] using this

/-! ### Where a unit falls -/

/-- A register begins at the unit's place. -/
theorem bitsIn_base {h : Hit} {a : Nat} (hb : h.base = 8 * a) (x : Nat) : h.bitsIn a x = x % 2 ^ h.reg.width := by
  simp [Hit.bitsIn, hb]

/-- A register begins `k` > 0 bits into the unit. -/
theorem bitsIn_within {h : Hit} {a k : Nat} (hb : h.base = 8 * a + k) (hk : 0 < k) (x : Nat) :
    h.bitsIn a x = x / 2 ^ k % 2 ^ h.reg.width := by
  rw [Hit.bitsIn, hb, if_neg (by omega), Nat.add_sub_cancel_left]

/-! ### A unit written -/

/-- A register of the unit at `a` takes the bits `m` of the unit's value `v`. -/
def writeHit (q : Req) (a m v : Nat) (p : Dev × Option Nat) (h : Hit) : Dev × Option Nat :=
  let x := if p.1.hitOn h a then writeReg q a h.reg h.ix (h.bitsIn a m) (h.bitsIn a v) p.1
    else (p.1, some Sts.poweredOff)
  (x.1, match p.2, x.2 with | some s, some t => some (worst s t) | _, _ => none)

/-- The registers of the unit at `a` that the bits `m` fall on. -/
def writtenHits (a m : Nat) : List Hit := (hitsOf a).filter fun h => h.bitsIn a m != 0

variable {q : Req} {a be v : Nat} {d : Dev}

theorem regWrite_noByte (hp : pageOf a = none) : regWrite q a 0 v d = (d, some Sts.ok) := by
  simp [regWrite, hp]

theorem regWrite_nowhere (hp : pageOf a = none) (hbe : be ≠ 0) (hw : writtenHits a (byteMask be) = []) :
    regWrite q a be v d = (d, some Sts.unmapped) := by
  rw [writtenHits] at hw
  simp only [regWrite, hp, hw, if_neg hbe]
  rfl

theorem regWrite_written (hp : pageOf a = none) (hbe : be ≠ 0) (hw : writtenHits a (byteMask be) ≠ []) :
    regWrite q a be v d = (writtenHits a (byteMask be)).foldl (writeHit q a (byteMask be) v) (d, some Sts.ok) := by
  have he : ((hitsOf a).filter fun h => h.bitsIn a (byteMask be) != 0).isEmpty = false := by
    simpa [writtenHits] using hw
  simp only [regWrite, hp, if_neg hbe, he]
  rfl

theorem writeHit_on {h : Hit} {m : Nat} {p : Dev × Option Nat} {e : Dev} {s t : Nat} (hs : p.2 = some s)
    (hon : p.1.hitOn h a = true) (hr : writeReg q a h.reg h.ix (h.bitsIn a m) (h.bitsIn a v) p.1 = (e, some t)) :
    writeHit q a m v p h = (e, some (worst s t)) := by
  simp [writeHit, hon, hr, hs]

theorem writeHit_off {h : Hit} {m : Nat} {p : Dev × Option Nat} {s : Nat} (hs : p.2 = some s)
    (hoff : p.1.hitOn h a = false) : writeHit q a m v p h = (p.1, some (worst s Sts.poweredOff)) := by
  simp [writeHit, hoff, hs]

/-- The unit's bytes written fall on one register, whose island runs. -/
theorem regWrite_one {h : Hit} {e : Dev} {st : Nat} (hp : pageOf a = none) (hbe : be ≠ 0)
    (hw : writtenHits a (byteMask be) = [h]) (hon : d.hitOn h a = true)
    (hr : writeReg q a h.reg h.ix (h.bitsIn a (byteMask be)) (h.bitsIn a v) d = (e, some st)) :
    regWrite q a be v d = (e, some st) := by
  have hit : writeHit q a (byteMask be) v (d, some Sts.ok) h = (e, some (worst Sts.ok st)) := writeHit_on rfl hon hr
  rw [regWrite_written hp hbe (by simp [hw]), hw, List.foldl_cons, List.foldl_nil, hit]
  simp [worst, Sts.ok]

theorem regWrite_one_off {h : Hit} (hp : pageOf a = none) (hbe : be ≠ 0) (hw : writtenHits a (byteMask be) = [h])
    (hoff : d.hitOn h a = false) : regWrite q a be v d = (d, some Sts.poweredOff) := by
  have hit : writeHit q a (byteMask be) v (d, some Sts.ok) h = (d, some (worst Sts.ok Sts.poweredOff)) := writeHit_off rfl hoff
  rw [regWrite_written hp hbe (by simp [hw]), hw, List.foldl_cons, List.foldl_nil, hit]
  rfl

/-! ### The Tally's mirror (R449) -/

theorem writeReg_tally {r : Register} {ix : List Nat} {m : Nat} (ha : a / 0x10000 = 0x11) :
    writeReg q a r ix m v d = (d, some Sts.tallyOnly) := by
  simp only [writeReg, ha]

/-- Every register of the block refuses: the unit is left, TALLY_ONLY. -/
theorem regWrite_tally (ha : a / 0x10000 = 0x11) (hbe : be ≠ 0) (hw : writtenHits a (byteMask be) ≠ []) :
    regWrite q a be v d = (d, some Sts.tallyOnly) := by
  have hp : pageOf a = none := by
    rw [pageOf, if_neg (by omega), if_neg (by omega)]
  have hit (s : Nat) (hs : worst s Sts.tallyOnly = Sts.tallyOnly) (h : Hit) :
      writeHit q a (byteMask be) v (d, some s) h = (d, some Sts.tallyOnly) := by
    have hon : d.hitOn h a = true := by simp [Dev.hitOn, Hit.island, ha]
    have hw := writeHit_on (q := q) (p := (d, some s)) (v := v) (m := byteMask be) rfl hon (writeReg_tally ha)
    rw [hw, hs]
  have fold (l : List Hit) : l.foldl (writeHit q a (byteMask be) v) (d, some Sts.tallyOnly) = (d, some Sts.tallyOnly) := by
    induction l with
    | nil => rfl
    | cons h l ih => rw [List.foldl_cons, hit Sts.tallyOnly rfl h, ih]
  rw [regWrite_written hp hbe hw]
  obtain ⟨h, l, hl⟩ := List.exists_cons_of_ne_nil hw
  rw [hl, List.foldl_cons, hit Sts.ok rfl h, fold l]

end Sys2Proof.Machine
end

section
/-! SUPPORT. Registers written whole: one field, or several that stand at different bit addresses. -/

namespace Sys2Proof.Machine

open Sys2Proof.Claims

/-! ### A register of one field -/

section
variable {q : Req} {r : Register} {ix : List Nat} {m v : Nat} {d : Dev} {f : Field}

theorem writePlain_one (hr : r.fields = [f]) : writePlain q r ix m v d = writeField q r.pos ix m v (d, Sts.ok) f := by
  simp [writePlain, writeFields, hr]

theorem of_start (hpos : f.pos = r.pos) (x : Nat) : f.of r.pos x = x % 2 ^ f.width := by
  simp [Field.of, bits, hpos]

/-- Every bit of the field is written, and it takes writes. -/
theorem writePlain_whole (hr : r.fields = [f]) (hpos : f.pos = r.pos) (hw : 0 < f.width) (hm : m % 2 ^ f.width = ones f.width)
    (hf : f.acc = .rw ∨ f.acc = .rwl ∧ d.locked q = false) : writePlain q r ix m v d = (d.wr f ix v, Sts.ok) := by
  have hne : f.of r.pos m ≠ 0 := by
    have := Nat.one_lt_two_pow hw.ne'
    rw [of_start hpos, hm, ones]
    omega
  rw [writePlain_one hr, writeField_takes hf hne, of_start hpos, of_start hpos, hm, mix_ones, wr_mod, wr_mod]

theorem writePlain_locked (hr : r.fields = [f]) (hf : f.acc = .rwl) (hl : d.locked q = true) (hm : f.of r.pos m ≠ 0) :
    writePlain q r ix m v d = (d, Sts.locked) := by
  rw [writePlain_one hr, writeField_locked hf hl hm]
  rfl

end

/-! ### Several fields -/

section
variable {q : Req} {pos : Nat} {ix : List Nat} {m v : Nat}

/-- What a field not guarded by ring lock holds after its write depends on what it held before, and on nothing else. -/
theorem writeField_rd_congr {p p' : Dev × Nat} {f : Field} (hf : f.acc ≠ .rwl) (h : p.1.rd f ix = p'.1.rd f ix) :
    (writeField q pos ix m v p f).1.rd f ix = (writeField q pos ix m v p' f).1.rd f ix := by
  by_cases hm : f.of pos m = 0
  · rw [writeField_unwritten hm, writeField_unwritten hm, h]
  cases ha : f.acc with
  | rwl => exact absurd ha hf
  | ro => simp only [writeField_keeps (.inl ha), h]
  | wo => simp only [writeField_keeps (.inr ha), h]
  | rwt => simp only [writeField_rwt ha hm, h]
  | rw => simp only [writeField_takes (.inl ha) hm, rd_wr, h]
  | w1c => simp only [writeField_w1c ha hm, rd_wr, h]
  | w1s => simp only [writeField_w1s ha hm, rd_wr, h]

theorem writeField_snd {p : Dev × Nat} {f : Field} (hl : f.acc ≠ .rwl) (ht : f.acc ≠ .rwt) :
    (writeField q pos ix m v p f).2 = p.2 := by
  by_cases hm : f.of pos m = 0
  · rw [writeField_unwritten hm]
  cases ha : f.acc with
  | rwl => exact absurd ha hl
  | rwt => exact absurd ha ht
  | ro => rw [writeField_keeps (.inl ha)]
  | wo => rw [writeField_keeps (.inr ha)]
  | rw => rw [writeField_takes (.inl ha) hm]
  | w1c => rw [writeField_w1c ha hm]
  | w1s => rw [writeField_w1s ha hm]

variable {fs : List Field} {p : Dev × Nat}

theorem foldl_writeField_mem : (fs.foldl (writeField q pos ix m v) p).1.mem = p.1.mem := by
  induction fs generalizing p with
  | nil => rfl
  | cons f fs ih => rw [List.foldl_cons, ih, writeField_mem]

theorem foldl_writeField_out : (fs.foldl (writeField q pos ix m v) p).1.out = p.1.out := by
  induction fs generalizing p with
  | nil => rfl
  | cons f fs ih => rw [List.foldl_cons, ih, writeField_out]

theorem foldl_writeField_snd (h : ∀ f ∈ fs, f.acc ≠ .rwl ∧ f.acc ≠ .rwt) :
    (fs.foldl (writeField q pos ix m v) p).2 = p.2 := by
  induction fs generalizing p with
  | nil => rfl
  | cons f fs ih =>
    obtain ⟨hl, ht⟩ := h f List.mem_cons_self
    rw [List.foldl_cons, ih fun g hg => h g (List.mem_cons_of_mem _ hg), writeField_snd hl ht]

theorem foldl_writeField_rd_ne {g : Field} {jx : List Nat} (h : ∀ f ∈ fs, g.key jx ≠ f.key ix) :
    (fs.foldl (writeField q pos ix m v) p).1.rd g jx = p.1.rd g jx := by
  induction fs generalizing p with
  | nil => rfl
  | cons f fs ih =>
    rw [List.foldl_cons, ih fun g hg => h g (List.mem_cons_of_mem _ hg),
      writeField_rd_ne (h f List.mem_cons_self)]

/-- Fields that stand at different bit addresses are written each as if alone. -/
theorem foldl_writeField_rd (hk : (fs.map (·.key ix)).Nodup) {f : Field} (hf : f ∈ fs) (ha : f.acc ≠ .rwl) :
    (fs.foldl (writeField q pos ix m v) p).1.rd f ix = (writeField q pos ix m v p f).1.rd f ix := by
  induction fs generalizing p with
  | nil => simp at hf
  | cons g fs ih =>
    obtain ⟨hg, hk⟩ := List.nodup_cons.mp hk
    have other : ∀ x ∈ fs, g.key ix ≠ x.key ix := fun x hx he => hg (List.mem_map.mpr ⟨x, hx, he.symm⟩)
    rw [List.foldl_cons]
    rcases List.mem_cons.mp hf with rfl | hf
    · exact foldl_writeField_rd_ne other
    · rw [ih hk hf]
      exact writeField_rd_congr ha (writeField_rd_ne (other f hf).symm)

/-- A written one-bit field of code W1C: where the written bit is 1 it reads 0 afterwards. -/
theorem rd_writeField_w1c_bit {f : Field} (ha : f.acc = .w1c) (hw : f.width = 1) (hm : fieldBit f pos m 0 = true)
    (hold : p.1.rd f ix < 2) :
    (writeField q pos ix m v p f).1.rd f ix = if fieldBit f pos v 0 then 0 else p.1.rd f ix := by
  have hof (x : Nat) : f.of pos x = (fieldBit f pos x 0).toNat := by
    simp [Field.of, bits, fieldBit, hw, Nat.toNat_testBit]
  rw [writeField_w1c ha (by rw [hof, hm]; decide), rd_wr, hof, hof, hm, hw]
  cases fieldBit f pos v 0 with
  | true => simp [ones]
  | false => simp [ones]; omega

end

/-! ### The same write of several fields in turn -/

theorem foldl_wr_regs {F : Nat → Field} {ix : List Nat} {g : Nat → Nat} (l : List Nat) (d : Dev) :
    ∃ regs, l.foldl (fun d i => d.wr (F i) ix (g i)) d = { d with regs := regs } := by
  induction l generalizing d with
  | nil => exact ⟨d.regs, rfl⟩
  | cons i l ih =>
    obtain ⟨regs, h⟩ := ih (d.wr (F i) ix (g i))
    exact ⟨regs, by rw [List.foldl_cons, h]; rfl⟩

theorem rd_foldl_wr {F : Nat → Field} {ix : List Nat} {g : Nat → Nat} {l : List Nat} {d : Dev}
    (hk : ∀ i ∈ l, ∀ j ∈ l, (F i).key ix = (F j).key ix → i = j) {b : Nat} (hb : b ∈ l) :
    (l.foldl (fun d i => d.wr (F i) ix (g i)) d).rd (F b) ix = g b % 2 ^ (F b).width := by
  induction l using List.reverseRecOn with
  | nil => simp at hb
  | append_singleton l i ih =>
    rw [List.foldl_append, List.foldl_cons, List.foldl_nil]
    by_cases hi : (F b).key ix = (F i).key ix
    · rw [hk b hb i (by simp) hi, rd_wr]
    · have hl : b ∈ l := by
        rcases List.mem_append.mp hb with hl | hl
        · exact hl
        · exact absurd (by rw [List.mem_singleton.mp hl]) hi
      rw [rd_wr_ne _ _ _ _ _ _ hi]
      exact ih (fun i hi j hj => hk i (by simp [hi]) j (by simp [hj])) hl

end Sys2Proof.Machine
end

section
/-! SUPPORT. The registers that the statements on register access name, each with where it stands and what its write
does. -/

namespace Sys2Proof.Machine

open Sys2Proof.Claims

/-! ### The registers -/

/-- TIM_SIN0_TOD. -/
def todReg : Register := ⟨0x85400, 64, [], [R.TIM_SIN0_TOD_sec]⟩
/-- TIM_SOUT_PHASE. -/
def phaseReg : Register := ⟨0x860C0, 64, [(512, 8)], [R.TIM_SOUT_PHASE_ofs]⟩
/-- DRV_EVT. -/
def drvEvtReg : Register := ⟨0x1000080, 32, [(32768, 96)], drvEvtFields⟩
/-- DRV_EVT_EN. -/
def drvEvtEnReg : Register := ⟨0x10000A0, 32, [(32768, 96)], drvEnFields⟩

/-- The unit of DRV_EVT and DRV_EVT_EN of drover `n`. -/
def drvUnit (n : Nat) : Nat := 0x200010 + 4096 * n

theorem hitsOf_tod : hitsOf (8 * 0x2150) = [⟨todReg, [], 8 * (8 * 0x2150)⟩] := rfl

theorem hitsOf_phase (n : Fin 8) :
    hitsOf (8 * (0x2183 + 8 * n)) = [⟨phaseReg, [n.val], 8 * (8 * (0x2183 + 8 * n))⟩] := by
  fin_cases n <;> rfl

theorem hitsOf_drvUnit (n : Fin 96) :
    hitsOf (drvUnit n) = [⟨drvEvtReg, [n.val], 8 * drvUnit n⟩, ⟨drvEvtEnReg, [n.val], 8 * drvUnit n + 32⟩] := by
  fin_cases n <;> rfl

/-! ### A register that fills a unit, all of it written -/

section
variable {q : Req} {a v : Nat} {d e : Dev} {r : Register} {ix : List Nat} {st : Nat}

theorem byteMask_all : byteMask 255 = ones 64 := by decide

theorem written_unit (hh : hitsOf a = [⟨r, ix, 8 * a⟩]) (hw : r.width = 64) :
    writtenHits a (byteMask 255) = [⟨r, ix, 8 * a⟩] := by
  simp [writtenHits, hh, bitsIn_base, hw, byteMask_all, ones]

theorem regWrite_unit (hp : pageOf a = none) (hh : hitsOf a = [⟨r, ix, 8 * a⟩]) (hw : r.width = 64) (hv : v < 2 ^ 64)
    (hon : d.hitOn ⟨r, ix, 8 * a⟩ a = true) (hr : writeReg q a r ix (ones 64) v d = (e, some st)) :
    regWrite q a 255 v d = (e, some st) := by
  refine regWrite_one hp (by decide) (written_unit hh hw) hon ?_
  rw [bitsIn_base rfl, bitsIn_base rfl, byteMask_all, hw, Nat.mod_eq_of_lt hv]
  exact hr

end

/-! ### The block of Reckoning time -/

section
variable {q : Req} {a v : Nat} {d : Dev}

theorem writeReg_tim {r : Register} {ix : List Nat} {m : Nat} (ha : a / 0x10000 = 1) :
    writeReg q a r ix m v d = ((writeTim q r ix m v d).1, some (writeTim q r ix m v d).2) := by
  simp only [writeReg, ha]

theorem hitOn_tim (h : Hit) (ha : a / 0x10000 = 1) : d.hitOn h a = true := by
  simp [Dev.hitOn, Hit.island, ha]

theorem writeTim_tod (ix : List Nat) (m : Nat) : writeTim q todReg ix m v d = writePlain q todReg ix m v d := rfl
theorem writeTim_phase (ix : List Nat) (m : Nat) : writeTim q phaseReg ix m v d = writePlain q phaseReg ix m v d := rfl

theorem regWrite_tod (hv : v < 2 ^ 64) : regWrite q (8 * 0x2150) 255 v d = (d.wr R.TIM_SIN0_TOD_sec [] v, some Sts.ok) := by
  refine regWrite_unit rfl hitsOf_tod rfl hv (hitOn_tim _ rfl) ?_
  rw [writeReg_tim rfl, writeTim_tod, writePlain_whole rfl rfl (by decide) (by decide) (.inl rfl)]

/-- The unit of TIM_SOUT_PHASE of output `n`. -/
theorem phaseUnit_place (n : Fin 8) : 8 * (0x2183 + 8 * n.val) / 0x10000 = 1 ∧ pageOf (8 * (0x2183 + 8 * n)) = none := by
  refine ⟨by omega, ?_⟩
  rw [pageOf, if_neg (by omega), if_neg (by omega)]

theorem regWrite_phase (n : Fin 8) (hv : v < 2 ^ 64) (hl : d.locked q = false) :
    regWrite q (8 * (0x2183 + 8 * n)) 255 v d = (d.wr R.TIM_SOUT_PHASE_ofs [n.val] v, some Sts.ok) := by
  obtain ⟨hblock, hpage⟩ := phaseUnit_place n
  refine regWrite_unit hpage (hitsOf_phase n) rfl hv (hitOn_tim _ hblock) ?_
  rw [writeReg_tim hblock, writeTim_phase, writePlain_whole rfl rfl (by decide) (by decide) (.inr ⟨rfl, hl⟩)]

theorem regWrite_phase_locked (n : Fin 8) (hv : v < 2 ^ 64) (hl : d.locked q = true) :
    regWrite q (8 * (0x2183 + 8 * n)) 255 v d = (d, some Sts.locked) := by
  obtain ⟨hblock, hpage⟩ := phaseUnit_place n
  refine regWrite_unit hpage (hitsOf_phase n) rfl hv (hitOn_tim _ hblock) ?_
  rw [writeReg_tim hblock, writeTim_phase, writePlain_locked rfl rfl hl (by decide)]

end

end Sys2Proof.Machine
end

section
/-! SUPPORT. The registers of a drover's causes and of their enables: where they stand, what their write does. -/

namespace Sys2Proof.Machine

open Sys2Proof.Claims

/-! ### The drovers' blocks -/

theorem drvUnit_block (n : Fin 96) : 0x20 ≤ drvUnit n / 0x10000 ∧ drvUnit n / 0x10000 ≤ 0x25 := by
  have := n.isLt
  simp only [drvUnit]
  omega

theorem pageOf_drvUnit (n : Fin 96) : pageOf (drvUnit n) = none := by
  obtain ⟨hlo, hhi⟩ := drvUnit_block n
  rw [pageOf, if_neg (by omega), if_neg (by omega)]

section
variable {q : Req} {a v : Nat} {d e : Dev}

theorem hitOn_drv (h : Hit) (hlo : 0x20 ≤ a / 0x10000) (hhi : a / 0x10000 ≤ 0x25) :
    d.hitOn h a = (d.island (droveIsland (h.ix.getD 0 0)) == 0) := by
  have : h.island a = some (droveIsland (h.ix.getD 0 0)) := by
    unfold Hit.island
    generalize a / 0x10000 = k at hlo hhi ⊢
    interval_cases k <;> rfl
  rw [Dev.hitOn, this]

theorem writeReg_drv {r : Register} {ix : List Nat} {m : Nat} (hlo : 0x20 ≤ a / 0x10000) (hhi : a / 0x10000 ≤ 0x25) :
    writeReg q a r ix m v d = ((writeDrv q r ix m v d).1, some (writeDrv q r ix m v d).2) := by
  unfold writeReg
  generalize a / 0x10000 = k at hlo hhi ⊢
  interval_cases k <;> rfl

/-! ### DRV_EVT -/

/-- The bits of DRV_EVT in turn. -/
theorem drvEvtFields_getD : ∀ b < 8, let f := drvEvtFields.getD b R.DRV_EVT_sw
    f.pos = 0x1000080 + b ∧ f.width = 1 ∧ f.acc = .w1c := by decide

theorem drvEvtFields_mem {b : Nat} (hb : b < 8) : drvEvtFields.getD b R.DRV_EVT_sw ∈ drvEvtFields := by
  rw [List.getD_eq_getElem _ _ (show b < drvEvtFields.length from hb)]
  exact List.getElem_mem _

theorem drvEvtFields_acc : ∀ f ∈ drvEvtFields, f.acc ≠ .rwl ∧ f.acc ≠ .rwt := by decide

theorem drvEvtFields_keys (n : Nat) : (drvEvtFields.map (·.key [n])).Nodup := by
  simp [drvEvtFields, Field.key, R.DRV_EVT_fault, R.DRV_EVT_wdog, R.DRV_EVT_halted, R.DRV_EVT_fill_done, R.DRV_EVT_rx_full,
    R.DRV_EVT_ts_lost, R.DRV_EVT_frozen, R.DRV_EVT_sw]

theorem writeDrv_evt (ix : List Nat) (m : Nat) :
    writeDrv q drvEvtReg ix m v d = drvEvtFields.foldl (writeField q 0x1000080 ix m v) (d, Sts.ok) := rfl

theorem byteMask_low : byteMask 15 = ones 32 := by decide

theorem written_drvEvt (n : Fin 96) : writtenHits (drvUnit n) (byteMask 15) = [⟨drvEvtReg, [n.val], 8 * drvUnit n⟩] := by
  simp [writtenHits, hitsOf_drvUnit, bitsIn_base, bitsIn_within, byteMask_low, ones, drvEvtReg, drvEvtEnReg]

/-- The device after the four bytes of DRV_EVT of drover `n` are written. -/
def drvEvtWritten (q : Req) (n v : Nat) (d : Dev) : Dev :=
  (drvEvtFields.foldl (writeField q 0x1000080 [n] (ones 32) (v % 2 ^ 32)) (d, Sts.ok)).1

theorem regWrite_drvEvt (n : Fin 96) (hon : d.island (droveIsland n) = 0) :
    regWrite q (drvUnit n) 15 v d = (drvEvtWritten q n v d, some Sts.ok) := by
  obtain ⟨hlo, hhi⟩ := drvUnit_block n
  refine regWrite_one (pageOf_drvUnit n) (by decide) (written_drvEvt n) ?_ ?_
  · rw [hitOn_drv _ hlo hhi]
    simpa using hon
  · rw [bitsIn_base rfl, bitsIn_base rfl, writeReg_drv hlo hhi, byteMask_low]
    have hst := foldl_writeField_snd (q := q) (pos := 0x1000080) (ix := [n.val]) (m := ones 32) (v := v % 2 ^ 32)
      (p := (d, Sts.ok)) drvEvtFields_acc
    exact Prod.ext rfl (congrArg some hst)

theorem regWrite_drvEvt_off (n : Fin 96) (hoff : d.island (droveIsland n) ≠ 0) :
    regWrite q (drvUnit n) 15 v d = (d, some Sts.poweredOff) := by
  obtain ⟨hlo, hhi⟩ := drvUnit_block n
  refine regWrite_one_off (pageOf_drvUnit n) (by decide) (written_drvEvt n) ?_
  rw [hitOn_drv _ hlo hhi]
  simpa using hoff

theorem drvEvtWritten_mem (n : Nat) : (drvEvtWritten q n v d).mem = d.mem := foldl_writeField_mem
theorem drvEvtWritten_out (n : Nat) : (drvEvtWritten q n v d).out = d.out := foldl_writeField_out

theorem drvEvtWritten_rd (n : Nat) {b : Nat} (hb : b < 8) (hold : d.rd (drvEvtFields.getD b R.DRV_EVT_sw) [n] < 2) :
    (drvEvtWritten q n v d).rd (drvEvtFields.getD b R.DRV_EVT_sw) [n] =
      if v.testBit b then 0 else d.rd (drvEvtFields.getD b R.DRV_EVT_sw) [n] := by
  obtain ⟨hpos, hw, ha⟩ := drvEvtFields_getD b hb
  have hbit (x : Nat) : fieldBit (drvEvtFields.getD b R.DRV_EVT_sw) 0x1000080 x 0 = x.testBit b := by
    rw [fieldBit, hpos, hw]
    simp
  have hm : (ones 32).testBit b = true := by
    rw [ones, Nat.testBit_two_pow_sub_one]
    exact decide_eq_true (by omega)
  rw [drvEvtWritten, foldl_writeField_rd (drvEvtFields_keys n) (drvEvtFields_mem hb) (by rw [ha]; decide),
    rd_writeField_w1c_bit ha hw (by rw [hbit, hm]) hold, hbit, Nat.testBit_mod_two_pow]
  simp [show b < 32 by omega]

/-! ### DRV_EVT_EN -/

theorem drvEnFields_getD : ∀ b < 8, let f := drvEnFields.getD b R.DRV_EVT_EN_sw
    f.pos = 0x10000A0 + b ∧ f.width = 1 ∧ f.dims = [(32768, 96)] := by decide

theorem drvEnFields_key (n : Nat) {b : Nat} (hb : b < 8) :
    (drvEnFields.getD b R.DRV_EVT_EN_sw).key [n] = 0x10000A0 + b + 32768 * n := by
  obtain ⟨hpos, -, hdims⟩ := drvEnFields_getD b hb
  rw [Field.key, hpos, hdims]
  simp

/-- The low byte of the four enabled: the unit's bits are those of DRV_EVT_EN, its low eight among them. -/
theorem byteMask_high : ∀ k < 16, k % 2 = 1 →
    byteMask (k * 16) % 2 ^ 32 = 0 ∧ byteMask (k * 16) / 2 ^ 32 % 2 ^ 32 % 2 ^ 8 = ones 8 := by decide

/-- The enables of drover `n` set to the low byte of `v`. -/
def drvEnabled (n v : Nat) (d : Dev) : Dev :=
  (List.range 8).foldl (fun d b => d.wr (drvEnFields.getD b R.DRV_EVT_EN_sw) [n] (bits v b 1)) d

/-- The causes of drover `n` that stand, of those the low byte of `v` enables. -/
def drvFires (n v : Nat) (d : Dev) : List Nat :=
  (List.range 8).filter fun b => v.testBit b && d.flag (drvEvtFields.getD b R.DRV_EVT_sw) [n]

/-- What a write of all enables of drover `n`, all clear before, leaves (R449). -/
def drvEnableWritten (n v : Nat) (d : Dev) : Dev :=
  if drvFires n v d = [] then drvEnabled n v d else (drvEnabled n v d).raise (152 + n) ((drvFires n v d).map (2 ^ ·)).sum

theorem setBitsOf_eq_range {m : Nat} (hm : m % 2 ^ 8 = ones 8) : setBitsOf 8 m = List.range 8 := by
  refine List.filter_eq_self.mpr fun b hb => ?_
  have hb : b < 8 := List.mem_range.mp hb
  have : (m % 2 ^ 8).testBit b = true := by
    rw [hm, ones, Nat.testBit_two_pow_sub_one]
    exact decide_eq_true hb
  rw [Nat.testBit_mod_two_pow] at this
  simpa [hb] using this

theorem writeDrv_en (n m : Nat) (hm : m % 2 ^ 8 = ones 8)
    (hclear : ∀ b, b < 8 → d.flag (drvEnFields.getD b R.DRV_EVT_EN_sw) [n] = false) :
    writeDrv q drvEvtEnReg [n] m v d = (drvEnableWritten n v d, Sts.ok) := by
  have hfire : ((setBitsOf 8 (m &&& v)).filter fun b =>
      !(d.flag (drvEnFields.getD b R.DRV_EVT_EN_sw) [n]) && d.flag (drvEvtFields.getD b R.DRV_EVT_sw) [n]) = drvFires n v d := by
    rw [setBitsOf, List.filter_filter, drvFires]
    refine List.filter_congr fun b hb => ?_
    have hmb : m.testBit b = true := (List.mem_filter.mp (setBitsOf_eq_range hm ▸ hb)).2
    rw [hclear b (List.mem_range.mp hb), Nat.testBit_and, hmb]
    simp [Bool.and_comm]
  have hdef : writeDrv q drvEvtEnReg [n] m v d = (d.writeEnables drvEvtFields drvEnFields [n] (152 + n) m v, Sts.ok) := rfl
  rw [hdef, Dev.writeEnables, show drvEnFields.length = 8 from rfl, hfire, setBitsOf_eq_range hm, drvEnableWritten]
  simp only [List.isEmpty_iff]
  rfl

theorem regWrite_drvEn (n : Fin 96) {k : Nat} (hk : k < 16) (hodd : k % 2 = 1) (hv : v < 2 ^ 32)
    (hon : d.island (droveIsland n) = 0)
    (hclear : ∀ b, b < 8 → d.flag (drvEnFields.getD b R.DRV_EVT_EN_sw) [n.val] = false) :
    regWrite q (drvUnit n) (k * 16) (v * 2 ^ 32) d = (drvEnableWritten n v d, some Sts.ok) := by
  obtain ⟨hlo, hhi⟩ := drvUnit_block n
  obtain ⟨hevt, hen⟩ := byteMask_high k hk hodd
  have hw : writtenHits (drvUnit n) (byteMask (k * 16)) = [⟨drvEvtEnReg, [n.val], 8 * drvUnit n + 32⟩] := by
    have hne : byteMask (k * 16) / 2 ^ 32 % 2 ^ 32 ≠ 0 := by
      intro h0
      rw [h0] at hen
      exact absurd hen (by decide)
    rw [writtenHits, hitsOf_drvUnit, List.filter_cons_of_neg (by rw [bitsIn_base rfl]; simpa [drvEvtReg] using hevt),
      List.filter_cons_of_pos (by rw [bitsIn_within rfl (by decide)]; simpa [drvEvtEnReg] using hne), List.filter_nil]
  refine regWrite_one (pageOf_drvUnit n) (by omega) hw ?_ ?_
  · rw [hitOn_drv _ hlo hhi]
    simpa using hon
  · rw [bitsIn_within rfl (by decide), bitsIn_within rfl (by decide), writeReg_drv hlo hhi,
      Nat.mul_div_cancel _ (by decide), show drvEvtEnReg.width = 32 from rfl, Nat.mod_eq_of_lt hv,
      writeDrv_en _ _ hen hclear]

theorem drvEnabled_regs (n v : Nat) (d : Dev) : ∃ regs, drvEnabled n v d = { d with regs := regs } :=
  foldl_wr_regs _ d

theorem drvEnabled_rd (n : Nat) {b : Nat} (hb : b < 8) :
    (drvEnabled n v d).rd (drvEnFields.getD b R.DRV_EVT_EN_sw) [n] = v / 2 ^ b % 2 := by
  obtain ⟨-, hw, -⟩ := drvEnFields_getD b hb
  have distinct : ∀ i ∈ List.range 8, ∀ j ∈ List.range 8,
      (drvEnFields.getD i R.DRV_EVT_EN_sw).key [n] = (drvEnFields.getD j R.DRV_EVT_EN_sw).key [n] → i = j := by
    intro i hi j hj h
    rw [drvEnFields_key n (List.mem_range.mp hi), drvEnFields_key n (List.mem_range.mp hj)] at h
    omega
  rw [drvEnabled, rd_foldl_wr distinct (List.mem_range.mpr hb), hw]
  simp [bits]

theorem drvEnableWritten_eventsOnly (n : Fin 96) (v : Nat) (d : Dev) :
    EventsOnly (drvEnabled n v d) (drvEnableWritten n v d) :=
  .ite (.refl _) (raise_eventsOnly _ (by omega) _)

end

end Sys2Proof.Machine
end

section
/-! SUPPORT. The commands of the statement on register access, and the statement. -/

namespace Sys2Proof.Machine

open Sys2Proof.Claims

theorem ok_accepted : Sts.ok ≠ 1 ∧ Sts.ok ≠ 3 ∧ Sts.ok ≠ 4 := by decide

theorem said_rd (d : Dev) (inp st v : Nat) (f : Field) (ix : List Nat) : (said d inp st v).rd f ix = d.rd f ix := rfl

theorem toNat_ne_zero {w : Nat} {b : BitVec w} (h : b ≠ 0) : b.toNat ≠ 0 :=
  fun h0 => h (BitVec.eq_of_toNat_eq h0)

theorem locked_iff (d : Dev) (q : Req) : d.locked q = true ↔ d.flag R.SYS_RING_LOCK_lock = true ∧ q.desc = false := by
  simp [Dev.locked]

/-! ### CAUSE_ENABLE_WRITE -/

theorem does_causeEnableWrite_drv {inp : Fin 101} {desc : Bool} {n : Fin 96} {be : BitVec 8} {v : BitVec 64} {d e : Dev}
    (hon : On d) (h : regWrite ⟨inp, desc⟩ (drvUnit n) (be.toNat % 16 * 16) (v.toNat * 2 ^ 32) d = (e, some Sts.ok)) :
    Does (.causeEnableWrite inp desc ⟨152 + n, by omega⟩ be v) d (said e inp 0 0) := by
  have hkey : R.DRV_EVT_EN_fault.key [152 + n.val - Ev.drover] = 0x10000A0 + 32768 * n := by
    simp [Field.key, R.DRV_EVT_EN_fault, Ev.drover]
  have hbyte : (0x10000A0 + 32768 * n.val) % 64 / 8 = 4 := by omega
  have hunit : (0x10000A0 + 32768 * n.val) / 64 * 8 = drvUnit n := by rw [drvUnit]; omega
  have hne : ¬ 152 + n.val = Ev.fabricUser := by rw [Ev.fabricUser]; omega
  have hdrv : Ev.drover ≤ 152 + n.val ∧ 152 + n.val < Ev.fabricUser := by rw [Ev.drover, Ev.fabricUser]; omega
  have := does_of_run (c := .causeEnableWrite inp desc ⟨152 + n, by omega⟩ be v) hon fun _ => rfl
  simp only [if_neg hne, if_pos hdrv, hkey, hbyte, hunit] at this
  rw [show be.toNat % 2 ^ (8 - 4) * 2 ^ 4 = be.toNat % 16 * 16 from rfl, show 2 ^ (8 * 4) = 2 ^ 32 from rfl, h] at this
  rwa [Option.getD_some, complete_accepted _ _ _ ok_accepted] at this

/-! ### RING_LOCK (R434) -/

theorem does_ringLock {inp : Fin 101} {d : Dev} (hon : On d) :
    Does (.ringLock inp) d (said (ringLock inp d) inp 0 0) := by
  have := does_of_run (c := .ringLock inp) hon fun _ => rfl
  rwa [complete_accepted _ _ _ ok_accepted] at this

/-! ### The management port (R303, R304) -/

/-- A register begins at the unit's place. -/
theorem bitsOut_base {h : Hit} {a : Nat} (hb : h.base = 8 * a) (x : Nat) : h.bitsOut a x = x % 2 ^ 64 := by
  simp [Hit.bitsOut, hb]

theorem regValue_one {r : Register} {f : Field} (d : Dev) (ix : List Nat) (hr : r.fields = [f]) (hpos : f.pos = r.pos)
    (hf : f.acc ≠ .wo) : regValue d r ix = d.rd f ix := by
  simp [regValue, hr, hpos, hf]

theorem regRead_tod (q : Req) (d : Dev) :
    regRead q (8 * 0x2150) 255 d = (d, Sts.ok, d.rd R.TIM_SIN0_TOD_sec % 2 ^ 64) := by
  have hw : (hitsOf (8 * 0x2150)).filter (fun h => h.bitsIn (8 * 0x2150) (byteMask 255) != 0) =
      [⟨todReg, [], 8 * (8 * 0x2150)⟩] := written_unit hitsOf_tod rfl
  have hon : d.hitOn ⟨todReg, [], 8 * (8 * 0x2150)⟩ (8 * 0x2150) = true := hitOn_tim _ rfl
  have hread : readReg q todReg [] 0 d = (d, regValue d todReg []) := rfl
  have hval : regValue d todReg [] = d.rd R.TIM_SIN0_TOD_sec := regValue_one d [] rfl rfl (by decide)
  have hout (x : Nat) : (⟨todReg, [], 8 * (8 * 0x2150)⟩ : Hit).bitsOut (8 * 0x2150) x &&& byteMask 255 = x % 2 ^ 64 := by
    rw [byteMask_all, ones, Nat.and_two_pow_sub_one_eq_mod, bitsOut_base rfl, Nat.mod_mod]
  simp only [regRead, show pageOf (8 * 0x2150) = none from rfl, hw, List.foldl_cons, List.foldl_nil, hon, if_true,
    List.isEmpty_cons, Nat.sub_self, Nat.zero_div, hread, hval, Nat.zero_add, hout]
  rfl

/-- A read of the port of an island whose user logic runs is answered and counted. -/
theorem fabMgmt_read {i a be x : Nat} {d : Dev} (hruns : d.fabRuns i = true) (hsect : d.rd R.FAB_ISL_STAT_sect_rcfg [i] = 0)
    (hr : regRead ⟨96, false⟩ a be d = (d, Sts.ok, x)) (v : Nat) :
    fabMgmt i false a be v d = ((d.wr R.FAB_MGMT_STAT_last [] i).bumpWrap R.FAB_MGMT_STAT_served []).emit (.mgmt i Sts.ok x) := by
  simp [fabMgmt, hruns, hsect, hr, Dev.denied, Sts.ok, Sts.unmapped, Sts.protected_, Sts.locked]

/-! ### Stile time-outs (R23) -/

/-- The device after the time-out of a stopped island, before the event is raised. -/
def tmoLogged (i : Nat) (d : Dev) : Dev :=
  let e : Dev := { d with tmo := if i ∈ d.tmo then d.tmo else d.tmo ++ [i] }
  ((e.bump R.SYS_STILE_TMO_LOG_count []).wr R.SYS_STILE_TMO_LOG_island [] i).wr R.SYS_STILE_TMO_LOG_valid [] 1

theorem stileTimeout_running {i : Nat} {d : Dev} (h : d.island i = 0) : stileTimeout i d = d := if_pos h

theorem stileTimeout_stopped {i : Nat} {d : Dev} (h : d.island i ≠ 0) :
    stileTimeout i d = (tmoLogged i d).raise Ev.stileTimeout i := if_neg h

theorem mem_tmoLogged (i : Nat) (d : Dev) : i ∈ (tmoLogged i d).tmo := by
  show i ∈ if i ∈ d.tmo then d.tmo else d.tmo ++ [i]
  split
  · assumption
  · simp

theorem tmoLogged_island {i : Nat} (hi : i < 112) (d : Dev) : (tmoLogged i d).rd R.SYS_STILE_TMO_LOG_island = i := by
  rw [tmoLogged, rd_wr_ne _ _ _ _ _ _ (by decide), rd_wr]
  exact Nat.mod_eq_of_lt (Nat.lt_trans hi (by decide))

theorem tmoLogged_valid (i : Nat) (d : Dev) : (tmoLogged i d).rd R.SYS_STILE_TMO_LOG_valid = 1 := by
  rw [tmoLogged, rd_wr]
  rfl

theorem tmoLogged_count (i : Nat) (d : Dev) :
    (tmoLogged i d).rd R.SYS_STILE_TMO_LOG_count = min (d.rd R.SYS_STILE_TMO_LOG_count + 1) (2 ^ 16 - 1) := by
  have hw : R.SYS_STILE_TMO_LOG_count.width = 16 := rfl
  rw [tmoLogged, rd_wr_ne _ _ _ _ _ _ (by decide), rd_wr_ne _ _ _ _ _ _ (by decide), Dev.bump, rd_wr, hw, satInc, ones]
  show (if d.rd R.SYS_STILE_TMO_LOG_count + 1 > 2 ^ 16 - 1 then _ else d.rd R.SYS_STILE_TMO_LOG_count + 1) % 2 ^ 16 = _
  split <;> omega

end Sys2Proof.Machine

namespace Sys2Proof.Claims
open Sys2Proof.Machine

/-! ### REGISTER_WRITE and CAUSE_ENABLE_WRITE -/

theorem toNat_phaseUnit (n : Fin 8) : 8 * (BitVec.ofNat 21 (0x2183 + 8 * n)).toNat = 8 * (0x2183 + 8 * n.val) := by
  rw [BitVec.toNat_ofNat, Nat.mod_eq_of_lt (by omega)]

theorem toNat_drvUnit (n : Fin 96) : 8 * (BitVec.ofNat 21 (0x40002 + 512 * n)).toNat = drvUnit n := by
  rw [BitVec.toNat_ofNat, Nat.mod_eq_of_lt (by omega), drvUnit]
  omega

/-- A place that no register holds: no unit is written, whatever bytes are enabled. -/
theorem written_nowhere {a : Nat} (h : hitsOf a = []) (m : Nat) : writtenHits a m = [] := by
  rw [writtenHits, h, List.filter_nil]

section
variable {d : Dev} (hon : On d) (inp : Fin 101) (desc : Bool) (v : BitVec 64)
include hon

theorem does_write_tod : Does (.registerWrite inp desc 0x2150 255 v) d (said (d.wr R.TIM_SIN0_TOD_sec [] v.toNat) inp 0 0) := by
  have := does_registerWrite (a := 0x2150) (be := 255) hon (regWrite_tod (q := ⟨inp, desc⟩) v.isLt)
  rwa [complete_accepted _ _ _ ok_accepted] at this

theorem does_write_phase (n : Fin 8) (hl : d.locked ⟨inp, desc⟩ = false) :
    Does (.registerWrite inp desc (BitVec.ofNat 21 (0x2183 + 8 * n)) 255 v) d
      (said (d.wr R.TIM_SOUT_PHASE_ofs [n.val] v.toNat) inp 0 0) := by
  have h := regWrite_phase n v.isLt hl
  rw [← toNat_phaseUnit] at h
  have := does_registerWrite (be := 255) hon h
  rwa [complete_accepted _ _ _ ok_accepted] at this

theorem does_write_phase_locked (n : Fin 8) (hl : d.locked ⟨inp, desc⟩ = true) :
    Does (.registerWrite inp desc (BitVec.ofNat 21 (0x2183 + 8 * n)) 255 v) d ((said d inp 4 0).raise 3 (inp + 1024)) := by
  have h := regWrite_phase_locked n v.isLt hl
  rw [← toNat_phaseUnit] at h
  have := does_registerWrite (be := 255) hon h
  rwa [complete_denied (st := Sts.locked) _ _ _ (.inr (.inr rfl))] at this

theorem does_write_drvEvt (n : Fin 96) (hrun : d.island (64 + n / 8) = 0) :
    Does (.registerWrite inp desc (BitVec.ofNat 21 (0x40002 + 512 * n)) 15 v) d
      (said (drvEvtWritten ⟨inp, desc⟩ n v.toNat d) inp 0 0) := by
  have h := regWrite_drvEvt (q := ⟨inp, desc⟩) (v := v.toNat) n hrun
  rw [← toNat_drvUnit] at h
  have := does_registerWrite (be := 15) hon h
  rwa [complete_accepted _ _ _ ok_accepted] at this

theorem does_write_drvEvt_off (n : Fin 96) (hstop : d.island (64 + n / 8) ≠ 0) :
    Does (.registerWrite inp desc (BitVec.ofNat 21 (0x40002 + 512 * n)) 15 v) d (said d inp 2 0) := by
  have h := regWrite_drvEvt_off (q := ⟨inp, desc⟩) (v := v.toNat) n hstop
  rw [← toNat_drvUnit] at h
  have := does_registerWrite (be := 15) hon h
  rwa [complete_accepted _ _ _ (by decide)] at this

theorem does_write_noByte (a : BitVec 21) (hp : pageOf (8 * a.toNat) = none) :
    Does (.registerWrite inp desc a 0 v) d (said d inp 0 0) := by
  have := does_registerWrite (be := 0) hon (regWrite_noByte (q := ⟨inp, desc⟩) (v := v.toNat) hp)
  rwa [complete_accepted _ _ _ ok_accepted] at this

theorem does_write_unmapped (a : BitVec 21) (be : BitVec 8) (hbe : be ≠ 0) (hp : pageOf (8 * a.toNat) = none)
    (hh : hitsOf (8 * a.toNat) = []) :
    Does (.registerWrite inp desc a be v) d ((said d inp 1 0).raise 3 (inp + 256)) := by
  have := does_registerWrite hon
    (regWrite_nowhere (q := ⟨inp, desc⟩) (v := v.toNat) hp (toNat_ne_zero hbe) (written_nowhere hh _))
  rwa [complete_denied (st := Sts.unmapped) _ _ _ (.inl rfl)] at this

theorem does_write_tally (a : BitVec 21) (be : BitVec 8) (hbe : be ≠ 0) (ha : a.toNat / 8192 = 0x11) (h : Hit)
    (hh : h ∈ hitsOf (8 * a.toNat)) (hm : h.bitsIn (8 * a.toNat) (byteMask be.toNat) ≠ 0) :
    Does (.registerWrite inp desc a be v) d (said d inp 5 0) := by
  have hw : writtenHits (8 * a.toNat) (byteMask be.toNat) ≠ [] :=
    List.ne_nil_of_mem (List.mem_filter.mpr ⟨hh, bne_iff_ne.mpr hm⟩)
  have := does_registerWrite hon
    (regWrite_tally (q := ⟨inp, desc⟩) (v := v.toNat) (by omega) (toNat_ne_zero hbe) hw)
  rwa [complete_accepted _ _ _ (by decide)] at this

/-- The low byte of the enable register is enabled, by byte 0 of the command. -/
theorem does_write_drvEn (n : Fin 96) (be : BitVec 8) (hbe : be.getLsbD 0 = true) (hrun : d.island (64 + n / 8) = 0)
    (hv : v.toNat < 256) (hclear : ∀ b, b < 8 → d.flag (drvEnFields.getD b R.DRV_EVT_EN_sw) [n.val] = false) :
    Does (.causeEnableWrite inp desc ⟨152 + n, by omega⟩ be v) d (said (drvEnableWritten n v.toNat d) inp 0 0) := by
  have hodd : be.toNat % 2 = 1 := by simpa [BitVec.getLsbD, Nat.testBit_zero] using hbe
  exact does_causeEnableWrite_drv hon (regWrite_drvEn n (by omega) (by omega) (by omega) hrun hclear)

end

/-- The enables take the byte written, and memory stands. -/
theorem drvEnableWritten_spec (n : Fin 96) (v : Nat) (d : Dev) :
    (∀ b, b < 8 → (drvEnableWritten n v d).rd (drvEnFields.getD b R.DRV_EVT_EN_sw) [n.val] = v / 2 ^ b % 2) ∧
      (drvEnableWritten n v d).mem = d.mem := by
  have only := drvEnableWritten_eventsOnly n v d
  obtain ⟨regs, hregs⟩ := drvEnabled_regs n v d
  refine ⟨fun b hb => ?_, ?_⟩
  · rw [only.rd _ _ (.inr (by rw [drvEnFields_key _ hb]; omega)), drvEnabled_rd n hb]
  · rw [only.mem, hregs]

/-- The source of drover `n` is raised exactly where a cause that stands is newly enabled (R449). -/
theorem drvEnableWritten_raises (n v : Nat) (d : Dev) :
    (drvFires n v d = [] → (drvEnableWritten n v d).evt = d.evt) ∧
    (drvFires n v d ≠ [] → ∃ e : Dev, drvEnableWritten n v d = e.raise (152 + n) ((drvFires n v d).map (2 ^ ·)).sum ∧
      e.evt = d.evt ∧ e.mem = d.mem) := by
  obtain ⟨regs, hregs⟩ := drvEnabled_regs n v d
  refine ⟨fun h => ?_, fun h => ⟨drvEnabled n v d, if_neg h, ?_, ?_⟩⟩
  · rw [drvEnableWritten, if_pos h, hregs]
  · rw [hregs]
  · rw [hregs]

/-! ### The management port and stile time-outs -/

theorem mgmt_read_tod {d : Dev} (hon : On d) (i : Fin 64) (hruns : d.fabRuns i = true)
    (hsect : d.rd R.FAB_ISL_STAT_sect_rcfg [i.val] = 0) : ∃ d',
      Does (.fabMgmtRequest i false 0x2150 255 0) d d' ∧
      d'.out = .mgmt i 0 (d.rd R.TIM_SIN0_TOD_sec % 2 ^ 64) :: d.out ∧ d'.rd R.FAB_MGMT_STAT_last = i ∧ d'.mem = d.mem := by
  have hd : Does (.fabMgmtRequest i false 0x2150 255 0) d (fabMgmt i false (8 * 0x2150) 255 0 d) :=
    does_of_run hon fun _ => rfl
  rw [fabMgmt_read hruns hsect (regRead_tod _ d)] at hd
  refine ⟨_, hd, rfl, ?_, rfl⟩
  show (((d.wr R.FAB_MGMT_STAT_last [] i).bumpWrap R.FAB_MGMT_STAT_served []).rd R.FAB_MGMT_STAT_last) = i
  rw [Dev.bumpWrap, rd_wr_ne _ _ _ _ _ _ (by decide), rd_wr]
  exact Nat.mod_eq_of_lt i.isLt

theorem stileTimeout_stops {d : Dev} (hon : On d) (i : Fin 112) (hstop : d.island i ≠ 0) : ∃ d',
    Does (.stileTimeout i) d d' ∧ (i : Nat) ∈ d'.tmo ∧ d'.rd R.SYS_STILE_TMO_LOG_island = i ∧
      d'.rd R.SYS_STILE_TMO_LOG_valid = 1 ∧ d'.mem = d.mem ∧ d'.out = d.out ∧
      d'.rd R.SYS_STILE_TMO_LOG_count = min (d.rd R.SYS_STILE_TMO_LOG_count + 1) (2 ^ 16 - 1) := by
  have hd := does_of_run (c := .stileTimeout i) hon fun _ => rfl
  have only : EventsOnly (tmoLogged i d) (stileTimeout i d) := by
    rw [stileTimeout_stopped hstop]
    exact raise_eventsOnly _ (by decide) _
  refine ⟨_, hd, ?_, ?_, ?_, only.mem, only.out, ?_⟩
  · rw [only.tmo]; exact mem_tmoLogged i d
  · rw [only.rd _ _ (.inl (by decide)), tmoLogged_island i.isLt]
  · rw [only.rd _ _ (.inl (by decide)), tmoLogged_valid]
  · rw [only.rd _ _ (.inl (by decide)), tmoLogged_count]

/-- The second half of O14: each command by where its access falls. -/
theorem registerAccess : RegisterAccess := by
  intro d hon
  refine ⟨fun inp desc v => ?_, fun inp => ⟨fun hl => ?_, fun hl => ?_⟩, fun i => mgmt_read_tod hon i,
    fun i => ⟨fun h => ?_, stileTimeout_stops hon i⟩⟩
  · refine ⟨does_write_tod hon inp desc v, fun n => ⟨fun hl => ?_, fun hl => ?_⟩, fun n hrun => ?_,
      does_write_drvEvt_off hon inp desc v, does_write_noByte hon inp desc v, does_write_unmapped hon inp desc v,
      does_write_tally hon inp desc v, fun n be hbe hrun hv hclear => ?_⟩
    · exact does_write_phase hon inp desc v n (Bool.eq_false_iff.mpr fun h => hl ((locked_iff d _).mp h))
    · exact does_write_phase_locked hon inp desc v n ((locked_iff d ⟨inp, desc⟩).mpr hl)
    · refine ⟨_, does_write_drvEvt hon inp desc v n hrun, ?_, ?_, fun b hb hold => ?_⟩
      · rw [said, emit_out, drvEvtWritten_out]
      · rw [said, emit_mem, drvEvtWritten_mem]
      · rw [said_rd, drvEvtWritten_rd n hb hold]
        rfl
    · obtain ⟨hrd, hmem⟩ := drvEnableWritten_spec n v.toNat d
      exact ⟨_, _, does_write_drvEn hon inp desc v n be hbe hrun hv hclear, hrd, hmem, rfl,
        drvEnableWritten_raises n v.toNat d⟩
  · have := does_ringLock (inp := inp) hon
    rwa [ringLock, if_pos hl] at this
  · have := does_ringLock (inp := inp) hon
    rwa [ringLock, if_neg (by simp [hl])] at this
  · have := does_of_run (c := .stileTimeout i) hon fun _ => rfl
    rwa [stileTimeout_running h] at this

/-- Settles O14: a field by its access code, bit by bit; each access by where its unit falls. -/
theorem registerRules : Obligations.RegisterRules := ⟨fieldAccessCodes, registerAccess⟩

end Sys2Proof.Claims
end

section
/-! SUPPORT. The canonical form of memory and the register table (`Canon`), and that it holds through the model's
control
flow. `Canon.f` says that the model's function `f` keeps it: of a pair its first component, of a `QAct` the device. -/

namespace Sys2Proof.Machine

/-- The register table rises and memory has its canonical form. -/
structure Canon (d : Dev) : Prop where
  regs : rising d.regs = true
  mem : memWf d.mem = true

theorem canonical_iff (d : Dev) : canonical d = true ↔ Canon d := by
  rw [canonical, Bool.and_eq_true]
  exact ⟨fun h => ⟨h.1, h.2⟩, fun h => ⟨h.regs, h.mem⟩⟩

theorem memWf_filter {m : List Host.Cell} {q : Host.Cell → Bool} (h : memWf m = true) : memWf (m.filter q) = true := by
  simp only [memWf, tableWf, Bool.and_eq_true, List.all_eq_true] at h ⊢
  exact ⟨rising_filter _ _ h.1, fun e he => h.2 e (List.mem_filter.mp he).1⟩

/-- The device an instruction leaves to its retirement. -/
def QAct.dev : QAct → Dev
  | .go d _ | .jump d _ _ | .fault d _ _ | .block d _ => d

namespace Canon

/-! ### Control flow -/

section
variable {α β : Type} {c : Prop} [Decidable c]

theorem ite {a b : Dev} (ha : Canon a) (hb : Canon b) : Canon (if c then a else b) := by
  split
  · exact ha
  · exact hb

theorem iteFst {a b : Dev × α} (ha : Canon a.1) (hb : Canon b.1) : Canon (if c then a else b).1 := by
  split
  · exact ha
  · exact hb

theorem iteAct {a b : QAct} (ha : Canon a.dev) (hb : Canon b.dev) : Canon (if c then a else b).dev := by
  split
  · exact ha
  · exact hb

theorem foldl {d : Dev} {f : Dev → α → Dev} {l : List α} (h : Canon d) (hf : ∀ d x, Canon d → Canon (f d x)) :
    Canon (l.foldl f d) := by
  induction l generalizing d with
  | nil => exact h
  | cons x l ih => exact ih (hf d x h)

theorem foldlFst {p : Dev × β} {f : Dev × β → α → Dev × β} {l : List α} (h : Canon p.1)
    (hf : ∀ p x, Canon p.1 → Canon (f p x).1) : Canon (l.foldl f p).1 := by
  induction l generalizing p with
  | nil => exact h
  | cons x l ih => exact ih (hf p x h)

theorem ofFst {p : Dev × α} {d : Dev} {a : α} (e : p = (d, a)) (h : Canon p.1) : Canon d := by
  rwa [e] at h

end

variable {d : Dev}

/-- What is neither a register nor memory does not matter. -/
theorem same {isl tmo free out tim evt prt rte drv ddr nvc med sac cfg fab hrd bst tly pwr lcs} (h : Canon d) :
    Canon ⟨d.regs, d.mem, isl, tmo, free, out, tim, evt, prt, rte, drv, ddr, nvc, med, sac, cfg, fab, hrd, bst, tly, pwr, lcs⟩ :=
  ⟨h.regs, h.mem⟩

/-- Bytes of memory dropped. -/
theorem filterMem {q : Host.Cell → Bool} {isl tmo free out tim evt prt rte drv ddr nvc med sac cfg fab hrd bst tly pwr lcs}
    (h : Canon d) : Canon ⟨d.regs, d.mem.filter q, isl, tmo, free, out, tim, evt, prt, rte, drv, ddr, nvc, med, sac, cfg, fab,
      hrd, bst, tly, pwr, lcs⟩ :=
  ⟨h.regs, memWf_filter h.mem⟩

/-- Bytes of memory and registers dropped. -/
theorem filterBoth {p : Nat × Nat → Bool} {q : Host.Cell → Bool}
    {isl tmo free out tim evt prt rte drv ddr nvc med sac cfg fab hrd bst tly pwr lcs} (h : Canon d) :
    Canon ⟨d.regs.filter p, d.mem.filter q, isl, tmo, free, out, tim, evt, prt, rte, drv, ddr, nvc, med, sac, cfg, fab, hrd,
      bst, tly, pwr, lcs⟩ :=
  ⟨rising_filter _ _ h.regs, memWf_filter h.mem⟩

theorem pair {α : Type} {a : α} (h : Canon d) : Canon (d, a).1 := h
theorem actGo {x : Thr} (h : Canon d) : Canon (QAct.go d x).dev := h
theorem actJump {x : Thr} {pc : Nat} (h : Canon d) : Canon (QAct.jump d x pc).dev := h
theorem actFault {code : Nat} {a : Option Nat} (h : Canon d) : Canon (QAct.fault d code a).dev := h

theorem wr {f : Field} {ix : List Nat} {v : Nat} (h : Canon d) : Canon (d.wr f ix v) := ⟨rising_wr _ _ _ _ h.regs, h.mem⟩
theorem setByte {a : Nat} {b : Byte} (h : Canon d) : Canon (d.setByte a b) := ⟨h.regs, memWf_setByte _ _ _ h.mem⟩
theorem setBytes {a : Nat} {l : List Byte} (h : Canon d) : Canon (d.setBytes a l) :=
  ⟨(setBytes_regs d a l).symm ▸ h.regs, memWf_setBytes _ _ _ h.mem⟩

end Canon

end Sys2Proof.Machine
end

section
/-! SUPPORT. What keeps a canonical device canonical: registers, memory and outputs; events, flags and statuses. -/

namespace Sys2Proof.Machine.Canon

variable {d : Dev}

theorem bump {f : Field} {ix : List Nat} {n : Nat} (h : Canon d) : Canon (d.bump f ix n) := h.wr
theorem bumpWrap {f : Field} {ix : List Nat} {n : Nat} (h : Canon d) : Canon (d.bumpWrap f ix n) := h.wr
theorem wrS {f : Field} {ix : List Nat} {v : Int} (h : Canon d) : Canon (d.wrS f ix v) := h.wr
theorem setBit {f : Field} {ix : List Nat} {b : Nat} (h : Canon d) : Canon (d.setBit f ix b) := h.wr
theorem clearBit {f : Field} {ix : List Nat} {b : Nat} (h : Canon d) : Canon (d.clearBit f ix b) := h.wr
theorem store {a n v : Nat} (h : Canon d) : Canon (d.store a n v) := h.setBytes
theorem draw {w : Nat} (h : Canon d) : Canon (d.draw w).1 := .pair h.same
theorem loseMem {a n : Nat} (h : Canon d) : Canon (d.loseMem a n) := h.foldl fun _ _ h1 => h1.same.setByte
theorem drawWide {n : Nat} (h : Canon d) : Canon (d.drawWide n).1 := h.foldlFst fun _ _ h1 => .pair h1.same
theorem wipe {a n : Nat} (h : Canon d) : Canon (d.wipe a n) := h.filterMem
theorem emit {o : Out} (h : Canon d) : Canon (d.emit o) := h.same
theorem setIsland {i c : Nat} (h : Canon d) : Canon (d.setIsland i c) := h.same
theorem withPwr {f : PwrSt → PwrSt} (h : Canon d) : Canon (d.withPwr f) := h.same

theorem acceptRaise {put : List EvRec → List EvRec} (h : Canon d) : Canon (d.acceptRaise put) := .ite h.same h.bump

theorem raiseAt {src info time : Nat} {pre : Option Nat} (h : Canon d) : Canon (d.raiseAt src info time pre) := by
  unfold Dev.raiseAt
  refine .ite h ?_
  extract_lets +onlyGivenNames d1 d2
  have h1 : Canon d1 := h.setBit
  have h2 : Canon d2 := .ite h1.setBit h1
  exact .ite (.ite h2.same h2.acceptRaise) h2

theorem raise {src info : Nat} (h : Canon d) : Canon (d.raise src info) := h.raiseAt

theorem followReady (h : Canon d) : Canon d.followReady := by
  unfold Dev.followReady
  extract_lets +onlyGivenNames _ _ _ d1
  have h1 : Canon d1 := h.wr
  exact .ite h1.raise h1

theorem setReady {b v : Nat} (h : Canon d) : Canon (d.setReady b v) := .ite h h.wr.raise.followReady
theorem hrdCount {k n : Nat} (h : Canon d) : Canon (d.hrdCount k n) := h.bumpWrap
theorem hrdAlert {code : Nat} (h : Canon d) : Canon (d.hrdAlert code) := h.wr.wr.wr.raise
theorem fireWake {src inp : Nat} (h : Canon d) : Canon (d.fireWake src inp) := .ite h.same h
theorem stileTimeout {i : Nat} (h : Canon d) : Canon (stileTimeout i d) := .ite h h.same.bump.wr.wr.raise
theorem tapSent {n : Nat} (h : Canon d) : Canon (d.tapSent n) := h.same
theorem tapPps {ts : Nat} (h : Canon d) : Canon (d.tapPps ts) := h.tapSent.same
theorem tapAcct {tenant sid port len ts : Nat} (h : Canon d) : Canon (d.tapAcct tenant sid port len ts) :=
  h.tapSent.same
theorem tapAudio {port stream rtpTs ts : Nat} {payload : List Byte} (h : Canon d) :
    Canon (d.tapAudio port stream rtpTs ts payload) :=
  h.tapSent.same
theorem tapInbox {l : List Byte} (h : Canon d) : Canon (d.tapInbox l) := .ite h (.ite h.bumpWrap h.bumpWrap.same)
theorem denied {inp status : Nat} (h : Canon d) : Canon (d.denied inp status) := .ite h.raise h
theorem complete {q : Req} {status value : Nat} (h : Canon d) : Canon (d.complete q status value) := h.emit.denied

end Sys2Proof.Machine.Canon
end

section
/-! SUPPORT. What keeps a canonical device canonical: the ports (chapter 03). -/

namespace Sys2Proof.Machine.Canon

variable {d : Dev}

theorem withPrt {f : PrtSt → PrtSt} (h : Canon d) : Canon (d.withPrt f) := h.same
theorem prtCount {q s k n : Nat} (h : Canon d) : Canon (d.prtCount q s k n) := h.bumpWrap
theorem setStep {q s n : Nat} (h : Canon d) : Canon (d.setStep q s n) := h.same

theorem linkDown {q s : Nat} (h : Canon d) : Canon (d.linkDown q s) := by
  unfold Dev.linkDown
  extract_lets +onlyGivenNames _ d1
  have h1 : Canon d1 := h.clearBit.clearBit.clearBit.clearBit
  exact .ite h1.raise.fireWake h1

theorem enableSub {q s : Nat} {on : Bool} (h : Canon d) : Canon (d.enableSub q s on) :=
  .ite h.setStep h.linkDown.setStep

theorem writePrtCfg {r : Req} {q m v : Nat} (h : Canon d) : Canon (writePrtCfg r q m v d).1 := by
  unfold Machine.writePrtCfg
  refine .iteFst h ?_
  extract_lets +onlyGivenNames _ _ _ _ d1 part d3 d4 d5
  have h1 : Canon d1 := .ite h.wr h
  have h2 : ∀ d x1 x2, Canon d → Canon (part d x1 x2) := fun _ _ _ h2 => h2.wr
  have h3 : Canon d3 := h2 _ _ _ h1
  have h4 : Canon d4 := h2 _ _ _ h3
  have h5 : Canon d5 := h2 _ _ _ h4
  exact .iteFst (.pair h5.wr.raise) (.pair (h5.wr.foldl fun _ _ h7 => .ite h7.enableSub h7))

theorem serdesCalDone (h : Canon d) : Canon (serdesCalDone d) :=
  .ite h (h.setReady.foldl fun _ _ h2 => .ite h2.setStep h2)
theorem cdrLock {q s : Nat} (h : Canon d) : Canon (cdrLock q s d) := .ite h.setStep h
theorem fecLock {q s : Nat} (h : Canon d) : Canon (fecLock q s d) := .ite h.setBit.setStep h
theorem pcsLock {q s : Nat} (h : Canon d) : Canon (pcsLock q s d) := .ite h.setBit.setBit.setStep.raise.fireWake h

theorem sendPfc {q p quanta : Nat} (h : Canon d) : Canon (d.sendPfc q p quanta) := by
  unfold Dev.sendPfc
  refine h.foldl fun _ _ h1 => ?_
  refine .ite ?_ h1
  extract_lets +onlyGivenNames d2
  have h2 : Canon d2 := h1.emit.prtCount.prtCount
  exact .ite h2 h2.prtCount

theorem takeCell {q p : Nat} (h : Canon d) : Canon (d.takeCell q p) := by
  unfold Dev.takeCell
  extract_lets +onlyGivenNames _ d1 d2
  have h1 : Canon d1 := h.wr
  have h2 : Canon d2 := .ite h1.wr h1
  exact .ite h2.same.sendPfc h2

theorem freeCells {q p n : Nat} (h : Canon d) : Canon (d.freeCells q p n) := by
  unfold Dev.freeCells
  extract_lets +onlyGivenNames _ d1
  have h1 : Canon d1 := h.wr
  exact .ite h1.same.sendPfc h1

theorem dropPri {q p : Nat} (h : Canon d) : Canon (d.dropPri q p) := h.bumpWrap.raise
theorem setProg {q s : Nat} {i : InProg} (h : Canon d) : Canon (d.setProg q s i) := h.same
theorem cellAlloc {q s p : Nat} (h : Canon d) : Canon (cellAlloc q s p d) :=
  .ite h (.ite h.takeCell.setProg h.freeCells.setProg.dropPri)

theorem cellsAlloc {q s p n : Nat} (h : Canon d) : Canon (cellsAlloc q s p n d) := by
  induction n generalizing d with
  | zero => exact h
  | succ n ih => exact ih h.cellAlloc

theorem endProg {q s : Nat} (h : Canon d) : Canon (d.endProg q s) := .setProg (.ite h h.freeCells)
theorem writeBufLim {r : Req} {q p m v : Nat} (h : Canon d) : Canon (writeBufLim r q p m v d).1 :=
  .iteFst h (.iteFst (.pair h.wr.raise) (.pair h.wr.wr))
theorem pfcRefresh {q p : Nat} (h : Canon d) : Canon (pfcRefresh q p d) := .ite h.sendPfc h

theorem pfcFrameRx {q s en : Nat} {times : List Nat} (h : Canon d) : Canon (pfcFrameRx q s en times d) := by
  unfold Machine.pfcFrameRx
  refine .ite h ?_
  refine h.prtCount.prtCount.foldl fun _ _ h1 => ?_
  refine .ite ?_ h1
  extract_lets +onlyGivenNames _ d2
  have h2 : Canon d2 := .ite h1 h1.prtCount
  exact .ite h2.same h2

theorem pfcExpire {q s p : Nat} (h : Canon d) : Canon (pfcExpire q s p d) := .ite h.same h
theorem fecCodeword {q s : Nat} {r : Option Nat} (h : Canon d) : Canon (fecCodeword q s r d) := by
  unfold Machine.fecCodeword
  split; exacts [h, h.prtCount.prtCount, h.prtCount.raise]

theorem faultChange {q s : Nat} {l r : Bool} (h : Canon d) : Canon (faultChange q s l r d) := by
  unfold Machine.faultChange
  extract_lets +onlyGivenNames one
  have h1 : ∀ d x1 x2 x3, Canon d → Canon (one d x1 x2 x3) := fun _ _ _ _ h1 => .ite
      (.ite h1 h1.setBit.raise) h1.clearBit
  exact h1 _ _ _ _ (h1 _ _ _ _ h)

theorem pcsLockLoss {q s : Nat} {busy : Bool} (h : Canon d) : Canon (pcsLockLoss q s busy d) := by
  unfold Machine.pcsLockLoss
  refine .ite ?_ h
  extract_lets +onlyGivenNames d1
  have h1 : Canon d1 := h.linkDown.setStep
  exact .ite h1.endProg.prtCount h1

theorem egPut {q : Nat} {f : EgFrame} (h : Canon d) : Canon (d.egPut q f) := h.same
theorem egEnter {q : Nat} {f : EgFrame} (h : Canon d) : Canon (d.egEnter q f) := .ite h.prtCount (.ite h.egPut h.same)
theorem egAdmit {q : Nat} (h : Canon d) : Canon (egAdmit q d) := by
  unfold Machine.egAdmit
  split; exacts [h.same.egPut, h]
theorem halterReply {q s ip mac psn code : Nat} (h : Canon d) : Canon (d.halterReply q s ip mac psn code) :=
  h.emit.egEnter
theorem halterLog {q c time seq action result : Nat} (h : Canon d) : Canon (d.halterLog q c time seq action result) :=
  h.wr.wr.wr.wr.wr
theorem halterReject {q c time seq action result : Nat} (h : Canon d) :
    Canon (d.halterReject q c time seq action result) :=
  h.bumpWrap.halterLog.raiseAt

theorem halterRx {q s c : Nat} {f : Frame} {p : Parsed} {fine : Nat} (h : Canon d) :
    Canon (halterRx q s c f p fine d) := by
  unfold Machine.halterRx
  refine .ite h ?_
  refine .ite (.ite h.halterReply h.halterReply) ?_
  refine .ite ?_ h.halterReject.halterReply
  extract_lets +onlyGivenNames d1 d2
  have h1 : Canon d1 := h.wr
  have h2 : Canon d2 := h1.fireWake
  exact .ite h2.halterReject.halterReply (.ite h2.halterReject.halterReply h2.same)

theorem cnpTx {qpn : Nat} (h : Canon d) : Canon (d.cnpTx qpn) := by
  unfold Dev.cnpTx
  split; exacts [h, .ite h.same.emit h]

theorem frameAccept {q s : Nat} {f : Frame} {fine : Nat} (h : Canon d) : Canon (frameAccept q s f fine d) := by
  unfold Machine.frameAccept
  refine .ite h.endProg ?_
  split
  · exact .ite h.endProg.halterRx h.endProg.prtCount
  · refine .ite h.endProg ?_
    refine .ite ?_ ?_
    · extract_lets +onlyGivenNames d1
      have h1 : Canon d1 := h.endProg
      refine .ite ?_ h1.prtCount
      extract_lets +onlyGivenNames d2 _ d3
      have h2 : Canon d2 := h1.cellsAlloc
      have h3 : Canon d3 := h2.setProg
      refine .ite h3 ?_
      extract_lets +onlyGivenNames d4
      have h4 : Canon d4 := h3.same
      exact .ite h4.cnpTx h4
    · refine .ite h.endProg.tapInbox ?_
      refine .ite h.endProg.prtCount ?_
      refine .ite h.endProg.bumpWrap ?_
      extract_lets +onlyGivenNames _ d1 _ d2
      have h1 : Canon d1 := h.cellsAlloc
      have h2 : Canon d2 := h1.setProg
      exact .ite h2 h2.same

theorem frameRx {q s : Nat} {f : Frame} {fine : Nat} (h : Canon d) : Canon (frameRx q s f fine d) := by
  unfold Machine.frameRx
  refine .ite h ?_
  refine .ite h.endProg.prtCount ?_
  refine .ite h.endProg.prtCount ?_
  refine .ite h.endProg.prtCount.prtCount ?_
  refine .ite h.endProg.prtCount ?_
  exact .ite h.endProg.prtCount (.ite h.endProg.prtCount h.prtCount.prtCount.frameAccept)

end Sys2Proof.Machine.Canon
end

section
/-! SUPPORT. What keeps a canonical device canonical: self-test and repairs (chapter 18). -/

namespace Sys2Proof.Machine.Canon

variable {d : Dev}

theorem withBst {f : BstSt → BstSt} (h : Canon d) : Canon (d.withBst f) := h.same
theorem setSlice {k : Nat} {x : SliceRun} (h : Canon d) : Canon (d.setSlice k x) := h.same
theorem clearMacro {c m : Nat} (h : Canon d) : Canon (d.clearMacro c m) := by
  unfold Dev.clearMacro
  split; exacts [h.wipe, .ite h.same (.ite h.same (.ite h.same (.ite h.same h)))]

theorem loseMacro {c m : Nat} (h : Canon d) : Canon (d.loseMacro c m) := by
  unfold Dev.loseMacro
  split
  · exact h.loseMem
  · refine .ite ?_ (.ite h.same h.clearMacro)
    split
    next d1 _ e =>
    have h1 : Canon d1 := .ofFst e h.drawWide
    exact h1.same

theorem showBst (h : Canon d) : Canon d.showBst := h.wr.wr
theorem startMacro {k : Nat} (h : Canon d) : Canon (d.startMacro k) :=
  .ite h (.ite h.setSlice (.ite h (.ite h h.setSlice)))
theorem endSlice {k result : Nat} (h : Canon d) : Canon (d.endSlice k result) := h.setSlice.wr.raise

theorem fillSlice {k : Nat} (h : Canon d) : Canon (d.fillSlice k) := by
  unfold Dev.fillSlice
  extract_lets +onlyGivenNames d1
  have h1 : Canon d1 := h.foldl fun _ _ h1 => h1.startMacro
  exact .ite h1.endSlice h1

theorem fillSlices (h : Canon d) : Canon d.fillSlices := (h.foldl fun _ _ h1 => h1.fillSlice).showBst
theorem beginSlice {k tries : Nat} (h : Canon d) : Canon (d.beginSlice k tries) := h.setSlice.wr.wr.wr.wr.wr.wr
theorem startSlice {k : Nat} (h : Canon d) : Canon (d.startSlice k).1 :=
  .iteFst (.pair h.wr) (.pair h.wr.beginSlice.fillSlices)
theorem haltSlice {k result : Nat} (h : Canon d) : Canon (d.haltSlice k result) :=
  .ite h ((h.foldl fun _ _ h1 => .wr (.same (.ite h1 h1.loseMacro))).endSlice.fillSlices)
theorem service {g : Nat} (h : Canon d) : Canon (d.service g) := by
  unfold Dev.service
  split; exacts [h.haltSlice, h]
theorem serviceAt {a : Nat} (h : Canon d) : Canon (d.serviceAt a) := by
  unfold Dev.serviceAt
  split; exacts [.ite h h.service, h]
theorem serviceRange {a n : Nat} (h : Canon d) : Canon (d.serviceRange a n) := h.serviceAt.serviceAt
theorem showPending (h : Canon d) : Canon d.showPending := h.wr
theorem logFail {g element word failing : Nat} {repaired : Bool} (h : Canon d) :
    Canon (d.logFail g element word failing repaired) :=
  .ite h.same h.bump
theorem macroOut {k g : Nat} (h : Canon d) : Canon (d.macroOut k g) := h.setSlice.fillSlices

theorem macroTestDone {k g steps : Nat} {fails : List (Nat × Nat × Nat)} {sigBad served : Bool} (h : Canon d) :
    Canon (macroTestDone k g steps fails sigBad served d) := by
  unfold Machine.macroTestDone
  refine .ite h ?_
  refine .ite h.haltSlice ?_
  extract_lets +onlyGivenNames _ _ _ count
  have h1 : ∀ d, Canon d → Canon (count d) := fun _ h1 => h1.wr
  refine .ite ((h1 _ (.ite h h.loseMacro)).setSlice.macroOut) ?_
  extract_lets +onlyGivenNames _ _ _ plan d2
  have h2 : Canon d2 := h.foldl fun _ _ h2 => h2.logFail
  clear_value plan
  split
  · exact h2.same.showPending.wr.raise.setSlice
  · extract_lets +onlyGivenNames d3 d4
    have h3 : Canon d3 := .ite h2 h2.clearMacro
    have h4 : Canon d4 := .ite h3.wr h3
    exact (h1 _ h4).macroOut

theorem sliceBudget {k : Nat} (h : Canon d) : Canon (sliceBudget k d) := .ite h h.haltSlice
theorem sliceRetry {k : Nat} (h : Canon d) : Canon (sliceRetry k d) := .ite h h.beginSlice.fillSlices
theorem loadRepairs (h : Canon d) : Canon d.loadRepairs := h.same.wr.wr.wr.wr.wr.showPending
theorem saveRepair (h : Canon d) : Canon d.saveRepair.1 :=
  .iteFst (.pair h.wr) (.iteFst (.pair h.wr) (.pair h.same.wr.wr))

theorem saveRepairDone {ok : Bool} (h : Canon d) : Canon (saveRepairDone ok d) := by
  unfold Machine.saveRepairDone
  split
  · exact h
  · extract_lets +onlyGivenNames _ _ d1 d2
    have h1 : Canon d1 := h.same
    have h2 : Canon d2 := h1.wr.wr
    exact .ite h2.same.wr.wr.showPending h2

theorem readFailLog {u : Nat} (h : Canon d) : Canon (readFailLog u d).1 := by
  unfold Machine.readFailLog
  split; exacts [h, .pair (.ite h.same h)]

theorem writeBstCmd {v : Nat} (h : Canon d) : Canon (writeBstCmd v d).1 := by
  unfold Machine.writeBstCmd
  extract_lets +onlyGivenNames _
  split; exacts [h.startSlice, .pair h.wr.haltSlice, h.saveRepair, h, h]

end Sys2Proof.Machine.Canon
end

section
/-! SUPPORT. What keeps a canonical device canonical: the drovers beside their instructions (chapter 06). -/

namespace Sys2Proof.Machine.Canon

variable {d : Dev}

theorem withDrv {f : DrvSt → DrvSt} (h : Canon d) : Canon (d.withDrv f) := h.same
theorem setThr {n t : Nat} {x : Thr} (h : Canon d) : Canon (d.setThr n t x) := h.same
theorem setDrover {n : Nat} {x : Drv} (h : Canon d) : Canon (d.setDrover n x) := h.same
theorem drvCount {n k m : Nat} (h : Canon d) : Canon (d.drvCount n k m) := h.bumpWrap

theorem drvCause {n b : Nat} (h : Canon d) : Canon (d.drvCause n b) := by
  unfold Dev.drvCause
  refine .ite h ?_
  extract_lets +onlyGivenNames d1
  have h1 : Canon d1 := h.wr
  exact .ite h1.raise h1

theorem setThrState {n t x : Nat} (h : Canon d) : Canon (d.setThrState n t x) := h.wr

theorem fault {n t code : Nat} {at_ : Option Nat} (h : Canon d) : Canon (d.fault n t code at_) := by
  unfold Dev.fault
  extract_lets +onlyGivenNames _
  split
  next d1 _ e =>
  have h1 : Canon d1 := .ofFst e (by split; exacts [h, h.draw])
  extract_lets +onlyGivenNames _ _ d2 d3
  have h2 : Canon d2 := h1.wr.wr.wr.wr
  have h3 : Canon d3 := h2.drvCount.drvCause
  exact .ite h3.wr.setThr.setThrState h3.setThr.setThrState

theorem takeDue {n t : Nat} (h : Canon d) : Canon (d.takeDue n t) := by
  unfold Dev.takeDue
  extract_lets +onlyGivenNames _
  split; exacts [h, h.setThr.fault]

theorem makeDue {n t b : Nat} (h : Canon d) : Canon (d.makeDue n t b) := by
  unfold Dev.makeDue
  refine .ite h ?_
  extract_lets +onlyGivenNames _ d1
  have h1 : Canon d1 := h.setThr
  exact .ite h1.takeDue h1

theorem tsPush {n : Nat} {e : TsEntry} (h : Canon d) : Canon (d.tsPush n e) := .ite h.setDrover h.drvCount.drvCause
theorem fabResp {ik : Nat} {r : FabResp} (h : Canon d) : Canon (d.fabResp ik r) := h.same

theorem tsReturn {toward : Option (Nat × Nat)} {ts : Nat} {dropped : Bool} (h : Canon d) :
    Canon (d.tsReturn toward ts dropped) := by
  unfold Dev.tsReturn
  split; exacts [h, .ite h.tsPush h.fabResp]

theorem windowMeta {r : RxFrame} (h : Canon d) : Canon (d.windowMeta r).1 := .pair h.same

theorem fillWindow {n : Nat} {r : RxFrame} (h : Canon d) : Canon (d.fillWindow n r) := by
  rw [Dev.fillWindow]
  split
  split
  next d1 _ e =>
  have h1 : Canon d1 := .ofFst e h.windowMeta
  extract_lets +onlyGivenNames _ d2 d3 d4 _ d5 d6
  have h2 : Canon d2 := h1.store
  have h3 : Canon d3 := .ite h2 h2.setBytes
  have h4 : Canon d4 := h3.serviceRange
  have h5 : Canon d5 := h4.setDrover
  have h6 : Canon d6 := .ite h5 h5.drvCount
  exact .ite h6.drvCount h6

theorem setDrvIn {n : Nat} {l : List RxFrame} (h : Canon d) : Canon (d.setDrvIn n l) := h.same
theorem pushDrv {n : Nat} {r : RxFrame} (h : Canon d) : Canon (d.pushDrv n r) := h.setDrvIn

theorem droverFrameRx {n : Nat} (h : Canon d) : Canon (droverFrameRx n d) := by
  unfold Machine.droverFrameRx
  split
  · exact h
  · refine .ite h ?_
    refine .ite (.ite h.setDrvIn h) ?_
    refine .ite h.setDrvIn.drvCount ?_
    exact .ite h.setDrvIn.fillWindow (.ite h.setDrvIn.drvCount.drvCause h.setDrover)

theorem windowHoldRelease {n : Nat} (h : Canon d) : Canon (windowHoldRelease n d) := by
  unfold Machine.windowHoldRelease
  split
  · exact h
  · refine .ite h ?_
    extract_lets +onlyGivenNames _ off1
    have h1 : Canon off1 := h.setDrover
    exact .ite (.ite h1.setDrvIn h) (.ite h1.setDrvIn.drvCount (.ite h.setDrvIn.fillWindow h))

theorem nextWindow {n t : Nat} {p : Dev × Nat} (h : Canon d) (e : d.nextWindow n t = some p) : Canon p.1 := by
  unfold Dev.nextWindow at e
  dsimp only at e
  split at e
  · cases e
  · cases e
    exact h.setDrover

theorem freeWindow {n a : Nat} {d' : Dev} (h : Canon d) (e : d.freeWindow n a = some d') : Canon d' := by
  unfold Dev.freeWindow at e
  dsimp only at e
  split at e
  · cases e
    exact h.setDrover
  · cases e

theorem showHalted {n : Nat} (h : Canon d) : Canon (d.showHalted n) := h.wr

theorem haltReq {n c : Nat} (h : Canon d) : Canon (d.haltReq n c) := by
  unfold Dev.haltReq
  extract_lets +onlyGivenNames d1
  have h1 : Canon d1 := h.setBit
  exact .ite h1 h1.wr.setDrover.showHalted

theorem droverQuiet {n : Nat} (h : Canon d) : Canon (droverQuiet n d) := .ite h.wr.drvCause h
theorem threadGo {n t : Nat} (h : Canon d) : Canon (d.threadGo n t) := h.setThr.setThrState

theorem thrResume {n t gone : Nat} (h : Canon d) : Canon (d.thrResume n t gone) := by
  unfold Dev.thrResume
  extract_lets +onlyGivenNames _ d1
  have h1 : Canon d1 := h.setThr
  exact .ite h1 (.ite h1.takeDue (.ite h1.threadGo (.ite h1.setBit.threadGo h1)))

theorem resume {n : Nat} (h : Canon d) : Canon (d.resume n) :=
  .ite h (h.wr.wr.wr.showHalted.foldl fun _ _ h2 => h2.thrResume)
theorem startDrover {n : Nat} (h : Canon d) : Canon (d.startDrover n) :=
  h.foldl fun _ _ h1 => .ite h1.setThr.setThrState h1

end Sys2Proof.Machine.Canon
end

section
/-! SUPPORT. What keeps a canonical device canonical: route entries and the route cache (chapter 04). -/

namespace Sys2Proof.Machine.Canon

variable {d : Dev}

theorem withRte {f : RteSt → RteSt} (h : Canon d) : Canon (d.withRte f) := h.same
theorem rteCount {k n : Nat} (h : Canon d) : Canon (d.rteCount k n) := h.bumpWrap
theorem setEntry {i v : Nat} (h : Canon d) : Canon (d.setEntry i v) := h.store
theorem setRecord {s j v : Nat} (h : Canon d) : Canon (d.setRecord s j v) := h.store
theorem putStream {i image : Nat} (h : Canon d) : Canon (d.putStream i image) := h.setEntry.store
theorem freeEntry {i : Nat} (h : Canon d) : Canon (d.freeEntry i) := h.setEntry.store
theorem holdSid {sid i : Nat} (h : Canon d) : Canon (d.holdSid sid i) := h.same.wr
theorem dropSid {sid : Nat} (h : Canon d) : Canon (d.dropSid sid) := h.same.wr
theorem setCset {n : Nat} {c : CacheSet} (h : Canon d) : Canon (d.setCset n c) := h.same
theorem writeBackHit {l : CacheLine} (h : Canon d) : Canon (d.writeBackHit l) := by
  unfold Dev.writeBackHit
  split; exacts [.ite h.setEntry h, h]

theorem dropLine {set : Nat} {t : LineTag} (h : Canon d) : Canon (d.dropLine set t) := by
  unfold Dev.dropLine
  extract_lets +onlyGivenNames _
  split; exacts [h, h.writeBackHit.setCset]

theorem loadLine {set : Nat} {t : LineTag} {pin hit : Bool} (h : Canon d) : Canon (d.loadLine set t pin hit) := by
  unfold Dev.loadLine
  extract_lets +onlyGivenNames _ _
  split; exacts [h.setCset, by split; exacts [h, .setCset (by split; exacts [h.writeBackHit, h])]]

theorem pinForSalvo {set : Nat} {t : LineTag} {slot : Nat} (h : Canon d) : Canon (d.pinForSalvo set t slot).1 := by
  unfold Dev.pinForSalvo
  extract_lets +onlyGivenNames _ _ _ _
  split
  refine .iteFst h ?_
  extract_lets +onlyGivenNames d1 _
  have h1 : Canon d1 := h.setCset.loadLine
  split; exacts [h1, .pair h1.setCset]

theorem unpinSalvo {slot : Nat} (h : Canon d) : Canon (d.unpinSalvo slot) := h.same

end Sys2Proof.Machine.Canon
end

section
/-! SUPPORT. What keeps a canonical device canonical: the receive side of media (chapter 05). -/

namespace Sys2Proof.Machine.Canon

variable {d : Dev}

theorem withMed {f : MedSt → MedSt} (h : Canon d) : Canon (d.withMed f) := h.same
theorem medCount {k n : Nat} (h : Canon d) : Canon (d.medCount k n) := h.bumpWrap
theorem count64 {a n : Nat} (h : Canon d) : Canon (d.count64 a n) := h.store

theorem sidCount {sid bytes : Nat} {drop bad : Bool} (h : Canon d) : Canon (d.sidCount sid bytes drop bad) := by
  unfold Dev.sidCount
  refine .ite h ?_
  extract_lets +onlyGivenNames _ _ _ d1 d2 d3
  have h1 : Canon d1 := .ite h.store.same.medCount h
  have h2 : Canon d2 := h1.count64.count64
  have h3 : Canon d3 := .ite h2.count64 h2
  exact .ite h3.count64 h3

theorem setRx {i : Nat} {c : Nat × Nat} (h : Canon d) : Canon (d.setRx i c) := h.same
theorem setPair {i : Nat} {c : Nat × Nat} (h : Canon d) : Canon (d.setPair i c) := h.same
theorem setEgr {k : Nat} {c : Nat × Nat} (h : Canon d) : Canon (d.setEgr k c) := h.same
theorem rxStat {i lo w v : Nat} (h : Canon d) : Canon (d.rxStat i lo w v) := h.setRx
theorem rxBump {i lo w n : Nat} (h : Canon d) : Canon (d.rxBump i lo w n) := h.rxStat
theorem pairStat {i lo w v : Nat} (h : Canon d) : Canon (d.pairStat i lo w v) := h.setPair
theorem pairBump {i lo w n : Nat} (h : Canon d) : Canon (d.pairBump i lo w n) := h.pairStat
theorem setHist {cfg b : Nat} {on : Bool} (h : Canon d) : Canon (d.setHist cfg b on) := .ite h.setByte h.same
theorem clearHist {cfg size : Nat} (h : Canon d) : Canon (d.clearHist cfg size) := h.foldl fun _ _ h1 => h1.setHist
theorem pairStart {p cfg size x : Nat} (h : Canon d) : Canon (d.pairStart p cfg size x) :=
  h.clearHist.pairStat.setHist.same
theorem setLate {p n : Nat} (h : Canon d) : Canon (d.setLate p n) := h.same
theorem pairLost {p n : Nat} (h : Canon d) : Canon (d.pairLost p n) := .ite h h.pairBump.medCount
theorem pairForward {p l : Nat} (h : Canon d) : Canon (d.pairForward p l) := h.pairBump

theorem slide {p cfg size h n : Nat} (hd : Canon d) : Canon (d.slide p cfg size h n) := by
  induction n with
  | zero => exact hd
  | succ n ih =>
    rw [Dev.slide]
    exact .setHist (.ite ih.pairLost ih)

theorem legLive {p l : Nat} (h : Canon d) : Canon (d.legLive p l) := .ite h h.pairStat.raise

/-- The first component is canonical, as a predicate of the pair: the kernel compares the pairs before it looks
    inside. -/
def OfPair {α : Type} (p : Dev × α) : Prop := Canon p.1
theorem OfPair.mk {α : Type} {a : α} (h : Canon d) : OfPair (d, a) := h

theorem OfPair.ite {α : Type} {c : Prop} [Decidable c] {a b : Dev × α} (ha : OfPair a) (hb : OfPair b) :
    OfPair (if c then a else b) := by
  split
  · exact ha
  · exact hb

theorem mergeFrame {p l x part : Nat} (h : Canon d) : Canon (mergeFrame p l x part d).1 := by
  show OfPair _
  unfold Machine.mergeFrame
  split
  refine .ite (.mk h.medCount) ?_
  extract_lets +onlyGivenNames _ d1
  have h1 : Canon d1 := h.same
  refine .ite (.mk h1.pairStart.pairStat.pairForward.legLive) ?_
  extract_lets +onlyGivenNames _ _ _ d2 _ d3
  have h2 : Canon d2 := .ite h1.pairLost.clearHist h1.slide
  refine .ite (.mk h2.setHist.pairStat.setLate.pairForward.legLive) ?_
  refine .ite (.ite (.mk h1.pairStart.pairBump.raise.pairForward.legLive) (.mk h1.pairBump.setLate.medCount)) ?_
  exact .ite (.mk h1.setLate.pairBump.medCount.legLive) (.mk h1.setLate.setHist.pairForward.legLive)

theorem legTimeout {p l : Nat} (h : Canon d) : Canon (legTimeout p l d) := .ite h.pairStat.raise h
theorem setSlot {ctx k : Nat} {s : StoreSlot} (h : Canon d) : Canon (d.setSlot ctx k s) := h.same
theorem setCur {ctx : Nat} {c : StoreCur} (h : Canon d) : Canon (d.setCur ctx c) := h.same
theorem storeDrop {ctx lo k : Nat} (h : Canon d) : Canon (d.storeDrop ctx lo k) := h.rxBump.medCount
theorem writeRecord {cfg k j : Nat} {f : IngFrame} {body : List Byte} {leg xseq ts : Nat} (h : Canon d) :
    Canon (d.writeRecord cfg k j f body leg xseq ts) :=
  h.store.setBytes

theorem storeFrame {ctx : Nat} {f : IngFrame} {x leg : Nat} (h : Canon d) : Canon (storeFrame ctx f x leg d) := by
  unfold Machine.storeFrame
  extract_lets +onlyGivenNames _ _ _ _ _ _ _ _ _ place
  have h1 : ∀ d x1, Canon d → Canon (place d x1) := fun _ _ h1 => .ite h1.storeDrop
      (.ite h1.storeDrop h1.writeRecord.setSlot.setCur)
  refine .ite h.storeDrop ?_
  split
  · exact h1 _ _ h
  · refine .ite (.ite h.setCur h) ?_
    refine .ite h.storeDrop ?_
    split
    · extract_lets +onlyGivenNames d2
      have h2 : Canon d2 := h.storeDrop
      exact .ite h2 h2.setCur.raise
    · exact h1 _ _ h.setSlot.setCur.rxStat

theorem startRelease {ctx k : Nat} {index : Option Nat} {again : Bool} (h : Canon d) :
    Canon (d.startRelease ctx k index again) :=
  (h.foldl fun _ _ h1 => .ite h1.same h1.rxBump.medCount).setSlot.rxStat.setCur.same
theorem storeReleaseDelay {ctx : Nat} (h : Canon d) : Canon (storeReleaseDelay ctx d) :=
  .ite h (by split; exacts [h, h.startRelease])

theorem storeSync {ctx : Nat} (h : Canon d) : Canon (storeSync ctx d) := by
  unfold Machine.storeSync
  refine .ite h ?_
  refine .ite h ?_
  extract_lets +onlyGivenNames d1 _
  have h1 : Canon d1 := h.setCur
  split; exacts [h1, .ite h1.startRelease.rxBump (.ite h1.startRelease.rxBump h1)]

theorem storeReleaseDone {ctx : Nat} (h : Canon d) : Canon (storeReleaseDone ctx d) := by
  unfold Machine.storeReleaseDone
  split; exacts [h, .ite h h.setSlot.same]

theorem rxPass {ctx ts : Nat} (h : Canon d) : Canon (d.rxPass ctx ts) := by
  unfold Dev.rxPass
  extract_lets +onlyGivenNames _ d1
  have h1 : Canon d1 := h.rxStat.same
  exact .ite h1.rxStat.raise h1

theorem seqExtend {ctx pair : Nat} {p27 : Bool} {r : Rtp} (h : Canon d) : Canon (d.seqExtend ctx pair p27 r).1 := by
  unfold Dev.seqExtend
  split
  refine .iteFst h ?_
  extract_lets +onlyGivenNames _ d1 d2
  have h1 : Canon d1 := .ite h.rxBump h
  have h2 : Canon d2 := .ite h1.rxStat h1
  exact .pair h2.rxStat

theorem streamStall {ctx : Nat} (h : Canon d) : Canon (streamStall ctx d) := .ite h.rxStat.raise h

end Sys2Proof.Machine.Canon
end

section
/-! SUPPORT. What keeps a canonical device canonical: the transmit side and the scheduler (chapters 05 and 03). -/

namespace Sys2Proof.Machine.Canon

variable {d : Dev}

theorem egrStat {k lo w v : Nat} (h : Canon d) : Canon (d.egrStat k lo w v) := h.setEgr
theorem egrBump {k lo w : Nat} (h : Canon d) : Canon (d.egrBump k lo w) := h.egrStat

theorem egrLeave {k : Nat} (h : Canon d) : Canon (d.egrLeave k) := by
  unfold Dev.egrLeave
  extract_lets +onlyGivenNames _ d1
  have h1 : Canon d1 := h.egrStat
  exact .ite h1.same h1

theorem egFree {q : Nat} {f : EgFrame} (h : Canon d) : Canon (d.egFree q f) := h.same
theorem egCount {q : Nat} {f : EgFrame} (h : Canon d) : Canon (d.egCount q f) := h.same
theorem videoIndex {k cfg : Nat} {req : EgReq} {ts : Nat} (h : Canon d) : Canon (d.videoIndex k cfg req ts).1 :=
  .pair h.same

theorem eligible {k cfg : Nat} {req : EgReq} {ts : Nat} (h : Canon d) : Canon (d.eligible k cfg req ts).1 := by
  unfold Dev.eligible
  refine .iteFst h ?_
  split
  · refine .iteFst ?_ (by split; exacts [h, .pair h.same])
    split
    next d1 _ _ e =>
    have h1 : Canon d1 := .ofFst e h.videoIndex
    exact h1
  · exact h
  · exact h

theorem streamEnqueue {q e : Nat} {req : EgReq} (h : Canon d) : Canon (d.streamEnqueue q e req) := by
  unfold Dev.streamEnqueue
  extract_lets +onlyGivenNames _
  split
  extract_lets +onlyGivenNames gone
  have h1 : ∀ d, Canon d → Canon (gone d) := fun _ h1 => h1.tsReturn
  refine .ite (h1 _ h.medCount) ?_
  extract_lets +onlyGivenNames _ _ _ _
  split
  refine .ite (h1 _ h.egrBump.medCount) ?_
  refine .ite (h1 _ h.medCount) ?_
  refine .ite h.prtCount ?_
  split
  next d2 _ _ e =>
  have h2 : Canon d2 := .ofFst e h.eligible
  extract_lets +onlyGivenNames _ _ _ _ d3 d4 d5 d6
  have h3 : Canon d3 := by unfold d3; split; exacts [h2, .ite h2.egrBump.medCount h2]
  have h4 : Canon d4 := h3.egrStat.egCount
  have h5 : Canon d5 := h4.same
  have h6 : Canon d6 := .ite h5.egrStat.raise h5
  split; exacts [h6.same, h6.same]

theorem egressEnqueue {q : Nat} (h : Canon d) : Canon (egressEnqueue q d) := by
  unfold Machine.egressEnqueue
  split; exacts [h, h.same.streamEnqueue]
theorem txStarved {q e : Nat} (h : Canon d) : Canon (txStarved q e d) := .ite h.egrStat.raise h

theorem streamStop {q e : Nat} (h : Canon d) : Canon (d.streamStop q e) := by
  unfold Dev.streamStop
  extract_lets +onlyGivenNames _ d1
  have h1 : Canon d1 := h.setBit
  exact .ite h1 h1.egrStat

theorem streamRelease {q e : Nat} (h : Canon d) : Canon (d.streamRelease q e) := by
  unfold Dev.streamRelease
  extract_lets +onlyGivenNames _ d1
  have h1 : Canon d1 := h.clearBit
  exact .ite h1.egrStat h1

theorem takeSeq {k : Nat} (h : Canon d) : Canon (d.takeSeq k).1 := .pair h.egrStat

theorem haltDrop {q : Nat} {f : EgFrame} (h : Canon d) : Canon (d.haltDrop q f) := by
  unfold Dev.haltDrop
  extract_lets +onlyGivenNames _
  split
  next d1 _ e =>
  have h1 : Canon d1 := .ofFst e h.takeSeq
  exact .tsReturn (.prtCount (.egFree (by split; exacts [h1.egrStat, h1])))

theorem setRosAt {q n : Nat} (h : Canon d) : Canon (d.setRosAt q n) := h.same

theorem serveSlot {q e : Nat} {at_ : Int} (h : Canon d) : Canon (d.serveSlot q e at_) := by
  unfold Dev.serveSlot
  extract_lets +onlyGivenNames _
  split
  · exact h
  · refine .ite h ?_
    extract_lets +onlyGivenNames pop
    have h1 : ∀ d, Canon d → Canon (pop d) := fun _ h1 => h1.same.egrLeave
    exact .ite ((h1 _ h).haltDrop) (.ite ((h1 _ h).egFree.prtCount) (.ite h.medCount ((h1 _ h).same)))

theorem rosterSlot {q : Nat} (h : Canon d) : Canon (rosterSlot q d) := by
  unfold Machine.rosterSlot
  refine .ite h ?_
  extract_lets +onlyGivenNames d1
  have h1 : Canon d1 := h.setRosAt
  exact .ite h1 (by split; exacts [h1, h1.serveSlot])

theorem rosterCommit {q : Nat} (h : Canon d) : Canon (d.rosterCommit q) := h.wr.same

theorem rosterSwapNow {q wrap : Nat} (h : Canon d) : Canon (d.rosterSwapNow q wrap) := by
  unfold Dev.rosterSwapNow
  extract_lets +onlyGivenNames _ _ _ _ _ _ d1 d2 _ _ d3
  have h1 : Canon d1 := h.same
  have h2 : Canon d2 := h1.wr.wr
  have h3 : Canon d3 := .ite h2 h2.setRosAt
  exact h3.wr.wr.bumpWrap.raise

theorem rosterSwap {q : Nat} (h : Canon d) : Canon (rosterSwap q d) := .ite h.rosterSwapNow h

theorem rosterShadowCfg {q m v : Nat} (h : Canon d) : Canon (d.rosterShadowCfg q m v) := by
  unfold Dev.rosterShadowCfg
  extract_lets +onlyGivenNames mix
  have h1 : ∀ d x1 x2, Canon d → Canon (mix d x1 x2) := fun _ _ _ h1 => h1.wr
  exact h1 _ _ _ (h1 _ _ _ (h1 _ _ _ h))

theorem rosterLate {w : Nat × Nat × Nat} (h : Canon d) : Canon (d.rosterLate w) :=
  .emit (.ite h.same h.rosterShadowCfg)
theorem rosterCopyDone {q : Nat} (h : Canon d) : Canon (rosterCopyDone q d) :=
  .ite h (h.wr.same.same.foldl fun _ _ h3 => h3.rosterLate)

theorem writeRosterCfg {r : Req} {q m v : Nat} (h : Canon d) : Canon (writeRosterCfg r q m v d).1 := by
  unfold Machine.writeRosterCfg
  extract_lets +onlyGivenNames _
  split
  next d4 _ _ e =>
  have h4 : Canon d4 := by
    refine .ofFst e (.iteFst h ?_)
    extract_lets +onlyGivenNames _ d1 d2 d3
    have h1 : Canon d1 := .ite h.wr h
    have h2 : Canon d2 := .ite h1.wr h1
    have h3 : Canon d3 := .ite h2.setRosAt h2
    exact .iteFst (.pair h3.same) (.pair h3.rosterShadowCfg)
  exact .pair (.ite h4.rosterCommit h4)

theorem writeRosterWin {r : Req} {e m v : Nat} (h : Canon d) : Canon (writeRosterWin r e m v d).1 :=
  .iteFst h (.iteFst (.pair h.same) (.iteFst (.pair h.same) (.pair h.same)))

theorem rosterStep {q pre post : Nat} (h : Canon d) : Canon (d.rosterStep q pre post) := by
  unfold Dev.rosterStep
  extract_lets +onlyGivenNames _ _ d1
  have h1 : Canon d1 := h.setRosAt
  exact .ite h1.rosterSwapNow (.ite h1.same h1)

theorem setCredit {q s p v : Nat} (h : Canon d) : Canon (d.setCredit q s p v) := h.same

theorem drrVisit {q s : Nat} {l : List Nat} (h : Canon d) : Canon (d.drrVisit q s l).1 := by
  induction l generalizing d with
  | nil => exact h
  | cons p r ih =>
    unfold Dev.drrVisit
    split
    · exact ih h
    · exact .iteFst (.pair h.setCredit) (ih h.setCredit)

theorem drrTurn {q s : Nat} (h : Canon d) : Canon (d.drrTurn q s).1 := by
  unfold Dev.drrTurn
  extract_lets +onlyGivenNames keep
  have h1 : ∀ x, Canon x.1 → Canon (keep x).1 := by
    intro x hx
    unfold keep
    split; exacts [.pair hx.same, hx]
  split
  · exact h1 _ h.drrVisit
  · split; exacts [.iteFst h (h1 _ h.drrVisit), h1 _ h.drrVisit]

theorem step4 {q s t : Nat} (h : Canon d) : Canon (d.step4 q s t).1 := by
  unfold Dev.step4
  refine .iteFst ?_ (by split; exacts [h, by split; exacts [h, h]])
  split
  next d1 _ e =>
  have h1 : Canon d1 := .ofFst e h.drrTurn
  split
  · exact h1
  · extract_lets +onlyGivenNames _
    split; exacts [h1, by split; exacts [h1, .pair h1.setCredit]]

theorem step2 {q s t : Nat} (h : Canon d) : Canon (d.step2 q s t).1 :=
  .iteFst h (by split; exacts [h, .iteFst (.pair h.same) h])

theorem choose {q s t u : Nat} (h : Canon d) : Canon (d.choose q s t u).1 := by
  unfold Dev.choose
  split
  · exact h
  · split
    next d1 _ e =>
    have h1 : Canon d1 := .ofFst e h.step2
    split
    · exact h1
    · split
      · refine .iteFst ?_ h1
        split
        next d2 _ e =>
        have h2 : Canon d2 := .ofFst e h1.step4
        exact h2
      · split
        next d2 _ e =>
        have h2 : Canon d2 := .ofFst e h1.step4
        exact h2

theorem unqueue {q s : Nat} {f : EgFrame} {step : Nat} (h : Canon d) : Canon (d.unqueue q s f step) := by
  unfold Dev.unqueue
  extract_lets +onlyGivenNames d1
  have h1 : Canon d1 := h.egFree
  refine .ite h1.same ?_
  extract_lets +onlyGivenNames d2 d3
  have h2 : Canon d2 := h1.same
  have h3 : Canon d3 := .ite h2.egrLeave h2
  exact .ite h3.setCredit h3

theorem wireBytes {q : Nat} {f : EgFrame} (h : Canon d) : Canon (d.wireBytes q f).1 := by
  unfold Dev.wireBytes
  extract_lets +onlyGivenNames _
  split
  next d1 _ e =>
  have h1 : Canon d1 := .ofFst e (.iteFst h.takeSeq h)
  split
  next d2 _ e =>
  have h2 : Canon d2 := .ofFst e (by split; exacts [h1, h1])
  exact h2

theorem streamSent {q : Nat} {f : EgFrame} {ts : Nat} (h : Canon d) : Canon (d.streamSent q f ts) := by
  unfold Dev.streamSent
  extract_lets +onlyGivenNames _ d1 d2
  have h1 : Canon d1 := h.egrBump
  have h2 : Canon d2 := by
    unfold d2
    split
    · exact h1
    · extract_lets +onlyGivenNames _ d3
      have h3 : Canon d3 := h1.egrStat
      exact .ite h3.egrStat h3
  exact .ite h2.egrStat.raise h2

theorem startFrame {q s : Nat} {f : EgFrame} {t u : Nat} {bad : Bool} (h : Canon d) :
    Canon (d.startFrame q s f t u bad) := by
  unfold Dev.startFrame
  extract_lets +onlyGivenNames _ _
  split
  next d1 _ e =>
  have h1 : Canon d1 := .ofFst e h.wireBytes
  extract_lets +onlyGivenNames _ d2 d3 d4 d5 d6
  have h2 : Canon d2 := h1.same
  have h3 : Canon d3 := h2.emit
  have h4 : Canon d4 := h3.prtCount.prtCount
  have h5 : Canon d5 := .ite h4.prtCount h4
  have h6 : Canon d6 := h5.tsReturn
  refine .ite ?_ h6
  extract_lets +onlyGivenNames d7
  have h7 : Canon d7 := h6.streamSent
  exact .ite h7.tapAudio h7

theorem flushDown {q s : Nat} (h : Canon d) : Canon (d.flushDown q s) :=
  (h.same.foldl fun _ _ h2 => .ite h2.egrLeave h2).foldl fun _ _ h3 => h3.egFree.prtCount

theorem egressStart {q s fine : Nat} {bad : Bool} (h : Canon d) : Canon (egressStart q s fine bad d) := by
  unfold Machine.egressStart
  refine .ite h.flushDown ?_
  refine .ite h ?_
  split
  next d1 _ e =>
  have h1 : Canon d1 := .ofFst e h.choose
  split
  · exact h1
  · extract_lets +onlyGivenNames d2
    have h2 : Canon d2 := h1.unqueue
    exact .ite h2.egCount.haltDrop (.ite h2.prtCount.tsReturn h2.startFrame)

theorem asmClose {q e chans fmt : Nat} (h : Canon d) : Canon (asmClose q e chans fmt d) :=
  .ite h (by split; exacts [h, by split; exacts [h, .ite h h.setBytes.same.streamEnqueue]])
theorem writeRx {i cfg : Nat} (h : Canon d) : Canon (d.writeRx i cfg) := .ite h.setRx (.ite h.setRx.same h.setRx)
theorem writePair {i cfg : Nat} (h : Canon d) : Canon (d.writePair i cfg) := h.setPair
theorem dropStream {q e : Nat} (h : Canon d) : Canon (d.dropStream q e) :=
  (h.same.same.foldl fun _ _ h3 => h3.egFree).egrStat
theorem writeEgr {q e cfg : Nat} (h : Canon d) : Canon (d.writeEgr q e cfg) :=
  .ite (.setEgr (.ite h.dropStream h)) (.ite h.setEgr.same h.setEgr)

theorem ctxErr {i : Nat} (h : Canon d) : Canon (d.ctxErr i) := by
  unfold Dev.ctxErr
  extract_lets +onlyGivenNames _ d1
  have h1 : Canon d1 := h.wr
  exact .ite h1 h1.raise

theorem ctxRead {kind q i : Nat} (h : Canon d) : Canon (d.ctxRead kind q i) := by
  unfold Dev.ctxRead
  split; exacts [h.wr.wr, h.wr.wr.ctxErr]

theorem ctxWrite {kind q i : Nat} (h : Canon d) : Canon (d.ctxWrite kind q i) := by
  unfold Dev.ctxWrite
  extract_lets +onlyGivenNames _
  split
  · exact .ite h.ctxErr h.writeRx
  · exact .ite h.ctxErr h.writePair
  · exact .ite h.ctxErr h.writeEgr
  · exact h.ctxErr

theorem clrSid {sid : Nat} (h : Canon d) : Canon (d.clrSid sid) := .ite h.store.same h.store

theorem writeCtxCmd {r : Req} {m v : Nat} (h : Canon d) : Canon (writeCtxCmd r m v d).1 := by
  unfold Machine.writeCtxCmd
  refine .iteFst h ?_
  extract_lets +onlyGivenNames d1
  have h1 : Canon d1 := .ite h.wr h
  refine .iteFst h1 ?_
  refine .iteFst h1 ?_
  extract_lets +onlyGivenNames mix d3
  have h2 : ∀ d x1 x2, Canon d → Canon (mix d x1 x2) := fun _ _ _ h2 => h2.wr
  have h3 : Canon d3 := h2 _ _ _ (h2 _ _ _ (h2 _ _ _ (h2 _ _ _ h1)))
  refine .iteFst h3 ?_
  extract_lets +onlyGivenNames _ _ _ busy
  have h4 : ∀ d, Canon d → Canon (busy d) := fun _ h4 => h4.wr
  split; exacts [.pair (h4 _ h3.ctxRead), .pair (h4 _ h3.ctxWrite), .pair (h4 _ h3.clrSid), h3]

end Sys2Proof.Machine.Canon
end

section
/-! SUPPORT. What keeps a canonical device canonical: the route engine (chapter 04). -/

namespace Sys2Proof.Machine.Canon

variable {d : Dev}

theorem leaveIngress {f : IngFrame} (h : Canon d) : Canon (d.leaveIngress f) := h.freeCells
theorem pushFab {i st : Nat} {r : RxFrame} (h : Canon d) : Canon (d.pushFab i st r) := h.same
theorem pushEgr {q : Nat} {e : EgReq} (h : Canon d) : Canon (d.pushEgr q e) := h.same

theorem defaultAction {f : IngFrame} {c : Nat} (h : Canon d) : Canon (d.defaultAction f c) := by
  unfold Dev.defaultAction
  extract_lets +onlyGivenNames d1
  have h1 : Canon d1 := h.leaveIngress
  refine .ite h1.medCount ?_
  exact .ite h1.rteCount (by split; exacts [h1.pushDrv, h1.pushFab, .ite h1.medCount h1.storeFrame, h1])

theorem moveDest {img old new : Nat} (h : Canon d) : Canon (d.moveDest img old new) :=
  h.foldl fun _ _ h1 => .ite h1.setEntry h1

theorem deliverDrover {img : Nat} {r : RxFrame} {marker : Bool} (h : Canon d) :
    Canon (d.deliverDrover img r marker) := by
  unfold Dev.deliverDrover
  split
  · exact h.pushDrv
  · exact .ite h.same.moveDest.bumpWrap.same.pushDrv.pushDrv (.pushDrv (.ite h.same h))

theorem handOn {img : Nat} {f : IngFrame} {x : Nat} (h : Canon d) : Canon (d.handOn img f x) := by
  unfold Dev.handOn
  extract_lets +onlyGivenNames _ _ d1 _ _
  have h1 : Canon d1 := .ite h.tapAcct h
  split; exacts [h1.deliverDrover, h1.pushFab, h1.storeFrame, h1.pushEgr, h1]

theorem routeBy {f : IngFrame} {img : Nat} (h : Canon d) : Canon (d.routeBy f img) := by
  unfold Dev.routeBy
  extract_lets +onlyGivenNames d1
  have h1 : Canon d1 := h.leaveIngress
  refine .ite h1.sidCount.medCount ?_
  refine .ite h1.sidCount.rxBump.medCount ?_
  extract_lets +onlyGivenNames d2 _
  have h2 : Canon d2 := h1.rxPass
  split
  next d3 _ e =>
  have h3 : Canon d3 := .ofFst e (.iteFst h2 h2.seqExtend)
  split
  next d4 _ e =>
  have h4 : Canon d4 := .ofFst e (.iteFst h3.mergeFrame h3)
  exact .ite h4.sidCount (.ite h4.sidCount (.ite h4.sidCount.rteCount h4.sidCount.handOn))

theorem routeEcc {rod : Nat} (h : Canon d) : Canon (d.routeEcc rod) := h.wr.wr.bump.raise
theorem countStale {i t : Nat} (h : Canon d) : Canon (d.countStale i t) := h.foldl fun _ _ h1 => .ite h1.bumpWrap h1

theorem markHit {i : Nat} (h : Canon d) : Canon (d.markHit i) := by
  unfold Dev.markHit
  extract_lets +onlyGivenNames _ _
  split; exacts [h.setCset, h.setEntry]

theorem useEntry {f : IngFrame} {i : Nat} (h : Canon d) : Canon (d.useEntry f i) := by
  unfold Dev.useEntry
  extract_lets +onlyGivenNames d1
  have h1 : Canon d1 := h.markHit
  split
  · exact h1.rteCount.routeEcc.defaultAction
  · exact h1.defaultAction
  · exact .routeBy (.ite h1.countStale h1)

theorem setMissOcc {q n : Nat} (h : Canon d) : Canon (d.setMissOcc q n) := by
  unfold Dev.setMissOcc
  extract_lets +onlyGivenNames d1 d2
  have h1 : Canon d1 := h.wr
  have h2 : Canon d2 := .ite h1.wr h1
  exact .ite h2.same.raise (.ite h2.same h2)

theorem enterMiss {f : IngFrame} {key : Nat} (h : Canon d) : Canon (d.enterMiss f key) :=
  .ite h.leaveIngress.bumpWrap.dropPri h.same.setMissOcc

theorem route {f : IngFrame} (h : Canon d) : Canon (d.route f) := by
  unfold Dev.route
  refine .ite h.defaultAction ?_
  refine .ite h.defaultAction ?_
  split
  · exact h.defaultAction
  · extract_lets +onlyGivenNames d1
    have h1 : Canon d1 := h.rteCount
    refine .ite h1.enterMiss ?_
    split
    · exact .ite h1.rteCount.useEntry h1.rteCount.enterMiss
    · exact .ite h1.rteCount.rteCount.loadLine.defaultAction h1.rteCount.enterMiss

theorem frameRoute {q : Nat} (h : Canon d) : Canon (frameRoute q d) := by
  unfold Machine.frameRoute
  split; exacts [h, h.same.route]

theorem learn {q key : Nat} (h : Canon d) : Canon (d.learn q key).1 := by
  unfold Dev.learn
  extract_lets +onlyGivenNames _ _ no
  have h1 : ∀ d, Canon d → Canon (no d).1 := fun _ h1 => .pair h1.rteCount
  refine .iteFst (h1 _ h) ?_
  split
  · exact h1 _ h
  · refine .iteFst (h1 _ h) ?_
    split; exacts [h1 _ h.raise, .pair h.putStream.holdSid.dropLine.same.rteCount.raise]

theorem readLearnLog {u : Nat} (h : Canon d) : Canon (readLearnLog u d).1 := by
  unfold Machine.readLearnLog
  split; exacts [h, .pair (.ite h.same h)]
theorem takeWaiting {key : Nat} (h : Canon d) : Canon (d.takeWaiting key).1 := .pair h.same.setMissOcc.setMissOcc

theorem loadFound {i : Nat} (h : Canon d) : Canon (d.loadFound i) := by
  unfold Dev.loadFound
  refine .ite h ?_
  extract_lets +onlyGivenNames d1
  have h1 : Canon d1 := h.loadLine
  exact .ite h1.loadLine h1

theorem missLookupDone {n : Nat} (h : Canon d) : Canon (missLookupDone n d) := by
  unfold Machine.missLookupDone
  split
  · exact h
  · split
    next d1 _ e =>
    have h1 : Canon d1 := .ofFst e h.takeWaiting
    split
    · exact h1.routeEcc.foldl fun _ _ h2 => h2.rteCount.defaultAction
    · exact h1.rteCount.loadFound.foldl fun _ _ h2 => h2.useEntry
    · extract_lets +onlyGivenNames d2
      have h2 : Canon d2 := h1.rteCount.rteCount
      split
      · exact h2.loadLine.foldl fun _ _ h3 => h3.defaultAction
      · split
        next d3 _ e =>
        have h3 : Canon d3 := .ofFst e h2.learn
        split
        · exact h3.loadLine.foldl fun _ _ h4 => h4.defaultAction
        · exact h3.loadFound.foldl fun _ _ h4 => h4.useEntry

theorem agerVisit {i : Nat} (h : Canon d) : Canon (agerVisit i d) := by
  unfold Machine.agerVisit
  refine .ite h ?_
  extract_lets +onlyGivenNames _ _ line _ clear
  clear_value line
  have h1 : ∀ d, Canon d → Canon (clear d) := fun _ h1 => by unfold clear; split; exacts [h1.setCset, h1]
  exact .ite (h1 _ h).dropLine.freeEntry.dropSid.rteCount.raise (h1 _ h).setEntry

theorem writeRteCfg {r : Req} {m v : Nat} (h : Canon d) : Canon (writeRteCfg r m v d).1 := by
  unfold Machine.writeRteCfg
  refine .iteFst h ?_
  extract_lets +onlyGivenNames _ _ _ d1
  have h1 : Canon d1 := .ite h.wr h
  exact .iteFst (.iteFst (.pair h1.wr) (.pair h1.wr.wr)) h1

theorem tableClear (h : Canon d) : Canon (tableClear d).1 := .iteFst h (.pair h.filterMem.same.wr.wr)

theorem cancelMove {sid : Nat} (h : Canon d) : Canon (d.cancelMove sid) := by
  unfold Dev.cancelMove
  extract_lets +onlyGivenNames _ d1
  have h1 : Canon d1 := h.same
  exact .ite h1.same.bumpWrap h1

theorem directInsert {img : Nat} (h : Canon d) : Canon (d.directInsert img).1 := by
  unfold Dev.directInsert
  split; exacts [.pair h.putStream.holdSid.dropLine, .pair (.ite h.raise h)]

theorem repinLine {i : Nat} {t : LineTag} (h : Canon d) : Canon (d.repinLine i t) := by
  unfold Dev.repinLine
  extract_lets +onlyGivenNames _ _
  split; exacts [h, h.setCset]

theorem swapSid {old new i : Nat} (h : Canon d) : Canon (d.swapSid old new i) := h.same
theorem directModify {img : Nat} (h : Canon d) : Canon (d.directModify img).1 := by
  unfold Dev.directModify
  split; exacts [h, h, .iteFst h (.pair h.cancelMove.setEntry.swapSid.repinLine)]
theorem directDelete {key : Nat} (h : Canon d) : Canon (d.directDelete key).1 :=
  .iteFst h (by split; exacts [h, h, .iteFst h (.pair h.cancelMove.dropLine.freeEntry.dropSid)])
theorem directChan {i img : Nat} (h : Canon d) : Canon (d.directChan i img).1 :=
  .iteFst h (.iteFst h (.pair h.setEntry.same.repinLine))

end Sys2Proof.Machine.Canon
end

section
/-! SUPPORT. What keeps a canonical device canonical: salvos (chapter 04). -/

namespace Sys2Proof.Machine.Canon

variable {d : Dev}

theorem setSalvo {s x : Nat} (h : Canon d) : Canon (d.setSalvo s x) := h.wr
theorem setRun {s : Nat} {x : SalvoRun} (h : Canon d) : Canon (d.setRun s x) := h.same
theorem salvoOpen (h : Canon d) : Canon d.salvoOpen.1 := by
  unfold Dev.salvoOpen
  split; exacts [h, .pair ((h.foldl fun _ _ h1 => h1.wr).same.setRun.setSalvo)]
theorem addChange {s kind i img : Nat} (h : Canon d) : Canon (d.addChange s kind i img) :=
  h.setRecord.same.same.setEntry.wr

theorem salvoInsert {s img : Nat} (h : Canon d) : Canon (d.salvoInsert s img).1 := by
  unfold Dev.salvoInsert
  split
  split; exacts [.pair h.putStream.holdSid.dropLine.addChange, .pair (.ite h.raise h)]

theorem salvoModify {s img : Nat} (h : Canon d) : Canon (d.salvoModify s img).1 := by
  unfold Dev.salvoModify
  split; exacts [h, h, by extract_lets; split; exacts [.pair h.cancelMove.same.addChange, h]]
theorem salvoDelete {s key : Nat} (h : Canon d) : Canon (d.salvoDelete s key).1 :=
  .iteFst h (by split; exacts [h, h, by split; exacts [.pair h.cancelMove.addChange, h]])

theorem salvoChan {s i img : Nat} (h : Canon d) : Canon (d.salvoChan s i img).1 := by
  unfold Dev.salvoChan
  extract_lets +onlyGivenNames _ _ _
  split; exacts [.pair h.addChange, h]

theorem salvoArm {s : Nat} {all : Bool} {treq num den : Nat} (h : Canon d) :
    Canon (d.salvoArm s all treq num den).1 := by
  unfold Dev.salvoArm
  refine .iteFst h ?_
  extract_lets +onlyGivenNames _ _ _ d1 d2 d3
  have h1 : Canon d1 := h.wr.wr.wr
  have h2 : Canon d2 := h1.wr.setRun.setSalvo
  have h3 : Canon d3 := h2.raise
  exact .pair (.ite h3.raise h3)

theorem salvoCancel {s at_ : Nat} (h : Canon d) : Canon (d.salvoCancel s at_).1 := by
  unfold Dev.salvoCancel
  split; exacts [.pair h.setSalvo, .iteFst (.pair h.setSalvo) h, h, h]

theorem prewarmStep {s : Nat} (h : Canon d) : Canon (prewarmStep s d) := by
  unfold Machine.prewarmStep
  refine .ite h ?_
  extract_lets +onlyGivenNames d1
  have h1 : Canon d1 := h.setRun
  split
  refine .ite h1 ?_
  refine .ite h1.bumpWrap ?_
  extract_lets +onlyGivenNames _ _
  split
  next d2 _ e =>
  have h2 : Canon d2 := .ofFst e h1.pinForSalvo
  split
  next d3 _ e =>
  have h3 : Canon d3 := .ofFst e h2.pinForSalvo
  exact .ite h3.rteCount.bumpWrap h3.bumpWrap

theorem salvoCommit {s : Nat} (h : Canon d) : Canon (salvoCommit s d) := by
  unfold Machine.salvoCommit
  refine .ite h ?_
  extract_lets +onlyGivenNames _ d1 d2 d3
  have h1 : Canon d1 := h.wr
  have h2 : Canon d2 := h1.setSalvo.setRun
  have h3 : Canon d3 := .ite h2.wr.raise h2
  exact h3.raise

theorem salvoSwap {s : Nat} (h : Canon d) : Canon (salvoSwap s d) := by
  unfold Machine.salvoSwap
  refine .ite h ?_
  extract_lets +onlyGivenNames _ _ d1
  have h1 : Canon d1 := h.setRun
  exact .ite (.routeEcc (.bumpWrap (.ite h1.same h1))) h1.setEntry.setRecord.bumpWrap

theorem retireChange {s j : Nat} (h : Canon d) : Canon (d.retireChange s j) := by
  unfold Dev.retireChange
  extract_lets +onlyGivenNames _ _ clear remove
  have h1 : ∀ d, Canon d → Canon (clear d) := fun _ h1 => h1.setEntry.repinLine
  have h2 : ∀ d x1, Canon d → Canon (remove d x1) := fun _ _ h2 => h2.dropLine.freeEntry.dropSid
  split; exacts [h2 _ _ h, by split; exacts [h2 _ _ h, h.freeEntry], (h1 _ h).same, h1 _ h]

theorem dropRecords {s : Nat} (h : Canon d) : Canon (d.dropRecords s) := h.same
theorem salvoRetire {s : Nat} (h : Canon d) : Canon (salvoRetire s d) :=
  .ite h (h.setRun.unpinSalvo.dropRecords.foldl fun _ _ h2 => h2.retireChange)
theorem salvoRetireDone {s : Nat} (h : Canon d) : Canon (salvoRetireDone s d) := .ite h.setRun.setSalvo.raise h

theorem undoChange {s j : Nat} (h : Canon d) : Canon (d.undoChange s j) := by
  unfold Dev.undoChange
  extract_lets +onlyGivenNames _ _ _
  split
  · extract_lets +onlyGivenNames d1
    have h1 : Canon d1 := h.dropLine.freeEntry
    split; exacts [h1.dropSid, h1]
  · exact h.setEntry.same
  · exact h.setEntry

theorem salvoCancelDone {s : Nat} (h : Canon d) : Canon (salvoCancelDone s d) :=
  .ite h ((h.unpinSalvo.dropRecords.foldl fun _ _ h1 => h1.undoChange).setRun.wr.setSalvo.raise)

end Sys2Proof.Machine.Canon
end

section
/-! SUPPORT. What keeps a canonical device canonical: the rings and the delivery of events (chapters 12 and 13). -/

namespace Sys2Proof.Machine.Canon

variable {d : Dev}

theorem withSac {f : SacSt → SacSt} (h : Canon d) : Canon (d.withSac f) := h.same
theorem sacCount {c k n : Nat} (h : Canon d) : Canon (d.sacCount c k n) := h.bumpWrap
theorem setRing {c r : Nat} {x : Ring} (h : Canon d) : Canon (d.setRing c r x) := h.same
theorem setRingState {c r x : Nat} (h : Canon d) : Canon (d.setRingState c r x) := h.wr
theorem hostWrite {c qp addr rkey : Nat} {l : List Byte} (h : Canon d) : Canon (d.hostWrite c qp addr rkey l) :=
  h.sacCount.emit
theorem putRecord {c r v : Nat} (h : Canon d) : Canon (d.putRecord c r v) := h.hostWrite.wr
theorem settleRing {c r : Nat} (h : Canon d) : Canon (d.settleRing c r) :=
  .ite h (.ite h.setRingState (.ite h h.setRingState))
theorem stopRing {c r : Nat} (h : Canon d) : Canon (d.stopRing c r) := h.wr.setRing.setRingState.raise
theorem askStop {c r : Nat} (h : Canon d) : Canon (d.askStop c r) := .ite h (.ite h.setRing h.stopRing)
theorem writeCpl {c r : Nat} {x : CurDesc} {status result : Nat} (h : Canon d) :
    Canon (d.writeCpl c r x status result) :=
  .ite h.putRecord.sacCount h

theorem completeDesc {c r status result : Nat} (h : Canon d) : Canon (d.completeDesc c r status result) := by
  unfold Dev.completeDesc
  extract_lets +onlyGivenNames _
  split
  · exact h
  · extract_lets +onlyGivenNames d1 d2 d3 d4 d5
    have h1 : Canon d1 := h.setRing
    have h2 : Canon d2 := h1.sacCount
    have h3 : Canon d3 := .ite h2.sacCount h2
    have h4 : Canon d4 := .ite h3.raise h3
    have h5 : Canon d5 := .ite h4 h4.writeCpl
    exact .ite h5.stopRing (.settleRing (.ite h5.setRingState h5))

theorem failDesc {c r status : Nat} (h : Canon d) : Canon (d.failDesc c r status) := h.same.completeDesc

theorem startDesc {c r : Nat} (h : Canon d) : Canon (d.startDesc c r).1 := by
  unfold Dev.startDesc
  extract_lets +onlyGivenNames _
  split; exacts [h, .iteFst h (.iteFst (.pair h.setRing.setRingState.raise) (.pair h.setRing))]

theorem execDesc {c r op args : Nat} {f : Dev → Nat → Dev} (h :
    Canon d) (hf : ∀ d x1, Canon d → Canon (f d x1)) : Canon (d.execDesc c r op args f) := by
  unfold Dev.execDesc
  refine .ite h ?_
  split
  next d1 _ e =>
  have h1 : Canon d1 := .ofFst e h.startDesc
  split; exacts [h1, .ite (.ite h1.completeDesc h1.failDesc) (hf _ _ h1)]

theorem waitDesc {c r : Nat} {f : CurDesc → CurDesc} (h : Canon d) : Canon (d.waitDesc c r f) :=
  h.setRing.setRingState

theorem toEvtRing {c e : Nat} {x : EvRec} (h : Canon d) : Canon (d.toEvtRing c e x) := by
  unfold Dev.toEvtRing
  refine .ite h ?_
  refine .ite (h.foldl fun _ _ h1 => h1.same.putRecord.sacCount) ?_
  extract_lets +onlyGivenNames d1
  have h1 : Canon d1 := h.sacCount
  exact .ite h1 h1.same.raise

theorem toMring {x : EvRec} (h : Canon d) : Canon (d.toMring x) :=
  .ite h (.ite (h.foldl fun _ _ h1 => h1.store.same.wr) h.bump.same)

theorem deliver {x : EvRec} (h : Canon d) : Canon (d.deliver x) := by
  unfold Dev.deliver
  extract_lets +onlyGivenNames toward d2
  have h1 : ∀ d x1 x2 x3, Canon d → Canon (toward d x1 x2 x3) := fun _ _ _ _ h1 => .ite h1.toEvtRing h1
  have h2 : Canon d2 := h1 _ _ _ _ (h1 _ _ _ _ (h1 _ _ _ _ (h1 _ _ _ _ h)))
  exact .ite h2.toMring h2

theorem setWindow {src t : Nat} (h : Canon d) : Canon (d.setWindow src t) := h.same
theorem setHeld {src : Nat} {x : Option EvRec} (h : Canon d) : Canon (d.setHeld src x) := h.same

theorem eventAccept (h : Canon d) : Canon (eventAccept d) := by
  unfold Machine.eventAccept
  extract_lets +onlyGivenNames _ d1
  have h1 : Canon d1 := .ite (h.same.foldl fun _ _ h1 => h1.acceptRaise) h
  refine .ite h1 ?_
  split
  · exact h1
  · extract_lets +onlyGivenNames _ d2
    have h2 : Canon d2 := h1.same
    exact .ite h2.setHeld.bump (.deliver (.ite h2 h2.setWindow))

theorem coalesceEnd {src : Nat} (h : Canon d) : Canon (coalesceEnd src d) :=
  .ite h (by split; exacts [h.setWindow, h.setHeld.setWindow.deliver])

theorem writeEnables {causes ens : List Field} {ix : List Nat} {src m v : Nat} (h : Canon d) :
    Canon (d.writeEnables causes ens ix src m v) := by
  unfold Dev.writeEnables
  extract_lets +onlyGivenNames _ _ d1
  have h1 : Canon d1 := h.foldl fun _ _ h1 => h1.wr
  exact .ite h1 h1.raise

end Sys2Proof.Machine.Canon
end

section
/-! SUPPORT. What keeps a canonical device canonical: semaphores and arbiters (chapter 12). -/

namespace Sys2Proof.Machine.Canon

variable {d : Dev}

theorem holdIn {n t s : Nat} (h : Canon d) : Canon (d.holdIn n t s) := h.setDrover
theorem unholdIn {n s : Nat} (h : Canon d) : Canon (d.unholdIn n s) := h.setDrover

theorem semTell {n s : Nat} (h : Canon d) : Canon (d.semTell n s) := by
  unfold Dev.semTell
  refine .ite ?_ (.ite (by split; exacts [h, h.completeDesc]) h)
  split
  · exact h
  · extract_lets +onlyGivenNames d1
    have h1 : Canon d1 := h.holdIn
    exact .ite h1.setThr h1.threadGo

theorem semGrant {s n : Nat} (h : Canon d) : Canon (d.semGrant s n) := h.wr.wr.clearBit.semTell
theorem semFree {s : Nat} (h : Canon d) : Canon (d.semFree s) := by
  unfold Dev.semFree
  split; exacts [h.semGrant, h.same.wr.wr]
theorem markAsked {n k : Nat} (h : Canon d) : Canon (d.markAsked n k) := .ite h.setThr h.setRing

theorem semAsk {n : Nat} (h : Canon d) : Canon (d.semAsk n) := by
  unfold Dev.semAsk
  refine .ite h ?_
  split
  · exact h
  · extract_lets +onlyGivenNames d1
    have h1 : Canon d1 := h.markAsked
    exact .ite h1.semGrant h1.setBit

theorem semSettle {n : Nat} (h : Canon d) : Canon (d.semSettle n) := h.foldl fun _ _ h1 => h1.semAsk
theorem semSettleAll (h : Canon d) : Canon d.semSettleAll := h.foldl fun _ _ h1 => h1.semSettle
theorem semTry {n s : Nat} (h : Canon d) : Canon (d.semTry n s).1 := .iteFst h (.iteFst h (.pair h.wr.wr))
theorem semRel {n s : Nat} (h : Canon d) : Canon (d.semRel n s).1 :=
  .iteFst (.pair (.semSettleAll (.semFree (.ite h.unholdIn h)))) h
theorem semWithdraw {n : Nat} (h : Canon d) : Canon (d.semWithdraw n) := by
  unfold Dev.semWithdraw
  split; exacts [h, h.clearBit]

theorem readSemTry {inp s : Nat} (h : Canon d) : Canon (readSemTry inp s d).1 := by
  unfold Machine.readSemTry
  split
  next d1 _ e =>
  have h1 : Canon d1 := .ofFst e h.semTry
  exact h1

theorem writeSemRel {inp s v : Nat} (h : Canon d) : Canon (writeSemRel inp s v d).1 := .iteFst h.semRel h
theorem writeSemForce {inp v : Nat} (h : Canon d) : Canon (writeSemForce inp v d).1 :=
  .iteFst h (.iteFst (.pair h.semFree.semSettleAll) h)
theorem logCycle {l : List Nat} (h : Canon d) : Canon (d.logCycle l) := h.wr.wr.wr.wr.wr.wr.raise

theorem breakCycle {l : List Nat} (h : Canon d) : Canon (d.breakCycle l) := by
  unfold Dev.breakCycle
  split
  · split
    · exact h
    · extract_lets +onlyGivenNames _ d1 asker ring d2 d3 d4 d5 d6 d7 d8 d9
      clear_value asker ring
      have h1 : Canon d1 := .ite h.unholdIn h
      have h2 : Canon d2 := h1.semWithdraw
      have h3 : Canon d3 := by unfold d3; split; exacts [.ite h2.setThr h2, h2]
      have h4 : Canon d4 := h3.semFree
      have h5 : Canon d5 := h4.wr
      have h6 : Canon d6 := h5.wr.wr
      have h7 : Canon d7 := h6.raise
      have h8 : Canon d8 := .ite h7.drvCount h7
      have h9 : Canon d9 := .ite h8.makeDue h8
      split; exacts [h9.completeDesc, h9]
  · exact h

theorem deadlockSearch (h : Canon d) : Canon (deadlockSearch d) := by
  unfold Machine.deadlockSearch
  refine .ite h ?_
  extract_lets +onlyGivenNames _ _ d1 d2
  have h1 : Canon d1 := h.same
  have h2 : Canon d2 := by
    refine h1.foldl fun _ _ h3 => ?_
    extract_lets +onlyGivenNames d4
    have h4 : Canon d4 := .ite h3 h3.logCycle
    exact .ite h4.breakCycle h4
  exact h2.semSettleAll

theorem arbAge {r n age : Nat} (h : Canon d) : Canon (arbAge r n age d) := by
  unfold Machine.arbAge
  extract_lets +onlyGivenNames _ d1 d2
  have h1 : Canon d1 := h.wr
  have h2 : Canon d2 := .ite h1.wr h1
  exact .ite h2.same (.ite h2.same.raise h2)

end Sys2Proof.Machine.Canon
end

section
/-! SUPPORT. What keeps a canonical device canonical: queue pairs, doorbells (chapter 12) and executed halters
(chapter 03). -/

namespace Sys2Proof.Machine.Canon

variable {d : Dev}

theorem sacSend {q kind dst dport : Nat} {l : List Byte} (h : Canon d) : Canon (d.sacSend q kind dst dport l) :=
  h.emit
theorem setQp {c i : Nat} {x : Qp} (h : Canon d) : Canon (d.setQp c i x) := h.same

theorem qpEnter {c i st : Nat} (h : Canon d) : Canon (d.qpEnter c i st) := by
  unfold Dev.qpEnter
  extract_lets +onlyGivenNames _ d1 d2 d3
  have h1 : Canon d1 := h.wr
  have h2 : Canon d2 := h1.wr
  have h3 : Canon d3 := .ite h2.raise h2
  exact .ite (h3.foldl fun _ _ h4 => .ite h4.askStop h4) h3

theorem ctrlLost {c : Nat} (h : Canon d) : Canon (d.ctrlLost c) := by
  unfold Dev.ctrlLost
  refine .ite h ?_
  extract_lets +onlyGivenNames d1 d2 d3
  have h1 : Canon d1 := h.same
  have h2 : Canon d2 := h1.wr.raise
  have h3 : Canon d3 := h2.foldl fun _ _ h3 => h3.askStop
  refine .ite h3 ?_
  extract_lets +onlyGivenNames _ d4
  have h4 : Canon d4 := by unfold d4; split; exacts [h3.semWithdraw.completeDesc, h3]
  exact (h4.foldl fun _ _ h5 => .ite h5.semFree h5).semSettleAll

theorem unbind {c : Nat} (h : Canon d) : Canon (d.unbind c) := .ite h.same.wr h
theorem clearHalter {c : Nat} (h : Canon d) : Canon (d.clearHalter c) := (h.foldl fun _ _ h1 => h1.wr.wr.wr.wr).same

theorem qpLeave {c i st : Nat} (h : Canon d) : Canon (d.qpLeave c i st) := by
  unfold Dev.qpLeave
  extract_lets +onlyGivenNames _ d1 d2
  have h1 : Canon d1 := h.qpEnter
  have h2 : Canon d2 := .ite h1.clearHalter h1
  exact .ite h2.unbind.ctrlLost h2

theorem closeQps (h : Canon d) : Canon d.closeQps :=
  h.foldl fun _ _ h1 => ((h1.foldl fun _ _ h2 => .ite h2.sacSend.qpEnter.setQp h2).foldl fun _ _ h3 => .ite
    h3.askStop h3).clearHalter.unbind

theorem commandBell {c r v : Nat} (h : Canon d) : Canon (d.commandBell c r v) :=
  .ite h.askStop h.wr.sacCount.settleRing.fireWake

theorem badBell {c : Nat} {tell : Bool} (h : Canon d) : Canon (d.badBell c tell) := by
  unfold Dev.badBell
  extract_lets +onlyGivenNames d1
  have h1 : Canon d1 := h.sacCount
  exact .ite h1.raise h1

theorem roomAgain {c k : Nat} (h : Canon d) : Canon (d.roomAgain c k) := by
  unfold Dev.roomAgain
  refine h.foldl fun _ _ h1 => ?_
  refine .ite ?_ h1
  extract_lets +onlyGivenNames d2
  have h2 : Canon d2 := h1.setRing
  exact .settleRing (.ite h2.setRingState h2)

theorem consumeBell {c r v : Nat} (h : Canon d) : Canon (d.consumeBell c r v) := by
  unfold Dev.consumeBell
  refine .ite h.badBell ?_
  extract_lets +onlyGivenNames d1
  have h1 : Canon d1 := h.wr.sacCount
  exact .ite h1.roomAgain h1

theorem heartbeat {c v : Nat} (h : Canon d) : Canon (d.heartbeat c v) := h.same.wr.sacCount
theorem doorbell {c off v : Nat} (h : Canon d) : Canon (d.doorbell c off v) := by
  unfold Dev.doorbell
  split; exacts [h.badBell, .ite h.commandBell (.ite h.consumeBell h.heartbeat)]

theorem ringStart {c r : Nat} (h : Canon d) : Canon (d.ringStart c r).1 := by
  unfold Dev.ringStart
  refine .iteFst h ?_
  extract_lets +onlyGivenNames d1
  have h1 : Canon d1 := h.setRingState
  exact .pair (.ite h1.settleRing (.ite h1.roomAgain h1))

theorem ringStop {c r : Nat} (h : Canon d) : Canon (d.ringStop c r).1 := .iteFst h (.pair h.askStop)

theorem abortHeld {c r : Nat} (h : Canon d) : Canon (d.abortHeld c r) := by
  unfold Dev.abortHeld
  extract_lets +onlyGivenNames _
  split
  · exact h
  · extract_lets +onlyGivenNames d1 d2
    have h1 : Canon d1 := .ite h.semWithdraw h
    have h2 : Canon d2 := h1.setRing.sacCount.sacCount
    exact .ite h2.raise h2

theorem ringReset {c r : Nat} (h : Canon d) : Canon (d.ringReset c r).1 :=
  .iteFst h (.pair h.abortHeld.setRing.semSettle.wr.wr)

theorem writeRingCtl {c v : Nat} (h : Canon d) : Canon (writeRingCtl c v d).1 := by
  unfold Machine.writeRingCtl
  extract_lets +onlyGivenNames _ act
  have h1 : ∀ p b f, Canon p.1 → (∀ d, Canon d → Canon (f d).1) → Canon (act p b f).1 :=
    fun _ _ _ hp hf => .iteFst (.pair (hf _ hp)) hp
  exact h1 _ _ _ (h1 _ _ _ (h1 _ _ _ h fun _ h => h.ringStart) fun _ h => h.ringStop) fun _ h => h.ringReset

theorem ringEnabled {c r : Nat} {was : Bool} (h : Canon d) : Canon (d.ringEnabled c r was) := by
  unfold Dev.ringEnabled
  refine .ite h ?_
  refine .ite ?_ h.wr.setRing.setRingState
  extract_lets +onlyGivenNames d1
  have h1 : Canon d1 := h.setRingState
  exact .ite h1.settleRing (.ite h1.roomAgain h1)

theorem portStop {f : Field} {b : Nat} {on : Bool} (h : Canon d) : Canon (d.portStop f b on) :=
  .ite h.setBit h.clearBit

theorem haltAction {action target at_ : Nat} (h : Canon d) : Canon (d.haltAction action target at_).1 := by
  unfold Dev.haltAction
  extract_lets +onlyGivenNames ports
  have h1 : ∀ x0 x1, Canon (ports x0 x1).1 := fun _ _ => .pair (h.foldl fun _ _ h1 => h1.portStop)
  split
  · exact h1 ..
  · exact h1 ..
  · exact h1 ..
  · exact h1 ..
  · exact .pair h.streamStop
  · exact .pair h.streamRelease
  · exact .pair (h.foldl fun _ _ h2 => .ite h2.haltReq h2)
  · exact h.foldlFst fun _ _ h2 => .pair h2.salvoCancel

theorem halterAct {q action fine : Nat} (h : Canon d) : Canon (halterAct q action fine d) := by
  unfold Machine.halterAct
  split
  · exact h
  · refine .ite h ?_
    extract_lets +onlyGivenNames d1 _ _ _ _ reply d3
    have h1 : Canon d1 := h.same
    have h2 : ∀ d, Canon d → Canon (reply d) := fun _ h2 => h2.halterReply
    have h3 : Canon d3 := h1.fireWake
    refine .ite (h2 _ h3.halterReject) ?_
    split
    next d4 _ e =>
    have h4 : Canon d4 := .ofFst e h3.haltAction
    exact h2 _ h4.halterLog.bumpWrap.raiseAt

theorem haltStateClear {q v : Nat} (h : Canon d) : Canon (haltStateClear q v d) := h.wr.wr

end Sys2Proof.Machine.Canon
end

section
/-! SUPPORT. What keeps a canonical device canonical: DDR4 (chapter 11). -/

namespace Sys2Proof.Machine.Canon

variable {d : Dev}

theorem withDdr {f : DdrSt → DdrSt} (h : Canon d) : Canon (d.withDdr f) := h.same
theorem ddrCount {c k n : Nat} (h : Canon d) : Canon (d.ddrCount c k n) := h.bumpWrap

theorem ddrCause {c b : Nat} (h : Canon d) : Canon (d.ddrCause c b) := by
  unfold Dev.ddrCause
  refine .ite h ?_
  extract_lets +onlyGivenNames d1
  have h1 : Canon d1 := h.wr
  exact .ite h1.raise h1

theorem ddrLog {c choff : Nat} {uncorr scrub : Bool} {sym nib : Nat} (h : Canon d) :
    Canon (d.ddrLog c choff uncorr scrub sym nib) :=
  h.wr.wr.wr.wr.wr.wr.wr

theorem countNibble {c rank n : Nat} (h : Canon d) : Canon (d.countNibble c rank n) := by
  unfold Dev.countNibble
  extract_lets +onlyGivenNames _ _ d1
  have h1 : Canon d1 := h.bump
  exact .ite h1.ddrCause h1

theorem ddrReadLine {a : Nat} {errs : List (Nat × Nat)} {scrub : Bool} (h : Canon d) :
    Canon (d.ddrReadLine a errs scrub).1 := by
  unfold Dev.ddrReadLine
  extract_lets +onlyGivenNames _
  split
  extract_lets +onlyGivenNames _ d1
  have h1 : Canon d1 := h.ddrCount
  refine .iteFst (.pair h1.same.ddrLog.ddrCount.ddrCause) ?_
  refine .iteFst h1 ?_
  extract_lets +onlyGivenNames _ d2 d3 _ d4
  have h2 : Canon d2 := h1.ddrLog
  have h3 : Canon d3 := h2.ddrCount
  have h4 : Canon d4 := h3.foldl fun _ _ h4 => h4.countNibble
  exact .pair (.ite h4.ddrCount h4)

theorem ddrTouch {a : Nat} (h : Canon d) : Canon (d.ddrTouch a) := by
  unfold Dev.ddrTouch
  extract_lets +onlyGivenNames _ d1
  have h1 : Canon d1 := h.same
  exact .ite h1.wr.ddrCount h1

theorem ddrWritePiece {a : Nat} {l : List Byte} {errs : List (Nat × Nat)} (h : Canon d) :
    Canon (d.ddrWritePiece a l errs).1 := by
  unfold Dev.ddrWritePiece
  extract_lets +onlyGivenNames _ d1
  have h1 : Canon d1 := h.ddrTouch
  refine .iteFst (.pair h1.same.setBytes.ddrCount) ?_
  extract_lets +onlyGivenNames d2
  have h2 : Canon d2 := h1.ddrCount
  split
  next d3 _ e =>
  have h3 : Canon d3 := .ofFst e h2.ddrReadLine
  exact .iteFst (.pair h3.setBytes.ddrCount) (.pair h3.ddrCount)

theorem countNotReady {a len : Nat} (h : Canon d) : Canon (d.countNotReady a len) := h.foldl fun _ _ h1 => h1.ddrCount

theorem ddrRead {a len : Nat} {errs : List (Nat × Nat)} (h : Canon d) : Canon (d.ddrRead a len errs).1 := by
  unfold Dev.ddrRead
  refine .iteFst h ?_
  refine .iteFst h ?_
  refine .iteFst (.pair h.countNotReady) ?_
  refine h.foldlFst fun _ _ h1 => ?_
  split
  split
  next d3 _ e =>
  have h3 : Canon d3 := .ofFst e h1.ddrTouch.ddrReadLine
  exact .iteFst h3 h3

theorem ddrWrite {a : Nat} {l : List Byte} {errs : List (Nat × Nat)} (h : Canon d) :
    Canon (d.ddrWrite a l errs).1 := by
  unfold Dev.ddrWrite
  refine .iteFst h ?_
  refine .iteFst (.pair h.rteCount) ?_
  refine .iteFst (.pair h.bumpWrap) ?_
  refine .iteFst h ?_
  refine .iteFst (.pair h.countNotReady) ?_
  extract_lets +onlyGivenNames r1
  have h1 : Canon r1.1 := by
    refine h.foldlFst fun _ _ h2 => ?_
    split
    next d3 _ e =>
    have h3 : Canon d3 := .ofFst e h2.ddrWritePiece
    exact h3
  exact h1

theorem ddrInit (h : Canon d) : Canon (ddrInit d).1 := by
  unfold Machine.ddrInit
  refine .iteFst h ?_
  extract_lets +onlyGivenNames d1 _ d2
  have h1 : Canon d1 := h.same
  have h2 : Canon d2 := .ite h1.wr h1
  exact .pair (h2.foldl fun _ _ h3 => h3.wr)

theorem ddrRetrain (h : Canon d) : Canon (ddrRetrain d).1 := .iteFst h (.pair (h.foldl fun _ _ h1 => h1.wr.clearBit))

theorem ddrTrainDone {fails : List (Nat × Nat × Nat)} (h : Canon d) : Canon (ddrTrainDone fails d) := by
  unfold Machine.ddrTrainDone
  refine .ite h ?_
  extract_lets +onlyGivenNames _ d1
  have h1 : Canon d1 := by
    refine h.foldl fun _ _ h2 => ?_
    extract_lets +onlyGivenNames fail
    have h3 : ∀ d x1 x2, Canon d → Canon (fail d x1 x2) := fun _ _ _ h3 => h3.wr.wr.wr.setBit.ddrCause
    split; exacts [h3 _ _ _ h2, .ite (h3 _ _ _ h2.same) h2.wr]
  exact .ite h1.wr.setReady h1

theorem ddrInitDone (h : Canon d) : Canon (ddrInitDone d) := by
  unfold Machine.ddrInitDone
  refine .ite h ?_
  extract_lets +onlyGivenNames _ d1 d2 d3
  have h1 : Canon d1 := h.filterMem
  have h2 : Canon d2 := h1.same
  have h3 : Canon d3 := h2.foldl fun _ _ h3 => h3.wr.same
  exact .ite h3.wr.setReady h3

theorem ddrDo {x : DdrAcc} (h : Canon d) : Canon (d.ddrDo x) := by
  unfold Dev.ddrDo
  refine .ite ?_ ?_
  · split
    next d1 _ e =>
    have h1 : Canon d1 := .ofFst e h.ddrWrite
    exact h1.complete
  · split
    next d1 _ _ e =>
    have h1 : Canon d1 := .ofFst e h.ddrRead
    exact .ite h1.same.complete h1.complete

theorem ddrAccess {x : DdrAcc} (h : Canon d) : Canon (ddrAccess x d) := .ite h (.ite h.complete (.ite h.same h.ddrDo))
theorem selfRefreshWake {c : Nat} (h : Canon d) : Canon (selfRefreshWake c d) :=
  .ite h (h.wr.ddrCount.same.foldl fun _ _ h3 => h3.ddrDo)
theorem selfRefreshEntry {c : Nat} (h : Canon d) : Canon (selfRefreshEntry c d) := .ite h h.wr

theorem patrolScrub {c : Nat} {errs : List (Nat × Nat)} (h : Canon d) : Canon (patrolScrub c errs d) := by
  unfold Machine.patrolScrub
  refine .ite h ?_
  extract_lets +onlyGivenNames _ d1 d2
  have h1 : Canon d1 := h.ddrReadLine
  have h2 : Canon d2 := h1.ddrCount
  exact .ite h2.same h2.same.bumpWrap.wr.ddrCause

theorem refresh {c : Nat} (h : Canon d) : Canon (refresh c d) := .ite h h.same

end Sys2Proof.Machine.Canon
end

section
/-! SUPPORT. What keeps a canonical device canonical: the non-volatile array (chapter 10). -/

namespace Sys2Proof.Machine.Canon

variable {d : Dev}

theorem withNvc {f : NvcSt → NvcSt} (h : Canon d) : Canon (d.withNvc f) := h.same
theorem nvCount {k n : Nat} (h : Canon d) : Canon (d.nvCount k n) := h.bumpWrap
theorem nvEvent {src bank inp : Nat} (h : Canon d) : Canon (d.nvEvent src bank inp) := .ite h.raise h.same.raise
theorem setNvStat {b busy op result pulses sector owner : Nat} (h : Canon d) :
    Canon (d.setNvStat b busy op result pulses sector owner) :=
  h.wr
theorem nvWeak {cw inp : Nat} (h : Canon d) : Canon (d.nvWeak cw inp) := .nvEvent (.ite h.same h.nvCount)
theorem nvLog {cw bits retries uncorr : Nat} (h : Canon d) : Canon (d.nvLog cw bits retries uncorr) :=
  h.wr.wr.wr.wr.wr.wr

theorem nvSense {cw inp : Nat} {f : NvFind} (h : Canon d) : Canon (d.nvSense cw inp f).1 := by
  unfold Dev.nvSense
  extract_lets +onlyGivenNames d1 fixed
  have h1 : Canon d1 := .ite h.nvCount h
  have h2 : ∀ d x1, Canon d → Canon (fixed d x1) := fun _ _ h2 => .ite h2 h2.nvCount.nvCount
  split
  · extract_lets +onlyGivenNames d3
    have h3 : Canon d3 := h2 _ _ h1
    exact .pair (.ite h3.nvWeak h3)
  · refine .iteFst ?_ (.pair h1.nvCount.nvLog.nvEvent)
    split
    · exact .pair ((h2 _ _ h1.nvCount).nvLog.nvWeak)
    · exact .pair h1.nvCount.nvCount.nvLog.nvEvent

theorem nvSenses {a len inp : Nat} {f : NvFind} (h : Canon d) : Canon (d.nvSenses a len inp f).1 :=
  .pair (h.nvSense.foldl fun _ _ h2 => h2.nvSense)

theorem nvRead {inp a len : Nat} {f : NvFind} (h : Canon d) : Canon (d.nvRead inp a len f).1 := by
  unfold Dev.nvRead
  extract_lets +onlyGivenNames _ _ d1
  have h1 : Canon d1 := .ite h.same h
  refine .iteFst (.pair h1.nvCount) ?_
  refine .iteFst (.pair h1.nvCount) ?_
  refine .iteFst (.pair (.ite h1.nvCount h1)) ?_
  split
  next d2 _ e =>
  have h2 : Canon d2 := .ofFst e h1.nvSenses
  exact .iteFst h2 (.iteFst h2 (.pair h2.same))

theorem setSeq {inp st b : Nat} (h : Canon d) : Canon (d.setSeq inp st b) := h.wr.wr
theorem releaseBuf {inp : Nat} (h : Canon d) : Canon (d.releaseBuf inp) := .ite h.wr h
theorem seqErr {inp b : Nat} (h : Canon d) : Canon (d.seqErr inp b) := h.releaseBuf.wr.wr.nvCount.nvEvent
theorem seqBusy {inp : Nat} (h : Canon d) : Canon (d.seqBusy inp) := h.releaseBuf.wr.wr.nvCount
theorem nvConfirm {inp a kind : Nat} (h : Canon d) : Canon (d.nvConfirm inp a kind).1 :=
  .iteFst (.pair h.seqBusy) (.pair h.same.setNvStat.wr.wr)

theorem nvWrite {inp a : Nat} {l : List Byte} (h : Canon d) : Canon (d.nvWrite inp a l).1 := by
  unfold Dev.nvWrite
  extract_lets +onlyGivenNames _ stamp ok
  have h1 : ∀ d, Canon d → Canon (stamp d) := fun _ h1 => h1.same
  have h2 : ∀ d, Canon d → Canon (ok d).1 := fun _ h2 => .pair (h1 _ h2)
  split
  · exact h2 _ h.releaseBuf.wr.wr.same
  · exact h2 _ h.setSeq
  · exact h2 _ h.setSeq
  · exact .iteFst (.pair (h1 _ h.seqBusy)) (h2 _ h.same.wr.wr.wr.setSeq)
  · exact h2 _ h.wr.same
  · exact .pair (h1 _ h.nvConfirm)
  · exact h2 _ h.setSeq
  · exact .pair (h1 _ h.nvConfirm)
  · exact h2 _ h.setSeq.same
  · exact h2 _ h.setSeq
  · exact h2 _ h.setSeq.wr.wr
  · exact .pair (h1 _ h.seqErr)

theorem seqTimeout {inp : Nat} (h : Canon d) : Canon (seqTimeout inp d) := .ite h h.seqErr.wr
theorem resumeStalled {b : Nat} (h : Canon d) : Canon (d.resumeStalled b) :=
  h.same.foldl fun _ _ h2 => .ite h2.nvEvent h2

theorem nvOpEnd {b pulses : Nat} {verified : Bool} (h : Canon d) : Canon (nvOpEnd b pulses verified d) := by
  unfold Machine.nvOpEnd
  split
  · exact h
  · extract_lets +onlyGivenNames _ _ done
    have h1 : ∀ d x1 x2, Canon d → Canon (done d x1 x2) := by
      intro _ _ _ h1
      unfold done
      extract_lets +onlyGivenNames d2 d3 _ d4
      have h2 : Canon d2 := h1.setNvStat
      have h3 : Canon d3 := h2.same
      have h4 : Canon d4 := .ite h3.wr h3
      exact h4.resumeStalled
    refine .ite ((h1 _ _ _ h.nvCount).nvEvent) ?_
    refine .ite ?_ ?_
    · refine .ite ((h1 _ _ _ h.nvCount).nvEvent) ?_
      refine .ite ((h1 _ _ _ h.nvCount).nvEvent) ?_
      refine .ite ?_ ((h1 _ _ _ h.loseMem.nvCount).nvEvent)
      exact (h1 _ _ _ ((h.foldl fun _ _ h2 => h2.setBytes).nvCount)).nvEvent
    · exact .ite ((h1 _ _ _ h.filterMem.nvCount).nvEvent) ((h1 _ _ _ h.loseMem.nvCount).nvEvent)

theorem nvFetch {inp a len : Nat} {f : NvFind} (h : Canon d) : Canon (d.nvFetch inp a len f).1 :=
  .iteFst (.pair h.nvCount.same) (.pair h.nvSenses)
theorem writeWpClr {r : Req} {w v : Nat} (h : Canon d) : Canon (writeWpClr r w v d).1 :=
  .iteFst h (.iteFst h (.pair h.wr))
theorem writeWp {w v : Nat} (h : Canon d) : Canon (writeWp w v d).1 := .iteFst h (.pair h.wr)

theorem showBoot (h : Canon d) : Canon d.showBoot := by
  unfold Dev.showBoot
  extract_lets +onlyGivenNames d1
  have h1 : Canon d1 := h.wr
  split; exacts [h1.wr.wr.wr.wr, h1.wr.wr.wr.wr]

theorem loadProtect (h : Canon d) : Canon d.loadProtect := h.foldl fun _ _ h1 => h1.wr
theorem bootrecEvent {inp : Nat} (h : Canon d) : Canon (d.bootrecEvent inp) := h.same.nvEvent

theorem readBootRecord (h : Canon d) : Canon d.readBootRecord := by
  unfold Dev.readBootRecord
  extract_lets +onlyGivenNames d1 d2 d3
  have h1 : Canon d1 := h.showBoot.loadProtect
  have h2 : Canon d2 := h1.wr.wr
  have h3 : Canon d3 := h2.foldl fun _ _ h3 => h3.wr
  exact .ite h3.bootrecEvent h3

theorem writeBootCmd {r : Req} {m v : Nat} (h : Canon d) : Canon (writeBootCmd r m v d).1 := by
  unfold Machine.writeBootCmd
  extract_lets +onlyGivenNames _ d1 d2
  have h1 : Canon d1 := .ite h.wr h
  have h2 : Canon d2 := .ite h (.ite h1.wr h1)
  exact .iteFst (.iteFst (.pair h2.wr) (.pair h2.same.wr)) h2

theorem bootRecordDone {ok : Bool} (h : Canon d) : Canon (bootRecordDone ok d) := by
  unfold Machine.bootRecordDone
  split
  · exact h
  · extract_lets +onlyGivenNames _ put d2 d3
    have h1 : ∀ d x1, Canon d → Canon (put d x1) := fun _ _ h1 => h1.same
    have h2 : Canon d2 := h.same.wr
    have h3 : Canon d3 := .ite ((h1 _ _ h2).wr.nvCount) ((h1 _ _ h2).wr)
    exact h3.showBoot.bootrecEvent

theorem readWeak (h : Canon d) : Canon (readWeak d).1 := by
  unfold Machine.readWeak
  split; exacts [h, .pair h.same]
theorem nvPowerDown (h : Canon d) : Canon d.nvPowerDown :=
  (h.foldl fun _ _ h1 => h1.releaseBuf.wr).foldl fun _ _ h2 => h2.wr
theorem nvCommand {inp a : Nat} {l : List Byte} {is : NvWrite → Bool} (h : Canon d) :
    Canon (nvCommand inp a l is d) :=
  .ite (.ite h.complete h.nvWrite.complete) h

end Sys2Proof.Machine.Canon
end

section
/-! SUPPORT. What keeps a canonical device canonical: OTP, certificates and debug sessions (chapter 17). -/

namespace Sys2Proof.Machine.Canon

variable {d : Dev}

theorem withLcs {f : LcsSt → LcsSt} (h : Canon d) : Canon (d.withLcs f) := h.same
theorem burn {lo v : Nat} (h : Canon d) : Canon (d.burn lo v) := h.same

theorem showLcs (h : Canon d) : Canon d.showLcs := by
  unfold Dev.showLcs
  extract_lets +onlyGivenNames _ _ _ _ d1 d2 d3 _ d4 d5 d6 _ d7 d8 d9 _ d10
  have h1 : Canon d1 := h.wr.wr.wr.wr.wr
  have h2 : Canon d2 := h1.wr
  have h3 : Canon d3 := h2.wr.wr
  have h4 : Canon d4 := h3.wr.wr.wr
  have h5 : Canon d5 := h4.wr.wr.wr
  have h6 : Canon d6 := h5.foldl fun _ _ h6 => h6.wr
  have h7 : Canon d7 := h6.wr.wr.wr
  have h8 : Canon d8 := h7.wr.wr
  have h9 : Canon d9 := h8.wr.wr.wr
  have h10 : Canon d10 := h9.wr.wr
  split; exacts [h10.wr.wr.wr.wr, h10.wr.wr.wr.wr]

theorem lcCommit {target path cert : Nat} (h : Canon d) : Canon (d.lcCommit target path cert) := by
  unfold Dev.lcCommit
  split
  · exact h.wr
  · extract_lets +onlyGivenNames d1 d2 d3
    have h1 : Canon d1 := h.burn
    have h2 : Canon d2 := .ite h1.same h1
    have h3 : Canon d3 := h2.burn
    exact h3.wr.wr.showLcs

theorem dropNonce (h : Canon d) : Canon d.dropNonce := h.same.wr
theorem newNonce (h : Canon d) : Canon d.newNonce.1 := .pair h.same.wr.same
theorem closeSession (h : Canon d) : Canon d.closeSession := .ite h h.same.showLcs.raise
theorem startCheck {kind : Nat} (h : Canon d) : Canon (d.startCheck kind) := .ite h.wr h.same.wr

theorem certCheckDone (h : Canon d) : Canon (certCheckDone d) := by
  unfold Machine.certCheckDone
  split
  · exact h
  · extract_lets +onlyGivenNames _ d1
    have h1 : Canon d1 := h.same.dropNonce.wr.wr
    exact .ite h1 (.ite h1.lcCommit h1.same.showLcs.raise)

theorem lcRequest {target : Nat} (h : Canon d) : Canon (d.lcRequest target) :=
  .ite h.wr (by split; exacts [h.wr, .ite h.wr h.lcCommit])
theorem compatUnlock {word : Nat} (h : Canon d) : Canon (d.compatUnlock word) :=
  .ite h (.ite h.wr (.ite h.wr (.ite h.wr h.lcCommit)))
theorem writeLcsCmd {inp op : Nat} (h : Canon d) : Canon (writeLcsCmd inp op d).1 :=
  .iteFst h (.iteFst (.pair h.closeSession) (.iteFst h (.iteFst h (.iteFst (.pair h.wr) (.iteFst
    (.pair h.newNonce.wr) (.pair h.startCheck))))))
theorem sessionExpire (h : Canon d) : Canon (sessionExpire d) := by
  unfold Machine.sessionExpire
  split; exacts [h, .ite h.closeSession h]
theorem nonceLapse (h : Canon d) : Canon (nonceLapse d) := .ite h.dropNonce h
theorem zeroise (h : Canon d) : Canon d.zeroise := h.filterMem.same
theorem erasePart {a b : Nat} (h : Canon d) : Canon (d.erasePart a b) := h.filterMem
theorem destroyKey {lo : Nat} (h : Canon d) : Canon (d.destroyKey lo) := h.burn

theorem lcStep {path k : Nat} (h : Canon d) : Canon (d.lcStep path k) := by
  unfold Dev.lcStep
  extract_lets +onlyGivenNames _ _ release
  have h1 : ∀ x0, Canon (release x0) := fun _ => .ite h.zeroise (.ite (.ite h.destroyKey h) (.ite
      (.ite h.burn h) h.erasePart))
  refine .ite ?_ (.ite h.zeroise (.ite (.ite (by split; exacts [h.burn, h]) (.ite h.burn.burn (.ite h.burn (.ite
    (.ite h.burn h) h.same)))) (.ite h.burn (.ite (.ite h.zeroise (.ite h.destroyKey.destroyKey.destroyKey
    (.ite h.erasePart (.ite h.erasePart (.ite h.erasePart h.erasePart))))) (h1 ..)))))
  split
  next d2 _ e =>
  have h2 : Canon d2 := .ofFst e h.draw
  exact .ite h2.burn h2

theorem lcCheck {cut : Option Nat} (h : Canon d) : Canon (d.lcCheck cut).1 := by
  unfold Dev.lcCheck
  split
  · exact .pair h.showLcs
  · refine .iteFst (.pair h.showLcs) ?_
    extract_lets +onlyGivenNames _ _ d1 _ _ d2
    have h1 : Canon d1 := .ite h.zeroise h
    have h2 : Canon d2 := h1.foldl fun _ _ h2 => h2.lcStep.burn
    refine .iteFst h2 ?_
    extract_lets +onlyGivenNames d3 d4
    have h3 : Canon d3 := h2.raise.raise
    have h4 : Canon d4 := .ite h3.same h3
    exact .pair h4.showLcs

end Sys2Proof.Machine.Canon
end

section
/-! SUPPORT. What keeps a canonical device canonical: the memories of the address space and the control of drovers
(chapters 01 and 06). -/

namespace Sys2Proof.Machine.Canon

variable {d : Dev}

theorem droveGone {i : Nat} (h : Canon d) : Canon (d.droveGone i) := .ite h h.stileTimeout

theorem memRead {inp a len : Nat} {errs : List (Nat × Nat)} {f : NvFind} (h : Canon d) :
    Canon (d.memRead inp a len errs f).1 := by
  unfold Dev.memRead
  extract_lets +onlyGivenNames _
  split
  · exact .iteFst h (.iteFst h h.nvRead)
  · exact .iteFst h (.iteFst (.pair h.droveGone) (.pair h.serviceRange))
  · exact .iteFst h h.ddrRead
  · exact h

theorem memWrite {inp a : Nat} {l : List Byte} {errs : List (Nat × Nat)} (h : Canon d) :
    Canon (d.memWrite inp a l errs).1 := by
  unfold Dev.memWrite
  split
  · exact .iteFst h h.nvWrite
  · exact .iteFst h (.iteFst (.pair h.droveGone) (.pair h.serviceRange.setBytes))
  · exact .iteFst h h.ddrWrite
  · exact h

theorem droveEcc {a : Nat} {uncorr : Bool} (h : Canon d) : Canon (d.droveEcc a uncorr) := by
  unfold Dev.droveEcc
  extract_lets +onlyGivenNames _ d1
  have h1 : Canon d1 := h.wr.wr.wr
  exact .ite h1.bump h1.bump

theorem sramEcc {n key ecc : Nat} (h : Canon d) : Canon (d.sramEcc n key ecc) :=
  .ite h (.ite h.droveEcc (.ite h.drvCount h))

theorem setSendQ {n q : Nat} {l : List Nat} (h : Canon d) : Canon (d.setSendQ n q l) := h.setDrover.wr

theorem sendIssue {n q : Nat} (h : Canon d) : Canon (sendIssue n q d) := by
  unfold Machine.sendIssue
  split
  · exact h
  · refine .ite h ?_
    extract_lets +onlyGivenNames _ _ _ thaw
    have h1 : ∀ d, Canon d → Canon (thaw d) := fun _ h1 => h1.clearBit
    refine .ite (.ite (h1 _ h).setSendQ.drvCount h) ?_
    refine .ite (.ite h h.setBit.drvCause) ?_
    extract_lets +onlyGivenNames _ d2 _ d3 d4
    have h2 : Canon d2 := h.serviceRange
    have h3 : Canon d3 := (h1 _ h2).setSendQ.drvCount
    have h4 : Canon d4 := by
      refine .ite ?_ h3
      split
      · cases e : d3.freeWindow n (windowAddr _) with
        | none => exact h3
        | some d' => exact h3.freeWindow e
      · exact h3
    exact .ite h4.pushEgr (.ite h4.pushFab h4.pushDrv)

theorem flushQueue {n q : Nat} (h : Canon d) : Canon (d.flushQueue n q) := h.setSendQ.drvCount.clearBit
theorem setDma {n c : Nat} {x : DmaChan} (h : Canon d) : Canon (d.setDma n c x) := h.setDrover

theorem dmaLoad {n a ecc : Nat} {f : NvFind} (h : Canon d) : Canon (d.dmaLoad n a ecc f).1 := by
  unfold Dev.dmaLoad
  split
  · split
    next d1 _ _ e =>
    have h1 : Canon d1 := .ofFst e h.memRead
    exact h1
  · extract_lets +onlyGivenNames _ d1
    have h1 : Canon d1 := h.serviceRange.sramEcc
    exact .iteFst h1 h1

theorem dmaStore {n a : Nat} {l : List Byte} (h : Canon d) : Canon (d.dmaStore n a l).1 := by
  unfold Dev.dmaStore
  split; exacts [.pair h.memWrite, .pair h.serviceRange.setBytes]

theorem dmaMove {n : Nat} {x : DmaDesc} {bad : Option (Nat × Nat)} {f : NvFind} (h : Canon d) :
    Canon (d.dmaMove n x bad f).1 := by
  unfold Dev.dmaMove
  refine h.foldlFst fun _ _ h1 => ?_
  split
  refine .iteFst h1 ?_
  extract_lets +onlyGivenNames _
  split
  next d3 _ _ _ e =>
  have h3 : Canon d3 := .ofFst e h1.dmaLoad
  refine .iteFst h3 ?_
  split
  next d4 _ e =>
  have h4 : Canon d4 := .ofFst e h3.dmaStore
  exact .pair (.ite h4.drvCount h4)

theorem dmaUnitDone {n c : Nat} {bad : Option (Nat × Nat)} {f : NvFind} (h : Canon d) :
    Canon (dmaUnitDone n c bad f d) := by
  unfold Machine.dmaUnitDone
  extract_lets +onlyGivenNames _
  split
  · exact h
  · refine .ite h ?_
    split
    next d1 _ _ e =>
    have h1 : Canon d1 := .ofFst e h.dmaMove
    exact h1.setDma

theorem resetDrover {n : Nat} (h : Canon d) : Canon (d.resetDrover n) := by
  unfold Dev.resetDrover
  extract_lets +onlyGivenNames d1 _ _ _ d2 d3 d4 d5 d6
  have h1 : Canon d1 := h.foldl fun _ _ h1 => h1.flushQueue
  have h2 : Canon d2 := h1.setDrover
  have h3 : Canon d3 := h2.foldl fun _ _ h3 => h3.setThr.setThrState
  have h4 : Canon d4 := h3.semWithdraw
  have h5 : Canon d5 := h4.foldl fun _ _ h5 => .ite h5.semFree h5
  have h6 : Canon d6 := h5.semSettleAll
  exact .ite h6.loseMem.same.wr.wr.drvCount.drvCause h6

theorem writeDrvCtl {n v cause : Nat} (h : Canon d) : Canon (writeDrvCtl n v cause d).1 := by
  unfold Machine.writeDrvCtl
  refine .iteFst h ?_
  extract_lets +onlyGivenNames _ _ d1 d2 _ d3 d4
  have h1 : Canon d1 := .ite h.haltReq h
  have h2 : Canon d2 := .ite h1.resume h1
  have h3 : Canon d3 := .ite h2.resetDrover.resume h2
  have h4 : Canon d4 := .ite h3.startDrover h3
  exact h4

theorem startFill {n : Nat} (h : Canon d) : Canon (startFill n d) := by
  unfold Machine.startFill
  refine .ite h.wr ?_
  extract_lets +onlyGivenNames _ _ d1 _ d2
  have h1 : Canon d1 := h.wr
  have h2 : Canon d2 := h1.setDrover
  exact .ite h2.same h2

theorem fillDone {n : Nat} {bad : Option Nat} (h : Canon d) : Canon (fillDone n bad d) := by
  unfold Machine.fillDone
  refine .ite h ?_
  extract_lets +onlyGivenNames _ _ _ _ fin
  have h1 : ∀ d x, Canon d → Canon (fin d x) := fun _ _ h1 => h1.wr.wr.drvCount.drvCause
  refine .ite (h1 _ _ h) ?_
  split
  next d2 _ e =>
  have h2 : Canon d2 := by
    refine .ofFst e (h.foldlFst fun _ _ h2 => ?_)
    refine .iteFst h2 ?_
    extract_lets +onlyGivenNames _ _
    split
    next d3 _ _ e =>
    have h3 : Canon d3 := .ofFst e (.iteFst (.pair h2.nvSenses) h2.memRead)
    exact .iteFst h3 (.pair h3.serviceAt.setBytes)
  exact h1 _ _ h2

theorem drvWatchdog {n t : Nat} (h : Canon d) : Canon (drvWatchdog n t d) := by
  unfold Machine.drvWatchdog
  refine .ite h ?_
  extract_lets +onlyGivenNames _ d1 d2
  have h1 : Canon d1 := h.setThr
  have h2 : Canon d2 := h1.drvCount.drvCause
  split; exacts [h2, h2.makeDue, h2.haltReq]

end Sys2Proof.Machine.Canon
end

section
/-! SUPPORT. What keeps a canonical device canonical: the fabric islands (chapter 08). -/

namespace Sys2Proof.Machine.Canon

variable {d : Dev}

theorem setFabIsl {i : Nat} {x : FabIsl} (h : Canon d) : Canon (d.setFabIsl i x) := h.same

theorem uresetWrite {i mid : Nat} (h : Canon d) : Canon (uresetWrite i mid d).1 := by
  unfold Machine.uresetWrite
  refine .iteFst h ?_
  refine .iteFst h ?_
  extract_lets +onlyGivenNames _ d1 d2
  have h1 : Canon d1 := h.setFabIsl
  have h2 : Canon d2 := .ite h1 h1.bump
  exact h2

theorem uresetRelease {i : Nat} (h : Canon d) : Canon (uresetRelease i d) := .ite h.setFabIsl h
theorem wandValue {i : Nat} (h : Canon d) : Canon (wandValue i d).1 := .iteFst h (.pair h.same)

theorem fabDiscard {i k h : Nat} (hd : Canon d) : Canon (d.fabDiscard i k h) := by
  unfold Dev.fabDiscard
  extract_lets +onlyGivenNames d1
  have h1 : Canon d1 := hd.bump
  exact .ite h1.fabResp (.ite h1.fabResp h1)

theorem fabOut {i words : Nat} (h : Canon d) : Canon (d.fabOut i words) := h.bumpWrap

theorem fabMessage {i k h words : Nat} {mine : Nat → Bool} {act : Dev → Dev} (hd :
    Canon d) (hact : ∀ d, Canon d → Canon (act d)) : Canon (fabMessage i k h words mine act d) := by
  unfold Machine.fabMessage
  refine .ite hd ?_
  extract_lets +onlyGivenNames _ d1
  have h1 : Canon d1 := hd.fabOut
  exact .ite h1.fabDiscard (hact _ h1)

theorem frameEgress {i k h : Nat} {data : List Byte} {words : Nat} (hd : Canon d) :
    Canon (frameEgress i k h data words d) :=
  hd.fabMessage (fun _ h1 => h1.pushEgr)
theorem frameDrover {i k h : Nat} {data : List Byte} {words : Nat} {err : Bool} (hd : Canon d) :
    Canon (frameDrover i k h data words err d) :=
  hd.fabMessage (fun _ h1 => h1.pushDrv)
theorem frameFabric {i k h : Nat} {data : List Byte} {words : Nat} {err : Bool} (hd : Canon d) :
    Canon (frameFabric i k h data words err d) :=
  hd.fabMessage (fun _ h1 => h1.pushFab)
theorem fabTimeout {i k h drove : Nat} (hd : Canon d) : Canon (d.fabTimeout i k h drove) := hd.droveGone.bump.fabResp
theorem fabStatus {st : Nat} (h : Canon d) : Canon (d.fabStatus st).1 := .iteFst h (.iteFst h (.iteFst h h.draw))

theorem memRequest {i k h words op : Nat} {act : Dev → Dev × Nat × List Byte} (hd :
    Canon d) (hact : ∀ d, Canon d → Canon (act d).1) : Canon (memRequest i k h words op act d) := by
  unfold Machine.memRequest
  refine hd.fabMessage fun _ h1 => ?_
  refine .ite h1.fabTimeout ?_
  split
  next d2 _ _ e =>
  have h2 : Canon d2 := .ofFst e (hact _ h1)
  split
  next d3 _ e =>
  have h3 : Canon d3 := .ofFst e h2.fabStatus
  exact h3.fabResp

theorem stileEcc {a ecc : Nat} (h : Canon d) : Canon (d.stileEcc a ecc).1 := .iteFst (.pair h.droveEcc) h

theorem stileMemRead {i k h ecc : Nat} {errs : List (Nat × Nat)} (hd : Canon d) :
    Canon (stileMemRead i k h ecc errs d) := by
  unfold Machine.stileMemRead
  refine hd.memRequest fun _ h1 => ?_
  split
  next d2 _ _ e =>
  have h2 : Canon d2 := .ofFst e h1.memRead
  split
  next d3 _ e =>
  have h3 : Canon d3 := .ofFst e h2.stileEcc
  exact h3

theorem stileMemWrite {i k h : Nat} {data : List Byte} {words : Nat} (hd : Canon d) :
    Canon (stileMemWrite i k h data words d) :=
  hd.memRequest (fun _ h1 => .pair h1.memWrite)

theorem stileMemAdd {i k h : Nat} {data : List Byte} {words ecc : Nat} (hd : Canon d) :
    Canon (stileMemAdd i k h data words ecc d) := by
  unfold Machine.stileMemAdd
  refine hd.memRequest fun _ h1 => ?_
  extract_lets +onlyGivenNames _ _
  split
  next d2 _ e =>
  have h2 : Canon d2 := .ofFst e h1.stileEcc
  exact .iteFst h2 (.pair (h2.serviceRange.foldl fun _ _ h4 => h4.store))

theorem fabFrameIn {i k : Nat} (h : Canon d) : Canon (fabFrameIn i k d) := by
  unfold Machine.fabFrameIn
  split
  · exact h
  · extract_lets +onlyGivenNames d'1
    have h1 : Canon d'1 := h.same
    refine .ite (.ite h1 h) ?_
    refine .ite h ?_
    split
    next d2 _ e =>
    have h2 : Canon d2 := .ofFst e h1.windowMeta
    exact h2.bumpWrap.emit

theorem stileResponse {i k : Nat} (h : Canon d) : Canon (stileResponse i k d) := by
  unfold Machine.stileResponse
  split
  · exact h
  · extract_lets +onlyGivenNames _ d'1
    have h1 : Canon d'1 := h.same
    exact .ite (.ite h1 h) (.ite h h1.bumpWrap.emit)

theorem fabUserEvent {i : Nat} (h : Canon d) : Canon (fabUserEvent i d) := by
  unfold Machine.fabUserEvent
  refine .ite h ?_
  extract_lets +onlyGivenNames d1
  have h1 : Canon d1 := h.setBit
  exact .ite h1.raise h1

theorem granaryEcc {i g : Nat} {two : Bool} (h : Canon d) : Canon (granaryEcc i g two d) := by
  unfold Machine.granaryEcc
  refine .ite h ?_
  extract_lets +onlyGivenNames d1 d2 d3
  have h1 : Canon d1 := h.service
  have h2 : Canon d2 := h1.wr.wr.wr
  have h3 : Canon d3 := .ite h2.bump h2.bump
  exact h3.raise

end Sys2Proof.Machine.Canon
end

section
/-! SUPPORT. What keeps a canonical device canonical: the configuration unit (chapter 09). -/

namespace Sys2Proof.Machine.Canon

variable {d : Dev}

theorem withCfg {f : CfgSt → CfgSt} (h : Canon d) : Canon (d.withCfg f) := h.same
theorem setFlock {low : Bool} (h : Canon d) : Canon (d.setFlock low) := .same (.ite h h.emit)

theorem startLoad {kind src : Nat} {fb : Bool} (h : Canon d) : Canon (d.startLoad kind src fb) := by
  unfold Dev.startLoad
  extract_lets +onlyGivenNames d1 d2
  have h1 : Canon d1 := h.wr.wr.wr
  have h2 : Canon d2 := .ite h1 h1.wr
  exact h2.same

theorem loadFrom {kind sel : Nat} (h : Canon d) : Canon (d.loadFrom kind sel) := .ite h.startLoad h.startLoad

theorem unconfigure (h : Canon d) : Canon d.unconfigure := by
  unfold Dev.unconfigure
  extract_lets +onlyGivenNames d1
  have h1 : Canon d1 := h.same
  refine h1.foldl fun _ _ h2 => ?_
  extract_lets +onlyGivenNames d3 d4
  have h3 : Canon d3 := h2.setFabIsl.wr
  have h4 : Canon d4 := h3.wr.wr
  exact .ite h4.setIsland h4

theorem loseDrovers (h : Canon d) : Canon d.loseDrovers := (h.foldl fun _ _ h1 => h1.loseMem.loseMem).loseMem
theorem logLoad {code : Nat} (h : Canon d) : Canon (d.logLoad code) := h.wr.wr

theorem failLoad {code : Nat} {passed : Bool} (h : Canon d) : Canon (d.failLoad code passed) := by
  unfold Dev.failLoad
  extract_lets +onlyGivenNames d1
  have h1 : Canon d1 := h.logLoad
  split
  next d2 _ e =>
  have h2 : Canon d2 := .ofFst e h1.draw
  extract_lets +onlyGivenNames d3 d4
  have h3 : Canon d3 := h2.wr.wr
  have h4 : Canon d4 := .ite h3.unconfigure.loseDrovers h3
  refine .ite h4.startLoad.same.wr.wr.raise ?_
  extract_lets +onlyGivenNames d5 d6 d7
  have h5 : Canon d5 := h4.same
  have h6 : Canon d6 := .ite h5.setFlock.unconfigure h5
  have h7 : Canon d7 := h6.wr.setReady.raise
  exact .ite h7.wr.wr.raise h7

theorem loadSenses {len : Nat} {bad : Bool} (h : Canon d) : Canon (d.loadSenses len bad) := by
  unfold Dev.loadSenses
  refine .ite h ?_
  extract_lets +onlyGivenNames d1
  have h1 : Canon d1 := h.nvSenses
  exact .ite h1.nvSense h1

theorem slaveTimeout (h : Canon d) : Canon (slaveTimeout d) := .ite h h.failLoad

theorem cfgClkEdge {data drain : Nat} {checking : Bool} (h : Canon d) : Canon (cfgClkEdge data drain checking d) := by
  unfold Machine.cfgClkEdge
  refine .ite h ?_
  extract_lets +onlyGivenNames _
  split
  extract_lets +onlyGivenNames _ _ d1
  have h1 : Canon d1 := h.same
  exact .ite h1.failLoad h1

theorem resetAllDrovers (h : Canon d) : Canon d.resetAllDrovers :=
  h.foldl fun _ _ h1 => .ite (.resume (.resetDrover (.ite h1 h1.drvCause))) h1
theorem setPrSlot {s : Nat} {x : PrSlot} (h : Canon d) : Canon (d.setPrSlot s x) := h.same

theorem prEnd {s st code : Nat} (h : Canon d) : Canon (d.prEnd s st code) := by
  unfold Dev.prEnd
  extract_lets +onlyGivenNames d1
  have h1 : Canon d1 := h.wr.wr.wr
  exact .ite h1.raise h1

theorem reload (h : Canon d) : Canon (reload d).1 :=
  .iteFst h (.pair ((h.resetAllDrovers.foldl fun _ _ h2 => .ite h2.prEnd h2).unconfigure.setFlock.setReady.loadFrom))
theorem eachMask {f : FabIsl → FabIsl} (h : Canon d) : Canon (d.eachMask f) := h.foldl fun _ _ h1 => h1.setFabIsl

theorem phaseAct {k : Nat} (h : Canon d) : Canon (d.phaseAct k) := by
  unfold Dev.phaseAct
  split
  · exact h.eachMask
  · exact h.eachMask
  · exact h.eachMask
  · exact h.same
  · exact h.eachMask
  · exact h.foldl fun _ _ h1 => .ite h1.startDrover h1
  · exact h.same
  · extract_lets +onlyGivenNames _ d1 d2 d3
    have h1 : Canon d1 := h.foldl fun _ _ h1 => .ite h1.wr h1.wr.setIsland
    have h2 : Canon d2 := h1.wr.setReady.raise
    have h3 : Canon d3 := h2.same
    exact .ite (.same (.raise (.wr (.wr (.ite h3.same h3))))) h3

theorem runPhases {fuel : Nat} (h : Canon d) : Canon (d.runPhases fuel) := by
  induction fuel generalizing d with
  | zero => exact h
  | succ fuel ih =>
    unfold Dev.runPhases
    exact .ite h (.ite (ih h.wr.phaseAct) h.wr.phaseAct)

theorem pace (h : Canon d) : Canon d.pace := by
  unfold Dev.pace
  extract_lets +onlyGivenNames d1
  have h1 : Canon d1 := h.same
  exact .ite h1.runPhases h1

theorem flockHigh (h : Canon d) : Canon (flockHigh d) := .ite h.wr.same h
theorem bellWait (h : Canon d) : Canon (bellWait d) := .ite h (.ite (.ite h.emit.emit.same h) h.pace)
theorem pacingEdge (h : Canon d) : Canon (pacingEdge d) := .ite h.pace h
theorem startupPhase (h : Canon d) : Canon (startupPhase d) := .ite h.runPhases h
theorem prStage {s : Nat} (h : Canon d) : Canon (prStage s d).1 :=
  .iteFst (.pair h.wr) (.iteFst (.pair h.prEnd) (.pair h.wr.wr.wr.setPrSlot))

theorem stageDone {s : Nat} {bad : Option Nat} (h : Canon d) : Canon (stageDone s bad d) := by
  unfold Machine.stageDone
  refine .ite h ?_
  split
  extract_lets +onlyGivenNames _ _ d1
  have h1 : Canon d1 := .ite (by split; exacts [h.nvSense, h.nvSenses]) h
  exact .ite h1.prEnd h1.wr.wr.setPrSlot.prEnd

theorem prApply {s : Nat} (h : Canon d) : Canon (prApply s d).1 := .iteFst h (.pair h.setPrSlot.wr.wr)

theorem captureFf {i : Nat} (h : Canon d) : Canon (d.captureFf i) := by
  unfold Dev.captureFf
  split
  next d1 _ e =>
  have h1 : Canon d1 := .ofFst e h.drawWide
  exact h1.same

theorem applyStart (h : Canon d) : Canon (applyStart d) := by
  unfold Machine.applyStart
  split
  · exact h
  · refine .ite h.prEnd ?_
    extract_lets +onlyGivenNames d1
    have h1 : Canon d1 := h.wr
    refine .ite h1.setIsland.wr.wr ?_
    extract_lets +onlyGivenNames d2 d3
    have h2 : Canon d2 := h1.wr.wr
    have h3 : Canon d3 := .ite h2.wr h2
    exact .ite h3.captureFf h3

theorem dropLanded {p : Nat} (h : Canon d) : Canon (d.dropLanded p).1 := .pair h.same.same
theorem zeroFrames {i sect : Nat} (h : Canon d) : Canon (d.zeroFrames i sect) := h.same

theorem prRelease {s : Nat} (h : Canon d) : Canon (prRelease s d).1 := by
  unfold Machine.prRelease
  refine .iteFst h ?_
  extract_lets +onlyGivenNames _
  split
  next d1 _ e =>
  have h1 : Canon d1 := .ofFst e h.dropLanded
  split
  next d2 _ e =>
  have h2 : Canon d2 := .ofFst e h1.dropLanded
  exact .pair h2.wr.zeroFrames.setFabIsl.setIsland.wr.wr.same.prEnd

theorem prAbort {s : Nat} (h : Canon d) : Canon (prAbort s d).1 := .iteFst (.pair h.prEnd) h
theorem prClear {s : Nat} (h : Canon d) : Canon (prClear s d).1 := .iteFst (.pair h.wr.setPrSlot) h
theorem prOp {s op : Nat} (h : Canon d) : Canon (prOp s op d).1 := by
  unfold Machine.prOp
  split; exacts [h, h.prStage, h.prApply, h.prRelease, h.prAbort, h.prClear, h]
theorem rbEnd {st v : Nat} (h : Canon d) : Canon (d.rbEnd st v) := h.wr.wr

theorem rbFrame (h : Canon d) : Canon d.rbFrame := by
  unfold Dev.rbFrame
  refine .ite h.rbEnd ?_
  extract_lets +onlyGivenNames d1
  have h1 : Canon d1 := h.service
  refine .ite ?_ h1.rbEnd
  split
  next d2 _ e =>
  have h2 : Canon d2 := .ofFst e h1.drawWide
  exact h2.rbEnd

theorem rbSnap (h : Canon d) : Canon d.rbSnap := by
  unfold Dev.rbSnap
  refine .ite h.rbEnd ?_
  refine .ite h.wr ?_
  split
  next d1 _ e =>
  have h1 : Canon d1 := .ofFst e h.drawWide
  exact h1.same.wr

theorem rbSnapRead (h : Canon d) : Canon d.rbSnapRead := .ite h.rbEnd h.rbEnd
theorem rbGo (h : Canon d) : Canon (rbGo d) := by
  unfold Machine.rbGo
  split; exacts [h.rbSnap, h.rbSnapRead, h.rbFrame]
theorem shepLog {f kind : Nat} (h : Canon d) : Canon (d.shepLog f kind) := h.wr.wr.wr.wr

theorem shepFatal {f : Nat} (h : Canon d) : Canon (d.shepFatal f) := by
  unfold Dev.shepFatal
  extract_lets +onlyGivenNames d1
  have h1 : Canon d1 := h.bumpWrap.shepLog.raise
  exact .ite h1.same h1

theorem shepPass (h : Canon d) : Canon d.shepPass := .ite h h.bumpWrap.wr.same

theorem shepherdRead {err : Nat} (h : Canon d) : Canon (shepherdRead err d) := by
  unfold Machine.shepherdRead
  refine .ite h ?_
  split
  · exact h
  · extract_lets +onlyGivenNames d1 d2
    have h1 : Canon d1 := h.service
    have h2 : Canon d2 := h1.same
    refine .ite ?_ ?_
    · extract_lets +onlyGivenNames d3
      have h3 : Canon d3 := .ite h2 h2.same
      split; exacts [h3.same, h3.shepFatal.shepPass]
    · refine .ite ?_ h2.shepPass
      extract_lets +onlyGivenNames d3
      have h3 : Canon d3 := h2.bumpWrap.shepLog
      exact .shepPass (.ite h3 h3.same.raise)

theorem shepherdReload {f : NvFind} (h : Canon d) : Canon (shepherdReload f d) := by
  unfold Machine.shepherdReload
  split
  · exact h
  · split
    · exact h.same
    · refine .ite h ?_
      split
      next d1 _ e =>
      have h1 : Canon d1 := .ofFst e h.nvSenses
      extract_lets +onlyGivenNames d2
      have h2 : Canon d2 := h1.same
      exact .ite h2.same.bumpWrap.shepLog.raise.shepPass h2.shepFatal.shepPass

theorem cfgWrite {q : Req} {set : Dev → Dev} {op : Dev → Dev × Nat} (h :
    Canon d) (hset : ∀ d, Canon d → Canon (set d)) (hop : ∀ d, Canon d → Canon (op d).1) : Canon
    (cfgWrite q set op d) :=
  .ite h.complete ((hop _ (.ite h (hset _ h))).complete)

end Sys2Proof.Machine.Canon
end

section
/-! SUPPORT. What keeps a canonical device canonical: the Herdsman (chapter 15). -/

namespace Sys2Proof.Machine.Canon

variable {d : Dev}

theorem withHrd {f : HrdSt → HrdSt} (h : Canon d) : Canon (d.withHrd f) := h.same
theorem writeDdrCfg {v : Nat} (h : Canon d) : Canon (d.writeDdrCfg v).1 := .iteFst h (.pair h.wr.wr.wr.wr.wr)

theorem applyBoard (h : Canon d) : Canon d.applyBoard := by
  unfold Dev.applyBoard
  split
  · exact h.hrdAlert
  · extract_lets +onlyGivenNames d1
    have h1 : Canon d1 := h.wr.wr
    exact .ite h1.hrdAlert ((h1.wr.wr.wr.followReady.wr.foldl fun _ _ h5 => h5.wr).writeDdrCfg.ddrInit)

theorem hrdStart {slot : Option Nat} (h : Canon d) : Canon (d.hrdStart slot) := by
  unfold Dev.hrdStart
  extract_lets +onlyGivenNames d1 _ d2
  have h1 : Canon d1 := h.same
  have h2 : Canon d2 := h1.same
  split; exacts [h2.wr, h2.wr.wr.wr.applyBoard]

theorem hrdRestart (h : Canon d) : Canon d.hrdRestart := by
  unfold Dev.hrdRestart
  extract_lets +onlyGivenNames d1 _ d2
  have h1 : Canon d1 := h.bumpWrap
  have h2 : Canon d2 := h1.same
  exact .ite h2.same.hrdStart.hrdAlert h2.hrdStart

theorem writeHrdRestart {inp : Nat} (h : Canon d) : Canon (writeHrdRestart inp d).1 := .iteFst (.pair h.hrdRestart) h
theorem lockstepMismatch (h : Canon d) : Canon (lockstepMismatch d) := .ite h.raise.hrdRestart h
theorem hrdWatchdog (h : Canon d) : Canon (hrdWatchdog d) := .ite h.hrdRestart h
theorem writeHrdKick {inp : Nat} (h : Canon d) : Canon (writeHrdKick inp d).1 := .iteFst (.pair h.same) h

theorem firmwareFetch {a len : Nat} {f : NvFind} {handler : Bool} (h : Canon d) :
    Canon (Machine.nvFetch a len f handler d) := by
  unfold Machine.nvFetch
  refine .ite h ?_
  extract_lets +onlyGivenNames d1
  have h1 : Canon d1 := h.same
  split
  next d2 e =>
    have h2 : Canon d2 := .ofFst e h1.nvFetch
    exact .ite h2.bump.hrdRestart h2.bump.same
  next d2 _ _ e => exact .ofFst e h1.nvFetch

theorem railBack {n mv : Nat} (h : Canon d) : Canon (d.railBack n mv) := .ite h.setBit h

theorem measure {m : Measure} (h : Canon d) : Canon (measure m d) := by
  unfold Machine.measure
  extract_lets +onlyGivenNames d1
  have h1 : Canon d1 := by unfold d1; split; exacts [h.railBack, h]
  exact .ite h1 (by split; exacts [h1.wr.wr, h1.wr, h1.wr, h1.wr, h1.wr, h1.wr, h1.wr])

theorem temperatures {l : List Int} (h : Canon d) : Canon (temperatures l d) := by
  unfold Machine.temperatures
  split
  · exact h
  · extract_lets +onlyGivenNames _ d1 d2 _ _ d3 d4 _ d5
    have h1 : Canon d1 := h.foldl fun _ _ h1 => h1.wrS
    have h2 : Canon d2 := h1.wrS
    have h3 : Canon d3 := h2.same
    have h4 : Canon d4 := h3.same
    have h5 : Canon d5 := .ite h4.raise h4
    exact .ite h5.raise h5

theorem synthStep {i : Nat} (h : Canon d) : Canon (synthStep i d) := by
  unfold Machine.synthStep
  refine .ite h ?_
  extract_lets +onlyGivenNames _ _ d1
  have h1 : Canon d1 := h.wr.wr
  exact .ite h1.wr h1.wr

theorem writeIslOp {inp i m v : Nat} (h : Canon d) : Canon (writeIslOp inp i m v d).1 :=
  .iteFst h (.iteFst h (.iteFst (.pair h.hrdCount) (.pair h.wr.wr)))

theorem askMhz {i f : Nat} (h : Canon d) : Canon (d.askMhz i f) := by
  unfold Dev.askMhz
  refine .ite h ?_
  extract_lets +onlyGivenNames r1
  have h1 : Canon r1.1 := h.writeIslOp
  exact .ite h1.hrdCount h1

theorem askTrim {i t : Nat} (h : Canon d) : Canon (d.askTrim i t) := h.writeIslOp

theorem capStep {l : List Nat} (h : Canon d) : Canon (d.capStep l) := by
  unfold Dev.capStep
  extract_lets +onlyGivenNames _
  split
  · exact .ite h h.same.hrdAlert
  · refine h.foldl fun _ _ h1 => ?_
    extract_lets +onlyGivenNames asked2
    have h2 : Canon asked2 := h1.askMhz
    exact .ite h2 h2.hrdCount.raise

theorem utilStep {temp : Int} {i : Nat} (h : Canon d) : Canon (d.utilStep temp i) :=
  .ite (.ite h.askMhz h) (.ite h.askMhz h)
theorem trimStep {i : Nat} (h : Canon d) : Canon (d.trimStep i) := .ite h.askTrim (.ite h.askTrim h)

theorem dvfsDecision (h : Canon d) : Canon (dvfsDecision d) := by
  unfold Machine.dvfsDecision
  refine .ite h ?_
  extract_lets +onlyGivenNames _ _ _ _ d1 d2
  have h1 : Canon d1 := .ite h h.same
  have h2 : Canon d2 := .ite ((h1.foldl fun _ _ h2 => h2.askMhz).hrdAlert) (.ite h1.capStep
      (h1.foldl fun _ _ h2 => h2.utilStep))
  exact h2.foldl fun _ _ h3 => h3.trimStep

theorem refreshDecision {mpr : Int} (h : Canon d) : Canon (refreshDecision mpr d) := by
  unfold Machine.refreshDecision
  refine .ite h ?_
  extract_lets +onlyGivenNames _ _ _ _ d1
  have h1 : Canon d1 := h.same
  exact .ite h1 (.ite h1.hrdCount h1.wr.hrdCount)

theorem setPin {i v : Nat} (h : Canon d) : Canon (d.setPin i v) := h.setEntry.repinLine

theorem cacheDecision (h : Canon d) : Canon (cacheDecision d) := by
  unfold Machine.cacheDecision
  refine .ite h ?_
  extract_lets +onlyGivenNames _ _ _ d1
  have h1 : Canon d1 := h.same
  refine .ite h1.hrdCount ?_
  exact (h1.foldl fun _ _ h2 => .ite h2.setPin.same.hrdCount h2).foldl fun _ _ h3 => h3.setPin.same.hrdCount

theorem startPrewarm (h : Canon d) : Canon (startPrewarm d) := h.same

theorem prewarmEntry (h : Canon d) : Canon (prewarmEntry d) := by
  unfold Machine.prewarmEntry
  refine .ite h ?_
  split
  · exact h.same
  · extract_lets +onlyGivenNames d1
    have h1 : Canon d1 := h.same
    exact .ite h1 h1.loadLine.hrdCount

theorem loadBalance {g : Nat} {u : List Nat} {fr : List (Nat × Nat)} (h : Canon d) :
    Canon (loadBalance g u fr d) := by
  unfold Machine.loadBalance
  refine .ite h ?_
  extract_lets +onlyGivenNames _ d1 _ _
  have h1 : Canon d1 := .ite h h.same
  split; exacts [.ite h1 (by extract_lets; split; exacts [h1, .ite h1.hrdCount h1.same.same]), h1]

theorem migrationTimeout {sid : Nat} (h : Canon d) : Canon (migrationTimeout sid d) := by
  unfold Machine.migrationTimeout
  split; exacts [h, .ite h h.same.hrdCount]

theorem recalDecision (h : Canon d) : Canon (recalDecision d) := by
  unfold Machine.recalDecision
  refine .ite h ?_
  extract_lets +onlyGivenNames _ _ _ _ d1
  have h1 : Canon d1 := .ite h (.ite h.hrdCount h.wr)
  exact .ite h1.same.hrdCount h1

end Sys2Proof.Machine.Canon
end

section
/-! SUPPORT. What keeps a canonical device canonical: the Tally (chapter 16). -/

namespace Sys2Proof.Machine.Canon

variable {d : Dev}

theorem withTly {f : TlySt → TlySt} (h : Canon d) : Canon (d.withTly f) := h.same
theorem tlyRaise {src info : Nat} (h : Canon d) : Canon (d.tlyRaise src info) := .ite h h.raise
theorem tlyCount {k n : Nat} (h : Canon d) : Canon (d.tlyCount k n) := h.bumpWrap
theorem showProg {p : Nat} (h : Canon d) : Canon (d.showProg p) := h.wr.wr.wr.wr.wr.wr
theorem showParams (h : Canon d) : Canon d.showParams := h.wr.wr.wr.wr.wr.wr.wr
theorem publish (h : Canon d) : Canon d.publish := .ite h ((h.showParams.foldl fun _ _ h1 => h1.showProg).wr)
theorem tlyTime (h : Canon d) : Canon d.tlyTime.1 := .iteFst h h.draw

theorem createRec {type from_ : Nat} {payload : List Byte} (h : Canon d) :
    Canon (d.createRec type from_ payload) := by
  unfold Dev.createRec
  extract_lets +onlyGivenNames _
  split
  next d1 _ e =>
  have h1 : Canon d1 := .ofFst e h.tlyTime
  exact h1.same

theorem showReplay (h : Canon d) : Canon d.showReplay := h.foldl fun _ _ h1 => h1.wr

theorem eraseSlots {seq : Nat} (h : Canon d) : Canon (d.eraseSlots seq) := by
  unfold Dev.eraseSlots
  refine .ite h ?_
  extract_lets +onlyGivenNames _ d1
  have h1 : Canon d1 := h.filterMem
  exact .ite h1 (.ite h1 h1.tlyCount.tlyRaise)

theorem commitRec {r : TlyRec} (h : Canon d) : Canon (d.commitRec r) := by
  unfold Dev.commitRec
  extract_lets +onlyGivenNames _ d1 _ d2 d3
  have h1 : Canon d1 := h.eraseSlots
  have h2 : Canon d2 := h1.setBytes.same
  have h3 : Canon d3 := h2.wr.wr
  exact h3.wr.tlyCount.showReplay

theorem recordCommit (h : Canon d) : Canon (recordCommit d) := by
  unfold Machine.recordCommit
  split; exacts [h, .ite h h.same.commitRec]
theorem setTlyRun {p : Nat} {x : TlyRun} (h : Canon d) : Canon (d.setTlyRun p x) := h.same
theorem setTlyChan {p m : Nat} {x : TlyChan} (h : Canon d) : Canon (d.setTlyChan p m x) := h.same
theorem startProg {p : Nat} {keep : Bool} (h : Canon d) : Canon (d.startProg p keep) :=
  (h.foldl fun _ _ h1 => h1.setTlyChan).setTlyRun
theorem dropSecond {k sec : Nat} (h : Canon d) : Canon (d.dropSecond k sec) :=
  h.foldl fun _ _ h1 => .ite h1 ((h1.foldl fun _ _ h2 => h2.setTlyChan).setTlyRun)

theorem rateCheck {k : Nat} (h : Canon d) : Canon (d.rateCheck k) := by
  unfold Dev.rateCheck
  split
  · exact h
  · refine .ite h ?_
    extract_lets +onlyGivenNames d1
    have h1 : Canon d1 := h.same
    exact .ite h1.dropSecond.tlyCount h1

theorem rateFrame {k rtp t : Nat} (h : Canon d) : Canon (d.rateFrame k rtp t) := by
  unfold Dev.rateFrame
  extract_lets +onlyGivenNames d1 d2
  have h1 : Canon d1 := h.same
  have h2 : Canon d2 := by unfold d2; split; exacts [.ite h (.ite h1.dropSecond.tlyCount h1), h]
  exact h2.same

theorem tapGap {path count : Nat} (h : Canon d) : Canon (d.tapGap path count) := by
  unfold Dev.tapGap
  extract_lets +onlyGivenNames _ d1
  have h1 : Canon d1 := h.same
  exact .ite h1 h1.tlyCount.tlyRaise

theorem putSample {p m n : Nat} {v : Int} (h : Canon d) : Canon (d.putSample p m n v) :=
  .ite h.tlyCount (.ite h.tlyCount h.setTlyChan)
theorem takeChan {p m n0 c : Nat} {l : List Byte} (h : Canon d) : Canon (d.takeChan p m n0 c l) :=
  h.foldl fun _ _ h1 => h1.putSample

theorem measureAudio {x : TapAudio} (h : Canon d) : Canon (d.measureAudio x) := by
  unfold Dev.measureAudio
  extract_lets +onlyGivenNames _ _ d1 r2
  have h1 : Canon d1 := h.rateFrame
  have h2 : Canon r2.1 := h1.foldlFst fun _ _ h2 => h2.foldlFst fun _ _ h3 => .iteFst (.pair h3.setTlyRun)
      (.pair h3.takeChan)
  exact .ite h2.tlyCount h2

theorem audioTap {q : Nat} (h : Canon d) : Canon (audioTap q d) := by
  unfold Machine.audioTap
  split
  · exact h
  · extract_lets +onlyGivenNames d1
    have h1 : Canon d1 := h.same
    refine .ite h1 ?_
    extract_lets +onlyGivenNames d2
    have h2 : Canon d2 := h1.tapGap
    exact .ite h2.measureAudio h2

theorem acctTap (h : Canon d) : Canon (acctTap d) := by
  unfold Machine.acctTap
  split
  · exact h
  · extract_lets +onlyGivenNames d1
    have h1 : Canon d1 := h.same
    refine .ite h1 ?_
    extract_lets +onlyGivenNames d2
    have h2 : Canon d2 := h1.tapGap.tlyCount
    exact .ite h2 h2.same

theorem ppsTap (h : Canon d) : Canon (ppsTap d) := by
  unfold Machine.ppsTap
  split
  · exact h
  · extract_lets +onlyGivenNames d1
    have h1 : Canon d1 := h.same
    refine .ite h1 ?_
    extract_lets +onlyGivenNames d2
    have h2 : Canon d2 := h1.tapGap
    refine .ite h2 ?_
    extract_lets +onlyGivenNames _ _ _ _ _ _ _ _ d3
    have h3 : Canon d3 := h2.same
    exact .ite h3.tlyRaise h3

theorem loudnessBlock {p : Nat} (h : Canon d) : Canon (loudnessBlock p d) := by
  unfold Machine.loudnessBlock
  refine .ite h ?_
  extract_lets +onlyGivenNames d1 _ r2 d3 _ _ _ _ _ _ d4 d5 d6
  have h1 : Canon d1 := h.foldl fun _ _ h1 => h1.rateCheck
  have h2 : Canon r2.1 := h1.foldlFst fun _ _ h2 => .pair h2.setTlyChan
  have h3 : Canon d3 := h2
  have h4 : Canon d4 := h3.setTlyRun
  have h5 : Canon d5 := .ite h4.wr h4
  have h6 : Canon d6 := .ite h5.wr h5
  exact h6.wr

theorem loudRecord {p from_ : Nat} (h : Canon d) : Canon (d.loudRecord p from_) :=
  .wr (.foldl (.setTlyRun (.createRec (.ite h.tlyRaise h))) fun _ _ h4 => h4.setTlyChan)
theorem closeLoud (h : Canon d) : Canon d.closeLoud := h.foldl fun _ _ h1 => h1.loudRecord
theorem loudnessRecord (h : Canon d) : Canon (loudnessRecord d) := .ite h h.closeLoud.same

theorem svcRecords {k n : Nat} {l : List Nat} (h : Canon d) : Canon (d.svcRecords k n l) := by
  induction n generalizing d l with
  | zero => exact h
  | succ n ih =>
    unfold Dev.svcRecords
    exact .ite h (ih h.createRec)

theorem closeSvc (h : Canon d) : Canon d.closeSvc := h.svcRecords.same
theorem serviceRecord (h : Canon d) : Canon (serviceRecord d) := .ite h h.closeSvc.same
theorem closeTie (h : Canon d) : Canon d.closeTie := h.same.createRec.same
theorem tieRecord (h : Canon d) : Canon (tieRecord d) := .ite h h.closeTie.same
theorem openPeriods (h : Canon d) : Canon d.openPeriods := h.same.foldl fun _ _ h2 => h2.startProg
theorem romFault (h : Canon d) : Canon d.romFault := h.wr.tlyRaise

theorem tallyStart {romOk : Bool} (h : Canon d) : Canon (tallyStart romOk d) := by
  unfold Machine.tallyStart
  refine .ite h ?_
  extract_lets +onlyGivenNames _ d1 d2
  have h1 : Canon d1 := h.same
  have h2 : Canon d2 := h1.wr.wr
  refine .ite h2.wr.romFault ?_
  extract_lets +onlyGivenNames d3 d4 d5
  have h3 : Canon d3 := h2.wr.publish
  have h4 : Canon d4 := h3.wr.wr
  have h5 : Canon d5 := h4.wr
  split
  next d6 _ e =>
  have h6 : Canon d6 := .ofFst e h5.tlyTime
  exact h6.commitRec

theorem romCheck {ok : Bool} (h : Canon d) : Canon (romCheck ok d) := .ite h.romFault h

theorem replicaAligned (h : Canon d) : Canon (replicaAligned d) := by
  unfold Machine.replicaAligned
  refine .ite h ?_
  split
  next d1 _ e =>
  have h1 : Canon d1 := .ofFst e h.draw
  extract_lets +onlyGivenNames _ d2
  have h2 : Canon d2 := h1.same.wr
  refine .ite h2 ?_
  extract_lets +onlyGivenNames d3 _ _ d4 d5 d6
  have h3 : Canon d3 := h2.createRec
  have h4 : Canon d4 := .ite h3.closeLoud h3
  have h5 : Canon d5 := .ite h4.closeSvc h4
  have h6 : Canon d6 := .ite h5.closeTie h5
  exact h6.openPeriods

theorem replicaLost (h : Canon d) : Canon d.replicaLost := .ite h.same.wr h
theorem tallyPowerLoss (h : Canon d) : Canon (tallyPowerLoss d) := h.same

theorem cfgCloses {v : Nat} (h : Canon d) : Canon (d.cfgCloses v) := by
  unfold Dev.cfgCloses
  extract_lets +onlyGivenNames _ _ d1 d2
  have h1 : Canon d1 := .ite h.closeLoud h
  have h2 : Canon d2 := .ite h1.closeSvc h1
  exact .ite h2.closeTie h2

theorem inbSigned {kind seq : Nat} {body : List Byte} (h : Canon d) : Canon (d.inbSigned kind seq body) := by
  unfold Dev.inbSigned
  extract_lets +onlyGivenNames _ _ d1 d2 _ _ d3 d4 _ _ _
  have h1 : Canon d1 := .ite h.cfgCloses h
  have h2 : Canon d2 := h1.same
  have h3 : Canon d3 := h2.createRec.showParams
  have h4 : Canon d4 := .ite h3.tlyRaise h3
  split; exacts [h4.same, h4.startProg.showProg, h4.setTlyRun, h4]

theorem inboxTake {mine : Nat → Bool} (h : Canon d) : Canon (inboxTake mine d) := by
  unfold Machine.inboxTake
  split
  · exact h
  · refine .ite h ?_
    extract_lets +onlyGivenNames d1 _ d2
    have h1 : Canon d1 := h.same
    have h2 : Canon d2 := h1.wr.wr
    exact .ite h2.tlyCount (by extract_lets; split; exacts [h2.wr, h2.wr.showReplay, h2.inbSigned])

end Sys2Proof.Machine.Canon
end

section
/-! SUPPORT. What keeps a canonical device canonical: Reckoning time (chapter 02). -/

namespace Sys2Proof.Machine.Canon

variable {d : Dev}

theorem withTim {f : TimSt → TimSt} (h : Canon d) : Canon (d.withTim f) := h.same
theorem stepOutputs {pre post : Nat} (h : Canon d) : Canon (d.stepOutputs pre post) := h.same

theorem marker (h : Canon d) : Canon d.marker := by
  unfold Dev.marker
  extract_lets +onlyGivenNames _ _ _ _ _ _ d1
  have h1 : Canon d1 := h.same
  exact .ite h1.bumpWrap.stepOutputs.raiseAt h1

theorem timSetGo (h : Canon d) : Canon (timSetGo d) := h.same
theorem timStep {ofs : Int} (h : Canon d) : Canon (timStep ofs d) := h.same
theorem writeFreqAdj {q : Req} {v : Nat} (h : Canon d) : Canon (writeFreqAdj q v d).1 :=
  .iteFst h (.iteFst h (.pair h.wr))
theorem servoEnter {new : Nat} (h : Canon d) : Canon (d.servoEnter new) :=
  .ite h (.raise (.wr (.wr (.same (.ite h.wrS h)))))
theorem servoLost (h : Canon d) : Canon d.servoLost := by
  unfold Dev.servoLost
  split; exacts [h.servoEnter, h.servoEnter, h]

theorem writeServoSrc {q : Req} {v : Nat} (h : Canon d) : Canon (writeServoSrc q v d).1 := by
  unfold Machine.writeServoSrc
  refine .iteFst h ?_
  extract_lets +onlyGivenNames _ d1 d2 d3
  have h1 : Canon d1 := h.wr
  have h2 : Canon d2 := .ite h1.servoEnter h1
  have h3 : Canon d3 := .ite h2.servoEnter h2
  exact h3

theorem moveDreq {by_ : Int} (h : Canon d) : Canon (d.moveDreq by_) := h.foldl fun _ _ h1 => .ite h1.wrS h1

theorem gainSchedule {old : Nat} (h : Canon d) : Canon (d.gainSchedule old) := by
  unfold Dev.gainSchedule
  split
  refine .ite h ?_
  refine .ite h.hrdCount ?_
  extract_lets +onlyGivenNames d1
  have h1 : Canon d1 := h.wr.wr.hrdCount
  exact .ite h1 h1.moveDreq

theorem servoTake {ofs : Int} (h : Canon d) : Canon (d.servoTake ofs) := by
  unfold Dev.servoTake
  extract_lets +onlyGivenNames _ d1 _ _ d2 _ d3 d4 _ d5 _ d6 d7
  have h1 : Canon d1 := .ite h.servoEnter h
  have h2 : Canon d2 := h1.wrS.bump
  have h3 : Canon d3 := h2.wrS
  have h4 : Canon d4 := .ite h3.same h3
  have h5 : Canon d5 := h4.same
  have h6 : Canon d6 := h3.same
  have h7 : Canon d7 := .ite (.ite h5.servoEnter h5) (.ite h6.servoEnter h6)
  exact h7.gainSchedule

theorem servoSample {ofs : Int} (h : Canon d) : Canon (servoSample ofs d) :=
  .ite h (.ite h.servoTake (by split; exacts [h.same.servoTake, h]))
theorem holdoverSpec (h : Canon d) : Canon (holdoverSpec d) := .ite h.same.raise h
theorem ptpEnter {p st : Nat} (h : Canon d) : Canon (d.ptpEnter p st) := .ite h h.wr.raise

theorem ptpMessage {p sp type domain len cls : Nat} {tlv : Option Nat} {st : Nat} {chg : Bool} (h : Canon d) :
    Canon (ptpMessage p sp type domain len cls tlv st chg d) := by
  unfold Machine.ptpMessage
  refine .ite h ?_
  refine .ite h.bump ?_
  refine .ite h ?_
  extract_lets +onlyGivenNames d1 d2 d3 d4
  have h1 : Canon d1 := h.same
  have h2 : Canon d2 := by unfold d2; split; exacts [.ite h1.wr h1, h1]
  have h3 : Canon d3 := h2.ptpEnter
  have h4 : Canon d4 := .ite h3.raise h3
  exact h4.same

theorem announceTimeout {p st : Nat} (h : Canon d) : Canon (announceTimeout p st d) := by
  unfold Machine.announceTimeout
  refine .ite ?_ h
  extract_lets +onlyGivenNames d1
  have h1 : Canon d1 := h.ptpEnter
  exact .ite h1.servoLost h1

theorem ppsLost (h : Canon d) : Canon (ppsLost d) := .ite h.servoLost h
theorem ptpSyncTx {p fine : Nat} (h : Canon d) : Canon (ptpSyncTx p fine d) := .ite (.ite h.emit h.emit.emit) h
theorem smpteTx {p : Nat} (h : Canon d) : Canon (smpteTx p d) := .ite h.emit h
theorem announceTx {p : Nat} (h : Canon d) : Canon (announceTx p d) := .ite h.emit h
theorem delayReqTx {p : Nat} (h : Canon d) : Canon (delayReqTx p d) := .ite h.emit h

theorem syncInEdge {n fine : Nat} {rise : Bool} (h : Canon d) : Canon (syncInEdge n fine rise d) := by
  unfold Machine.syncInEdge
  refine .ite h ?_
  extract_lets +onlyGivenNames _ _ d1 d2 d3
  have h1 : Canon d1 := .ite h.tapPps h
  have h2 : Canon d2 := .ite h1.same.raise h1.bump.raise
  have h3 : Canon d3 := h2.fireWake
  exact .ite (.ite h3.bump.raise h3.wr.same) h3

theorem sinPop {n : Nat} (h : Canon d) : Canon (d.sinPop n) := h.same
theorem syncOutEdge {n : Nat} (h : Canon d) : Canon (syncOutEdge n d) := .ite (.ite h.same.emit h) h
theorem soutCommit {n : Nat} (h : Canon d) : Canon (soutCommit n d) := h.same

theorem soutApply {n : Nat} (h : Canon d) : Canon (soutApply n d) := by
  unfold Machine.soutApply
  refine .ite ?_ h
  extract_lets +onlyGivenNames d1
  have h1 : Canon d1 := h.same
  exact .ite h1.same h1.wr.raise

theorem pllLock (h : Canon d) : Canon (pllLock d) := .ite h.same h

theorem writeReplErr {errs : List Int} {i : Nat} (h : Canon d) : Canon (d.writeReplErr errs i) := by
  induction errs generalizing d i with
  | nil => exact h
  | cons e r ih => exact ih (.ite h.wrS h)

theorem calRunEnds (h : Canon d) : Canon d.calRunEnds := h.bumpWrap.raise
theorem treeCalDone {sums errs : List Int} (h : Canon d) : Canon (treeCalDone sums errs d) :=
  .ite h.same.writeReplErr.calRunEnds.wr.setReady h

theorem alignAlarms {errs : List Int} {i : Nat} (h : Canon d) : Canon (d.alignAlarms errs i) := by
  induction errs generalizing d i with
  | nil => exact h
  | cons e r ih => exact ih (.ite h.wr.wr.raise h)

theorem backgroundCal {temp : Bool} {sums errs : List Int} (h : Canon d) :
    Canon (backgroundCal temp sums errs d) := by
  unfold Machine.backgroundCal
  refine .ite ?_ h
  extract_lets +onlyGivenNames d1 d2 _ _ d3
  have h1 : Canon d1 := h.same
  have h2 : Canon d2 := h1.writeReplErr.calRunEnds.alignAlarms
  have h3 : Canon d3 := h2.same
  exact .ite h3.hrdAlert h3

theorem portTsCal {p sp : Nat} (h : Canon d) : Canon (portTsCal p sp d) := .ite h.setBit h

end Sys2Proof.Machine.Canon
end

section
/-! SUPPORT. What keeps a canonical device canonical: reset and power (chapter 14). -/

namespace Sys2Proof.Machine.Canon

variable {d : Dev}

theorem coldReset (h : Canon d) : Canon d.coldReset := h.replicaLost.filterBoth
theorem enterOff (h : Canon d) : Canon d.enterOff := h.setFlock.coldReset.same
theorem railCollapse {n : Nat} (h : Canon d) : Canon (railCollapse n d) := .ite h.enterOff h
theorem railExit {n : Nat} (h : Canon d) : Canon (railExit n d) := h.setBit.clearBit.raise

theorem showIdentity (h : Canon d) : Canon d.showIdentity := by
  unfold Dev.showIdentity
  extract_lets +onlyGivenNames d1
  have h1 : Canon d1 := h.wr
  exact .ite h1 h1.wr.wr

theorem startUp {mode : Nat} {bell pull : Bool} {cut : Option Nat} (h : Canon d) :
    Canon (d.startUp mode bell pull cut) := by
  unfold Dev.startUp
  extract_lets +onlyGivenNames d1 d2 d3 r4
  have h1 : Canon d1 := h.coldReset
  have h2 : Canon d2 := h1.wr.wr.wr
  have h3 : Canon d3 := h2.wr.showIdentity.emit
  have h4 : Canon r4.1 := h3.lcCheck
  exact .ite h4.enterOff h4.same.setReady.loadRepairs.setReady.publish

theorem powerOn {mode : Nat} {bell pull : Bool} {cut : Option Nat} (h : Canon d) :
    Canon (powerOn mode bell pull cut d) :=
  .ite h.startUp h
theorem lcReset {mode : Nat} {bell pull : Bool} {cut : Option Nat} (h : Canon d) :
    Canon (lcReset mode bell pull cut d) :=
  .ite h.startUp h

theorem nvAwake (h : Canon d) : Canon (nvAwake d) := by
  unfold Machine.nvAwake
  refine .ite h ?_
  refine .ite (.ite h.setReady.startLoad h) ?_
  extract_lets +onlyGivenNames d1
  have h1 : Canon d1 := h.readBootRecord.setReady.hrdStart
  exact .ite h1 (by split; exacts [h1.loadFrom, h1.loadFrom, h1.loadFrom])

theorem startEntry {k : Nat} (h : Canon d) : Canon (d.startEntry k) := by
  unfold Dev.startEntry
  extract_lets +onlyGivenNames _ d1 d2
  have h1 : Canon d1 := h.wr.wr
  have h2 : Canon d2 := h1.same
  exact .ite (h2.foldl fun _ _ h3 => .ite h3.prEnd h3) h2

theorem writePwrCtl {inp v : Nat} (h : Canon d) : Canon (writePwrCtl inp v d).1 :=
  .iteFst h (.iteFst h (.iteFst (.pair (.ite h.fireWake h.wr)) (.iteFst (.pair h.wr) (.iteFst (.pair h.wr)
    (.pair h.startEntry)))))
theorem flushBuffers (h : Canon d) : Canon d.flushBuffers :=
  (((h.foldl fun _ _ h1 => h1.freeCells).same.foldl fun _ _ h3 => h3.setMissOcc).same.foldl fun _ _ h5 => .ite h5
    h5.egrStat).same.same

theorem entryStep6 (h : Canon d) : Canon d.entryStep6 := by
  unfold Dev.entryStep6
  extract_lets +onlyGivenNames d1 d2 d3 d4 _ d5 d6 d7
  have h1 : Canon d1 := h.foldl fun _ _ h1 => h1.resetDrover.resume
  have h2 : Canon d2 := h1.foldl fun _ _ h2 => h2.setIsland
  have h3 : Canon d3 := h2.foldl fun _ _ h3 => h3.loseMem.loseMem
  have h4 : Canon d4 := h3.foldl fun _ _ h4 => .ite h4 h4.loseMem
  have h5 : Canon d5 := h4.same
  have h6 : Canon d6 := h5.same
  have h7 : Canon d7 := h6.same.flushBuffers
  exact h7.setReady.same

theorem hibernateLoss (h : Canon d) : Canon d.hibernateLoss :=
  (((h.setReady.same.same.foldl fun _ _ h4 => h4.setRx).foldl fun _ _ h5 => h5.setPair).foldl fun _ _ h6 =>
    h6.setEgr).same

theorem entryStep7 {target : Nat} (h : Canon d) : Canon (d.entryStep7 target) := by
  unfold Dev.entryStep7
  extract_lets +onlyGivenNames d1 d2 d3 d4 d5 d6
  have h1 : Canon d1 := h.closeQps
  have h2 : Canon d2 := h1.foldl fun _ _ h2 => h2.linkDown.setStep
  have h3 : Canon d3 := h2.setReady
  have h4 : Canon d4 := .ite h3.servoLost h3
  have h5 : Canon d5 := h4.foldl fun _ _ h5 => .ite h5.wr h5
  have h6 : Canon d6 := h5.nvPowerDown.setReady
  refine .ite (h6.foldl fun _ _ h7 => .ite h7.setIsland h7) ?_
  exact (h6.foldl fun _ _ h7 => .ite h7.setIsland h7).hibernateLoss

theorem lastWake {src inp from_ time : Nat} {during aborted : Bool} (h : Canon d) :
    Canon (d.lastWake src inp from_ time during aborted) :=
  h.wr.wr.wr.wr.wr.wr.wr
theorem rearmMedia (h : Canon d) : Canon d.rearmMedia :=
  ((h.foldl fun _ _ h1 => .ite h1.rxStat h1).foldl fun _ _ h2 => .ite h2.pairStat h2).foldl fun _ _ h3 => .ite h3
    h3.egrStat.same

theorem startExit {src inp time : Nat} {during : Bool} (h : Canon d) : Canon (d.startExit src inp time during) := by
  unfold Dev.startExit
  extract_lets +onlyGivenNames _ d1 d2 d3 d4 d5 d6
  have h1 : Canon d1 := h.lastWake.raise
  have h2 : Canon d2 := h1.wr.same
  have h3 : Canon d3 := h2.foldl fun _ _ h3 => .ite h3 h3.setIsland
  have h4 : Canon d4 := h3.foldl fun _ _ h4 => .ite h4.wr h4
  have h5 : Canon d5 := h4.rearmMedia
  have h6 : Canon d6 := .ite h5 h5.same
  exact .ite h6.startLoad h6

theorem abortEntry {src inp time : Nat} (h : Canon d) : Canon (d.abortEntry src inp time) := by
  unfold Dev.abortEntry
  extract_lets +onlyGivenNames d1 d2 _ _ d3
  have h1 : Canon d1 := h.lastWake.raise
  have h2 : Canon d2 := h1.wr.wr
  have h3 : Canon d3 := h2.same
  exact .ite (h3.foldl fun _ _ h4 => .ite h4 (h4.foldl fun _ _ h5 => h5.thrResume)) h3

theorem wakeLatch (h : Canon d) : Canon (wakeLatch d) := by
  unfold Machine.wakeLatch
  split
  · exact h
  · extract_lets +onlyGivenNames d1
    have h1 : Canon d1 := h.same
    exact .ite h1 (.ite (.ite h1.abortEntry (.ite h1 h1.same)) (.ite h1 h1.startExit))

theorem entryEnds (h : Canon d) : Canon d.entryEnds := by
  unfold Dev.entryEnds
  extract_lets +onlyGivenNames _ w d1 d2
  have h1 : Canon d1 := h.wr.wr.bumpWrap
  have h2 : Canon d2 := h1.raise.same
  clear_value w
  split; exacts [h2.startExit, h2]

theorem entryContinue (h : Canon d) : Canon (entryContinue d) := by
  unfold Machine.entryContinue
  refine .ite h ?_
  split
  · exact .ite h h.same
  · exact .ite h h.same
  · extract_lets +onlyGivenNames d1
    have h1 : Canon d1 := .ite h.entryStep6 h
    exact .entryEnds (.ite h1.entryStep7 h1)
  · exact h

theorem alarm (h : Canon d) : Canon (alarm d) := .ite h.fireWake.wr h

end Sys2Proof.Machine.Canon
end

section
/-! SUPPORT. What keeps a canonical device canonical: register accesses (chapter 01). -/

namespace Sys2Proof.Machine.Canon

variable {d : Dev}

theorem writeField {q : Req} {pos : Nat} {ix : List Nat} {m v : Nat} {p : Dev × Nat} {f : Field} (h :
    Canon p.1) : Canon (writeField q pos ix m v p f).1 :=
  .iteFst h (by split; exacts [h, h, .pair h.wr, .pair h.wr, .pair h.wr, .iteFst h (.pair h.wr), h])
theorem writeFields {q : Req} {pos : Nat} {fs : List Field} {ix : List Nat} {m v : Nat} (h : Canon d) :
    Canon (writeFields q pos fs ix m v d).1 :=
  h.foldlFst fun _ _ h1 => h1.writeField
theorem writePlain {q : Req} {r : Register} {ix : List Nat} {m v : Nat} (h : Canon d) :
    Canon (writePlain q r ix m v d).1 :=
  h.writeFields
theorem also {p : Dev × Nat} {f : Dev → Dev × Nat} (h : Canon p.1) (hf : ∀ d, Canon d → Canon (f d).1) :
    Canon (also p f).1 :=
  .pair (hf _ h)
theorem then_ {p : Dev × Nat} {f : Dev → Dev} (h : Canon p.1) (hf : ∀ d, Canon d → Canon (f d)) :
    Canon (then_ p f).1 :=
  .pair (hf _ h)
theorem dropFields {pos : Nat} {fs : List Field} {m st : Nat} {p : Dev × Nat} (h : Canon p.1) :
    Canon (dropFields pos fs m st p).1 :=
  .iteFst h h
theorem pinnedWrite {q : Req} {r : Register} {ix : List Nat} {loop : Nat} {fs : List Field} {m v : Nat} (h :
    Canon d) : Canon (pinnedWrite q r ix loop fs m v d).1 :=
  .iteFst ((h.writeFields.also (fun _ h1 => h1)).then_ (fun _ h1 => h1.hrdCount)) h.writePlain
theorem ringLock {inp : Nat} (h : Canon d) : Canon (ringLock inp d) := .ite h h.wr.wr.raise
theorem writeSys {q : Req} {r : Register} {ix : List Nat} {m v : Nat} (h : Canon d) :
    Canon (writeSys q r ix m v d).1 :=
  .iteFst (.pair (.ite h.ringLock h)) (.iteFst (h.writePlain.then_ (fun _ h1 => h1.followReady)) h.writePlain)
theorem ptpSwitch {p : Nat} {was : Bool} (h : Canon d) : Canon (d.ptpSwitch p was) :=
  .ite h.ptpEnter (.ite h.wr.raise h)

theorem writeTim {q : Req} {r : Register} {ix : List Nat} {m v : Nat} (h : Canon d) :
    Canon (writeTim q r ix m v d).1 := by
  unfold Machine.writeTim
  refine .iteFst (.iteFst h h.writeFreqAdj) ?_
  refine .iteFst (.pair h.timStep) ?_
  refine .iteFst ?_ ?_
  · exact h.writePlain.then_ (fun _ h1 => .ite h1.timSetGo h1)
  · refine .iteFst ?_ ?_
    · exact h.writePlain.then_ (fun _ h1 => h1.ptpSwitch.ptpSwitch)
    · refine .iteFst ?_ ?_
      · exact h.writeFields.also (fun _ h1 => .iteFst h1 h1.writeServoSrc)
      · refine .iteFst h.pinnedWrite ?_
        refine .iteFst h.pinnedWrite ?_
        refine .iteFst (h.pinnedWrite.then_ (fun _ h1 => h1.ptpSwitch)) ?_
        refine .iteFst h.pinnedWrite ?_
        exact .iteFst (h.writePlain.then_ (fun _ h1 => .ite h1.soutCommit h1)) h.writePlain

theorem writePrt {q : Req} {r : Register} {ix : List Nat} {m v : Nat} (h : Canon d) :
    Canon (writePrt q r ix m v d).1 := by
  unfold Machine.writePrt
  refine .iteFst h.writePrtCfg ?_
  refine .iteFst (.iteFst h h.writePlain) ?_
  refine .iteFst (.iteFst h h.writePlain) ?_
  exact .iteFst h.writeBufLim (.iteFst (.pair h.haltStateClear) h.writePlain)

theorem writeRte {q : Req} {r : Register} {ix : List Nat} {m v : Nat} (h : Canon d) :
    Canon (writeRte q r ix m v d).1 :=
  .iteFst h.writeRteCfg (.iteFst (.iteFst h.tableClear h) h.writePlain)

theorem writeMed {q : Req} {r : Register} {ix : List Nat} {m v : Nat} (h : Canon d) :
    Canon (writeMed q r ix m v d).1 :=
  .iteFst h.writeCtxCmd (.iteFst (.iteFst h h.writePlain) (.iteFst (.pair (h.foldl fun _ _ h1 => .ite
    h1.streamRelease h1)) h.writePlain))

theorem userEnables {old : Nat} (h : Canon d) : Canon (d.userEnables old) := h.foldl fun _ _ h1 => h1.raise

theorem writeFab {q : Req} {r : Register} {ix : List Nat} {m v : Nat} (h : Canon d) :
    Canon (writeFab q r ix m v d).1 := by
  unfold Machine.writeFab
  refine .iteFst (h.writePlain.then_ (fun _ h1 => h1.userEnables)) ?_
  refine .iteFst (.iteFst h.draw.uresetWrite h) ?_
  exact .iteFst (h.writeFields.then_ (fun _ h1 => .ite (.ite h1.setBit h1.clearBit) h1)) h.writePlain

theorem writeCfg {q : Req} {r : Register} {ix : List Nat} {m v : Nat} (h : Canon d) :
    Canon (writeCfg q r ix m v d).1 := by
  unfold Machine.writeCfg
  refine .iteFst ?_ ?_
  · exact h.writePlain.also (fun _ h1 => .iteFst h1.reload h1)
  · refine .iteFst (h.writePlain.also (fun _ h1 => h1.prOp)) ?_
    exact .iteFst (h.writePlain.then_ (fun _ h1 => .ite h1.rbGo h1)) h.writePlain

theorem writeNvc {q : Req} {r : Register} {ix : List Nat} {m v : Nat} (h : Canon d) :
    Canon (writeNvc q r ix m v d).1 :=
  .iteFst h.writeWp (.iteFst h.writeWpClr (.iteFst h.writeBootCmd h.writePlain))

theorem writeDdr {q : Req} {r : Register} {ix : List Nat} {m v : Nat} (h : Canon d) :
    Canon (writeDdr q r ix m v d).1 := by
  unfold Machine.writeDdr
  refine .iteFst (.iteFst (.dropFields (.pair h)) h.writePlain) ?_
  refine .iteFst ?_ ?_
  · exact .also (.iteFst h.ddrInit h) (fun _ h1 => .iteFst h1.ddrRetrain h1)
  · exact .iteFst h.pinnedWrite (.iteFst (.pair h.writeEnables) h.writePlain)

theorem writeRing {q : Req} {r : Register} {ix : List Nat} {m v : Nat} (h : Canon d) :
    Canon (writeRing q r ix m v d).1 :=
  .iteFst h (h.writePlain.then_ (fun _ h1 => h1.ringEnabled))

theorem writeSac {q : Req} {r : Register} {ix : List Nat} {m v : Nat} (h : Canon d) :
    Canon (writeSac q r ix m v d).1 :=
  .iteFst h (.iteFst h.writeRingCtl (.iteFst h.writeRing (.iteFst (h.writePlain.then_
    (fun _ h1 => .ite h1 h1.same)) h.writePlain)))

theorem writeSem {q : Req} {r : Register} {ix : List Nat} {m v : Nat} (h : Canon d) :
    Canon (writeSem q r ix m v d).1 :=
  .iteFst h.writeSemRel (.iteFst h.writeSemForce h.writePlain)
theorem writeEvt {q : Req} {r : Register} {ix : List Nat} {m v : Nat} (h : Canon d) :
    Canon (writeEvt q r ix m v d).1 :=
  .iteFst h (.iteFst h.writeFields.dropFields (.iteFst h h.writePlain))
theorem writePwr {q : Req} {r : Register} {ix : List Nat} {m v : Nat} (h : Canon d) :
    Canon (writePwr q r ix m v d).1 :=
  .iteFst (.iteFst h h.writePwrCtl) (.iteFst (h.writePlain.then_ (fun _ h1 => h1.wr)) h.writePlain)

theorem writeHrd {q : Req} {r : Register} {ix : List Nat} {m v : Nat} (h : Canon d) :
    Canon (writeHrd q r ix m v d).1 := by
  unfold Machine.writeHrd
  refine .iteFst ?_ ?_
  · exact .also (.iteFst h.writeHrdRestart h) (fun _ h1 => .pair (.ite h1.startPrewarm h1))
  · refine .iteFst (.dropFields (.pair h)) ?_
    refine .iteFst ?_ (.iteFst h.writeIslOp h.writePlain)
    exact h.writePlain.also (fun _ h1 => .iteFst h1.writeHrdKick h1)

theorem writeLcs {q : Req} {r : Register} {ix : List Nat} {m v : Nat} (h : Canon d) :
    Canon (writeLcs q r ix m v d).1 :=
  .iteFst h.writeLcsCmd (.iteFst (.iteFst h h.writePlain) h.writePlain)

theorem writeDrv {q : Req} {r : Register} {ix : List Nat} {m v : Nat} (h : Canon d) :
    Canon (writeDrv q r ix m v d).1 := by
  unfold Machine.writeDrv
  refine .iteFst h.writeDrvCtl ?_
  refine .iteFst (.pair h.writeEnables) ?_
  refine .iteFst ?_ ?_
  · exact h.writePlain.then_ (fun _ h1 => h1.foldl fun _ _ h2 => h2.setThr)
  · exact .iteFst (h.writePlain.also (fun _ h1 => .iteFst (.pair h1.startFill) h1)) h.writePlain

theorem writeReg {q : Req} {a : Nat} {r : Register} {ix : List Nat} {m v : Nat} (h : Canon d) :
    Canon (writeReg q a r ix m v d).1 := by
  unfold Machine.writeReg
  extract_lets +onlyGivenNames done
  have h1 : ∀ p, Canon p.1 → Canon (done p).1 := fun _ hp => hp
  split
  · exact h1 _ h.writeSys
  · exact h1 _ h.writeTim
  · exact h1 _ h.writePrt
  · exact h1 _ h.writePrt
  · exact h1 _ h.writeRte
  · exact .iteFst h.writeRosterCfg (.iteFst h.writeRosterWin (h1 _ h.writeMed))
  · exact h1 _ h.writeFab
  · exact h1 _ h.writeCfg
  · exact h1 _ h.writeNvc
  · exact h1 _ h.writeDdr
  · exact h1 _ h.writeSac
  · exact h1 _ h.writeSem
  · exact h1 _ h.writeEvt
  · exact h1 _ h.writePwr
  · exact h1 _ h.writeHrd
  · exact h1 _ h.writeLcs
  · exact h
  · exact h1 _ (.iteFst h.writeBstCmd h.writePlain)
  · exact h1 _ h.writeDrv

theorem regWrite {q : Req} {a be v : Nat} (h : Canon d) : Canon (regWrite q a be v d).1 := by
  unfold Machine.regWrite
  extract_lets +onlyGivenNames _
  split
  · exact .iteFst h (.iteFst (.pair h.doorbell) h)
  · exact .iteFst h (.iteFst h (h.foldlFst fun _ _ h1 => .pair (.iteFst h1.writeReg h1)))

theorem readReg {q : Req} {r : Register} {ix : List Nat} {u : Nat} (h : Canon d) : Canon (readReg q r ix u d).1 := by
  unfold Machine.readReg
  extract_lets +onlyGivenNames _ _ show_
  have h1 : ∀ d, Canon d → Canon (show_ d).1 := fun _ h1 => h
  refine .iteFst h ?_
  refine .iteFst (.pair (.ite h.sinPop h)) ?_
  refine .iteFst h ?_
  refine .iteFst (.pair h.readLearnLog) ?_
  refine .iteFst h ?_
  refine .iteFst (h1 _ h.wr) ?_
  refine .iteFst (.pair h.wandValue) ?_
  refine .iteFst h.readWeak ?_
  refine .iteFst h.readSemTry ?_
  refine .iteFst (h1 _ h.wr) ?_
  refine .iteFst h ?_
  refine .iteFst (h1 _ h.wr) ?_
  refine .iteFst (h1 _ (by split; exacts [h.wr, h])) ?_
  exact .iteFst (.pair h.readFailLog) (.iteFst (.iteFst h h.draw) (h1 _ h))

theorem regRead {q : Req} {a be : Nat} (h : Canon d) : Canon (regRead q a be d).1 := by
  unfold Machine.regRead
  extract_lets +onlyGivenNames _
  split
  · exact .iteFst h h
  · exact h
  · exact .iteFst h (.iteFst h (.pair (h.foldlFst fun _ _ h1 => .iteFst (.pair h1.readReg) h1)))

theorem fabMgmt {i : Nat} {write : Bool} {a be v : Nat} (h : Canon d) : Canon (fabMgmt i write a be v d) := by
  unfold Machine.fabMgmt
  refine .ite h ?_
  extract_lets +onlyGivenNames _ _ _ x1 d2
  have h1 : Canon x1.1 := .iteFst (.pair h.regWrite) (.pair h.regRead)
  have h2 : Canon d2 := h1.wr.bumpWrap
  split; exacts [.denied (.ite h2 h2.emit), h2]

end Sys2Proof.Machine.Canon
end

section
/-! SUPPORT. What keeps a canonical device canonical: the marker, the writing of images and the whole address space.
-/

namespace Sys2Proof.Machine.Canon

variable {d : Dev}

theorem markerEdge (h : Canon d) : Canon (markerEdge d) := by
  unfold Machine.markerEdge
  extract_lets +onlyGivenNames _ _ d1
  have h1 : Canon d1 := h.marker
  exact .ite (h1.foldl fun _ _ h2 => h2.rosterStep) h1

theorem putFrame {f v : Nat} {src : Option FrameSrc} (h : Canon d) : Canon (d.putFrame f v src) := h.same
theorem putFrames {x : ImgCtx} {r : ImgRec} (h : Canon d) : Canon (d.putFrames x r) :=
  h.foldl fun _ _ h1 => h1.putFrame

theorem putPair {x : ImgCtx} {p : Nat × Nat} (h : Canon d) : Canon (d.putPair x p) := by
  unfold Dev.putPair
  extract_lets +onlyGivenNames _ d1
  have h1 : Canon d1 := h.regWrite
  exact .ite (h1.foldl fun _ _ h2 => h2.wr) h1

theorem putRec {x : ImgCtx} {r : ImgRec} (h : Canon d) : Canon (d.putRec x r) := by
  unfold Dev.putRec
  extract_lets +onlyGivenNames _
  split
  · exact h.putFrames
  · exact h.same
  · exact h.setBytes
  · exact h.setBytes
  · exact h.setBytes
  · exact h.foldl fun _ _ h1 => h1.putPair
  · exact h

theorem putRecs {x : ImgCtx} {l : List ImgRec} (h : Canon d) : Canon (d.putRecs x l) :=
  h.foldl fun _ _ h1 => h1.putRec
theorem putHeader {h : List Byte} (hd : Canon d) : Canon (d.putHeader h) := hd.wr.wr.wr.foldl fun _ _ h3 => h3.wr
theorem loadPassed {h : List Byte} (hd : Canon d) : Canon (d.loadPassed h) := hd.logLoad.wr.wr.wr.wr.same

theorem loadDone {bad : Option Nat} (h : Canon d) : Canon (loadDone bad d) := by
  unfold Machine.loadDone
  refine .ite h ?_
  split
  · exact h
  · extract_lets +onlyGivenNames d1
    have h1 : Canon d1 := h.loadSenses
    exact .ite h1.failLoad ((h1.same.putHeader.putRecs.foldl fun _ _ h4 => h4.wr).loadPassed.setFlock)

theorem exitReloadDone {bad : Option Nat} (h : Canon d) : Canon (exitReloadDone bad d) := by
  unfold Machine.exitReloadDone
  refine .ite h ?_
  split
  · exact h
  · extract_lets +onlyGivenNames d1
    have h1 : Canon d1 := h.loadSenses
    exact .ite h1.failLoad h1.putRecs.same.loadPassed.same

theorem putPartial {x : PrSlot} (h : Canon d) : Canon (d.putPartial x) := h.zeroFrames.same.putRecs
theorem restoreFf {src target : Nat} {restore : Bool} (h : Canon d) : Canon (d.restoreFf src target restore) :=
  .ite h.same h.captureFf
theorem applyEnds {s : Nat} {x : PrSlot} {st freeze : Nat} (h : Canon d) : Canon (d.applyEnds s x st freeze) :=
  h.setFabIsl.wr.wr.wr.prEnd.wr.raise

theorem applyDone {s freeze : Nat} {bad : Bool} (h : Canon d) : Canon (applyDone s freeze bad d) := by
  unfold Machine.applyDone
  refine .ite h ?_
  refine .ite h.zeroFrames.setFabIsl.setIsland.wr.wr.wr.prEnd ?_
  refine .ite h.putPartial.restoreFf.applyEnds ?_
  exact .ite h h.captureFf.setFabIsl.wr.wr.putPartial.restoreFf.applyEnds

theorem setupRead {q : Req} {a len : Nat} (h : Canon d) : Canon (setupRead q a len d).1 :=
  h.foldlFst fun _ _ h1 => .pair h1.regRead
theorem setupWrite {q : Req} {a : Nat} {l : List Byte} (h : Canon d) : Canon (setupWrite q a l d).1 :=
  .pair (h.foldlFst fun _ _ h1 => .pair h1.regWrite)
theorem spaceRead {q : Req} {a len : Nat} {errs : List (Nat × Nat)} {f : NvFind} (h : Canon d) :
    Canon (spaceRead q a len errs f d).1 :=
  .iteFst h.setupRead h.memRead
theorem spaceWrite {q : Req} {a : Nat} {l : List Byte} {errs : List (Nat × Nat)} (h : Canon d) :
    Canon (spaceWrite q a l errs d).1 :=
  .iteFst h.setupWrite h.memWrite
theorem transferRead {q : Req} {a len : Nat} {errs : List (List (Nat × Nat))} {f : List NvFind} (h : Canon d) :
    Canon (transferRead q a len errs f d).1 :=
  h.foldlFst fun _ _ h1 => .iteFst h1 (.pair h1.spaceRead)
theorem transferWrite {q : Req} {a : Nat} {l : List Byte} {errs : List (List (Nat × Nat))} (h : Canon d) :
    Canon (transferWrite q a l errs d).1 :=
  h.foldlFst fun _ _ h1 => .iteFst h1 (.pair h1.spaceWrite)

end Sys2Proof.Machine.Canon
end

section
/-! SUPPORT. What keeps a canonical device canonical: the Sacon engine (chapter 12). -/

namespace Sys2Proof.Machine.Canon

variable {d : Dev}

theorem takeP7One {q : Nat} (h : Canon d) : Canon (d.takeP7One q) := by
  unfold Dev.takeP7One
  split; exacts [h, h.same.leaveIngress]
theorem takeP7 {q n : Nat} (h : Canon d) : Canon (d.takeP7 q n) := h.foldl fun _ _ h1 => h1.takeP7One

theorem discovery {q n src sport magic ver type nonce : Nat} (h : Canon d) :
    Canon (discovery q n src sport magic ver type nonce d) := by
  unfold Machine.discovery
  extract_lets +onlyGivenNames d1
  have h1 : Canon d1 := h.takeP7
  exact .ite h1 h1.same.sacSend

theorem arpRequest {q spa tpa : Nat} (h : Canon d) : Canon (arpRequest q spa tpa d) := .ite h h.sacSend
theorem neighbourSolicitation {q src target : Nat} (h : Canon d) : Canon (neighbourSolicitation q src target d) :=
  .ite h h.sacSend

theorem qpConnect {c i q src mac mtu peer psn limit : Nat} (h : Canon d) :
    Canon (d.qpConnect c i q src mac mtu peer psn limit) := by
  unfold Dev.qpConnect
  split
  next d1 _ e =>
  have h1 : Canon d1 := .ofFst e h.draw
  split
  next d2 _ e =>
  have h2 : Canon d2 := .ofFst e h1.draw
  split
  next d3 _ e =>
  have h3 : Canon d3 := .ofFst e h2.draw
  split
  next d4 _ e =>
  have h4 : Canon d4 := .ofFst e h3.draw
  extract_lets +onlyGivenNames _ d5 d6 d7 d8
  have h5 : Canon d5 := h4.setQp
  have h6 : Canon d6 := h5.wr.wr.wr
  have h7 : Canon d7 := h6.wr.wr.wr
  have h8 : Canon d8 := .ite h7.same.wr h7
  exact h8.qpEnter.sacSend

theorem cmReq {q n src mac pd mtu : Nat} {rc : Bool} {peer psn limit : Nat} (h : Canon d) :
    Canon (cmReq q n src mac pd mtu rc peer psn limit d) := by
  unfold Machine.cmReq
  extract_lets +onlyGivenNames d1 rej
  have h1 : Canon d1 := h.takeP7
  have h2 : ∀ x0, Canon (rej x0) := fun _ => h1.sacSend
  split; exacts [.ite (h2 ..) (.ite (h2 ..) (.ite (h2 ..) h1.qpConnect)), h2 ..]

theorem loadHalter {c : Nat} (h : Canon d) : Canon (d.loadHalter c) := (h.foldl fun _ _ h1 => h1.wr.wr.wr.wr).same

theorem cmRtu {q n c i : Nat} (h : Canon d) : Canon (cmRtu q n c i d) := by
  unfold Machine.cmRtu
  extract_lets +onlyGivenNames d1
  have h1 : Canon d1 := h.takeP7
  refine .ite h1 ?_
  extract_lets +onlyGivenNames d2 d3
  have h2 : Canon d2 := h1.qpEnter
  have h3 : Canon d3 := .ite h2.loadHalter h2
  exact h3.same

theorem cmDreq {q n c i : Nat} (h : Canon d) : Canon (cmDreq q n c i d) := by
  unfold Machine.cmDreq
  extract_lets +onlyGivenNames d1
  have h1 : Canon d1 := h.takeP7
  refine .ite h1 ?_
  extract_lets +onlyGivenNames _ d2 d3
  have h2 : Canon d2 := h1.sacSend
  have h3 : Canon d3 := h2.qpLeave
  exact .setQp (.ite h3.unbind h3)

theorem qpFail {c i : Nat} (h : Canon d) : Canon (d.qpFail c i) := h.qpLeave.raise
theorem ackTimeout {c i made : Nat} (h : Canon d) : Canon (ackTimeout c i made d) := .ite h (.ite h.sacCount h.qpFail)

theorem nakRx {q n c i : Nat} {fatal : Bool} (h : Canon d) : Canon (nakRx q n c i fatal d) := by
  unfold Machine.nakRx
  extract_lets +onlyGivenNames d1
  have h1 : Canon d1 := h.takeP7
  refine .ite h1 ?_
  extract_lets +onlyGivenNames d2
  have h2 : Canon d2 := h1.sacCount
  exact .ite h2.qpFail h2.sacCount

theorem qpSend {c i kind : Nat} {l : List Byte} (h : Canon d) : Canon (d.qpSend c i kind l) := h.sacSend

theorem sendRx {q n c i : Nat} (h : Canon d) : Canon (sendRx q n c i d) := by
  unfold Machine.sendRx
  extract_lets +onlyGivenNames d1
  have h1 : Canon d1 := h.takeP7
  exact .ite h1 h1.qpSend

theorem setRate {c i : Nat} {x : Qp} (h : Canon d) : Canon (d.setRate c i x) := h.setQp.wr

theorem cnpRx {q n c i : Nat} (h : Canon d) : Canon (cnpRx q n c i d) := by
  unfold Machine.cnpRx
  extract_lets +onlyGivenNames d1
  have h1 : Canon d1 := h.takeP7
  refine .ite h1 ?_
  extract_lets +onlyGivenNames d2
  have h2 : Canon d2 := h1.sacCount
  exact .ite h2.setQp h2.setRate

theorem rateTimer {c i : Nat} (h : Canon d) : Canon (rateTimer c i d) := .ite h (.ite h.setRate h.setQp)
theorem directFail {c off st : Nat} {write : Bool} (h : Canon d) : Canon (d.directFail c off st write) :=
  h.wr.wr.wr.wr.bump.wr.sacCount.raise.denied

theorem directUnit {c off st : Nat} {write : Bool} (h : Canon d) : Canon (d.directUnit c off st write) := by
  unfold Dev.directUnit
  extract_lets +onlyGivenNames d1
  have h1 : Canon d1 := h.sacCount
  exact .ite h1 h1.directFail

theorem advanceRq {c i len : Nat} (h : Canon d) : Canon (d.advanceRq c i len) := h.wr

theorem directWrite {q n c i key va : Nat} {l : List Byte} (h : Canon d) :
    Canon (directWrite q n c i key va l d) := by
  unfold Machine.directWrite
  extract_lets +onlyGivenNames d1
  have h1 : Canon d1 := h.takeP7
  refine .ite h1 ?_
  exact .ite h1.qpSend (.ite h1.qpSend ((h1.advanceRq.foldl fun _ _ h2 => h2.regWrite.directUnit).qpSend))

theorem directRead {q n c i key va len : Nat} (h : Canon d) : Canon (directRead q n c i key va len d) := by
  unfold Machine.directRead
  extract_lets +onlyGivenNames d1
  have h1 : Canon d1 := h.takeP7
  refine .ite h1 ?_
  refine .ite h1.qpSend ?_
  exact .ite h1.qpSend (.qpSend (.foldlFst (.pair h1.advanceRq) fun _ _ h2 => .pair h2.regRead.directUnit))

theorem heartbeatTimeout {c : Nat} (h : Canon d) : Canon (heartbeatTimeout c d) := .ite h h.ctrlLost

theorem rdmaFault {c r : Nat} (h : Canon d) : Canon (d.rdmaFault c r) := h.qpFail

end Sys2Proof.Machine.Canon
end

section
/-! SUPPORT. What keeps a canonical device canonical: command descriptors (chapter 12). -/

namespace Sys2Proof.Machine.Canon

variable {d : Dev}

theorem descriptorFetch {c r : Nat} {descs : List Nat} {ok : Bool} (h : Canon d) :
    Canon (descriptorFetch c r descs ok d) :=
  .ite h (.ite h.askStop (.ite h.rdmaFault h.setRing.wr.sacCount))
theorem endDesc {c r st v : Nat} (h : Canon d) : Canon (d.endDesc c r st v) := h.denied.completeDesc
theorem regRead_ {c r : Nat} (h : Canon d) : Canon (regRead_ c r d) :=
  h.execDesc (fun _ _ h1 => .ite h1.failDesc h1.regRead.endDesc)
theorem regWrite_ {c r : Nat} (h : Canon d) : Canon (regWrite_ c r d) :=
  h.execDesc (fun _ _ h1 => .ite h1.completeDesc h1.regWrite.endDesc)
theorem regRmw_ {c r : Nat} (h : Canon d) : Canon (regRmw_ c r d) :=
  h.execDesc (fun _ _ h1 => .ite h1.failDesc h1.regRead.regWrite.endDesc)
theorem regPoll_ {c r : Nat} (h : Canon d) : Canon (regPoll_ c r d) :=
  h.execDesc (fun _ _ h1 => .ite h1.failDesc h1.waitDesc)

theorem regPollRead {c r : Nat} (h : Canon d) : Canon (regPollRead c r d) := by
  unfold Machine.regPollRead
  split
  · exact h
  · extract_lets +onlyGivenNames y1
    have h1 : Canon y1.1 := h.regRead
    exact .ite h1.endDesc (.ite h1.completeDesc (.ite h1.completeDesc h1.waitDesc))

theorem memRead_ {c r : Nat} {errs : List (List (Nat × Nat))} {f : List NvFind} {fail : Option Nat} (h :
    Canon d) : Canon (memRead_ c r errs f fail d) := by
  unfold Machine.memRead_
  refine h.execDesc fun _ _ h1 => ?_
  refine .ite h1.completeDesc ?_
  refine .ite h1.completeDesc ?_
  extract_lets +onlyGivenNames _ y2 d3
  have h2 : Canon y2.1 := h1.transferRead
  have h3 : Canon d3 := .ite h2 h2.hostWrite
  exact .ite h3.endDesc h3.rdmaFault.completeDesc

theorem memWrite_ {c r : Nat} {host : List Byte} {errs : List (List (Nat × Nat))} (h : Canon d) :
    Canon (memWrite_ c r host errs d) := by
  unfold Machine.memWrite_
  refine h.execDesc fun _ _ h1 => ?_
  refine .ite h1.completeDesc ?_
  refine .ite h1.completeDesc ?_
  extract_lets +onlyGivenNames _ d2 y3
  have h2 : Canon d2 := .ite h1 h1.sacCount
  have h3 : Canon y3.1 := h2.transferWrite
  exact .ite h3.endDesc h3.rdmaFault.completeDesc

theorem hostRead {c r n : Nat} {x : Option Nat} (h : Canon d) : Canon (d.hostRead c r n x).1 :=
  .iteFst h (by split; exacts [.pair h.sacCount, .pair h.rdmaFault])
theorem endRoute {c r st v : Nat} (h : Canon d) : Canon (d.endRoute c r st v) :=
  .ite h.completeDesc (.ite h.completeDesc h.failDesc)

theorem routeChange {c r x : Nat} {img : Option Nat} {good : Nat → Bool} {direct : Dev → Nat → Dev × Nat × Nat}
    {staged : Dev → Nat → Nat → Dev × Nat × Nat} (h : Canon d) (hdirect : ∀ d x1, Canon d → Canon (direct d x1).1)
    (hstaged : ∀ d x1 x2, Canon d → Canon (staged d x1 x2).1) : Canon (d.routeChange c r x img good direct staged)
    := by
  unfold Dev.routeChange
  refine .ite h.failDesc ?_
  refine .ite h.failDesc ?_
  extract_lets +onlyGivenNames h1
  have h1 : Canon h1.1 := h.hostRead
  split
  · exact h1.failDesc
  · exact .ite h1.failDesc (.endRoute (.iteFst (hdirect _ _ h1) (hstaged _ _ _ h1)))

theorem routeInsert {c r : Nat} {img : Option Nat} (h : Canon d) : Canon (routeInsert c r img d) :=
  h.execDesc (fun _ _ h1 => h1.routeChange (fun _ _ h2 => h2.directInsert) (fun _ _ _ h2 => h2.salvoInsert))
theorem routeModify {c r : Nat} {img : Option Nat} (h : Canon d) : Canon (routeModify c r img d) :=
  h.execDesc (fun _ _ h1 => h1.routeChange (fun _ _ h2 => h2.directModify) (fun _ _ _ h2 => h2.salvoModify))
theorem routeDelete {c r : Nat} {img : Option Nat} (h : Canon d) : Canon (routeDelete c r img d) :=
  h.execDesc (fun _ _ h1 => h1.routeChange (fun _ _ h2 => h2.directDelete) (fun _ _ _ h2 => h2.salvoDelete))
theorem chanWrite {c r : Nat} {img : Option Nat} (h : Canon d) : Canon (chanWrite c r img d) :=
  h.execDesc (fun _ _ h1 => h1.routeChange (fun _ _ h2 => h2.directChan) (fun _ _ _ h2 => h2.salvoChan))
theorem sendEntry {c r x i : Nat} {ok : Bool} (h : Canon d) : Canon (d.sendEntry c r x i ok) :=
  .ite h.failDesc (.ite h.rdmaFault.failDesc h.hostWrite.completeDesc)

theorem routeLookup {c r : Nat} {key : Option Nat} {ok : Bool} (h : Canon d) : Canon (routeLookup c r key ok d) := by
  unfold Machine.routeLookup
  refine h.execDesc fun _ _ h1 => ?_
  refine .ite h1.failDesc ?_
  extract_lets +onlyGivenNames h2
  have h2 : Canon h2.1 := h1.hostRead
  split
  · exact h2.failDesc
  · exact .ite h2.completeDesc (by split; exacts [h2.failDesc, h2.completeDesc, h2.sendEntry])

theorem chanRead {c r : Nat} {ok : Bool} (h : Canon d) : Canon (chanRead c r ok d) :=
  h.execDesc (fun _ _ h1 => .ite h1.failDesc (.ite h1.failDesc (.ite h1.failDesc h1.sendEntry)))

theorem salvoOpenDesc {c r : Nat} (h : Canon d) : Canon (salvoOpenDesc c r d) := by
  unfold Machine.salvoOpenDesc
  refine h.execDesc fun _ _ h1 => ?_
  refine .ite h1.failDesc ?_
  extract_lets +onlyGivenNames y2
  have h2 : Canon y2.1 := h1.salvoOpen
  split; exacts [h2.completeDesc, h2.failDesc]

theorem salvoArmDesc {c r : Nat} (h : Canon d) : Canon (salvoArmDesc c r d) :=
  h.execDesc (fun _ _ h1 => .ite h1.failDesc h1.salvoArm.endRoute)
theorem salvoCancelDesc {c r : Nat} (h : Canon d) : Canon (salvoCancelDesc c r d) :=
  h.execDesc (fun _ _ h1 => .ite h1.completeDesc h1.salvoCancel.completeDesc)
theorem semAcqDesc {c r : Nat} (h : Canon d) : Canon (semAcqDesc c r d) :=
  h.execDesc (fun _ _ h1 => .ite h1.completeDesc h1.waitDesc.semSettle)
theorem semTryDesc {c r : Nat} (h : Canon d) : Canon (semTryDesc c r d) :=
  h.execDesc (fun _ _ h1 => .ite h1.completeDesc h1.semTry.completeDesc)
theorem semRelDesc {c r : Nat} (h : Canon d) : Canon (semRelDesc c r d) :=
  h.execDesc (fun _ _ h1 => .ite h1.completeDesc h1.semRel.completeDesc)
theorem semAcqTimeout {c r : Nat} (h : Canon d) : Canon (semAcqTimeout c r d) := by
  unfold Machine.semAcqTimeout
  split; exacts [h, .ite h (.semSettle (.completeDesc (.ite h.semWithdraw h)))]
theorem waitUntil {c r : Nat} (h : Canon d) : Canon (waitUntil c r d) :=
  h.execDesc (fun _ _ h1 => .ite h1.completeDesc h1.waitDesc)
theorem waitUntilReached {c r : Nat} (h : Canon d) : Canon (waitUntilReached c r d) := by
  unfold Machine.waitUntilReached
  split; exacts [h, .ite h.completeDesc h]
theorem badOpcode {c r : Nat} (h : Canon d) : Canon (badOpcode c r d) := by
  unfold Machine.badOpcode
  split; exacts [h, .ite h (h.execDesc (fun _ _ h1 => h1.failDesc))]
theorem ringCtl {inp : Nat} {desc : Bool} {c : Nat} {f : Dev → Dev × Nat} (h :
    Canon d) (hf : ∀ d, Canon d → Canon (f d).1) : Canon (ringCtl inp desc c f d) :=
  .ite h.complete ((hf _ h).complete)

end Sys2Proof.Machine.Canon
end

section
/-! SUPPORT. What keeps a canonical device canonical: the JTAG port (chapter 17). -/

namespace Sys2Proof.Machine.Canon

variable {d : Dev}

theorem setIr {code pins : Nat} (h : Canon d) : Canon (d.setIr code pins) := h.same
theorem bypass (h : Canon d) : Canon d.bypass := h.emit
theorem boundary {cap v : Nat} (h : Canon d) : Canon (d.boundary cap v) := h.same.emit
theorem nonceGet (h : Canon d) : Canon (nonceGet d) := .ite h.wr.bypass (.ite h.wr.bypass h.newNonce.wr.emit)
theorem certLoad {cert : Nat} (h : Canon d) : Canon (certLoad cert d) := .ite h.wr.bypass h.wr.startCheck

theorem dbgAccess {v : Nat} {errs : List (Nat × Nat)} {f : NvFind} (h : Canon d) : Canon (dbgAccess v errs f d) := by
  unfold Machine.dbgAccess
  extract_lets +onlyGivenNames d1 _ _ done
  have h1 : Canon d1 := h.emit
  have h2 : ∀ d x1 x2, Canon d → Canon (done d x1 x2) := fun _ _ _ h2 => h2.same
  exact .ite (h2 _ _ _ h1) (.ite (h2 _ _ _ h1.spaceWrite.denied) (h2 _ _ _ h1.spaceRead.denied))

theorem dbgHalt {v : Nat} (h : Canon d) : Canon (dbgHalt v d) := .ite h.bypass (h.foldl fun _ _ h1 => h1.writeDrvCtl)

theorem scanEnter {clean : Bool} (h : Canon d) : Canon (scanEnter clean d) := by
  unfold Machine.scanEnter
  refine .ite h.bypass ?_
  refine .ite ?_ h.same
  extract_lets +onlyGivenNames d1
  have h1 : Canon d1 := h.zeroise.dropNonce.wr
  exact .ite h1.wr.same h1.wr

theorem tlyRead {off : Nat} (h : Canon d) : Canon (tlyRead off d) := .ite h.bypass h.emit
theorem otpWrite {first n data : Nat} (h : Canon d) : Canon (otpWrite first n data d) := .ite h.bypass h.burn.showLcs

end Sys2Proof.Machine.Canon
end

section
/-! SUPPORT. What keeps a canonical device canonical: what Quobaler instructions share (chapter 07). -/

namespace Sys2Proof.Machine.Canon

variable {d : Dev}

theorem illegal (h : Canon d) : Canon (illegal d).dev := h
theorem goOn {n t : Nat} {x : Thr} {pc : Nat} (h : Canon d) : Canon (d.goOn n t x pc) := .ite h h.setThr.setThrState

theorem retire {c : QCtx} {a : QAct} (h : Canon a.dev) : Canon (Dev.retire c a) := by
  cases a with
  | go d x => exact .goOn (d := d) h
  | jump d x pc => exact .goOn (d := d) h
  | fault d code at_ => exact .fault (d := d) h
  | block d x => exact .ite (.semSettle (.setThrState (.setThr (d := d) h))) (.setThrState (.setThr (d := d) h))

theorem qIssue {i : Issue} {key : Option Nat} {f : QOp} {fine : Nat} (h :
    Canon d) (hf : ∀ x0 d x2, Canon d → Canon (f x0 d x2).dev) : Canon (qIssue i key f fine d) :=
  .ite h (.ite h.takeDue (.ite h.fault (.ite h.serviceAt.fault (.ite h ((hf _ _ _
    h.serviceAt.sramEcc.setThr).retire)))))

theorem loadOff {c : QCtx} {len : Nat} (h : Canon d) : Canon (d.loadOff c len).1 := .pair h.setBit
theorem noteTry {n t a : Nat} {old : Dev} (h : Canon d) : Canon (d.noteTry n t a old) := .ite h.holdIn h

theorem qLoad {c : QCtx} {a len : Nat} (h : Canon d) : Canon (qLoad c d a len).1 := by
  unfold Machine.qLoad
  extract_lets +onlyGivenNames sram space
  have h1 : ∀ x0, Canon (sram x0).1 := by
    intro _
    unfold sram
    extract_lets +onlyGivenNames d1
    have h1 : Canon d1 := h.serviceAt.sramEcc
    exact .iteFst h1 h1
  have h2 : ∀ x0, Canon (space x0).1 := by
    intro _
    unfold space
    extract_lets +onlyGivenNames r2 e3
    have h2 : Canon r2.1 := h.spaceRead
    have h3 : Canon e3 := h2.denied
    exact .iteFst h3 (.iteFst h3.loadOff (.iteFst h3 (.pair h3.noteTry)))
  split; exacts [h, h1 .., h1 .., .iteFst (h1 ..) h.droveGone.loadOff, h2 .., h2 ..]

theorem qStore {c : QCtx} {a : Nat} {l : List Byte} (h : Canon d) : Canon (qStore c d a l).1 := by
  unfold Machine.qStore
  extract_lets +onlyGivenNames space
  have h1 : ∀ x0, Canon (space x0).1 := fun _ => .pair h.spaceWrite.denied
  split
  · exact h
  · exact h
  · exact .pair h.serviceAt.setBytes
  · exact .iteFst (.pair h.serviceAt.setBytes) (.pair h.droveGone)
  · exact h1 ..
  · exact h1 ..

theorem qLoadOp {c : QCtx} {x : Thr} {a len : Nat} {f : Thr → List Byte → Thr} (h : Canon d) :
    Canon (qLoadOp c d x a len f).dev := by
  unfold Machine.qLoadOp
  refine .iteAct h ?_
  refine .iteAct h ?_
  refine .iteAct h ?_
  extract_lets +onlyGivenNames r1
  have h1 : Canon r1.1 := h.qLoad
  exact .iteAct h1 h1

theorem qStoreOp {c : QCtx} {x : Thr} {a : Nat} {l : List Byte} (h : Canon d) : Canon (qStoreOp c d x a l).dev := by
  unfold Machine.qStoreOp
  refine .iteAct h ?_
  refine .iteAct h ?_
  refine .iteAct h ?_
  extract_lets +onlyGivenNames r1
  have h1 : Canon r1.1 := h.qStore
  exact .iteAct h1 h1

theorem qAtomOp {c : QCtx} {x : Thr} {a len : Nat} {f : Dev → Thr → List Byte → Dev × Thr × List Byte} (h :
    Canon d) (hf : ∀ d x1 x2, Canon d → Canon (f d x1 x2).1) : Canon (qAtomOp c d x a len f).dev := by
  unfold Machine.qAtomOp
  refine .iteAct h ?_
  split
  · refine .iteAct h ?_
    extract_lets +onlyGivenNames r1
    have h1 : Canon r1.1 := h.qLoad
    exact .iteAct h1 (.actGo ((hf _ _ _ h1).qStore))
  · refine .iteAct h ?_
    extract_lets +onlyGivenNames r1
    have h1 : Canon r1.1 := h.qLoad
    exact .iteAct h1 (.actGo ((hf _ _ _ h1).qStore))
  · exact h

end Sys2Proof.Machine.Canon
end

section
/-! SUPPORT. What keeps a canonical device canonical: scalar instructions (chapter 07). -/

namespace Sys2Proof.Machine.Canon

variable {d : Dev}

theorem qAlu {f : Nat → Nat → Nat} {c : QCtx} {x : Thr} (h : Canon d) : Canon (qAlu f c d x).dev := h
theorem qDiv {f : Nat → Nat → Nat} {c : QCtx} {x : Thr} (h : Canon d) : Canon (qDiv f c d x).dev := .iteAct h h.qAlu
theorem qImm {f : Nat → Int → Nat} {c : QCtx} {x : Thr} (h : Canon d) : Canon (qImm f c d x).dev := h
theorem qImmU {f : Nat → Nat → Nat} {c : QCtx} {x : Thr} (h : Canon d) : Canon (qImmU f c d x).dev := h
theorem qAdd {c : QCtx} {x : Thr} (h : Canon d) : Canon (qAdd c d x).dev := h.qAlu
theorem qSub {c : QCtx} {x : Thr} (h : Canon d) : Canon (qSub c d x).dev := h.qAlu
theorem qAnd {c : QCtx} {x : Thr} (h : Canon d) : Canon (qAnd c d x).dev := h.qAlu
theorem qOr {c : QCtx} {x : Thr} (h : Canon d) : Canon (qOr c d x).dev := h.qAlu
theorem qXor {c : QCtx} {x : Thr} (h : Canon d) : Canon (qXor c d x).dev := h.qAlu
theorem qSll {c : QCtx} {x : Thr} (h : Canon d) : Canon (qSll c d x).dev := h.qAlu
theorem qSrl {c : QCtx} {x : Thr} (h : Canon d) : Canon (qSrl c d x).dev := h.qAlu
theorem qSra {c : QCtx} {x : Thr} (h : Canon d) : Canon (qSra c d x).dev := h.qAlu
theorem qClt {c : QCtx} {x : Thr} (h : Canon d) : Canon (qClt c d x).dev := h.qAlu
theorem qCltu {c : QCtx} {x : Thr} (h : Canon d) : Canon (qCltu c d x).dev := h.qAlu
theorem qMin {c : QCtx} {x : Thr} (h : Canon d) : Canon (qMin c d x).dev := h.qAlu
theorem qMax {c : QCtx} {x : Thr} (h : Canon d) : Canon (qMax c d x).dev := h.qAlu
theorem qMinu {c : QCtx} {x : Thr} (h : Canon d) : Canon (qMinu c d x).dev := h.qAlu
theorem qMaxu {c : QCtx} {x : Thr} (h : Canon d) : Canon (qMaxu c d x).dev := h.qAlu
theorem qClz {c : QCtx} {x : Thr} (h : Canon d) : Canon (qClz c d x).dev := h.qAlu
theorem qPopc {c : QCtx} {x : Thr} (h : Canon d) : Canon (qPopc c d x).dev := h.qAlu
theorem qBswapD {c : QCtx} {x : Thr} (h : Canon d) : Canon (qBswapD c d x).dev := h.qAlu
theorem qBswapW {c : QCtx} {x : Thr} (h : Canon d) : Canon (qBswapW c d x).dev := h.qAlu
theorem qBswapH {c : QCtx} {x : Thr} (h : Canon d) : Canon (qBswapH c d x).dev := h.qAlu
theorem qField {f : Nat → Nat → Nat → Nat → Nat} {c : QCtx} {x : Thr} (h : Canon d) : Canon (qField f c d x).dev :=
  .iteAct h.illegal h
theorem qBfx {c : QCtx} {x : Thr} (h : Canon d) : Canon (qBfx c d x).dev := h.qField
theorem qBfi {c : QCtx} {x : Thr} (h : Canon d) : Canon (qBfi c d x).dev := h.qField
theorem qMul {c : QCtx} {x : Thr} (h : Canon d) : Canon (qMul c d x).dev := h.qAlu
theorem qMulh {c : QCtx} {x : Thr} (h : Canon d) : Canon (qMulh c d x).dev := h.qAlu
theorem qMulhu {c : QCtx} {x : Thr} (h : Canon d) : Canon (qMulhu c d x).dev := h.qAlu
theorem qDivs {c : QCtx} {x : Thr} (h : Canon d) : Canon (qDivs c d x).dev := h.qDiv
theorem qDivu {c : QCtx} {x : Thr} (h : Canon d) : Canon (qDivu c d x).dev := h.qDiv
theorem qRem {c : QCtx} {x : Thr} (h : Canon d) : Canon (qRem c d x).dev := h.qDiv
theorem qRemu {c : QCtx} {x : Thr} (h : Canon d) : Canon (qRemu c d x).dev := h.qDiv
theorem qAddi {c : QCtx} {x : Thr} (h : Canon d) : Canon (qAddi c d x).dev := h.qImm
theorem qAndi {c : QCtx} {x : Thr} (h : Canon d) : Canon (qAndi c d x).dev := h.qImmU
theorem qOri {c : QCtx} {x : Thr} (h : Canon d) : Canon (qOri c d x).dev := h.qImmU
theorem qXori {c : QCtx} {x : Thr} (h : Canon d) : Canon (qXori c d x).dev := h.qImmU
theorem qSlli {c : QCtx} {x : Thr} (h : Canon d) : Canon (qSlli c d x).dev := h.qImmU
theorem qSrli {c : QCtx} {x : Thr} (h : Canon d) : Canon (qSrli c d x).dev := h.qImmU
theorem qSrai {c : QCtx} {x : Thr} (h : Canon d) : Canon (qSrai c d x).dev := h.qImmU
theorem qClti {c : QCtx} {x : Thr} (h : Canon d) : Canon (qClti c d x).dev := h.qImm
theorem qCltui {c : QCtx} {x : Thr} (h : Canon d) : Canon (qCltui c d x).dev := h.qImm
theorem qSetk {c : QCtx} {x : Thr} (h : Canon d) : Canon (qSetk c d x).dev := h
theorem qShk {c : QCtx} {x : Thr} (h : Canon d) : Canon (qShk c d x).dev := h
theorem qBr {p : Nat → Nat → Bool} {c : QCtx} {x : Thr} (h : Canon d) : Canon (qBr p c d x).dev :=
  .iteAct h (.iteAct h h)
theorem qBeq {c : QCtx} {x : Thr} (h : Canon d) : Canon (qBeq c d x).dev := h.qBr
theorem qBne {c : QCtx} {x : Thr} (h : Canon d) : Canon (qBne c d x).dev := h.qBr
theorem qBlt {c : QCtx} {x : Thr} (h : Canon d) : Canon (qBlt c d x).dev := h.qBr
theorem qBge {c : QCtx} {x : Thr} (h : Canon d) : Canon (qBge c d x).dev := h.qBr
theorem qBltu {c : QCtx} {x : Thr} (h : Canon d) : Canon (qBltu c d x).dev := h.qBr
theorem qBgeu {c : QCtx} {x : Thr} (h : Canon d) : Canon (qBgeu c d x).dev := h.qBr
theorem qLink {target : QCtx → Thr → Nat} {c : QCtx} {x : Thr} (h : Canon d) : Canon (qLink target c d x).dev :=
  .iteAct h h
theorem qLnk {c : QCtx} {x : Thr} (h : Canon d) : Canon (qLnk c d x).dev := h.qLink
theorem qLnkr {c : QCtx} {x : Thr} (h : Canon d) : Canon (qLnkr c d x).dev := h.qLink
theorem qLd {len : Nat} {signed : Bool} {c : QCtx} {x : Thr} (h : Canon d) : Canon (qLd len signed c d x).dev :=
  h.qLoadOp
theorem qSt {len : Nat} {c : QCtx} {x : Thr} (h : Canon d) : Canon (qSt len c d x).dev := h.qStoreOp
theorem qLb {c : QCtx} {x : Thr} (h : Canon d) : Canon (qLb c d x).dev := h.qLd
theorem qLbu {c : QCtx} {x : Thr} (h : Canon d) : Canon (qLbu c d x).dev := h.qLd
theorem qLh {c : QCtx} {x : Thr} (h : Canon d) : Canon (qLh c d x).dev := h.qLd
theorem qLhu {c : QCtx} {x : Thr} (h : Canon d) : Canon (qLhu c d x).dev := h.qLd
theorem qLw {c : QCtx} {x : Thr} (h : Canon d) : Canon (qLw c d x).dev := h.qLd
theorem qLwu {c : QCtx} {x : Thr} (h : Canon d) : Canon (qLwu c d x).dev := h.qLd
theorem qLd8 {c : QCtx} {x : Thr} (h : Canon d) : Canon (qLd8 c d x).dev := h.qLd
theorem qSb {c : QCtx} {x : Thr} (h : Canon d) : Canon (qSb c d x).dev := h.qSt
theorem qSh {c : QCtx} {x : Thr} (h : Canon d) : Canon (qSh c d x).dev := h.qSt
theorem qSw {c : QCtx} {x : Thr} (h : Canon d) : Canon (qSw c d x).dev := h.qSt
theorem qSd {c : QCtx} {x : Thr} (h : Canon d) : Canon (qSd c d x).dev := h.qSt

theorem qAtom {len : Nat} {f : Nat → Nat → Nat → Nat} {c : QCtx} {x : Thr} (h : Canon d) :
    Canon (qAtom len f c d x).dev := by
  unfold Machine.qAtom
  exact h.qAtomOp fun _ _ _ h1 => .pair h1

theorem qAaddW {c : QCtx} {x : Thr} (h : Canon d) : Canon (qAaddW c d x).dev := h.qAtom
theorem qAaddD {c : QCtx} {x : Thr} (h : Canon d) : Canon (qAaddD c d x).dev := h.qAtom
theorem qAswpW {c : QCtx} {x : Thr} (h : Canon d) : Canon (qAswpW c d x).dev := h.qAtom
theorem qAswpD {c : QCtx} {x : Thr} (h : Canon d) : Canon (qAswpD c d x).dev := h.qAtom
theorem qAcasW {c : QCtx} {x : Thr} (h : Canon d) : Canon (qAcasW c d x).dev := h.qAtom
theorem qAcasD {c : QCtx} {x : Thr} (h : Canon d) : Canon (qAcasD c d x).dev := h.qAtom
theorem qStamp {c : QCtx} {x : Thr} (h : Canon d) : Canon (qStamp c d x).dev := .iteAct h.illegal h
theorem qStampLate {c : QCtx} {x : Thr} (h : Canon d) : Canon (qStampLate c d x).dev := .actGo h.clearBit
theorem qWaitu {c : QCtx} {x : Thr} (h : Canon d) : Canon (qWaitu c d x).dev :=
  .iteAct h.illegal (.iteAct (.actGo h.setBit) h)
theorem qTadd {c : QCtx} {x : Thr} (h : Canon d) : Canon (qTadd c d x).dev := .iteAct h.illegal h
theorem qTcmp {c : QCtx} {x : Thr} (h : Canon d) : Canon (qTcmp c d x).dev := .iteAct h.illegal h
theorem qTidx {up : Bool} {c : QCtx} {x : Thr} (h : Canon d) : Canon (qTidx up c d x).dev := .iteAct h.illegal h
theorem qTidxC {c : QCtx} {x : Thr} (h : Canon d) : Canon (qTidxC c d x).dev := h.qTidx
theorem qTidxF {c : QCtx} {x : Thr} (h : Canon d) : Canon (qTidxF c d x).dev := h.qTidx
theorem qTat {c : QCtx} {x : Thr} (h : Canon d) : Canon (qTat c d x).dev := .iteAct h.illegal h
theorem qSemAcq {c : QCtx} {x : Thr} (h : Canon d) : Canon (qSemAcq c d x).dev := .iteAct h h

theorem qSemTry {c : QCtx} {x : Thr} (h : Canon d) : Canon (qSemTry c d x).dev := by
  unfold Machine.qSemTry
  refine .iteAct h ?_
  extract_lets +onlyGivenNames r1
  have h1 : Canon r1.1 := h.semTry
  exact .actGo (.ite h1.holdIn h1)

theorem qSemRel {c : QCtx} {x : Thr} (h : Canon d) : Canon (qSemRel c d x).dev := .iteAct h.illegal (.actGo h.semRel)
theorem qFence {c : QCtx} {x : Thr} (h : Canon d) : Canon (qFence c d x).dev := h
theorem qWdogKick {c : QCtx} {x : Thr} (h : Canon d) : Canon (qWdogKick c d x).dev := h
theorem qEvtRaise {c : QCtx} {x : Thr} (h : Canon d) : Canon (qEvtRaise c d x).dev := .actGo h.drvCause
theorem qTret {c : QCtx} {x : Thr} (h : Canon d) : Canon (qTret c d x).dev := .iteAct h.illegal (.actJump h.wr)
theorem qBrk {c : QCtx} {x : Thr} (h : Canon d) : Canon (qBrk c d x).dev := h
theorem qRdid {c : QCtx} {x : Thr} (h : Canon d) : Canon (qRdid c d x).dev := h
theorem qRdcyc {c : QCtx} {x : Thr} (h : Canon d) : Canon (qRdcyc c d x).dev := .actGo h.draw

end Sys2Proof.Machine.Canon
end

section
/-! SUPPORT. What keeps a canonical device canonical: vector, mask, media and CRC instructions (chapter 07). -/

namespace Sys2Proof.Machine.Canon

variable {d : Dev}

theorem qLanes {f : Nat → Nat → Nat → Nat → Nat} {c : QCtx} {x : Thr} (h : Canon d) : Canon (qLanes f c d x).dev := h
theorem qVadd {c : QCtx} {x : Thr} (h : Canon d) : Canon (qVadd c d x).dev := h.qLanes
theorem qVsub {c : QCtx} {x : Thr} (h : Canon d) : Canon (qVsub c d x).dev := h.qLanes
theorem qVadds {c : QCtx} {x : Thr} (h : Canon d) : Canon (qVadds c d x).dev := h.qLanes
theorem qVsubs {c : QCtx} {x : Thr} (h : Canon d) : Canon (qVsubs c d x).dev := h.qLanes
theorem qVand {c : QCtx} {x : Thr} (h : Canon d) : Canon (qVand c d x).dev := h.qLanes
theorem qVor {c : QCtx} {x : Thr} (h : Canon d) : Canon (qVor c d x).dev := h.qLanes
theorem qVxor {c : QCtx} {x : Thr} (h : Canon d) : Canon (qVxor c d x).dev := h.qLanes
theorem qVsll {c : QCtx} {x : Thr} (h : Canon d) : Canon (qVsll c d x).dev := h.qLanes
theorem qVsrl {c : QCtx} {x : Thr} (h : Canon d) : Canon (qVsrl c d x).dev := h.qLanes
theorem qVsra {c : QCtx} {x : Thr} (h : Canon d) : Canon (qVsra c d x).dev := h.qLanes
theorem qVmin {c : QCtx} {x : Thr} (h : Canon d) : Canon (qVmin c d x).dev := h.qLanes
theorem qVmax {c : QCtx} {x : Thr} (h : Canon d) : Canon (qVmax c d x).dev := h.qLanes
theorem qVminu {c : QCtx} {x : Thr} (h : Canon d) : Canon (qVminu c d x).dev := h.qLanes
theorem qVmaxu {c : QCtx} {x : Thr} (h : Canon d) : Canon (qVmaxu c d x).dev := h.qLanes
theorem qVceq {c : QCtx} {x : Thr} (h : Canon d) : Canon (qVceq c d x).dev := h.qLanes
theorem qVclt {c : QCtx} {x : Thr} (h : Canon d) : Canon (qVclt c d x).dev := h.qLanes
theorem qVcltu {c : QCtx} {x : Thr} (h : Canon d) : Canon (qVcltu c d x).dev := h.qLanes
theorem qVbsw {c : QCtx} {x : Thr} (h : Canon d) : Canon (qVbsw c d x).dev := h.qLanes
theorem qVmul {c : QCtx} {x : Thr} (h : Canon d) : Canon (qVmul c d x).dev := h.qLanes
theorem qVmulh {c : QCtx} {x : Thr} (h : Canon d) : Canon (qVmulh c d x).dev := h.qLanes
theorem qVmulhu {c : QCtx} {x : Thr} (h : Canon d) : Canon (qVmulhu c d x).dev := h.qLanes
theorem qVmac {c : QCtx} {x : Thr} (h : Canon d) : Canon (qVmac c d x).dev := h.qLanes
theorem qVspl {e : Nat} {c : QCtx} {x : Thr} (h : Canon d) : Canon (qVspl e c d x).dev := h
theorem qVsplB {c : QCtx} {x : Thr} (h : Canon d) : Canon (qVsplB c d x).dev := h.qVspl
theorem qVsplH {c : QCtx} {x : Thr} (h : Canon d) : Canon (qVsplH c d x).dev := h.qVspl
theorem qVsplW {c : QCtx} {x : Thr} (h : Canon d) : Canon (qVsplW c d x).dev := h.qVspl
theorem qVsplD {c : QCtx} {x : Thr} (h : Canon d) : Canon (qVsplD c d x).dev := h.qVspl
theorem qVext {c : QCtx} {x : Thr} (h : Canon d) : Canon (qVext c d x).dev := h
theorem qVins {c : QCtx} {x : Thr} (h : Canon d) : Canon (qVins c d x).dev := h
theorem qVmov {c : QCtx} {x : Thr} (h : Canon d) : Canon (qVmov c d x).dev := h
theorem qVxfw {c : QCtx} {x : Thr} (h : Canon d) : Canon (qVxfw c d x).dev := h
theorem qMtm {c : QCtx} {x : Thr} (h : Canon d) : Canon (qMtm c d x).dev := h
theorem qMfm {c : QCtx} {x : Thr} (h : Canon d) : Canon (qMfm c d x).dev := h
theorem qMlen {c : QCtx} {x : Thr} (h : Canon d) : Canon (qMlen c d x).dev := h
theorem qVld {c : QCtx} {x : Thr} (h : Canon d) : Canon (qVld c d x).dev := h.qLoadOp
theorem qVst {c : QCtx} {x : Thr} (h : Canon d) : Canon (qVst c d x).dev := h.qStoreOp
theorem vaput {n a mask old new : Nat} (h : Canon d) : Canon (d.vaput n a mask old new).1 := .pair (.ite h.medCount h)
theorem qVaadd {c : QCtx} {x : Thr} (h : Canon d) : Canon (qVaadd c d x).dev := h.qAtomOp (fun _ _ _ h1 => h1)
theorem qVaput {c : QCtx} {x : Thr} (h : Canon d) : Canon (qVaput c d x).dev :=
  h.qAtomOp (fun _ _ _ h1 => .pair h1.vaput)

theorem cribLoad {c : QCtx} {a len : Nat} (h : Canon d) : Canon (cribLoad c d a len).1 := by
  unfold Machine.cribLoad
  extract_lets +onlyGivenNames _ d1
  have h1 : Canon d1 := h.serviceRange.sramEcc
  exact .iteFst h1 h1

theorem qUnpkP10 {c : QCtx} {x : Thr} (h : Canon d) : Canon (qUnpkP10 c d x).dev := by
  unfold Machine.qUnpkP10
  refine .iteAct h ?_
  extract_lets +onlyGivenNames r1
  have h1 : Canon r1.1 := h.cribLoad
  exact .iteAct h1 h1

theorem qPkP10 {c : QCtx} {x : Thr} (h : Canon d) : Canon (qPkP10 c d x).dev :=
  .iteAct h (.actGo h.serviceRange.setBytes)
theorem qAdcfg {c : QCtx} {x : Thr} (h : Canon d) : Canon (qAdcfg c d x).dev :=
  .iteAct h.illegal (.iteAct h (.iteAct h (.iteAct h h)))

theorem deintSamples {fuel n : Nat} {y : Deint} {l : List Byte} (h : Canon d) :
    Canon (deintSamples fuel n y l d).1 := by
  induction fuel generalizing d y l with
  | zero => exact h
  | succ fuel ih =>
    unfold Machine.deintSamples
    exact .iteFst h (ih h.serviceAt.store)

theorem qAdeint {c : QCtx} {x : Thr} (h : Canon d) : Canon (qAdeint c d x).dev := by
  unfold Machine.qAdeint
  extract_lets +onlyGivenNames _ _ r1
  have h1 : Canon r1.1 := .iteFst h h.cribLoad
  exact .iteAct h1 (.actGo h1.deintSamples)

theorem qAmix {c : QCtx} {x : Thr} (h : Canon d) : Canon (qAmix c d x).dev := by
  unfold Machine.qAmix
  refine .iteAct h ?_
  refine .iteAct h ?_
  extract_lets +onlyGivenNames r1
  have h1 : Canon r1.1 := h.cribLoad
  exact .iteAct h1 h1

theorem qAmov {c : QCtx} {x : Thr} (h : Canon d) : Canon (qAmov c d x).dev := by
  unfold Machine.qAmov
  refine .iteAct h ?_
  refine .iteAct h ?_
  refine .iteAct h ?_
  refine .iteAct h ?_
  refine .iteAct h ?_
  extract_lets +onlyGivenNames src1
  have h1 : Canon src1.1 := h.cribLoad
  exact .iteAct h1 (h1.qAtomOp (fun _ _ _ h2 => .pair h2.vaput))

theorem qCrcC {c : QCtx} {x : Thr} (h : Canon d) : Canon (qCrcC c d x).dev := h

end Sys2Proof.Machine.Canon
end

section
/-! SUPPORT. What keeps a canonical device canonical: packet, channel and DMA instructions (chapter 07). -/

namespace Sys2Proof.Machine.Canon

variable {d : Dev}

theorem qPktNext {c : QCtx} {x : Thr} (h : Canon d) : Canon (qPktNext c d x).dev := by
  unfold Machine.qPktNext
  split
  next e => exact .actGo (h.nextWindow e)
  next => exact h

theorem qPktNextNb {c : QCtx} {x : Thr} (h : Canon d) : Canon (qPktNextNb c d x).dev := by
  unfold Machine.qPktNextNb
  split
  next e => exact .actGo (h.nextWindow e)
  next => exact h

theorem qPktFree {c : QCtx} {x : Thr} (h : Canon d) : Canon (qPktFree c d x).dev := by
  unfold Machine.qPktFree
  split
  next e => exact .actGo (h.freeWindow e)
  next => exact h

theorem qPktSend {c : QCtx} {x : Thr} (h : Canon d) : Canon (qPktSend c d x).dev :=
  .iteAct h.illegal (.iteAct h (.iteAct h (.actGo h.setSendQ)))
theorem qPktSqflush {c : QCtx} {x : Thr} (h : Canon d) : Canon (qPktSqflush c d x).dev :=
  .iteAct h (.iteAct h (.actGo h.serviceRange.setBytes.flushQueue))

theorem qPktTsrd {c : QCtx} {x : Thr} (h : Canon d) : Canon (qPktTsrd c d x).dev := by
  unfold Machine.qPktTsrd
  extract_lets +onlyGivenNames _
  split; exacts [h, .actGo h.setDrover]

theorem chanRead2 {n i sid : Nat} (h : Canon d) : Canon (d.chanRead n i sid).1 := by
  unfold Dev.chanRead
  extract_lets +onlyGivenNames d1 _
  have h1 : Canon d1 := h.rteCount.drvCount
  split
  refine .iteFst (.pair h1.rteCount.routeEcc) ?_
  extract_lets +onlyGivenNames d2 _ _ d3
  have h2 : Canon d2 := h1.foldl fun _ _ h2 => h2.loadLine
  have h3 : Canon d3 := .ite h2.rteCount h2
  exact h3

theorem qChrd {c : QCtx} {x : Thr} (h : Canon d) : Canon (qChrd c d x).dev :=
  .iteAct h.illegal (.iteAct h (.actGo h.chanRead2))
theorem qDmaGo {c : QCtx} {x : Thr} (h : Canon d) : Canon (qDmaGo c d x).dev :=
  .iteAct h.illegal (.iteAct h (.iteAct h (.iteAct h (.iteAct h (.iteAct h (.actGo h.setDma))))))
theorem dmaReport {poll : Bool} {c : QCtx} {x : Thr} (h : Canon d) : Canon (dmaReport poll c d x).dev :=
  .iteAct (.actFault h.setDma) (.actGo (.ite h.setDma h))
theorem qDmaWait {c : QCtx} {x : Thr} (h : Canon d) : Canon (qDmaWait c d x).dev := .iteAct h.dmaReport h
theorem qDmaPoll {c : QCtx} {x : Thr} (h : Canon d) : Canon (qDmaPoll c d x).dev := h.dmaReport

/-- Every operation a blocked thread completes. -/
theorem longOp {key : Nat} {op : QOp} (e : longOp key = some op) {c : QCtx} {x : Thr} (h : Canon d) :
    Canon (op c d x).dev := by
  obtain ⟨⟨k, f⟩, hf, rfl⟩ := Option.map_eq_some_iff.mp e
  have hm := List.mem_of_find?_eq_some hf
  simp only [List.mem_cons, Prod.mk.injEq, List.not_mem_nil, or_false] at hm
  rcases hm with ⟨-, rfl⟩ | ⟨-, rfl⟩ | ⟨-, rfl⟩ | ⟨-, rfl⟩ | ⟨-, rfl⟩ | ⟨-, rfl⟩ | ⟨-, rfl⟩ | ⟨-, rfl⟩ | ⟨-, rfl⟩ |
    ⟨-, rfl⟩ | ⟨-, rfl⟩ | ⟨-, rfl⟩ | ⟨-, rfl⟩ | ⟨-, rfl⟩ | ⟨-, rfl⟩ | ⟨-, rfl⟩ | ⟨-, rfl⟩ | ⟨-, rfl⟩ | ⟨-, rfl⟩ |
    ⟨-, rfl⟩ | ⟨-, rfl⟩ | ⟨-, rfl⟩ | ⟨-, rfl⟩ | ⟨-, rfl⟩ | ⟨-, rfl⟩ | ⟨-, rfl⟩ | ⟨-, rfl⟩
  exacts [h.qLb, h.qLbu, h.qLh, h.qLhu, h.qLw, h.qLwu, h.qLd8, h.qSb, h.qSh, h.qSw, h.qSd, h.qAaddW, h.qAaddD,
    h.qAswpW, h.qAswpD, h.qAcasW, h.qAcasD, h.qVld, h.qVst, h.qVaadd, h.qVaput, h.qAmov, h.qPktNext, h.qPktSend,
    h.qChrd, h.qDmaGo, h.qDmaWait]

theorem longDone {n t ecc : Nat} {errs : List (Nat × Nat)} {f : NvFind} (h : Canon d) :
    Canon (longDone n t ecc errs f d) := by
  unfold Machine.longDone
  extract_lets +onlyGivenNames _
  split
  · exact h
  · split
    · exact h
    next e =>
      obtain ⟨_, _, e⟩ := Option.bind_eq_some_iff.mp e
      exact .ite h (.retire (.longOp e h))

theorem comparatorFire {n t fine : Nat} (h : Canon d) : Canon (comparatorFire n t fine d) := by
  unfold Machine.comparatorFire
  extract_lets +onlyGivenNames _
  split; exacts [h, .ite h (.ite h.setThr (.ite h.threadGo h))]

end Sys2Proof.Machine.Canon
end

section
/-! SUPPORT. Every command keeps a canonical device canonical: the dispatch, arm by arm, and the step (O58). -/

namespace Sys2Proof.Machine

/-- The device an outcome goes on with is canonical. -/
def Keeps (o : Host.Outcome State Fault Refusal) : Prop := ∀ t, o = .next t → Canon t.dev

namespace Keeps

variable {s : State} {f : Dev → Dev}

theorem runAlways (h : Canon s.dev) (hf : ∀ {d}, Canon d → Canon (f d)) : Keeps (runAlways s f) := by
  rintro _ ⟨⟩
  exact hf h

theorem run (h : Canon s.dev) (hf : ∀ {d}, Canon d → Canon (f d)) : Keeps (run s f) :=
  .runAlways h fun hd => .ite hd (hf hd)

theorem runOn {i : Nat} {q : Req} (h : Canon s.dev) (hf : ∀ {d}, Canon d → Canon (f d)) : Keeps (runOn i q s f) :=
  .run h fun hd => .ite hd.complete (hf hd)

theorem runSac (h : Canon s.dev) (hf : ∀ {d}, Canon d → Canon (f d)) : Keeps (runSac s f) :=
  .run h fun hd => .ite hd (hf hd)

theorem issue {i : Issue} {key fine : Nat} {q : QOp} (h : Canon s.dev)
    (hq : ∀ {c d x}, Canon d → Canon (q c d x).dev) : Keeps (issue i key q s fine) :=
  .run h (·.qIssue fun _ _ _ hd => hq hd)

end Keeps

/-- One arm for each constructor of `Instr`, each by the lemma about the function it runs. -/
theorem exec_keeps {s : State} (h : Canon s.dev) (i : Instr) : Keeps (exec i s) :=
  match i with
  | .registerWrite .. => .run h fun hd => by extract_lets; split; exacts [hd.regWrite.complete, hd.regWrite]
  | .stileTimeout .. => .run h (·.stileTimeout)
  | .synthesiserStep .. => .run h (·.synthStep)
  | .markerEdge => .run h (·.markerEdge)
  | .timSetGo .. => .run h (·.timSetGo.complete)
  | .timStep .. => .run h (·.timStep.complete)
  | .timFreqAdjWrite .. => .run h (·.writeFreqAdj.complete)
  | .comparatorFire .. => .run h (·.comparatorFire)
  | .servoSrcWrite .. => .run h (·.writeServoSrc.complete)
  | .servoSample .. => .run h (·.servoSample)
  | .announceReceiptTimeout .. => .run h (·.announceTimeout)
  | .ppsSourceLost => .run h (·.ppsLost)
  | .holdoverSpec => .run h (·.holdoverSpec)
  | .ptpMessageRx .. => .run h (·.ptpMessage)
  | .ptpSyncTx .. => .run h (·.ptpSyncTx)
  | .smpteTlvTx .. => .run h (·.smpteTx)
  | .syncInEdge .. => .run h (·.syncInEdge)
  | .sinTsRead .. => .run h (·.sinPop.complete)
  | .syncOutEdge .. => .run h (·.syncOutEdge)
  | .soutCommit .. => .run h (·.soutCommit.complete)
  | .soutCommitApply .. => .run h (·.soutApply)
  | .pllLock => .run h (·.pllLock)
  | .timeTreeCalDone .. => .run h (·.treeCalDone)
  | .portTsCalDone .. => .run h (·.portTsCal)
  | .backgroundCal .. => .run h (·.backgroundCal)
  | .prtCfgWrite .. => .runOn h (·.writePrtCfg.complete)
  | .prtBufLimWrite .. => .runOn h (·.writeBufLim.complete)
  | .serdesCalDone => .run h (·.serdesCalDone)
  | .cdrLock .. => .run h (·.cdrLock)
  | .fecLock .. => .run h (·.fecLock)
  | .pcsLock .. => .run h (·.pcsLock)
  | .pcsLockLoss .. => .run h (·.pcsLockLoss)
  | .faultChange .. => .run h (·.faultChange)
  | .fecCodeword .. => .run h (·.fecCodeword)
  | .frameRx .. => .run h (·.frameRx)
  | .ingressCellAlloc .. => .run h (·.cellAlloc)
  | .pfcRefresh .. => .run h (·.pfcRefresh)
  | .pfcFrameRx .. => .run h (·.pfcFrameRx)
  | .pfcPauseExpire .. => .run h (·.pfcExpire)
  | .egressQueueEnter .. => .run h (·.egEnter)
  | .egressQueueWaitAdmit .. => .run h (·.egAdmit)
  | .egressStart .. => .run h (·.egressStart)
  | .egressStop .. => .run h (·.halterAct)
  | .egressRelease .. => .run h (·.halterAct)
  | .ingressDrop .. => .run h (·.halterAct)
  | .ingressRelease .. => .run h (·.halterAct)
  | .streamStop .. => .run h (·.halterAct)
  | .streamRelease .. => .run h (·.halterAct)
  | .droverHalt .. => .run h (·.halterAct)
  | .halterSalvoCancel .. => .run h (·.halterAct)
  | .haltStateClear .. => .runOn h (·.haltStateClear.complete)
  | .frameRoute .. => .run h (·.frameRoute)
  | .missLookupDone .. => .run h (·.missLookupDone)
  | .rteCfgWrite .. => .runOn h (·.writeRteCfg.complete)
  | .routeTableClear .. => .runOn h (·.tableClear.complete)
  | .routeClearDone => .run h (·.wr)
  | .agerVisit .. => .run h (·.agerVisit)
  | .learnLogRead .. => .runOn h (·.readLearnLog.complete)
  | .prewarmStep .. => .run h (·.prewarmStep)
  | .salvoCommit .. => .run h (·.salvoCommit)
  | .salvoSwap .. => .run h (·.salvoSwap)
  | .salvoRetire .. => .run h (·.salvoRetire)
  | .salvoRetireDone .. => .run h (·.salvoRetireDone)
  | .salvoCancelDone .. => .run h (·.salvoCancelDone)
  | .streamStall .. => .run h (·.streamStall)
  | .mergeLegTimeout .. => .run h (·.legTimeout)
  | .storeReleaseDelay .. => .run h (·.storeReleaseDelay)
  | .storeSyncBoundary .. => .run h (·.storeSync)
  | .storeReleaseDone .. => .run h (·.storeReleaseDone)
  | .asmPacketClose .. => .run h (·.asmClose)
  | .egressStreamEnqueue .. => .run h (·.egressEnqueue)
  | .txStarved .. => .run h (·.txStarved)
  | .rosterSlot .. => .run h (·.rosterSlot)
  | .rosterCommit .. => .runOn h (·.rosterCommit.complete)
  | .rosterSwap .. => .run h (·.rosterSwap)
  | .rosterCopyDone .. => .run h (·.rosterCopyDone)
  | .rosterWinWrite .. => .runOn h fun hd => by extract_lets; split; exacts [hd.writeRosterWin.complete, hd.writeRosterWin]
  | .txHaltClear .. => .runOn h fun hd => .complete (.ite hd.streamRelease hd)
  | .ctxRead .. => .runOn h (·.writeCtxCmd.complete)
  | .ctxWrite .. => .runOn h (·.writeCtxCmd.complete)
  | .clrSid .. => .runOn h (·.writeCtxCmd.complete)
  | .ctxCmdDone => .run h (·.wr)
  | .droverFrameRx .. => .run h (·.droverFrameRx)
  | .windowHoldRelease .. => .run h (·.windowHoldRelease)
  | .sendQueueIssue .. => .run h (·.sendIssue)
  | .longOpComplete .. => .run h (·.longDone)
  | .dmaUnitDone .. => .run h (·.dmaUnitDone)
  | .drvWatchdog .. => .run h (·.drvWatchdog)
  | .drvHalt .. => .run h (·.writeDrvCtl.complete)
  | .drvHaltQuiet .. => .run h (·.droverQuiet)
  | .drvResume .. => .run h (·.writeDrvCtl.complete)
  | .drvReset .. => .run h (·.writeDrvCtl.complete)
  | .drvStart .. => .run h (·.writeDrvCtl.complete)
  | .imemFill .. => .run h fun hd => .ite hd.complete (.complete (.startFill (.ite hd hd.wr.wr.wr)))
  | .imemFillDone .. => .run h (·.fillDone)
  | .add .. => .issue h (·.qAdd)
  | .sub .. => .issue h (·.qSub)
  | .and .. => .issue h (·.qAnd)
  | .or .. => .issue h (·.qOr)
  | .xor .. => .issue h (·.qXor)
  | .sll .. => .issue h (·.qSll)
  | .srl .. => .issue h (·.qSrl)
  | .sra .. => .issue h (·.qSra)
  | .clt .. => .issue h (·.qClt)
  | .cltu .. => .issue h (·.qCltu)
  | .min .. => .issue h (·.qMin)
  | .max .. => .issue h (·.qMax)
  | .minu .. => .issue h (·.qMinu)
  | .maxu .. => .issue h (·.qMaxu)
  | .clz .. => .issue h (·.qClz)
  | .popc .. => .issue h (·.qPopc)
  | .bswapD .. => .issue h (·.qBswapD)
  | .bswapW .. => .issue h (·.qBswapW)
  | .bswapH .. => .issue h (·.qBswapH)
  | .bfx .. => .issue h (·.qBfx)
  | .bfi .. => .issue h (·.qBfi)
  | .mul .. => .issue h (·.qMul)
  | .mulh .. => .issue h (·.qMulh)
  | .mulhu .. => .issue h (·.qMulhu)
  | .div .. => .issue h (·.qDivs)
  | .divu .. => .issue h (·.qDivu)
  | .rem .. => .issue h (·.qRem)
  | .remu .. => .issue h (·.qRemu)
  | .addi .. => .issue h (·.qAddi)
  | .andi .. => .issue h (·.qAndi)
  | .ori .. => .issue h (·.qOri)
  | .xori .. => .issue h (·.qXori)
  | .slli .. => .issue h (·.qSlli)
  | .srli .. => .issue h (·.qSrli)
  | .srai .. => .issue h (·.qSrai)
  | .clti .. => .issue h (·.qClti)
  | .cltui .. => .issue h (·.qCltui)
  | .setk .. => .issue h (·.qSetk)
  | .shk .. => .issue h (·.qShk)
  | .beq .. => .issue h (·.qBeq)
  | .bne .. => .issue h (·.qBne)
  | .blt .. => .issue h (·.qBlt)
  | .bge .. => .issue h (·.qBge)
  | .bltu .. => .issue h (·.qBltu)
  | .bgeu .. => .issue h (·.qBgeu)
  | .lnk .. => .issue h (·.qLnk)
  | .lnkr .. => .issue h (·.qLnkr)
  | .lb .. => .issue h (·.qLb)
  | .lbu .. => .issue h (·.qLbu)
  | .lh .. => .issue h (·.qLh)
  | .lhu .. => .issue h (·.qLhu)
  | .lw .. => .issue h (·.qLw)
  | .lwu .. => .issue h (·.qLwu)
  | .ld .. => .issue h (·.qLd8)
  | .sb .. => .issue h (·.qSb)
  | .sh .. => .issue h (·.qSh)
  | .sw .. => .issue h (·.qSw)
  | .sd .. => .issue h (·.qSd)
  | .aaddW .. => .issue h (·.qAaddW)
  | .aaddD .. => .issue h (·.qAaddD)
  | .aswpW .. => .issue h (·.qAswpW)
  | .aswpD .. => .issue h (·.qAswpD)
  | .acasW .. => .issue h (·.qAcasW)
  | .acasD .. => .issue h (·.qAcasD)
  | .vld .. => .issue h (·.qVld)
  | .vst .. => .issue h (·.qVst)
  | .vadd .. => .issue h (·.qVadd)
  | .vsub .. => .issue h (·.qVsub)
  | .vadds .. => .issue h (·.qVadds)
  | .vsubs .. => .issue h (·.qVsubs)
  | .vand .. => .issue h (·.qVand)
  | .vor .. => .issue h (·.qVor)
  | .vxor .. => .issue h (·.qVxor)
  | .vsll .. => .issue h (·.qVsll)
  | .vsrl .. => .issue h (·.qVsrl)
  | .vsra .. => .issue h (·.qVsra)
  | .vmin .. => .issue h (·.qVmin)
  | .vmax .. => .issue h (·.qVmax)
  | .vminu .. => .issue h (·.qVminu)
  | .vmaxu .. => .issue h (·.qVmaxu)
  | .vceq .. => .issue h (·.qVceq)
  | .vclt .. => .issue h (·.qVclt)
  | .vcltu .. => .issue h (·.qVcltu)
  | .vbsw .. => .issue h (·.qVbsw)
  | .vmul .. => .issue h (·.qVmul)
  | .vmulh .. => .issue h (·.qVmulh)
  | .vmulhu .. => .issue h (·.qVmulhu)
  | .vmac .. => .issue h (·.qVmac)
  | .vsplB .. => .issue h (·.qVsplB)
  | .vsplH .. => .issue h (·.qVsplH)
  | .vsplW .. => .issue h (·.qVsplW)
  | .vsplD .. => .issue h (·.qVsplD)
  | .vext .. => .issue h (·.qVext)
  | .vins .. => .issue h (·.qVins)
  | .vmov .. => .issue h (·.qVmov)
  | .vxfw .. => .issue h (·.qVxfw)
  | .mtm .. => .issue h (·.qMtm)
  | .mfm .. => .issue h (·.qMfm)
  | .mlen .. => .issue h (·.qMlen)
  | .vaadd .. => .issue h (·.qVaadd)
  | .vaput .. => .issue h (·.qVaput)
  | .unpkP10 .. => .issue h (·.qUnpkP10)
  | .pkP10 .. => .issue h (·.qPkP10)
  | .adcfg .. => .issue h (·.qAdcfg)
  | .adeint .. => .issue h (·.qAdeint)
  | .amix .. => .issue h (·.qAmix)
  | .amov .. => .issue h (·.qAmov)
  | .crcC .. => .issue h (·.qCrcC)
  | .pktNext .. => .issue h (·.qPktNext)
  | .pktNextNb .. => .issue h (·.qPktNextNb)
  | .pktFree .. => .issue h (·.qPktFree)
  | .pktSend .. => .issue h (·.qPktSend)
  | .pktSqflush .. => .issue h (·.qPktSqflush)
  | .pktTsrd .. => .issue h (·.qPktTsrd)
  | .chrd .. => .issue h (·.qChrd)
  | .stamp .. => .issue h (·.qStamp)
  | .stampLate .. => .issue h (·.qStampLate)
  | .waitu .. => .issue h (·.qWaitu)
  | .tadd .. => .issue h (·.qTadd)
  | .tcmp .. => .issue h (·.qTcmp)
  | .tidxC .. => .issue h (·.qTidxC)
  | .tidxF .. => .issue h (·.qTidxF)
  | .tat .. => .issue h (·.qTat)
  | .dmaGo .. => .issue h (·.qDmaGo)
  | .dmaWait .. => .issue h (·.qDmaWait)
  | .dmaPoll .. => .issue h (·.qDmaPoll)
  | .semAcq .. => .issue h (·.qSemAcq)
  | .semTry .. => .issue h (·.qSemTry)
  | .semRel .. => .issue h (·.qSemRel)
  | .fence .. => .issue h (·.qFence)
  | .wdogKick .. => .issue h (·.qWdogKick)
  | .evtRaise .. => .issue h (·.qEvtRaise)
  | .tret .. => .issue h (·.qTret)
  | .brk .. => .issue h (·.qBrk)
  | .rdid .. => .issue h (·.qRdid)
  | .rdcyc .. => .issue h (·.qRdcyc)
  | .fabUreset .. => .run h (·.uresetWrite.complete)
  | .uresetRelease .. => .run h (·.uresetRelease)
  | .clkselWrite .. => .run h fun hd => .ite hd.complete (.ite hd.complete hd.wr.complete)
  | .frameEgress .. => .run h (·.frameEgress)
  | .frameDrover .. => .run h (·.frameDrover)
  | .frameFabric .. => .run h (·.frameFabric)
  | .stileMemRead .. => .run h (·.stileMemRead)
  | .stileMemWrite .. => .run h (·.stileMemWrite)
  | .memAdd .. => .run h (·.stileMemAdd)
  | .fabricFrameIn .. => .run h (·.fabFrameIn)
  | .stileResponse .. => .run h (·.stileResponse)
  | .fabMgmtRequest .. => .run h (·.fabMgmt)
  | .fabUserEvent .. => .run h (·.fabUserEvent)
  | .loadDone .. => .run h (·.loadDone)
  | .slaveTimeout => .run h (·.slaveTimeout)
  | .flockDoneHigh => .run h (·.flockHigh)
  | .bellWaitExpire => .run h (·.bellWait)
  | .pacingEdge => .run h (·.pacingEdge)
  | .startupPhase => .run h (·.startupPhase)
  | .reload .. => .run h fun hd => hd.cfgWrite (fun _ he => he.wr) (fun _ he => he.reload)
  | .stage .. => .run h fun hd => hd.cfgWrite (fun _ he => he.wr.wr) (fun _ he => he.prStage)
  | .stageDone .. => .run h (·.stageDone)
  | .apply .. => .run h fun hd => hd.cfgWrite (fun _ he => he.wr.wr.wr.wr) (fun _ he => he.prApply)
  | .applyStart => .run h (·.applyStart)
  | .applyDone .. => .run h (·.applyDone)
  | .releaseSrc .. => .run h fun hd => hd.cfgWrite (fun _ he => he) (fun _ he => he.prRelease)
  | .abort .. => .run h fun hd => hd.cfgWrite (fun _ he => he) (fun _ he => he.prAbort)
  | .clear .. => .run h fun hd => hd.cfgWrite (fun _ he => he) (fun _ he => he.prClear)
  | .frameReadback .. => .run h fun hd => hd.cfgWrite (fun _ he => he) (fun _ he => he.wr.wr.rbFrame)
  | .snap .. => .run h fun hd => hd.cfgWrite (fun _ he => he) (fun _ he => he.wr.wr.rbSnap)
  | .snapRead .. => .run h fun hd => hd.cfgWrite (fun _ he => he) (fun _ he => he.wr.wr.rbSnapRead)
  | .shepherdFrameRead .. => .run h (·.shepherdRead)
  | .shepherdReload .. => .run h (·.shepherdReload)
  | .nvDataRead .. => .run h fun hd => .ite hd.complete (.ite hd.complete (.ite hd hd.nvRead.complete))
  | .nvFetch .. => .run h (·.firmwareFetch)
  | .nvPrefix .. => .run h (·.nvCommand)
  | .program .. => .run h (·.nvCommand)
  | .programData .. => .run h (·.nvCommand)
  | .programConfirm .. => .run h (·.nvCommand)
  | .erase .. => .run h (·.nvCommand)
  | .eraseConfirm .. => .run h (·.nvCommand)
  | .readStatus .. => .run h (·.nvCommand)
  | .margin .. => .run h (·.nvCommand)
  | .reset .. => .run h (·.nvCommand)
  | .seqTimeout .. => .run h (·.seqTimeout)
  | .nvOpEnd .. => .run h (·.nvOpEnd)
  | .wpClr .. => .runOn h (·.writeWpClr.complete)
  | .bootRecordUpdate .. => .runOn h (·.writeBootCmd.complete)
  | .bootRecordDone .. => .run h (·.bootRecordDone)
  | .weakRead .. => .runOn h (·.readWeak.complete)
  | .ddrInit .. => .runOn h (·.ddrInit.complete)
  | .ddrTrainDone .. => .run h (·.ddrTrainDone)
  | .ddrInitDone => .run h (·.ddrInitDone)
  | .ddrRetrain .. => .runOn h (·.ddrRetrain.complete)
  | .ddrAccess .. => .run h (·.ddrAccess)
  | .patrolScrub .. => .run h (·.patrolScrub)
  | .refresh .. => .run h (·.refresh)
  | .selfRefreshEntry .. => .run h (·.selfRefreshEntry)
  | .selfRefreshWake .. => .run h (·.selfRefreshWake)
  | .discoveryRequest .. => .runSac h (·.discovery)
  | .arpRequest .. => .runSac h (·.arpRequest)
  | .neighbourSolicitation .. => .runSac h (·.neighbourSolicitation)
  | .cmReq .. => .runSac h (·.cmReq)
  | .cmRtu .. => .runSac h (·.cmRtu)
  | .cmDreq .. => .runSac h (·.cmDreq)
  | .ackTimeout .. => .runSac h (·.ackTimeout)
  | .nakRx .. => .runSac h (·.nakRx)
  | .sendRx .. => .runSac h (·.sendRx)
  | .directRdmaWrite .. => .runSac h (·.directWrite)
  | .directRdmaRead .. => .runSac h (·.directRead)
  | .cnpRx .. => .runSac h (·.cnpRx)
  | .rateTimer .. => .runSac h (·.rateTimer)
  | .commandDoorbell .. => .runSac h (·.doorbell)
  | .completionDoorbell .. => .runSac h (·.doorbell)
  | .eventDoorbell .. => .runSac h (·.doorbell)
  | .heartbeat .. => .runSac h (·.doorbell)
  | .heartbeatTimeout .. => .runSac h (·.heartbeatTimeout)
  | .descriptorFetch .. => .runSac h (·.descriptorFetch)
  | .nop .. => .runSac h fun hd => hd.execDesc (fun _ _ he => he.completeDesc)
  | .regRead .. => .runSac h (·.regRead_)
  | .regWrite .. => .runSac h (·.regWrite_)
  | .regRmw .. => .runSac h (·.regRmw_)
  | .regPoll .. => .runSac h (·.regPoll_)
  | .regPollRead .. => .runSac h (·.regPollRead)
  | .memRead .. => .runSac h (·.memRead_)
  | .memWrite .. => .runSac h (·.memWrite_)
  | .routeInsert .. => .runSac h (·.routeInsert)
  | .routeModify .. => .runSac h (·.routeModify)
  | .routeDelete .. => .runSac h (·.routeDelete)
  | .routeLookup .. => .runSac h (·.routeLookup)
  | .chanWrite .. => .runSac h (·.chanWrite)
  | .chanRead .. => .runSac h (·.chanRead)
  | .salvoOpen .. => .runSac h (·.salvoOpenDesc)
  | .salvoArm .. => .runSac h (·.salvoArmDesc)
  | .salvoCancel .. => .runSac h (·.salvoCancelDesc)
  | .semAcqDescriptor .. => .runSac h (·.semAcqDesc)
  | .semTryDescriptor .. => .runSac h (·.semTryDesc)
  | .semRelDescriptor .. => .runSac h (·.semRelDesc)
  | .semAcqTimeout .. => .runSac h (·.semAcqTimeout)
  | .waitUntil .. => .runSac h (·.waitUntil)
  | .waitUntilReached .. => .runSac h (·.waitUntilReached)
  | .ringStart .. => .runOn h fun hd => hd.ringCtl (fun _ he => he.ringStart)
  | .ringStop .. => .runOn h fun hd => hd.ringCtl (fun _ he => he.ringStop)
  | .ringReset .. => .runOn h fun hd => hd.ringCtl (fun _ he => he.ringReset)
  | .ringLock .. => .run h (·.ringLock.complete)
  | .semTryRead .. => .runOn h (·.readSemTry.complete)
  | .semRelWrite .. => .runOn h (·.writeSemRel.complete)
  | .semForce .. => .runOn h (·.writeSemForce.complete)
  | .deadlockSearch => .run h (·.deadlockSearch)
  | .eventAccept => .run h (·.eventAccept)
  | .coalesceWindowEnd .. => .run h (·.coalesceEnd)
  | .causeEnableWrite .. => .run h fun hd => .ite hd.regWrite.complete (.ite hd.regWrite.complete (.ite hd.regWrite.complete hd))
  | .powerOnResetRelease .. => .runAlways h (·.powerOn)
  | .porNAssert => .runAlways h (·.enterOff)
  | .railWindowExit .. => .run h (·.railExit)
  | .railCollapse .. => .runAlways h (·.railCollapse)
  | .nvAwake => .run h (·.nvAwake)
  | .startupSelfTest => .run h fun hd => .ite hd ((hd.foldl fun _ _ he => he.beginSlice.fillSlice).showBst)
  | .pwrReqRun .. => .run h (·.writePwrCtl.complete)
  | .pwrReqIdle .. => .run h (·.writePwrCtl.complete)
  | .pwrReqDoze .. => .run h (·.writePwrCtl.complete)
  | .pwrReqHibernate .. => .run h (·.writePwrCtl.complete)
  | .entryContinue => .run h (·.entryContinue)
  | .wakeLatch => .run h (·.wakeLatch)
  | .wakeNLow => .run h (·.fireWake)
  | .alarm => .run h (·.alarm)
  | .exitReloadDone .. => .run h (·.exitReloadDone)
  | .temperatureSample .. => .run h (·.temperatures)
  | .measurementUpdate .. => .run h (·.measure)
  | .hrdRestart .. => .run h (·.writeHrdRestart.complete)
  | .lockstepMismatch => .run h (·.lockstepMismatch)
  | .hrdWatchdogExpire => .run h (·.hrdWatchdog)
  | .hrdWdogKick .. => .run h (·.writeHrdKick.complete)
  | .dvfsDecision => .run h (·.dvfsDecision)
  | .reqMhzWrite .. => .run h (·.writeIslOp.complete)
  | .ddrRefreshDecision .. => .run h (·.refreshDecision)
  | .routeCacheDecision => .run h (·.cacheDecision)
  | .hrdPrewarm .. => .run h (·.startPrewarm.complete)
  | .hrdPrewarmStep => .run h (·.prewarmEntry)
  | .loadBalance .. => .run h (·.loadBalance)
  | .migrationTimeout .. => .run h (·.migrationTimeout)
  | .recalDecision => .run h (·.recalDecision)
  | .tallyStart .. => .runAlways h (·.tallyStart)
  | .romCheck .. => .runAlways h (·.romCheck)
  | .replicaAligned => .runAlways h (·.replicaAligned)
  | .audioTap .. => .runAlways h (·.audioTap)
  | .acctTap => .runAlways h (·.acctTap)
  | .ppsTap => .runAlways h (·.ppsTap)
  | .ack => .runAlways h (·.inboxTake)
  | .replay => .runAlways h (·.inboxTake)
  | .config => .runAlways h (·.inboxTake)
  | .prog => .runAlways h (·.inboxTake)
  | .seal => .runAlways h (·.inboxTake)
  | .unseal => .runAlways h (·.inboxTake)
  | .restartProg => .runAlways h (·.inboxTake)
  | .loudnessBlock .. => .runAlways h (·.loudnessBlock)
  | .loudnessRecord => .runAlways h (·.loudnessRecord)
  | .serviceRecord => .runAlways h (·.serviceRecord)
  | .tieRecord => .runAlways h (·.tieRecord)
  | .recordCommit => .runAlways h (·.recordCommit)
  | .nonce .. => .run h (·.writeLcsCmd.complete)
  | .debug .. => .run h (·.writeLcsCmd.complete)
  | .transition .. => .run h (·.writeLcsCmd.complete)
  | .close .. => .run h (·.writeLcsCmd.complete)
  | .certCheckDone => .run h (·.certCheckDone)
  | .lcReset .. => .run h (·.lcReset)
  | .debugSessionExpire => .run h (·.sessionExpire)
  | .nonceLapse => .run h (·.nonceLapse)
  | .extest .. => .run h (·.setIr.boundary)
  | .samplePreload .. => .run h (·.setIr.boundary)
  | .idcode => .run h (·.setIr.emit)
  | .clamp => .run h (·.setIr.bypass)
  | .highz => .run h (·.setIr.bypass)
  | .lcStatus => .run h (·.setIr.emit)
  | .nonceGet => .run h (·.setIr.nonceGet)
  | .certLoad .. => .run h (·.setIr.certLoad)
  | .lcRequest .. => .run h (·.setIr.lcRequest)
  | .dbgAccess .. => .run h (·.setIr.dbgAccess)
  | .dbgHalt .. => .run h (·.setIr.dbgHalt)
  | .dbgClose => .run h (·.setIr.closeSession)
  | .wake => .run h (·.setIr.fireWake)
  | .scanEnter .. => .run h (·.setIr.scanEnter)
  | .tlyRead .. => .run h (·.setIr.tlyRead)
  | .otpWrite .. => .run h (·.setIr.otpWrite)
  | .compatUnlock .. => .run h (·.setIr.compatUnlock)
  | .bypass .. => .run h (·.setIr.bypass)
  | .trst => .run h (·.setIr)
  | .start .. => .runOn h (·.writeBstCmd.complete)
  | .stop .. => .runOn h (·.writeBstCmd.complete)
  | .saveRepair .. => .runOn h (·.writeBstCmd.complete)
  | .saveRepairDone .. => .run h (·.saveRepairDone)
  | .macroTestDone .. => .run h (·.macroTestDone)
  | .sliceBudgetExpire .. => .run h (·.sliceBudget)
  | .sliceRetry .. => .run h (·.sliceRetry)
  | .failLogRead .. => .runOn h (·.readFailLog.complete)
  | .announceTx .. => .run h (·.announceTx)
  | .delayReqTx .. => .run h (·.delayReqTx)
  | .cfgClkEdge .. => .run h (·.cfgClkEdge)
  | .arbStarve .. => .run h (·.arbAge)
  | .granaryEccRead .. => .run h (·.granaryEcc)
  | .tallyPowerLoss => .runAlways h (·.tallyPowerLoss)
  | .unassignedEncoding .. => .run h fun hd => hd.qIssue (fun _ _ _ he => he.illegal)
  | .badOpcode .. => .runSac h (·.badOpcode)
  | .inboxBadKind => .runAlways h (·.inboxTake)

theorem step_keeps {s : State} (h : Canon s.dev) : Keeps (step s) := by
  unfold step
  split
  · rintro _ ⟨⟩
    exact h
  · next c rest _ => exact exec_keeps (s := { s with pending := rest }) h c

end Sys2Proof.Machine

namespace Sys2Proof.Claims
open Sys2Proof.Machine

/-- Settles O58: from a canonical device every command leaves a canonical device (`exec_keeps`). -/
theorem tablesStayCanonical : Obligations.TablesStayCanonical := by
  intro s t hs ht
  exact (canonical_iff _).mpr (step_keeps ((canonical_iff _).mp hs) t ht)

end Sys2Proof.Claims
end

section
/-! SUPPORT. What a run of register writes and raised events leaves unchanged: a device beside another that differs from
it in registers of a set of keys and in the event block. -/

namespace Sys2Proof.Machine

/-- `e` differs from `d` in the event queues and in registers whose keys are in `K` at most. -/
structure RegsWithin (K : Nat → Prop) (d e : Dev) : Prop where
  eq : e = { d with regs := e.regs, evt := e.evt }
  regs : ∀ k, ¬ K k → ∀ x, tget x e.regs k = tget x d.regs k

/-- The keys of the event block, at setup offset 0x0C_0000. -/
def eventKey (k : Nat) : Prop := 0x600000 ≤ k ∧ k < 0x602000

theorem EventsOnly.within {d e : Dev} (h : EventsOnly d e) : RegsWithin eventKey d e :=
  ⟨h.eq, fun k hk => h.regs k (by unfold eventKey at hk; omega)⟩

namespace RegsWithin

theorem refl (K : Nat → Prop) (d : Dev) : RegsWithin K d d := ⟨rfl, fun _ _ _ => rfl⟩

variable {K L : Nat → Prop} {a d e : Dev}

theorem trans (h : RegsWithin K a d) (g : RegsWithin K d e) : RegsWithin K a e :=
  ⟨by rw [g.eq, h.eq], fun k hk x => (g.regs k hk x).trans (h.regs k hk x)⟩

theorem mono (h : RegsWithin K d e) (hL : ∀ k, K k → L k) : RegsWithin L d e :=
  ⟨h.eq, fun k hk => h.regs k fun hK => hk (hL k hK)⟩

theorem wr (h : RegsWithin K d e) {f : Field} {ix : List Nat} (hk : K (f.key ix)) (v : Nat) : RegsWithin K d (e.wr f ix v) :=
  h.trans ⟨rfl, fun _ hn _ => tget_tset_ne _ _ _ _ _ fun he => hn (he ▸ hk)⟩

theorem raise (h : RegsWithin K d e) (hK : ∀ k, eventKey k → K k) {src : Nat} (hs : src < 320) (info : Nat) :
    RegsWithin K d (e.raise src info) :=
  h.trans ((raise_eventsOnly e hs info).within.mono hK)

theorem ite {c : Prop} [Decidable c] {x y : Dev} (hx : RegsWithin K d x) (hy : RegsWithin K d y) :
    RegsWithin K d (if c then x else y) := by
  split
  · exact hx
  · exact hy

theorem foldl {α : Type} {f : Dev → α → Dev} {l : List α} (h : RegsWithin K d e)
    (hf : ∀ x ∈ l, ∀ e, RegsWithin K d e → RegsWithin K d (f e x)) : RegsWithin K d (l.foldl f e) :=
  List.foldlRecOn l f h fun e he x hx => hf x hx e he

section
variable (h : RegsWithin K d e)
include h

theorem mem : e.mem = d.mem := by rw [h.eq]
theorem out : e.out = d.out := by rw [h.eq]
theorem ddr : e.ddr = d.ddr := by rw [h.eq]
theorem tim : e.tim = d.tim := by rw [h.eq]
theorem clock : e.clock = d.clock := by rw [Dev.clock, h.tim, Dev.clock]
theorem byte (a : Nat) : e.byte a = d.byte a := by rw [Dev.byte, h.mem, Dev.byte]
theorem rd {f : Field} {ix : List Nat} (hk : ¬ K (f.key ix)) : e.rd f ix = d.rd f ix := h.regs _ hk _

end

end RegsWithin

/-! ### Folds over devices -/

/-- What one step of a fold establishes, and the others keep, holds in the end. -/
theorem foldl_establishes {α : Type} {P : Dev → Prop} {f : Dev → α → Dev} {l : List α} {c : α} (d : Dev) (hc : c ∈ l)
    (self : ∀ d, P (f d c)) (keep : ∀ x ∈ l, x ≠ c → ∀ d, P d → P (f d x)) : P (l.foldl f d) := by
  obtain ⟨l₁, l₂, rfl⟩ := List.append_of_mem hc
  rw [List.foldl_append, List.foldl_cons]
  refine List.foldlRecOn l₂ f (self _) fun e he x hx => ?_
  by_cases hxc : x = c
  · exact hxc ▸ self e
  · exact keep x (by simp [hx]) hxc e he

end Sys2Proof.Machine
end

section
/-! SUPPORT. DDR4: the operations of a channel, each by the registers it writes. -/

namespace Sys2Proof.Machine

open Sys2Proof.Claims

/-- The registers from those of the channels on, without the patrol scrub's counter of a channel. -/
def readKey (k : Nat) : Prop := 0x488000 ≤ k ∧ (k < 0x48E000 → k % 2048 ≠ 0x600)

/-- The registers of channel `c`, the channels that failed, and the event block. -/
def trainKey (c k : Nat) : Prop :=
  0x488000 + 2048 * c ≤ k ∧ k < 0x488000 + 2048 * (c + 1) ∨ k = 0x480042 ∨ eventKey k

/-- Registers at multiples of 32, as the counters are, and the event block. -/
def wordKey (k : Nat) : Prop := 0x488000 ≤ k ∧ k % 32 = 0 ∨ eventKey k

theorem key_channel {f : Field} (hf : f.dims = [(2048, 12)]) (c : Nat) : f.key [c] = f.pos + 2048 * c := by
  simp [Field.key, hf]

theorem key_state (c : Nat) : R.DDR_CH_STAT_state.key [c] = 0x488000 + 2048 * c := key_channel rfl c

theorem key_count (c k : Nat) : R.DDR_CH_CNT_count.key [c, k] = 0x488480 + 2048 * c + 64 * k := by
  simp [Field.key, R.DDR_CH_CNT_count, Nat.add_assoc]

/-- The model's index of a nibble is the second of three. -/
theorem key_nibble (c k : Nat) : R.DDR_NIB_CNT_count.key [c, k] = 0x488200 + 2048 * c + 288 * k := by
  simp [Field.key, R.DDR_NIB_CNT_count, Nat.add_assoc]

theorem chanOf_fst (a : Nat) : (chanOf a).1 = channelOf a := rfl

theorem channelOf_lt (a : Nat) : channelOf a < 12 := by
  simp only [channelOf]
  omega

/-- A line lies in one channel. -/
theorem channelOf_line {a : Nat} (ha : 0x1000000000 ≤ a) : channelOf (a / 64 * 64) = channelOf a := by
  have : (a / 64 * 64 - 0x1000000000) / 512 = (a - 0x1000000000) / 512 := by omega
  simp only [channelOf, this]

variable {K : Nat → Prop} {d e : Dev}

namespace RegsWithin

theorem ddrCount (h : RegsWithin K d e) {c k : Nat} (hk : K (0x488480 + 2048 * c + 64 * k)) :
    RegsWithin K d (e.ddrCount c k) :=
  h.wr (key_count c k ▸ hk) _

theorem ddrCause (h : RegsWithin K d e) {c b : Nat} (hc : c < 12) (hb : b < 4) (hk : K (0x488040 + b + 2048 * c))
    (hK : ∀ k, eventKey k → K k) : RegsWithin K d (e.ddrCause c b) := by
  have hkey : (ddrEvtFields.getD b R.DDR_CH_EVT_uncorr).key [c] = 0x488040 + b + 2048 * c := by
    interval_cases b <;> exact key_channel rfl c
  have hev : Ev.ddr + c < 320 := by unfold Ev.ddr; omega
  refine .ite h (.ite (.raise ?_ hK hev _) ?_) <;> exact h.wr (hkey ▸ hk) _

theorem ddrLog (h : RegsWithin K d e) {c : Nat} (hk : ∀ k, 0x488100 + 2048 * c ≤ k → k ≤ 0x488180 + 2048 * c → K k)
    (choff : Nat) (uncorr scrub : Bool) (sym nib : Nat) : RegsWithin K d (e.ddrLog c choff uncorr scrub sym nib) := by
  have hK : ∀ f ∈ [R.DDR_ERR_LOG_choff, R.DDR_ERR_LOG_uncorr, R.DDR_ERR_LOG_scrub, R.DDR_ERR_LOG_valid,
      R.DDR_ERR_LOG_symbols, R.DDR_ERR_LOG_nibbles, R.DDR_ERR_LOG_time], K (f.key [c]) := by
    intro f hf
    have : f.dims = [(2048, 12)] ∧ 0x488100 ≤ f.pos ∧ f.pos ≤ 0x488180 := by revert f; decide
    rw [key_channel this.1]
    exact hk _ (by omega) (by omega)
  refine ((((((h.wr ?_ _).wr ?_ _).wr ?_ _).wr ?_ _).wr ?_ _).wr ?_ _).wr ?_ _ <;> exact hK _ (by simp)

theorem countNibble (h : RegsWithin wordKey d e) {c : Nat} (hc : c < 12) (rank n : Nat) :
    RegsWithin wordKey d (e.countNibble c rank n) := by
  have hn : RegsWithin wordKey d (e.bump R.DDR_NIB_CNT_count [c, 18 * rank + n]) :=
    h.wr (by rw [key_nibble]; unfold wordKey; omega) _
  exact .ite (hn.ddrCause hc (by decide) (by unfold wordKey; omega) fun _ hk => .inr hk) hn

end RegsWithin

theorem ddrLog_rd (d : Dev) (c choff : Nat) (uncorr scrub : Bool) (sym nib : Nat) :
    let e := d.ddrLog c choff uncorr scrub sym nib
    e.rd R.DDR_ERR_LOG_symbols [c] = sym % 8 ∧ e.rd R.DDR_ERR_LOG_uncorr [c] = bit uncorr ∧
      e.rd R.DDR_ERR_LOG_valid [c] = 1 := by
  cases uncorr <;> simp [Dev.ddrLog, rd_wr_ne, Field.key, R.DDR_ERR_LOG_choff, R.DDR_ERR_LOG_uncorr, R.DDR_ERR_LOG_scrub,
    R.DDR_ERR_LOG_valid, R.DDR_ERR_LOG_symbols, R.DDR_ERR_LOG_nibbles, R.DDR_ERR_LOG_time, bit]

/-- A cause that is raised stands. -/
theorem ddrCause_stands {c b : Nat} (hc : c < 12) {f : Field} (hf : ddrEvtFields.getD b R.DDR_CH_EVT_uncorr = f)
    (hdims : f.dims = [(2048, 12)]) (hw : 1 % 2 ^ f.width ≠ 0) (hpos : f.pos + 2048 * c < 0x600000) :
    (d.ddrCause c b).rd f [c] ≠ 0 := by
  have hkey : ¬ eventKey (f.key [c]) := by rw [key_channel hdims]; unfold eventKey; omega
  have hev : Ev.ddr + c < 320 := by unfold Ev.ddr; omega
  simp only [Dev.ddrCause, hf]
  split
  next hset => simpa [Dev.flag] using hset
  next =>
    have : RegsWithin eventKey (d.wr f [c] 1)
        (if (d.wr f [c] 1).flag (ddrEnFields.getD b R.DDR_CH_EVT_EN_uncorr) [c] then (d.wr f [c] 1).raise (Ev.ddr + c) (2 ^ b)
          else d.wr f [c] 1) := .ite (.raise (.refl _ _) (fun _ h => h) hev _) (.refl _ _)
    rw [this.rd hkey, rd_wr]
    exact hw

end Sys2Proof.Machine
end

section
/-! SUPPORT. DDR4: the read of a line (R397): `l` is the line at which `a` lies. -/

namespace Sys2Proof.Machine

open Sys2Proof.Claims

variable {d : Dev} {a l : Nat} {errs : List (Nat × Nat)} {scrub : Bool}

/-- A line found uncorrectable is held as bad. -/
def markBad (l : Nat) (x : DdrSt) : DdrSt := { x with bad := if l ∈ x.bad then x.bad else x.bad ++ [l] }

theorem mem_markBad (l : Nat) (x : DdrSt) : l ∈ (markBad l x).bad := by
  unfold markBad
  split <;> simp_all

/-- Symbols in error of a line logged, counted and, where the read writes back, written. -/
def corrected (l : Nat) (errs : List (Nat × Nat)) (scrub : Bool) (d : Dev) : Dev :=
  let c := channelOf l
  let nibs := (badSymbols errs).map symbolNibble
  let d := (d.ddrLog c (chanOf l).2 false scrub (badSymbols errs).length (nibs.foldl withBit 0)).ddrCount c 3
  let rank := if d.flag R.DDR_CFG_ranks2 then bits (chanOf l).2 17 1 else 0
  let d := nibs.foldl (fun (d : Dev) n => d.countNibble c rank n) d
  if scrub || d.flag R.DDR_CFG_wb_demand then d.ddrCount c 1 else d

theorem corrected_within (l : Nat) (errs : List (Nat × Nat)) (scrub : Bool) (d : Dev) :
    RegsWithin wordKey (d.ddrLog (channelOf l) (chanOf l).2 false scrub (badSymbols errs).length
      (((badSymbols errs).map symbolNibble).foldl withBit 0)) (corrected l errs scrub d) := by
  have hc := channelOf_lt l
  have hkey : ∀ k, wordKey (0x488480 + 2048 * channelOf l + 64 * k) := fun k => by unfold wordKey; omega
  unfold corrected
  extract_lets c nibs d₁ rank d₂
  have h : RegsWithin wordKey (d.ddrLog c (chanOf l).2 false scrub (badSymbols errs).length (nibs.foldl withBit 0)) d₂ :=
    ((RegsWithin.refl _ _).ddrCount (hkey 3)).foldl fun n _ e he => he.countNibble hc rank n
  exact .ite (h.ddrCount (hkey 1)) h

section
variable (hl : a / 64 * 64 = l)
include hl

theorem ddrReadLine_bad (h : l ∈ d.ddr.bad ∨ 4 < (badSymbols errs).length) :
    d.ddrReadLine a errs scrub = (((((d.ddrCount (channelOf l) 0).withDdr (markBad l)).ddrLog (channelOf l) (chanOf l).2
      true scrub 0 0).ddrCount (channelOf l) 4).ddrCause (channelOf l) 1, false) := by
  subst hl
  exact if_pos h

theorem ddrReadLine_clean (hb : l ∉ d.ddr.bad) (he : badSymbols errs = []) :
    d.ddrReadLine a errs scrub = (d.ddrCount (channelOf l) 0, true) := by
  subst hl
  have hnil : (badSymbols errs).isEmpty = true := by rw [he]; rfl
  exact (if_neg fun h => h.elim hb (by simp [he])).trans (if_pos hnil)

theorem ddrReadLine_corrected (hb : l ∉ d.ddr.bad) (hpos : 0 < (badSymbols errs).length)
    (hle : (badSymbols errs).length ≤ 4) :
    d.ddrReadLine a errs scrub = (corrected l errs scrub (d.ddrCount (channelOf l) 0), true) := by
  subst hl
  have hne : ¬ (badSymbols errs).isEmpty = true := by
    rw [List.isEmpty_iff_length_eq_zero]
    omega
  exact (if_neg fun h => h.elim hb (by omega)).trans (if_neg hne)

/-- A line with at most four symbols in error reads as it stands; what is corrected is logged. -/
theorem ddrReadLine_good (hb : l ∉ d.ddr.bad) (hle : (badSymbols errs).length ≤ 4) :
    ∃ e, d.ddrReadLine a errs scrub = (e, true) ∧ RegsWithin (0x488000 ≤ ·) d e ∧ (0 < (badSymbols errs).length →
      e.rd R.DDR_ERR_LOG_symbols [channelOf l] = (badSymbols errs).length ∧ e.rd R.DDR_ERR_LOG_uncorr [channelOf l] = 0 ∧
      e.rd R.DDR_ERR_LOG_valid [channelOf l] = 1) := by
  have h0 : RegsWithin (0x488000 ≤ ·) d (d.ddrCount (channelOf l) 0) := (RegsWithin.refl _ d).ddrCount (by omega)
  rcases Nat.eq_zero_or_pos (badSymbols errs).length with hz | hpos
  · exact ⟨_, ddrReadLine_clean hl hb (List.length_eq_zero_iff.mp hz), h0, fun hp => absurd hp (by omega)⟩
  · have hw := corrected_within l errs scrub (d.ddrCount (channelOf l) 0)
    obtain ⟨hsym, hunc, hval⟩ := ddrLog_rd (d.ddrCount (channelOf l) 0) (channelOf l) (chanOf l).2 false scrub
      (badSymbols errs).length (((badSymbols errs).map symbolNibble).foldl withBit 0)
    have keep : ∀ f ∈ [R.DDR_ERR_LOG_symbols, R.DDR_ERR_LOG_uncorr, R.DDR_ERR_LOG_valid],
        ¬ wordKey (f.key [channelOf l]) := by
      intro f hf
      have : f.dims = [(2048, 12)] ∧ f.pos % 32 ≠ 0 ∧ f.pos < 0x488200 := by revert f; decide
      have hc := channelOf_lt l
      rw [key_channel this.1]
      unfold wordKey eventKey
      omega
    refine ⟨_, ddrReadLine_corrected hl hb hpos hle, ?_, fun _ => ⟨?_, ?_, ?_⟩⟩
    · exact (h0.ddrLog (fun k hk _ => by omega) ..).trans (hw.mono fun k hk => by unfold wordKey eventKey at hk; omega)
    · rw [hw.rd (keep _ (by simp)), hsym]
      omega
    · rw [hw.rd (keep _ (by simp)), hunc]
      rfl
    · rw [hw.rd (keep _ (by simp)), hval]

/-- A line that is bad, or has more than four symbols in error, is found uncorrectable, held as bad and logged. -/
theorem ddrReadLine_uncorrectable (h : l ∈ d.ddr.bad ∨ 4 < (badSymbols errs).length) :
    ∃ e, d.ddrReadLine a errs scrub = (e, false) ∧ RegsWithin readKey (d.withDdr (markBad l)) e ∧
      e.rd R.DDR_ERR_LOG_uncorr [channelOf l] = 1 ∧ e.rd R.DDR_CH_EVT_uncorr [channelOf l] ≠ 0 := by
  have hc := channelOf_lt l
  refine ⟨_, ddrReadLine_bad hl h, ?_, ?_, ddrCause_stands hc rfl rfl (by decide) ?_⟩
  · have h0 : RegsWithin readKey (d.withDdr (markBad l)) ((d.ddrCount (channelOf l) 0).withDdr (markBad l)) :=
      (RegsWithin.refl _ _).ddrCount (k := 0) (by unfold readKey; omega)
    refine ((h0.ddrLog ?_ ..).ddrCount ?_).ddrCause hc (by decide) ?_ ?_
    · intro k
      unfold readKey
      omega
    · unfold readKey
      omega
    · unfold readKey
      omega
    · intro k
      unfold readKey eventKey
      omega
  · have hw := ((RegsWithin.refl (fun k => k % 32 ≠ 3 ∨ eventKey k) (((d.ddrCount (channelOf l) 0).withDdr
      (markBad l)).ddrLog (channelOf l) (chanOf l).2 true scrub 0 0)).ddrCount (c := channelOf l) (k := 4)
      (.inl (by omega))).ddrCause hc (b := 1) (by decide) (.inl (by omega)) fun _ => .inr
    rw [hw.rd]
    · exact (ddrLog_rd ..).2.1
    · rw [key_channel rfl]
      simp only [R.DDR_ERR_LOG_uncorr, eventKey]
      omega
  · simp only [R.DDR_CH_EVT_uncorr]
    omega

end

end Sys2Proof.Machine
end

section
/-! SUPPORT. DDR4: an access within one line (R397 to R399), by what the read of the line finds. -/

namespace Sys2Proof.Machine

open Sys2Proof.Claims

/-- A range within one line, where no unit but the memory's user writes, and the memory is ready. -/
structure OpenLine (d : Dev) (a len : Nat) : Prop where
  above : 0x1055800000 ≤ a
  inside : a + len ≤ d.ddrEnd
  line : a % 64 + len ≤ 64
  ready : d.ddrReady = true

@[simp] theorem withDdr_rd (d : Dev) (g : DdrSt → DdrSt) (f : Field) (ix : List Nat) :
    (d.withDdr g).rd f ix = d.rd f ix := rfl

theorem linePieces_nil (n a : Nat) : linePieces (n + 1) a 0 = [] := rfl

theorem linePieces_line (n : Nat) {a len : Nat} (hlen : len ≠ 0) (h : a % 64 + len ≤ 64) :
    linePieces (n + 2) a len = [(a, len)] := by
  rw [linePieces.eq_2, if_neg hlen]
  extract_lets m
  have hm : m = len := Nat.min_eq_left (by omega)
  rw [hm, Nat.sub_self, linePieces_nil]

theorem ddrTouch_awake {d : Dev} {a : Nat} (h : channelState d (channelOf a) ≠ 4) :
    d.ddrTouch a = d.withDdr fun x => { x with lastAcc := tset 0 x.lastAcc (channelOf a) (d.clock + 1) } := by
  rw [Dev.ddrTouch, chanOf_fst, if_neg]
  rw [withDdr_rd]
  exact h

theorem worst_ok (st : Nat) : worst Sts.ok st = st := if_pos rfl

variable {d e : Dev} {a len : Nat} {errs : List (Nat × Nat)} {l : List Byte}

theorem not_touches {p : Nat → Bool} {lo : Nat} (hp : ∀ x, 0x1055800000 ≤ x → p x = false) (hlo : lo ≤ 0x1055800000)
    (ha : 0x1055800000 ≤ a) : touches p lo a len = false := by
  have h1 := hp a ha
  have h3 : ¬ (a < lo ∧ lo < a + len) := by omega
  have h2 : (len != 0 && p (a + len - 1)) = false := by
    rcases Nat.eq_zero_or_pos len with rfl | hl
    · rfl
    · rw [hp (a + len - 1) (by omega), Bool.and_false]
  rw [touches, h1, h2, decide_eq_false h3]
  rfl

theorem inStaging_above {x : Nat} (hx : 0x1055800000 ≤ x) : inStaging x = false := by
  simp only [inStaging, decide_eq_false_iff_not]
  omega

theorem inSidRegion_above {x : Nat} (hx : 0x1055800000 ≤ x) : inSidRegion x = false := by
  simp only [inSidRegion, decide_eq_false_iff_not]
  omega

theorem inRouteRegion_above {x : Nat} (hx : 0x1055800000 ≤ x) : inRouteRegion x = false := by
  simp only [inRouteRegion, decide_eq_false_iff_not]
  omega

theorem ddrRead_open (h : OpenLine d a len) :
    d.ddrRead a len errs = (linePieces (len / 64 + 2) a len).foldl (fun (r : Dev × Nat × List Byte) p =>
      let (d, st, l) := r
      let (d, good) := (d.ddrTouch p.1).ddrReadLine p.1 errs false
      if good then (d, st, l ++ d.bytes p.1 p.2)
      else (d, worst st Sts.uncorrectable, l ++ List.replicate p.2 0)) (d, Sts.ok, []) := by
  have hend : ¬ d.ddrEnd < a + len := Nat.not_lt.mpr h.inside
  have hst := not_touches (len := len) (fun _ => inStaging_above) (lo := 0x1055000000) (by decide) h.above
  have hrd : ¬ d.ddrReady = false := by rw [h.ready]; decide
  rw [Dev.ddrRead, if_neg hend, hst, if_neg Bool.false_ne_true, if_neg hrd]

theorem ddrWrite_open (h : OpenLine d a l.length) :
    d.ddrWrite a l errs =
      let r := (linePieces (l.length / 64 + 2) a l.length).foldl (fun (r : Dev × Nat × List Byte) p =>
        let (d, st) := r.1.ddrWritePiece p.1 (r.2.2.take p.2) errs
        (d, worst r.2.1 st, r.2.2.drop p.2)) (d, Sts.ok, l)
      (r.1, r.2.1) := by
  have hend : ¬ d.ddrEnd < a + l.length := Nat.not_lt.mpr h.inside
  have hst := not_touches (len := l.length) (fun _ => inStaging_above) (lo := 0x1055000000) (by decide) h.above
  have hsid := not_touches (len := l.length) (fun _ => inSidRegion_above) (lo := 0x1054000000) (by decide) h.above
  have hrt := not_touches (len := l.length) (fun _ => inRouteRegion_above) (lo := ddrBase) (by decide) h.above
  have hrd : ¬ d.ddrReady = false := by rw [h.ready]; decide
  rw [Dev.ddrWrite, if_neg hend, hst, hsid, hrt, if_neg Bool.false_ne_true, if_neg Bool.false_ne_true,
    if_neg Bool.false_ne_true, if_neg hrd]

theorem ddrRead_nil (h : OpenLine d a 0) : d.ddrRead a 0 errs = (d, Sts.ok, []) := by
  rw [ddrRead_open h, linePieces_nil, List.foldl_nil]

theorem ddrRead_line (h : OpenLine d a len) (hlen : len ≠ 0) {good : Bool}
    (hr : (d.ddrTouch a).ddrReadLine a errs false = (e, good)) :
    d.ddrRead a len errs = if good then (e, Sts.ok, e.bytes a len) else (e, Sts.uncorrectable, List.replicate len 0) := by
  rw [ddrRead_open h, linePieces_line _ hlen h.line, List.foldl_cons, List.foldl_nil]
  simp only [hr, worst_ok, List.nil_append]

theorem ddrWrite_nil (h : OpenLine d a ([] : List Byte).length) : d.ddrWrite a [] errs = (d, Sts.ok) := by
  rw [ddrWrite_open h, List.length_nil, linePieces_nil, List.foldl_nil]

theorem ddrWrite_line (h : OpenLine d a l.length) (hlen : l.length ≠ 0) :
    d.ddrWrite a l errs = d.ddrWritePiece a l errs := by
  rw [ddrWrite_open h, linePieces_line _ hlen h.line, List.foldl_cons, List.foldl_nil]
  simp only [worst_ok, List.take_length]

theorem ddrWrite_whole (h : OpenLine d a l.length) (hlen : l.length = 64) :
    d.ddrWrite a l errs = ((((d.ddrTouch a).withDdr fun x => { x with bad := x.bad.filter (· ≠ a) }).setBytes a l).ddrCount
      (channelOf a) 1, Sts.ok) :=
  (ddrWrite_line h (by omega)).trans (if_pos hlen)

theorem ddrWrite_part (h : OpenLine d a l.length) (h0 : l.length ≠ 0) (hlen : l.length ≠ 64) {good : Bool}
    (hr : ((d.ddrTouch a).ddrCount (channelOf a) 2).ddrReadLine a errs false = (e, good)) :
    d.ddrWrite a l errs = if good then ((e.setBytes a l).ddrCount (channelOf a) 1, Sts.ok)
      else (e.ddrCount (channelOf a) 5, Sts.uncorrectable) := by
  rw [ddrWrite_line h h0, Dev.ddrWritePiece]
  simp only [chanOf_fst, if_neg hlen, hr]

/-! ### The access -/

variable {x : DdrAcc} {st : Nat}

theorem OpenLine.min_len (h : OpenLine d x.addr x.len) : min x.len (64 - x.addr % 64) = x.len := by
  have := h.line
  omega

theorem ddrDo_read (hw : x.write = false) (hr : d.ddrRead x.addr (min x.len (64 - x.addr % 64)) x.errs = (e, st, l))
    (hst : st ≠ Sts.uncorrectable) : d.ddrDo x = e.complete ⟨x.inp, false⟩ st (ofLe l) := by
  rw [Dev.ddrDo, if_neg (by simp [hw]), hr]
  exact if_neg hst

theorem ddrDo_read_nil (hw : x.write = false) (hlen : x.len = 0) (h : OpenLine d x.addr x.len) :
    d.ddrDo x = said d x.inp 0 0 := by
  have hr : d.ddrRead x.addr (min x.len (64 - x.addr % 64)) x.errs = (d, Sts.ok, []) := by
    rw [h.min_len]
    rw [hlen] at h ⊢
    exact ddrRead_nil h
  rw [ddrDo_read hw hr (by decide), complete_accepted _ _ _ ok_accepted]
  rfl

theorem ddrDo_read_good (hw : x.write = false) (hlen : x.len ≠ 0) (h : OpenLine d x.addr x.len)
    (hr : (d.ddrTouch x.addr).ddrReadLine x.addr x.errs false = (e, true)) :
    d.ddrDo x = said e x.inp 0 (e.load x.addr x.len) := by
  have hr' := ddrRead_line h hlen hr
  rw [if_pos rfl, ← h.min_len] at hr'
  rw [ddrDo_read hw hr' (by decide), complete_accepted _ _ _ ok_accepted, h.min_len]
  rfl

theorem ddrDo_read_uncorrectable (hw : x.write = false) (hlen : x.len ≠ 0) (h : OpenLine d x.addr x.len)
    (hr : (d.ddrTouch x.addr).ddrReadLine x.addr x.errs false = (e, false)) :
    d.ddrDo x = said (e.draw (8 * x.len)).1 x.inp 7 (e.draw (8 * x.len)).2 := by
  have hr' := ddrRead_line h hlen hr
  rw [if_neg Bool.false_ne_true] at hr'
  rw [Dev.ddrDo, if_neg (by simp [hw]), h.min_len, hr']
  exact (if_pos rfl).trans (complete_accepted _ _ _ (by decide))

/-- A write within one line leaves what `ddrWrite` leaves, and completes with its status. -/
theorem ddrDo_write (hw : x.write = true) (h : OpenLine d x.addr x.data.length)
    (hr : d.ddrWrite x.addr x.data x.errs = (e, st)) (hst : st ≠ 1 ∧ st ≠ 3 ∧ st ≠ 4) : d.ddrDo x = said e x.inp st 0 := by
  have htake : x.data.take (64 - x.addr % 64) = x.data := List.take_of_length_le (by have := h.line; omega)
  rw [Dev.ddrDo, if_pos hw, htake, hr]
  exact complete_accepted _ _ _ hst

end Sys2Proof.Machine
end

section
/-! SUPPORT. DDR4: start-up (R390 to R393). -/

namespace Sys2Proof.Machine

open Sys2Proof.Claims

variable {d : Dev} {inp : Fin 101}

theorem state_key_ne {c k : Nat} (h : k < 0x488000) : R.DDR_CH_STAT_state.key [c] ≠ k := by
  rw [key_state]
  omega

theorem state_wr_ne {c x : Nat} (h : x ≠ c) (v : Nat) (d : Dev) :
    channelState (d.wr R.DDR_CH_STAT_state [x] v) c = channelState d c :=
  rd_wr_ne _ _ _ _ _ _ (by rw [key_state, key_state]; omega)

theorem state_wr (c v : Nat) (d : Dev) : channelState (d.wr R.DDR_CH_STAT_state [c] v) c = v % 8 := rd_wr ..

/-- The channels in a state. -/
def channelsIn (d : Dev) (st : Nat) : List Nat := (List.range 12).filter fun c => d.rd R.DDR_CH_STAT_state [c] == st

theorem mem_channelsIn {st c : Nat} : c ∈ channelsIn d st ↔ c < 12 ∧ channelState d c = st := by
  simp [channelsIn, channelState]

theorem channelsIn_isEmpty {st : Nat} : (channelsIn d st).isEmpty = true ↔ ∀ c, c < 12 → channelState d c ≠ st := by
  simp [channelsIn, channelState, List.filter_eq_nil_iff]

/-! ### DDR_INIT and DDR_RETRAIN -/

theorem does_runOn_off {c : Instr} {i : Nat} {q : Req} {g : Dev → Dev} (hon : On d) (hoff : d.island i ≠ 0)
    (h : ∀ s, exec c s = runOn i q s g) : Does c d (said d q.inp 2 0) := by
  have := does_of_run (c := c) hon h
  rwa [if_pos hoff, complete_accepted _ _ _ (by decide)] at this

theorem does_runOn {c : Instr} {i : Nat} {q : Req} {g : Dev → Dev} (hon : On d) (hrun : d.island i = 0)
    (h : ∀ s, exec c s = runOn i q s g) : Does c d (g d) := by
  have := does_of_run (c := c) hon h
  rwa [if_neg (fun hn => hn hrun)] at this

theorem does_ddrInit (hon : On d) (hrun : d.island 106 = 0) {e : Dev} {st : Nat} (h : ddrInit d = (e, st))
    (hst : st ≠ 1 ∧ st ≠ 3 ∧ st ≠ 4) : Does (.ddrInit inp) d (said e inp st 0) := by
  have := does_runOn (c := .ddrInit inp) hon hrun fun _ => rfl
  rwa [h, complete_accepted _ _ _ hst] at this

theorem does_ddrRetrain (hon : On d) (hrun : d.island 106 = 0) {e : Dev} {st : Nat} (h : ddrRetrain d = (e, st))
    (hst : st ≠ 1 ∧ st ≠ 3 ∧ st ≠ 4) : Does (.ddrRetrain inp) d (said e inp st 0) := by
  have := does_runOn (c := .ddrRetrain inp) hon hrun fun _ => rfl
  rwa [h, complete_accepted _ _ _ hst] at this

/-! ### A bit cleared -/

theorem testBit_odd_sub_one {q : Nat} (hq : q % 2 = 1) (k : Nat) : (q - 1).testBit k = (q.testBit k && decide (k ≠ 0)) := by
  cases k with
  | zero => simp [Nat.testBit_zero]; omega
  | succ k =>
    have h2 : (q - 1) / 2 = q / 2 := by omega
    simp [Nat.testBit_succ, h2]

theorem testBit_withoutBit (v i j : Nat) : (withoutBit v i).testBit j = (v.testBit j && decide (j ≠ i)) := by
  unfold withoutBit
  split
  next h =>
    have hodd : v / 2 ^ i % 2 = 1 := by simpa [Nat.testBit_eq_decide_div_mod_eq] using h
    have hr : v % 2 ^ i < 2 ^ i := Nat.mod_lt _ (Nat.two_pow_pos i)
    have hv : 2 ^ i * (v / 2 ^ i) + v % 2 ^ i = v := Nat.div_add_mod v _
    have hsub : v - 2 ^ i = 2 ^ i * (v / 2 ^ i - 1) + v % 2 ^ i := by
      have hq : 0 < v / 2 ^ i := Nat.pos_of_ne_zero fun h0 => by simp [h0] at hodd
      have := Nat.sub_add_comm (m := v % 2 ^ i) (Nat.le_mul_of_pos_right (2 ^ i) hq)
      rwa [hv, ← Nat.mul_sub_one] at this
    rw [hsub, Nat.testBit_two_pow_mul_add _ hr, testBit_odd_sub_one hodd]
    conv_rhs => rw [← hv, Nat.testBit_two_pow_mul_add _ hr]
    by_cases hj : j < i
    · simp [hj, Nat.ne_of_lt hj]
    · simp only [hj, if_false]
      congr 2
      exact propext (by omega)
  next h =>
    by_cases hj : j = i
    · subst hj
      simp_all
    · simp [hj]
/-- Registers of the channels are written, nothing else. -/
theorem foldl_state_within {f : Dev → Nat → Dev} {l : List Nat} {d : Dev} {K : Nat → Prop}
    (h : ∀ d c, c ∈ l → RegsWithin K d (f d c)) : RegsWithin K d (l.foldl f d) :=
  (RegsWithin.refl K d).foldl fun c hc e he => he.trans (h e c hc)

/-- The device with the capacity that DDR_CFG names, where the table has it. -/
def capacityNamed (d : Dev) : Dev := if d.cfgGib ≤ 16 then d.wr R.DDR_STATUS_chan_gib [] d.cfgGib else d

theorem capacityNamed_within (d : Dev) : RegsWithin (fun k => k = 0x48004E) d (capacityNamed d) :=
  .ite ((RegsWithin.refl (fun k => k = 0x48004E) d).wr rfl _) (.refl _ d)

theorem ddrInit_first (h : d.ddr.inited = false) : ddrInit d =
    ((List.range 12).foldl (fun (d : Dev) c => d.wr R.DDR_CH_STAT_state [c] 1) (capacityNamed (d.withDdr fun x => { x with inited := true })), Sts.ok) := by
  rw [ddrInit, if_neg (by simp [h])]
  rfl

theorem trainAll_within (d : Dev) : RegsWithin (0x488000 ≤ ·) d
    ((List.range 12).foldl (fun (d : Dev) c => d.wr R.DDR_CH_STAT_state [c] 1) d) :=
  foldl_state_within fun d c _ => (RegsWithin.refl _ d).wr (by rw [key_state]; omega) 1

theorem ddrInit_starts (hon : On d) (hrun : d.island 106 = 0) (h : d.ddr.inited = false) : ∃ d',
    Does (.ddrInit inp) d d' ∧ tells d d' inp 0 ∧ d'.ddr.inited = true ∧ d'.mem = d.mem ∧
      (∀ c, c < 12 → channelState d' c = 1) ∧ (configured d ≤ 16 → d'.rd R.DDR_STATUS_chan_gib = configured d) := by
  have hn := capacityNamed_within (d.withDdr fun x => { x with inited := true })
  have ht := trainAll_within (capacityNamed (d.withDdr fun x => { x with inited := true }))
  refine ⟨_, does_ddrInit hon hrun (ddrInit_first h) ok_accepted, ?_, ?_, ?_, fun c hc => ?_, fun hg => ?_⟩
  · rw [tells, said, emit_out, ht.out, hn.out]
    rfl
  · rw [said, emit_ddr, ht.ddr, hn.ddr]
    rfl
  · rw [said, emit_mem, ht.mem, hn.mem]
    rfl
  · have hs := foldl_establishes (P := fun e => channelState e c = 1)
      (capacityNamed (d.withDdr fun x => { x with inited := true })) (List.mem_range.mpr hc) (state_wr c 1)
      fun x _ hx e he => (state_wr_ne hx 1 e).trans he
    exact (said_rd ..).trans hs
  · rw [said_rd, ht.rd (by decide)]
    have hg' : (d.withDdr fun x => { x with inited := true }).cfgGib ≤ 16 := hg
    rw [capacityNamed, if_pos hg', rd_wr]
    exact Nat.mod_eq_of_lt (Nat.lt_of_le_of_lt hg (by decide))

/-- A failed channel trains again. -/
def retrainOne (d : Dev) (c : Nat) : Dev := (d.wr R.DDR_CH_STAT_state [c] 1).clearBit R.DDR_STATUS_failed [] c

theorem retrainOne_state (d : Dev) (c : Nat) : channelState (retrainOne d c) c = 1 := by
  exact (rd_wr_ne _ _ _ _ _ _ (state_key_ne (by decide))).trans (state_wr c 1 d)

theorem retrainOne_state_ne {c x : Nat} (h : x ≠ c) (d : Dev) : channelState (retrainOne d x) c = channelState d c := by
  exact (rd_wr_ne _ _ _ _ _ _ (state_key_ne (by decide))).trans (state_wr_ne h 1 d)

theorem retrainOne_failed (d : Dev) (c j : Nat) : hasBit (retrainOne d c) R.DDR_STATUS_failed [] j =
    (decide (j < 12) && (hasBit d R.DDR_STATUS_failed [] j && decide (j ≠ c))) := by
  have hk : R.DDR_STATUS_failed.key [] ≠ R.DDR_CH_STAT_state.key [c] := (state_key_ne (by decide)).symm
  rw [hasBit, retrainOne, Dev.clearBit, rd_wr, rd_wr_ne _ _ _ _ _ _ hk, Nat.testBit_mod_two_pow, testBit_withoutBit]
  rfl

theorem retrainOne_within (d : Dev) (c : Nat) : RegsWithin (0x480042 ≤ ·) d (retrainOne d c) :=
  ((RegsWithin.refl _ d).wr (by rw [key_state]; omega) 1).wr (by decide) _

theorem ddrRetrain_some (h : ∃ c, c < 12 ∧ channelState d c = 5) :
    ddrRetrain d = ((channelsIn d 5).foldl retrainOne d, Sts.ok) :=
  if_neg fun hn => by
    obtain ⟨c, hc, h5⟩ := h
    exact channelsIn_isEmpty.mp hn c hc h5

theorem ddrRetrain_none (h : ∀ c, c < 12 → channelState d c ≠ 5) : ddrRetrain d = (d, Sts.busy) :=
  if_pos (channelsIn_isEmpty.mpr h)

theorem ddrRetrain_trains (hon : On d) (hrun : d.island 106 = 0) (h : ∃ c, c < 12 ∧ channelState d c = 5) : ∃ d',
    Does (.ddrRetrain inp) d d' ∧ tells d d' inp 0 ∧ d'.mem = d.mem ∧
      ∀ c, c < 12 → channelState d' c = (if channelState d c = 5 then 1 else channelState d c) ∧
        (channelState d c = 5 → hasBit d' R.DDR_STATUS_failed [] c = false) := by
  have hw : RegsWithin (0x480042 ≤ ·) d ((channelsIn d 5).foldl retrainOne d) :=
    foldl_state_within fun d c _ => retrainOne_within d c
  refine ⟨_, does_ddrRetrain hon hrun (ddrRetrain_some h) ok_accepted, ?_, hw.mem, fun c hc => ⟨?_, fun h5 => ?_⟩⟩
  · rw [tells, said, emit_out, hw.out]
    rfl
  · split
    next h5 =>
      exact foldl_establishes (P := fun e => channelState e c = 1) _ (mem_channelsIn.mpr ⟨hc, h5⟩) (retrainOne_state · c)
        fun x _ hx e he => (retrainOne_state_ne hx e).trans he
    next h5 =>
      refine List.foldlRecOn (motive := fun e => channelState e c = channelState d c) _ _ rfl fun e he x hx => ?_
      have hxc : x ≠ c := fun hxc => h5 (hxc ▸ (mem_channelsIn.mp hx).2)
      exact (retrainOne_state_ne hxc e).trans he
  · refine foldl_establishes (P := fun e => hasBit e R.DDR_STATUS_failed [] c = false) _ (mem_channelsIn.mpr ⟨hc, h5⟩)
      (fun e => ?_) fun x _ _ e he => ?_
    · simp [retrainOne_failed]
    · simp [retrainOne_failed, he]

end Sys2Proof.Machine
end

section
/-! SUPPORT. DDR4: the end of training and of initialisation (R391 to R393). -/

namespace Sys2Proof.Machine

open Sys2Proof.Claims

variable {d : Dev}

/-! ### The readiness flags -/

theorem followReady_within (d : Dev) : RegsWithin (fun k => k = 0x248 ∨ eventKey k) d d.followReady := by
  unfold Dev.followReady
  extract_lets en level old d₁
  have h : RegsWithin (fun k => k = 0x248 ∨ eventKey k) d d₁ := (RegsWithin.refl _ d).wr (.inl rfl) _
  exact .ite (h.raise (fun _ => .inr) (by decide) _) h

/-- The flag `b` of SYS_READY, READY and the event block. -/
def readyKey (b k : Nat) : Prop := k = 0x200 + b ∨ k = 0x248 ∨ eventKey k

theorem setReady_within {b : Nat} (hb : b < 8) (v : Nat) (d : Dev) : RegsWithin (readyKey b) d (d.setReady b v) := by
  have hk : (readyFields.getD b R.SYS_READY_lc).key [] = 0x200 + b := by revert b; decide
  have h : RegsWithin (readyKey b) d ((d.wr (readyFields.getD b R.SYS_READY_lc) [] v).raise Ev.readyFlag (b + 32768 * v)) :=
    ((RegsWithin.refl _ d).wr (.inl hk) v).raise (fun _ h => .inr (.inr h)) (by decide) _
  exact .ite (.refl _ d) (h.trans ((followReady_within _).mono fun _ => .inr))

theorem setReady_sets {b : Nat} {f : Field} (hf : readyFields.getD b R.SYS_READY_lc = f) (hk : f.key [] < 0x248)
    (hw : f.width = 1) (d : Dev) : (d.setReady b 1).rd f = 1 := by
  have hne : ¬ (f.key [] = 0x248 ∨ eventKey (f.key [])) := by unfold eventKey; omega
  have hev : ¬ eventKey (f.key []) := fun h => hne (.inr h)
  simp only [Dev.setReady, hf]
  split
  next h => exact h
  next h =>
    have hr : RegsWithin eventKey (d.wr f [] 1) ((d.wr f [] 1).raise Ev.readyFlag (b + 32768 * 1)) :=
      (RegsWithin.refl _ _).raise (fun _ h => h) (by decide) _
    rw [(followReady_within _).rd hne, hr.rd hev, rd_wr, hw]
    rfl

/-! ### DDR_TRAIN_DONE -/

/-- A channel fails in training. -/
def trainFails (c step rank : Nat) (d : Dev) : Dev :=
  ((((d.wr R.DDR_CH_STAT_state [c] 5).wr R.DDR_CH_STAT_fail_step [c] step).wr R.DDR_CH_STAT_fail_rank [c]
    rank).setBit R.DDR_STATUS_failed [] c).ddrCause c 2

/-- A channel's training ends, with DDR_CFG inside its table. -/
def trainOne (fails : List (Nat × Nat × Nat)) (d : Dev) (c : Nat) : Dev :=
  match fails.find? fun f => f.1 == c with
  | some f => trainFails c f.2.1 f.2.2 d
  | none => d.wr R.DDR_CH_STAT_state [c] 2

/-- The trained flag follows the channels. -/
def trainedFlag (d : Dev) : Dev :=
  if d.rd R.DDR_STATUS_failed = 0 ∧ d.rd R.SYS_READY_ddr_trained = 0 then (d.wr R.DDR_STATUS_trained [] 1).setReady 6 1
  else d

theorem ddrTrainDone_none (fails : List (Nat × Nat × Nat)) (h : ∀ c, c < 12 → channelState d c ≠ 1) :
    ddrTrainDone fails d = d :=
  if_pos (channelsIn_isEmpty.mpr h)

theorem ddrTrainDone_some (fails : List (Nat × Nat × Nat)) (h : ∃ c, c < 12 ∧ channelState d c = 1)
    (hg : configured d ≤ 16) : ddrTrainDone fails d = trainedFlag ((channelsIn d 1).foldl (trainOne fails) d) := by
  have hne : ¬ (channelsIn d 1).isEmpty = true := fun hn => by
    obtain ⟨c, hc, h1⟩ := h
    exact channelsIn_isEmpty.mp hn c hc h1
  have hbad : decide (16 < d.cfgGib) = false := decide_eq_false (Nat.not_lt.mpr hg)
  refine (if_neg hne).trans ?_
  rw [hbad]
  rfl

theorem trainFails_within {c : Nat} (hc : c < 12) (step rank : Nat) (d : Dev) :
    RegsWithin (trainKey c) d (trainFails c step rank d) := by
  have hK : ∀ f ∈ [R.DDR_CH_STAT_state, R.DDR_CH_STAT_fail_step, R.DDR_CH_STAT_fail_rank], trainKey c (f.key [c]) := by
    intro f hf
    have : f.dims = [(2048, 12)] ∧ 0x488000 ≤ f.pos ∧ f.pos < 0x488040 := by revert f; decide
    rw [key_channel this.1]
    unfold trainKey
    omega
  refine (((((RegsWithin.refl _ d).wr (hK _ (by simp)) _).wr (hK _ (by simp)) _).wr (hK _ (by simp)) _).wr
    (.inr (.inl rfl)) _).ddrCause hc (by decide) ?_ fun _ h => .inr (.inr h)
  unfold trainKey
  omega

theorem trainOne_within {c : Nat} (hc : c < 12) (fails : List (Nat × Nat × Nat)) (d : Dev) :
    RegsWithin (trainKey c) d (trainOne fails d c) := by
  unfold trainOne
  split
  · exact trainFails_within hc _ _ d
  · refine (RegsWithin.refl _ d).wr (.inl ?_) _
    rw [key_state]
    omega

/-- The registers of a channel whose training fails, but for its cause. -/
def failWritten (c step rank : Nat) (d : Dev) : Dev :=
  (((d.wr R.DDR_CH_STAT_state [c] 5).wr R.DDR_CH_STAT_fail_step [c] step).wr R.DDR_CH_STAT_fail_rank [c]
    rank).setBit R.DDR_STATUS_failed [] c

/-- What stands in the registers of a channel whose training failed. -/
structure TrainFailed (c step rank : Nat) (d : Dev) : Prop where
  state : channelState d c = 5
  step : d.rd R.DDR_CH_STAT_fail_step [c] = step
  rank : d.rd R.DDR_CH_STAT_fail_rank [c] = rank
  failed : hasBit d R.DDR_STATUS_failed [] c = true
  cause : d.rd R.DDR_CH_EVT_train_fail [c] ≠ 0

theorem failWritten_rd {c : Nat} (hc : c < 12) (step rank : Nat) (d : Dev) :
    let e := failWritten c step rank d
    channelState e c = 5 ∧ e.rd R.DDR_CH_STAT_fail_step [c] = step % 8 ∧ e.rd R.DDR_CH_STAT_fail_rank [c] = rank % 2 ∧
      ∀ j, hasBit e R.DDR_STATUS_failed [] j =
        (decide (j < 12) && (hasBit d R.DDR_STATUS_failed [] j || decide (c = j))) := by
  have hne : 0x480042 ≠ 0x488000 + 2048 * c ∧ 0x480042 ≠ 0x488003 + 2048 * c ∧ 0x480042 ≠ 0x488006 + 2048 * c := by omega
  simp [failWritten, channelState, hasBit, Dev.setBit, rd_wr_ne, Field.key, R.DDR_CH_STAT_state, R.DDR_CH_STAT_fail_step,
    R.DDR_CH_STAT_fail_rank, R.DDR_STATUS_failed, withBit, hne, hne.1.symm, hne.2.1.symm, hne.2.2.symm]
  intro j
  rw [show 4096 = 2 ^ 12 from rfl, Nat.testBit_mod_two_pow, Nat.testBit_or, Nat.testBit_two_pow]

/-- A channel's cause of failed training, and the event block. -/
theorem trainFails_cause {c : Nat} (hc : c < 12) (step rank : Nat) (d : Dev) :
    RegsWithin (fun k => k = 0x488042 + 2048 * c ∨ eventKey k) (failWritten c step rank d) (trainFails c step rank d) :=
  (RegsWithin.refl _ _).ddrCause hc (by decide) (.inl rfl) fun _ => .inr

theorem trainFails_failed {c : Nat} (hc : c < 12) (step rank : Nat) (d : Dev) (j : Nat) :
    hasBit (trainFails c step rank d) R.DDR_STATUS_failed [] j =
      (decide (j < 12) && (hasBit d R.DDR_STATUS_failed [] j || decide (c = j))) := by
  obtain ⟨-, -, -, h⟩ := failWritten_rd hc step rank d
  rw [← h j, hasBit, (trainFails_cause hc step rank d).rd, hasBit]
  unfold eventKey
  simp [Field.key, R.DDR_STATUS_failed]
  omega

theorem trainFails_spec {c : Nat} (hc : c < 12) (step rank : Nat) (d : Dev) :
    TrainFailed c (step % 8) (rank % 2) (trainFails c step rank d) := by
  obtain ⟨hst, hstep, hrank, hfail⟩ := failWritten_rd hc step rank d
  have hw := trainFails_cause hc step rank d
  have hK : ∀ f ∈ [R.DDR_CH_STAT_state, R.DDR_CH_STAT_fail_step, R.DDR_CH_STAT_fail_rank],
      ¬ (f.key [c] = 0x488042 + 2048 * c ∨ eventKey (f.key [c])) := by
    intro f hf
    have : f.dims = [(2048, 12)] ∧ 0x488000 ≤ f.pos ∧ f.pos < 0x488040 := by revert f; decide
    rw [key_channel this.1]
    unfold eventKey
    omega
  refine ⟨(hw.rd (hK _ (by simp))).trans hst, (hw.rd (hK _ (by simp))).trans hstep,
    (hw.rd (hK _ (by simp))).trans hrank, ?_, ?_⟩
  · simp [trainFails_failed hc, hc]
  · exact ddrCause_stands hc rfl rfl (by decide) (by simp only [R.DDR_CH_EVT_train_fail]; omega)

theorem trainOne_failed {fails : List (Nat × Nat × Nat)} {c j : Nat} (hc : c < 12) (hj : j < 12)
    (h : hasBit d R.DDR_STATUS_failed [] j = true) : hasBit (trainOne fails d c) R.DDR_STATUS_failed [] j = true := by
  unfold trainOne
  split
  · simp [trainFails_failed hc, h, hj]
  · rw [hasBit, rd_wr_ne _ _ _ _ _ _ (state_key_ne (by decide)).symm]
    exact h

/-- Training that ends for another channel leaves a channel's registers. -/
theorem not_trainKey {c x : Nat} (hc : c < 12) (h : x ≠ c) {k : Nat}
    (hk : 0x488000 + 2048 * c ≤ k ∧ k < 0x488000 + 2048 * (c + 1)) : ¬ trainKey x k := by
  unfold trainKey eventKey
  omega

theorem TrainFailed.trainOne {c x step rank : Nat} {fails : List (Nat × Nat × Nat)} (hc : c < 12) (hx : x < 12) (hne : x ≠ c)
    (h : TrainFailed c step rank d) : TrainFailed c step rank (trainOne fails d x) := by
  have hw := trainOne_within hx fails d
  have hK : ∀ f ∈ [R.DDR_CH_STAT_state, R.DDR_CH_STAT_fail_step, R.DDR_CH_STAT_fail_rank, R.DDR_CH_EVT_train_fail],
      ¬ trainKey x (f.key [c]) := by
    intro f hf
    have : f.dims = [(2048, 12)] ∧ 0x488000 ≤ f.pos ∧ f.pos < 0x488080 := by revert f; decide
    rw [key_channel this.1]
    exact not_trainKey hc hne (by omega)
  refine ⟨(hw.rd (hK _ (by simp))).trans h.state, (hw.rd (hK _ (by simp))).trans h.step,
    (hw.rd (hK _ (by simp))).trans h.rank, trainOne_failed hx hc h.failed, ?_⟩
  rw [hw.rd (hK _ (by simp))]
  exact h.cause

theorem trainOne_state {c x : Nat} {fails : List (Nat × Nat × Nat)} (hc : c < 12) (hx : x < 12) (hne : x ≠ c) :
    channelState (trainOne fails d x) c = channelState d c := by
  refine (trainOne_within hx fails d).rd ?_
  rw [key_state]
  exact not_trainKey hc hne (by omega)

/-- The registers of DDR_STATUS.trained, its flag, READY, and the event block. -/
def trainedKey (k : Nat) : Prop := k = 0x480040 ∨ readyKey 6 k

theorem trainedFlag_within (d : Dev) : RegsWithin trainedKey d (trainedFlag d) :=
  .ite (((RegsWithin.refl _ d).wr (.inl rfl) 1).trans ((setReady_within (by decide) 1 _).mono fun _ => .inr)) (.refl _ d)

theorem trainedFlag_keeps {f : Field} (hf : f.dims = [(2048, 12)]) (hpos : 0x480041 ≤ f.pos ∧ f.pos < 0x488800)
    {c : Nat} (hc : c < 12) (d : Dev) : (trainedFlag d).rd f [c] = d.rd f [c] := by
  refine (trainedFlag_within d).rd ?_
  rw [key_channel hf]
  unfold trainedKey readyKey eventKey
  omega

theorem trainedFlag_failed (d : Dev) : (trainedFlag d).rd R.DDR_STATUS_failed = d.rd R.DDR_STATUS_failed := by
  refine (trainedFlag_within d).rd ?_
  unfold trainedKey readyKey eventKey
  simp [Field.key, R.DDR_STATUS_failed]

theorem trainedFlag_sets (hf : d.rd R.DDR_STATUS_failed = 0) (ht : d.rd R.SYS_READY_ddr_trained = 0) :
    (trainedFlag d).rd R.DDR_STATUS_trained = 1 ∧ (trainedFlag d).rd R.SYS_READY_ddr_trained = 1 := by
  rw [trainedFlag, if_pos ⟨hf, ht⟩]
  refine ⟨?_, setReady_sets rfl (by decide) rfl _⟩
  rw [(setReady_within (by decide) 1 _).rd, rd_wr]
  · rfl
  · unfold readyKey eventKey
    simp [Field.key, R.DDR_STATUS_trained]

/-- The failures as the command's operand gives them. -/
def failList (fails : List (Fin 12 × BitVec 3 × BitVec 1)) : List (Nat × Nat × Nat) :=
  fails.map fun f => (f.1.val, f.2.1.toNat, f.2.2.toNat)

theorem find_failList_none {fails : List (Fin 12 × BitVec 3 × BitVec 1)} {c : Fin 12} (h : ∀ f ∈ fails, f.1 ≠ c) :
    (failList fails).find? (fun f => f.1 == c.val) = none := by
  rw [List.find?_eq_none]
  intro x hx
  obtain ⟨f, hf, rfl⟩ := List.mem_map.mp hx
  simpa using fun he => h f hf (Fin.ext he)

theorem find_failList_some {a b : List (Fin 12 × BitVec 3 × BitVec 1)} {f : Fin 12 × BitVec 3 × BitVec 1}
    (h : ∀ g ∈ a, g.1 ≠ f.1) :
    (failList (a ++ f :: b)).find? (fun g => g.1 == f.1.val) = some (f.1.val, f.2.1.toNat, f.2.2.toNat) := by
  have := find_failList_none h
  simp only [failList, List.map_append, List.map_cons, List.find?_append] at this ⊢
  rw [this]
  simp

theorem ddrTrainDone_ends (fails : List (Fin 12 × BitVec 3 × BitVec 1)) (hon : On d) (h : ∃ c, c < 12 ∧ channelState d c = 1)
    (hg : configured d ≤ 16) : ∃ d', Does (.ddrTrainDone fails) d d' ∧ d'.mem = d.mem ∧
      (∀ c : Fin 12, channelState d c ≠ 1 → channelState d' c = channelState d c) ∧
      (∀ c : Fin 12, channelState d c = 1 → (∀ f ∈ fails, f.1 ≠ c) → channelState d' c = 2) ∧
      (∀ a f b, fails = a ++ f :: b → (∀ g ∈ a, g.1 ≠ f.1) → channelState d f.1 = 1 → channelState d' f.1 = 5 ∧
        d'.rd R.DDR_CH_STAT_fail_step [f.1] = f.2.1.toNat ∧ d'.rd R.DDR_CH_STAT_fail_rank [f.1] = f.2.2.toNat ∧
        hasBit d' R.DDR_STATUS_failed [] f.1 = true ∧ d'.rd R.DDR_CH_EVT_train_fail [f.1] ≠ 0) ∧
      (fails = [] → d.rd R.DDR_STATUS_failed = 0 → d.rd R.SYS_READY_ddr_trained = 0 →
        d'.rd R.DDR_STATUS_trained = 1 ∧ d'.rd R.SYS_READY_ddr_trained = 1) := by
  have hdoes := does_of_run (c := .ddrTrainDone fails) hon fun _ => rfl
  rw [ddrTrainDone_some _ h hg] at hdoes
  have hflag : ∀ (c : Fin 12) (e : Dev), channelState (trainedFlag e) c = channelState e c :=
    fun c e => trainedFlag_keeps rfl (by decide) c.isLt e
  have hmem : ((channelsIn d 1).foldl (trainOne (failList fails)) d).mem = d.mem :=
    List.foldlRecOn (motive := fun e => e.mem = d.mem) _ _ rfl fun e he x hx =>
      (trainOne_within (mem_channelsIn.mp hx).1 _ e).mem.trans he
  refine ⟨_, hdoes, (trainedFlag_within _).mem.trans hmem, fun c h1 => ?_, fun c h1 hf => ?_,
    fun a f b hsplit hfirst h1 => ?_, ?_⟩
  · rw [hflag]
    refine List.foldlRecOn (motive := fun e => channelState e c = channelState d c) _ _ rfl fun e he x hx => ?_
    obtain ⟨hx12, hx1⟩ := mem_channelsIn.mp hx
    exact (trainOne_state c.isLt hx12 fun hxc => h1 (hxc ▸ hx1)).trans he
  · rw [hflag]
    refine foldl_establishes (P := fun e => channelState e c = 2) _ (mem_channelsIn.mpr ⟨c.isLt, h1⟩) (fun e => ?_)
      fun x hx hne e he => (trainOne_state c.isLt (mem_channelsIn.mp hx).1 hne).trans he
    have : trainOne (failList fails) e c = e.wr R.DDR_CH_STAT_state [c] 2 := by
      unfold trainOne
      rw [find_failList_none hf]
    exact this ▸ state_wr c 2 e
  · have hall := foldl_establishes (P := TrainFailed f.1 f.2.1.toNat f.2.2.toNat) d (mem_channelsIn.mpr ⟨f.1.isLt, h1⟩)
      (f := trainOne (failList fails)) (fun e => ?_)
      fun x hx hne e he => he.trainOne f.1.isLt (mem_channelsIn.mp hx).1 hne
    · refine ⟨(hflag ..).trans hall.state, (trainedFlag_keeps rfl (by decide) f.1.isLt _).trans hall.step,
        (trainedFlag_keeps rfl (by decide) f.1.isLt _).trans hall.rank, ?_, ?_⟩
      · rw [hasBit, trainedFlag_failed]
        exact hall.failed
      · rw [trainedFlag_keeps rfl (by decide) f.1.isLt]
        exact hall.cause
    · have : trainOne (failList fails) e f.1 = trainFails f.1 f.2.1.toNat f.2.2.toNat e := by
        unfold trainOne
        rw [hsplit, find_failList_some hfirst]
      have hs := trainFails_spec f.1.isLt f.2.1.toNat f.2.2.toNat e
      rwa [← this, Nat.mod_eq_of_lt f.2.1.isLt, Nat.mod_eq_of_lt f.2.2.isLt] at hs
  · rintro rfl hfailed htrained
    have hw : RegsWithin (0x488000 ≤ ·) d ((channelsIn d 1).foldl (trainOne (failList [])) d) :=
      foldl_state_within fun e c _ => (RegsWithin.refl _ e).wr (by rw [key_state]; omega) 2
    exact trainedFlag_sets ((hw.rd (by decide)).trans hfailed) ((hw.rd (by decide)).trans htrained)

end Sys2Proof.Machine
end

section
/-! SUPPORT. DDR4: initialisation ends (R391), refresh (R403), patrol scrub (R401) and self-refresh (R404). -/

namespace Sys2Proof.Machine

open Sys2Proof.Claims

variable {d : Dev}

/-! ### DDR_INIT_DONE -/

/-- The addresses of the channels in initialisation. -/
def zeroes (d : Dev) (a : Nat) : Bool := decide (ddrBase ≤ a ∧ a < d.ddrEnd) && (channelsIn d 2).contains (chanOf a).1

theorem zeroes_iff {a : Nat} : zeroes d a = true ↔ 0x1000000000 ≤ a ∧ a < d.ddrEnd ∧ channelState d (channelOf a) = 2 := by
  have hm : (chanOf a).1 ∈ channelsIn d 2 ↔ channelState d (channelOf a) = 2 := by
    rw [chanOf_fst, mem_channelsIn]
    exact and_iff_right (channelOf_lt a)
  rw [zeroes, Bool.and_eq_true, decide_eq_true_eq, List.contains_iff_mem, hm, and_assoc, ddrBase]

/-- Memory with those addresses back at zero, none of their lines bad. -/
def zeroed (d : Dev) : Dev :=
  Dev.withDdr { d with mem := d.mem.filter fun c => !zeroes d c.1 } fun x =>
    { x with bad := x.bad.filter fun a => !zeroes d a }

/-- A channel is active and its patrol scrub begins. -/
def initOne (d : Dev) (c : Nat) : Dev :=
  (d.wr R.DDR_CH_STAT_state [c] 3).withDdr fun x =>
    { x with scrubAt := tset 0 x.scrubAt c 0, scrubFrom := tset 0 x.scrubFrom c d.clock }

/-- The ECC flag follows the trained flag. -/
def eccFlag (d : Dev) : Dev :=
  if d.rd R.DDR_STATUS_trained = 1 then (d.wr R.DDR_STATUS_ecc_ready [] 1).setReady 7 1 else d

theorem ddrInitDone_none (h : ∀ c, c < 12 → channelState d c ≠ 2) : ddrInitDone d = d :=
  if_pos (channelsIn_isEmpty.mpr h)

theorem ddrInitDone_some (h : ∃ c, c < 12 ∧ channelState d c = 2) :
    ddrInitDone d = eccFlag ((channelsIn d 2).foldl initOne (zeroed d)) :=
  if_neg fun hn => by
    obtain ⟨c, hc, h2⟩ := h
    exact channelsIn_isEmpty.mp hn c hc h2

theorem tget_filter {α : Type} (v : α) (m : Table α) (q : Nat → Bool) (k : Nat) :
    tget v (m.filter fun e => !q e.1) k = if q k then v else tget v m k := by
  induction m with
  | nil => simp [tget]
  | cons e m ih =>
    obtain ⟨j, w⟩ := e
    by_cases hj : j = k
    · subst hj
      cases hq : q j <;> simp_all [tget]
    · cases hq : q j <;> simp [tget, hq, hj, ih]

theorem zeroed_byte (d : Dev) (a : Nat) :
    (zeroed d).byte a = if 0x1000000000 ≤ a ∧ a < d.ddrEnd ∧ channelState d (channelOf a) = 2 then 0 else d.byte a := by
  have h : (zeroed d).byte a = if zeroes d a then memDefault a else d.byte a := tget_filter _ _ _ _
  rw [h]
  by_cases hz : zeroes d a = true
  · rw [if_pos hz, if_pos (zeroes_iff.mp hz), memDefault, if_neg]
    have := (zeroes_iff.mp hz).1
    omega
  · rw [if_neg hz, if_neg fun hn => hz (zeroes_iff.mpr hn)]

theorem initOne_state (d : Dev) (c : Nat) : channelState (initOne d c) c = 3 := state_wr c 3 d

theorem initOne_rd_ne {f : Field} {ix : List Nat} {c : Nat} (h : f.key ix ≠ 0x488000 + 2048 * c) (d : Dev) :
    (initOne d c).rd f ix = d.rd f ix :=
  (withDdr_rd ..).trans (rd_wr_ne _ _ _ _ _ _ (key_state c ▸ h))

theorem eccFlag_within (d : Dev) : RegsWithin (fun k => k = 0x480041 ∨ readyKey 7 k) d (eccFlag d) :=
  .ite (((RegsWithin.refl (fun k => k = 0x480041 ∨ readyKey 7 k) d).wr (.inl rfl) 1).trans
    ((setReady_within (by decide) 1 _).mono fun _ => .inr)) (.refl _ d)

theorem eccFlag_sets (h : d.rd R.DDR_STATUS_trained = 1) : (eccFlag d).rd R.SYS_READY_ddr_ecc = 1 := by
  rw [eccFlag, if_pos h]
  exact setReady_sets rfl (by decide) rfl _

theorem ddrInitDone_ends (hon : On d) (h : ∃ c, c < 12 ∧ channelState d c = 2) : ∃ d', Does .ddrInitDone d d' ∧
    (∀ c, c < 12 → channelState d' c = if channelState d c = 2 then 3 else channelState d c) ∧
    (∀ a, d'.byte a = if 0x1000000000 ≤ a ∧ a < d.ddrEnd ∧ channelState d (channelOf a) = 2 then 0 else d.byte a) ∧
    (d.rd R.DDR_STATUS_trained = 1 → d'.rd R.SYS_READY_ddr_ecc = 1) := by
  have hdoes := does_of_run (c := .ddrInitDone) hon fun _ => rfl
  rw [ddrInitDone_some h] at hdoes
  have hflag := eccFlag_within ((channelsIn d 2).foldl initOne (zeroed d))
  refine ⟨_, hdoes, fun c hc => ?_, fun a => ?_, fun ht => ?_⟩
  · have hk : ¬ (R.DDR_CH_STAT_state.key [c] = 0x480041 ∨ readyKey 7 (R.DDR_CH_STAT_state.key [c])) := by
      rw [key_state]
      unfold readyKey eventKey
      omega
    refine (hflag.rd hk).trans ?_
    have other : ∀ x e, x ≠ c → channelState (initOne e x) c = channelState e c := fun x e hne =>
      initOne_rd_ne (by rw [key_state]; omega) e
    split
    next h2 =>
      exact foldl_establishes (P := fun e => channelState e c = 3) _ (mem_channelsIn.mpr ⟨hc, h2⟩) (initOne_state · c)
        fun x _ hne e he => (other x e hne).trans he
    next h2 =>
      refine List.foldlRecOn (motive := fun e => channelState e c = channelState d c) _ _ rfl fun e he x hx => ?_
      exact (other x e fun hxc => h2 (hxc ▸ (mem_channelsIn.mp hx).2)).trans he
  · have hmem : ((channelsIn d 2).foldl initOne (zeroed d)).mem = (zeroed d).mem :=
      List.foldlRecOn (motive := fun (e : Dev) => e.mem = (zeroed d).mem) _ _ rfl fun e he x _ => he
    rw [hflag.byte, Dev.byte, hmem]
    exact zeroed_byte d a
  · refine eccFlag_sets (List.foldlRecOn (motive := fun (e : Dev) => e.rd R.DDR_STATUS_trained = 1) _ _ ht
      fun e he x _ => ?_)
    exact (initOne_rd_ne (by simp [Field.key, R.DDR_STATUS_trained]; omega) e).trans he

/-! ### REFRESH, SELF_REFRESH_ENTRY -/

theorem tRefi_eq (d : Dev) : d.tRefi = if d.rd R.DDR_REF_mode = 0 then 7800 else 3900 := by
  by_cases h : d.rd R.DDR_REF_mode = 0 <;> simp [Dev.tRefi, Dev.flag, h]

theorem refresh_early {c : Nat} (h : ¬ (channelState d c = 3 ∧
    tget 0 d.ddr.refAt c + (if d.rd R.DDR_REF_mode = 0 then 7800 else 3900) * 65536 ≤ d.clock)) : refresh c d = d := by
  rw [← tRefi_eq, not_and_or, Nat.not_le] at h
  exact if_pos h

theorem refresh_due {c : Nat} (h : channelState d c = 3 ∧
    tget 0 d.ddr.refAt c + (if d.rd R.DDR_REF_mode = 0 then 7800 else 3900) * 65536 ≤ d.clock) :
    refresh c d = d.withDdr fun x =>
      { x with refAt := tset 0 x.refAt c d.clock, refEnd := tset 0 x.refEnd c (d.clock + d.tRfc * 65536) } := by
  rw [← tRefi_eq] at h
  exact if_neg fun hn => hn.elim (fun hs => hs h.1) (Nat.not_lt.mpr h.2)

theorem does_refresh_due (hon : On d) {c : Fin 12} (h : channelState d c = 3 ∧
    tget 0 d.ddr.refAt c + (if d.rd R.DDR_REF_mode = 0 then 7800 else 3900) * 65536 ≤ d.clock) : ∃ d',
    Does (.refresh c) d d' ∧ d'.regs = d.regs ∧ d'.mem = d.mem ∧ tget 0 d'.ddr.refAt c = d.clock ∧
      tget 0 d'.ddr.refEnd c = d.clock + d.tRfc * 65536 := by
  have hdoes := does_of_run (c := .refresh c) hon fun _ => rfl
  rw [refresh_due h] at hdoes
  refine ⟨_, hdoes, withDdr_regs .., withDdr_mem .., ?_, ?_⟩ <;> rw [withDdr_ddr, tget_tset]

theorem selfRefreshEntry_awake {c : Nat} (h : ¬ (d.rd R.DDR_SR_idle_us ≠ 0 ∧ channelState d c = 3 ∧
    tget 0 d.ddr.lastAcc c + d.rd R.DDR_SR_idle_us * (1000 * 65536) ≤ d.clock + 1)) : selfRefreshEntry c d = d :=
  if_pos (by
    by_contra hn
    rw [not_or, not_or, Nat.not_lt, not_not] at hn
    exact h hn)

theorem selfRefreshEntry_idle {c : Nat} (h : d.rd R.DDR_SR_idle_us ≠ 0 ∧ channelState d c = 3 ∧
    tget 0 d.ddr.lastAcc c + d.rd R.DDR_SR_idle_us * (1000 * 65536) ≤ d.clock + 1) :
    selfRefreshEntry c d = d.wr R.DDR_CH_STAT_state [c] 4 :=
  if_neg (by
    rw [not_or, not_or, Nat.not_lt, not_not]
    exact h)

/-! ### PATROL_SCRUB -/

/-- A read of patrol scrub that brings no error: the line is clean, or bad already. -/
theorem ddrReadLine_noError (a : Nat) (scrub : Bool) (d : Dev) : ∃ g, (∀ x, (g x).scrubAt = x.scrubAt) ∧
    RegsWithin readKey (d.withDdr g) (d.ddrReadLine a [] scrub).1 := by
  by_cases hb : a / 64 * 64 ∈ d.ddr.bad
  · obtain ⟨e, he, hw, -⟩ := ddrReadLine_uncorrectable (errs := []) (scrub := scrub) rfl (.inl hb)
    exact ⟨markBad (a / 64 * 64), fun _ => rfl, by rwa [he]⟩
  · have hc := channelOf_lt (a / 64 * 64)
    rw [ddrReadLine_clean rfl hb rfl]
    refine ⟨id, fun _ => rfl, (RegsWithin.refl _ _).ddrCount ?_⟩
    unfold readKey
    omega

/-- The pass of a channel's patrol scrub ends. -/
def passEnds (c : Nat) (d : Dev) : Dev :=
  let from_ := tget 0 d.ddr.scrubFrom c
  let d := d.withDdr fun x => { x with scrubAt := tset 0 x.scrubAt c 0, scrubFrom := tset 0 x.scrubFrom c d.clock }
  ((d.bumpWrap R.DDR_SCRUB_STAT_passes []).wr R.DDR_SCRUB_STAT_last_s [] ((d.clock - from_) / beadsPerSec)).ddrCause c 3

/-- A line that patrol scrub has read, counted. -/
def scrubbed (c : Nat) (errs : List (Nat × Nat)) (d : Dev) : Dev :=
  (d.ddrReadLine (addrOf c (tget 0 d.ddr.scrubAt c)) errs true).1.ddrCount c 6

theorem patrolScrub_idle {c : Nat} {errs : List (Nat × Nat)} (h : ¬ (d.rd R.DDR_SCRUB_period_h ≠ 0 ∧ channelState d c = 3 ∧
    d.rd R.SYS_READY_ddr_ecc ≠ 0)) : patrolScrub c errs d = d :=
  if_pos (by
    by_contra hn
    rw [not_or, not_or, not_not] at hn
    obtain ⟨hp, hs, hr⟩ := hn
    exact h ⟨hp, hs, by simpa [Dev.ddrReady, Dev.flag] using hr⟩)

theorem patrolScrub_reads {c : Nat} {errs : List (Nat × Nat)} (h : d.rd R.DDR_SCRUB_period_h ≠ 0 ∧ channelState d c = 3 ∧
    d.rd R.SYS_READY_ddr_ecc ≠ 0) : patrolScrub c errs d =
      if tget 0 d.ddr.scrubAt c + 64 < (scrubbed c errs d).rd R.DDR_STATUS_chan_gib * 2 ^ 30 then
        (scrubbed c errs d).withDdr fun x => { x with scrubAt := tset 0 x.scrubAt c (tget 0 d.ddr.scrubAt c + 64) }
      else passEnds c (scrubbed c errs d) :=
  if_neg (by
    rw [not_or, not_or, not_not]
    exact ⟨h.1, h.2.1, by simpa [Dev.ddrReady, Dev.flag] using h.2.2⟩)

theorem scrubbed_spec {c : Nat} (hc : c < 12) (d : Dev) : let e := scrubbed c [] d
    e.mem = d.mem ∧ e.ddr.scrubAt = d.ddr.scrubAt ∧ e.rd R.DDR_STATUS_chan_gib = d.rd R.DDR_STATUS_chan_gib ∧
      e.rd R.DDR_SCRUB_STAT_passes = d.rd R.DDR_SCRUB_STAT_passes ∧
      e.rd R.DDR_CH_CNT_count [c, 6] = (d.rd R.DDR_CH_CNT_count [c, 6] + 1) % 2 ^ 64 := by
  obtain ⟨g, hg, hw⟩ := ddrReadLine_noError (addrOf c (tget 0 d.ddr.scrubAt c)) true d
  have hlow : ∀ f : Field, f.key [] < 0x488000 → (scrubbed c [] d).rd f = d.rd f := fun f hf => by
    have hk : f.key [] ≠ R.DDR_CH_CNT_count.key [c, 6] := by rw [key_count]; omega
    rw [scrubbed, Dev.ddrCount, Dev.bumpWrap, rd_wr_ne _ _ _ _ _ _ hk, hw.rd (by unfold readKey; omega), withDdr_rd]
  refine ⟨hw.mem, (congrArg DdrSt.scrubAt hw.ddr).trans (hg _), hlow _ (by decide), hlow _ (by decide), ?_⟩
  rw [scrubbed, Dev.ddrCount, Dev.bumpWrap, rd_wr, hw.rd, withDdr_rd]
  · rfl
  · rw [key_count]
    unfold readKey
    omega

theorem passEnds_spec {c : Nat} (hc : c < 12) (d : Dev) : let e := passEnds c d
    e.mem = d.mem ∧ tget 0 e.ddr.scrubAt c = 0 ∧ e.rd R.DDR_CH_EVT_scrub_pass [c] ≠ 0 ∧
      e.rd R.DDR_SCRUB_STAT_passes = (d.rd R.DDR_SCRUB_STAT_passes + 1) % 2 ^ 32 ∧
      e.rd R.DDR_CH_CNT_count [c, 6] = d.rd R.DDR_CH_CNT_count [c, 6] := by
  let d₁ := d.withDdr fun x => { x with scrubAt := tset 0 x.scrubAt c 0, scrubFrom := tset 0 x.scrubFrom c d.clock }
  have hw : RegsWithin (fun k => k = 0x480160 ∨ k = 0x488043 + 2048 * c ∨ eventKey k)
      (d₁.bumpWrap R.DDR_SCRUB_STAT_passes []) (passEnds c d) :=
    ((RegsWithin.refl _ _).wr (.inl rfl) _).ddrCause hc (by decide) (.inr (.inl rfl)) fun _ h => .inr (.inr h)
  refine ⟨hw.mem, ?_, ddrCause_stands hc rfl rfl (by decide) (by simp only [R.DDR_CH_EVT_scrub_pass]; omega), ?_, ?_⟩
  · rw [hw.ddr, Dev.bumpWrap, wr_ddr, withDdr_ddr, tget_tset]
  · rw [hw.rd, Dev.bumpWrap, rd_wr, withDdr_rd]
    · rfl
    · simp [Field.key, R.DDR_SCRUB_STAT_passes, eventKey]
      omega
  · have hk : R.DDR_CH_CNT_count.key [c, 6] ≠ R.DDR_SCRUB_STAT_passes.key [] := by
      rw [key_count]
      simp [Field.key, R.DDR_SCRUB_STAT_passes]
      omega
    rw [hw.rd, Dev.bumpWrap, rd_wr_ne _ _ _ _ _ _ hk, withDdr_rd]
    rw [key_count]
    unfold eventKey
    omega

theorem does_patrolScrub (hon : On d) {c : Fin 12} (h : d.rd R.DDR_SCRUB_period_h ≠ 0 ∧ channelState d c = 3 ∧
    d.rd R.SYS_READY_ddr_ecc ≠ 0) : ∃ d', Does (.patrolScrub c []) d d' ∧ d'.mem = d.mem ∧
      d'.rd R.DDR_CH_CNT_count [c, 6] = (d.rd R.DDR_CH_CNT_count [c, 6] + 1) % 2 ^ 64 ∧
      (tget 0 d.ddr.scrubAt c + 64 < d.rd R.DDR_STATUS_chan_gib * 2 ^ 30 →
        tget 0 d'.ddr.scrubAt c = tget 0 d.ddr.scrubAt c + 64) ∧
      (d.rd R.DDR_STATUS_chan_gib * 2 ^ 30 ≤ tget 0 d.ddr.scrubAt c + 64 →
        tget 0 d'.ddr.scrubAt c = 0 ∧ d'.rd R.DDR_CH_EVT_scrub_pass [c] ≠ 0 ∧
        d'.rd R.DDR_SCRUB_STAT_passes = (d.rd R.DDR_SCRUB_STAT_passes + 1) % 2 ^ 32) := by
  obtain ⟨hmem, -, hgib, hpasses, hcount⟩ := scrubbed_spec c.isLt d
  have hdoes := does_of_run (c := .patrolScrub c []) hon fun _ => rfl
  rw [List.map_nil, patrolScrub_reads h, hgib] at hdoes
  split at hdoes
  next hlt =>
    exact ⟨_, hdoes, hmem, hcount, fun _ => by rw [withDdr_ddr, tget_tset], fun hle => absurd hlt (Nat.not_lt.mpr hle)⟩
  next hge =>
    obtain ⟨hmem', hat, hevt, hpasses', hcount'⟩ := passEnds_spec c.isLt (scrubbed c [] d)
    exact ⟨_, hdoes, hmem'.trans hmem, hcount'.trans hcount, fun hlt => absurd hlt hge,
      fun _ => ⟨hat, hevt, hpasses'.trans (by rw [hpasses])⟩⟩

end Sys2Proof.Machine
end

section
/-! SUPPORT. DDR4: the access of one line as a command, and the wake of a channel that an access waits for (R25). -/

namespace Sys2Proof.Machine

open Sys2Proof.Claims

variable {d : Dev} {x : DdrAcc} {l : Nat}

/-! ### Where an access goes -/

theorem ddrAccess_outside (h : x.addr < 0x1000000000 ∨ d.ddrEnd ≤ x.addr) : ddrAccess x d = d := if_pos h

theorem ddrAccess_inside (hlo : 0x1000000000 ≤ x.addr) (hhi : x.addr < d.ddrEnd) : ddrAccess x d =
    if d.island (79 + channelOf x.addr) ≠ 0 then d.complete ⟨x.inp, false⟩ Sts.poweredOff 0
    else if channelState d (channelOf x.addr) = 4 then
      d.withDdr fun y =>
        { y with waiting := tset [] y.waiting (channelOf x.addr) (tget [] y.waiting (channelOf x.addr) ++ [x]) }
    else d.ddrDo x :=
  if_neg fun hn => hn.elim (Nat.not_lt.mpr hlo) (Nat.not_le.mpr hhi)

theorem ddrAccess_off (hlo : 0x1000000000 ≤ x.addr) (hhi : x.addr < d.ddrEnd) (hoff : d.island (79 + channelOf x.addr) ≠ 0) :
    ddrAccess x d = said d x.inp 2 0 := by
  rw [ddrAccess_inside hlo hhi, if_pos hoff, complete_accepted _ _ _ (by decide)]
  rfl

theorem ddrAccess_asleep (hlo : 0x1000000000 ≤ x.addr) (hhi : x.addr < d.ddrEnd) (hon : d.island (79 + channelOf x.addr) = 0)
    (h4 : channelState d (channelOf x.addr) = 4) : ddrAccess x d = d.withDdr fun y =>
      { y with waiting := tset [] y.waiting (channelOf x.addr) (tget [] y.waiting (channelOf x.addr) ++ [x]) } := by
  rw [ddrAccess_inside hlo hhi, if_neg (not_not.mpr hon), if_pos h4]

/-- What `plainLine` says of an access in the line. -/
theorem ddrAccess_plain (hp : plainLine d l) (hl : x.addr / 64 * 64 = l) : ddrAccess x d = d.ddrDo x := by
  obtain ⟨hlo, hhi, -, hon, -, hst⟩ := hp
  have hc : channelOf x.addr = channelOf l := by rw [← hl, channelOf_line (by omega)]
  rw [ddrAccess_inside (by omega) (by omega), hc, if_neg (not_not.mpr hon), if_neg (by rw [hst]; decide)]

theorem openLine_of_plain (hp : plainLine d l) (hl : x.addr / 64 * 64 = l) {len : Nat} (hlen : x.addr + len ≤ l + 64) :
    OpenLine d x.addr len := by
  obtain ⟨hlo, hhi, -, -, hready, -⟩ := hp
  exact ⟨by omega, by omega, by omega, by simpa [Dev.ddrReady, Dev.flag] using hready⟩

/-- An access of an awake channel leaves its time, nothing else. -/
theorem ddrTouch_plain (hp : plainLine d l) (hl : x.addr / 64 * 64 = l) :
    ∃ g : DdrSt → Table Nat, d.ddrTouch x.addr = d.withDdr fun y => { y with lastAcc := g y } := by
  obtain ⟨hlo, -, -, -, -, hst⟩ := hp
  refine ⟨_, ddrTouch_awake ?_⟩
  rw [← channelOf_line (by omega), hl, hst]
  decide

/-! ### Reads -/

theorem load_of_mem {e : Dev} (h : e.mem = d.mem) (a n : Nat) : e.load a n = d.load a n := by
  simp only [Dev.load, Dev.bytes, Dev.byte, h]

theorem read_good (hw : x.write = false) (hp : plainLine d l) (hl : x.addr / 64 * 64 = l) (hlen : x.addr + x.len ≤ l + 64)
    (hb : l ∉ d.ddr.bad) (hle : (badSymbols x.errs).length ≤ 4) :
    let e := ddrAccess x d
    e.out = .access x.inp 0 (d.load x.addr x.len) :: d.out ∧ e.mem = d.mem ∧ e.ddr.bad = d.ddr.bad ∧
      (0 < (badSymbols x.errs).length → x.len ≠ 0 → e.rd R.DDR_ERR_LOG_symbols [channelOf l] = (badSymbols x.errs).length ∧
        e.rd R.DDR_ERR_LOG_uncorr [channelOf l] = 0 ∧ e.rd R.DDR_ERR_LOG_valid [channelOf l] = 1) := by
  have ho := openLine_of_plain hp hl hlen
  obtain ⟨g, hg⟩ := ddrTouch_plain hp hl
  rw [ddrAccess_plain hp hl]
  by_cases h0 : x.len = 0
  · rw [ddrDo_read_nil hw h0 ho, h0]
    exact ⟨rfl, rfl, rfl, fun _ hn => absurd rfl hn⟩
  · have hb' : l ∉ (d.ddrTouch x.addr).ddr.bad := by rwa [hg]
    obtain ⟨e, he, hwithin, hlog⟩ := ddrReadLine_good (scrub := false) hl hb' hle
    have hmem : e.mem = d.mem := hwithin.mem.trans (by rw [hg]; rfl)
    have hout : e.out = d.out := hwithin.out.trans (by rw [hg]; rfl)
    have hbad : e.ddr.bad = d.ddr.bad := by rw [hwithin.ddr, hg]; rfl
    rw [ddrDo_read_good hw h0 ho he, load_of_mem hmem]
    exact ⟨by rw [said, emit_out, hout], hmem, hbad, fun hpos _ => hlog hpos⟩

theorem read_uncorrectable (hw : x.write = false) (hp : plainLine d l) (hl : x.addr / 64 * 64 = l)
    (hlen : x.addr + x.len ≤ l + 64) (h : l ∈ d.ddr.bad ∨ 4 < (badSymbols x.errs).length) (h0 : x.len ≠ 0) :
    let e := ddrAccess x d
    (∃ v, e.out = .access x.inp 7 v :: d.out) ∧ e.mem = d.mem ∧ l ∈ e.ddr.bad ∧
      e.rd R.DDR_ERR_LOG_uncorr [channelOf l] = 1 ∧ e.rd R.DDR_CH_EVT_uncorr [channelOf l] ≠ 0 := by
  have ho := openLine_of_plain hp hl hlen
  obtain ⟨g, hg⟩ := ddrTouch_plain hp hl
  have h' : l ∈ (d.ddrTouch x.addr).ddr.bad ∨ 4 < (badSymbols x.errs).length := by rwa [hg]
  obtain ⟨e, he, hwithin, hunc, hevt⟩ := ddrReadLine_uncorrectable (scrub := false) hl h'
  have hmem : e.mem = d.mem := hwithin.mem.trans (by rw [hg]; rfl)
  have hout : e.out = d.out := hwithin.out.trans (by rw [hg]; rfl)
  rw [ddrAccess_plain hp hl, ddrDo_read_uncorrectable hw h0 ho he]
  refine ⟨⟨(e.draw (8 * x.len)).2, ?_⟩, hmem, ?_, hunc, hevt⟩
  · rw [said, emit_out, draw_out, hout]
  · rw [said, emit_ddr, draw_ddr, hwithin.ddr, withDdr_ddr]
    exact mem_markBad _ _

/-! ### Writes -/

/-- The bytes that a write of `data` at `a` leaves. -/
theorem byte_setBytes (d : Dev) (a : Nat) (data : List Byte) (j : Nat) : (d.setBytes a data).byte j =
    if a ≤ j ∧ j < a + data.length then data.getD (j - a) 0 else d.byte j := by
  split
  next h =>
    obtain ⟨i, rfl⟩ := Nat.exists_eq_add_of_le h.1
    have hi : i < data.length := by omega
    rw [byte_setBytes_in _ _ _ _ hi]
    simp
  next h => exact byte_setBytes_out _ _ _ _ (by omega)

theorem write_good (hw : x.write = true) (hp : plainLine d l) (hl : x.addr / 64 * 64 = l)
    (hlen : x.addr + x.data.length ≤ l + 64)
    (h : x.data.length = 64 ∨ (l ∉ d.ddr.bad ∧ (badSymbols x.errs).length ≤ 4)) :
    let e := ddrAccess x d
    e.out = .access x.inp 0 0 :: d.out ∧ (x.data.length = 64 → l ∉ e.ddr.bad) ∧
      ∀ j, e.byte j = if x.addr ≤ j ∧ j < x.addr + x.data.length then x.data.getD (j - x.addr) 0 else d.byte j := by
  have ho := openLine_of_plain hp hl hlen
  obtain ⟨g, hg⟩ := ddrTouch_plain hp hl
  rw [ddrAccess_plain hp hl]
  by_cases h64 : x.data.length = 64
  · have ha : x.addr = l := by omega
    rw [ddrDo_write hw ho (ddrWrite_whole ho h64) ok_accepted, hg]
    refine ⟨?_, fun _ => ?_, byte_setBytes _ _ _⟩
    · simp [said, Dev.ddrCount, Dev.bumpWrap, Sts.ok]
    · simp [said, Dev.ddrCount, Dev.bumpWrap, ha]
  · obtain ⟨hb, hle⟩ := h.resolve_left h64
    by_cases h0 : x.data.length = 0
    · have hnil : x.data = [] := List.length_eq_zero_iff.mp h0
      have hr : d.ddrWrite x.addr x.data x.errs = (d, Sts.ok) := by
        rw [hnil] at ho ⊢
        exact ddrWrite_nil ho
      rw [ddrDo_write hw ho hr ok_accepted]
      refine ⟨rfl, fun hn => absurd hn h64, fun j => ?_⟩
      rw [if_neg (by omega)]
      rfl
    · have hb' : l ∉ ((d.ddrTouch x.addr).ddrCount (channelOf x.addr) 2).ddr.bad := by rwa [hg]
      obtain ⟨e, he, hwithin, -⟩ := ddrReadLine_good (scrub := false) hl hb' hle
      have hmem : e.mem = d.mem := hwithin.mem.trans (by rw [hg]; rfl)
      have hout : e.out = d.out := hwithin.out.trans (by rw [hg]; rfl)
      have hr := ddrWrite_part ho h0 h64 he
      rw [if_pos rfl] at hr
      rw [ddrDo_write hw ho hr ok_accepted]
      refine ⟨?_, fun hn => absurd hn h64, fun j => ?_⟩
      · simp [said, Dev.ddrCount, Dev.bumpWrap, hout, Sts.ok]
      · refine (byte_setBytes e _ _ j).trans ?_
        simp only [Dev.byte, hmem]

theorem write_uncorrectable (hw : x.write = true) (hp : plainLine d l) (hl : x.addr / 64 * 64 = l)
    (hlen : x.addr + x.data.length ≤ l + 64) (h64 : x.data.length ≠ 64) (hnil : x.data ≠ [])
    (h : l ∈ d.ddr.bad ∨ 4 < (badSymbols x.errs).length) :
    let e := ddrAccess x d
    e.out = .access x.inp 7 0 :: d.out ∧ e.mem = d.mem := by
  have ho := openLine_of_plain hp hl hlen
  obtain ⟨g, hg⟩ := ddrTouch_plain hp hl
  have h' : l ∈ ((d.ddrTouch x.addr).ddrCount (channelOf x.addr) 2).ddr.bad ∨ 4 < (badSymbols x.errs).length := by
    rwa [hg]
  obtain ⟨e, he, hwithin, -⟩ := ddrReadLine_uncorrectable (scrub := false) hl h'
  have hmem : e.mem = d.mem := hwithin.mem.trans (by rw [hg]; rfl)
  have hout : e.out = d.out := hwithin.out.trans (by rw [hg]; rfl)
  have hr := ddrWrite_part ho (fun h0 => hnil (List.length_eq_zero_iff.mp h0)) h64 he
  rw [if_neg Bool.false_ne_true] at hr
  rw [ddrAccess_plain hp hl, ddrDo_write hw ho hr (by decide)]
  exact ⟨by simp [said, Dev.ddrCount, Dev.bumpWrap, hout, Sts.uncorrectable], hmem⟩

end Sys2Proof.Machine
end

section
/-! SUPPORT. DDR4: the wake of a channel that an access waits for (R25, R404). -/

namespace Sys2Proof.Machine

open Sys2Proof.Claims

variable {d : Dev} {x : DdrAcc}

theorem ddrTouch_asleep {a : Nat} (h : channelState d (channelOf a) = 4) :
    d.ddrTouch a = ((d.withDdr fun x => { x with lastAcc := tset 0 x.lastAcc (channelOf a) (d.clock + 1) }).wr
      R.DDR_CH_STAT_state [channelOf a] 3).ddrCount (channelOf a) 7 := by
  rw [Dev.ddrTouch, chanOf_fst, if_pos]
  rw [withDdr_rd]
  exact h

theorem ddrCount_state (d : Dev) (c k j : Nat) (hk : k < 9) : channelState (d.ddrCount j k) c = channelState d c :=
  rd_wr_ne _ _ _ _ _ _ (by rw [key_state, key_count]; omega)

/-- An access leaves its time in the memory's state, and no channel that is awake asleep. -/
theorem ddrTouch_spec (d : Dev) (a : Nat) : ∃ g : DdrSt → Table Nat,
    RegsWithin (0x488000 ≤ ·) (d.withDdr fun y => { y with lastAcc := g y }) (d.ddrTouch a) ∧
      ∀ c, channelState d c = 3 → channelState (d.ddrTouch a) c = 3 := by
  by_cases h : channelState d (channelOf a) = 4
  · rw [ddrTouch_asleep h]
    refine ⟨_, ((RegsWithin.refl _ _).wr (by rw [key_state]; omega) 3).ddrCount (by omega), fun c h3 => ?_⟩
    rw [ddrCount_state _ _ _ _ (by decide)]
    by_cases hc : channelOf a = c
    · rw [hc, state_wr]
    · rw [state_wr_ne hc, channelState, withDdr_rd]
      exact h3
  · rw [ddrTouch_awake h]
    refine ⟨_, .refl _ _, fun c h3 => ?_⟩
    rw [channelState, withDdr_rd]
    exact h3

/-- A read without errors of a line that is not bad, whatever the state of its channel. -/
theorem ddrDo_clean (hw : x.write = false) (herr : x.errs = []) (h : OpenLine d x.addr x.len)
    (hb : x.addr / 64 * 64 ∉ d.ddr.bad) :
    let e := d.ddrDo x
    e.out = .access x.inp 0 (d.load x.addr x.len) :: d.out ∧ e.mem = d.mem ∧ e.ddr.waiting = d.ddr.waiting ∧
      ∀ c, channelState d c = 3 → channelState e c = 3 := by
  by_cases h0 : x.len = 0
  · rw [ddrDo_read_nil hw h0 h, h0]
    exact ⟨rfl, rfl, rfl, fun c h3 => h3⟩
  · obtain ⟨g, hg, h3⟩ := ddrTouch_spec d x.addr
    have hmem : (d.ddrTouch x.addr).mem = d.mem := hg.mem
    have hb' : x.addr / 64 * 64 ∉ (d.ddrTouch x.addr).ddr.bad := by rwa [hg.ddr]
    have hr := ddrReadLine_clean (scrub := false) rfl hb' (show badSymbols x.errs = [] by rw [herr]; rfl)
    have hload := load_of_mem (e := (d.ddrTouch x.addr).ddrCount (channelOf (x.addr / 64 * 64)) 0) hmem x.addr x.len
    rw [ddrDo_read_good hw h0 h hr, hload]
    refine ⟨?_, hmem, ?_, fun c hc => (ddrCount_state _ _ _ _ (by decide)).trans (h3 c hc)⟩
    · rw [said, emit_out, Dev.ddrCount, Dev.bumpWrap, wr_out, hg.out, withDdr_out]
    · rw [said, emit_ddr, Dev.ddrCount, Dev.bumpWrap, wr_ddr, hg.ddr]
      rfl

/-! ### SELF_REFRESH_WAKE -/

/-- A channel awake, with no access waiting. -/
def awakened (c : Nat) (d : Dev) : Dev :=
  ((d.wr R.DDR_CH_STAT_state [c] 3).ddrCount c 7).withDdr fun y => { y with waiting := tset [] y.waiting c [] }

theorem selfRefreshWake_stays {c : Nat}
    (h : ¬ (channelState d c = 4 ∧ tget [] d.ddr.waiting c ≠ [] ∧ d.island (79 + c) = 0)) : selfRefreshWake c d = d :=
  if_pos (by
    by_contra hn
    rw [not_or, not_or, not_not, not_not, List.isEmpty_iff] at hn
    exact h hn)

theorem selfRefreshWake_wakes {c : Nat} (h : channelState d c = 4 ∧ tget [] d.ddr.waiting c ≠ [] ∧ d.island (79 + c) = 0) :
    selfRefreshWake c d = (tget [] d.ddr.waiting c).foldl (fun (d : Dev) x => d.ddrDo x) (awakened c d) :=
  if_neg (by
    rw [not_or, not_or, not_not, not_not, List.isEmpty_iff]
    exact h)

theorem awakened_within (c : Nat) (d : Dev) : RegsWithin (0x488000 ≤ ·)
    (d.withDdr fun y => { y with waiting := tset [] y.waiting c [] }) (awakened c d) :=
  ((RegsWithin.refl (0x488000 ≤ ·) (d.withDdr fun y => { y with waiting := tset [] y.waiting c [] })).wr
    (f := R.DDR_CH_STAT_state) (ix := [c]) (by rw [key_state]; omega) 3).ddrCount (by omega)

theorem does_selfRefreshWake (hon : On d) {c : Fin 12}
    (h : channelState d c = 4 ∧ tget [] d.ddr.waiting c ≠ [] ∧ d.island (79 + c) = 0) (hx : tget [] d.ddr.waiting c = [x])
    (hw : x.write = false) (herr : x.errs = []) (hlen : x.len ≤ 64 - x.addr % 64) (hready : d.rd R.SYS_READY_ddr_ecc ≠ 0)
    (hlo : 0x1055800000 ≤ x.addr) (hhi : x.addr + 64 ≤ d.ddrEnd) (hb : x.addr / 64 * 64 ∉ d.ddr.bad) :
    ∃ d', Does (.selfRefreshWake c) d d' ∧ channelState d' c = 3 ∧ tget [] d'.ddr.waiting c = [] ∧
      (channelOf x.addr = c → d'.out = .access x.inp 0 (d.load x.addr x.len) :: d.out) ∧ d'.mem = d.mem := by
  have hwithin := awakened_within c d
  have hend : (awakened c d).ddrEnd = d.ddrEnd := by
    rw [Dev.ddrEnd, hwithin.rd (by decide), withDdr_rd, Dev.ddrEnd]
  have hrd : (awakened c d).rd R.SYS_READY_ddr_ecc = d.rd R.SYS_READY_ddr_ecc := by rw [hwithin.rd (by decide), withDdr_rd]
  have hopen : OpenLine (awakened c d) x.addr x.len :=
    ⟨hlo, by omega, by omega, by simpa [Dev.ddrReady, Dev.flag, hrd] using hready⟩
  have hst : channelState (awakened c d) c = 3 := by
    rw [awakened, channelState, withDdr_rd]
    exact (ddrCount_state _ _ _ _ (by decide)).trans (state_wr c 3 d)
  have hmem : (awakened c d).mem = d.mem := hwithin.mem
  obtain ⟨hout, hmem', hwait, hstate⟩ := ddrDo_clean hw herr hopen (by rwa [hwithin.ddr])
  have hdoes := does_of_run (c := .selfRefreshWake c) hon fun _ => rfl
  rw [selfRefreshWake_wakes h, hx, List.foldl_cons, List.foldl_nil] at hdoes
  refine ⟨_, hdoes, hstate c hst, ?_, fun _ => ?_, hmem'.trans hmem⟩
  · rw [hwait, hwithin.ddr, withDdr_ddr, tget_tset]
  · rw [hout, load_of_mem hmem, hwithin.out, withDdr_out]

end Sys2Proof.Machine
end

section
/-! SUPPORT. The statement on DDR4 (O35), clause by clause. -/

namespace Sys2Proof.Claims
open Sys2Proof.Machine

variable {d : Dev}

/-- The commands that start channels. -/
theorem ddrStarts (hon : On d) (inp : Fin 101) :
    (d.island 106 ≠ 0 → Does (.ddrInit inp) d (said d inp 2 0) ∧ Does (.ddrRetrain inp) d (said d inp 2 0)) ∧
    (d.island 106 = 0 →
      (d.ddr.inited = true → Does (.ddrInit inp) d (said d inp 27 0)) ∧
      (d.ddr.inited = false → ∃ d', Does (.ddrInit inp) d d' ∧ tells d d' inp 0 ∧ d'.ddr.inited = true ∧ d'.mem = d.mem ∧
        (∀ c, c < 12 → channelState d' c = 1) ∧ (configured d ≤ 16 → d'.rd R.DDR_STATUS_chan_gib = configured d)) ∧
      ((∀ c, c < 12 → channelState d c ≠ 5) → Does (.ddrRetrain inp) d (said d inp 27 0)) ∧
      ((∃ c, c < 12 ∧ channelState d c = 5) → ∃ d', Does (.ddrRetrain inp) d d' ∧ tells d d' inp 0 ∧ d'.mem = d.mem ∧
        ∀ c, c < 12 → channelState d' c = (if channelState d c = 5 then 1 else channelState d c) ∧
          (channelState d c = 5 → hasBit d' R.DDR_STATUS_failed [] c = false))) :=
  ⟨fun hoff => ⟨does_runOn_off (q := ⟨inp, false⟩) hon hoff fun _ => rfl,
      does_runOn_off (q := ⟨inp, false⟩) hon hoff fun _ => rfl⟩, fun hrun =>
    ⟨fun h => does_ddrInit hon hrun (if_pos h) (by decide), ddrInit_starts hon hrun,
      fun h => does_ddrRetrain hon hrun (ddrRetrain_none h) (by decide), ddrRetrain_trains hon hrun⟩⟩

/-- The access that DDR_ACCESS's operands give. -/
def lineAccess (inp : Fin 101) (write : Bool) (a : BitVec 38) (len : Fin 65) (data : List Byte)
    (errs : List (Fin 72 × Byte)) : DdrAcc :=
  ⟨inp, write, a.toNat, len, data, errs.map fun e => (e.1.val, e.2.toNat)⟩

theorem does_ddrAccess (hon : On d) (inp : Fin 101) (write : Bool) (a : BitVec 38) (len : Fin 65) (data : List Byte)
    (errs : List (Fin 72 × Byte)) :
    Does (.ddrAccess inp write a len data errs) d (ddrAccess (lineAccess inp write a len data errs) d) :=
  does_of_run hon fun _ => rfl

/-- An access of one line that is ready. -/
theorem ddrLine (hon : On d) (inp : Fin 101) (a : BitVec 38) (len : Fin 65) (data : List Byte)
    (errs : List (Fin 72 × Byte)) :
    let read := Instr.ddrAccess inp false a len data errs
    let write := Instr.ddrAccess inp true a len data errs
    let c := channelOf a.toNat
    let line := a.toNat / 64 * 64
    let wrong := (badSymbols (errs.map fun e => (e.1.val, e.2.toNat))).length
    (plainLine d line → a.toNat + len ≤ line + 64 →
      (line ∉ d.ddr.bad → wrong ≤ 4 →
        ∃ d', Does read d d' ∧ d'.out = .access inp 0 (d.load a.toNat len) :: d.out ∧ d'.mem = d.mem ∧
          d'.ddr.bad = d.ddr.bad ∧
          (0 < wrong → (len : Nat) ≠ 0 → d'.rd R.DDR_ERR_LOG_symbols [c] = wrong ∧ d'.rd R.DDR_ERR_LOG_uncorr [c] = 0 ∧
            d'.rd R.DDR_ERR_LOG_valid [c] = 1)) ∧
      (line ∈ d.ddr.bad ∨ 4 < wrong → (len : Nat) ≠ 0 →
        ∃ d' v, Does read d d' ∧ d'.out = .access inp 7 v :: d.out ∧ d'.mem = d.mem ∧ line ∈ d'.ddr.bad ∧
          d'.rd R.DDR_ERR_LOG_uncorr [c] = 1 ∧ d'.rd R.DDR_CH_EVT_uncorr [c] ≠ 0)) ∧
    (plainLine d line → a.toNat + data.length ≤ line + 64 →
      (data.length = 64 ∨ (line ∉ d.ddr.bad ∧ wrong ≤ 4) → ∃ d', Does write d d' ∧ tells d d' inp 0 ∧
        (data.length = 64 → line ∉ d'.ddr.bad) ∧
        ∀ x, d'.byte x = if a.toNat ≤ x ∧ x < a.toNat + data.length then data.getD (x - a.toNat) 0 else d.byte x) ∧
      (data.length ≠ 64 → data ≠ [] → line ∈ d.ddr.bad ∨ 4 < wrong →
        ∃ d', Does write d d' ∧ tells d d' inp 7 ∧ d'.mem = d.mem)) := by
  intro read write c line wrong
  have hread := does_ddrAccess hon inp false a len data errs
  have hwrite := does_ddrAccess hon inp true a len data errs
  have hc : plainLine d line → channelOf line = c := fun hp => channelOf_line (by have := hp.1; omega)
  refine ⟨fun hp hlen => ⟨fun hb hle => ?_, fun hbad h0 => ?_⟩, fun hp hlen => ⟨fun h => ?_, fun h64 hnil hbad => ?_⟩⟩
  · rw [← hc hp]
    exact ⟨_, hread, read_good rfl hp rfl hlen hb hle⟩
  · rw [← hc hp]
    obtain ⟨⟨v, hout⟩, hrest⟩ := read_uncorrectable
      (x := lineAccess inp false a len data errs) rfl hp rfl hlen hbad h0
    exact ⟨_, v, hread, hout, hrest⟩
  · exact ⟨_, hwrite, write_good rfl hp rfl hlen h⟩
  · exact ⟨_, hwrite, write_uncorrectable rfl hp rfl hlen h64 hnil hbad⟩

/-- Settles O35: start-up, the access of a line by what the read of the line finds, the upkeep of a channel. -/
theorem ddrMemory : Obligations.DdrMemory := by
  intro d hon
  refine ⟨ddrStarts hon, fun fails => ⟨fun h => ?_, ddrTrainDone_ends fails hon⟩, fun h => ?_,
    fun h _ => ddrInitDone_ends hon h, fun inp a len data errs => ?_, fun c => ⟨fun h => ?_, fun h => ?_, fun h => ?_,
      fun x => does_selfRefreshWake hon, fun h => ?_, fun h => does_refresh_due hon h, fun errs h => ?_,
      fun h _ => does_patrolScrub hon h⟩⟩
  · have := does_of_run (c := .ddrTrainDone fails) hon fun _ => rfl
    rwa [ddrTrainDone_none _ h] at this
  · have := does_of_run (c := .ddrInitDone) hon fun _ => rfl
    rwa [ddrInitDone_none h] at this
  · intro read write c line wrong
    have hread := does_ddrAccess hon inp false a len data errs
    have hwrite := does_ddrAccess hon inp true a len data errs
    obtain ⟨hreads, hwrites⟩ := ddrLine hon inp a len data errs
    refine ⟨fun h => ⟨?_, ?_⟩, hreads, hwrites, fun hlo hhi hoff => ⟨?_, ?_⟩, fun hlo hhi hrun h4 => ?_⟩
    · rwa [ddrAccess_outside (x := lineAccess inp false a len data errs) h] at hread
    · rwa [ddrAccess_outside (x := lineAccess inp true a len data errs) h] at hwrite
    · rwa [ddrAccess_off (x := lineAccess inp false a len data errs) hlo hhi hoff] at hread
    · rwa [ddrAccess_off (x := lineAccess inp true a len data errs) hlo hhi hoff] at hwrite
    · rw [ddrAccess_asleep (x := lineAccess inp false a len data errs) hlo hhi hrun h4] at hread
      exact ⟨_, _, hread, tget_tset .., rfl, rfl, rfl, rfl, rfl⟩
  · have := does_of_run (c := .selfRefreshEntry c) hon fun _ => rfl
    rwa [selfRefreshEntry_awake h] at this
  · have := does_of_run (c := .selfRefreshEntry c) hon fun _ => rfl
    rwa [selfRefreshEntry_idle h] at this
  · have := does_of_run (c := .selfRefreshWake c) hon fun _ => rfl
    rwa [selfRefreshWake_stays h] at this
  · have := does_of_run (c := .refresh c) hon fun _ => rfl
    rwa [refresh_early h] at this
  · have := does_of_run (c := .patrolScrub c errs) hon fun _ => rfl
    rwa [patrolScrub_idle h] at this

end Sys2Proof.Claims
end

section
/-! SUPPORT. Instructions of a fetched word: how they end, and the registers of the thread that issues. -/

namespace Sys2Proof.Machine

open Sys2Proof.Claims

variable {d : Dev} {i : Issue} {w : Nat}

/-! ### Where a field stands -/

theorem key_one {f : Field} {stride count : Nat} (hf : f.dims = [(stride, count)]) (a : Nat) :
    f.key [a] = f.pos + stride * a := by
  simp [Field.key, hf]

theorem key_two {f : Field} {s₁ n₁ s₂ n₂ : Nat} (hf : f.dims = [(s₁, n₁), (s₂, n₂)]) (a b : Nat) :
    f.key [a, b] = f.pos + s₁ * a + s₂ * b := by
  simp [Field.key, hf, Nat.add_assoc]

/-! ### The thread's registers -/

theorem sreg_lt (x : Thr) (k : Nat) : x.sreg k < 2 ^ 64 := by
  unfold Thr.sreg
  split
  · decide
  · exact Nat.mod_lt _ (by decide)

theorem toNat_sval (k : Nat) : (sval d i k).toNat = (self d i).sreg k := by
  rw [sval, BitVec.toNat_ofNat, Nat.mod_eq_of_lt (sreg_lt _ k)]

theorem setS_wait (x : Thr) (k v : Nat) (o : Option Nat) :
    ({ x with wait := o } : Thr).setS k v = { x.setS k v with wait := o } := by
  unfold Thr.setS
  split <;> rfl

/-- The word a thread runs does not show once it has run. -/
theorem ran_wait (x : Thr) (o : Option Nat) : ran d i { x with wait := o } = ran d i x := rfl

/-! ### How an instruction ends -/

theorem does_issue {c : Instr} {key fine : Nat} {f : QOp} (h : Fetches d i w) (hk : opKey w = some key)
    (hc : ∀ s, exec c s = issue i key f s fine) :
    Does c d (Dev.retire (ctxOf i w fine) (f (ctxOf i w fine) (devOf d i w) (thrOf d i w))) := fun q => by
  rw [hc, issue_fetched h hk]

theorem does_ran {c : Instr} {key fine : Nat} {f : QOp} {e : Dev} {x : Thr} (h : Fetches d i w) (hk : opKey w = some key)
    (hc : ∀ s, exec c s = issue i key f s fine)
    (hf : f (ctxOf i w fine) (devOf d i w) (thrOf d i w) = .go (devOf e i w) x) : Does c d (ran e i x) := by
  have := does_issue h hk hc
  rwa [hf, retire_go] at this

/-! ### Faults (R222) -/

/-- Any register but the code and the pc that thread `t` of drover `n` has at a fault. -/
def faultKept (n t k : Nat) : Prop := k ≠ 0x1000800 + 32768 * n + 256 * t ∧ k ≠ 0x1000810 + 32768 * n + 256 * t

theorem drvCause_within {K : Nat → Prop} {d e : Dev} (h : RegsWithin K d e) {n b : Nat} (hn : n < 96)
    (hb : K ((drvEvtFields.getD b R.DRV_EVT_sw).key [n])) (hK : ∀ k, eventKey k → K k) : RegsWithin K d (e.drvCause n b) := by
  have hev : Ev.drover + n < 320 := by unfold Ev.drover; omega
  exact .ite h (.ite ((h.wr hb 1).raise hK hev _) (h.wr hb 1))

/-- The device once code and pc of a fault are recorded. -/
def faultNoted (d : Dev) (n t code : Nat) : Dev :=
  (d.wr R.DRV_THR_FAULT_code [n, t] (if d.flag R.DRV_THR_FAULT_active [n, t] then 9 else code)).wr
    R.DRV_THR_FAULT_pc [n, t] (d.thr n t).pc

/-- The device once a fault without an address is recorded whole, counted, and set as a cause. -/
def faultRecorded (d : Dev) (n t code : Nat) : Dev :=
  (((({ faultNoted d n t code with free := d.free + 1 } : Dev).wr R.DRV_THR_FAULT_addr [n, t] (d.draw 40).2).wr
    R.DRV_THR_FAULT_time [n, t] d.nowRaw).drvCount n 10).drvCause n 0

theorem fault_eq (d : Dev) (n t code : Nat) : d.fault n t code none =
    let e := faultRecorded d n t code
    let x := d.thr n t
    if d.flag R.DRV_THR_FAULT_active [n, t] = false ∧ (e.rd R.DRV_CFG_trap_en [n]).testBit t then
      ((e.wr R.DRV_THR_FAULT_active [n, t] 1).setThr n t
        { x with pc := e.rd R.DRV_THR_VEC_trap [n, t] / 4 * 4, wait := none, asked := false, cmp := none }).setThrState n t 1
    else (e.setThr n t { x with wait := none, asked := false, cmp := none, due := 0 }).setThrState n t 3 := rfl

theorem faultKept_of_event {n t k : Nat} (h : eventKey k) : faultKept n t k := by
  unfold eventKey at h
  unfold faultKept
  omega

theorem faultKept_active {n t : Nat} : faultKept n t (R.DRV_THR_FAULT_active.key [n, t]) := by
  rw [show R.DRV_THR_FAULT_active.key [n, t] = 0x1000804 + 32768 * n + 256 * t from key_two rfl n t]
  unfold faultKept
  omega

theorem faultRecorded_within {n t : Nat} (hn : n < 96) (ht : t < 8) (d : Dev) (code : Nat) :
    RegsWithin (faultKept n t) { faultNoted d n t code with free := d.free + 1 } (faultRecorded d n t code) := by
  have haddr : faultKept n t (R.DRV_THR_FAULT_addr.key [n, t]) := by
    rw [show R.DRV_THR_FAULT_addr.key [n, t] = 0x1000820 + 32768 * n + 256 * t from key_two rfl n t]
    unfold faultKept
    omega
  have htime : faultKept n t (R.DRV_THR_FAULT_time.key [n, t]) := by
    rw [show R.DRV_THR_FAULT_time.key [n, t] = 0x1000880 + 32768 * n + 256 * t from key_two rfl n t]
    unfold faultKept
    omega
  have hcount : faultKept n t (R.DRV_CNT_count.key [n, 10]) := by
    rw [show R.DRV_CNT_count.key [n, 10] = 0x1004000 + 32768 * n + 64 * 10 from key_two rfl n 10]
    unfold faultKept
    omega
  have hcause : faultKept n t ((drvEvtFields.getD 0 R.DRV_EVT_sw).key [n]) := by
    rw [show (drvEvtFields.getD 0 R.DRV_EVT_sw).key [n] = 0x1000080 + 32768 * n from key_one rfl n]
    unfold faultKept
    omega
  exact drvCause_within ((((RegsWithin.refl _ _).wr haddr _).wr htime _).wr hcount _) hn hcause fun _ => faultKept_of_event

/-- What a fault without an address comes to: it is recorded, and the thread is left with its registers. -/
theorem fault_ends {n t : Nat} (hn : n < 96) (ht : t < 8) (d : Dev) (code : Nat) : ∃ e x st,
    d.fault n t code none = (e.setThr n t x).setThrState n t st ∧
      RegsWithin (faultKept n t) { faultNoted d n t code with free := d.free + 1 } e ∧
      x.s = (d.thr n t).s ∧ x.v = (d.thr n t).v ∧ x.m = (d.thr n t).m := by
  have h := faultRecorded_within hn ht d code
  rw [fault_eq]
  extract_lets e x
  split
  · exact ⟨_, _, _, rfl, h.wr faultKept_active 1, rfl, rfl, rfl⟩
  · exact ⟨_, _, _, rfl, h, rfl, rfl, rfl⟩

theorem faultNoted_rd (d : Dev) (n t : Nat) {code : Nat} (hcode : code < 16) :
    (faultNoted d n t code).rd R.DRV_THR_FAULT_code [n, t] = (if d.flag R.DRV_THR_FAULT_active [n, t] then 9 else code) ∧
      (faultNoted d n t code).rd R.DRV_THR_FAULT_pc [n, t] = (d.thr n t).pc % 2 ^ 16 := by
  refine ⟨?_, rd_wr ..⟩
  rw [faultNoted, rd_wr_ne _ _ _ _ _ _ (by rw [key_two rfl, key_two rfl]; simp [R.DRV_THR_FAULT_code, R.DRV_THR_FAULT_pc]),
    rd_wr]
  refine Nat.mod_eq_of_lt (show _ < 16 from ?_)
  split <;> omega

/-- An instruction of a fetched word that comes to a fault without an address. -/
theorem faults_of {c : Instr} {key fine code : Nat} {f : QOp} (h : Fetches d i w) (hk : opKey w = some key)
    (hc : ∀ s, exec c s = issue i key f s fine)
    (hf : f (ctxOf i w fine) (devOf d i w) (thrOf d i w) = .fault (devOf d i w) code none) (hcode : code < 16) :
    faults c d i code := by
  have hdoes := does_issue h hk hc
  rw [hf] at hdoes
  obtain ⟨e, x, st, he, hw, hs, hv, hm⟩ := fault_ends i.n.isLt i.t.isLt (devOf d i w) code
  obtain ⟨hrc, hrp⟩ := faultNoted_rd (devOf d i w) i.n i.t hcode
  have hthr : (devOf d i w).thr i.n i.t = thrOf d i w := thr_setThr ..
  rw [hthr] at hs hv hm hrp
  have hend : Dev.retire (ctxOf i w fine) (.fault (devOf d i w) code none) = (e.setThr i.n i.t x).setThrState i.n i.t st := he
  have hdrv : e.drv = (devOf d i w).drv := by rw [hw.eq]; rfl
  have hself : self ((e.setThr i.n i.t x).setThrState i.n i.t st) i = x := thr_setThr ..
  have hkept {f : Field} (hf : f.key [i.n, i.t] ≠ R.DRV_STATUS_thr_state.key [i.n]) (hk : ¬ faultKept i.n i.t (f.key [i.n, i.t])) :
      ((e.setThr i.n i.t x).setThrState i.n i.t st).rd f [i.n, i.t] = (faultNoted (devOf d i w) i.n i.t code).rd f [i.n, i.t] :=
    (rd_wr_ne _ _ _ _ _ _ hf).trans (hw.rd hk)
  have hstate : R.DRV_STATUS_thr_state.key [i.n] = 0x1000040 + 32768 * i.n := key_one rfl i.n
  have hcodeKey : R.DRV_THR_FAULT_code.key [i.n, i.t] = 0x1000800 + 32768 * i.n + 256 * i.t := key_two rfl i.n i.t
  have hpcKey : R.DRV_THR_FAULT_pc.key [i.n, i.t] = 0x1000810 + 32768 * i.n + 256 * i.t := key_two rfl i.n i.t
  rw [hend] at hdoes
  refine ⟨_, hdoes, hw.mem, ?_, fun k => ?_, ?_, ?_⟩
  · show tget {} e.drv.drv _ = _
    rw [hdrv]
    rfl
  · rw [hself]
    simp only [Thr.sreg, Thr.vreg, Thr.mreg, hs, hv, hm]
    exact ⟨rfl, rfl, rfl⟩
  · rw [hkept (by omega) (by unfold faultKept; omega), hrc]
    rfl
  · rw [hkept (by omega) (by unfold faultKept; omega), hrp]
    rfl

end Sys2Proof.Machine
end

section
/-! SUPPORT. Time instructions and the comparator (O9). -/

namespace Sys2Proof.Machine

open Sys2Proof.Claims

variable {d : Dev} {i : Issue} {w : Nat}

/-! ### Instants and time pairs (R42, R235, R587) -/

theorem toNat_append_add {m n : Nat} (x : BitVec m) (y : BitVec n) : (x ++ y).toNat = x.toNat * 2 ^ n + y.toNat := by
  rw [BitVec.toNat_append, ← Nat.shiftLeft_add_eq_or_of_lt y.isLt, Nat.shiftLeft_eq]

/-- The model's 96 bits of an instant are those of the statements. -/
theorem toNat_timeBits (b : Nat) : (timeBits b).toNat = beadsToRaw b := by
  simp only [timeBits, toNat_append_add, BitVec.toNat_ofNat, beadsToRaw, beadsPerSec]
  omega

theorem setTime_eq (x : Thr) (k b : Nat) : x.setTime k (beadsToRaw b) = withPair x k b := by
  have hlo (v : Nat) : x.setS k (v / 2 ^ 0 % 2 ^ 64) = x.setS k v := by simp [Thr.setS]
  simp only [withPair, Thr.setTime, bits, BitVec.extractLsb'_toNat, toNat_timeBits, Nat.shiftRight_eq_div_pow, hlo]

theorem rawToBeads_timeReg (k : Nat) : rawToBeads ((self d i).timeReg k) = pairAt d i k := by
  have hlo := sreg_lt (self d i) k
  simp only [rawToBeads, Thr.timeReg, pairAt, bits, beadsPerSec, beadWrap]
  generalize (self d i).sreg k = lo at hlo
  generalize (self d i).sreg (k + 1) = hi
  have hsec : (lo + hi % 2 ^ 32 * 2 ^ 64) / 2 ^ 48 % 2 ^ 48 = hi % 2 ^ 32 * 2 ^ 16 + lo / 2 ^ 48 := by omega
  have hns : (lo + hi % 2 ^ 32 * 2 ^ 64) / 2 ^ 16 % 2 ^ 32 = lo / 2 ^ 16 % 2 ^ 32 := by omega
  have hb : (lo + hi % 2 ^ 32 * 2 ^ 64) / 2 ^ 0 % 2 ^ 16 = lo % 65536 := by omega
  rw [hsec, hns, hb, show 10 ^ 9 * 65536 = 65536000000000 from rfl, show 2 ^ 48 = 281474976710656 from rfl]

/-! ### Indices (R258) -/

/-- The quotient rounded up is the least number whose product reaches. -/
theorem roundUp_le_iff {a n j : Nat} (hn : 0 < n) : (a + n - 1) / n ≤ j ↔ a ≤ j * n := by
  rw [← Nat.lt_succ_iff, Nat.div_lt_iff_lt_mul hn, Nat.succ_mul]
  omega

/-- The rate an instruction names, as its meaning takes it from rb. -/
theorem rate_eq : bits ((thrOf d i w).sreg (wRb w)) 0 32 = rateP d i w ∧ bits ((thrOf d i w).sreg (wRb w)) 32 32 = rateQ d i w := by
  have hlt := sreg_lt (self d i) (wRb w)
  simp only [rateP, rateQ, toNat_sval, bits]
  show (self d i).sreg (wRb w) / 2 ^ 0 % 2 ^ 32 = _ ∧ (self d i).sreg (wRb w) / 2 ^ 32 % 2 ^ 32 = _
  omega

theorem timeIndex_lt (up : Bool) (b p q : Nat) : timeIndex up b p q < 2 ^ 64 :=
   Nat.lt_of_le_of_lt (Nat.min_le_right _ _) (by decide)

theorem beadsPerSec_pos : 0 < beadsPerSec := by decide

/-! ### The meanings of the instructions -/

/-- The thread's registers with the word it runs taken away again. -/
theorem withPair_wait (x : Thr) (k b : Nat) (o : Option Nat) :
    withPair { x with wait := o } k b = { withPair x k b with wait := o } := by
  unfold withPair
  rw [setS_wait x, setS_wait (x.setS k _)]

variable (h : Fetches d i w)
include h

theorem does_stamp (hk : opKey w = some 0x3100) (fine : Fin 256) (hrd : wRd w % 2 = 0) :
    Does (.stamp i fine) d (ran d i (withPair (self d i) (wRd w) (replicaAt d i fine))) := by
  have := does_ran (c := .stamp i fine) (x := withPair (thrOf d i w) (wRd w) (replicaAt d i fine)) h hk (fun _ => rfl) (by
    rw [qStamp, if_neg (by simp [ctxOf, hrd]), setTime_eq]
    rfl)
  rwa [thrOf, withPair_wait, ran_wait] at this

theorem faults_stamp (hk : opKey w = some 0x3100) (fine : Fin 256) (hrd : wRd w % 2 = 1) : faults (.stamp i fine) d i 1 :=
  faults_of h hk (fun _ => rfl) (if_pos hrd) (by decide)

theorem does_stampLate (hk : opKey w = some 0x3101) : Does (.stampLate i) d (ran (withLate d i false) i
    ((self d i).setS (wRd w) (if (d.rd R.DRV_STATUS_late [i.n]).testBit i.t then 1 else 0))) := by
  have := does_ran (c := .stampLate i) (e := withLate d i false) h hk (fun _ => rfl) rfl
  rwa [thrOf, setS_wait, ran_wait] at this

/-- TIDX, rounded up or down. -/
theorem does_tidx {c : Instr} {up : Bool} {key : Nat} (hk : opKey w = some key) (hc : ∀ s, exec c s = issue i key (qTidx up) s)
    (hra : wRa w % 2 = 0) (hp : rateP d i w ≠ 0) (hq : rateQ d i w ≠ 0) :
    writesRd c d i w (BitVec.ofNat 64 (timeIndex up (pairAt d i (wRa w)) (rateP d i w) (rateQ d i w))) := by
  obtain ⟨hP, hQ⟩ := rate_eq (d := d) (i := i) (w := w)
  have := does_ran (x := (thrOf d i w).setS (wRd w) (timeIndex up (pairAt d i (wRa w)) (rateP d i w) (rateQ d i w))) h hk hc (by
    simp only [qTidx, show (ctxOf i w 0).w = w from rfl, hP, hQ]
    rw [if_neg (by simp [hra, hp, hq]), ← rawToBeads_timeReg]
    rfl)
  rw [writesRd, BitVec.toNat_ofNat, Nat.mod_eq_of_lt (timeIndex_lt ..)]
  rwa [thrOf, setS_wait, ran_wait] at this

theorem faults_tidx {c : Instr} {up : Bool} {key : Nat} (hk : opKey w = some key) (hc : ∀ s, exec c s = issue i key (qTidx up) s)
    (hbad : wRa w % 2 = 1 ∨ rateP d i w = 0 ∨ rateQ d i w = 0) : faults c d i 1 := by
  obtain ⟨hP, hQ⟩ := rate_eq (d := d) (i := i) (w := w)
  refine faults_of h hk hc ?_ (by decide)
  simp only [qTidx, show (ctxOf i w 0).w = w from rfl, hP, hQ]
  exact if_pos hbad

/-- TIDX.C: the least index that starts at or after the instant. -/
theorem does_tidxC (hk : opKey w = some 0x3105) (hra : wRa w % 2 = 0) (hp : rateP d i w ≠ 0) (hq : rateQ d i w ≠ 0) :
    ∃ k, (∀ j, k ≤ j ↔ pairAt d i (wRa w) * rateP d i w ≤ j * (rateQ d i w * beadsPerSec)) ∧
      writesRd (.tidxC i) d i w (BitVec.ofNat 64 (min k (2 ^ 64 - 1))) := by
  have hdoes := does_tidx (c := .tidxC i) (up := true) h hk (fun _ => rfl) hra hp hq
  simp only [timeIndex, if_true] at hdoes
  exact ⟨_, fun _ => roundUp_le_iff (Nat.mul_pos (Nat.pos_of_ne_zero hq) beadsPerSec_pos), hdoes⟩

/-- TIDX.F: the last index that starts at or before the instant. -/
theorem does_tidxF (hk : opKey w = some 0x3106) (hra : wRa w % 2 = 0) (hp : rateP d i w ≠ 0) (hq : rateQ d i w ≠ 0) :
    ∃ k, (∀ j, j ≤ k ↔ j * (rateQ d i w * beadsPerSec) ≤ pairAt d i (wRa w) * rateP d i w) ∧
      writesRd (.tidxF i) d i w (BitVec.ofNat 64 (min k (2 ^ 64 - 1))) := by
  have hdoes := does_tidx (c := .tidxF i) (up := false) h hk (fun _ => rfl) hra hp hq
  simp only [timeIndex, Bool.false_eq_true, if_false] at hdoes
  exact ⟨_, fun _ => Nat.le_div_iff_mul_le (Nat.mul_pos (Nat.pos_of_ne_zero hq) beadsPerSec_pos), hdoes⟩

theorem does_tat (hk : opKey w = some 0x3107) (hrd : wRd w % 2 = 0) (hp : rateP d i w ≠ 0) (hq : rateQ d i w ≠ 0) :
    Does (.tat i) d (ran d i (withPair (self d i) (wRd w)
      (indexStart (sval d i (wRa w)).toNat (rateP d i w) (rateQ d i w)))) := by
  obtain ⟨hP, hQ⟩ := rate_eq (d := d) (i := i) (w := w)
  have := does_ran (c := .tat i)
    (x := withPair (thrOf d i w) (wRd w) (indexStart (sval d i (wRa w)).toNat (rateP d i w) (rateQ d i w))) h hk (fun _ => rfl) (by
    simp only [qTat, show (ctxOf i w 0).w = w from rfl, hP, hQ]
    rw [if_neg (by simp [hrd, hp, hq]), setTime_eq, toNat_sval]
    rfl)
  rwa [thrOf, withPair_wait, ran_wait] at this

theorem faults_tat (hk : opKey w = some 0x3107) (hbad : wRd w % 2 = 1 ∨ rateP d i w = 0 ∨ rateQ d i w = 0) :
    faults (.tat i) d i 1 := by
  obtain ⟨hP, hQ⟩ := rate_eq (d := d) (i := i) (w := w)
  refine faults_of h hk (fun _ => rfl) ?_ (by decide)
  simp only [qTat, show (ctxOf i w 0).w = w from rfl, hP, hQ]
  exact if_pos hbad

/-! ### WAITU -/

omit h in
theorem opSub_lt : opSub w < 256 := by
  simp only [opSub, wCond, wFunc, bits]
  split_ifs <;> omega

omit h in
/-- An operation's number names its major opcode and its place in it. -/
theorem major_of_opKey {key : Nat} (hk : opKey w = some key) : wMajor w = key / 256 ∧ opSub w = key % 256 := by
  have hlt : opSub w < 256 := opSub_lt
  simp only [opKey, Option.ite_none_left_eq_some, Option.some.injEq] at hk
  obtain ⟨-, -, -, -, hkey⟩ := hk
  omega

omit h in
theorem waitu_word (hk : opKey w = some 0x3102) : isWaitu w = true ∧ isSemAcq w = false := by
  obtain ⟨hm, hs⟩ := major_of_opKey hk
  have hf : wFunc w = 2 := by simpa [opSub, hm] using hs
  simp [isWaitu, isSemAcq, hm, hf]

theorem does_waitu_late (hk : opKey w = some 0x3102) (fine : Fin 256) (hra : wRa w % 2 = 0)
    (hle : pairAt d i (wRa w) ≤ replicaAt d i fine) :
    Does (.waitu i fine) d (ran (withLate d i true) i (self d i)) := by
  have := does_ran (c := .waitu i fine) (e := withLate d i true) (x := thrOf d i w) h hk (fun _ => rfl) (by
    rw [← rawToBeads_timeReg] at hle
    rw [qWaitu, if_neg (by simp [ctxOf, hra])]
    exact if_pos hle)
  rwa [thrOf, ran_wait] at this

theorem does_waitu_blocks (hk : opKey w = some 0x3102) (fine : Fin 256) (hra : wRa w % 2 = 0)
    (hlt : replicaAt d i fine < pairAt d i (wRa w)) :
    Does (.waitu i fine) d
      ((d.setThr i.n i.t { self d i with wait := some w, cmp := some (pairAt d i (wRa w)) }).setThrState i.n i.t 2) := by
  have hq : qWaitu (ctxOf i w fine) (devOf d i w) (thrOf d i w) =
      .block (devOf d i w) { thrOf d i w with cmp := some (pairAt d i (wRa w)) } := by
    rw [← rawToBeads_timeReg] at hlt ⊢
    rw [qWaitu, if_neg (by simp [ctxOf, hra])]
    exact if_neg (Nat.not_le.mpr hlt)
  have := does_issue (c := .waitu i fine) h hk fun _ => rfl
  rw [hq] at this
  simpa [Dev.retire, ctxOf, (waitu_word hk).2, devOf, thrOf] using this

theorem faults_waitu (hk : opKey w = some 0x3102) (fine : Fin 256) (hra : wRa w % 2 = 1) : faults (.waitu i fine) d i 1 :=
  faults_of h hk (fun _ => rfl) (if_pos hra) (by decide)

/-! ### The comparator (R215, R225) -/

omit h in
/-- A blocked WAITU whose comparator is armed: the comparator fires by the replica's time and the drover's state. -/
theorem comparatorFire_armed {t : Nat} {fine : Fin 256} (hk : opKey w = some 0x3102) (hruns : d.droveRuns i.n = true)
    (hst : d.thrState i.n i.t = 2) (hwait : (self d i).wait = some w) (hcmp : (self d i).cmp = some t) :
    comparatorFire i.n i.t fine d =
      if replicaAt d i fine < t then d
      else if d.halted i.n then d.setThr i.n i.t { self d i with cmp := none }
      else if d.issues i.n then d.threadGo i.n i.t
      else d := by
  have hw : isWaitu ((self d i).wait.getD 0) = true := by rw [hwait]; exact (waitu_word hk).1
  simp only [self] at hcmp hw
  simp only [comparatorFire, hcmp, hst, hw, hruns, ne_eq, not_true_eq_false, Bool.true_eq_false, false_or]
  rfl

end Sys2Proof.Machine

namespace Sys2Proof.Claims

open Sys2Proof.Machine

theorem timeResults : TimeResults := by
  intro d i w h
  have hsec : 10 ^ 9 * 65536 = beadsPerSec := rfl
  simp only [hsec]
  refine ⟨fun fine hk => ⟨does_stamp h hk fine, faults_stamp h hk fine⟩, fun hk => does_stampLate h hk,
    fun hk => ⟨does_tidxC h hk, faults_tidx h hk fun _ => rfl⟩, fun hk => ⟨does_tidxF h hk, faults_tidx h hk fun _ => rfl⟩,
    fun hk => ⟨fun hrd hp hq => ⟨_, fun c => ?_, does_tat h hk hrd hp hq⟩, faults_tat h hk⟩⟩
  rw [← Nat.mul_assoc]
  exact roundUp_le_iff (Nat.pos_of_ne_zero hp)

theorem waitUntilResults : WaitUntilResults := by
  intro d i w fine hk target now
  refine ⟨fun h => ⟨does_waitu_late h hk fine, does_waitu_blocks h hk fine, faults_waitu h hk fine⟩,
    fun hon hruns hst hwait t hcmp => ?_⟩
  have hdoes := does_of_run (c := .comparatorFire i.n i.t fine) hon fun _ => rfl
  rw [comparatorFire_armed hk hruns hst hwait hcmp] at hdoes
  refine ⟨fun hlt => ?_, fun hle hissues hhalt => ?_, fun hle hhalt => ?_⟩
  · rwa [if_pos hlt] at hdoes
  · rwa [if_neg (Nat.not_lt.mpr hle), if_neg (by simp [hhalt]), if_pos hissues] at hdoes
  · rwa [if_neg (Nat.not_lt.mpr hle), if_pos hhalt] at hdoes

/-- Settles O9: each instruction by its meaning on a fetched word, WAITU's comparator by the replica's time. -/
theorem timeInstructionResults : Obligations.TimeInstructionResults := ⟨timeResults, waitUntilResults⟩

end Sys2Proof.Claims
end

section
/-! SUPPORT. What a raised event leaves unchanged, block by block. -/

namespace Sys2Proof.Machine

variable (d : Dev) (src info time : Nat) (pre : Option Nat)

theorem acceptRaise_eq (put : List EvRec → List EvRec) : ∃ regs evt, d.acceptRaise put = { d with regs := regs, evt := evt } := by
  unfold Dev.acceptRaise
  split
  · exact ⟨_, _, rfl⟩
  · exact ⟨_, _, rfl⟩

/-- A raise changes registers and the event queues at most. -/
theorem raiseAt_eq : ∃ regs evt, d.raiseAt src info time pre = { d with regs := regs, evt := evt } := by
  unfold Dev.raiseAt
  split
  · exact ⟨_, _, rfl⟩
  · extract_lets d₁ d₂ r
    have h₂ : ∃ regs, d₂ = { d with regs := regs } := by
      by_cases hh : d₁.flag R.EVT_SRC_hrd [src] = true
      · exact ⟨_, if_pos hh⟩
      · exact ⟨_, if_neg hh⟩
    obtain ⟨regs, h₂⟩ := h₂
    rw [h₂]
    split
    · split
      · exact ⟨_, _, rfl⟩
      · exact acceptRaise_eq _ _
    · exact ⟨_, _, rfl⟩

@[simp] theorem raiseAt_mem : (d.raiseAt src info time pre).mem = d.mem := by
  obtain ⟨_, _, h⟩ := raiseAt_eq d src info time pre; rw [h]
@[simp] theorem raiseAt_out : (d.raiseAt src info time pre).out = d.out := by
  obtain ⟨_, _, h⟩ := raiseAt_eq d src info time pre; rw [h]
@[simp] theorem raiseAt_tim : (d.raiseAt src info time pre).tim = d.tim := by
  obtain ⟨_, _, h⟩ := raiseAt_eq d src info time pre; rw [h]
@[simp] theorem raiseAt_prt : (d.raiseAt src info time pre).prt = d.prt := by
  obtain ⟨_, _, h⟩ := raiseAt_eq d src info time pre; rw [h]
@[simp] theorem raiseAt_rte : (d.raiseAt src info time pre).rte = d.rte := by
  obtain ⟨_, _, h⟩ := raiseAt_eq d src info time pre; rw [h]
@[simp] theorem raiseAt_med : (d.raiseAt src info time pre).med = d.med := by
  obtain ⟨_, _, h⟩ := raiseAt_eq d src info time pre; rw [h]
@[simp] theorem raiseAt_drv : (d.raiseAt src info time pre).drv = d.drv := by
  obtain ⟨_, _, h⟩ := raiseAt_eq d src info time pre; rw [h]
@[simp] theorem raiseAt_hrd : (d.raiseAt src info time pre).hrd = d.hrd := by
  obtain ⟨_, _, h⟩ := raiseAt_eq d src info time pre; rw [h]
@[simp] theorem raise_mem : (d.raise src info).mem = d.mem := raiseAt_mem ..
@[simp] theorem raise_out : (d.raise src info).out = d.out := raiseAt_out ..
@[simp] theorem raise_tim : (d.raise src info).tim = d.tim := raiseAt_tim ..
@[simp] theorem raise_prt : (d.raise src info).prt = d.prt := raiseAt_prt ..
@[simp] theorem raise_rte : (d.raise src info).rte = d.rte := raiseAt_rte ..
@[simp] theorem raise_med : (d.raise src info).med = d.med := raiseAt_med ..
@[simp] theorem raise_drv : (d.raise src info).drv = d.drv := raiseAt_drv ..
@[simp] theorem raise_hrd : (d.raise src info).hrd = d.hrd := raiseAt_hrd ..

/-- A raise leaves the registers below the event block. -/
theorem raiseAt_rd {src : Nat} (hs : src < 320) {f : Field} {ix : List Nat} (hk : f.key ix < 0x600000) :
    (d.raiseAt src info time pre).rd f ix = d.rd f ix :=
  (raiseAt_eventsOnly d hs info time pre).rd f ix (.inl hk)

theorem raise_rd {src : Nat} (hs : src < 320) {f : Field} {ix : List Nat} (hk : f.key ix < 0x600000) :
    (d.raise src info).rd f ix = d.rd f ix :=
  raiseAt_rd d info d.nowRaw none hs hk

end Sys2Proof.Machine
end

section
/-! SUPPORT. The marker edge: the count, steps, replicas, rosters (O11). -/

namespace Sys2Proof.Machine

open Sys2Proof.Claims

variable {d : Dev}

/-! ### What rosters do at a step -/

/-- `e` differs from `d` in the event block, in the media unit and in its registers at most. -/
structure MediaOnly (d e : Dev) : Prop where
  eq : e = { d with regs := e.regs, evt := e.evt, med := e.med }
  regs : ∀ k, k < 0x280000 → ∀ x, tget x e.regs k = tget x d.regs k

namespace MediaOnly

theorem refl (d : Dev) : MediaOnly d d := ⟨rfl, fun _ _ _ => rfl⟩

variable {d e f : Dev}

theorem trans (h : MediaOnly d e) (g : MediaOnly e f) : MediaOnly d f :=
  ⟨by rw [g.eq, h.eq], fun k hk x => (g.regs k hk x).trans (h.regs k hk x)⟩

theorem med (h : MediaOnly d e) (g : MedSt → MedSt) : MediaOnly d (e.withMed g) := h.trans ⟨rfl, fun _ _ _ => rfl⟩

theorem wr (h : MediaOnly d e) {f : Field} {ix : List Nat} (hk : 0x280000 ≤ f.key ix) (v : Nat) : MediaOnly d (e.wr f ix v) :=
  h.trans ⟨rfl, fun _ hlt _ => tget_tset_ne _ _ _ _ _ (by omega)⟩

theorem raise (h : MediaOnly d e) {src : Nat} (hs : src < 320) (info : Nat) : MediaOnly d (e.raise src info) := by
  have g := raise_eventsOnly e hs info
  exact h.trans ⟨by rw [g.eq], fun k hk => g.regs k (by omega)⟩

theorem ite {c : Prop} [Decidable c] {a b : Dev} (ha : MediaOnly d a) (hb : MediaOnly d b) :
    MediaOnly d (if c then a else b) := by
  split
  · exact ha
  · exact hb

end MediaOnly

theorem MediaOnly.wrRoster {d e : Dev} (h : MediaOnly d e) {f : Field} (hf : f.dims = [(512, 2)]) (hpos : 0x280000 ≤ f.pos)
    (q v : Nat) : MediaOnly d (e.wr f [q] v) :=
  h.wr (by rw [key_one hf]; omega) v

theorem rosterSwapNow_mediaOnly (d : Dev) (q wrap : Nat) : MediaOnly d (d.rosterSwapNow q wrap) := by
  unfold Dev.rosterSwapNow
  extract_lets len wid ph same pick sorted d₁ d₂ lw base d₃
  have h₂ : MediaOnly d d₂ := (((MediaOnly.refl d).med _).wrRoster (f := R.MED_ROSTER_STAT_act_len_m1) rfl (by decide) q _).wrRoster
    (f := R.MED_ROSTER_STAT_act_width) rfl (by decide) q _
  have h₃ : MediaOnly d d₃ := .ite h₂ (h₂.med _)
  exact (((h₃.wrRoster (f := R.MED_ROSTER_STAT_pending) rfl (by decide) q _).wrRoster
    (f := R.MED_ROSTER_STAT_copying) rfl (by decide) q _).wrRoster (f := R.MED_ROSTER_STAT_commits) rfl (by decide) q _).raise
    (by decide) _

theorem rosterStep_mediaOnly (d : Dev) (q pre post : Nat) : MediaOnly d (d.rosterStep q pre post) := by
  unfold Dev.rosterStep
  extract_lets wrap due d₁
  have h₁ : MediaOnly d d₁ := (MediaOnly.refl d).med _
  exact .ite (h₁.trans (rosterSwapNow_mediaOnly ..)) (.ite (h₁.med _) h₁)

/-! ### The marker -/

/-- The timebase at a marker that reads `time`. -/
def markedTim (d : Dev) (time : Nat) (step : Bool) : TimSt := { d.tim with
  now := time
  mono := d.tim.mono + 1
  rate := d.rdS R.TIM_FREQ_ADJ_adj
  stepReqs := []
  servoStep := none
  replicas := d.tim.replicas.map fun r => r.atMarker time (281474976710656 + d.rdS R.TIM_FREQ_ADJ_adj) step }

/-- The time the marker holds without a step, in beads. -/
def heldBeads (d : Dev) : Nat := nextMarker d / 2 ^ 32

/-- The time after the step that the pending requests make, in beads. -/
def steppedBeads (d : Dev) : Nat := applySteps d.tim.stepReqs d.tim.servoStep (heldBeads d)

theorem markerEdge_counts (hr : d.tim.stepReqs = []) (hs : d.tim.servoStep = none) :
    markerEdge d = { d with tim := markedTim d (nextMarker d % (epoch * 2 ^ 32)) false } := by
  simp only [markerEdge, Dev.marker, hr, hs]
  rfl

theorem stepOutputs_eq (d : Dev) (pre post : Nat) : ∃ f g, d.stepOutputs pre post =
    { d with tim := { d.tim with soutFrom := f, soutHigh := g } } := by
  have fold (l : List Nat) (t : TimSt) : ∃ f g, l.foldl (fun (t : TimSt) n =>
      let h := seekAfterStep (tget 0 t.soutHigh n) pre post
      { t with soutFrom := tset 0 t.soutFrom n h, soutHigh := tset 0 t.soutHigh n h }) t =
      { t with soutFrom := f, soutHigh := g } := by
    induction l generalizing t with
    | nil => exact ⟨_, _, rfl⟩
    | cons n l ih =>
      obtain ⟨f, g, h⟩ := ih { t with
        soutFrom := tset 0 t.soutFrom n (seekAfterStep (tget 0 t.soutHigh n) pre post)
        soutHigh := tset 0 t.soutHigh n (seekAfterStep (tget 0 t.soutHigh n) pre post) }
      exact ⟨f, g, h⟩
  obtain ⟨f, g, h⟩ := fold (List.range 8) d.tim
  exact ⟨f, g, by rw [Dev.stepOutputs, Dev.withTim, h]⟩

/-- A marker with pending requests: the timebase steps, TIM_STATUS counts it, outputs and rosters go on from the new
time. -/
theorem markerEdge_steps (h : d.tim.stepReqs ≠ [] ∨ d.tim.servoStep ≠ none) : ∃ f g,
    (markerEdge d).tim = { markedTim d (steppedBeads d * 2 ^ 32) true with soutFrom := f, soutHigh := g } ∧
    (markerEdge d).mem = d.mem ∧
    (markerEdge d).rd R.TIM_STATUS_step_count = (d.rd R.TIM_STATUS_step_count + 1) % 2 ^ 24 := by
  have hsteps : (!d.tim.stepReqs.isEmpty || d.tim.servoStep.isSome) = true := by
    rcases h with h | h
    · simp [h]
    · simp [Option.isSome_iff_ne_none, h]
  obtain ⟨f, g, hout⟩ := stepOutputs_eq
    (({ d with tim := markedTim d (steppedBeads d * 2 ^ 32) true } : Dev).bumpWrap R.TIM_STATUS_step_count [])
    (heldBeads d) (steppedBeads d)
  have hmarker : ∃ info time pre, d.marker =
      (({ d with tim := { markedTim d (steppedBeads d * 2 ^ 32) true with soutFrom := f, soutHigh := g } } : Dev).bumpWrap
        R.TIM_STATUS_step_count []).raiseAt Ev.timeStep info time pre := by
    simp only [Dev.marker, hsteps, if_true]
    exact ⟨_, _, _, congrArg (fun e : Dev => e.raiseAt Ev.timeStep _ _ _) hout⟩
  obtain ⟨info, time, pre, hmarker⟩ := hmarker
  have hmedia : MediaOnly d.marker (markerEdge d) := by
    simp only [markerEdge, hsteps, if_true]
    exact (rosterStep_mediaOnly ..).trans (rosterStep_mediaOnly ..)
  refine ⟨f, g, ?_, ?_, ?_⟩
  · rw [hmedia.eq]
    simp [hmarker, Dev.bumpWrap]
  · rw [hmedia.eq]
    simp [hmarker, Dev.bumpWrap]
  · have hkey : (markerEdge d).rd R.TIM_STATUS_step_count = d.marker.rd R.TIM_STATUS_step_count := hmedia.regs _ (by decide) _
    rw [hkey, hmarker, raiseAt_rd _ _ _ _ (by decide) (by decide), Dev.bumpWrap, rd_wr]
    rfl

/-! ### Replicas at a marker (R55) -/

theorem clampInt_eq_within (lo hi v : Int) (h : lo ≤ hi) : clampInt lo hi v = within lo hi v := by
  unfold clampInt within
  omega

/-- A replica at a marker without a step: it slews when it is aligned, else it loads. -/
theorem atMarker_counts (r : Replica) (time : Nat) (incr : Int) :
    let here := r.value + 256 * r.incr
    let target := (time : Int) + r.delay * 2 ^ 32
    let r' := r.atMarker time incr false
    r'.incr = incr ∧ r'.aligned = true ∧ r'.delay = r.delay ∧
      r'.value = if r.aligned then here + within (-(2 ^ 40)) (2 ^ 40) (target - here) else target := by
  cases ha : r.aligned with
  | false => simp [Replica.atMarker, ha, unitsPerBead]
  | true => simp [Replica.atMarker, ha, unitsPerBead, clampInt_eq_within]

theorem atMarker_jumps (r : Replica) (time : Nat) (incr : Int) :
    (r.atMarker time incr true).value = (time : Int) + r.delay * 2 ^ 32 := by
  simp [Replica.atMarker, unitsPerBead]

/-! ### The requests of a step (R588) -/

/-- One request applied to a time in beads. -/
def applyReq (a : Int) : StepReq → Int
  | .set raw => rawToBeads raw
  | .step ofs => a + ofs

theorem applySteps_eq (reqs : List StepReq) (servo : Option Int) (beads : Nat) :
    applySteps reqs servo beads = bounded (reqs.foldl applyReq (beads : Int) + servo.getD 0) := by
  have hreq : (fun (a : Int) (r : StepReq) => match r with
      | .set raw => (rawToBeads raw : Int)
      | .step ofs => a + ofs) = applyReq := by
    funext a r
    cases r <;> rfl
  have hwrap : beadWrap = epoch := by decide
  simp only [applySteps, bounded, ← hreq, hwrap] <;> rfl

theorem foldl_applyReq_offsets (l : List Int) (a : Int) : (offsets l).foldl applyReq a = a + l.sum := by
  induction l generalizing a with
  | nil => simp [offsets]
  | cons x l ih =>
    have := ih (a + x)
    simp only [offsets, List.map_cons, List.foldl_cons, List.sum_cons, applyReq] at this ⊢
    omega

end Sys2Proof.Machine

namespace Sys2Proof.Claims

open Sys2Proof.Machine

/-- The marker of a step, by the value the requests come to. -/
theorem markerEdge_takes {d : Dev} (hon : On d) (h : d.tim.stepReqs ≠ [] ∨ d.tim.servoStep ≠ none) {v : Int}
    (hv : d.tim.stepReqs.foldl applyReq (heldBeads d : Int) + d.tim.servoStep.getD 0 = v) : ∃ d', Does .markerEdge d d' ∧
      (d'.mem = d.mem ∧ d'.tim.rate = d.rdS R.TIM_FREQ_ADJ_adj ∧ d'.tim.mono = d.tim.mono + 1 ∧ d'.tim.stepReqs = [] ∧
        d'.tim.servoStep = none ∧ d'.tim.replicas.length = d.tim.replicas.length) ∧
      d'.tim.now = bounded v * 2 ^ 32 ∧
      d'.rd R.TIM_STATUS_step_count = (d.rd R.TIM_STATUS_step_count + 1) % 2 ^ 24 ∧
      ∀ k (_ : k < d.tim.replicas.length) (_ : k < d'.tim.replicas.length),
        (d'.tim.replicas[k]).value = (d'.tim.now : Int) + (d.tim.replicas[k]).delay * 2 ^ 32 := by
  obtain ⟨f, g, htim, hmem, hcount⟩ := markerEdge_steps h
  have hnow : steppedBeads d = bounded v := by rw [steppedBeads, applySteps_eq, hv]
  refine ⟨_, does_of_run (c := .markerEdge) hon fun _ => rfl, ?_, ?_, hcount, fun k hk hk' => ?_⟩
  · simp [htim, markedTim, hmem]
  · rw [htim, ← hnow]
    rfl
  · simp [htim, markedTim, atMarker_jumps]

theorem timeSteps : TimeSteps := by
  intro d hon
  refine ⟨fun hr hs => ?_, fun l servo hservo => ⟨fun hreqs hsome => ?_, fun a raw hreqs => ?_⟩⟩
  · have hdoes := does_of_run (c := .markerEdge) hon fun _ => rfl
    rw [markerEdge_counts hr hs] at hdoes
    refine ⟨_, hdoes, by simp [markedTim], rfl, rfl, fun k hk hk' => ?_⟩
    have := atMarker_counts d.tim.replicas[k] (nextMarker d % (epoch * 2 ^ 32)) (2 ^ 48 + d.rdS R.TIM_FREQ_ADJ_adj)
    simpa [markedTim] using this
  · refine markerEdge_takes hon ?_ ?_
    · rcases hsome with hl | hsv
      · exact .inl (by simpa [hreqs, offsets] using hl)
      · exact .inr (hservo ▸ hsv)
    · rw [hreqs, foldl_applyReq_offsets, hservo]
      rfl
  · refine markerEdge_takes hon (.inl (by simp [hreqs])) ?_
    rw [hreqs, List.foldl_append, List.foldl_cons, foldl_applyReq_offsets, hservo]
    rfl

theorem does_timFreqAdjWrite {d e : Dev} (hon : On d) {inp : Fin 101} {desc : Bool} {adj : BitVec 36} {st : Nat}
    (h : writeFreqAdj ⟨inp, desc⟩ adj.toNat d = (e, st)) :
    Does (.timFreqAdjWrite inp desc adj) d (e.complete ⟨inp, desc⟩ st 0) := by
  have := does_of_run (c := .timFreqAdjWrite inp desc adj) hon fun _ => rfl
  simpa only [h] using this

/-- The source as it acts: 1 and 2 name one, 0 and 3 none. -/
theorem servoSrc_eq (d : Dev) : d.servoSrc = if d.rd R.TIM_SERVO_CFG_src = 3 then 0 else d.rd R.TIM_SERVO_CFG_src := rfl

theorem timeSetting : TimeSetting := by
  intro d hon inp desc ofs adj
  have hset := does_of_run (c := .timSetGo inp) hon fun _ => rfl
  have hstep := does_of_run (c := .timStep inp ofs) hon fun _ => rfl
  rw [complete_accepted _ _ _ ok_accepted] at hset hstep
  refine ⟨hset, hstep, fun hl => ?_, fun hl hsrc => ?_, fun hl hsrc => ?_⟩
  · have hl : d.locked ⟨inp, desc⟩ = true := hl
    have := does_timFreqAdjWrite (e := d) (inp := inp) (desc := desc) (adj := adj) hon (if_pos hl)
    rwa [complete_denied (st := Sts.locked) _ _ _ (.inr (.inr rfl))] at this
  · have hl : d.locked ⟨inp, desc⟩ = false := hl
    have hs : d.servoSrc ≠ 0 := by rw [servoSrc_eq]; split <;> omega
    have := does_timFreqAdjWrite (e := d) (inp := inp) (desc := desc) (adj := adj) hon ((if_neg (by simp [hl])).trans (if_pos hs))
    rwa [complete_accepted _ _ _ (by decide)] at this
  · have hl : d.locked ⟨inp, desc⟩ = false := hl
    have hs : ¬ d.servoSrc ≠ 0 := by rw [servoSrc_eq]; split <;> omega
    have := does_timFreqAdjWrite (inp := inp) (desc := desc) (adj := adj) hon ((if_neg (by simp [hl])).trans (if_neg hs))
    rwa [complete_accepted _ _ _ ok_accepted] at this

/-- Settles O11: the marker by the requests that wait for it, the writes that make them. -/
theorem timebaseSteps : Obligations.TimebaseSteps := ⟨timeSteps, timeSetting⟩

end Sys2Proof.Claims
end

section
/-! SUPPORT. The servo: its states, the writes of its source, the loss of the source (Table 02-2). -/

namespace Sys2Proof.Machine

open Sys2Proof.Claims

variable {d e : Dev}

/-! ### What the servo leaves unchanged -/

theorem onlyServo_refl (d : Dev) : onlyServo d d := ⟨rfl, rfl, rfl, rfl, rfl, rfl, rfl, rfl, rfl⟩

theorem onlyServo_trans {a b c : Dev} (h : onlyServo a b) (g : onlyServo b c) : onlyServo a c := by
  obtain ⟨h₁, h₂, h₃, h₄, h₅, h₆, h₇, h₈, h₉⟩ := h
  obtain ⟨g₁, g₂, g₃, g₄, g₅, g₆, g₇, g₈, g₉⟩ := g
  exact ⟨g₁.trans h₁, g₂.trans h₂, g₃.trans h₃, g₄.trans h₄, g₅.trans h₅, g₆.trans h₆, g₇.trans h₇, g₈.trans h₈, g₉.trans h₉⟩

theorem onlyServo_ite {c : Prop} [Decidable c] {a b : Dev} (ha : onlyServo d a) (hb : onlyServo d b) :
    onlyServo d (if c then a else b) := by
  split
  · exact ha
  · exact hb

theorem onlyServo_wr (h : onlyServo d e) (f : Field) (ix : List Nat) (v : Nat) : onlyServo d (e.wr f ix v) := h

theorem onlyServo_raise (h : onlyServo d e) (src info : Nat) : onlyServo d (e.raise src info) := by
  obtain ⟨regs, evt, hr⟩ := raiseAt_eq e src info e.nowRaw none
  rw [Dev.raise, hr]
  exact h

theorem RegsWithin.onlyServo {K : Nat → Prop} (h : RegsWithin K d e) : onlyServo d e := by
  rw [h.eq]
  exact onlyServo_refl d

/-! ### A state entered -/

/-- The timebase when the servo enters state `new`. -/
def enteredTim (d : Dev) (new : Nat) : TimSt := { d.tim with
  lockRun := 0
  unlockRun := 0
  everLocked := d.tim.everLocked || new == 2
  leftLocked := if d.rd R.TIM_STATUS_servo = 2 then d.clock else d.tim.leftLocked
  specDone := if d.rd R.TIM_STATUS_servo = 2 then false else d.tim.specDone
  corr := if new = 2 then [] else d.tim.corr }

/-- The device when the servo has entered another state, before the event. -/
def entered (d : Dev) (new : Nat) : Dev :=
  let e := if new = 3 then d.wrS R.TIM_FREQ_ADJ_adj [] d.holdoverRate else d
  ((({ e with tim := enteredTim d new } : Dev).wr R.TIM_STATUS_servo [] new).wr R.TIM_SERVO_STAT_samples [] 0)

theorem servoEnter_same {new : Nat} (h : d.rd R.TIM_STATUS_servo = new) : d.servoEnter new = d := if_pos h.symm

theorem servoEnter_new {new : Nat} (h : d.rd R.TIM_STATUS_servo ≠ new) :
    d.servoEnter new = (entered d new).raise Ev.servoState new := by
  rw [Dev.servoEnter, if_neg (Ne.symm h)]
  by_cases h3 : new = 3
  · subst h3; rfl
  · simp only [entered, if_neg h3]; rfl

theorem servoEnter_tim {new : Nat} (h : d.rd R.TIM_STATUS_servo ≠ new) : (d.servoEnter new).tim = enteredTim d new := by
  rw [servoEnter_new h, raise_tim]
  rfl

theorem servoEnter_only (d : Dev) (new : Nat) : onlyServo d (d.servoEnter new) := by
  by_cases h : d.rd R.TIM_STATUS_servo = new
  · rw [servoEnter_same h]
    exact onlyServo_refl d
  · rw [servoEnter_new h]
    refine onlyServo_raise ?_ _ _
    unfold entered
    extract_lets e
    have he : onlyServo d e := onlyServo_ite (onlyServo_wr (onlyServo_refl d) _ _ _) (onlyServo_refl d)
    obtain ⟨h₁, h₂, h₃, -, -, -, h₇, h₈, h₉⟩ := he
    exact ⟨h₁, h₂, h₃, rfl, rfl, rfl, h₇, h₈, h₉⟩

theorem servoEnter_state {new : Nat} (hn : new < 8) (d : Dev) : (d.servoEnter new).rd R.TIM_STATUS_servo = new := by
  by_cases h : d.rd R.TIM_STATUS_servo = new
  · rw [servoEnter_same h, h]
  · rw [servoEnter_new h, raise_rd _ _ (by decide) (by decide), entered, rd_wr_ne _ _ _ _ _ _ (by decide), rd_wr]
    exact Nat.mod_eq_of_lt hn

/-- Outside HOLDOVER's entry the servo's state and its count of samples are the only registers written. -/
theorem servoEnter_rd {new : Nat} (hn : new ≠ 3) {f : Field} {ix : List Nat} (hlt : f.key ix < 0x600000)
    (hne : f.key ix ≠ 0x80081 ∧ f.key ix ≠ 0x808B0) (d : Dev) : (d.servoEnter new).rd f ix = d.rd f ix := by
  by_cases h : d.rd R.TIM_STATUS_servo = new
  · rw [servoEnter_same h]
  · rw [servoEnter_new h, raise_rd _ _ (by decide) hlt, entered, if_neg hn, rd_wr_ne _ _ _ _ _ _ hne.2, rd_wr_ne _ _ _ _ _ _ hne.1]
    rfl

/-! ### The source written (R66) -/

/-- The source that a value of src names: 3 acts as none. -/
def acting (src : Nat) : Nat := if src = 3 then 0 else src

/-- The source before the write is deselected. -/
def srcDropped (d : Dev) (v : Nat) : Dev :=
  let e := d.wr R.TIM_SERVO_CFG_src [] v
  if d.servoSrc ≠ 0 ∧ e.servoSrc ≠ d.servoSrc then e.servoEnter 0 else e

/-- The device after a write of src that ring lock does not stand against. -/
def srcWritten (d : Dev) (v : Nat) : Dev :=
  let e := srcDropped d v
  if e.servoSrc ≠ 0 ∧ e.rd R.TIM_STATUS_servo = 0 then e.servoEnter 1 else e

theorem writeServoSrc_unlocked {q : Req} (h : d.locked q = false) (v : Nat) : writeServoSrc q v d = (srcWritten d v, Sts.ok) :=
  if_neg (by simp [h])

theorem servoSrc_acting (d : Dev) : d.servoSrc = acting (d.rd R.TIM_SERVO_CFG_src) := rfl

theorem servoEnter_src {new : Nat} (hn : new ≠ 3) (d : Dev) :
    (d.servoEnter new).rd R.TIM_SERVO_CFG_src = d.rd R.TIM_SERVO_CFG_src :=
  servoEnter_rd hn (by decide) (by decide) d

theorem srcDropped_spec {v : Nat} (hv : v < 4) (d : Dev) :
    onlyServo d (srcDropped d v) ∧ (srcDropped d v).rd R.TIM_SERVO_CFG_src = v ∧
      (srcDropped d v).rd R.TIM_STATUS_servo =
        if acting (d.rd R.TIM_SERVO_CFG_src) ≠ 0 ∧ acting v ≠ acting (d.rd R.TIM_SERVO_CFG_src) then 0
        else d.rd R.TIM_STATUS_servo := by
  have hsrc : (d.wr R.TIM_SERVO_CFG_src [] v).rd R.TIM_SERVO_CFG_src = v := (rd_wr ..).trans (Nat.mod_eq_of_lt hv)
  simp only [srcDropped, servoSrc_acting, hsrc]
  split
  · exact ⟨servoEnter_only _ _, (servoEnter_src (by decide) _).trans hsrc, servoEnter_state (by decide) _⟩
  · exact ⟨onlyServo_refl d, hsrc, rd_wr_ne _ _ _ _ _ _ (by decide)⟩

theorem srcWritten_spec {v : Nat} (hv : v < 4) (d : Dev) :
    onlyServo d (srcWritten d v) ∧ (srcWritten d v).rd R.TIM_SERVO_CFG_src = v ∧
      (srcWritten d v).rd R.TIM_STATUS_servo =
        if acting v ≠ 0 ∧ (srcDropped d v).rd R.TIM_STATUS_servo = 0 then 1 else (srcDropped d v).rd R.TIM_STATUS_servo := by
  obtain ⟨honly, hsrc, -⟩ := srcDropped_spec hv d
  simp only [srcWritten, servoSrc_acting, hsrc]
  split
  · exact ⟨onlyServo_trans honly (servoEnter_only _ _), (servoEnter_src (by decide) _).trans hsrc,
      servoEnter_state (by decide) _⟩
  · exact ⟨honly, hsrc, rfl⟩

/-! ### The source lost (R68) -/

theorem servoLost_locked (h : d.rd R.TIM_STATUS_servo = 2) : d.servoLost = d.servoEnter 3 := by
  simp [Dev.servoLost, h]

theorem servoLost_acquiring (h : d.rd R.TIM_STATUS_servo = 1) : d.servoLost = d.servoEnter 0 := by
  simp [Dev.servoLost, h]

/-- LOCKED goes to HOLDOVER, and the time of it is kept; ACQUIRING goes to FREERUN. -/
theorem servoLost_spec (d : Dev) :
    (d.rd R.TIM_STATUS_servo = 2 → d.servoLost.rd R.TIM_STATUS_servo = 3 ∧ d.servoLost.tim.leftLocked = d.clock) ∧
      (d.rd R.TIM_STATUS_servo = 1 → d.servoLost.rd R.TIM_STATUS_servo = 0) := by
  refine ⟨fun h => ?_, fun h => ?_⟩
  · rw [servoLost_locked h, servoEnter_tim (by omega)]
    exact ⟨servoEnter_state (by decide) d, if_pos h⟩
  · rw [servoLost_acquiring h]
    exact servoEnter_state (by decide) d

theorem ptpEnter_keeps (d : Dev) (p : Fin 2) (st : Nat) :
    (d.ptpEnter p st).tim = d.tim ∧ ∀ {f : Field} {ix : List Nat}, f.key ix < 0x81000 → (d.ptpEnter p st).rd f ix = d.rd f ix := by
  have hkey : 0x81000 ≤ R.TIM_PTP_STAT_state.key [p] := by
    rw [show R.TIM_PTP_STAT_state.key [p] = 0x81040 + 512 * p from key_one rfl p]
    omega
  have hev : Ev.ptpState + p < 320 := by unfold Ev.ptpState; omega
  unfold Dev.ptpEnter
  extract_lets st'
  split
  · exact ⟨rfl, fun _ => rfl⟩
  · refine ⟨raise_tim .., fun hlt => ?_⟩
    rw [raise_rd _ _ hev (by omega), rd_wr_ne _ _ _ _ _ _ (by omega)]

theorem ppsLost_due (hsrc : d.rd R.TIM_SERVO_CFG_src = 2) (h : d.tim.lastPps + 2 * second ≤ d.clock) : ppsLost d = d.servoLost :=
  if_pos ⟨by rw [servoSrc_acting, hsrc]; rfl, decide_eq_true h⟩

theorem logSeconds_le {log : Int} (h : log ≤ 1) : logSeconds log ≤ 2 * second := by
  have hsec : beadsPerSec = second := rfl
  unfold logSeconds
  split
  · exact (Nat.div_le_self _ _).trans (by omega)
  · have : 2 ^ log.toNat ≤ 2 ^ 1 := Nat.pow_le_pow_right (by decide) (by omega)
    rw [hsec, Nat.mul_comm]
    exact Nat.mul_le_mul_right _ this

/-- Ten intervals of two seconds are no less than any time-out of Announce. -/
theorem announceTimeout_due {p : Fin 2} {st : Nat} (hsrc : d.rd R.TIM_SERVO_CFG_src = 1)
    (hst : d.rd R.TIM_PTP_STAT_state [p] = 9) (h : tget 0 d.tim.lastSync p + 10 * 2 * second ≤ d.clock) :
    announceTimeout p st d = (d.ptpEnter p st).servoLost := by
  have hclamp (x : Int) : clampInt (-3) 1 x ≤ 1 := by unfold clampInt; omega
  have hwait : min 10 (max 2 (d.rd R.TIM_PTP_CFG_ann_tmo [p])) *
      logSeconds (clampInt (-3) 1 (d.rdS R.TIM_PTP_CFG_ann_log [p])) ≤ 10 * (2 * second) :=
    Nat.mul_le_mul (Nat.min_le_left _ _) (logSeconds_le (hclamp _))
  have hsrc' : (d.ptpEnter p st).servoSrc = 1 := by
    rw [servoSrc_acting, (ptpEnter_keeps d p st).2 (by decide), hsrc]
    rfl
  have hdue : d.passed (tget 0 d.tim.lastSync p + min 10 (max 2 (d.rd R.TIM_PTP_CFG_ann_tmo [p])) *
      logSeconds (clampInt (-3) 1 (d.rdS R.TIM_PTP_CFG_ann_log [p]))) = true := decide_eq_true (by omega)
  exact (if_pos ⟨hst, hdue⟩).trans (if_pos hsrc')

end Sys2Proof.Machine
end

section
/-! SUPPORT. A sample of the servo: what it records, the runs it counts, the gain schedule behind it (R65 to R67). -/

namespace Sys2Proof.Machine

open Sys2Proof.Claims

variable {d e : Dev}

/-! ### Signed fields -/

theorem toSigned_ofSigned {w : Nat} (hw : 0 < w) {x : Int} (hlo : -(2 ^ (w - 1) : Nat) ≤ x) (hhi : x < (2 ^ (w - 1) : Nat)) :
    toSigned w (ofSigned w x % 2 ^ w) = x := by
  have hp : 2 ^ w = 2 * 2 ^ (w - 1) := by rw [← Nat.pow_succ', Nat.succ_eq_add_one, Nat.sub_add_cancel hw]
  rw [toSigned, ofSigned, hp]
  generalize 2 ^ (w - 1) = p at hlo hhi
  have hx : x % ((2 * p : Nat) : Int) = if x < 0 then x + 2 * p else x := by
    split
    next hneg =>
      rw [← Int.add_emod_right]
      exact Int.emod_eq_of_lt (by omega) (by omega)
    next hneg => exact Int.emod_eq_of_lt (by omega) (by omega)
  rw [hx, Nat.mod_mod, Nat.mod_eq_of_lt (by split <;> omega)]
  split_ifs <;> omega

theorem rdS_wrS {f : Field} (hw : 0 < f.width) (ix : List Nat) {x : Int} (hlo : -(2 ^ (f.width - 1) : Nat) ≤ x)
    (hhi : x < (2 ^ (f.width - 1) : Nat)) (d : Dev) : (d.wrS f ix x).rdS f ix = x := by
  rw [Dev.rdS, Dev.wrS, rd_wr]
  exact toSigned_ofSigned hw hlo hhi

/-! ### What a sample records -/

/-- The rate correction after a sample. -/
def sampleRate (d : Dev) (ofs : Int) : Int :=
  ((d.wrS R.TIM_SERVO_STAT_offset [] (satSigned 48 ofs)).bump R.TIM_SERVO_STAT_samples []).servoRate ofs

/-- The device with a sample's offset, its count and the rate correction it makes. -/
def measured (d : Dev) (ofs : Int) : Dev :=
  ((d.wrS R.TIM_SERVO_STAT_offset [] (satSigned 48 ofs)).bump R.TIM_SERVO_STAT_samples []).wrS R.TIM_FREQ_ADJ_adj []
    (sampleRate d ofs)

/-- The registers a sample writes before the servo changes its state. -/
def sampleKey (k : Nat) : Prop := k = 0x80100 ∨ k = 0x80880 ∨ k = 0x808B0

theorem measured_within (d : Dev) (ofs : Int) : RegsWithin sampleKey d (measured d ofs) :=
  (((RegsWithin.refl _ d).wr (.inr (.inl rfl)) _).wr (.inr (.inr rfl)) _).wr (.inl rfl) _

/-- slew_ppm as a limit of the correction, at most 122 ppm. -/
def slewLimit (d : Dev) : Nat := min (d.rd R.TIM_SERVO_CFG_slew_ppm) 122 * 2 ^ 48 / 10 ^ 6

theorem slewLimit_lt (d : Dev) : slewLimit d < 2 ^ 35 := by
  unfold slewLimit
  omega

theorem sampleRate_bounds (d : Dev) (ofs : Int) : -(slewLimit d : Int) ≤ sampleRate d ofs ∧ sampleRate d ofs ≤ slewLimit d := by
  have hslew : ((d.wrS R.TIM_SERVO_STAT_offset [] (satSigned 48 ofs)).bump R.TIM_SERVO_STAT_samples []).rd
      R.TIM_SERVO_CFG_slew_ppm = d.rd R.TIM_SERVO_CFG_slew_ppm := by
    rw [Dev.bump, Dev.wrS, rd_wr_ne _ _ _ _ _ _ (by decide), rd_wr_ne _ _ _ _ _ _ (by decide)]
  have hlim : min (d.rd R.TIM_SERVO_CFG_slew_ppm) 122 * 281474976710656 / 1000000 = slewLimit d := rfl
  have hlt := slewLimit_lt d
  rw [sampleRate, Dev.servoRate]
  simp only [hslew, hlim]
  generalize Config.servoOutput _ _ _ _ = v
  unfold clampInt satSigned
  generalize slewLimit d = lim at hlt
  split_ifs <;> omega

theorem measured_offset (d : Dev) (ofs : Int) : (measured d ofs).rdS R.TIM_SERVO_STAT_offset = sampleField ofs := by
  have hfield : satSigned 48 ofs = sampleField ofs := by
    unfold satSigned sampleField within
    split_ifs <;> omega
  have hrd : (measured d ofs).rdS R.TIM_SERVO_STAT_offset =
      (d.wrS R.TIM_SERVO_STAT_offset [] (satSigned 48 ofs)).rdS R.TIM_SERVO_STAT_offset := by
    rw [Dev.rdS, measured, Dev.wrS, rd_wr_ne _ _ _ _ _ _ (by decide), Dev.bump, rd_wr_ne _ _ _ _ _ _ (by decide)]
    rfl
  have hbounds : -(2 ^ 47) ≤ sampleField ofs ∧ sampleField ofs < 2 ^ 47 := by
    unfold sampleField within
    omega
  rw [hrd, hfield]
  exact rdS_wrS (by decide) [] hbounds.1 hbounds.2 d

theorem measured_adj (d : Dev) (ofs : Int) : (measured d ofs).rdS R.TIM_FREQ_ADJ_adj = sampleRate d ofs := by
  obtain ⟨hlo, hhi⟩ := sampleRate_bounds d ofs
  have hlt := slewLimit_lt d
  have hpow : (2 ^ (R.TIM_FREQ_ADJ_adj.width - 1) : Nat) = 2 ^ 35 := rfl
  exact rdS_wrS (by decide) [] (by omega) (by omega) _

/-! ### The gain schedule (R503) -/

/-- The gains, the registers of PTP and of the Herdsman. -/
def gainKey (k : Nat) : Prop := k = 0x80840 ∨ k = 0x80860 ∨ 0x81000 ≤ k

theorem moveDreq_within (d : Dev) (x : Int) : RegsWithin gainKey d (d.moveDreq x) := by
  refine (RegsWithin.refl gainKey d).foldl fun p _ e he => .ite (he.wr ?_ _) he
  rw [show R.TIM_PTP_CFG_dreq_log.key [p] = 0x81015 + 512 * p from key_one rfl p]
  exact .inr (.inr (by omega))

theorem hrdCount_within {K : Nat → Prop} (h : RegsWithin K d e) {k : Nat} (hk : K (0x704000 + 64 * k)) :
    RegsWithin K d (e.hrdCount k) :=
  h.wr (by rw [show R.HRD_CNT_count.key [k] = 0x704000 + 64 * k from key_one rfl k]; exact hk) _

theorem gainSchedule_within (d : Dev) (old : Nat) : RegsWithin gainKey d (d.gainSchedule old) := by
  unfold Dev.gainSchedule
  obtain ⟨kp, ki, m⟩ := d.gainPlan old
  have hset := hrdCount_within (k := 9) (((RegsWithin.refl gainKey d).wr (f := R.TIM_SERVO_KP_gain) (ix := []) (.inl rfl) kp).wr
    (f := R.TIM_SERVO_KI_gain) (ix := []) (.inr (.inl rfl)) ki) (.inr (.inr (by decide)))
  exact .ite (.refl _ d) (.ite (hrdCount_within (.refl _ d) (.inr (.inr (by decide))))
    (.ite hset (hset.trans (moveDreq_within _ m))))

/-! ### The runs of samples (Table 02-2) -/

/-- What the magnitude of a sample's offset is compared with, in beads. -/
def lockBeads (d : Dev) : Int := d.rd R.TIM_SERVO_CFG_lock_ns * 65536
def stepBeads (d : Dev) : Int := d.rd R.TIM_SERVO_CFG_step_ns * 65536

/-- A timebase with a sample counted in ACQUIRING, and in LOCKED. -/
def counted (t : TimSt) (step : Option Int) (run : Nat) : TimSt := { t with servoStep := step, lockRun := run }
def followed (t : TimSt) (run : Nat) (corr : List (Nat × Int)) : TimSt := { t with unlockRun := run, corr := corr }

section
variable (t : TimSt) (step : Option Int) (run : Nat) (corr : List (Nat × Int))
@[simp] theorem counted_now : (counted t step run).now = t.now := rfl
@[simp] theorem counted_stepReqs : (counted t step run).stepReqs = t.stepReqs := rfl
@[simp] theorem counted_replicas : (counted t step run).replicas = t.replicas := rfl
@[simp] theorem counted_servoStep : (counted t step run).servoStep = step := rfl
@[simp] theorem counted_lockRun : (counted t step run).lockRun = run := rfl
@[simp] theorem followed_now : (followed t run corr).now = t.now := rfl
@[simp] theorem followed_stepReqs : (followed t run corr).stepReqs = t.stepReqs := rfl
@[simp] theorem followed_replicas : (followed t run corr).replicas = t.replicas := rfl
@[simp] theorem followed_servoStep : (followed t run corr).servoStep = t.servoStep := rfl
@[simp] theorem followed_unlockRun : (followed t run corr).unlockRun = run := rfl
end

/-- The timebase after a sample in ACQUIRING, and in LOCKED. -/
def acquiredTim (d : Dev) (ofs : Int) : TimSt :=
  counted d.tim (if stepBeads d < ofs.natAbs then some (-ofs) else d.tim.servoStep)
    (if (ofs.natAbs : Int) ≤ lockBeads d then d.tim.lockRun + 1 else 0)
def trackedTim (d : Dev) (ofs : Int) : TimSt :=
  followed d.tim (if 8 * lockBeads d < ofs.natAbs then d.tim.unlockRun + 1 else 0) ((d.clock, sampleRate d ofs) :: d.tim.corr)

theorem measured_state (d : Dev) (ofs : Int) : (measured d ofs).rd R.TIM_STATUS_servo = d.rd R.TIM_STATUS_servo :=
  (measured_within d ofs).rd (by unfold sampleKey; decide)

theorem measured_step (d : Dev) (ofs : Int) : (measured d ofs).rd R.TIM_SERVO_CFG_step_ns = d.rd R.TIM_SERVO_CFG_step_ns :=
  (measured_within d ofs).rd (by unfold sampleKey; decide)

/-- A sample in ACQUIRING before the gain schedule: one beyond step_ns steps time, the sixteenth of a run locks. -/
def acquired (d : Dev) (ofs : Int) : Dev :=
  let e := measured d ofs
  let e := if (ofs.natAbs : Int) > e.rd R.TIM_SERVO_CFG_step_ns * 65536
    then e.withTim fun t => { t with servoStep := some (-ofs) } else e
  let n := if (ofs.natAbs : Int) ≤ lockBeads d then e.tim.lockRun + 1 else 0
  let e := e.withTim fun t => { t with lockRun := n }
  if n ≥ 16 then e.servoEnter 2 else e

/-- A sample in LOCKED before the gain schedule: the fourth of a run beyond 8 × lock_ns leaves it. -/
def tracked (d : Dev) (ofs : Int) : Dev :=
  let e := measured d ofs
  let n := if (ofs.natAbs : Int) > 8 * lockBeads d then e.tim.unlockRun + 1 else 0
  let e := e.withTim fun t => { t with unlockRun := n, corr := (e.clock, sampleRate d ofs) :: t.corr }
  if n ≥ 4 then e.servoEnter 1 else e

theorem servoTake_eq (d : Dev) (ofs : Int) : d.servoTake ofs =
    (let e := if d.rd R.TIM_STATUS_servo = 3 then d.servoEnter 1 else d
     if (measured e ofs).rd R.TIM_STATUS_servo = 1 then acquired e ofs else tracked e ofs).gainSchedule
      (d.rd R.TIM_STATUS_servo) := rfl

theorem servoTake_acquiring (h : d.rd R.TIM_STATUS_servo = 1) (ofs : Int) :
    d.servoTake ofs = (acquired d ofs).gainSchedule 1 := by
  have h3 : ¬ d.rd R.TIM_STATUS_servo = 3 := by omega
  rw [servoTake_eq]
  simp only [if_neg h3, measured_state, if_pos h]
  rw [h]

theorem servoTake_locked (h : d.rd R.TIM_STATUS_servo = 2) (ofs : Int) :
    d.servoTake ofs = (tracked d ofs).gainSchedule 2 := by
  have h3 : ¬ d.rd R.TIM_STATUS_servo = 3 := by omega
  have h1 : ¬ d.rd R.TIM_STATUS_servo = 1 := by omega
  rw [servoTake_eq]
  simp only [if_neg h3, measured_state, if_neg h1]
  rw [h]

/-- The device with a sample recorded and its run counted, before the servo changes its state. -/
def acquiredDev (d : Dev) (ofs : Int) : Dev := { measured d ofs with tim := acquiredTim d ofs }
def trackedDev (d : Dev) (ofs : Int) : Dev := { measured d ofs with tim := trackedTim d ofs }

theorem acquired_eq (d : Dev) (ofs : Int) : acquired d ofs =
    if 16 ≤ (acquiredTim d ofs).lockRun then (acquiredDev d ofs).servoEnter 2 else acquiredDev d ofs := by
  have htim : (measured d ofs).tim = d.tim := (measured_within d ofs).tim
  unfold acquired acquiredDev
  by_cases hs : (ofs.natAbs : Int) > d.rd R.TIM_SERVO_CFG_step_ns * 65536
  · have hs' : stepBeads d < ofs.natAbs := hs
    simp only [measured_step, if_pos hs, acquiredTim, counted, if_pos hs', Dev.withTim, htim]
  · have hs' : ¬ stepBeads d < ofs.natAbs := hs
    simp only [measured_step, if_neg hs, acquiredTim, counted, if_neg hs', Dev.withTim, htim]

theorem tracked_eq (d : Dev) (ofs : Int) : tracked d ofs =
    if 4 ≤ (trackedTim d ofs).unlockRun then (trackedDev d ofs).servoEnter 1 else trackedDev d ofs := by
  have htim : (measured d ofs).tim = d.tim := (measured_within d ofs).tim
  have hclock : (measured d ofs).clock = d.clock := (measured_within d ofs).clock
  unfold tracked trackedDev
  simp only [hclock, Dev.withTim, htim]
  rfl

end Sys2Proof.Machine
end

section
/-! SUPPORT. The servo's obligation, by the state a sample finds. -/

namespace Sys2Proof.Machine

open Sys2Proof.Claims

variable {d e : Dev}

/-! ### After a sample -/

/-- The registers a sample leaves to the gain schedule: the offset, the correction, the state. -/
theorem gainSchedule_rd {f : Field} {ix : List Nat} (d : Dev) (old : Nat) (h : f.key ix < 0x80840) :
    (d.gainSchedule old).rd f ix = d.rd f ix :=
  (gainSchedule_within d old).rd (by unfold gainKey; omega)

/-- What a sample has recorded, when the servo has then entered a state other than HOLDOVER or none. -/
structure Sampled (d : Dev) (ofs : Int) (e : Dev) : Prop where
  only : onlyServo d e
  offset : e.rdS R.TIM_SERVO_STAT_offset = sampleField ofs
  adj : e.rdS R.TIM_FREQ_ADJ_adj = sampleRate d ofs

theorem Sampled.enter {ofs : Int} (h : Sampled d ofs e) {new : Nat} (hn : new ≠ 3) : Sampled d ofs (e.servoEnter new) where
  only := onlyServo_trans h.only (servoEnter_only e new)
  offset := by rw [Dev.rdS, servoEnter_rd hn (by decide) (by decide)]; exact h.offset
  adj := by rw [Dev.rdS, servoEnter_rd hn (by decide) (by decide)]; exact h.adj

theorem Sampled.gains {ofs : Int} (h : Sampled d ofs e) (old : Nat) : Sampled d ofs (e.gainSchedule old) where
  only := onlyServo_trans h.only (gainSchedule_within e old).onlyServo
  offset := by
    rw [Dev.rdS, Dev.rd, (gainSchedule_within e old).regs _ (by unfold gainKey; decide)]
    exact h.offset
  adj := by rw [Dev.rdS, gainSchedule_rd _ _ (by decide)]; exact h.adj

theorem rd_tim (d : Dev) (t : TimSt) (f : Field) (ix : List Nat) : ({ d with tim := t } : Dev).rd f ix = d.rd f ix := rfl

theorem onlyServo_out (h : onlyServo d e) (l : List Out) : onlyServo { d with out := l } { e with out := l } := by
  obtain ⟨h₁, h₂, -, h₄, h₅, h₆, h₇, h₈, h₉⟩ := h
  exact ⟨h₁, h₂, rfl, h₄, h₅, h₆, h₇, h₈, h₉⟩

theorem Sampled.withTim {ofs : Int} {t : TimSt} (h : Sampled d ofs e) (hnow : t.now = d.tim.now)
    (hreq : t.stepReqs = d.tim.stepReqs) (hrep : t.replicas = d.tim.replicas) : Sampled d ofs { e with tim := t } where
  only := by
    obtain ⟨h₁, h₂, h₃, -, -, -, h₇, h₈, h₉⟩ := h.only
    exact ⟨h₁, h₂, h₃, hnow, hreq, hrep, h₇, h₈, h₉⟩
  offset := h.offset
  adj := h.adj

theorem measured_sampled (d : Dev) (ofs : Int) : Sampled d ofs (measured d ofs) :=
  ⟨(measured_within d ofs).onlyServo, measured_offset d ofs, measured_adj d ofs⟩

theorem acquiredDev_sampled (d : Dev) (ofs : Int) : Sampled d ofs (acquiredDev d ofs) :=
  (measured_sampled d ofs).withTim (by simp [acquiredTim]) (by simp [acquiredTim]) (by simp [acquiredTim])

theorem trackedDev_sampled (d : Dev) (ofs : Int) : Sampled d ofs (trackedDev d ofs) :=
  (measured_sampled d ofs).withTim (by simp [trackedTim]) (by simp [trackedTim]) (by simp [trackedTim])

theorem servoTake_sampled (h : d.rd R.TIM_STATUS_servo = 1 ∨ d.rd R.TIM_STATUS_servo = 2) (ofs : Int) :
    Sampled d ofs (d.servoTake ofs) := by
  rcases h with h | h
  · rw [servoTake_acquiring h, acquired_eq]
    refine Sampled.gains ?_ 1
    split
    · exact (acquiredDev_sampled d ofs).enter (by decide)
    · exact acquiredDev_sampled d ofs
  · rw [servoTake_locked h, tracked_eq]
    refine Sampled.gains ?_ 2
    split
    · exact (trackedDev_sampled d ofs).enter (by decide)
    · exact trackedDev_sampled d ofs

theorem acquiredDev_tim (d : Dev) (ofs : Int) : (acquiredDev d ofs).tim = acquiredTim d ofs := rfl

theorem trackedDev_tim (d : Dev) (ofs : Int) : (trackedDev d ofs).tim = trackedTim d ofs := rfl

theorem trackedTim_servoStep (d : Dev) (ofs : Int) : (trackedTim d ofs).servoStep = d.tim.servoStep := by
  rw [trackedTim, followed_servoStep]

theorem acquiredDev_state (d : Dev) (ofs : Int) : (acquiredDev d ofs).rd R.TIM_STATUS_servo = d.rd R.TIM_STATUS_servo :=
  (rd_tim ..).trans (measured_state d ofs)

theorem trackedDev_state (d : Dev) (ofs : Int) : (trackedDev d ofs).rd R.TIM_STATUS_servo = d.rd R.TIM_STATUS_servo :=
  (rd_tim ..).trans (measured_state d ofs)

theorem enteredTim_servoStep (d : Dev) (new : Nat) : (enteredTim d new).servoStep = d.tim.servoStep := rfl

theorem enteredTim_everLocked (d : Dev) : (enteredTim d 2).everLocked = true := Bool.or_true _

/-- A sample in ACQUIRING: it locks when its run comes to sixteen. -/
theorem servoTake_acquiring_state (h : d.rd R.TIM_STATUS_servo = 1) (ofs : Int) :
    (d.servoTake ofs).tim.servoStep = (acquiredTim d ofs).servoStep ∧
      (16 ≤ (acquiredTim d ofs).lockRun →
        (d.servoTake ofs).rd R.TIM_STATUS_servo = 2 ∧ (d.servoTake ofs).tim.everLocked = true) ∧
      ((acquiredTim d ofs).lockRun < 16 → (d.servoTake ofs).rd R.TIM_STATUS_servo = 1 ∧
        (d.servoTake ofs).tim.lockRun = (acquiredTim d ofs).lockRun) := by
  have hne : (acquiredDev d ofs).rd R.TIM_STATUS_servo ≠ 2 := by rw [acquiredDev_state, h]; decide
  rw [servoTake_acquiring h, gainSchedule_rd _ _ (by decide), (gainSchedule_within _ 1).tim, acquired_eq]
  by_cases hrun : 16 ≤ (acquiredTim d ofs).lockRun
  · rw [if_pos hrun, servoEnter_tim hne, enteredTim_servoStep, acquiredDev_tim]
    exact ⟨rfl, fun _ => ⟨servoEnter_state (by decide) _, enteredTim_everLocked _⟩, fun hlt => absurd hrun (by omega)⟩
  · rw [if_neg hrun, acquiredDev_tim]
    exact ⟨rfl, fun hle => absurd hle hrun, fun _ => ⟨(acquiredDev_state d ofs).trans h, rfl⟩⟩

/-- A sample in LOCKED: it leaves when its run comes to four. -/
theorem servoTake_locked_state (h : d.rd R.TIM_STATUS_servo = 2) (ofs : Int) :
    (d.servoTake ofs).tim.servoStep = d.tim.servoStep ∧
      (4 ≤ (trackedTim d ofs).unlockRun → (d.servoTake ofs).rd R.TIM_STATUS_servo = 1) ∧
      ((trackedTim d ofs).unlockRun < 4 → (d.servoTake ofs).rd R.TIM_STATUS_servo = 2 ∧
        (d.servoTake ofs).tim.unlockRun = (trackedTim d ofs).unlockRun) := by
  have hne : (trackedDev d ofs).rd R.TIM_STATUS_servo ≠ 1 := by rw [trackedDev_state, h]; decide
  rw [servoTake_locked h, gainSchedule_rd _ _ (by decide), (gainSchedule_within _ 2).tim, tracked_eq]
  by_cases hrun : 4 ≤ (trackedTim d ofs).unlockRun
  · rw [if_pos hrun, servoEnter_tim hne, enteredTim_servoStep, trackedDev_tim]
    exact ⟨trackedTim_servoStep d ofs, fun _ => servoEnter_state (by decide) _, fun hlt => absurd hrun (by omega)⟩
  · rw [if_neg hrun, trackedDev_tim]
    exact ⟨trackedTim_servoStep d ofs, fun hle => absurd hle hrun, fun _ => ⟨(trackedDev_state d ofs).trans h, rfl⟩⟩

/-- Past spec_s from the time LOCKED was left, clockClass is 187 (R62). -/
theorem clockClass_past (hst : d.rd R.TIM_STATUS_servo = 3 ∨ d.rd R.TIM_STATUS_servo = 1) (hl : d.tim.everLocked = true)
    (h : d.tim.leftLocked + d.rd R.TIM_HOLD_CFG_spec_s * second < d.clock) : d.clockClass = 187 := by
  have hw : ¬ d.clock ≤ d.tim.leftLocked + d.rd R.TIM_HOLD_CFG_spec_s * beadsPerSec := Nat.not_le.mpr h
  have hclass : d.clockClass =
      if d.tim.everLocked then
        (if decide (d.clock ≤ d.tim.leftLocked + d.rd R.TIM_HOLD_CFG_spec_s * beadsPerSec) then 7 else 187)
      else 248 := by
    rcases hst with hst | hst <;> simp only [Dev.clockClass, hst]
  rw [hclass, if_pos hl, if_neg (by simpa using hw)]

end Sys2Proof.Machine

namespace Sys2Proof.Claims

open Sys2Proof.Machine

theorem acting_ne_zero : ∀ v : BitVec 2, (v = 1 ∨ v = 2) ↔ acting v.toNat ≠ 0 := by decide

/-- The states a write of src leads to. -/
theorem srcWritten_states (d : Dev) (v : BitVec 2) :
    let state := fun (e : Dev) => e.rd R.TIM_STATUS_servo
    let src := d.rd R.TIM_SERVO_CFG_src
    let selects := v = 1 ∨ v = 2
    let d' := srcWritten d v.toNat
    ((src = 0 ∨ src = 3) → state d = 0 → selects → state d' = 1) ∧
      ((src = 0 ∨ src = 3) → state d = 0 → ¬ selects → state d' = 0) ∧
      (src = 1 ∨ src = 2 → ¬ selects → state d' = 0) ∧
      (src = 1 ∨ src = 2 → selects → v.toNat ≠ src → state d' = 1) ∧
      (src = 1 ∨ src = 2 → v.toNat = src → state d ≠ 0 → state d' = state d) := by
  obtain ⟨-, -, hdrop⟩ := srcDropped_spec v.isLt d
  obtain ⟨-, -, hstate⟩ := srcWritten_spec v.isLt d
  have hsel := acting_ne_zero v
  have hv : acting v.toNat = if v.toNat = 3 then 0 else v.toNat := rfl
  simp only [hsel, hstate, hdrop, acting] at hv ⊢
  clear hsel hdrop hstate
  generalize v.toNat = n at hv ⊢
  generalize d.rd R.TIM_SERVO_CFG_src = src
  generalize d.rd R.TIM_STATUS_servo = st
  refine ⟨?_, ?_, ?_, ?_, ?_⟩ <;> intros <;> split_ifs at * <;> omega

/-- The states and runs that a sample in LOCKED leads to. -/
theorem servoTake_locked_runs {d : Dev} (h : d.rd R.TIM_STATUS_servo = 2) (ofs : Int) :
    let e := d.servoTake ofs
    e.tim.servoStep = d.tim.servoStep ∧
      (ofs.natAbs ≤ 8 * lockBeads d → e.rd R.TIM_STATUS_servo = 2 ∧ e.tim.unlockRun = 0) ∧
      (8 * lockBeads d < ofs.natAbs → d.tim.unlockRun < 3 →
        e.rd R.TIM_STATUS_servo = 2 ∧ e.tim.unlockRun = d.tim.unlockRun + 1) ∧
      (8 * lockBeads d < ofs.natAbs → 3 ≤ d.tim.unlockRun → e.rd R.TIM_STATUS_servo = 1) := by
  obtain ⟨hstep, hleave, hstay⟩ := servoTake_locked_state h ofs
  have hin (hle : (ofs.natAbs : Int) ≤ 8 * lockBeads d) : (trackedTim d ofs).unlockRun = 0 := if_neg (by omega)
  have hout (hlt : 8 * lockBeads d < ofs.natAbs) : (trackedTim d ofs).unlockRun = d.tim.unlockRun + 1 := if_pos hlt
  refine ⟨hstep, fun hle => ?_, fun hlt hrun => ?_, fun hlt hrun => hleave ?_⟩
  · rw [← hin hle]
    exact hstay (by rw [hin hle]; decide)
  · rw [← hout hlt]
    exact hstay (by rw [hout hlt]; omega)
  · rw [hout hlt]; omega

/-- The states and runs that a sample in ACQUIRING leads to. -/
theorem servoTake_acquiring_runs {d : Dev} (h : d.rd R.TIM_STATUS_servo = 1) (ofs : Int) :
    let e := d.servoTake ofs
    e.tim.servoStep = (if stepBeads d < ofs.natAbs then some (-ofs) else d.tim.servoStep) ∧
      (lockBeads d < ofs.natAbs → e.rd R.TIM_STATUS_servo = 1 ∧ e.tim.lockRun = 0) ∧
      (ofs.natAbs ≤ lockBeads d → d.tim.lockRun < 15 →
        e.rd R.TIM_STATUS_servo = 1 ∧ e.tim.lockRun = d.tim.lockRun + 1) ∧
      (ofs.natAbs ≤ lockBeads d → 15 ≤ d.tim.lockRun → e.rd R.TIM_STATUS_servo = 2 ∧ e.tim.everLocked = true) := by
  obtain ⟨hstep, hlocks, hstay⟩ := servoTake_acquiring_state h ofs
  have hin (hle : (ofs.natAbs : Int) ≤ lockBeads d) : (acquiredTim d ofs).lockRun = d.tim.lockRun + 1 := if_pos hle
  have hout (hlt : lockBeads d < ofs.natAbs) : (acquiredTim d ofs).lockRun = 0 := if_neg (by omega)
  refine ⟨hstep, fun hlt => ?_, fun hle hrun => ?_, fun hle hrun => hlocks ?_⟩
  · rw [← hout hlt]
    exact hstay (by rw [hout hlt]; decide)
  · rw [← hin hle]
    exact hstay (by rw [hin hle]; omega)
  · rw [hin hle]; omega

theorem servoStates : ServoStates := by
  intro d hon
  dsimp only
  refine ⟨fun inp desc v hlock => ?_, fun ofs hsrc => ⟨fun h0 => ?_, fun h12 => ?_⟩, ⟨fun hsrc hpast => ?_,
    fun p st hsrc hslave hpast => ?_⟩, fun hst hl hdone hpast => ?_⟩
  · have hdoes := does_of_run (c := .servoSrcWrite inp desc v) hon fun _ => rfl
    obtain ⟨honly, hsrc, -⟩ := srcWritten_spec v.isLt d
    have hout : (srcWritten d v.toNat).out = d.out := by
      obtain ⟨-, -, hout, -⟩ := honly
      exact hout
    have hw : writeServoSrc ⟨inp, desc⟩ v.toNat d = _ := writeServoSrc_unlocked (q := ⟨inp, desc⟩) hlock v.toNat
    simp only [hw] at hdoes
    rw [complete_accepted _ _ _ ok_accepted] at hdoes
    exact ⟨_, hdoes, hsrc, onlyServo_out honly _, congrArg _ hout, srcWritten_states d v⟩
  · have hdoes := does_of_run (c := .servoSample ofs) hon fun _ => rfl
    rwa [servoSample, if_pos h0] at hdoes
  · have hdoes := does_of_run (c := .servoSample ofs) hon fun _ => rfl
    have hacts : d.servoSrc = 1 := by rw [servoSrc_acting, hsrc]; rfl
    rw [servoSample, if_neg (by omega), if_pos hacts] at hdoes
    obtain ⟨honly, hoffset, hadj⟩ := servoTake_sampled h12 ofs
    obtain ⟨hlo, hhi⟩ := sampleRate_bounds d ofs
    refine ⟨_, hdoes, honly, hoffset, hadj ▸ hlo, hadj ▸ hhi, fun h2 => servoTake_locked_runs h2 ofs,
      fun h1 => servoTake_acquiring_runs h1 ofs⟩
  · have hdoes := does_of_run (c := .ppsSourceLost) hon fun _ => rfl
    rw [ppsLost_due hsrc hpast] at hdoes
    obtain ⟨hlocked, hacq⟩ := servoLost_spec d
    exact ⟨fun h => ⟨_, hdoes, hlocked h⟩, fun h => ⟨_, hdoes, hacq h⟩⟩
  · have hdoes := does_of_run (c := .announceReceiptTimeout p st) hon fun _ => rfl
    rw [announceTimeout_due hsrc hslave hpast] at hdoes
    obtain ⟨htim, hrd⟩ := ptpEnter_keeps d p st
    obtain ⟨hlocked, hacq⟩ := servoLost_spec (d.ptpEnter p st)
    have hclock : (d.ptpEnter p st).clock = d.clock := by rw [Dev.clock, htim, ← Dev.clock]
    rw [hrd (by decide), hclock] at hlocked
    rw [hrd (by decide)] at hacq
    exact ⟨fun h => ⟨_, hdoes, hlocked h⟩, fun h => ⟨_, hdoes, hacq h⟩⟩
  · have hdoes := does_of_run (c := .holdoverSpec) hon fun _ => rfl
    rwa [Machine.holdoverSpec, if_pos ⟨hst, clockClass_past hst hl hpast, hdone⟩] at hdoes

end Sys2Proof.Claims
end

section
/-! SUPPORT. Calibration of the time tree and of the ports' timestamps (R79 to R81, Table 02-4). -/

namespace Sys2Proof.Machine

open Sys2Proof.Claims

variable {d e : Dev}

/-! ### The delays of a run -/

theorem length_setDelays (l : List Replica) (sums : List Int) (i : Nat) (jump : Bool) :
    (setDelays l sums i jump).length = l.length := by
  induction l generalizing sums i with
  | nil => cases sums <;> rfl
  | cons r l ih =>
    cases sums with
    | nil => rfl
    | cons s sums => exact congrArg (· + 1) (ih sums (i + 1))

theorem getElem_setDelays (l : List Replica) (sums : List Int) (i : Nat) (jump : Bool) {k : Nat} (h : k < l.length)
    (hs : k < sums.length) (h' : k < (setDelays l sums i jump).length) : (setDelays l sums i jump)[k] =
      { l[k] with delay := sums[k] / 32 + Config.treeAsymmetry (i + k), aligned := (l[k]).aligned && !jump } := by
  induction l generalizing sums i k with
  | nil => exact absurd h (Nat.not_lt_zero k)
  | cons r l ih =>
    cases sums with
    | nil => exact absurd hs (Nat.not_lt_zero k)
    | cons s sums =>
      cases k with
      | zero => rfl
      | succ k =>
        have := ih sums (i + 1) (k := k) (by simpa using h) (by simpa using hs) (by simpa [setDelays] using h')
        simpa only [setDelays, List.getElem_cons_succ, Nat.add_right_comm, Nat.add_assoc, Nat.add_comm 1] using this

/-- What a run whose delays are in the replicas has done to the timebase. -/
theorem delays_of {sums : List Int} {jump : Bool} (hlen : d.tim.replicas.length = 112) (hnow : e.tim.now = d.tim.now)
    (h : e.tim.replicas = setDelays d.tim.replicas sums 0 jump) : e.tim.now = d.tim.now ∧ e.tim.replicas.length = 112 ∧
      ∀ k (_ : k < 112) (_ : k < d.tim.replicas.length) (_ : k < e.tim.replicas.length) (_ : k < sums.length),
        e.tim.replicas[k] = { d.tim.replicas[k] with
          delay := sums[k] / 32 + Config.treeAsymmetry k, aligned := (d.tim.replicas[k]).aligned && !jump } := by
  refine ⟨hnow, by rw [h, length_setDelays, hlen], fun k _ hk hk' hs => ?_⟩
  have := getElem_setDelays d.tim.replicas sums 0 jump hk hs (by rwa [length_setDelays])
  rw [Nat.zero_add] at this
  simpa only [h] using this

/-! ### The registers of a run -/

/-- The errors of the islands, the island of an alarm with its flag, the event block. -/
def errKey (k : Nat) : Prop := 0x84000 ≤ k ∧ k < 0x84E00
def alarmKey (k : Nat) : Prop := k = 0x82020 ∨ k = 0x82027 ∨ eventKey k

theorem writeReplErr_within (errs : List Int) (i : Nat) (d : Dev) : RegsWithin errKey d (d.writeReplErr errs i) := by
  induction errs generalizing i d with
  | nil => exact .refl _ d
  | cons e errs ih =>
    refine .trans ?_ (ih (i + 1) _)
    split
    next hi =>
      refine (RegsWithin.refl _ d).wr ?_ _
      rw [show R.TIM_REPL_ERR_err.key [i] = 0x84000 + 32 * i from key_one rfl i]
      unfold errKey
      omega
    next => exact .refl _ d

theorem alignAlarms_within (errs : List Int) (i : Nat) (d : Dev) : RegsWithin alarmKey d (d.alignAlarms errs i) := by
  induction errs generalizing i d with
  | nil => exact .refl _ d
  | cons e errs ih =>
    exact .trans (.ite ((((RegsWithin.refl _ d).wr (.inl rfl) _).wr (.inr (.inl rfl)) _).raise (fun _ h => .inr (.inr h))
      (by decide) _) (.refl _ d)) (ih (i + 1) _)

theorem hrdAlert_within (d : Dev) (code : Nat) : RegsWithin (0x600000 ≤ ·) d (d.hrdAlert code) :=
  ((((RegsWithin.refl _ d).wr (by decide) _).wr (by decide) _).wr (by decide) _).raise (fun _ h => h.1) (by decide) _

theorem calRunEnds_within (d : Dev) : RegsWithin (fun k => k = 0x82028 ∨ eventKey k) d d.calRunEnds :=
  ((RegsWithin.refl _ d).wr (.inl rfl) _).raise (fun _ => .inr) (by decide) _

theorem calRunEnds_counts (d : Dev) : d.calRunEnds.rd R.TIM_CAL_STAT_runs =
    (d.rd R.TIM_CAL_STAT_runs + 1) % 2 ^ R.TIM_CAL_STAT_runs.width := by
  rw [Dev.calRunEnds, raise_rd _ _ (by decide) (by decide), Dev.bumpWrap, rd_wr]

/-- The errors of a run written and the run counted. -/
def runDone (d : Dev) (errs : List Int) : Dev := (d.writeReplErr errs 0).calRunEnds

theorem runDone_within (d : Dev) (errs : List Int) :
    RegsWithin (fun k => errKey k ∨ k = 0x82028 ∨ eventKey k) d (runDone d errs) :=
  ((writeReplErr_within errs 0 d).mono fun _ => .inl).trans ((calRunEnds_within _).mono fun _ => .inr)

theorem runDone_counts (d : Dev) (errs : List Int) : (runDone d errs).rd R.TIM_CAL_STAT_runs =
    (d.rd R.TIM_CAL_STAT_runs + 1) % 2 ^ R.TIM_CAL_STAT_runs.width := by
  rw [runDone, calRunEnds_counts, (writeReplErr_within errs 0 d).rd (by unfold errKey; decide)]

/-! ### The end of time tree calibration (R79) -/

/-- The timebase when calibration of the time tree ends, and when a background run ends. -/
def treeTim (d : Dev) (sums : List Int) : TimSt := { d.tim with calStep := 4, replicas := setDelays d.tim.replicas sums 0 true }
def runTim (d : Dev) (sums : List Int) : TimSt := { d.tim with replicas := setDelays d.tim.replicas sums 0 false }

/-- The device when calibration of the time tree has ended. -/
def treeDone (d : Dev) (sums errs : List Int) : Dev :=
  ((runDone { d with tim := treeTim d sums } errs).wr R.TIM_STATUS_cal_done [] 1).setReady 4 1

theorem treeCalDone_due (hstep : d.tim.calStep = 2) (hpwr : d.rd R.PWR_STAT_state = 0) (sums errs : List Int) :
    treeCalDone sums errs d = treeDone d sums errs :=
  if_pos ⟨hstep, .inl (by omega)⟩

theorem treeDone_tim (d : Dev) (sums errs : List Int) : (treeDone d sums errs).tim = treeTim d sums := by
  rw [treeDone, (setReady_within (by decide) 1 _).tim]
  exact (runDone_within _ errs).tim

theorem treeDone_flags (d : Dev) (sums errs : List Int) :
    (treeDone d sums errs).rd R.SYS_READY_time = 1 ∧ (treeDone d sums errs).rd R.TIM_STATUS_cal_done = 1 := by
  refine ⟨setReady_sets rfl (by decide) rfl _, ?_⟩
  rw [treeDone, (setReady_within (by decide) 1 _).rd (by unfold readyKey eventKey; decide), rd_wr]
  rfl

/-! ### A background run (R80, R504) -/

/-- The device when a background run has ended, before the Herdsman's alert of it. -/
def backgroundDone (d : Dev) (sums errs : List Int) : Dev := (runDone { d with tim := runTim d sums } errs).alignAlarms errs 0

theorem backgroundDone_tim (d : Dev) (sums errs : List Int) : (backgroundDone d sums errs).tim = runTim d sums := by
  rw [backgroundDone, (alignAlarms_within errs 0 _).tim, (runDone_within _ errs).tim]

theorem backgroundDone_runs (d : Dev) (sums errs : List Int) : (backgroundDone d sums errs).rd R.TIM_CAL_STAT_runs =
    (d.rd R.TIM_CAL_STAT_runs + 1) % 2 ^ R.TIM_CAL_STAT_runs.width := by
  rw [backgroundDone, (alignAlarms_within errs 0 _).rd (by unfold alarmKey eventKey; decide), runDone_counts]
  rfl

/-- A background run by a temperature trigger: the Herdsman's part and its alert besides. -/
theorem backgroundCal_due (hstep : d.tim.calStep = 4) (sums errs : List Int) : ∃ (hrd : HrdSt) (alert : Bool),
    backgroundCal true sums errs d =
      if alert then ({ backgroundDone d sums errs with hrd := hrd } : Dev).hrdAlert 5
      else { backgroundDone d sums errs with hrd := hrd } :=
  ⟨_, _, if_pos ⟨hstep, .inl rfl⟩⟩

theorem backgroundCal_spec (hstep : d.tim.calStep = 4) (sums errs : List Int) :
    (backgroundCal true sums errs d).tim = runTim d sums ∧
      (backgroundCal true sums errs d).rd R.TIM_CAL_STAT_runs =
        (d.rd R.TIM_CAL_STAT_runs + 1) % 2 ^ R.TIM_CAL_STAT_runs.width := by
  obtain ⟨hrd, alert, heq⟩ := backgroundCal_due hstep sums errs
  have hw : RegsWithin (0x600000 ≤ ·) { backgroundDone d sums errs with hrd := hrd } (backgroundCal true sums errs d) := by
    rw [heq]
    exact .ite (hrdAlert_within _ 5) (.refl _ _)
  exact ⟨hw.tim.trans (backgroundDone_tim d sums errs),
    (hw.rd (by decide)).trans (backgroundDone_runs d sums errs)⟩

end Sys2Proof.Machine

namespace Sys2Proof.Claims

open Sys2Proof.Machine

theorem calibrationSteps : CalibrationSteps := by
  intro d hon
  refine ⟨fun hstep => ?_, fun sums errs _ hlen => ⟨fun hstep hpwr => ?_, fun hstep => ?_⟩, fun p sp => ⟨fun hlock => ?_,
    fun hlock => ?_⟩⟩
  · have hdoes := does_of_run (c := .pllLock) hon fun _ => rfl
    rwa [Machine.pllLock, if_pos hstep] at hdoes
  · have hdoes := does_of_run (c := .timeTreeCalDone sums errs) hon fun _ => rfl
    rw [treeCalDone_due hstep hpwr] at hdoes
    have htim := treeDone_tim d sums errs
    obtain ⟨hready, hdone⟩ := treeDone_flags d sums errs
    exact ⟨_, hdoes, delays_of hlen (by rw [htim]; rfl) (by rw [htim]; rfl), by rw [htim]; rfl, hready, hdone⟩
  · have hdoes := does_of_run (c := .backgroundCal true sums errs) hon fun _ => rfl
    obtain ⟨htim, hruns⟩ := backgroundCal_spec hstep sums errs
    exact ⟨_, hdoes, delays_of hlen (by rw [htim]; rfl) (by rw [htim]; rfl), by rw [htim]; rfl, hruns⟩
  · have hdoes := does_of_run (c := .portTsCalDone p sp) hon fun _ => rfl
    rwa [portTsCal, if_neg (by simp [hlock])] at hdoes
  · have hdoes := does_of_run (c := .portTsCalDone p sp) hon fun _ => rfl
    rwa [portTsCal, if_pos hlock] at hdoes

/-- Settles O13: the servo by the state a sample, a write or a loss finds, calibration step by step. -/
theorem servoAndCalibration : Obligations.ServoAndCalibration := ⟨servoStates, calibrationSteps⟩

end Sys2Proof.Claims
end

section
/-! SUPPORT. PTP messages that a port takes and sends (R59 to R64, Table 02-1). -/

namespace Sys2Proof.Machine

open Sys2Proof.Claims

variable {d : Dev} {p : Fin 2}

/-! ### A message taken -/

theorem stateKey (p : Fin 2) : R.TIM_PTP_STAT_state.key [p] = 0x81040 + 512 * p := key_one rfl p

/-- A port's message in its queue: the time of a Sync, the class of the master an Announce names. -/
def ptpHeard (d : Dev) (p type len cls : Nat) : TimSt := { d.tim with
  ptpQ := tset 0 d.tim.ptpQ p (tget 0 d.tim.ptpQ p + len)
  lastSync := if type = 0 then tset 0 d.tim.lastSync p d.clock else d.tim.lastSync
  masterClass := if type = 11 ∧ d.rd R.TIM_PTP_STAT_state [p] = 9 then cls else d.tim.masterClass }

/-- The metadata of a Management message, stored by a port in SLAVE. -/
def ptpStored (p type : Nat) (tlv : Option Nat) (d : Dev) : Dev :=
  match tlv with
  | some v => if type = 13 ∧ d.rd R.TIM_PTP_STAT_state [p] = 9 then d.wr R.TIM_SMPTE_TLV_tlv [] v else d
  | none => d

/-- A message worked off: its bytes leave the queue. -/
def ptpLeft (p len : Nat) (t : TimSt) : TimSt := { t with ptpQ := tset 0 t.ptpQ p (tget 0 t.ptpQ p - len) }
def ptpDone (p len : Nat) (d : Dev) : Dev := { d with tim := ptpLeft p len d.tim }

/-- What a supported message of the port's domain does. -/
def ptpTaken (p type len cls : Nat) (tlv : Option Nat) (st : Nat) (chg : Bool) (d : Dev) : Dev :=
  let e := (ptpStored p type tlv { d with tim := ptpHeard d p type len cls }).ptpEnter p st
  ptpDone p len (if chg then e.raise Ev.ptpMaster p else e)

theorem ptpMessage_known {sp type domain len cls st : Nat} {tlv : Option Nat} {chg : Bool} (hon : d.ptpOn p sp = true)
    (hsup : ptpSupported type tlv = true) (hdom : domain = d.rd R.TIM_PTP_CFG_domain [p])
    (hroom : tget 0 d.tim.ptpQ p + len ≤ 65536) :
    ptpMessage p sp type domain len cls tlv st chg d = ptpTaken p type len cls tlv st chg d :=
  (if_neg (by simp [hon])).trans ((if_neg (by simp [hsup, hdom])).trans (if_neg (by omega)))

theorem ptpMessage_unknown {sp type domain len cls st : Nat} {tlv : Option Nat} {chg : Bool} (hon : d.ptpOn p sp = true)
    (h : ptpSupported type tlv = false ∨ domain ≠ d.rd R.TIM_PTP_CFG_domain [p]) :
    ptpMessage p sp type domain len cls tlv st chg d = d.bump R.TIM_PTP_STAT_ignored [p] :=
  (if_neg (by simp [hon])).trans (if_pos h)

/-- The registers that a message writes: the metadata, and the port's state with its event. -/
def ptpKey (p k : Nat) : Prop := k = 0x81040 + 512 * p ∨ eventKey k

theorem ptpEnter_within (d : Dev) (p : Fin 2) (st : Nat) : RegsWithin (ptpKey p) d (d.ptpEnter p st) := by
  have hev : Ev.ptpState + p < 320 := by unfold Ev.ptpState; omega
  exact .ite (.refl _ d) (((RegsWithin.refl _ d).wr (.inl (stateKey p)) _).raise (fun _ => .inr) hev _)

/-- A boundary clock's port enters the state chosen; 0 stands for no change. -/
theorem ptpEnter_state (hrole : d.rd R.TIM_CLK_CFG_role = 2) (new : Fin 10) :
    (d.ptpEnter p new).rd R.TIM_PTP_STAT_state [p] = if new = 0 then d.rd R.TIM_PTP_STAT_state [p] else new := by
  have hst : d.ptpRole new = new := by simp only [Dev.ptpRole, hrole]
  have hev : Ev.ptpState + p < 320 := by unfold Ev.ptpState; omega
  have hzero : (new : Nat) = 0 ↔ new = 0 := by omega
  simp only [Dev.ptpEnter, hst, hzero]
  by_cases h0 : new = 0
  · rw [if_pos (.inl h0), if_pos h0]
  · rw [if_neg h0]
    by_cases hsame : (new : Nat) = d.rd R.TIM_PTP_STAT_state [p]
    · rw [if_pos (.inr hsame), hsame]
    · rw [if_neg (by simp [h0, hsame]), raise_rd _ _ hev (by rw [stateKey]; omega), rd_wr]
      exact Nat.mod_eq_of_lt (Nat.lt_trans new.isLt (by decide))

theorem ptpStored_within (p type : Nat) (tlv : Option Nat) (d : Dev) : RegsWithin (· = 0x81600) d (ptpStored p type tlv d) := by
  cases tlv with
  | none => exact .refl _ d
  | some v => exact .ite ((RegsWithin.refl (· = 0x81600) d).wr (f := R.TIM_SMPTE_TLV_tlv) (ix := []) rfl v) (.refl _ d)

/-- The device before a message's bytes leave the queue. -/
theorem ptpTaken_within (p : Fin 2) (type len cls : Nat) (tlv : Option Nat) (st : Nat) (chg : Bool) (d : Dev) : ∃ e,
    RegsWithin (ptpKey p) (ptpStored p type tlv { d with tim := ptpHeard d p type len cls }) e ∧
      ptpTaken p type len cls tlv st chg d = ptpDone p len e ∧
      e.rd R.TIM_PTP_STAT_state [p] =
        ((ptpStored p type tlv { d with tim := ptpHeard d p type len cls }).ptpEnter p st).rd R.TIM_PTP_STAT_state [p] := by
  refine ⟨_, .trans (ptpEnter_within _ p st) (.ite (.raise (.refl _ _) (fun _ => .inr) (by decide) _) (.refl _ _)), rfl, ?_⟩
  split
  · exact raise_rd _ _ (by decide) (by rw [stateKey]; omega)
  · rfl

theorem ptpHeard_rd (d : Dev) (p type len cls : Nat) (f : Field) (ix : List Nat) :
    ({ d with tim := ptpHeard d p type len cls } : Dev).rd f ix = d.rd f ix := rd_tim ..

theorem ptpTaken_spec (hrole : d.rd R.TIM_CLK_CFG_role = 2) (type len cls : Nat) (tlv : Option (BitVec 512)) (new : Fin 10)
    (chg : Bool) :
    let e := ptpTaken p type len cls (tlv.map BitVec.toNat) new chg d
    e.rd R.TIM_PTP_STAT_state [p] = (if new = 0 then d.rd R.TIM_PTP_STAT_state [p] else new) ∧
      e.tim = ptpLeft p len (ptpHeard d p type len cls) ∧
      e.mem = d.mem ∧ e.out = d.out ∧
      (∀ v, tlv = some v → type = 13 → d.rd R.TIM_PTP_STAT_state [p] = 9 → e.rd R.TIM_SMPTE_TLV_tlv = v.toNat) := by
  have hs := ptpStored_within p type (tlv.map BitVec.toNat) { d with tim := ptpHeard d p type len cls }
  obtain ⟨e, hw, heq, hstate⟩ := ptpTaken_within p type len cls (tlv.map BitVec.toNat) new chg d
  have hkey : R.TIM_PTP_STAT_state.key [p] ≠ 0x81600 := by rw [stateKey]; omega
  rw [heq]
  refine ⟨?_, ?_, ?_, ?_, fun v hv h13 h9 => ?_⟩
  · have hrole' : (ptpStored p type (tlv.map BitVec.toNat) { d with tim := ptpHeard d p type len cls }).rd
        R.TIM_CLK_CFG_role = 2 := by
      rw [hs.rd (by decide), ptpHeard_rd, hrole]
    rw [ptpDone, rd_tim, hstate, ptpEnter_state hrole', hs.rd hkey, ptpHeard_rd]
  · rw [ptpDone, hw.tim, hs.tim]
  · rw [ptpDone]
    exact hw.mem.trans hs.mem
  · rw [ptpDone]
    exact hw.out.trans hs.out
  · rw [ptpDone, rd_tim, hw.rd (by unfold ptpKey eventKey R.TIM_SMPTE_TLV_tlv Field.key; simp; omega)]
    subst hv
    rw [Option.map_some, ptpStored, ptpHeard_rd, if_pos ⟨h13, h9⟩, rd_wr, show R.TIM_SMPTE_TLV_tlv.width = 512 from rfl,
      Nat.mod_eq_of_lt v.isLt]

/-! ### Messages sent -/

theorem satInc_eq (w v n : Nat) : satInc w v n = min (v + n) (2 ^ w - 1) := by
  unfold satInc ones
  split <;> omega

/-- The types of Table 02-1, with the metadata TLV of a Management message. -/
theorem ptpSupported_iff (type : BitVec 4) (tlv : Option (BitVec 512)) :
    ptpSupported type.toNat (tlv.map BitVec.toNat) = true ↔
      (type = 0 ∨ type = 1 ∨ type = 8 ∨ type = 9 ∨ type = 11 ∨ (type = 13 ∧ tlv ≠ none)) := by
  have hlit (k : BitVec 4) : type = k ↔ type.toNat = k.toNat := BitVec.toNat_inj.symm
  have hsome : (tlv.map BitVec.toNat).isSome = true ↔ tlv ≠ none := by cases tlv <;> simp
  rw [ptpSupported, Bool.or_eq_true, decide_eq_true_iff, Bool.and_eq_true, beq_iff_eq, hsome, hlit 0, hlit 1, hlit 8, hlit 9,
    hlit 11, hlit 13]
  simp [or_assoc]

theorem ptpOn_boundary {sp : Fin 4} (hen : d.flag R.TIM_PTP_CFG_en [p] = true) (hsp : d.rd R.TIM_PTP_CFG_subport [p] = sp)
    (hrole : d.rd R.TIM_CLK_CFG_role = 2) : d.ptpOn p sp = true := by
  simp [Dev.ptpOn, hen, hsp, hrole]

theorem ptpSyncTx_master (hen : d.flag R.TIM_PTP_CFG_en [p] = true) (hst : d.rd R.TIM_PTP_STAT_state [p] = 6) (fine : Nat) :
    let ts := beadsToRaw (((d.now / 2048 * 2048 + fine * 2048 : Nat) : Int) + d.rdS R.TIM_PDLY_TX_dly [p]).toNat
    ptpSyncTx p fine d =
      if d.flag R.TIM_PTP_CFG_one_step [p] then d.emit (.ptp p 0 [ts]) else (d.emit (.ptp p 0 [])).emit (.ptp p 8 [ts]) :=
  if_pos ⟨hen, hst⟩

/-- The class of a clock without a source, and of one that SYNC_IN0 holds (R62). -/
theorem clockClass_fixed {cls : Nat} (h0 : d.rd R.TIM_STATUS_servo = 0 → cls = 248)
    (h2 : d.rd R.TIM_STATUS_servo = 2 → d.rd R.TIM_SERVO_CFG_src = 2 → cls = 6)
    (h : d.rd R.TIM_STATUS_servo = 0 ∨ (d.rd R.TIM_STATUS_servo = 2 ∧ d.rd R.TIM_SERVO_CFG_src = 2)) :
    d.clockClass = cls := by
  rcases h with hst | ⟨hst, hsrc⟩
  · simp only [Dev.clockClass, hst, h0 hst]
  · have hacts : d.servoSrc = 2 := by rw [servoSrc_acting, hsrc]; rfl
    simp only [Dev.clockClass, hst, hacts, h2 hst hsrc, if_true]

end Sys2Proof.Machine

namespace Sys2Proof.Claims

open Sys2Proof.Machine

theorem ptpMessages : PtpMessages := by
  intro d hon p
  refine ⟨fun sp type domain cls len tlv new chg hen hsp hrole => ⟨fun hun => ?_, fun hknown hroom => ?_⟩,
    fun hen hst => ⟨fun fine => ⟨fun hone => ?_, fun htwo => ?_⟩, ?_, fun cls h0 h2 h => ?_⟩, fun hen hst => ?_,
    fun hst => ⟨?_, ?_, fun fine => ?_⟩⟩
  · have hdoes := does_of_run (c := .ptpMessageRx p sp type domain len cls tlv new chg) hon fun _ => rfl
    rw [← ptpSupported_iff, not_and_or, Bool.not_eq_true] at hun
    rw [ptpMessage_unknown (ptpOn_boundary hen hsp hrole) hun, Dev.bump, satInc_eq] at hdoes
    exact hdoes
  · have hdoes := does_of_run (c := .ptpMessageRx p sp type domain len cls tlv new chg) hon fun _ => rfl
    rw [← ptpSupported_iff] at hknown
    obtain ⟨hsup, hdom⟩ := hknown
    rw [ptpMessage_known (ptpOn_boundary hen hsp hrole) hsup hdom hroom] at hdoes
    obtain ⟨hstate, htim, hmem, hout, hstored⟩ := ptpTaken_spec hrole type.toNat len cls.toNat tlv new chg
    refine ⟨_, hdoes, hstate, ?_, fun h0 => ?_, fun v hv h13 h9 => ?_, hmem, hout, by rw [htim]; rfl⟩
    · rw [htim]
      simp [ptpLeft, ptpHeard, tget_tset]
    · rw [htim]
      simp [ptpLeft, ptpHeard, tget_tset, h0]
    · exact hstored v hv (by rw [h13]; rfl) h9
  · have hdoes := does_of_run (c := .ptpSyncTx p fine) hon fun _ => rfl
    rw [ptpSyncTx_master hen hst, if_pos hone] at hdoes
    rwa [toNat_timeBits]
  · have hdoes := does_of_run (c := .ptpSyncTx p fine) hon fun _ => rfl
    rw [ptpSyncTx_master hen hst, if_neg (by simp [htwo])] at hdoes
    rwa [toNat_timeBits]
  · have hdoes := does_of_run (c := .smpteTlvTx p) hon fun _ => rfl
    rwa [smpteTx, if_pos ⟨hen, hst⟩] at hdoes
  · have hdoes := does_of_run (c := .announceTx p) hon fun _ => rfl
    rwa [Machine.announceTx, if_pos ⟨hen, hst⟩, clockClass_fixed h0 h2 h] at hdoes
  · have hdoes := does_of_run (c := .delayReqTx p) hon fun _ => rfl
    rwa [Machine.delayReqTx, if_pos ⟨hen, .inl hst⟩] at hdoes
  · have hdoes := does_of_run (c := .announceTx p) hon fun _ => rfl
    rwa [Machine.announceTx, if_neg fun h => hst h.2] at hdoes
  · have hdoes := does_of_run (c := .smpteTlvTx p) hon fun _ => rfl
    rwa [smpteTx, if_neg fun h => hst h.2] at hdoes
  · have hdoes := does_of_run (c := .ptpSyncTx p fine) hon fun _ => rfl
    rwa [Machine.ptpSyncTx, if_neg fun h => hst h.2] at hdoes

end Sys2Proof.Claims
end

section
/-! SUPPORT. The sync inputs: an edge stamped, kept or lost, and SYNC_IN0's second (R71, R72). -/

namespace Sys2Proof.Machine

open Sys2Proof.Claims

variable {d e : Dev}

/-! ### What leaves all but the Tally and the power unit -/

/-- `e` differs from `d` in the Tally's queues and the wake sources at most. -/
def AsideOnly (d e : Dev) : Prop := e = { d with tly := e.tly, pwr := e.pwr }

theorem tapPps_aside (d : Dev) (ts : Nat) : AsideOnly d (d.tapPps ts) := rfl

theorem fireWake_aside (d : Dev) (src inp : Nat) : AsideOnly d (d.fireWake src inp) := by
  unfold Dev.fireWake
  extract_lets st
  split <;> rfl

namespace AsideOnly

variable (h : AsideOnly d e)
include h

theorem tim : e.tim = d.tim := by rw [h]
theorem mem : e.mem = d.mem := by rw [h]
theorem out : e.out = d.out := by rw [h]
theorem rd (f : Field) (ix : List Nat) : e.rd f ix = d.rd f ix := by rw [h]; rfl

end AsideOnly

/-! ### An edge kept or lost -/

theorem ovfKey (n : Nat) : R.TIM_SIN_CFG_ovf.key [n] = 0x85020 + 256 * n := key_one rfl n

/-- The edge in the input's FIFO, or counted as lost. -/
def captured (n ts : Nat) (d : Dev) : Dev :=
  let fifo := tget [] d.tim.sinFifo n
  if fifo.length < 4 then
    (d.withTim fun t => { t with sinFifo := tset [] t.sinFifo n (fifo ++ [ts]) }).raise (Ev.syncIn + n) (fifo.length + 1)
  else (d.bump R.TIM_SIN_CFG_ovf [n]).raise Ev.syncInOvf n

/-- The second of SYNC_IN0: a sample of the servo, or an edge too far off. -/
def ppsEdge (n : Nat) (stamp : Int) (d : Dev) : Dev :=
  if n = 0 ∧ d.rd R.TIM_SIN_CFG_mode [0] = 2 then
    let tod := d.rd R.TIM_SIN0_TOD_sec
    let ofs := stamp - (tod * beadsPerSec : Nat)
    if d.rd R.TIM_STATUS_servo = 2 ∧ d.servoSrc = 2 ∧ ofs.natAbs > 100000 * 65536 then
      let d := d.bump R.TIM_SIN_CFG_rej [0]
      d.raise Ev.ppsReject (d.rd R.TIM_SIN_CFG_rej [0])
    else
      (d.wr R.TIM_SIN0_TOD_sec [] (tod + 1)).withTim fun t => { t with ppsSample := some ofs, lastPps := d.clock }
  else d

/-- The time of an edge, less the input's delay. -/
def edgeStamp (n fine : Nat) (d : Dev) : Int := (d.stampAt fine : Int) - d.rdS R.TIM_SIN_DLY_dly [n]

theorem syncInEdge_off {n fine : Nat} {rise : Bool}
    (h : ¬ (d.rd R.TIM_SIN_CFG_mode [n] ≠ 0 ∧ rise = !(d.flag R.TIM_SIN_CFG_fall [n]))) : syncInEdge n fine rise d = d := by
  have : d.rd R.TIM_SIN_CFG_mode [n] = 0 ∨ rise = d.flag R.TIM_SIN_CFG_fall [n] := by
    by_cases h0 : d.rd R.TIM_SIN_CFG_mode [n] = 0
    · exact .inl h0
    · exact .inr (by simpa [h0] using h)
  exact if_pos this

/-- The edge as the Tally and the wake sources see it too. -/
def tapped (n ts : Nat) (d : Dev) : Dev := if n = 0 then d.tapPps ts else d

theorem tapped_aside (n ts : Nat) (d : Dev) : AsideOnly d (tapped n ts d) := by
  unfold tapped
  split
  · exact tapPps_aside d ts
  · rfl

theorem syncInEdge_on {n fine : Nat} {rise : Bool} (hmode : d.rd R.TIM_SIN_CFG_mode [n] ≠ 0)
    (hrise : rise = !(d.flag R.TIM_SIN_CFG_fall [n])) : syncInEdge n fine rise d =
      let ts := beadsToRaw ((edgeStamp n fine d).toNat % beadWrap)
      ppsEdge n (edgeStamp n fine d) ((captured n ts (tapped n ts d)).fireWake (n + 1) 0) := by
  have hoff : ¬ (d.rd R.TIM_SIN_CFG_mode [n] = 0 ∨ rise = d.flag R.TIM_SIN_CFG_fall [n]) := by simp [hmode, hrise]
  have hfifo (ts : Nat) : (tapped n ts d).tim.sinFifo = d.tim.sinFifo := by rw [(tapped_aside n ts d).tim]
  simp only [syncInEdge, if_neg hoff, captured, hfifo]
  rfl

/-- What an edge stamped at `ts` has done to the input's FIFO and its count of lost edges. -/
structure Captured (n ts : Nat) (d e : Dev) : Prop where
  mem : e.mem = d.mem
  out : e.out = d.out
  clock : e.clock = d.clock
  sample : e.tim.ppsSample = d.tim.ppsSample
  room : (tget [] d.tim.sinFifo n).length < 4 → tget [] e.tim.sinFifo n = tget [] d.tim.sinFifo n ++ [ts]
  full : 4 ≤ (tget [] d.tim.sinFifo n).length → tget [] e.tim.sinFifo n = tget [] d.tim.sinFifo n ∧
    e.rd R.TIM_SIN_CFG_ovf [n] = min (d.rd R.TIM_SIN_CFG_ovf [n] + 1) (2 ^ R.TIM_SIN_CFG_ovf.width - 1)
  rd : ∀ f ix, f.key ix ≠ R.TIM_SIN_CFG_ovf.key [n] → f.key ix < 0x600000 → e.rd f ix = d.rd f ix

theorem captured_spec (n : Fin 4) (ts : Nat) (d : Dev) : Captured n ts d (captured n ts d) := by
  have hev : Ev.syncIn + n < 320 := by unfold Ev.syncIn; omega
  unfold captured
  extract_lets fifo
  by_cases hroom : fifo.length < 4
  · rw [if_pos hroom]
    refine ⟨raise_mem .., raise_out .., ?_, ?_, fun _ => ?_, fun h => absurd hroom (Nat.not_lt.mpr h), fun f ix _ hlt => ?_⟩
    · rw [Dev.clock, raise_tim]
      rfl
    · rw [raise_tim]
      rfl
    · rw [raise_tim]
      exact tget_tset ..
    · exact (raise_rd _ _ hev hlt).trans (rd_tim ..)
  · rw [if_neg hroom]
    refine ⟨raise_mem .., raise_out .., ?_, ?_, fun h => absurd h hroom, fun _ => ⟨?_, ?_⟩, fun f ix hne hlt => ?_⟩
    · rw [Dev.clock, raise_tim]
      rfl
    · rw [raise_tim]
      rfl
    · rw [raise_tim]
      rfl
    · rw [raise_rd _ _ (by decide) (by rw [ovfKey]; omega), Dev.bump, rd_wr, satInc_eq]
      exact Nat.mod_eq_of_lt (Nat.lt_of_le_of_lt (Nat.min_le_right _ _) (by decide))
    · rw [raise_rd _ _ (by decide) hlt, Dev.bump, rd_wr_ne _ _ _ _ _ _ hne]

theorem Captured.aside {n ts : Nat} {a b : Dev} (ha : AsideOnly d a) (h : Captured n ts a b) (hb : AsideOnly b e) :
    Captured n ts d e where
  mem := by rw [hb.mem, h.mem, ha.mem]
  out := by rw [hb.out, h.out, ha.out]
  clock := by rw [Dev.clock, hb.tim, ← Dev.clock, h.clock, Dev.clock, ha.tim, ← Dev.clock]
  sample := by rw [hb.tim, h.sample, ha.tim]
  room := by rw [hb.tim, ← ha.tim]; exact h.room
  full := by rw [hb.tim, hb.rd, ← ha.tim, ← ha.rd]; exact h.full
  rd f ix hne hlt := by rw [hb.rd, h.rd f ix hne hlt, ha.rd]

/-- SYNC_IN0's second leaves the FIFOs, the counts of lost edges, memory and the outputs. -/
theorem ppsEdge_keeps (n : Nat) (stamp : Int) (d : Dev) :
    (ppsEdge n stamp d).tim.sinFifo = d.tim.sinFifo ∧ (ppsEdge n stamp d).mem = d.mem ∧ (ppsEdge n stamp d).out = d.out ∧
      ∀ m : Fin 4, (ppsEdge n stamp d).rd R.TIM_SIN_CFG_ovf [m] = d.rd R.TIM_SIN_CFG_ovf [m] := by
  have hrej (m : Fin 4) : R.TIM_SIN_CFG_ovf.key [m] ≠ R.TIM_SIN_CFG_rej.key [0] := by revert m; decide
  have htod (m : Fin 4) : R.TIM_SIN_CFG_ovf.key [m] ≠ R.TIM_SIN0_TOD_sec.key [] := by revert m; decide
  unfold ppsEdge
  split
  · extract_lets tod ofs e
    split
    · refine ⟨by rw [raise_tim]; rfl, raise_mem .., raise_out .., fun m => ?_⟩
      rw [raise_rd _ _ (by decide) (by rw [ovfKey]; omega)]
      exact rd_wr_ne _ _ _ _ _ _ (hrej m)
    · exact ⟨rfl, rfl, rfl, fun m => (rd_tim ..).trans (rd_wr_ne _ _ _ _ _ _ (htod m))⟩
  · exact ⟨rfl, rfl, rfl, fun _ => rfl⟩

/-- An edge in mode PPS by its distance from the second expected. -/
theorem ppsEdge_second {stamp : Int} (hmode : d.rd R.TIM_SIN_CFG_mode [0] = 2) :
    let tod := d.rd R.TIM_SIN0_TOD_sec
    let ofs := stamp - (tod * second : Nat)
    let reject := d.rd R.TIM_STATUS_servo = 2 ∧ d.rd R.TIM_SERVO_CFG_src = 2 ∧ 100000 * 65536 < ofs.natAbs
    let e := ppsEdge 0 stamp d
    (reject → e.tim.ppsSample = d.tim.ppsSample ∧ e.rd R.TIM_SIN0_TOD_sec = tod) ∧
      (¬ reject → e.tim.ppsSample = some ofs ∧ e.rd R.TIM_SIN0_TOD_sec = (tod + 1) % 2 ^ 48) := by
  intro tod ofs reject e
  have hsrc : d.servoSrc = 2 ↔ d.rd R.TIM_SERVO_CFG_src = 2 := by
    rw [servoSrc_eq]
    split <;> omega
  have he : e = if d.rd R.TIM_STATUS_servo = 2 ∧ d.servoSrc = 2 ∧ ofs.natAbs > 100000 * 65536 then
      (d.bump R.TIM_SIN_CFG_rej [0]).raise Ev.ppsReject ((d.bump R.TIM_SIN_CFG_rej [0]).rd R.TIM_SIN_CFG_rej [0])
    else (d.wr R.TIM_SIN0_TOD_sec [] (tod + 1)).withTim fun t => { t with ppsSample := some ofs, lastPps := d.clock } :=
    if_pos ⟨rfl, hmode⟩
  have hfar : (d.rd R.TIM_STATUS_servo = 2 ∧ d.servoSrc = 2 ∧ ofs.natAbs > 100000 * 65536) ↔ reject := by rw [hsrc]
  refine ⟨fun h => ?_, fun h => ?_⟩
  · rw [he, if_pos (hfar.mpr h)]
    refine ⟨by rw [raise_tim]; rfl, ?_⟩
    rw [raise_rd _ _ (by decide) (by decide)]
    exact rd_wr_ne _ _ _ _ _ _ (by decide)
  · rw [he, if_neg (mt hfar.mp h)]
    exact ⟨rfl, (rd_tim ..).trans (rd_wr ..)⟩

/-- An edge's time as the FIFO keeps it. -/
theorem beadsToRaw_wrapped (b : Nat) : beadsToRaw (b % beadWrap) = (timeBits b).toNat := by
  rw [toNat_timeBits]
  unfold beadsToRaw beadWrap beadsPerSec
  omega

/-- An accepted edge: captured, then SYNC_IN0's second. -/
theorem syncInEdge_captured {n : Fin 4} {fine : Nat} {rise : Bool}
    (h : d.rd R.TIM_SIN_CFG_mode [n] ≠ 0 ∧ rise = !(d.flag R.TIM_SIN_CFG_fall [n])) :
    ∃ e, Captured n (timeBits (edgeStamp n fine d).toNat).toNat d e ∧
      syncInEdge n fine rise d = ppsEdge n (edgeStamp n fine d) e := by
  refine ⟨_, ?_, syncInEdge_on h.1 h.2⟩
  rw [beadsToRaw_wrapped]
  exact (captured_spec n _ _).aside (tapped_aside ..) (fireWake_aside ..)

end Sys2Proof.Machine
end

section
/-! SUPPORT. The sync outputs: the edges of a setting, a commit of the shadow (R74 to R78). -/

namespace Sys2Proof.Machine

open Sys2Proof.Claims

variable {d : Dev}

/-! ### The edges of a setting -/

theorem ceilDiv_le_iff {n : Nat} (hn : 0 < n) (a j : Int) : ceilDiv a n ≤ j ↔ a ≤ j * n := by
  have := Int.le_ediv_iff_mul_le (a := -j) (b := -a) (c := (n : Int)) (by omega)
  rw [Int.neg_mul] at this
  unfold ceilDiv
  omega

/-- The first edge at or after a time (R74, R75). -/
theorem firstEdge_le_iff {c : SyncSet} (hnum : c.num ≠ 0) (from_ : Nat) (j : Int) :
    c.firstEdge from_ ≤ j ↔ ((from_ * (c.den * c.edges) : Nat) : Int) ≤ c.ideal j := by
  have hpos : 0 < c.num * beadsPerSec := Nat.mul_pos (Nat.pos_of_ne_zero hnum) beadsPerSec_pos
  have hzero : c.ideal 0 = (c.phase - c.dly) * (c.den * c.edges : Nat) := by rw [SyncSet.ideal, Int.zero_mul, Int.zero_add]
  rw [SyncSet.firstEdge, ceilDiv_le_iff hpos, hzero, SyncSet.ideal, Int.natCast_mul from_]
  omega

/-- The grid point nearest a fraction, a tie later. -/
theorem nearest_grid {D : Nat} (hD : 0 < D) {i : Int} (hi : 0 ≤ i) {g : Nat}
    (hg : g = ((2 * i + (2048 * D : Nat)) / (4096 * D : Nat) * 2048).toNat) :
    g % 2048 = 0 ∧ -((1024 * D : Nat) : Int) < (g * D : Nat) - i ∧ ((g * D : Nat) : Int) - i ≤ (1024 * D : Nat) := by
  have hlow := Int.ediv_mul_le (2 * i + (2048 * D : Nat)) (b := ((4096 * D : Nat) : Int)) (by omega)
  have hhigh := Int.lt_ediv_add_one_mul_self (2 * i + (2048 * D : Nat)) (b := ((4096 * D : Nat) : Int)) (by omega)
  have hq : 0 ≤ (2 * i + (2048 * D : Nat)) / ((4096 * D : Nat) : Int) := Int.ediv_nonneg (by omega) (by omega)
  generalize (2 * i + (2048 * D : Nat)) / ((4096 * D : Nat) : Int) = q at hlow hhigh hq hg
  obtain ⟨q, rfl⟩ := Int.eq_ofNat_of_zero_le hq
  have hgq : g = 2048 * q := by omega
  subst hgq
  have hmul : 2048 * q * D = 2048 * (q * D) := Nat.mul_assoc ..
  have hmul' : ((q : Int) * (4096 * D : Nat)) = (4096 * (q * D) : Nat) := by push_cast; ring
  rw [Int.add_mul, hmul'] at hhigh
  rw [hmul'] at hlow
  rw [hmul]
  generalize q * D = m at *
  omega

/-- An edge of output `n`'s setting not yet reached, and one reached. -/
theorem syncOutEdge_early {n : Nat} (hdue : d.now < (((tget {} d.tim.sout n).grid ((tget {} d.tim.sout n).firstEdge
    (tget 0 d.tim.soutFrom n))).toNat)) : syncOutEdge n d = d := by
  unfold syncOutEdge
  extract_lets c k at_ w
  split
  · exact if_neg fun h => absurd (of_decide_eq_true h) (Nat.not_le.mpr hdue)
  · rfl

theorem syncOutEdge_due {n : Nat} {c : SyncSet} {k : Int} (hc : tget {} d.tim.sout n = c) (hmode : c.mode = 1 ∨ c.mode = 2)
    (hnum : c.num ≠ 0) (hden : c.den ≠ 0) (hk : c.firstEdge (tget 0 d.tim.soutFrom n) = k)
    (hdue : (c.grid k).toNat ≤ d.now) : ∃ t, syncOutEdge n d = ({ d with tim := t } : Dev).emit
      (.syncEdge n (c.grid k).toNat (if c.mode = 2 ∧ k % 2 = 1 then c.width / 2 else c.width) (c.inv == 1)) := by
  subst hc hk
  exact ⟨_, (if_pos ⟨hmode, hden, hnum⟩).trans (if_pos (decide_eq_true hdue))⟩

theorem syncOutEdge_off {n : Nat} (h1 : (tget {} d.tim.sout n).mode ≠ 1) (h2 : (tget {} d.tim.sout n).mode ≠ 2) :
    syncOutEdge n d = d :=
  if_neg (by simp [h1, h2])

/-! ### A commit (R76, R77) -/

theorem valid_iff (c : SyncSet) :
    let p := c.num * 10 ^ 9
    let half := if c.mode = 2 then 2 else 1
    c.valid = true ↔ c.den ≠ 0 ∧
      (c.mode = 1 ∨ c.mode = 2 → 8 * half * c.den ≤ p ∧ 2 ≤ c.width ∧ half * c.width * c.den < p) := by
  intro p half
  by_cases h1 : c.mode = 1
  · simp [SyncSet.valid, h1, p, half, and_assoc]
  · by_cases h2 : c.mode = 2
    · simp [SyncSet.valid, h2, p, half, and_assoc]
    · simp [SyncSet.valid, h1, h2]

/-- The commit taken: no request waits any more. -/
def commitTaken (n : Nat) (d : Dev) : Dev := { d with tim := { d.tim with soutCommit := tset 0 d.tim.soutCommit n 0 } }

theorem soutApply_early {n at_ : Nat} (h : tget 0 d.tim.soutCommit n = at_ + 1) (hdue : d.now < at_ * second) :
    soutApply n d = d :=
  if_neg fun ⟨_, hr⟩ => by
    rw [h] at hr
    exact absurd (of_decide_eq_true hr) (Nat.not_le.mpr hdue)

theorem soutApply_due {n at_ : Nat} (h : tget 0 d.tim.soutCommit n = at_ + 1) (hdue : at_ * second ≤ d.now) :
    soutApply n d =
      if (d.soutShadow n).valid then (commitTaken n d).withTim fun t => { t with
        sout := tset {} t.sout n (d.soutShadow n)
        soutFrom := tset 0 t.soutFrom n (max (at_ * beadsPerSec) (tget 0 t.soutHigh n)) }
      else ((commitTaken n d).wr R.TIM_SOUT_CFG_bad [n] 1).raise Ev.soutRefused n := by
  have hr : tget 0 d.tim.soutCommit n ≠ 0 ∧ d.reached ((tget 0 d.tim.soutCommit n - 1) * beadsPerSec) = true := by
    rw [h]
    exact ⟨Nat.succ_ne_zero at_, decide_eq_true hdue⟩
  have happly : soutApply n d = _ := if_pos hr
  rw [happly, h]
  rfl

theorem soutApply_valid {n at_ : Nat} (h : tget 0 d.tim.soutCommit n = at_ + 1) (hdue : at_ * second ≤ d.now)
    (hv : (d.soutShadow n).valid = true) : tget 0 (soutApply n d).tim.soutCommit n = 0 ∧
      tget {} (soutApply n d).tim.sout n = d.soutShadow n ∧ (soutApply n d).regs = d.regs := by
  rw [soutApply_due h hdue, if_pos hv]
  exact ⟨tget_tset 0 d.tim.soutCommit n 0, tget_tset {} d.tim.sout n (d.soutShadow n), rfl⟩

theorem soutApply_refused {n : Fin 8} {at_ : Nat} (h : tget 0 d.tim.soutCommit n = at_ + 1) (hdue : at_ * second ≤ d.now)
    (hv : (d.soutShadow n).valid = false) : tget 0 (soutApply n d).tim.soutCommit n = 0 ∧
      (soutApply n d).tim.sout = d.tim.sout ∧ (soutApply n d).rd R.TIM_SOUT_CFG_bad [n] = 1 := by
  have hkey : R.TIM_SOUT_CFG_bad.key [n] = 0x86004 + 512 * n := key_one rfl n
  have hev : Ev.soutRefused < 320 := by decide
  rw [soutApply_due h hdue, if_neg (by simp [hv]), raise_tim, raise_rd _ _ hev (by rw [hkey]; omega), rd_wr]
  exact ⟨tget_tset 0 d.tim.soutCommit n 0, rfl, rfl⟩

end Sys2Proof.Machine

namespace Sys2Proof.Claims

open Sys2Proof.Machine

/-- SYNC_IN_EDGE and SIN_TS_READ. -/
theorem syncInputs {d : Dev} (hon : On d) (n : Fin 4) (fine : Nat) (rise : Bool) :
    let on := d.rd R.TIM_SIN_CFG_mode [n] ≠ 0 ∧ rise = !(d.flag R.TIM_SIN_CFG_fall [n])
    let stamp : Int := ((d.now / 2048 * 2048 + fine * 2048 : Nat) : Int) - d.rdS R.TIM_SIN_DLY_dly [n]
    let fifo := tget [] d.tim.sinFifo n
    (¬ on → Does (.syncInEdge n fine rise) d d) ∧
    (on → fifo.length < 4 → ∃ d', Does (.syncInEdge n fine rise) d d' ∧ d'.mem = d.mem ∧ d'.out = d.out ∧
      tget [] d'.tim.sinFifo n = fifo ++ [(timeBits stamp.toNat).toNat]) ∧
    (on → 4 ≤ fifo.length → ∃ d', Does (.syncInEdge n fine rise) d d' ∧ d'.mem = d.mem ∧ tget [] d'.tim.sinFifo n = fifo ∧
      d'.rd R.TIM_SIN_CFG_ovf [n] = min (d.rd R.TIM_SIN_CFG_ovf [n] + 1) (2 ^ R.TIM_SIN_CFG_ovf.width - 1)) := by
  intro on stamp fifo
  have hdoes := does_of_run (c := .syncInEdge n fine rise) hon fun _ => rfl
  refine ⟨fun hoff => ?_, fun hon' hroom => ?_, fun hon' hfull => ?_⟩
  · rwa [syncInEdge_off hoff] at hdoes
  all_goals
    obtain ⟨e, he, heq⟩ := syncInEdge_captured (fine := fine) hon'
    rw [heq] at hdoes
    obtain ⟨hfifo, hmem, hout, hovf⟩ := ppsEdge_keeps n (edgeStamp n fine d) e
  · exact ⟨_, hdoes, hmem.trans he.mem, hout.trans he.out, by rw [hfifo]; exact he.room hroom⟩
  · obtain ⟨hsame, hlost⟩ := he.full hfull
    exact ⟨_, hdoes, hmem.trans he.mem, by rw [hfifo]; exact hsame, (hovf n).trans hlost⟩

/-- SYNC_IN0 in mode PPS. -/
theorem syncIn0 {d : Dev} (hon : On d) {fine : Nat} {rise : Bool}
    (h : d.rd R.TIM_SIN_CFG_mode [0] ≠ 0 ∧ rise = !(d.flag R.TIM_SIN_CFG_fall [0])) (hmode : d.rd R.TIM_SIN_CFG_mode [0] = 2) :
    let tod := d.rd R.TIM_SIN0_TOD_sec
    let stamp : Int := ((d.now / 2048 * 2048 + fine * 2048 : Nat) : Int) - d.rdS R.TIM_SIN_DLY_dly [0]
    let ofs := stamp - (tod * second : Nat)
    let reject := d.rd R.TIM_STATUS_servo = 2 ∧ d.rd R.TIM_SERVO_CFG_src = 2 ∧ 100000 * 65536 < ofs.natAbs
    ∃ d', Does (.syncInEdge 0 fine rise) d d' ∧
      (reject → d'.tim.ppsSample = d.tim.ppsSample ∧ d'.rd R.TIM_SIN0_TOD_sec = tod) ∧
      (¬ reject → d'.tim.ppsSample = some ofs ∧ d'.rd R.TIM_SIN0_TOD_sec = (tod + 1) % 2 ^ 48) := by
  intro tod stamp ofs reject
  have hdoes := does_of_run (c := .syncInEdge 0 fine rise) hon fun _ => rfl
  obtain ⟨e, he, heq⟩ := syncInEdge_captured (n := 0) (fine := fine) h
  have hrd (f : Field) (ix : List Nat) (hk : f.key ix ≠ 0x85020 ∧ f.key ix < 0x600000) : e.rd f ix = d.rd f ix :=
    he.rd f ix hk.1 hk.2
  have hsecond := ppsEdge_second (stamp := edgeStamp 0 fine d) ((hrd _ _ (by decide)).trans hmode)
  simp only [hrd R.TIM_SIN0_TOD_sec [] (by decide), hrd R.TIM_STATUS_servo [] (by decide),
    hrd R.TIM_SERVO_CFG_src [] (by decide), he.sample] at hsecond
  exact ⟨_, hdoes, heq ▸ hsecond⟩

/-- TIM_SIN_TS as it reads: the oldest time with bit 96 set, or 0. -/
theorem sinHead_word (d : Dev) (n : Nat) : (d.sinHead n).1 + (d.sinHead n).2 * 2 ^ 96 =
    match tget [] d.tim.sinFifo n with | [] => 0 | t :: _ => t + 2 ^ 96 := by
  unfold Dev.sinHead
  cases tget [] d.tim.sinFifo n with
  | nil => rfl
  | cons t l => exact congrArg (t + ·) (Nat.one_mul _)

theorem sinTsRead {d : Dev} (hon : On d) (inp : Fin 101) (n : Fin 4) :
    ∃ d', Does (.sinTsRead inp n) d d' ∧ tget [] d'.tim.sinFifo n = (tget [] d.tim.sinFifo n).tail ∧ d'.regs = d.regs ∧
      d'.out = .access inp 0 (match tget [] d.tim.sinFifo n with | [] => 0 | t :: _ => t + 2 ^ 96) :: d.out := by
  have hdoes := does_of_run (c := .sinTsRead inp n) hon fun _ => rfl
  rw [complete_accepted _ _ _ ok_accepted] at hdoes
  exact ⟨_, hdoes, tget_tset [] d.tim.sinFifo n _, rfl, congrArg (Out.access inp 0 · :: d.out) (sinHead_word d n)⟩

/-- SYNC_OUT_EDGE. -/
theorem syncOutputs {d : Dev} (hon : On d) (n : Fin 8) :
    let c := tget {} d.tim.sout n
    let den := c.den * (if c.mode = 2 then 2 else 1)
    (c.mode ≠ 1 → c.mode ≠ 2 → Does (.syncOutEdge n) d d) ∧
    (c.mode = 1 ∨ c.mode = 2 → c.num ≠ 0 → c.den ≠ 0 → ∃ (k : Int) (at_ : Nat),
      (∀ j, k ≤ j ↔ ((tget 0 d.tim.soutFrom n * den : Nat) : Int) ≤ idealEdge c j) ∧
      at_ % 2048 = 0 ∧ -(1024 * den : Nat) < (at_ * den : Nat) - idealEdge c k ∧
      (at_ * den : Nat) - idealEdge c k ≤ (1024 * den : Nat) ∧
      (d.now < at_ → Does (.syncOutEdge n) d d) ∧
      (at_ ≤ d.now → ∃ d', Does (.syncOutEdge n) d d' ∧ d'.regs = d.regs ∧ d'.mem = d.mem ∧
        d'.out = .syncEdge n at_ (if c.mode = 2 ∧ k % 2 = 1 then c.width / 2 else c.width) (c.inv == 1) :: d.out)) := by
  intro c den
  have hdoes := does_of_run (c := .syncOutEdge n) hon fun _ => rfl
  refine ⟨fun h1 h2 => ?_, fun hmode hnum hden => ?_⟩
  · rwa [Machine.syncOutEdge_off h1 h2] at hdoes
  · have hD : 0 < den := Nat.mul_pos (Nat.pos_of_ne_zero hden) (by split <;> decide)
    have hfirst := firstEdge_le_iff hnum (tget 0 d.tim.soutFrom n)
    have hideal : 0 ≤ c.ideal (c.firstEdge (tget 0 d.tim.soutFrom n)) :=
      (Int.natCast_nonneg _).trans ((hfirst _).mp (Int.le_refl _))
    obtain ⟨hgrid, hlow, hhigh⟩ := nearest_grid hD hideal rfl
    refine ⟨_, _, hfirst, hgrid, hlow, hhigh, fun hearly => ?_, fun hdue => ?_⟩
    · rwa [syncOutEdge_early hearly] at hdoes
    · obtain ⟨t, ht⟩ := syncOutEdge_due rfl hmode hnum hden rfl hdue
      rw [ht] at hdoes
      exact ⟨_, hdoes, rfl, rfl, rfl⟩

theorem syncPins : SyncPins := by
  intro d hon
  refine ⟨fun n fine rise => ?_, fun n => ?_⟩
  · obtain ⟨hoff, hroom, hfull⟩ := syncInputs hon n fine rise
    refine ⟨hoff, hroom, hfull, fun h0 h hmode => ?_, fun inp => sinTsRead hon inp n⟩
    subst h0
    exact syncIn0 hon h hmode
  · obtain ⟨hoff, hedge⟩ := syncOutputs hon n
    refine ⟨hoff, hedge, fun inp => ?_, fun at_ hat => ⟨fun hearly => ?_, fun hdue => ?_⟩⟩
    · have hdoes := does_of_run (c := .soutCommit inp n) hon fun _ => rfl
      rw [complete_accepted _ _ _ ok_accepted] at hdoes
      exact ⟨_, hdoes, tget_tset 0 d.tim.soutCommit n (d.now / second + 2), rfl, rfl⟩
    · have hdoes := does_of_run (c := .soutCommitApply n) hon fun _ => rfl
      rwa [soutApply_early hat hearly] at hdoes
    · have hdoes := does_of_run (c := .soutCommitApply n) hon fun _ => rfl
      have hvalid := valid_iff (d.soutShadow n)
      refine ⟨_, hdoes, ?_, fun hv => (soutApply_valid hat hdue (hvalid.mpr hv)).2, fun hv =>
        (soutApply_refused hat hdue (Bool.eq_false_iff.mpr (mt hvalid.mp hv))).2⟩
      cases hv : (d.soutShadow n).valid with
      | true => exact (soutApply_valid hat hdue hv).1
      | false => exact (soutApply_refused hat hdue hv).1

/-- Settles O12: a PTP message by its port's state, a sync edge by the settings in force. -/
theorem ptpAndSyncPins : Obligations.PtpAndSyncPins := ⟨ptpMessages, syncPins⟩

end Sys2Proof.Claims
end

section
/-! SUPPORT. A frame that starts, and the flush of a sub-port that is down (R97 to R99, Table 03-6). -/

namespace Sys2Proof.Machine

open Sys2Proof.Claims

variable {d e : Dev} {q s : Nat} {f : EgFrame}

/-! ### The counters of a sub-port -/

theorem prtCountKey (q s k : Nat) : R.PRT_CNT_count.key [q, s, k] = 0x108000 + 524288 * q + 4096 * s + 64 * k := by
  simp [Field.key, R.PRT_CNT_count, Nat.add_assoc]

@[simp] theorem prtCount_prt (k n : Nat) : (d.prtCount q s k n).prt = d.prt := rfl
@[simp] theorem prtCount_mem (k n : Nat) : (d.prtCount q s k n).mem = d.mem := rfl
@[simp] theorem prtCount_out (k n : Nat) : (d.prtCount q s k n).out = d.out := rfl

theorem prtCount_same (k n : Nat) (d : Dev) :
    (d.prtCount q s k n).rd R.PRT_CNT_count [q, s, k] = (d.rd R.PRT_CNT_count [q, s, k] + n) % 2 ^ 64 := rd_wr ..

theorem prtCount_ne {j k : Nat} (h : j ≠ k) (n : Nat) (d : Dev) :
    (d.prtCount q s k n).rd R.PRT_CNT_count [q, s, j] = d.rd R.PRT_CNT_count [q, s, j] :=
  rd_wr_ne _ _ _ _ _ _ (by rw [prtCountKey, prtCountKey]; omega)

theorem rd_prt (d : Dev) (x : PrtSt) (g : Field) (ix : List Nat) : ({ d with prt := x } : Dev).rd g ix = d.rd g ix := rfl

theorem rd_emit (d : Dev) (o : Out) (g : Field) (ix : List Nat) : (d.emit o).rd g ix = d.rd g ix := rfl

theorem rd_of_regs (h : e.regs = d.regs) (g : Field) (ix : List Nat) : e.rd g ix = d.rd g ix := by rw [Dev.rd, h, Dev.rd]

/-! ### A frame on the wire -/

theorem wireBytes_plain (hsrc : f.src ≠ .stream) (hrtp : f.rtpAt = none) (d : Dev) (q : Nat) :
    d.wireBytes q f = (d, wire f.bytes) := by
  simp only [Dev.wireBytes, if_neg hsrc, hrtp, wire]

/-- The timestamp a frame that starts at `t` takes with it, corrected for the path. -/
def egressStamp (d : Dev) (q t : Nat) : Nat := ((t : Int) + d.rdS R.TIM_PDLY_TX_dly [q]).toNat % beadWrap

theorem egressStamp_eq (d : Dev) (q t : Nat) : egressStamp d q t = ((t : Int) + d.rdS R.TIM_PDLY_TX_dly [q]).toNat % epoch := by
  have hwrap : beadWrap = epoch := by decide
  rw [egressStamp, hwrap]

/-- A sub-port of key `k` busy until `v`. -/
def busyTill (x : PrtSt) (k v : Nat) : PrtSt := { x with txEnd := tset 0 x.txEnd k v }

theorem busyTill_egBytes (x : PrtSt) (k v : Nat) : (busyTill x k v).egBytes = x.egBytes := rfl
theorem busyTill_egq (x : PrtSt) (k v : Nat) : (busyTill x k v).egq = x.egq := rfl
theorem busyTill_fifo (x : PrtSt) (k v : Nat) : (busyTill x k v).fifo = x.fifo := rfl

/-- The sub-port busy for the time of the frame. -/
def txBusy (d : Dev) (q s : Nat) (f : EgFrame) (u : Nat) : PrtSt :=
  busyTill d.prt (4 * q + s) (u * 400 + wire400 (d.rd R.PRT_CFG_mode [q]) f.len - bit400 (d.rd R.PRT_CFG_mode [q]) 64)

/-- A frame without stream, request for its timestamp and rewriting starts. -/
theorem startFrame_plain (hsrc : f.src ≠ .stream) (hts : f.tsTo = none) (hrtp : f.rtpAt = none) (d : Dev) (t u : Nat) (bad : Bool) :
    d.startFrame q s f t u bad =
      let e := ((({ d with prt := txBusy d q s f u } : Dev).emit (.frame q s { f with bytes := wire f.bytes }
        (beadsToRaw (egressStamp d q t)) (f.cut && bad))).prtCount q s 14).prtCount q s 15 (wire f.bytes).length
      if f.cut && bad then e.prtCount q s 17 else e := by
  simp only [Dev.startFrame, wireBytes_plain hsrc hrtp, if_neg hsrc, hts, Dev.tsReturn, Dev.withPrt, txBusy, busyTill, egressStamp]

/-- What a frame leaves as it starts: `e` is the device that had it chosen and taken from its queue. -/
theorem leaves_startFrame {p : Fin 2} {sp : Fin 4} {fine : Nat} (hf : plainFrame f p sp) (hregs : e.regs = d.regs)
    (hmem : e.mem = d.mem) (hout : e.out = d.out) (htaken : tget 0 e.prt.egBytes p = tget 0 d.prt.egBytes p - f.len)
    (u : Nat) (bad : Bool) : leaves d (e.startFrame p sp f (d.stampAt fine) u bad) p sp fine f bad := by
  obtain ⟨hsrc, hts, hrtp, -, -⟩ := hf
  have hrd := rd_of_regs hregs
  have hstamp : beadsToRaw (egressStamp e p (d.stampAt fine)) = (timeBits (egressStamp d p (d.stampAt fine))).toNat := by
    rw [toNat_timeBits, egressStamp, Dev.rdS, hrd, ← Dev.rdS, ← egressStamp]
  rw [startFrame_plain hsrc hts hrtp]
  extract_lets g
  have hcount14 : g.rd R.PRT_CNT_count [p, sp, 14] = (d.rd R.PRT_CNT_count [p, sp, 14] + 1) % 2 ^ 64 := by
    rw [prtCount_ne (by decide), prtCount_same, rd_emit, rd_prt, hrd]
  have hcount15 : g.rd R.PRT_CNT_count [p, sp, 15] = (d.rd R.PRT_CNT_count [p, sp, 15] + (wire f.bytes).length) % 2 ^ 64 := by
    rw [prtCount_same, prtCount_ne (by decide), rd_emit, rd_prt, hrd]
  have hg : leaves d g p sp fine f bad := by
    refine ⟨?_, ?_, ?_, hcount14, hcount15⟩
    · rw [prtCount_out, prtCount_out, emit_out, hstamp, hout, egressStamp_eq, Dev.stampAt]
    · rw [prtCount_mem, prtCount_mem, emit_mem, hmem]
    · rw [prtCount_prt, prtCount_prt, emit_prt, txBusy, busyTill_egBytes, htaken]
  split
  · obtain ⟨ho, hm, hb, -, -⟩ := hg
    exact ⟨ho, hm, hb, (prtCount_ne (by decide) _ _).trans hcount14, (prtCount_ne (by decide) _ _).trans hcount15⟩
  · exact hg

/-- What a frame that starts leaves of its port: the queues. -/
theorem startFrame_queues (hf : plainFrame f q s) (d : Dev) (t u : Nat) (bad : Bool) :
    (d.startFrame q s f t u bad).prt = txBusy d q s f u := by
  obtain ⟨hsrc, hts, hrtp, -, -⟩ := hf
  rw [startFrame_plain hsrc hts hrtp]
  dsimp only
  split <;> rfl

/-! ### A frame taken from its queue -/

/-- A frame chosen without stream: what taking it from its queue leaves. -/
theorem unqueue_plain (hsrc : f.src ≠ .stream) (d : Dev) (step : Nat) :
    (d.unqueue q s f step).regs = d.regs ∧ (d.unqueue q s f step).mem = d.mem ∧ (d.unqueue q s f step).out = d.out ∧
      tget 0 (d.unqueue q s f step).prt.egBytes q = tget 0 d.prt.egBytes q - f.len ∧
      (step = 3 → (d.unqueue q s f step).prt.egq = d.prt.egq ∧ tget [] (d.unqueue q s f step).prt.fifo (4 * q + s) =
        (tget [] d.prt.fifo (4 * q + s)).tail) ∧
      (step ≠ 3 → tget [] (d.unqueue q s f step).prt.egq q = (tget [] d.prt.egq q).erase f ∧
        (d.unqueue q s f step).prt.fifo = d.prt.fifo) := by
  have hfree : tget 0 (d.egFree q f).prt.egBytes q = tget 0 d.prt.egBytes q - f.len := tget_tset 0 d.prt.egBytes q _
  unfold Dev.unqueue
  extract_lets e₁ e₂ e₃
  have hleft : e₃ = e₂ := if_neg hsrc
  by_cases h3 : step = 3
  · rw [if_pos h3]
    exact ⟨rfl, rfl, rfl, hfree, fun _ => ⟨rfl, tget_tset [] d.prt.fifo (4 * q + s) _⟩, fun h => absurd h3 h⟩
  · rw [if_neg h3, hleft]
    have herase : tget [] e₂.prt.egq q = (tget [] d.prt.egq q).erase f := tget_tset [] d.prt.egq q _
    split
    · exact ⟨rfl, rfl, rfl, hfree, fun h => absurd h h3, fun _ => ⟨herase, rfl⟩⟩
    · exact ⟨rfl, rfl, rfl, hfree, fun h => absurd h h3, fun _ => ⟨herase, rfl⟩⟩

end Sys2Proof.Machine
end

section
/-! SUPPORT. The frame that the scheduler chooses, in the order of R99. -/

namespace Sys2Proof.Machine

open Sys2Proof.Claims

variable {d e : Dev} {q s t u : Nat} {f : EgFrame}

/-! ### The frames of a sub-port -/

/-- The frames queued for sub-port `s` of port `q`, and those whose turn comes before all others. -/
def hereOf (d : Dev) (q s : Nat) : List EgFrame := (tget [] d.prt.egq q).filter fun f => f.sp == s
def servedFirst (d : Dev) (q s : Nat) (f : EgFrame) : Bool := f.src == .halter || (f.ptp && !d.pausedPri q s f.pri)

theorem pausedPri_false_iff {p : Nat} : d.pausedPri q s p = false ↔ tget 0 d.prt.paused (8 * (4 * q + s) + p) ≤ d.clock := by
  simp only [Dev.pausedPri, Dev.passed, Bool.and_eq_false_iff, bne_eq_false_iff_eq, Bool.not_eq_false', decide_eq_true_iff]
  omega

theorem servedFirst_iff : servedFirst d q s f = true ↔
    f.src = .halter ∨ (f.ptp = true ∧ tget 0 d.prt.paused (8 * (4 * q + s) + f.pri) ≤ d.clock) := by
  simp [servedFirst, pausedPri_false_iff]

theorem find_here (d : Dev) (q s : Nat) (p : EgFrame → Bool) :
    ((tget [] d.prt.egq q).find? fun f => f.sp == s && p f) = (hereOf d q s).find? p := by
  rw [hereOf, List.find?_filter]
  simp only [Bool.decide_and, Bool.decide_eq_true]

theorem find_split {l a b : List EgFrame} {p : EgFrame → Bool} (hl : l = a ++ f :: b) (hf : p f = true)
    (ha : ∀ g ∈ a, p g = false) : l.find? p = some f :=
  List.find?_eq_some_iff_append.mpr ⟨hf, a, b, hl, fun g hg => by simp [ha g hg]⟩

/-- The frame of steps 2 and 4 at the head of priority `p`. -/
def plainPri (p : Nat) (f : EgFrame) : Bool := f.pri == p && f.src != .halter && !f.ptp

theorem headOf_eq (d : Dev) (q s p : Nat) :
    d.headOf q s p = if d.pausedPri q s p then none else (hereOf d q s).find? (plainPri p) := by
  rw [Dev.headOf, ← find_here]
  simp only [plainPri, Bool.and_assoc]

theorem headOf_none {p : Nat} (h : ∀ g ∈ hereOf d q s, plainPri p g = false) : d.headOf q s p = none := by
  have : (hereOf d q s).find? (plainPri p) = none := List.find?_eq_none.mpr fun g hg => by simp [h g hg]
  rw [headOf_eq, this, ite_self]

/-! ### The choice -/

theorem choose_eq (d : Dev) (q s t u : Nat) : d.choose q s t u =
    match (hereOf d q s).find? (servedFirst d q s) with
    | some f => (d, some (f, 1))
    | none =>
      match (d.step2 q s u).2 with
      | some f => ((d.step2 q s u).1, some (f, 2))
      | none =>
        match (tget [] (d.step2 q s u).1.prt.fifo (4 * q + s)).head? with
        | some f => if (d.step2 q s u).1.pausedPri q s f.pri then
            (((d.step2 q s u).1.step4 q s t).1, ((d.step2 q s u).1.step4 q s t).2.map fun f => (f, 4))
          else ((d.step2 q s u).1, some (f, 3))
        | none => (((d.step2 q s u).1.step4 q s t).1, ((d.step2 q s u).1.step4 q s t).2.map fun f => (f, 4)) := by
  rw [← find_here]
  rfl

theorem step2_none (h : d.headOf q s 7 = none) (u : Nat) : d.step2 q s u = (d, none) := by
  rw [Dev.step2, h, ite_self]

theorem step2_unshaped (h : d.rd R.PRT_P7_RATE_mbps [q] = 0) (u : Nat) : d.step2 q s u = (d, d.headOf q s 7) := if_pos h

theorem choose_first (h : (hereOf d q s).find? (servedFirst d q s) = some f) (t u : Nat) :
    d.choose q s t u = (d, some (f, 1)) := by
  rw [choose_eq, h]

section
variable (h1 : ∀ g ∈ hereOf d q s, servedFirst d q s g = false)
include h1

theorem no_first : (hereOf d q s).find? (servedFirst d q s) = none := List.find?_eq_none.mpr fun g hg => by simp [h1 g hg]

theorem choose_second (hmbps : d.rd R.PRT_P7_RATE_mbps [q] = 0) (h : d.headOf q s 7 = some f) (t u : Nat) :
    d.choose q s t u = (d, some (f, 2)) := by
  rw [choose_eq, no_first h1, step2_unshaped hmbps, h]

variable (h7 : d.headOf q s 7 = none)
include h7

theorem choose_third {rest : List EgFrame} (h : tget [] d.prt.fifo (4 * q + s) = f :: rest)
    (hp : d.pausedPri q s f.pri = false) (t u : Nat) : d.choose q s t u = (d, some (f, 3)) := by
  simp [choose_eq, no_first h1, step2_none h7, h, hp]

theorem choose_fourth (h : tget [] d.prt.fifo (4 * q + s) = []) (t u : Nat) :
    d.choose q s t u = ((d.step4 q s t).1, (d.step4 q s t).2.map fun f => (f, 4)) := by
  simp [choose_eq, no_first h1, step2_none h7, h]

end

/-! ### Step 4 without a round: no priority of non-zero weight waits -/

/-- The priorities of weight 0 in their order. -/
def restPris (d : Dev) (q : Nat) : List Nat := [6, 5, 4, 3, 2, 1, 0].filter fun p => d.weight q p == 0

theorem step4_rest (h : ∀ p, d.weight q p ≠ 0 → d.headOf q s p = none) (t : Nat) : d.step4 q s t =
    match (restPris d q).find? fun p => (d.headOf q s p).isSome with
    | none => (d, none)
    | some p => match d.headOf q s p with
      | some f => (d, if d.guardFits q s t f then some f else none)
      | none => (d, none) := by
  have hw : ((d.roundAfter q 6).any fun p => (d.headOf q s p).isSome) = false := by
    rw [List.any_eq_false]
    intro p hp
    have hne : d.weight q p ≠ 0 := by simpa using (List.mem_filter.mp hp).2
    simp [h p hne]
  simp only [Dev.step4, hw, restPris]
  rfl

theorem step4_nothing (h : ∀ p, d.headOf q s p = none) (t : Nat) : d.step4 q s t = (d, none) := by
  rw [step4_rest fun p _ => h p]
  have : ((restPris d q).find? fun p => (d.headOf q s p).isSome) = none := List.find?_eq_none.mpr fun p _ => by simp [h p]
  rw [this]

/-- A single frame that waits, of a priority of weight 0, when the guard does not stand against it. -/
theorem step4_single (hhere : hereOf d q s = [f]) (hpri : f.pri < 7) (hplain : plainPri f.pri f = true)
    (hp : d.pausedPri q s f.pri = false) (hw : d.weight q f.pri = 0) (hg : d.rd R.MED_ROSTER_CFG_guard [q] = 0) (t : Nat) :
    d.step4 q s t = (d, some f) := by
  have hhead : d.headOf q s f.pri = some f := by
    rw [headOf_eq, hp, hhere]
    simp [hplain]
  have hother (p : Nat) (hne : p ≠ f.pri) : d.headOf q s p = none := by
    refine headOf_none fun g hg => ?_
    obtain rfl : g = f := by simpa [hhere] using hg
    simp [plainPri, Ne.symm hne]
  have hfind : ((restPris d q).find? fun p => (d.headOf q s p).isSome) = some f.pri := by
    have hmem : f.pri ∈ restPris d q := by
      refine List.mem_filter.mpr ⟨?_, by simp [hw]⟩
      have : ∀ n, n < 7 → n ∈ [6, 5, 4, 3, 2, 1, 0] := by decide
      exact this _ hpri
    cases hfound : (restPris d q).find? fun p => (d.headOf q s p).isSome with
    | none => exact absurd (List.find?_eq_none.mp hfound _ hmem) (by simp [hhead])
    | some p =>
      have hp := List.find?_some hfound
      by_contra hne
      simp [hother p (by simpa using hne)] at hp
  have hguard : d.guardFits q s t f = true := if_pos (by simp [Dev.flag, hg])
  rw [step4_rest (fun p hp => hother p fun he => hp (he ▸ hw)), hfind]
  simp [hhead, hguard]

end Sys2Proof.Machine
end

section
/-! SUPPORT. EGRESS_START: the sub-port down, busy or free. -/

namespace Sys2Proof.Machine

open Sys2Proof.Claims

variable {d e : Dev} {q s : Nat} {f : EgFrame}

/-! ### The flush of a sub-port that is down (R97) -/

theorem linkUp_eq (d : Dev) (q s : Nat) : d.linkUp q s = hasBit d R.PRT_STATUS_link [q] s := rfl

theorem faulted_eq (d : Dev) (q s : Nat) :
    d.faulted q s = (hasBit d R.PRT_STATUS_lfault [q] s || hasBit d R.PRT_STATUS_rfault [q] s) := Nat.testBit_or ..

/-- A stream's frame gone from its queue. -/
def leftStream (q : Nat) (d : Dev) (f : EgFrame) : Dev := if f.src = .stream then d.egrLeave (egrKey q f.stream) else d

theorem egrLeave_med (d : Dev) (k : Nat) : d.egrLeave k = { d with med := (d.egrLeave k).med } := by
  unfold Dev.egrLeave
  extract_lets n e
  split <;> rfl

theorem leftStreams_med (l : List EgFrame) (d : Dev) :
    l.foldl (leftStream q) d = { d with med := (l.foldl (leftStream q) d).med } := by
  refine List.foldlRecOn (motive := fun (e : Dev) => e = { d with med := e.med }) l _ rfl fun e he f _ => ?_
  unfold leftStream
  split
  · rw [egrLeave_med, he]
  · exact he

/-- A frame dropped for a sub-port that is down. -/
def flushedOne (q s : Nat) (d : Dev) (f : EgFrame) : Dev := (d.egFree q f).prtCount q s 16

theorem flushed_spec (l : List EgFrame) (d : Dev) :
    let e := l.foldl (flushedOne q s) d
    e.prt.egq = d.prt.egq ∧ e.prt.fifo = d.prt.fifo ∧ e.out = d.out ∧ e.mem = d.mem ∧
      e.rd R.PRT_CNT_count [q, s, 16] % 2 ^ 64 = (d.rd R.PRT_CNT_count [q, s, 16] + l.length) % 2 ^ 64 := by
  induction l generalizing d with
  | nil => exact ⟨rfl, rfl, rfl, rfl, rfl⟩
  | cons f l ih =>
    obtain ⟨hegq, hfifo, hout, hmem, hcount⟩ := ih (flushedOne q s d f)
    have hone : (flushedOne q s d f).rd R.PRT_CNT_count [q, s, 16] = (d.rd R.PRT_CNT_count [q, s, 16] + 1) % 2 ^ 64 :=
      prtCount_same ..
    refine ⟨hegq, hfifo, hout, hmem, ?_⟩
    rw [List.foldl_cons, hcount, hone, Nat.mod_add_mod, List.length_cons, Nat.add_assoc, Nat.add_comm 1]

/-- The queues without the sub-port's frames. -/
def queuesWithout (x : PrtSt) (q s : Nat) : PrtSt := { x with
  egq := tset [] x.egq q ((tget [] x.egq q).filter fun f => f.sp != s)
  fifo := tset [] x.fifo (4 * q + s) [] }

theorem flushDown_eq (d : Dev) (q s : Nat) : d.flushDown q s =
    (hereOf d q s ++ tget [] d.prt.fifo (4 * q + s)).foldl (flushedOne q s)
      ((hereOf d q s).foldl (leftStream q) { d with prt := queuesWithout d.prt q s }) := rfl

theorem flushDown_spec (d : Dev) (q s : Nat) :
    let e := d.flushDown q s
    tget [] e.prt.egq q = ((tget [] d.prt.egq q).filter fun f => f.sp != s) ∧ tget [] e.prt.fifo (4 * q + s) = [] ∧
      e.out = d.out ∧ e.mem = d.mem ∧ e.rd R.PRT_CNT_count [q, s, 16] % 2 ^ 64 =
        (d.rd R.PRT_CNT_count [q, s, 16] + ((hereOf d q s).length + (tget [] d.prt.fifo (4 * q + s)).length)) % 2 ^ 64 := by
  obtain ⟨hegq, hfifo, hout, hmem, hcount⟩ := flushed_spec (q := q) (s := s) (hereOf d q s ++ tget [] d.prt.fifo (4 * q + s))
    ((hereOf d q s).foldl (leftStream q) { d with prt := queuesWithout d.prt q s })
  rw [← flushDown_eq] at hegq hfifo hout hmem hcount
  rw [leftStreams_med] at hegq hfifo hout hmem hcount
  rw [List.length_append] at hcount
  refine ⟨?_, ?_, hout, hmem, hcount⟩
  · rw [hegq]
    exact tget_tset [] d.prt.egq q _
  · rw [hfifo]
    exact tget_tset [] d.prt.fifo (4 * q + s) []

/-! ### The start on a sub-port that is up -/

/-- The sub-port's link is up without a fault. -/
def upOf (d : Dev) (q s : Nat) : Prop := hasBit d R.PRT_STATUS_link [q] s = true ∧ hasBit d R.PRT_STATUS_lfault [q] s = false ∧
  hasBit d R.PRT_STATUS_rfault [q] s = false

theorem upOf_iff : upOf d q s ↔ ¬ (d.linkUp q s = false ∨ d.faulted q s = true) := by
  rw [linkUp_eq, faulted_eq, upOf]
  cases hasBit d R.PRT_STATUS_link [q] s <;> simp

/-- The last frame's wire time is over, up to the eight bytes of R590. -/
def freeOf (d : Dev) (q s fine : Nat) : Prop :=
  tget 0 d.prt.txEnd (4 * q + s) + 64 * 65536 * (400 / gbps (d.rd R.PRT_CFG_mode [q])) ≤ (d.clock + fine * 2048) * 400

theorem egressStart_down {fine : Nat} {bad : Bool} (h : ¬ upOf d q s) : egressStart q s fine bad d = d.flushDown q s :=
  if_pos (by rwa [upOf_iff, not_not] at h)

theorem egressStart_busy {fine : Nat} {bad : Bool} (hup : upOf d q s) (h : ¬ freeOf d q s fine) :
    egressStart q s fine bad d = d :=
  (if_neg (upOf_iff.mp hup)).trans (if_pos (Nat.lt_of_not_le h))

section
variable {fine : Nat} (hup : upOf d q s) (hfree : freeOf d q s fine)
include hup hfree

/-- What follows the choice. -/
theorem egressStart_free (bad : Bool) : egressStart q s fine bad d =
    match (d.choose q s (d.stampAt fine) (d.clockAt fine)).2 with
    | none => (d.choose q s (d.stampAt fine) (d.clockAt fine)).1
    | some (f, step) =>
      let e := (d.choose q s (d.stampAt fine) (d.clockAt fine)).1.unqueue q s f step
      if f.src = .stream ∧ e.txHalted q f.stream = true then (e.egCount q f).haltDrop q f
      else if step ≥ 3 ∧ (e.rd R.PRT_HALT_STATE_egr_stop [q]).testBit s then (e.prtCount q s 18).tsReturn f.tsTo 0 true
      else e.startFrame q s f (d.stampAt fine) (d.clockAt fine) bad :=
  (if_neg (upOf_iff.mp hup)).trans (if_neg (Nat.not_lt.mpr hfree))

theorem egressStart_none (bad : Bool) (hc : d.choose q s (d.stampAt fine) (d.clockAt fine) = (d, none)) :
    egressStart q s fine bad d = d := by
  rw [egressStart_free hup hfree, hc]

theorem egressStart_starts {step : Nat} (bad : Bool)
    (hc : d.choose q s (d.stampAt fine) (d.clockAt fine) = (d, some (f, step))) (hsrc : f.src ≠ .stream)
    (hopen : step < 3 ∨ hasBit d R.PRT_HALT_STATE_egr_stop [q] s = false) :
    egressStart q s fine bad d = (d.unqueue q s f step).startFrame q s f (d.stampAt fine) (d.clockAt fine) bad := by
  obtain ⟨hregs, -⟩ := unqueue_plain (q := q) (s := s) hsrc d step
  have hgo : ¬ (step ≥ 3 ∧ ((d.unqueue q s f step).rd R.PRT_HALT_STATE_egr_stop [q]).testBit s = true) := by
    rw [rd_of_regs hregs]
    rintro ⟨h3, hstop⟩
    rcases hopen with hlt | hbit
    · omega
    · rw [hasBit, hstop] at hbit
      exact absurd hbit (by decide)
  rw [egressStart_free hup hfree, hc]
  dsimp only
  rw [if_neg fun h => hsrc h.1, if_neg hgo]

theorem egressStart_stopped (bad : Bool)
    (hc : d.choose q s (d.stampAt fine) (d.clockAt fine) = (d, some (f, 3))) (hsrc : f.src ≠ .stream) (hts : f.tsTo = none)
    (hstop : hasBit d R.PRT_HALT_STATE_egr_stop [q] s = true) :
    egressStart q s fine bad d = (d.unqueue q s f 3).prtCount q s 18 := by
  obtain ⟨hregs, -⟩ := unqueue_plain (q := q) (s := s) hsrc d 3
  have hhalt : 3 ≥ 3 ∧ ((d.unqueue q s f 3).rd R.PRT_HALT_STATE_egr_stop [q]).testBit s = true :=
    ⟨Nat.le_refl 3, by rw [rd_of_regs hregs]; exact hstop⟩
  rw [egressStart_free hup hfree, hc]
  dsimp only
  rw [if_neg fun h => hsrc h.1, if_pos hhalt, hts]
  rfl

end

end Sys2Proof.Machine

namespace Sys2Proof.Claims

open Sys2Proof.Machine

variable {d : Dev} {q : Fin 2} {sp : Fin 4} {fine : Nat} {bad : Bool} {f : EgFrame}

/-- A frame chosen by any step but the third leaves its queue. -/
theorem starts_queued (hon : On d) (hup : upOf d q sp) (hfree : freeOf d q sp fine) (hf : plainFrame f q sp) {step : Nat}
    (hc : d.choose q sp (d.stampAt fine) (d.clockAt fine) = (d, some (f, step)))
    (hopen : step < 3 ∨ hasBit d R.PRT_HALT_STATE_egr_stop [q] sp = false) (h3 : step ≠ 3) :
    ∃ d', Does (.egressStart q sp fine bad) d d' ∧ leaves d d' q sp fine f bad ∧
      tget [] d'.prt.egq q = (tget [] d.prt.egq q).erase f ∧
      tget [] d'.prt.fifo (4 * q + sp) = tget [] d.prt.fifo (4 * q + sp) := by
  have hdoes := does_of_run (c := .egressStart q sp fine bad) hon fun _ => rfl
  obtain ⟨hregs, hmem, hout, hbytes, -, hqueues⟩ := unqueue_plain (q := q) (s := sp) hf.1 d step
  obtain ⟨hegq, hfifo⟩ := hqueues h3
  rw [egressStart_starts hup hfree bad hc hf.1 hopen] at hdoes
  refine ⟨_, hdoes, leaves_startFrame hf hregs hmem hout hbytes _ bad, ?_, ?_⟩
  · rw [startFrame_queues hf, txBusy, busyTill_egq, hegq]
  · rw [startFrame_queues hf, txBusy, busyTill_fifo, hfifo]

/-- A frame that a roster put forward leaves the FIFO. -/
theorem starts_forwarded (hon : On d) (hup : upOf d q sp) (hfree : freeOf d q sp fine) (hf : plainFrame f q sp)
    (hc : d.choose q sp (d.stampAt fine) (d.clockAt fine) = (d, some (f, 3)))
    (hopen : hasBit d R.PRT_HALT_STATE_egr_stop [q] sp = false) :
    ∃ d', Does (.egressStart q sp fine bad) d d' ∧ leaves d d' q sp fine f bad ∧
      tget [] d'.prt.egq q = tget [] d.prt.egq q ∧
      tget [] d'.prt.fifo (4 * q + sp) = (tget [] d.prt.fifo (4 * q + sp)).tail := by
  have hdoes := does_of_run (c := .egressStart q sp fine bad) hon fun _ => rfl
  obtain ⟨hregs, hmem, hout, hbytes, hqueues, -⟩ := unqueue_plain (q := q) (s := sp) hf.1 d 3
  obtain ⟨hegq, hfifo⟩ := hqueues rfl
  rw [egressStart_starts hup hfree bad hc hf.1 (.inr hopen)] at hdoes
  refine ⟨_, hdoes, leaves_startFrame hf hregs hmem hout hbytes _ bad, ?_, ?_⟩
  · rw [startFrame_queues hf, txBusy, busyTill_egq, hegq]
  · rw [startFrame_queues hf, txBusy, busyTill_fifo, hfifo]

theorem egressScheduling : EgressScheduling := by
  intro d hon q sp fine bad
  have hfirst (g : EgFrame) : servedFirst d q sp g = false ↔
      ¬ (g.src = .halter ∨ (g.ptp = true ∧ tget 0 d.prt.paused (8 * (4 * q + sp) + g.pri) ≤ d.clock)) := by
    rw [← servedFirst_iff, Bool.not_eq_true]
  have hdoes := does_of_run (c := .egressStart q sp fine bad) hon fun _ => rfl
  refine ⟨fun hdown => ?_, fun hup hbusy => ?_, fun hup hfree hnone hfifo => ?_, fun hup hfree => ⟨fun f a b hl hf ha hp => ?_,
    fun hno => ?_⟩⟩
  · rw [egressStart_down hdown] at hdoes
    exact ⟨_, hdoes, flushDown_spec d q sp⟩
  · rwa [egressStart_busy hup hbusy] at hdoes
  · have hempty : hereOf d q sp = [] := hnone
    have hhead (p : Nat) : d.headOf q sp p = none := headOf_none (by simp [hempty])
    have hc := choose_fourth (d := d) (q := q) (s := sp) (by simp [hempty]) (hhead 7) hfifo (d.stampAt fine) (d.clockAt fine)
    rw [step4_nothing hhead] at hc
    rwa [egressStart_none hup hfree bad hc] at hdoes
  · have hc := choose_first (find_split hl (servedFirst_iff.mpr hf) fun g hg => (hfirst g).mpr (ha g hg)) (d.stampAt fine)
      (d.clockAt fine)
    exact starts_queued hon hup hfree hp hc (.inl (by decide)) (by decide)
  have hno (g : EgFrame) (hg : g ∈ hereOf d q sp) : servedFirst d q sp g = false := (hfirst g).mpr (hno g hg)
  refine ⟨fun f a b hl hpri hptp ha hun hmbps hp hsrc => ?_, fun h7 => ⟨fun f rest hl hun hp => ⟨fun hopen => ?_, fun hopen => ?_⟩,
    fun f hl hhere hpri hptp hsrc hun hopen hguard hw hp => ?_⟩⟩
  · have hhead : d.headOf q sp 7 = some f := by
      rw [headOf_eq, pausedPri_false_iff.mpr hun, if_neg (by decide)]
      refine find_split hl (by simp [plainPri, hpri, hptp, hsrc]) fun g hg => ?_
      rcases ha g hg with hne | hptp
      · simp [plainPri, hne]
      · simp [plainPri, hptp]
    obtain ⟨d', hd', hleaves, hegq, -⟩ := starts_queued hon hup hfree hp (choose_second hno hmbps hhead _ _) (.inl (by decide))
      (by decide)
    exact ⟨d', hd', hleaves, hegq⟩
  all_goals have hhead7 : d.headOf q sp 7 = none := headOf_none fun g hg => by simp [plainPri, h7 g hg]
  · obtain ⟨d', hd', hleaves, hegq, hfifo⟩ := starts_forwarded (bad := bad) hon hup hfree hp
      (choose_third hno hhead7 hl (pausedPri_false_iff.mpr hun) _ _) hopen
    exact ⟨d', hd', hleaves, hegq, by rw [hfifo, hl, List.tail_cons]⟩
  · obtain ⟨hsrc, hts, -⟩ := hp
    obtain ⟨hregs, -, hout, -, hqueues, -⟩ := unqueue_plain (q := q) (s := sp) hsrc d 3
    rw [egressStart_stopped hup hfree bad (choose_third hno hhead7 hl (pausedPri_false_iff.mpr hun) _ _) hsrc hts
      (by simpa using hopen)] at hdoes
    refine ⟨_, hdoes, by rw [prtCount_out, hout], ?_, ?_⟩
    · rw [prtCount_prt, (hqueues rfl).2, hl, List.tail_cons]
    · rw [prtCount_same, rd_of_regs hregs]
  · have hplain : plainPri f.pri f = true := by simp [plainPri, hptp, hsrc]
    have hc := choose_fourth hno hhead7 hl (d.stampAt fine) (d.clockAt fine)
    rw [step4_single hhere hpri hplain (pausedPri_false_iff.mpr hun) hw hguard] at hc
    obtain ⟨d', hd', hleaves, hegq, -⟩ := starts_queued (bad := bad) hon hup hfree hp hc (.inr hopen) (by decide)
    exact ⟨d', hd', hleaves, hegq⟩

end Sys2Proof.Claims
end

section
/-! SUPPORT. The two copies of the rosters; an event that stays pending. -/

namespace Sys2Proof.Machine

open Sys2Proof.Claims

variable {d : Dev}

/-! ### An event raised is pending (R452) -/

theorem raise_pends {src : Nat} (hdef : evtDefaultH src ≠ 0) (info : Nat) (d : Dev) : pends (d.raise src info) src := by
  have hpend : R.EVT_PEND_pend.key [src / 64] = 0x600800 + 64 * (src / 64) := key_one rfl _
  have hhpend : R.EVT_HPEND_pend.key [src / 64] = 0x600A00 + 64 * (src / 64) := key_one rfl _
  have hset : pends (d.setBit R.EVT_PEND_pend [src / 64] (src % 64)) src := by
    have hbit : src % 64 < R.EVT_PEND_pend.width := Nat.mod_lt _ (by decide)
    rw [pends, hasBit, Dev.setBit, rd_wr, Nat.testBit_mod_two_pow, decide_eq_true hbit, withBit, Nat.testBit_or,
      Nat.testBit_two_pow_self, Bool.or_true]
    rfl
  have hwr (e : Dev) (h : pends e src) (f : Field) (ix : List Nat) (v : Nat) (hne : R.EVT_PEND_pend.key [src / 64] ≠ f.key ix) :
      pends (e.wr f ix v) src := by
    rwa [pends, hasBit, rd_wr_ne _ _ _ _ _ _ hne]
  unfold Dev.raise Dev.raiseAt
  rw [if_neg hdef]
  extract_lets p h r
  have hh : pends h src := by
    unfold h
    split
    · exact hwr p hset _ _ _ (by rw [hpend, hhpend]; omega)
    · exact hset
  split
  · split
    · exact hh
    · unfold Dev.acceptRaise
      split
      · exact hh
      · exact hwr h hh _ _ _ (by rw [hpend]; simp [Field.key, R.EVT_STAT_q_lost]; omega)
  · exact hh

/-! ### The copies exchanged and filled -/

theorem tget_append {α : Type} (v : α) (a b : Table α) (k : Nat) : tget v (a ++ b) k = tget (tget v b k) a k := by
  induction a with
  | nil => rfl
  | cons e a ih =>
    rw [List.cons_append, tget, tget, ih]

theorem tget_filter_key {α : Type} (v : α) (m : Table α) (p : Nat → Prop) [DecidablePred p] (k : Nat) :
    tget v (m.filter fun e => decide (p e.1)) k = if p k then tget v m k else v := by
  have := tget_filter v m (fun j => !decide (p j)) k
  simp only [Bool.not_not] at this
  rw [this]
  by_cases hk : p k <;> simp [hk]

/-- A table written entry by entry, the last first, reads as its entries. -/
def rewritten (t : Table Nat) : Table Nat := t.foldr (fun e acc => tset 0 acc e.1 e.2) []

theorem tget_rewritten (t : Table Nat) (k : Nat) : tget 0 (rewritten t) k = tget 0 t k := by
  induction t with
  | nil => rfl
  | cons e t ih =>
    have hcons : rewritten (e :: t) = tset 0 (rewritten t) e.1 e.2 := rfl
    rw [hcons, tget]
    by_cases hk : k = e.1
    · rw [hk, tget_tset, if_pos rfl]
    · rw [tget_tset_ne _ _ _ _ _ hk, ih, if_neg (Ne.symm hk)]

/-- Port `q`'s entries from `b`, the other's from `a`. -/
def portFrom (q : Nat) (a b : Table Nat) : Table Nat :=
  rewritten ((a.filter fun e => decide (e.1 / 65536 ≠ q)) ++ (b.filter fun e => decide (e.1 / 65536 = q)))

theorem tget_portFrom (q : Nat) (a b : Table Nat) (k : Nat) :
    tget 0 (portFrom q a b) k = if k / 65536 = q then tget 0 b k else tget 0 a k := by
  rw [portFrom, tget_rewritten, tget_append, tget_filter_key _ _ (· / 65536 ≠ q), tget_filter_key _ _ (· / 65536 = q)]
  by_cases hk : k / 65536 = q <;> simp [hk]

theorem rosterAt_portFrom {q p i : Nat} (hi : i < 65536) (a b : Table Nat) :
    rosterAt (portFrom q a b) p i = if p = q then rosterAt b p i else rosterAt a p i := by
  have hport : (65536 * p + i) / 65536 = p := by omega
  rw [rosterAt, tget_portFrom, hport]
  rfl

end Sys2Proof.Machine
end

section
/-! SUPPORT. The slots of a roster and the period wrap a commit waits for (R182 to R185, R187). -/

namespace Sys2Proof.Machine

open Sys2Proof.Claims

variable {d : Dev} {q n : Nat}

/-! ### A slot -/

/-- The device when slot `n` of port `q` has begun. -/
def slotBegun (d : Dev) (q n : Nat) : Dev := { d with med := { d.med with rosAt := tset 0 d.med.rosAt q (n + 2) } }

/-- The beginning of slot `n`, and whether it has come, before the wrap that a commit waits for. -/
def slotBegins (d : Dev) (q n : Nat) : Prop := d.rd R.MED_ROSTER_CFG_en [q] ≠ 0 ∧ d.slotTime q n ≤ d.now ∧
  (tget 0 d.med.rosWrap q = 0 ∨ d.slotTime q n < ((tget 0 d.med.rosWrap q : Nat) : Int) - 1)

theorem rosterSlot_eq (h : tget 0 d.med.rosAt q = n + 1) : rosterSlot q d =
    if d.flag R.MED_ROSTER_CFG_en [q] = false ∨ d.slotTime q n > (d.now : Int) ∨
        (tget 0 d.med.rosWrap q ≠ 0 ∧ d.slotTime q n ≥ ((tget 0 d.med.rosWrap q : Nat) : Int) - 1) then d
    else if d.controlOnly then slotBegun d q n
    else match d.rosEntry q n with
      | none => slotBegun d q n
      | some e => (slotBegun d q n).serveSlot q e (d.slotTime q n) := by
  have hn : d.nextSlotNo q = n := by simp only [Dev.nextSlotNo, h]
  unfold rosterSlot
  rw [hn]
  rfl

theorem slotBegins_iff : slotBegins d q n ↔ ¬ (d.flag R.MED_ROSTER_CFG_en [q] = false ∨ d.slotTime q n > (d.now : Int) ∨
    (tget 0 d.med.rosWrap q ≠ 0 ∧ d.slotTime q n ≥ ((tget 0 d.med.rosWrap q : Nat) : Int) - 1)) := by
  simp only [slotBegins, Dev.flag, bne_eq_false_iff_eq]
  omega

theorem rosterSlot_early (h : tget 0 d.med.rosAt q = n + 1) (hb : ¬ slotBegins d q n) : rosterSlot q d = d := by
  rw [slotBegins_iff, not_not] at hb
  rw [rosterSlot_eq h, if_pos hb]

theorem rosEntry_eq (d : Dev) (q n : Nat) :
    let e := rosterAt d.med.rosAct q (n % slots d q)
    d.rosEntry q n = if e.testBit 14 then some (e % 2 ^ 14) else none := by
  intro e
  have hen : bits e 14 1 = 1 ↔ e.testBit 14 = true := by
    rw [Nat.testBit_eq_decide_div_mod_eq, decide_eq_true_iff]
    rfl
  have hstream : bits e 0 14 = e % 2 ^ 14 := by rw [bits, Nat.pow_zero, Nat.div_one]
  have hentry : d.rosEntry q n = if bits e 14 1 = 1 then some (bits e 0 14) else none := rfl
  rw [hentry, hstream]
  simp only [hen]

theorem rosterSlot_begun (h : tget 0 d.med.rosAt q = n + 1) (hb : slotBegins d q n) (hc : d.controlOnly = false) :
    let e := rosterAt d.med.rosAct q (n % slots d q)
    rosterSlot q d =
      if e.testBit 14 then (slotBegun d q n).serveSlot q (e % 2 ^ 14) (d.slotTime q n) else slotBegun d q n := by
  intro e
  rw [rosterSlot_eq h, if_neg (slotBegins_iff.mp hb), if_neg (by simp [hc]), rosEntry_eq]
  by_cases he : e.testBit 14 = true
  · rw [if_pos he, if_pos he]
  · rw [if_neg he, if_neg he]

/-- The key of a port's stream. -/
def streamKey (q e : Nat) : Nat := 2 ^ 14 * q + e

theorem serveSlot_empty {e : Nat} (h : tget [] d.med.egrQ (streamKey q e) = []) (at_ : Int) : d.serveSlot q e at_ = d := by
  have hkey : tget [] d.med.egrQ (egrKey q e) = [] := h
  simp only [Dev.serveSlot, hkey]

/-- The head frame taken off its stream's queue. -/
def popped (d : Dev) (q e : Nat) (rest : List EgFrame) : Dev :=
  (d.withMed fun m => { m with egrQ := tset [] m.egrQ (streamKey q e) rest }).egrLeave (streamKey q e)

/-- A frame put forward: it goes from its stream's queue to the FIFO of its sub-port. -/
def forwarded (d : Dev) (q e : Nat) (f : EgFrame) (rest : List EgFrame) : Dev :=
  (popped d q e rest).withPrt fun p =>
    { p with fifo := tset [] p.fifo (4 * q + f.sp) (tget [] p.fifo (4 * q + f.sp) ++ [f]) }

/-- The fields of the media unit that a stream's queue growing shorter leaves. -/
theorem egrLeave_queues (d : Dev) (k : Nat) : (d.egrLeave k).med.egrQ = d.med.egrQ ∧ (d.egrLeave k).med.rosAt = d.med.rosAt := by
  unfold Dev.egrLeave
  extract_lets n e
  split <;> exact ⟨rfl, rfl⟩

theorem serveSlot_head {e : Nat} {f : EgFrame} {rest : List EgFrame} {t : Nat} (h : tget [] d.med.egrQ (streamKey q e) = f :: rest)
    (ht : f.elig = some t) (at_ : Int) : d.serveSlot q e at_ =
      if at_ < t then d
      else if d.txHalted q e then (popped d q e rest).haltDrop q f
      else if d.linkUp q f.sp = false ∨ d.faulted q f.sp = true then ((popped d q e rest).egFree q f).prtCount q f.sp 16
      else if (tget [] d.prt.fifo (4 * q + f.sp)).length ≥ 16 then d.medCount 14
      else forwarded d q e f rest := by
  have hkey : tget [] d.med.egrQ (egrKey q e) = f :: rest := h
  simp only [Dev.serveSlot, hkey, ht, Option.getD_some]
  rfl

theorem forwarded_spec (d : Dev) (q e : Nat) (f : EgFrame) (rest : List EgFrame) :
    let d' := forwarded d q e f rest
    tget [] d'.prt.fifo (4 * q + f.sp) = tget [] d.prt.fifo (4 * q + f.sp) ++ [f] ∧
      tget [] d'.med.egrQ (streamKey q e) = rest ∧ d'.med.rosAt = d.med.rosAt ∧ d'.regs = d.regs ∧ d'.mem = d.mem := by
  have hpop : popped d q e rest = { d with med := (popped d q e rest).med } := egrLeave_med ..
  obtain ⟨hq, hat⟩ := egrLeave_queues (d.withMed fun m => { m with egrQ := tset [] m.egrQ (streamKey q e) rest }) (streamKey q e)
  have hq : (popped d q e rest).med.egrQ = tset [] d.med.egrQ (streamKey q e) rest := hq
  have hat : (popped d q e rest).med.rosAt = d.med.rosAt := hat
  unfold forwarded
  refine ⟨?_, ?_, hat, by rw [hpop]; rfl, by rw [hpop]; rfl⟩
  · rw [hpop]
    exact tget_tset [] d.prt.fifo (4 * q + f.sp) _
  · rw [Dev.withPrt, hq]
    exact tget_tset [] d.med.egrQ (streamKey q e) rest

/-! ### The wrap of a commit -/

/-- The first wrap after a time is after it by a period at most, and a whole number of periods from the phase. -/
theorem nextWrap_spec (d : Dev) (q t : Nat) :
    t < d.nextWrap q t ∧ d.nextWrap q t ≤ t + slots d q * slotWidth d q ∧
      ((d.nextWrap q t : Int) - tget 0 d.med.rosPhase q) % (slots d q * slotWidth d q : Nat) = 0 := by
  have hpos : 0 < slots d q * slotWidth d q := Nat.mul_pos (Nat.succ_pos _) (by unfold slotWidth; omega)
  have hwrap : d.nextWrap q t = (d.rosBase q + (((t : Int) - d.rosBase q) / (slots d q * slotWidth d q : Nat) + 1) *
      (slots d q * slotWidth d q : Nat)).toNat := rfl
  have hbase : d.rosBase q = tget 0 d.med.rosPhase q % (slots d q * slotWidth d q : Nat) - (slots d q * slotWidth d q : Nat) := rfl
  generalize slots d q * slotWidth d q = lw at hpos hwrap hbase ⊢
  generalize tget 0 d.med.rosPhase q = ph at hbase ⊢
  have hlow := Int.ediv_mul_le ((t : Int) - d.rosBase q) (b := (lw : Int)) (by omega)
  have hhigh := Int.lt_ediv_add_one_mul_self ((t : Int) - d.rosBase q) (b := (lw : Int)) (by omega)
  have hdiv := Int.mul_ediv_add_emod ph lw
  generalize ((t : Int) - d.rosBase q) / lw = k at hlow hhigh hwrap
  have hsplit : (k + 1) * (lw : Int) = k * lw + lw := by rw [Int.add_mul, Int.one_mul]
  have hcast : (d.nextWrap q t : Int) = d.rosBase q + (k + 1) * lw := by rw [hwrap]; omega
  refine ⟨by omega, by omega, Int.emod_eq_zero_of_dvd ⟨k - ph / lw, ?_⟩⟩
  rw [hcast, hbase, Int.mul_sub, Int.mul_comm (lw : Int) k]
  omega

end Sys2Proof.Machine
end

section
/-! SUPPORT. The swap of a roster's copies, the copy behind it, the window (R183, R184, Table 05-9). -/

namespace Sys2Proof.Machine

open Sys2Proof.Claims

variable {d e : Dev} {q : Nat}

/-! ### The registers of a roster -/

theorem rosterKey_ne {f g : Field} (hf : f.dims = [(512, 2)]) (hg : g.dims = [(512, 2)]) (hne : f.pos ≠ g.pos) (q : Nat) :
    f.key [q] ≠ g.key [q] := by
  rw [key_one hf, key_one hg]
  omega

theorem rosterKey_lt {f : Field} (hf : f.dims = [(512, 2)]) (hlt : f.pos < 0x300000) (p : Fin 2) : f.key [p] < 0x600000 := by
  rw [key_one hf]
  omega

/-! ### The swap -/

theorem setRosAt_regs (n : Nat) (d : Dev) : (d.setRosAt q n).regs = d.regs := rfl
theorem setRosAt_act (n : Nat) (d : Dev) : (d.setRosAt q n).med.rosAct = d.med.rosAct := rfl
theorem setRosAt_shad (n : Nat) (d : Dev) : (d.setRosAt q n).med.rosShad = d.med.rosShad := rfl
theorem setRosAt_phase (n : Nat) (d : Dev) : (d.setRosAt q n).med.rosPhase = d.med.rosPhase := rfl

/-- The media unit with port `q`'s copies exchanged and the shadow's phase in force. -/
def exchanged (m : MedSt) (q : Nat) (ph : Int) : MedSt := { m with
  rosAct := portFrom q m.rosAct m.rosShad
  rosShad := portFrom q m.rosShad m.rosAct
  rosPhase := tset 0 m.rosPhase q ph
  rosWrap := tset 0 m.rosWrap q 0 }

/-- The device with the shadow's settings in force. -/
def settled (d : Dev) (q : Nat) : Dev :=
  (({ d with med := exchanged d.med q (d.rdS R.MED_ROSTER_CFG_phase [q]) } : Dev).wr R.MED_ROSTER_STAT_act_len_m1 [q]
    (d.rd R.MED_ROSTER_CFG_len_m1 [q])).wr R.MED_ROSTER_STAT_act_width [q] (d.rd R.MED_ROSTER_CFG_width [q])

/-- The flags, the count and the event of a swap. -/
def swapTold (q : Nat) (d : Dev) : Dev :=
  (((d.wr R.MED_ROSTER_STAT_pending [q] 0).wr R.MED_ROSTER_STAT_copying [q] 1).bumpWrap R.MED_ROSTER_STAT_commits [q]).raise
    Ev.rosterCommitted q

/-- A swap that changes the settings besides goes on from another slot. -/
theorem rosterSwapNow_eq (d : Dev) (q wrap : Nat) : ∃ e, d.rosterSwapNow q wrap = swapTold q e ∧ e.regs = (settled d q).regs ∧
    e.med.rosAct = (settled d q).med.rosAct ∧ e.med.rosShad = (settled d q).med.rosShad ∧
    e.med.rosPhase = (settled d q).med.rosPhase := by
  unfold Dev.rosterSwapNow
  extract_lets len wid ph same pick sorted d₁ d₂ lw base d₃
  by_cases hsame : same
  · exact ⟨settled d q, congrArg (swapTold q) (if_pos hsame), rfl, rfl, rfl, rfl⟩
  · exact ⟨_, congrArg (swapTold q) (if_neg hsame), setRosAt_regs .., setRosAt_act .., setRosAt_shad .., setRosAt_phase ..⟩

theorem swapTold_med (d : Dev) : (swapTold q d).med = d.med := by rw [swapTold, raise_med]; rfl

section
variable (p : Fin 2) (d : Dev)

theorem swapTold_rd {f : Field} (hf : f.dims = [(512, 2)]) (hpos : f.pos < 0x300000) (hp : f.pos ≠ 0x280895)
    (hc : f.pos ≠ 0x280896) (hn : f.pos ≠ 0x2808A0) : (swapTold p d).rd f [p] = d.rd f [p] := by
  rw [swapTold, raise_rd _ _ (by decide) (rosterKey_lt hf hpos p), Dev.bumpWrap,
    rd_wr_ne _ _ _ _ _ _ (rosterKey_ne hf rfl hn _), rd_wr_ne _ _ _ _ _ _ (rosterKey_ne hf rfl hc _),
    rd_wr_ne _ _ _ _ _ _ (rosterKey_ne hf rfl hp _)]

theorem swapTold_pending : (swapTold p d).rd R.MED_ROSTER_STAT_pending [p] = 0 := by
  rw [swapTold, raise_rd _ _ (by decide) (rosterKey_lt rfl (by decide) p), Dev.bumpWrap,
    rd_wr_ne _ _ _ _ _ _ (rosterKey_ne rfl rfl (by decide) _), rd_wr_ne _ _ _ _ _ _ (rosterKey_ne rfl rfl (by decide) _), rd_wr]
  rfl

theorem swapTold_copying : (swapTold p d).rd R.MED_ROSTER_STAT_copying [p] = 1 := by
  rw [swapTold, raise_rd _ _ (by decide) (rosterKey_lt rfl (by decide) p), Dev.bumpWrap,
    rd_wr_ne _ _ _ _ _ _ (rosterKey_ne rfl rfl (by decide) _), rd_wr]
  rfl

theorem settled_len : (settled d p).rd R.MED_ROSTER_STAT_act_len_m1 [p] = d.rd R.MED_ROSTER_CFG_len_m1 [p] % 2 ^ 16 := by
  rw [settled, rd_wr_ne _ _ _ _ _ _ (rosterKey_ne rfl rfl (by decide) _), rd_wr]
  rfl

theorem settled_width : (settled d p).rd R.MED_ROSTER_STAT_act_width [p] = d.rd R.MED_ROSTER_CFG_width [p] % 2 ^ 5 := by
  rw [settled, rd_wr]
  rfl

end

/-- The registers and the event of a swap, the copies and the phase after it. -/
theorem rosterSwapNow_spec (d : Dev) (p : Fin 2) (wrap : Nat) :
    let e := d.rosterSwapNow p wrap
    e.med.rosAct = portFrom p d.med.rosAct d.med.rosShad ∧ e.med.rosShad = portFrom p d.med.rosShad d.med.rosAct ∧
      e.rd R.MED_ROSTER_STAT_act_len_m1 [p] = d.rd R.MED_ROSTER_CFG_len_m1 [p] % 2 ^ 16 ∧
      e.rd R.MED_ROSTER_STAT_act_width [p] = d.rd R.MED_ROSTER_CFG_width [p] % 2 ^ 5 ∧
      tget 0 e.med.rosPhase p = d.rdS R.MED_ROSTER_CFG_phase [p] ∧ e.rd R.MED_ROSTER_STAT_pending [p] = 0 ∧
      e.rd R.MED_ROSTER_STAT_copying [p] = 1 ∧ pends e 128 := by
  obtain ⟨e, he, hregs, hact, hshad, hphase⟩ := rosterSwapNow_eq d p wrap
  have hrd := rd_of_regs hregs
  rw [he]
  refine ⟨?_, ?_, ?_, ?_, ?_, swapTold_pending p e, swapTold_copying p e, raise_pends (by decide) _ _⟩
  · rw [swapTold_med, hact]
    rfl
  · rw [swapTold_med, hshad]
    rfl
  · rw [swapTold_rd p e rfl (by decide) (by decide) (by decide) (by decide), hrd, settled_len]
  · rw [swapTold_rd p e rfl (by decide) (by decide) (by decide) (by decide), hrd, settled_width]
  · rw [swapTold_med, hphase]
    exact tget_tset 0 d.med.rosPhase p _

theorem rosterSwap_waits (h : ¬ (d.rd R.MED_ROSTER_STAT_pending [q] ≠ 0 ∧ tget 0 d.med.rosWrap q ≠ 0 ∧
    tget 0 d.med.rosWrap q ≤ d.now + 1)) : rosterSwap q d = d := by
  refine if_neg fun ⟨hp, hw, hr⟩ => h ⟨by simpa [Dev.flag] using hp, hw, ?_⟩
  have := of_decide_eq_true hr
  omega

theorem rosterSwap_due (h : d.rd R.MED_ROSTER_STAT_pending [q] ≠ 0 ∧ tget 0 d.med.rosWrap q ≠ 0 ∧
    tget 0 d.med.rosWrap q ≤ d.now + 1) : rosterSwap q d = d.rosterSwapNow q (tget 0 d.med.rosWrap q - 1) := by
  obtain ⟨hp, hw, hr⟩ := h
  exact if_pos ⟨by simpa [Dev.flag] using hp, hw, decide_eq_true (by omega)⟩

/-! ### The copy -/

/-- The shadow filled from the active copy, no write waiting for it any more. -/
def copied (d : Dev) (q : Nat) : Dev :=
  { d.wr R.MED_ROSTER_STAT_copying [q] 0 with med := { d.med with
    rosShad := portFrom q d.med.rosShad d.med.rosAct
    rosWait := d.med.rosWait.filter fun w => !rosWaits q w } }

theorem rosterCopyDone_idle (h : d.rd R.MED_ROSTER_STAT_copying [q] = 0) : rosterCopyDone q d = d :=
  if_pos (by simp [Dev.flag, h])

theorem rosterCopyDone_copies (h : d.rd R.MED_ROSTER_STAT_copying [q] ≠ 0) :
    rosterCopyDone q d = (d.med.rosWait.filter (rosWaits q)).foldl (fun d w => d.rosterLate w) (copied d q) :=
  if_neg (by simp [Dev.flag, h])

theorem copied_copying (d : Dev) (q : Nat) : (copied d q).rd R.MED_ROSTER_STAT_copying [q] = 0 := by
  have : (copied d q).rd R.MED_ROSTER_STAT_copying [q] =
      (d.wr R.MED_ROSTER_STAT_copying [q] 0).rd R.MED_ROSTER_STAT_copying [q] := rfl
  rw [this, rd_wr]
  rfl

theorem copied_shad (d : Dev) {q i : Nat} (hi : i < 65536) : rosterAt (copied d q).med.rosShad q i = rosterAt d.med.rosAct q i :=
  (rosterAt_portFrom hi ..).trans (if_pos rfl)

/-- The key of a slot's write names its port. -/
theorem rosWaits_slot {p : Fin 2} {i : Nat} (hi : i < 65536) (inp v : Nat) : rosWaits p (inp, 65536 * p + i, v) = true := by
  have hlt : 65536 * (p : Nat) + i < 131072 := by omega
  have hport : (65536 * (p : Nat) + i) / 65536 = p := by omega
  simp [rosWaits, hlt, hport]

/-- A slot's write that waited for the copy of its port. -/
theorem rosterCopyDone_late {p : Fin 2} {inp i v : Nat} (h : d.rd R.MED_ROSTER_STAT_copying [p] ≠ 0)
    (hwait : d.med.rosWait = [(inp, 65536 * p + i, v)]) (hi : i < 65536) : rosterCopyDone p d =
      ((copied d p).withMed fun m => { m with rosShad := tset 0 m.rosShad (65536 * p + i) v }).emit (.access inp Sts.ok 0) := by
  have hlt : 65536 * (p : Nat) + i < 131072 := by omega
  have hw := rosWaits_slot (p := p) hi inp v
  rw [rosterCopyDone_copies h, hwait, List.filter_cons_of_pos hw, List.filter_nil, List.foldl_cons, List.foldl_nil, Dev.rosterLate,
    if_pos hlt]

theorem copied_wait {p : Fin 2} {inp i v : Nat} (hwait : d.med.rosWait = [(inp, 65536 * p + i, v)]) (hi : i < 65536) :
    (copied d p).med.rosWait = [] := by
  have hw := rosWaits_slot (p := p) hi inp v
  have : (copied d p).med.rosWait = d.med.rosWait.filter fun w => !rosWaits p w := rfl
  rw [this, hwait, List.filter_cons_of_neg (by simp [hw]), List.filter_nil]

/-! ### The window -/

/-- All the bits of a slot written: the low fifteen are kept. -/
theorem windowMix (old v : Nat) : (old &&& (0x7FFF - (ones 16 &&& 0x7FFF))) ||| (v &&& ones 16 &&& 0x7FFF) = v % 2 ^ 15 := by
  have hones : ones 16 = 2 ^ 16 - 1 := rfl
  have hmask : 0x7FFF - (ones 16 &&& 0x7FFF) = 0 := by decide
  have hlow : (0x7FFF : Nat) = 2 ^ 15 - 1 := rfl
  rw [hmask, Nat.and_zero, Nat.zero_or, hones, Nat.and_two_pow_sub_one_eq_mod, hlow, Nat.and_two_pow_sub_one_eq_mod]
  omega

/-- The key of the window's entry `e`. -/
def windowKey (d : Dev) (e : Nat) : Nat := 65536 * d.rd R.MED_ROSTER_SEL_port + 2048 * d.rd R.MED_ROSTER_SEL_page + e

theorem writeRosterWin_unlocked {r : Req} (h : d.locked r = false) (e v : Nat) : writeRosterWin r e (ones 16) v d =
    if d.flag R.MED_ROSTER_SEL_bank then
      ({ d with med := { d.med with rosAct := tset 0 d.med.rosAct (windowKey d e) (v % 2 ^ 15) } }, some Sts.ok)
    else if d.flag R.MED_ROSTER_STAT_copying [d.rd R.MED_ROSTER_SEL_port] then
      ({ d with med := { d.med with rosWait := d.med.rosWait ++ [(r.inp, windowKey d e, v % 2 ^ 15)] } }, none)
    else ({ d with med := { d.med with rosShad := tset 0 d.med.rosShad (windowKey d e) (v % 2 ^ 15) } }, some Sts.ok) := by
  simp only [writeRosterWin, h, Bool.false_eq_true, if_false, windowMix]
  rfl

end Sys2Proof.Machine

namespace Sys2Proof.Claims

open Sys2Proof.Machine

variable {d : Dev}

/-- ROSTER_SLOT. -/
theorem rosterSlots (hon : On d) (q : Fin 2) {n : Nat} (hat : tget 0 d.med.rosAt q = n + 1) :
    let e := rosterAt d.med.rosAct q (n % slots d q)
    let k := streamKey q (e % 2 ^ 14)
    let s := d.slotTime q n
    let on := slotBegun d q n
    (¬ slotBegins d q n → Does (.rosterSlot q) d d) ∧
    (slotBegins d q n → d.controlOnly = false →
      (e.testBit 14 = false ∨ tget [] d.med.egrQ k = [] → Does (.rosterSlot q) d on) ∧
      (e.testBit 14 = true → ∀ f rest, tget [] d.med.egrQ k = f :: rest → ∀ t, f.elig = some t →
        (s < t → Does (.rosterSlot q) d on) ∧
        ((t : Int) ≤ s → hasBit d R.MED_TX_HALT_halt [q, e % 2 ^ 14 / 64] (e % 64) = false → f.sp < 4 →
          hasBit d R.PRT_STATUS_link [q] f.sp = true → hasBit d R.PRT_STATUS_lfault [q] f.sp = false →
          hasBit d R.PRT_STATUS_rfault [q] f.sp = false →
          let fifo := tget [] d.prt.fifo (4 * q + f.sp)
          (16 ≤ fifo.length → Does (.rosterSlot q) d (on.medCount 14)) ∧
          (fifo.length < 16 → ∃ d', Does (.rosterSlot q) d d' ∧ tget [] d'.prt.fifo (4 * q + f.sp) = fifo ++ [f] ∧
            tget [] d'.med.egrQ k = rest ∧ tget 0 d'.med.rosAt q = n + 2 ∧ d'.regs = d.regs ∧ d'.mem = d.mem)))) := by
  intro e k s on
  have hdoes := does_of_run (c := .rosterSlot q) hon fun _ => rfl
  refine ⟨fun hb => ?_, fun hb hc => ?_⟩
  · rwa [rosterSlot_early hat hb] at hdoes
  rw [rosterSlot_begun hat hb hc] at hdoes
  refine ⟨fun hidle => ?_, fun hen f rest hk t ht => ?_⟩
  · by_cases hen : e.testBit 14 = true
    · have hempty : tget [] on.med.egrQ k = [] := hidle.resolve_left (by simp [hen])
      rwa [if_pos hen, serveSlot_empty hempty] at hdoes
    · rwa [if_neg hen] at hdoes
  · have hhead : tget [] on.med.egrQ k = f :: rest := hk
    rw [if_pos hen, serveSlot_head hhead ht] at hdoes
    refine ⟨fun hlate => ?_, fun hdue hhalt hsp hlink hlf hrf => ?_⟩
    · rwa [if_pos hlate] at hdoes
    have hrel : on.txHalted q (e % 2 ^ 14) = false := by
      have hmod : e % 2 ^ 14 % 64 = e % 64 := by omega
      rw [Dev.txHalted, hmod]
      exact hhalt
    have hup : ¬ (on.linkUp q f.sp = false ∨ on.faulted q f.sp = true) := upOf_iff.mp ⟨hlink, hlf, hrf⟩
    have hprt : on.prt = d.prt := rfl
    rw [if_neg (by omega), if_neg (by rw [hrel]; decide), if_neg hup, hprt] at hdoes
    refine ⟨fun hfull => ?_, fun hroom => ?_⟩
    · rwa [if_pos hfull] at hdoes
    · rw [if_neg (Nat.not_le.mpr hroom)] at hdoes
      obtain ⟨hfifo, hqueue, hslot, hregs, hmem⟩ := forwarded_spec on q (e % 2 ^ 14) f rest
      exact ⟨_, hdoes, hfifo, hqueue, by rw [hslot]; exact tget_tset 0 d.med.rosAt q (n + 2), hregs, hmem⟩

theorem rosterCommits (hon : On d) (q : Fin 2) (inp : Fin 101) (hrun : d.island 78 = 0) :
    ∃ d', Does (.rosterCommit inp q) d d' ∧ d'.out = .access inp 0 0 :: d.out ∧
      d'.rd R.MED_ROSTER_STAT_pending [q] = 1 ∧ d'.mem = d.mem ∧
      ∃ w : Nat, tget 0 d'.med.rosWrap q = w + 1 ∧ d.now < w ∧ w ≤ d.now + slots d q * slotWidth d q ∧
        ((w : Int) - tget 0 d.med.rosPhase q) % (slots d q * slotWidth d q : Nat) = 0 := by
  have hdoes := does_runOn (c := .rosterCommit inp q) hon hrun fun _ => rfl
  rw [complete_accepted _ _ _ ok_accepted] at hdoes
  have hkey {f : Field} (hf : f.dims = [(512, 2)]) (hne : f.pos ≠ 0x280895) :
      (d.wr R.MED_ROSTER_STAT_pending [q] 1).rd f [q] = d.rd f [q] :=
    rd_wr_ne _ _ _ _ _ _ (rosterKey_ne hf rfl hne _)
  have hwrap := nextWrap_spec (d.wr R.MED_ROSTER_STAT_pending [q] 1) q d.now
  simp only [slots, slotWidth, hkey (f := R.MED_ROSTER_STAT_act_len_m1) rfl (by decide),
    hkey (f := R.MED_ROSTER_STAT_act_width) rfl (by decide)] at hwrap
  have hpending : (d.wr R.MED_ROSTER_STAT_pending [q] 1).rd R.MED_ROSTER_STAT_pending [q] = 1 := by
    rw [rd_wr]
    rfl
  exact ⟨_, hdoes, rfl, hpending, rfl, _,
    tget_tset 0 d.med.rosWrap q ((d.wr R.MED_ROSTER_STAT_pending [q] 1).nextWrap q d.now + 1), hwrap⟩

/-- ROSTER_WIN_WRITE. -/
theorem rosterWindow (hon : On d) (inp : Fin 101) (desc : Bool) (e : Fin 2048) (v : BitVec 16) (hrun : d.island 78 = 0) :
    let go := Instr.rosterWinWrite inp desc e v
    let active := d.rd R.MED_ROSTER_SEL_bank ≠ 0
    let copying := d.rd R.MED_ROSTER_STAT_copying [d.rd R.MED_ROSTER_SEL_port] ≠ 0
    let k := windowKey d e
    (d.locked ⟨inp, desc⟩ = true → Does go d ((said d inp 4 0).raise 3 (inp + 1024))) ∧
    (d.locked ⟨inp, desc⟩ = false →
      (active → Does go d (said { d with med := { d.med with rosAct := tset 0 d.med.rosAct k (v.toNat % 2 ^ 15) } } inp 0 0)) ∧
      (¬ active → copying →
        Does go d { d with med := { d.med with rosWait := d.med.rosWait ++ [((inp : Nat), k, v.toNat % 2 ^ 15)] } }) ∧
      (¬ active → ¬ copying →
        Does go d (said { d with med := { d.med with rosShad := tset 0 d.med.rosShad k (v.toNat % 2 ^ 15) } } inp 0 0))) := by
  intro go active copying k
  have hdoes := does_runOn (c := go) hon hrun fun _ => rfl
  refine ⟨fun hl => ?_, fun hl => ?_⟩
  · have hw : writeRosterWin ⟨inp, desc⟩ e (ones 16) v.toNat d = (d, some Sts.locked) := if_pos hl
    simp only [hw] at hdoes
    rwa [complete_denied (st := Sts.locked) _ _ _ (.inr (.inr rfl))] at hdoes
  have hw := writeRosterWin_unlocked hl e v.toNat
  refine ⟨fun ha => ?_, fun ha hc => ?_, fun ha hc => ?_⟩
  · rw [if_pos (by simpa [Dev.flag] using ha)] at hw
    simp only [hw] at hdoes
    rwa [complete_accepted _ _ _ ok_accepted] at hdoes
  · rw [if_neg (by simpa [Dev.flag, active] using ha), if_pos (by simpa [Dev.flag] using hc)] at hw
    simpa only [hw] using hdoes
  · rw [if_neg (by simpa [Dev.flag, active] using ha), if_neg (by simpa [Dev.flag, copying] using hc)] at hw
    simp only [hw] at hdoes
    rwa [complete_accepted _ _ _ ok_accepted] at hdoes

theorem rosterOperation : RosterOperation := by
  intro d hon q
  refine ⟨fun n hat => rosterSlots hon q hat, fun inp hrun => rosterCommits hon q inp hrun, ⟨fun hwait => ?_, fun hdue => ?_⟩,
    fun hidle => ?_, fun hcopy => ⟨fun hnone => ?_, fun inp i v hwait hi => ?_⟩,
    fun inp desc e v hrun => rosterWindow hon inp desc e v hrun⟩
  · have hdoes := does_of_run (c := .rosterSwap q) hon fun _ => rfl
    rwa [rosterSwap_waits hwait] at hdoes
  · have hdoes := does_of_run (c := .rosterSwap q) hon fun _ => rfl
    rw [rosterSwap_due hdue] at hdoes
    obtain ⟨hact, hshad, hrest⟩ := rosterSwapNow_spec d q (tget 0 d.med.rosWrap q - 1)
    have hmem : (d.rosterSwapNow q (tget 0 d.med.rosWrap q - 1)).mem = d.mem := by
      rw [(rosterSwapNow_mediaOnly ..).eq]
    refine ⟨_, hdoes, hmem, fun i hi => ?_, fun p i _ hne hi => ?_, hrest⟩
    · rw [hact, hshad, rosterAt_portFrom hi, rosterAt_portFrom hi, if_pos rfl, if_pos rfl]
      exact ⟨rfl, rfl⟩
    · rw [hact, hshad, rosterAt_portFrom hi, rosterAt_portFrom hi, if_neg hne, if_neg hne]
      exact ⟨rfl, rfl⟩
  · have hdoes := does_of_run (c := .rosterCopyDone q) hon fun _ => rfl
    rwa [rosterCopyDone_idle hidle] at hdoes
  · have hdoes := does_of_run (c := .rosterCopyDone q) hon fun _ => rfl
    rw [rosterCopyDone_copies hcopy, hnone, List.filter_nil, List.foldl_nil] at hdoes
    exact ⟨_, hdoes, copied_copying d q, rfl, fun i hi => copied_shad d hi, rfl⟩
  · have hdoes := does_of_run (c := .rosterCopyDone q) hon fun _ => rfl
    rw [rosterCopyDone_late hcopy hwait hi] at hdoes
    refine ⟨_, hdoes, copied_wait hwait hi, rfl, fun j hj => ?_⟩
    have hrow : rosterAt (tset 0 (copied d q).med.rosShad (65536 * q + i) v) q j =
        if j = i then v else rosterAt (copied d q).med.rosShad q j := by
      by_cases hji : j = i
      · rw [if_pos hji, hji, rosterAt, tget_tset]
      · rw [if_neg hji, rosterAt, tget_tset_ne _ _ _ _ _ (by omega), rosterAt]
    rw [← copied_shad d hj, ← hrow]
    rfl

/-- Settles O24: the start of a frame by the first step of R99 that has one, a roster's slots, swap, copy and window. -/
theorem rosterAndEgressScheduling : Obligations.RosterAndEgressScheduling := ⟨egressScheduling, rosterOperation⟩

end Sys2Proof.Claims
end

section
/-! SUPPORT. What refutes the statements on the ports (O15 to O17). They are about every device, also one that
holds numbers no command puts there: a frame in progress whose priority, or a halter whose sub-port, no register has. What
such a number would index lies where another register stands. -/

namespace Sys2Proof.Machine

open Sys2Proof.Claims

/-- A command leaves one device. -/
theorem does_unique {c : Instr} {d a b : Dev} (h : Does c d a) (g : Does c d b) : a = b := by
  have he := (h []).symm.trans (g [])
  injection he with he
  injection he

/-! ### Frames in progress with a priority above 7 -/

/-- Sub-port 0 of port 0 is up and receives a frame that holds one cell, of priority 472: the occupancy of that priority
would stand where the sub-port's count 8 stands, which is 1. -/
def lossDev : Dev := { (({} : Dev).wr R.PRT_STATUS_link [0] 1).wr R.PRT_CNT_count [0, 0, 8] 1 with
  prt := { step := [(0, 5)], prog := [(0, { cells := 1, pri := 472 })] } }

/-- The cell freed takes the count to 0, the frame dropped to 1 again. -/
theorem lossDev_count : (pcsLockLoss 0 0 true lossDev).rd R.PRT_CNT_count [0, 0, 8] = 1 := by decide

/-- Priority 0 of port 0 has no cell to give, and a frame that holds one cell, of priority 80, asks for one: the occupancy
of that priority would stand where the drops of priority 0 stand, of which there was one. -/
def dropDev : Dev := { (({} : Dev).wr R.PRT_BUF_LIM_max [0, 0] 0).wr R.PRT_DROP_PRI_count [0, 0] 1 with
  prt := { prog := [(0, { cells := 1, pri := 80 })] } }

/-- The cell freed takes the drops to 0, the frame dropped to 1 again. -/
theorem dropDev_count : (cellAlloc 0 0 0 dropDev).rd R.PRT_DROP_PRI_count [0, 0] = 1 := by decide

/-! ### A halter from a sub-port above 3 -/

/-- A halter that stops stream 1,024 of port 0, to be acknowledged on sub-port 440. -/
def strayHalter : Halter := { ctrl := 0, sp := 440, mac := 0, psn := 0, record := 5 * 2 ^ 16 + 1024 * 2 ^ 64 }

/-- The device where it waits. The acknowledgement is dropped, as for a sub-port that is down, and counted: count 16 of
sub-port 440 would stand where the halt bits of streams 1,024 to 1,087 stand. -/
def strayDev : Dev := { prt := { halters := [(0, [strayHalter])] } }

/-- The halt bit set, counting takes it to the next bit. -/
theorem strayDev_runs : (halterAct 0 5 0 strayDev).txHalted 0 1024 = false := by decide

end Sys2Proof.Machine

namespace Sys2Proof.Claims
open Sys2Proof.Machine

/-- Refutes O15: PCS lock lost, the frame being received holds a cell of a priority above 7 (`lossDev`), and its drop is
not counted. -/
theorem not_portBringUp : ¬ Obligations.PortBringUp := by
  intro h
  obtain ⟨-, -, sub, -⟩ := h lossDev rfl 0
  obtain ⟨-, -, -, -, -, -, -, loss, -⟩ := sub 0
  obtain ⟨d', hdoes, -, -, -, -, hcount⟩ := loss true (by decide)
  obtain rfl : d' = pcsLockLoss 0 0 true lossDev := does_unique hdoes (does_of_run rfl fun _ => rfl)
  have hold : lossDev.rd R.PRT_CNT_count [0, 0, 8] = 1 := by decide
  have hnew := (hcount rfl).symm.trans lossDev_count
  simp [hold] at hnew

/-- Refutes O16: a cell asked for and not given, the frame holds a cell of a priority above 7 (`dropDev`), and its drop is
not counted. -/
theorem not_frameReception : ¬ Obligations.FrameReception := by
  intro h
  obtain ⟨-, -, -, -, -, -, cells⟩ := h dropDev rfl 0 0 { bytes := [] } 0
  obtain ⟨-, -, full⟩ := cells 0
  obtain ⟨d', hdoes, -, hcount, -⟩ := full (by decide) (by decide)
  obtain rfl : d' = cellAlloc 0 0 0 dropDev := does_unique hdoes (does_of_run rfl fun _ => rfl)
  have hold : dropDev.rd R.PRT_DROP_PRI_count [0, 0] = 1 := by decide
  have hnew := hcount.symm.trans dropDev_count
  simp [hold] at hnew

/-- Refutes O17: a halter that came on a sub-port above 3 (`strayDev`) leaves the stream it stops running. -/
theorem not_flowControlAndHalters : ¬ Obligations.FlowControlAndHalters := by
  rintro ⟨-, h⟩
  obtain ⟨-, acts, -⟩ := h strayDev rfl 0 0
  obtain ⟨d', hdoes, -, -, -, -, -, -, hok, -⟩ :=
    acts strayHalter [] rfl (by decide) ⟨.streamStop, 5, 15⟩ (by simp [haltRows]) (by decide)
  obtain ⟨⟨-, -, -, -, hstop, -⟩, -⟩ := hok (by decide)
  obtain rfl : d' = halterAct 0 5 0 strayDev := does_unique hdoes (does_of_run rfl fun _ => rfl)
  have hhalted : (halterAct 0 5 0 strayDev).txHalted 0 1024 = true := hstop rfl
  simp [strayDev_runs] at hhalted

end Sys2Proof.Claims
end

section
/-! SUPPORT. The clauses that O15 to O17 fail in hold where a device holds numbers that its registers have: a priority of at
most 7 of the frame in progress, a sub-port of at most 3 of the halter. -/

namespace Sys2Proof.Machine

open Sys2Proof.Claims

variable {d : Dev} {q s p : Nat} {f : Field} {ix : List Nat}

theorem occKey (q p : Nat) : R.PRT_BUF_OCC_cells.key [q, p] = 0x100C00 + 524288 * q + 64 * p := key_two rfl q p
theorem dropPriKey (q p : Nat) : R.PRT_DROP_PRI_count.key [q, p] = 0x102000 + 524288 * q + 64 * p := key_two rfl q p

/-! ### What leaves a register -/

theorem prtCount_rd_ne {k : Nat} (n : Nat) (hf : f.key ix ≠ R.PRT_CNT_count.key [q, s, k]) :
    (d.prtCount q s k n).rd f ix = d.rd f ix := rd_wr_ne _ _ _ _ _ _ hf

/-- Nothing but the occupancy and the counts of frames and bytes sent (14, 15) changes as cells are freed: XON is no XOFF
frame. -/
theorem freeCells_rd {n : Nat} (hocc : f.key ix ≠ R.PRT_BUF_OCC_cells.key [q, p])
    (hcnt : ∀ s k, k = 14 ∨ k = 15 → f.key ix ≠ R.PRT_CNT_count.key [q, s, k]) : (d.freeCells q p n).rd f ix = d.rd f ix := by
  have xon (e : Dev) : (e.sendPfc q p 0).rd f ix = e.rd f ix := by
    refine List.foldlRecOn (motive := fun (x : Dev) => x.rd f ix = e.rd f ix) _ _ rfl fun x hx s _ => ?_
    split
    · rw [if_pos rfl, prtCount_rd_ne _ (hcnt s 15 (.inr rfl)), prtCount_rd_ne _ (hcnt s 14 (.inl rfl)), rd_emit, hx]
    · exact hx
  rw [Dev.freeCells]
  split
  · rw [xon]
    exact rd_wr_ne _ _ _ _ _ _ hocc
  · exact rd_wr_ne _ _ _ _ _ _ hocc

theorem endProg_rd (hocc : f.key ix ≠ R.PRT_BUF_OCC_cells.key [q, (tget {} d.prt.prog (4 * q + s)).pri])
    (hcnt : ∀ s k, k = 14 ∨ k = 15 → f.key ix ≠ R.PRT_CNT_count.key [q, s, k]) : (d.endProg q s).rd f ix = d.rd f ix := by
  rw [Dev.endProg]
  split
  · rfl
  · exact freeCells_rd hocc hcnt

/-- A link that goes down writes bits of PRT_STATUS and TIM_PORT_STAT, which stand below the port's other registers, and
the event block. -/
theorem linkDown_rd (hq : q < 2) (hlo : 0x100100 + 524288 * q ≤ f.key ix) (hhi : f.key ix < 0x600000) (d : Dev) :
    (d.linkDown q s).rd f ix = d.rd f ix := by
  have hsrc : Ev.port q 1 < 320 := by unfold Ev.port; omega
  have clear {g : Field} {stride : Nat} (hg : g.dims = [(stride, 2)]) (hpos : g.pos + stride * q < 0x100100 + 524288 * q)
      (e : Dev) (b : Nat) : (e.clearBit g [q] b).rd f ix = e.rd f ix :=
    rd_wr_ne _ _ _ _ _ _ (by rw [key_one hg]; omega)
  have hts : R.TIM_PORT_STAT_ts_valid.pos + 256 * q < 0x100100 + 524288 * q := by
    simp only [R.TIM_PORT_STAT_ts_valid]
    omega
  have cleared : ((((d.clearBit R.PRT_STATUS_link [q] s).clearBit R.PRT_STATUS_pcs_lock [q] s).clearBit
      R.PRT_STATUS_fec_lock [q] s).clearBit R.TIM_PORT_STAT_ts_valid [q] s).rd f ix = d.rd f ix := by
    rw [clear rfl hts, clear rfl (Nat.add_lt_add_right (by decide) _), clear rfl (Nat.add_lt_add_right (by decide) _),
      clear rfl (Nat.add_lt_add_right (by decide) _)]
  rw [Dev.linkDown]
  split
  · rw [(fireWake_aside ..).rd, raise_rd _ _ hsrc hhi, cleared]
  · exact cleared

theorem linkDown_prt (d : Dev) (q s : Nat) : (d.linkDown q s).prt = d.prt := by
  rw [Dev.linkDown]
  split
  · rw [(fireWake_aside ..), raise_prt]
    rfl
  · rfl

/-- A halter's acknowledgement on a sub-port counts a frame dropped at most (R97). -/
theorem halterReply_rd {ip mac psn code : Nat} (hf : f.key ix ≠ R.PRT_CNT_count.key [q, s, 16]) :
    (d.halterReply q s ip mac psn code).rd f ix = d.rd f ix := by
  rw [Dev.halterReply, Dev.egEnter]
  split
  · exact prtCount_rd_ne _ hf
  · split <;> rfl

/-! ### The clauses -/

/-- The drop of a frame that a loss of PCS lock cuts off is counted (O15). -/
theorem pcsLockLoss_counts (hq : q < 2) (hs : s < 4) (hstep : tget 0 d.prt.step (4 * q + s) = 5)
    (hpri : (tget {} d.prt.prog (4 * q + s)).pri < 8) :
    (pcsLockLoss q s true d).rd R.PRT_CNT_count [q, s, 8] = (d.rd R.PRT_CNT_count [q, s, 8] + 1) % 2 ^ 64 := by
  have hprog : ((d.linkDown q s).setStep q s 3).prt.prog = d.prt.prog := by
    show (d.linkDown q s).prt.prog = d.prt.prog
    rw [linkDown_prt]
  have hend : (((d.linkDown q s).setStep q s 3).endProg q s).rd R.PRT_CNT_count [q, s, 8] =
      (d.linkDown q s).rd R.PRT_CNT_count [q, s, 8] := by
    refine endProg_rd (d := (d.linkDown q s).setStep q s 3) ?_ fun s' k hk => ?_
    · rw [hprog, prtCountKey, occKey]
      omega
    · rw [prtCountKey, prtCountKey]
      omega
  have hdown : (d.linkDown q s).rd R.PRT_CNT_count [q, s, 8] = d.rd R.PRT_CNT_count [q, s, 8] :=
    linkDown_rd hq (by rw [prtCountKey]; omega) (by rw [prtCountKey]; omega) d
  rw [pcsLockLoss, if_pos hstep, if_pos rfl, prtCount_same, hend, hdown]

/-- The drop of a frame that asked for a cell and got none is counted (O16). -/
theorem cellAlloc_counts (hq : q < 2) (hp : p < 8) (hgoes : (tget {} d.prt.prog (4 * q + s)).dropped = false)
    (hpri : (tget {} d.prt.prog (4 * q + s)).pri < 8) (hfull : d.cellFree q p = false) :
    (cellAlloc q s p d).rd R.PRT_DROP_PRI_count [q, p] = (d.rd R.PRT_DROP_PRI_count [q, p] + 1) % 2 ^ 64 := by
  have hsrc : Ev.port q 5 < 320 := by unfold Ev.port; omega
  have hfree : (d.freeCells q (tget {} d.prt.prog (4 * q + s)).pri (tget {} d.prt.prog (4 * q + s)).cells).rd
      R.PRT_DROP_PRI_count [q, p] = d.rd R.PRT_DROP_PRI_count [q, p] := by
    refine freeCells_rd ?_ fun s k hk => ?_
    · rw [dropPriKey, occKey]
      omega
    · rw [dropPriKey, prtCountKey]
      omega
  rw [cellAlloc, if_neg (by simp [hgoes]), if_neg (by simp [hfull]), Dev.dropPri, raise_rd _ _ hsrc (by rw [dropPriKey]; omega),
    Dev.bumpWrap, rd_wr, ← hfree]
  rfl

/-- The halt bit of a stream that is stopped sets. -/
theorem streamStop_txHalted (d : Dev) (q e : Nat) : (d.streamStop q e).txHalted q e = true := by
  have hbit : ((d.setBit R.MED_TX_HALT_halt [q, e / 64] (e % 64)).rd R.MED_TX_HALT_halt [q, e / 64]).testBit (e % 64) = true := by
    rw [Dev.setBit, rd_wr, Nat.testBit_mod_two_pow, withBit, Nat.testBit_or, Nat.testBit_two_pow_self, Bool.or_true, Bool.and_true]
    exact decide_eq_true (Nat.mod_lt e (by decide))
  rw [Dev.streamStop, Dev.txHalted]
  split <;> exact hbit

/-- The halter at the head taken, its wake fired. -/
def halterTaken (d : Dev) (q : Nat) (rest : List Halter) : Dev :=
  (d.withPrt fun p => { p with halters := tset [] p.halters q rest }).fireWake 8 0

/-- A halter that acted with `result`: logged, counted, its event raised and its acknowledgement sent. -/
def halterTold (q : Nat) (h : Halter) (action time result : Nat) (e : Dev) : Dev :=
  let e := ((e.halterLog q h.ctrl time (bits h.record 32 32) action result).bumpWrap R.PRT_HALT_CNT_accepted [q]).raiseAt
    (Ev.port q 2) (halterInfo h.ctrl action result) time
  e.halterReply q h.sp (e.haltIpVer h.ctrl) h.mac h.psn 0

theorem halterAct_acts {h : Halter} {rest : List Halter} {action fine : Nat} (hhead : tget [] d.prt.halters q = h :: rest)
    (hact : haltAct h = action) (hok : haltTarget h < 2 ^ targetWidth action) :
    halterAct q action fine d =
      let r := (halterTaken d q rest).haltAction action (haltTarget h) (d.stampAt fine)
      halterTold q h action (beadsToRaw (d.stampAt fine)) r.2 r.1 := by
  have hbits : ¬ bits h.record 64 96 / 2 ^ targetWidth action ≠ 0 := not_not.mpr (Nat.div_eq_of_lt hok)
  have ha : ¬ bits h.record 16 8 ≠ action := not_not.mpr hact
  rw [halterAct, hhead]
  simp only [if_neg ha, if_neg hbits]
  rfl

/-- A register beyond those of the ports stands as a halter is logged and acknowledged on a sub-port that the port has. -/
theorem halterTold_rd {h : Halter} {action time result : Nat} (hq : q < 2) (hsp : h.sp < 4) (hlo : 0x200000 ≤ f.key ix)
    (hhi : f.key ix < 0x600000) (e : Dev) : (halterTold q h action time result e).rd f ix = e.rd f ix := by
  have hsrc : Ev.port q 2 < 320 := by unfold Ev.port; omega
  have port {g : Field} (hg : g.dims = [(524288, 2)]) (hpos : g.pos < 0x180000) (e : Dev) (v : Nat) :
      (e.wr g [q] v).rd f ix = e.rd f ix := rd_wr_ne _ _ _ _ _ _ (by rw [key_one hg]; omega)
  rw [halterTold, halterReply_rd (by rw [prtCountKey]; omega), raiseAt_rd _ _ _ _ hsrc hhi, Dev.bumpWrap, port rfl (by decide),
    Dev.halterLog, port rfl (by decide), port rfl (by decide), port rfl (by decide), port rfl (by decide), port rfl (by decide)]

/-- A stream that a halter stops is halted (O17). -/
theorem halterAct_stops_stream {h : Halter} {rest : List Halter} (hq : q < 2) (hhead : tget [] d.prt.halters q = h :: rest)
    (hact : haltAct h = 5) (hsp : h.sp < 4) (hok : haltTarget h < 2 ^ 15) (fine : Nat) :
    (halterAct q 5 fine d).txHalted (haltTarget h / 2 ^ 14 % 2) (haltTarget h % 2 ^ 14) = true := by
  have hkey (a b : Nat) : R.MED_TX_HALT_halt.key [a, b] = 0x2C0000 + 16384 * a + 64 * b := key_two rfl a b
  rw [halterAct_acts hhead hact hok, Dev.txHalted, halterTold_rd hq hsp (by rw [hkey]; omega) (by rw [hkey]; omega)]
  have htarget : bits (haltTarget h) 0 14 = haltTarget h % 2 ^ 14 := by rw [bits, pow_zero, Nat.div_one]
  rw [← htarget]
  exact streamStop_txHalted ..

end Sys2Proof.Machine
end

section
/-! SUPPORT. Bit fields: a field read after a field is put, and numbers stored little-endian and loaded back. -/

namespace Sys2Proof.Machine

/-! ### Bit fields -/

theorem testBit_bits (v lo w i : Nat) : (bits v lo w).testBit i = (decide (i < w) && v.testBit (lo + i)) := by
  rw [bits, Nat.testBit_mod_two_pow, Nat.testBit_div_two_pow, Nat.add_comm]

theorem testBit_putBits (v lo w x i : Nat) :
    (putBits v lo w x).testBit i = if lo ≤ i ∧ i < lo + w then x.testBit (i - lo) else v.testBit i := by
  have hlow : v % 2 ^ lo < 2 ^ lo := Nat.mod_lt _ (Nat.two_pow_pos lo)
  have hmid : 2 ^ lo * (x % 2 ^ w) + v % 2 ^ lo < 2 ^ (lo + w) := by
    have h : x % 2 ^ w + 1 ≤ 2 ^ w := Nat.mod_lt _ (Nat.two_pow_pos w)
    have := Nat.mul_le_mul_left (2 ^ lo) h
    rw [Nat.pow_add]
    linarith
  have heq : putBits v lo w x = 2 ^ (lo + w) * (v / 2 ^ (lo + w)) + (2 ^ lo * (x % 2 ^ w) + v % 2 ^ lo) := by
    rw [putBits]
    ring
  rw [heq, Nat.testBit_two_pow_mul_add _ hmid, Nat.testBit_two_pow_mul_add _ hlow, Nat.testBit_mod_two_pow,
    Nat.testBit_mod_two_pow, Nat.testBit_div_two_pow]
  by_cases hhi : i < lo + w
  · by_cases hlo : i < lo
    · simp [hhi, hlo]
    · have hin : i - lo < w := by omega
      simp [hhi, hlo, hin, Nat.not_lt.mp hlo]
  · have hsum : i - (lo + w) + (lo + w) = i := by omega
    simp [hhi, hsum]

/-- A field within the one put is a field of what was put. -/
theorem bits_putBits_in {lo w a n : Nat} (hlo : lo ≤ a) (hhi : a + n ≤ lo + w) (v x : Nat) :
    bits (putBits v lo w x) a n = bits x (a - lo) n := by
  refine Nat.eq_of_testBit_eq fun i => ?_
  rw [testBit_bits, testBit_bits, testBit_putBits]
  by_cases hi : i < n
  · rw [if_pos (by omega), show a + i - lo = a - lo + i by omega]
  · simp [hi]

/-- A field beside the one put stands. -/
theorem bits_putBits_out {lo w a n : Nat} (h : a + n ≤ lo ∨ lo + w ≤ a) (v x : Nat) :
    bits (putBits v lo w x) a n = bits v a n := by
  refine Nat.eq_of_testBit_eq fun i => ?_
  rw [testBit_bits, testBit_bits, testBit_putBits]
  by_cases hi : i < n
  · rw [if_neg (by omega)]
  · simp [hi]

theorem bits_lt (v lo w : Nat) : bits v lo w < 2 ^ w := Nat.mod_lt _ (Nat.two_pow_pos w)

theorem putBits_lt {v lo w m : Nat} (hv : v < 2 ^ m) (h : lo + w ≤ m) (x : Nat) : putBits v lo w x < 2 ^ m := by
  refine Nat.lt_pow_two_of_testBit _ fun i hi => ?_
  rw [testBit_putBits, if_neg (by omega)]
  exact Nat.testBit_lt_two_pow (Nat.lt_of_lt_of_le hv (Nat.pow_le_pow_right (by decide) hi))

/-! ### Little-endian numbers -/

@[simp] theorem length_leBytes (n v : Nat) : (leBytes n v).length = n := by
  induction n generalizing v with
  | zero => rfl
  | succ n ih => rw [leBytes, List.length_cons, ih]

theorem ofLe_leBytes (n v : Nat) : ofLe (leBytes n v) = v % 256 ^ n := by
  induction n generalizing v with
  | zero => simp [leBytes, ofLe, Nat.mod_one]
  | succ n ih =>
    have hb : (BitVec.ofNat 8 v).toNat = v % 256 := BitVec.toNat_ofNat ..
    rw [leBytes, ofLe, ih, hb, Nat.pow_succ, Nat.mul_comm (256 ^ n), Nat.mod_mul]

theorem ofLe_lt (l : List Byte) : ofLe l < 256 ^ l.length := by
  induction l with
  | nil => simp [ofLe]
  | cons b l ih =>
    have hb : b.toNat < 256 := b.isLt
    rw [ofLe, List.length_cons, Nat.pow_succ]
    omega

theorem pow_bytes (n : Nat) : 256 ^ n = 2 ^ (8 * n) := by rw [Nat.pow_mul]

theorem load_lt (d : Dev) (a n : Nat) : d.load a n < 2 ^ (8 * n) := by
  rw [← pow_bytes]
  simpa [Dev.load, Dev.bytes] using ofLe_lt (d.bytes a n)

theorem load_congr {d e : Dev} {a n : Nat} (h : ∀ k, k < n → e.byte (a + k) = d.byte (a + k)) : e.load a n = d.load a n := by
  rw [Dev.load, Dev.load, Dev.bytes, Dev.bytes]
  exact congrArg ofLe (List.map_congr_left fun k hk => h k (List.mem_range.mp hk))

/-- A number stored is loaded back, cut to its bytes. -/
theorem load_store (d : Dev) (a n v : Nat) : (d.store a n v).load a n = v % 2 ^ (8 * n) := by
  have h := bytes_setBytes d a (leBytes n v)
  rw [length_leBytes] at h
  rw [Dev.load, Dev.store, h, ofLe_leBytes, pow_bytes]

theorem byte_store_out (d : Dev) {a n j : Nat} (v : Nat) (h : j < a ∨ a + n ≤ j) : (d.store a n v).byte j = d.byte j :=
  byte_setBytes_out _ _ _ _ (by rwa [length_leBytes])

/-- A number beside the one stored stands. -/
theorem load_store_out (d : Dev) {a n b m : Nat} (v : Nat) (h : b + m ≤ a ∨ a + n ≤ b) : (d.store a n v).load b m = d.load b m :=
  load_congr fun _ hk => byte_store_out _ _ (by omega)

end Sys2Proof.Machine
end

section
/-! SUPPORT. The route region: entries, digests and change records read after one of them is written. -/

namespace Sys2Proof.Machine

open Sys2Proof.Claims

variable {d e : Dev}

theorem entry_of_mem (h : e.mem = d.mem) (i : Nat) : e.entry i = d.entry i := load_of_mem h _ _
theorem record_of_mem (h : e.mem = d.mem) (s j : Nat) : e.record s j = d.record s j := load_of_mem h _ _
theorem digest_of_mem (h : e.mem = d.mem) (r k : Nat) : e.digest r k = d.digest r k := load_of_mem h _ _

theorem entry_lt (d : Dev) (i : Nat) : d.entry i < 2 ^ (8 * 64) := load_lt d _ 64
theorem record_lt (d : Dev) (s j : Nat) : d.record s j < 2 ^ (8 * 64) := load_lt d _ 64

theorem entry_setEntry {v : Nat} (h : v < 2 ^ (8 * 64)) (d : Dev) (i : Nat) : (d.setEntry i v).entry i = v :=
  (load_store d _ 64 v).trans (Nat.mod_eq_of_lt h)

theorem record_setRecord {v : Nat} (h : v < 2 ^ (8 * 64)) (d : Dev) (s j : Nat) : (d.setRecord s j v).record s j = v :=
  (load_store d _ 64 v).trans (Nat.mod_eq_of_lt h)

theorem entry_setEntry_ne {i k : Nat} (h : k ≠ i) (d : Dev) (v : Nat) : (d.setEntry i v).entry k = d.entry k :=
  load_store_out d v (by unfold entryAddr; omega)

theorem record_setEntry {i : Nat} (h : i < 2 ^ 24) (d : Dev) (v s j : Nat) : (d.setEntry i v).record s j = d.record s j :=
  load_store_out d v (by unfold recordAddr entryAddr; omega)

theorem entry_setRecord {i : Nat} (h : i < 2 ^ 24) (d : Dev) (s j v : Nat) : (d.setRecord s j v).entry i = d.entry i :=
  load_store_out d v (by unfold recordAddr entryAddr; omega)

/-- A write of a digest halfword leaves the entries. -/
theorem entry_storeDigest {i : Nat} (h : i < 2 ^ 24) (d : Dev) (r k v : Nat) : (d.store (digestAddr r k) 2 v).entry i = d.entry i :=
  load_store_out d v (by unfold digestAddr entryAddr; omega)

@[simp] theorem store_rte (d : Dev) (a n v : Nat) : (d.store a n v).rte = d.rte := setBytes_rte ..
@[simp] theorem store_ddr (d : Dev) (a n v : Nat) : (d.store a n v).ddr = d.ddr := setBytes_ddr ..
@[simp] theorem setEntry_rte (d : Dev) (i v : Nat) : (d.setEntry i v).rte = d.rte := store_rte ..
@[simp] theorem setEntry_ddr (d : Dev) (i v : Nat) : (d.setEntry i v).ddr = d.ddr := store_ddr ..
@[simp] theorem setEntry_regs (d : Dev) (i v : Nat) : (d.setEntry i v).regs = d.regs := store_regs ..
@[simp] theorem setRecord_rte (d : Dev) (s j v : Nat) : (d.setRecord s j v).rte = d.rte := store_rte ..
@[simp] theorem setRecord_ddr (d : Dev) (s j v : Nat) : (d.setRecord s j v).ddr = d.ddr := store_ddr ..
@[simp] theorem setRecord_regs (d : Dev) (s j v : Nat) : (d.setRecord s j v).regs = d.regs := store_regs ..
@[simp] theorem freeEntry_rte (d : Dev) (i : Nat) : (d.freeEntry i).rte = d.rte := by rw [Dev.freeEntry, store_rte, setEntry_rte]
@[simp] theorem freeEntry_regs (d : Dev) (i : Nat) : (d.freeEntry i).regs = d.regs := by
  rw [Dev.freeEntry, store_regs, setEntry_regs]

/-- The entry made free reads 0, its digest too, and the others stand. -/
theorem entry_freeEntry {i : Nat} (h : i < 2 ^ 24) (d : Dev) : (d.freeEntry i).entry i = 0 := by
  rw [Dev.freeEntry, entry_storeDigest h]
  exact (load_store d _ 64 0).trans (Nat.zero_mod _)

theorem digest_freeEntry (d : Dev) (i : Nat) : (d.freeEntry i).digest (i / 8) (i % 8) = 0 := load_store _ _ 2 0

theorem entry_freeEntry_ne {i k : Nat} (hk : k < 2 ^ 24) (h : k ≠ i) (d : Dev) : (d.freeEntry i).entry k = d.entry k := by
  rw [Dev.freeEntry, entry_storeDigest hk, entry_setEntry_ne h]

theorem lineBad_of_ddr (h : e.ddr = d.ddr) (a : Nat) : e.lineBad a = d.lineBad a := by rw [Dev.lineBad, h, Dev.lineBad]

/-! ### Images -/

/-- Two images that differ in the engine's control bits [347:320] at most (Table 04-4). -/
def SameImage (x y : Nat) : Prop := x % 2 ^ 320 = y % 2 ^ 320 ∧ x / 2 ^ 348 = y / 2 ^ 348

namespace SameImage

theorem trans {x y z : Nat} (h : SameImage x y) (g : SameImage y z) : SameImage x z := ⟨h.1.trans g.1, h.2.trans g.2⟩

theorem putBits {lo w : Nat} (hlo : 320 ≤ lo) (hhi : lo + w ≤ 348) (v x : Nat) : SameImage (Machine.putBits v lo w x) v := by
  constructor
  · refine Nat.eq_of_testBit_eq fun i => ?_
    rw [Nat.testBit_mod_two_pow, Nat.testBit_mod_two_pow, testBit_putBits]
    by_cases hi : i < 320
    · rw [if_neg (by omega)]
    · simp [hi]
  · refine Nat.eq_of_testBit_eq fun i => ?_
    rw [Nat.testBit_div_two_pow, Nat.testBit_div_two_pow, testBit_putBits, if_neg (by omega)]

theorem withControl (img pend gen idx : Nat) : SameImage (Machine.withControl img pend gen idx) img :=
  putBits (by decide) (by decide) _ _

variable {x y : Nat} (h : SameImage x y)
include h

theorem eKey : Machine.eKey x = Machine.eKey y := by
  rw [Machine.eKey, bits, pow_zero, Nat.div_one, h.1, Machine.eKey, bits, pow_zero, Nat.div_one]

theorem eType : Machine.eType x = Machine.eType y := by
  have hx (z : Nat) : Machine.eType z = z % 2 ^ 320 % 2 ^ 8 := by
    rw [Machine.eType, bits, pow_zero, Nat.div_one, Nat.mod_mod_of_dvd _ (Nat.pow_dvd_pow 2 (by decide))]
  rw [hx, hx, h.1]

theorem isStream : Machine.isStream x = Machine.isStream y := by
  rw [Machine.isStream, h.eType, Machine.isStream]

end SameImage

/-- The control word of an image the engine writes. -/
theorem withControl_fields {pend gen idx : Nat} (hp : pend < 8) (hg : gen < 2) (hi : idx < 2 ^ 20) (img : Nat) :
    ePendSlot (withControl img pend gen idx) = pend ∧ eGen (withControl img pend gen idx) = gen ∧
      ePendIdx (withControl img pend gen idx) = idx := by
  have hage : bits img 325 1 < 2 := bits_lt ..
  have hpin : bits img 327 1 < 2 := bits_lt ..
  rw [ePendSlot, eGen, ePendIdx, withControl, bits_putBits_in (by decide) (by decide), bits_putBits_in (by decide) (by decide),
    bits_putBits_in (by decide) (by decide)]
  generalize bits img 325 1 = age at hage
  generalize bits img 327 1 = pin at hpin
  simp only [bits, Nat.reduceSub, Nat.reducePow]
  omega

end Sys2Proof.Machine
end

section
/-! SUPPORT. The swap of a salvo's change (R145), and the image in force before and after it (R142). -/

namespace Sys2Proof.Machine

open Sys2Proof.Claims

variable {d e : Dev} {s : Nat}

/-! ### The registers of a salvo -/

theorem salvoKey {f : Field} (hf : f.dims = [(512, 4)]) (s : Nat) : f.key [s] = f.pos + 512 * s := key_one hf s

/-- Two fields of a slot's status are two registers. -/
theorem salvoKey_ne {f g : Field} (hf : f.dims = [(512, 4)]) (hg : g.dims = [(512, 4)]) (h : f.pos ≠ g.pos) (s : Nat) :
    f.key [s] ≠ g.key [s] := by
  rw [salvoKey hf, salvoKey hg]
  omega

theorem stateKey_salvo (s : Nat) : R.RTE_SALVO_STAT_state.key [s] = 0x202000 + 512 * s := salvoKey rfl s

@[simp] theorem setRun_regs (d : Dev) (s : Nat) (x : SalvoRun) : (d.setRun s x).regs = d.regs := rfl
@[simp] theorem setRun_mem (d : Dev) (s : Nat) (x : SalvoRun) : (d.setRun s x).mem = d.mem := rfl
@[simp] theorem setRun_ddr (d : Dev) (s : Nat) (x : SalvoRun) : (d.setRun s x).ddr = d.ddr := rfl
@[simp] theorem setRun_chgKind (d : Dev) (s : Nat) (x : SalvoRun) : (d.setRun s x).rte.chgKind = d.rte.chgKind := rfl
@[simp] theorem setRun_chgEntry (d : Dev) (s : Nat) (x : SalvoRun) : (d.setRun s x).rte.chgEntry = d.rte.chgEntry := rfl
theorem run_setRun (d : Dev) (s : Nat) (x : SalvoRun) : tget {} (d.setRun s x).rte.salvo s = x := tget_tset ..

/-! ### A swap -/

/-- The image that the swap of a change of `kind` writes into its entry, which holds `e`, from its record `r`. -/
def swapNew (kind s j e r : Nat) : Nat :=
  if kind = 3 then putBits e 323 1 (eGen r) else putBits (withControl r (s + 1) (eGen r) j) 326 1 (eHit e)

/-- The image it leaves in the record: the old one, with the generation the entry takes. -/
def swapOld (kind e r : Nat) : Nat := putBits (if kind = 1 then 0 else e) 323 1 (eGen r)

/-- The salvo has a change to swap (R144, R145). -/
def swapDue (d : Dev) (s : Nat) : Prop := d.rd R.RTE_SALVO_STAT_state [s] = 3 ∧ (tget {} d.rte.salvo s).retiring = false ∧
  (tget {} d.rte.salvo s).swapPos < d.rd R.RTE_SALVO_STAT_changes [s] ∧ d.teff s ≤ d.now

/-- The device that has taken up the change `j` of slot `s`. -/
def swapTaken (d : Dev) (s : Nat) : Dev :=
  d.setRun s { tget {} d.rte.salvo s with swapPos := (tget {} d.rte.salvo s).swapPos + 1 }

/-- The device with change `j` of slot `s` swapped. -/
def changeSwapped (d : Dev) (s j : Nat) : Dev :=
  let e := d.entry (d.chgEntry s j)
  let r := d.record s j
  (((swapTaken d s).setEntry (d.chgEntry s j) (swapNew (d.chgKind s j) s j e r)).setRecord s j (swapOld (d.chgKind s j) e r)).bumpWrap
    R.RTE_SALVO_STAT_swapped [s]

theorem swapDue_iff : swapDue d s ↔ ¬ (d.salvoState s ≠ 3 ∨ (d.run_ s).retiring = true ∨ (d.run_ s).swapPos ≥ d.changes s ∨
    d.reached (d.teff s) = false) := by
  simp only [swapDue, Dev.salvoState, Dev.run_, Dev.changes, Dev.reached, not_or, not_not, decide_eq_false_iff_not,
    Bool.not_eq_true, Nat.not_le, ge_iff_le, Nat.not_lt]

theorem salvoSwap_early (h : ¬ swapDue d s) : salvoSwap s d = d := if_pos (not_not.mp fun hn => h (swapDue_iff.mpr hn))

theorem salvoSwap_sound (h : swapDue d s) (hr : d.lineBad (recordAddr s (tget {} d.rte.salvo s).swapPos) = false) :
    salvoSwap s d = changeSwapped d s (tget {} d.rte.salvo s).swapPos := by
  have hr' : (swapTaken d s).lineBad (recordAddr s (d.run_ s).swapPos) = false := hr
  rw [salvoSwap, if_neg (swapDue_iff.mp h)]
  exact if_neg (by rw [Bool.not_eq_true]; exact hr')

theorem swapNew_lt {kind s j e r : Nat} (he : e < 2 ^ (8 * 64)) (hr : r < 2 ^ (8 * 64)) : swapNew kind s j e r < 2 ^ (8 * 64) := by
  rw [swapNew]
  split
  · exact putBits_lt he (by decide) _
  · exact putBits_lt (putBits_lt hr (by decide) _) (by decide) _

theorem swapOld_lt {kind e r : Nat} (he : e < 2 ^ (8 * 64)) : swapOld kind e r < 2 ^ (8 * 64) := by
  have hle : (if kind = 1 then 0 else e) ≤ e := by split <;> omega
  exact putBits_lt (Nat.lt_of_le_of_lt hle he) (by decide) _

section
variable {j : Nat}

theorem changeSwapped_run (d : Dev) (s j : Nat) : tget {} (changeSwapped d s j).rte.salvo s =
    { tget {} d.rte.salvo s with swapPos := (tget {} d.rte.salvo s).swapPos + 1 } := by
  rw [changeSwapped, Dev.bumpWrap, wr_rte, setRecord_rte, setEntry_rte]
  exact run_setRun ..

theorem changeSwapped_chgKind (d : Dev) (s j : Nat) : (changeSwapped d s j).rte.chgKind = d.rte.chgKind := by
  rw [changeSwapped, Dev.bumpWrap, wr_rte, setRecord_rte, setEntry_rte]
  rfl

theorem changeSwapped_ddr (d : Dev) (s j : Nat) : (changeSwapped d s j).ddr = d.ddr := by
  rw [changeSwapped, Dev.bumpWrap, wr_ddr, setRecord_ddr, setEntry_ddr]
  rfl

theorem changeSwapped_rd {f : Field} {ix : List Nat} (hf : f.key ix ≠ R.RTE_SALVO_STAT_swapped.key [s]) (d : Dev) (j : Nat) :
    (changeSwapped d s j).rd f ix = d.rd f ix := by
  rw [changeSwapped, Dev.bumpWrap, rd_wr_ne _ _ _ _ _ _ hf]
  exact rd_of_regs (by rw [setRecord_regs, setEntry_regs]; rfl) f ix

theorem changeSwapped_entry (hi : d.chgEntry s j < 2 ^ 24) : (changeSwapped d s j).entry (d.chgEntry s j) =
    swapNew (d.chgKind s j) s j (d.entry (d.chgEntry s j)) (d.record s j) := by
  rw [changeSwapped, Dev.bumpWrap, entry_of_mem (wr_mem ..), entry_setRecord hi, entry_setEntry (swapNew_lt (entry_lt ..) (record_lt ..))]

theorem changeSwapped_record (d : Dev) (s j : Nat) : (changeSwapped d s j).record s j =
    swapOld (d.chgKind s j) (d.entry (d.chgEntry s j)) (d.record s j) := by
  rw [changeSwapped, Dev.bumpWrap, record_of_mem (wr_mem ..), record_setRecord (swapOld_lt (entry_lt ..))]

theorem changeSwapped_entry_ne {k : Nat} (hk : k < 2 ^ 24) (h : k ≠ d.chgEntry s j) :
    (changeSwapped d s j).entry k = d.entry k := by
  rw [changeSwapped, Dev.bumpWrap, entry_of_mem (wr_mem ..), entry_setRecord hk, entry_setEntry_ne h]
  rfl

/-- The image of a change but a delete is the record's, the control bits its own. -/
theorem swapNew_fields {kind s j e r : Nat} (hs : s < 4) (hj : j < 2 ^ 20) (hkind : kind ≠ 3) :
    SameImage (swapNew kind s j e r) r ∧ ePendSlot (swapNew kind s j e r) = s + 1 ∧ eGen (swapNew kind s j e r) = eGen r ∧
      ePendIdx (swapNew kind s j e r) = j := by
  obtain ⟨hp, hg, hi⟩ := withControl_fields (pend := s + 1) (gen := eGen r) (by omega) (bits_lt ..) hj r
  rw [swapNew, if_neg hkind]
  refine ⟨(SameImage.putBits (by decide) (by decide) _ _).trans (.withControl ..), ?_, ?_, ?_⟩
  · rwa [ePendSlot, bits_putBits_out (by decide)]
  · rwa [eGen, bits_putBits_out (by decide)]
  · rwa [ePendIdx, bits_putBits_out (by decide)]

/-- A delete leaves the entry its image and takes it over to the new generation. -/
theorem swapNew_delete (s j e r : Nat) : ePendSlot (swapNew 3 s j e r) = ePendSlot e ∧ eGen (swapNew 3 s j e r) = eGen r ∧
    ePendIdx (swapNew 3 s j e r) = ePendIdx e := by
  have hgen : bits (eGen r) 0 1 = eGen r := by
    have : eGen r < 2 := bits_lt ..
    simpa [bits] using this
  rw [swapNew, if_pos rfl]
  refine ⟨bits_putBits_out (by decide) _ _, ?_, bits_putBits_out (by decide) _ _⟩
  rw [eGen, bits_putBits_in (by decide) (by decide)]
  exact hgen

theorem eGen_swapOld (kind e r : Nat) : eGen (swapOld kind e r) = eGen r := by
  have : eGen r < 2 := bits_lt ..
  rw [swapOld, eGen, bits_putBits_in (by decide) (by decide)]
  simpa [bits] using this

theorem swapOld_image {kind e r : Nat} : SameImage (swapOld kind e r) (if kind = 1 then 0 else e) :=
  .putBits (by decide) (by decide) _ _

end

/-! ### The image in force -/

/-- What an image is selected as. -/
def selOf (x : Nat) : Sel := if isStream x then .image x else .free

/-- What a committed change of `kind` selects for a frame of an instant, by the entry `e` and the record `r` (R142). -/
def committedSel (kind e r : Nat) (late : Bool) : Sel :=
  if late then (if eGen e = eGen r then (if kind = 3 then .free else selOf e) else selOf r)
  else if eGen e = eGen r then selOf r else if kind = 1 then .free else selOf e

theorem inForce_eq (d : Dev) (i t : Nat) : d.inForce i t =
    if ePendSlot (d.entry i) = 0 then selOf (d.entry i) else
    let s := ePendSlot (d.entry i) - 1
    let j := ePendIdx (d.entry i)
    if d.lineBad (recordAddr s j) then .ecc else
    if d.rd R.RTE_SALVO_STAT_state [s] = 1 ∨ d.rd R.RTE_SALVO_STAT_state [s] = 4 then
      (if d.chgKind s j = 1 then .free else selOf (d.entry i))
    else if d.teff s ≤ rawToBeads t then
      (if eGen (d.entry i) = eGen (d.record s j) then (if d.chgKind s j = 3 then .free else selOf (d.entry i))
        else selOf (d.record s j))
    else if eGen (d.entry i) = eGen (d.record s j) then selOf (d.record s j)
    else if d.chgKind s j = 1 then .free else selOf (d.entry i) := rfl

theorem inForce_committed {i j : Nat} (hslot : ePendSlot (d.entry i) = s + 1) (hidx : ePendIdx (d.entry i) = j)
    (hr : d.lineBad (recordAddr s j) = false) (hst : d.rd R.RTE_SALVO_STAT_state [s] = 3) (t : Nat) :
    d.inForce i t = committedSel (d.chgKind s j) (d.entry i) (d.record s j) (decide (d.teff s ≤ rawToBeads t)) := by
  have hpos : ¬ s + 1 = 0 := Nat.succ_ne_zero s
  have hst' : ¬ (3 = 1 ∨ 3 = 4) := by decide
  simp only [inForce_eq, hslot, hidx, if_neg hpos, Nat.add_sub_cancel, hr, hst, if_neg hst', Bool.false_eq_true, if_false,
    committedSel, decide_eq_true_eq]

theorem plainSel_selOf {x y : Nat} (h : SameImage x y) : plainSel (selOf x) = plainSel (selOf y) := by
  have hlow := h.1
  have hhigh := h.2
  rw [selOf, h.isStream, selOf]
  split
  · simp only [plainSel, hlow, hhigh]
  · rfl

theorem selOf_free {x : Nat} (h : eType x = 0) : selOf x = .free := by
  rw [selOf, isStream, h]
  rfl

/-- A swap exchanges old and new and inverts the generation, so each frame selects what it did (R145). -/
theorem committedSel_swapped {kind s j e r : Nat} (hs : s < 4) (hj : j < 2 ^ 20)
    (hgen : eGen e ≠ eGen r) (hfree : kind = 3 → eType r = 0) (late : Bool) :
    plainSel (committedSel kind (swapNew kind s j e r) (swapOld kind e r) late) = plainSel (committedSel kind e r late) := by
  have hnew : eGen (swapNew kind s j e r) = eGen (swapOld kind e r) := by
    rw [eGen_swapOld]
    by_cases hk : kind = 3
    · exact hk ▸ (swapNew_delete s j e r).2.1
    · exact (swapNew_fields hs hj hk).2.2.1
  simp only [committedSel, if_pos hnew, if_neg hgen]
  cases late with
  | true =>
    by_cases hk : kind = 3
    · simp only [if_pos hk, if_true, selOf_free (hfree hk)]
    · simpa only [if_neg hk, if_true] using plainSel_selOf (swapNew_fields hs hj hk).1
  | false =>
    have hold : plainSel (selOf (swapOld kind e r)) = plainSel (selOf (if kind = 1 then 0 else e)) := plainSel_selOf swapOld_image
    by_cases hk : kind = 1
    · simpa [if_pos hk, selOf_free (show eType 0 = 0 by decide)] using hold
    · simpa [if_neg hk] using hold

end Sys2Proof.Machine

namespace Sys2Proof.Claims
open Sys2Proof.Machine

/-- Settles O21: the swap exchanges the two images and inverts the generation (`committedSel_swapped`). -/
theorem swapKeepsTheImageInForce : Obligations.SwapKeepsTheImageInForce := by
  intro d slot hon s j i kind hst hret hj hnow hi hj20 _ hr hslot hidx hgen hfree
  have hdue : swapDue d s := ⟨hst, hret, hj, hnow⟩
  refine ⟨_, does_of_run hon fun _ => rfl, fun t => ?_⟩
  rw [salvoSwap_sound hdue hr]
  set e := changeSwapped d s j with he
  have hentry : e.entry i = swapNew kind s j (d.entry i) (d.record s j) := changeSwapped_entry hi
  have hrecord : e.record s j = swapOld kind (d.entry i) (d.record s j) := changeSwapped_record d s j
  have hstate : e.rd R.RTE_SALVO_STAT_state [s] = 3 := by
    rw [he, changeSwapped_rd (salvoKey_ne rfl rfl (by decide) s), hst]
  have hteff : e.teff s = d.teff s := by
    rw [Dev.teff, he, changeSwapped_rd (salvoKey_ne rfl rfl (by decide) s), Dev.teff]
  have hfields : ePendSlot (e.entry i) = s + 1 ∧ ePendIdx (e.entry i) = j := by
    rw [hentry]
    by_cases hk : kind = 3
    · obtain ⟨hp, -, hx⟩ := swapNew_delete s j (d.entry i) (d.record s j)
      rw [hk]
      exact ⟨hp.trans hslot, hx.trans hidx⟩
    · obtain ⟨-, hp, -, hx⟩ := swapNew_fields (e := d.entry i) (r := d.record s j) slot.isLt hj20 hk
      exact ⟨hp, hx⟩
  have hkinds : e.chgKind s j = kind := by rw [Dev.chgKind, he, changeSwapped_chgKind]; rfl
  have hline : e.lineBad (recordAddr s j) = false := (lineBad_of_ddr (changeSwapped_ddr d s j) _).trans hr
  have htype : kind = 3 → eType (d.record s j) = 0 := fun hk => by simpa [eType, bits] using hfree hk
  rw [inForce_committed hfields.1 hfields.2 hline hstate, inForce_committed hslot hidx hr hst, hentry, hrecord, hteff, hkinds]
  exact committedSel_swapped slot.isLt hj20 hgen htype _

end Sys2Proof.Claims
end

section
/-! SUPPORT. What the route cache's operations change: the cache, and an entry whose hit state is written back. -/

namespace Sys2Proof.Machine

open Sys2Proof.Claims

/-- `e` differs from `d` in the route cache and in memory at most. -/
def CacheOnly (d e : Dev) : Prop := e = { d with mem := e.mem, rte := { d.rte with cache := e.rte.cache } }

namespace CacheOnly

theorem refl (d : Dev) : CacheOnly d d := rfl

variable {a d e : Dev} {set : Nat} {t : LineTag}

theorem trans (h : CacheOnly a d) (g : CacheOnly d e) : CacheOnly a e := by
  rw [CacheOnly, g, h]

theorem setCset (h : CacheOnly d e) (set : Nat) (c : CacheSet) : CacheOnly d (e.setCset set c) := h.trans rfl

theorem ite {c : Prop} [Decidable c] {x y : Dev} (hx : CacheOnly d x) (hy : CacheOnly d y) : CacheOnly d (if c then x else y) := by
  split
  · exact hx
  · exact hy

theorem ofFst {α : Type} {p : Dev × α} {x : Dev} {b : α} (hp : p = (x, b)) (h : CacheOnly d p.1) : CacheOnly d x := by
  rwa [hp] at h

theorem setBytes (h : CacheOnly d e) (x : Nat) (l : List Byte) : CacheOnly d (e.setBytes x l) := by
  induction l generalizing e x with
  | nil => exact h
  | cons b l ih => exact ih (h.trans (show CacheOnly e (e.setByte x b) from rfl)) (x + 1)

theorem setEntry (h : CacheOnly d e) (i v : Nat) : CacheOnly d (e.setEntry i v) := h.setBytes ..

theorem freeEntry (h : CacheOnly d e) (i : Nat) : CacheOnly d (e.freeEntry i) := (h.setEntry i 0).setBytes ..

theorem writeBackHit (h : CacheOnly d e) (l : CacheLine) : CacheOnly d (e.writeBackHit l) := by
  rw [Dev.writeBackHit]
  split
  · exact .ite (h.setEntry _ _) h
  · exact h

theorem dropLine (h : CacheOnly d e) (set : Nat) (t : LineTag) : CacheOnly d (e.dropLine set t) := by
  simp only [Dev.dropLine]
  split
  · exact h
  · exact (h.writeBackHit _).setCset _ _

theorem loadLine (h : CacheOnly d e) (set : Nat) (t : LineTag) (pin hit : Bool) : CacheOnly d (e.loadLine set t pin hit) := by
  simp only [Dev.loadLine]
  split
  · exact h.setCset _ _
  · split
    · exact h
    · refine setCset ?_ _ _
      split
      · exact h.writeBackHit _
      · exact h

theorem pinForSalvo (h : CacheOnly d e) (set : Nat) (t : LineTag) (slot : Nat) : CacheOnly d (e.pinForSalvo set t slot).1 := by
  unfold Dev.pinForSalvo
  extract_lets +onlyGivenNames _ _ _ _
  split
  split
  · exact h
  · extract_lets +onlyGivenNames d₁ _
    have hload : CacheOnly d d₁ := (h.setCset _ _).loadLine ..
    split
    · exact hload
    · exact hload.setCset _ _

theorem repinLine (h : CacheOnly d e) (i : Nat) (t : LineTag) : CacheOnly d (e.repinLine i t) := by
  simp only [Dev.repinLine]
  split
  · exact h
  · exact h.setCset _ _

section
variable (h : CacheOnly d e)
include h

theorem regs : e.regs = d.regs := by rw [h]
theorem ddr : e.ddr = d.ddr := by rw [h]
theorem rd (f : Field) (ix : List Nat) : e.rd f ix = d.rd f ix := rd_of_regs h.regs f ix
theorem salvo : e.rte.salvo = d.rte.salvo := by rw [h]
theorem sids : e.rte.sids = d.rte.sids := by rw [h]

end

end CacheOnly

/-! ### The entry that a line's removal writes -/

variable {d : Dev} {set i : Nat}

theorem writeBackHit_clean {l : CacheLine} (h : l.hit = false) (d : Dev) : d.writeBackHit l = d := by
  rw [Dev.writeBackHit, h]
  split <;> rfl

theorem writeBackHit_entry_ne {l : CacheLine} (ht : l.tag = .stream i) {k : Nat} (hk : k ≠ i) (d : Dev) :
    (d.writeBackHit l).entry k = d.entry k := by
  simp only [Dev.writeBackHit, ht]
  split
  · exact entry_setEntry_ne hk d _
  · rfl

theorem tag_of_find {c : CacheSet} {t : LineTag} {l : CacheLine} (h : c.find t = some l) : l.tag = t := by
  simpa using List.find?_some h

/-- The removal of an entry's line leaves the other entries. -/
theorem dropLine_entry_ne {k : Nat} (hk : k ≠ i) (d : Dev) (set : Nat) : (d.dropLine set (.stream i)).entry k = d.entry k := by
  simp only [Dev.dropLine]
  split
  next => rfl
  next l hl => exact writeBackHit_entry_ne (tag_of_find hl) hk d

end Sys2Proof.Machine
end

section
/-! SUPPORT. The steps of a salvo (R144 to R147): pre-warm, commit, a record that is bad at its swap. -/

namespace Sys2Proof.Machine

open Sys2Proof.Claims

variable {d e : Dev} {s : Nat}

theorem reached_false_iff {t : Nat} : d.reached t = false ↔ ¬ t ≤ d.now := by
  rw [Dev.reached, decide_eq_false_iff_not]

/-- The progress and the state of slot `s` stand. -/
structure KeepsSlot (s : Nat) (d e : Dev) : Prop where
  run : tget {} e.rte.salvo s = tget {} d.rte.salvo s
  state : e.rd R.RTE_SALVO_STAT_state [s] = d.rd R.RTE_SALVO_STAT_state [s]

namespace KeepsSlot

theorem refl (s : Nat) (d : Dev) : KeepsSlot s d d := ⟨rfl, rfl⟩

theorem cache {x : Dev} (h : KeepsSlot s d e) (g : CacheOnly e x) : KeepsSlot s d x :=
  ⟨by rw [g.salvo, h.run], by rw [g.rd, h.state]⟩

theorem wr (h : KeepsSlot s d e) {f : Field} {ix : List Nat} (hf : R.RTE_SALVO_STAT_state.key [s] ≠ f.key ix) (v : Nat) :
    KeepsSlot s d (e.wr f ix v) :=
  ⟨h.run, by rw [rd_wr_ne _ _ _ _ _ _ hf, h.state]⟩

theorem raise (h : KeepsSlot s d e) (hs : s < 4) {src : Nat} (hsrc : src < 320) (info : Nat) : KeepsSlot s d (e.raise src info) :=
  ⟨by rw [raise_rte, h.run], by rw [raise_rd _ _ hsrc (by rw [stateKey_salvo]; omega), h.state]⟩

theorem ite {c : Prop} [Decidable c] {x y : Dev} (hx : KeepsSlot s d x) (hy : KeepsSlot s d y) :
    KeepsSlot s d (if c then x else y) := by
  split
  · exact hx
  · exact hy

/-- Another field of the slot's status counts. -/
theorem count (h : KeepsSlot s d e) {f : Field} (hf : f.dims = [(512, 4)]) (hpos : 0x202000 ≠ f.pos) :
    KeepsSlot s d (e.bumpWrap f [s]) :=
  h.wr (salvoKey_ne rfl hf hpos s) _

end KeepsSlot

/-! ### Pre-warm -/

theorem rteCountKey (k : Nat) : R.RTE_CNT_count.key [k] = 0x204000 + 64 * k := key_one rfl k

/-- The salvo has a change to pre-warm (R144). -/
def prewarmDue (d : Dev) (s : Nat) : Prop := d.rd R.RTE_SALVO_STAT_state [s] = 2 ∧
  (tget {} d.rte.salvo s).prePos < d.rd R.RTE_SALVO_STAT_changes [s] ∧ ¬ d.teff s ≤ d.now

theorem prewarmDue_iff : prewarmDue d s ↔
    ¬ (d.salvoState s ≠ 2 ∨ (d.run_ s).prePos ≥ d.changes s ∨ d.reached (d.teff s) = true) := by
  rw [prewarmDue, Dev.salvoState, Dev.run_, Dev.changes, Dev.reached, not_or, not_or, not_not, decide_eq_true_iff, ge_iff_le,
    Nat.not_le, Nat.not_le]

theorem prewarmStep_early (h : ¬ prewarmDue d s) : prewarmStep s d = d := if_pos (not_not.mp fun hn => h (prewarmDue_iff.mpr hn))

/-- Pre-warm of a change pins lines and counts: the slot is as it was, but for the change taken up. -/
theorem prewarmStep_due (h : prewarmDue d s) : KeepsSlot s
    (d.setRun s { tget {} d.rte.salvo s with prePos := (tget {} d.rte.salvo s).prePos + 1 }) (prewarmStep s d) := by
  unfold prewarmStep
  extract_lets +onlyGivenNames _ _
  rw [if_neg (prewarmDue_iff.mp h)]
  extract_lets +onlyGivenNames d₁
  have h₁ : KeepsSlot s d₁ d₁ := .refl s d₁
  have missed {e : Dev} (h : KeepsSlot s d₁ e) : KeepsSlot s d₁ (e.bumpWrap R.RTE_SALVO_STAT_prewarm_miss [s]) :=
    h.count rfl (by decide)
  split
  refine .ite h₁ (.ite (missed h₁) ?_)
  extract_lets +onlyGivenNames _ _
  split
  next d₂ _ e₂ =>
  have h₂ : KeepsSlot s d₁ d₂ := h₁.cache (.ofFst e₂ ((CacheOnly.refl d₁).pinForSalvo ..))
  split
  next d₃ _ e₃ =>
  have h₃ : KeepsSlot s d₁ d₃ := h₂.cache (.ofFst e₃ ((CacheOnly.refl d₂).pinForSalvo ..))
  exact .ite ((h₃.wr (by rw [stateKey_salvo, rteCountKey]; omega) _).count rfl (by decide)) (missed h₃)

/-! ### Commit -/

/-- The salvo is due to commit. -/
def commitDue (d : Dev) (s : Nat) : Prop := d.rd R.RTE_SALVO_STAT_state [s] = 2 ∧ d.teff s ≤ d.now

/-- Committed, with the changes that were not pre-warmed counted as missed. -/
def committed (s : Nat) (d : Dev) : Dev :=
  let run := tget {} d.rte.salvo s
  let n := d.rd R.RTE_SALVO_STAT_changes [s]
  (((d.wr R.RTE_SALVO_STAT_prewarm_miss [s] (d.rd R.RTE_SALVO_STAT_prewarm_miss [s] + (n - run.prePos))).setSalvo s 3).setRun s
    { run with raised := true })

theorem commitDue_iff : commitDue d s ↔ ¬ (d.salvoState s ≠ 2 ∨ d.reached (d.teff s) = false) := by
  rw [commitDue, not_or, not_not, reached_false_iff, not_not, Dev.salvoState]

theorem salvoCommit_early (h : ¬ commitDue d s) : salvoCommit s d = d := if_pos (not_not.mp fun hn => h (commitDue_iff.mpr hn))

theorem salvoCommit_due (h : commitDue d s) : RegsWithin (fun k => k = 0x202004 + 512 * s ∨ eventKey k) (committed s d)
    (salvoCommit s d) := by
  have hK : ∀ k, eventKey k → k = 0x202004 + 512 * s ∨ eventKey k := fun _ => .inr
  have hpart : R.RTE_SALVO_STAT_partial.key [s] = 0x202004 + 512 * s := salvoKey rfl s
  rw [salvoCommit, if_neg (commitDue_iff.mp h)]
  exact .raise (.ite (.raise ((RegsWithin.refl _ _).wr (.inl hpart) 1) hK (by decide) _) (.refl _ _)) hK (by decide) _

theorem committed_rd (s : Nat) (d : Dev) : (committed s d).rd R.RTE_SALVO_STAT_state [s] = 3 ∧
    (committed s d).rd R.RTE_SALVO_STAT_prewarm_miss [s] = (d.rd R.RTE_SALVO_STAT_prewarm_miss [s] +
      (d.rd R.RTE_SALVO_STAT_changes [s] - (tget {} d.rte.salvo s).prePos)) % 2 ^ R.RTE_SALVO_STAT_prewarm_miss.width := by
  have hkey : R.RTE_SALVO_STAT_prewarm_miss.key [s] ≠ R.RTE_SALVO_STAT_state.key [s] := salvoKey_ne rfl rfl (by decide) s
  have hrd (f : Field) : (committed s d).rd f [s] = ((d.wr R.RTE_SALVO_STAT_prewarm_miss [s] (d.rd R.RTE_SALVO_STAT_prewarm_miss [s] +
      (d.rd R.RTE_SALVO_STAT_changes [s] - (tget {} d.rte.salvo s).prePos))).wr R.RTE_SALVO_STAT_state [s] 3).rd f [s] := rfl
  refine ⟨by rw [hrd, rd_wr]; rfl, ?_⟩
  rw [hrd, rd_wr_ne _ _ _ _ _ _ hkey, rd_wr]

theorem salvoCommit_spec (hs : s < 4) (h : commitDue d s) :
    (salvoCommit s d).rd R.RTE_SALVO_STAT_state [s] = 3 ∧ (salvoCommit s d).mem = d.mem ∧
    (salvoCommit s d).rd R.RTE_SALVO_STAT_prewarm_miss [s] = (d.rd R.RTE_SALVO_STAT_prewarm_miss [s] +
      (d.rd R.RTE_SALVO_STAT_changes [s] - (tget {} d.rte.salvo s).prePos)) % 2 ^ R.RTE_SALVO_STAT_prewarm_miss.width := by
  have hend := salvoCommit_due h
  obtain ⟨hstate, hmiss⟩ := committed_rd s d
  have hkey {f : Field} (hf : f.dims = [(512, 4)]) (hpos : f.pos ≠ 0x202004 ∧ f.pos < 0x203000) :
      ¬ (f.key [s] = 0x202004 + 512 * s ∨ eventKey (f.key [s])) := by
    rw [salvoKey hf]
    unfold eventKey
    omega
  exact ⟨(hend.rd (hkey rfl (by decide))).trans hstate, hend.mem, (hend.rd (hkey rfl (by decide))).trans hmiss⟩

/-! ### A swap, its record bad or sound -/

theorem routeEcc_within (d : Dev) (rod : Nat) : RegsWithin (fun k => 0x202800 ≤ k) d (d.routeEcc rod) :=
  .raise ((((RegsWithin.refl _ _).wr (by decide) _).wr (by decide) _).wr (by decide) _) (fun _ hk => by unfold eventKey at hk; omega)
    (by decide) _

/-- The reserved entry of an insert whose record is bad is to be freed. -/
def insertFailed (s j kind : Nat) (d : Dev) : Dev :=
  if kind = 1 then d.withRte fun r => { r with chgKind := tset 0 r.chgKind (changeKey s j) 5 } else d

/-- Change `j` of slot `s` failed in its swap, counted and logged. -/
def changeFailed (d : Dev) (s j : Nat) : Dev :=
  ((insertFailed s j (d.chgKind s j) (swapTaken d s)).bumpWrap R.RTE_SALVO_STAT_swap_fail [s]).routeEcc j

theorem salvoSwap_bad (h : swapDue d s) (hr : d.lineBad (recordAddr s (tget {} d.rte.salvo s).swapPos) = true) :
    salvoSwap s d = changeFailed d s (tget {} d.rte.salvo s).swapPos := by
  have hr' : (swapTaken d s).lineBad (recordAddr s (d.run_ s).swapPos) = true := hr
  rw [salvoSwap, if_neg (swapDue_iff.mp h)]
  exact if_pos hr'

theorem insertFailed_mem (s j kind : Nat) (d : Dev) : (insertFailed s j kind d).mem = d.mem := by
  rw [insertFailed]
  split <;> rfl

theorem insertFailed_keeps (s j kind : Nat) (d : Dev) : KeepsSlot s d (insertFailed s j kind d) := by
  rw [insertFailed]
  split
  · exact ⟨rfl, rfl⟩
  · exact .refl s d

theorem changeFailed_spec (hs : s < 4) (d : Dev) (j : Nat) :
    KeepsSlot s (swapTaken d s) (changeFailed d s j) ∧ (changeFailed d s j).mem = d.mem := by
  have hkeep : KeepsSlot s (swapTaken d s)
      ((insertFailed s j (d.chgKind s j) (swapTaken d s)).bumpWrap R.RTE_SALVO_STAT_swap_fail [s]) :=
    (insertFailed_keeps ..).count rfl (by decide)
  have hecc : RegsWithin _ _ (changeFailed d s j) := routeEcc_within _ j
  refine ⟨⟨?_, ?_⟩, hecc.mem.trans (insertFailed_mem ..)⟩
  · rw [hecc.eq]
    exact hkeep.run
  · rw [hecc.rd (by rw [stateKey_salvo]; omega), hkeep.state]

theorem changeSwapped_keeps (s j : Nat) (d : Dev) : KeepsSlot s (swapTaken d s) (changeSwapped d s j) :=
  ⟨by rw [changeSwapped_run, swapTaken, run_setRun], changeSwapped_rd (salvoKey_ne rfl rfl (by decide) s) d j⟩

/-- A swap takes up the next change and leaves the salvo committed. -/
theorem salvoSwap_due (hs : s < 4) (h : swapDue d s) : KeepsSlot s (swapTaken d s) (salvoSwap s d) := by
  cases hr : d.lineBad (recordAddr s (tget {} d.rte.salvo s).swapPos) with
  | true => exact salvoSwap_bad h hr ▸ (changeFailed_spec hs d _).1
  | false => exact salvoSwap_sound h hr ▸ changeSwapped_keeps ..

/-- The swap of a modify exchanges the key of the entry and that of the record, and gives the entry the record's generation. -/
theorem changeSwapped_exchanges {j : Nat} (hs : s < 4) (hi : d.chgEntry s j < 2 ^ 24) (hj : j < 2 ^ 20) (hk : d.chgKind s j = 2) :
    eKey ((changeSwapped d s j).entry (d.chgEntry s j)) = eKey (d.record s j) ∧
      eKey ((changeSwapped d s j).record s j) = eKey (d.entry (d.chgEntry s j)) ∧
      eGen ((changeSwapped d s j).entry (d.chgEntry s j)) = eGen (d.record s j) := by
  obtain ⟨hnew, -, hgen, -⟩ := swapNew_fields (kind := 2) (e := d.entry (d.chgEntry s j)) (r := d.record s j) hs hj (by decide)
  have hold := swapOld_image (kind := 2) (e := d.entry (d.chgEntry s j)) (r := d.record s j)
  rw [changeSwapped_entry hi, changeSwapped_record, hk]
  exact ⟨hnew.eKey, hold.eKey, hgen⟩

end Sys2Proof.Machine
end

section
/-! SUPPORT. The retirement of a salvo (R146): the entries of its changes, one after the other. -/

namespace Sys2Proof.Machine

open Sys2Proof.Claims

variable {d e : Dev} {s : Nat}

/-- The route engine beside its registers differs in the cache and the sids at most. -/
def TablesOnly (d e : Dev) : Prop := e.rte = { d.rte with cache := e.rte.cache, sids := e.rte.sids }

theorem TablesOnly.trans {a d e : Dev} (h : TablesOnly a d) (g : TablesOnly d e) : TablesOnly a e := by
  rw [TablesOnly, g, h]

theorem CacheOnly.tables {d e : Dev} (h : CacheOnly d e) : TablesOnly d e := by rw [TablesOnly, h]

/-- `e` differs from `d` in the route cache, the sids, entry `i` and its digest, and registers at most. -/
structure EntryOnly (i : Nat) (d e : Dev) : Prop where
  rte : TablesOnly d e
  entry : ∀ k, k < 2 ^ 24 → k ≠ i → e.entry k = d.entry k

namespace EntryOnly

variable {i : Nat}

theorem dropSid (h : EntryOnly i d e) (sid : Nat) : EntryOnly i d (e.dropSid sid) :=
  ⟨h.rte.trans rfl, h.entry⟩

theorem withSids (h : EntryOnly i d e) (f : RteSt → Table Nat) : EntryOnly i d (e.withRte fun r => { r with sids := f r }) :=
  ⟨h.rte.trans rfl, h.entry⟩

end EntryOnly

/-- A pend field cleared, with its index. -/
def unpended (e : Nat) : Nat := putBits (putBits e 320 3 0) 328 20 0

theorem ePendSlot_unpended (e : Nat) : ePendSlot (unpended e) = 0 := by
  rw [ePendSlot, unpended, bits_putBits_out (by decide), bits_putBits_in (by decide) (by decide), bits, Nat.zero_div, Nat.zero_mod]

theorem ePendSlot_zero : ePendSlot 0 = 0 := by rw [ePendSlot, bits, Nat.zero_div, Nat.zero_mod]

theorem unpended_lt {e : Nat} (h : e < 2 ^ (8 * 64)) : unpended e < 2 ^ (8 * 64) := putBits_lt (putBits_lt h (by decide) _) (by decide) _

/-- The entry of a change with its pend field cleared. -/
def entryCleared (i : Nat) (t : LineTag) (d : Dev) : Dev := (d.setEntry i (unpended (d.entry i))).repinLine i t

/-- The entry of a change removed with its line. -/
def entryRemoved (i : Nat) (d : Dev) : Dev := (d.dropLine (d.setOfEntry i) (.stream i)).freeEntry i

theorem repinLine_mem (d : Dev) (i : Nat) (t : LineTag) : (d.repinLine i t).mem = d.mem := by
  simp only [Dev.repinLine]
  split <;> rfl

theorem entryCleared_spec (i : Nat) (t : LineTag) (d : Dev) : EntryOnly i d (entryCleared i t d) ∧
    (entryCleared i t d).entry i = unpended (d.entry i) := by
  have hcache : CacheOnly d (entryCleared i t d) := ((CacheOnly.refl d).setEntry _ _).repinLine _ _
  have hentry (k : Nat) : (entryCleared i t d).entry k = (d.setEntry i (unpended (d.entry i))).entry k :=
    entry_of_mem (repinLine_mem ..) k
  refine ⟨⟨hcache.tables, fun k _ hk => ?_⟩, ?_⟩
  · rw [hentry, entry_setEntry_ne hk]
  · rw [hentry, entry_setEntry (unpended_lt (entry_lt ..))]

theorem entryRemoved_spec {i : Nat} (hi : i < 2 ^ 24) (d : Dev) : EntryOnly i d (entryRemoved i d) ∧ (entryRemoved i d).entry i = 0 := by
  have hcache : CacheOnly d (entryRemoved i d) := ((CacheOnly.refl d).dropLine _ _).freeEntry _
  refine ⟨⟨hcache.tables, fun k hk hne => ?_⟩, entry_freeEntry hi _⟩
  rw [entryRemoved, entry_freeEntry_ne hk hne, dropLine_entry_ne hne]

/-- What retirement leaves of change `j`: its pend field is clear, and a deleted entry is free. -/
def Retired (d e : Dev) (s j : Nat) : Prop :=
  ePendSlot (e.entry (d.chgEntry s j)) = 0 ∧ (d.chgKind s j = 3 → e.entry (d.chgEntry s j) = 0)

theorem withRte_entry (d : Dev) (f : RteSt → RteSt) (i : Nat) : (d.withRte f).entry i = d.entry i := rfl
theorem dropSid_entry (d : Dev) (sid i : Nat) : (d.dropSid sid).entry i = d.entry i := rfl

theorem retireChange_eq (d : Dev) (s j : Nat) : d.retireChange s j =
    match d.chgKind s j with
    | 3 => (entryRemoved (d.chgEntry s j) d).dropSid (eSid (d.entry (d.chgEntry s j)))
    | 5 => match d.rte.sids.find? fun x => x.2 == d.chgEntry s j + 1 with
      | some x => (entryRemoved (d.chgEntry s j) d).dropSid x.1
      | none => d.freeEntry (d.chgEntry s j)
    | 2 => (entryCleared (d.chgEntry s j) (entryTag (d.chgKind s j) (d.chgEntry s j)) d).withRte fun r =>
      { r with sids := r.sids.filter fun x => x.2 ≠ d.chgEntry s j + 1 ∨ x.1 = eSid (d.entry (d.chgEntry s j)) }
    | _ => entryCleared (d.chgEntry s j) (entryTag (d.chgKind s j) (d.chgEntry s j)) d := rfl

theorem retireChange_spec {j : Nat} (hi : d.chgEntry s j < 2 ^ 24) :
    EntryOnly (d.chgEntry s j) d (d.retireChange s j) ∧ Retired d (d.retireChange s j) s j := by
  rw [retireChange_eq]
  unfold Retired
  generalize d.chgEntry s j = i at hi ⊢
  obtain ⟨hrem, hzero⟩ := entryRemoved_spec hi d
  obtain ⟨hclr, hent⟩ := entryCleared_spec i (entryTag (d.chgKind s j) i) d
  have hpend : ePendSlot ((entryCleared i (entryTag (d.chgKind s j) i) d).entry i) = 0 := by rw [hent, ePendSlot_unpended]
  have zero {x : Nat} (h : x = 0) : ePendSlot x = 0 ∧ (d.chgKind s j = 3 → x = 0) := ⟨by rw [h, ePendSlot_zero], fun _ => h⟩
  split
  next => exact ⟨hrem.dropSid _, zero ((dropSid_entry ..).trans hzero)⟩
  next =>
    split
    · exact ⟨hrem.dropSid _, zero ((dropSid_entry ..).trans hzero)⟩
    · exact ⟨⟨((CacheOnly.refl d).freeEntry i).tables, fun k hk hne => entry_freeEntry_ne hk hne d⟩, zero (entry_freeEntry hi d)⟩
  next hk =>
    refine ⟨hclr.withSids _, ?_, fun h3 => by omega⟩
    rw [withRte_entry, hpend]
  next h3 _ _ => exact ⟨hclr, hpend, fun h => absurd h h3⟩

/-- The changes before the `m`-th retired: they stay so, each has an entry of its own. -/
theorem retireChanges_spec {n : Nat} (hi : ∀ j, j < n → d.chgEntry s j < 2 ^ 24)
    (hne : ∀ j k, j < n → k < n → d.chgEntry s j = d.chgEntry s k → j = k) (m : Nat) (hm : m ≤ n) :
    let e := (List.range m).foldl (fun d j => d.retireChange s j) d
    TablesOnly d e ∧ ∀ j, j < m → Retired d e s j := by
  induction m with
  | zero => exact ⟨rfl, fun j hj => absurd hj (Nat.not_lt_zero j)⟩
  | succ m ih =>
    obtain ⟨hrte, hdone⟩ := ih (by omega)
    simp only [List.range_succ, List.foldl_append, List.foldl_cons, List.foldl_nil]
    set e := (List.range m).foldl (fun d j => d.retireChange s j) d
    have hent (j : Nat) : e.chgEntry s j = d.chgEntry s j := by rw [Dev.chgEntry, hrte, Dev.chgEntry]
    have hkind (j : Nat) : e.chgKind s j = d.chgKind s j := by rw [Dev.chgKind, hrte, Dev.chgKind]
    obtain ⟨hstep, hnew⟩ := retireChange_spec (d := e) (s := s) (j := m) (by rw [hent]; exact hi m (by omega))
    rw [Retired, hent, hkind] at hnew
    rw [hent] at hstep
    refine ⟨hrte.trans hstep.rte, fun j hj => ?_⟩
    by_cases hjm : j = m
    · rw [hjm, Retired]
      exact hnew
    · have hother : d.chgEntry s j ≠ d.chgEntry s m := fun h => hjm (hne j m (by omega) (by omega) h)
      have := hdone j (by omega)
      rwa [Retired, ← hstep.entry _ (hi j (by omega)) hother] at this

/-! ### The whole of it -/

/-- The salvo is due to retire (R146). -/
def retireDue (d : Dev) (s : Nat) : Prop := d.rd R.RTE_SALVO_STAT_state [s] = 3 ∧ (tget {} d.rte.salvo s).retiring = false ∧
  d.rd R.RTE_SALVO_STAT_changes [s] ≤ (tget {} d.rte.salvo s).swapPos ∧
  d.teff s + d.rd R.RTE_SALVO_CFG_drain_us * 65536000 ≤ d.now

/-- The salvo retires: its lines are no longer pinned, those of its records leave the cache. -/
def retireBegun (s : Nat) (d : Dev) : Dev := ((d.setRun s { tget {} d.rte.salvo s with retiring := true }).unpinSalvo s).dropRecords s

theorem salvoRetire_due (h : retireDue d s) : salvoRetire s d =
    (List.range (d.rd R.RTE_SALVO_STAT_changes [s])).foldl (fun d j => d.retireChange s j) (retireBegun s d) := by
  obtain ⟨hst, hret, hswap, hnow⟩ := h
  refine if_neg ?_
  rw [reached_false_iff, not_or, not_or, not_or, not_not, not_not]
  exact ⟨hst, Bool.eq_false_iff.mp hret, Nat.not_lt.mpr hswap, hnow⟩

theorem retireBegun_run (s : Nat) (d : Dev) : (tget {} (retireBegun s d).rte.salvo s).retiring = true := by
  show (tget {} (tset {} d.rte.salvo s _) s).retiring = true
  rw [tget_tset]

theorem salvoRetire_spec (h : retireDue d s) (hi : ∀ j, j < d.rd R.RTE_SALVO_STAT_changes [s] → d.chgEntry s j < 2 ^ 24)
    (hne : ∀ j k, j < d.rd R.RTE_SALVO_STAT_changes [s] → k < d.rd R.RTE_SALVO_STAT_changes [s] →
      d.chgEntry s j = d.chgEntry s k → j = k) :
    (tget {} (salvoRetire s d).rte.salvo s).retiring = true ∧
      ∀ j, j < d.rd R.RTE_SALVO_STAT_changes [s] → Retired d (salvoRetire s d) s j := by
  obtain ⟨htables, hdone⟩ := retireChanges_spec (d := retireBegun s d) (s := s) hi hne _ (le_refl _)
  have hsame (e : Dev) (j : Nat) : Retired (retireBegun s d) e s j = Retired d e s j := rfl
  rw [salvoRetire_due h]
  exact ⟨by rw [htables]; exact retireBegun_run s d, fun j hj => hsame _ j ▸ hdone j hj⟩

theorem salvoCancelDone_spec (hs : s < 4) (h : d.rd R.RTE_SALVO_STAT_state [s] = 4) :
    (salvoCancelDone s d).rd R.RTE_SALVO_STAT_state [s] = 0 ∧ (salvoCancelDone s d).rd R.RTE_SALVO_STAT_cancelled [s] = 1 := by
  have hkey : R.RTE_SALVO_STAT_cancelled.key [s] = 0x202005 + 512 * s := salvoKey rfl s
  have hne : R.RTE_SALVO_STAT_cancelled.key [s] ≠ R.RTE_SALVO_STAT_state.key [s] := salvoKey_ne rfl rfl (by decide) s
  obtain ⟨e, he⟩ : ∃ e : Dev, salvoCancelDone s d =
      (((e.setRun s {}).wr R.RTE_SALVO_STAT_cancelled [s] 1).setSalvo s 0).raise Ev.salvoCancelled s := ⟨_, if_neg (not_not.mpr h)⟩
  rw [he, raise_rd _ _ (by decide) (by rw [stateKey_salvo]; omega), raise_rd _ _ (by decide) (by rw [hkey]; omega), Dev.setSalvo, rd_wr,
    rd_wr_ne _ _ _ _ _ _ hne, rd_wr]
  exact ⟨rfl, rfl⟩

end Sys2Proof.Machine

namespace Sys2Proof.Claims
open Sys2Proof.Machine

/-- Settles O20: each step where it is due and where it is not. -/
theorem salvoSteps : Obligations.SalvoSteps := by
  intro d hon slot s state run n late
  have hs : s < 4 := slot.isLt
  have does {c : Instr} {e : Dev} {g : Dev → Dev} (hc : ∀ x, exec c x = Machine.run x g) (h : g d = e) : Does c d e :=
    h ▸ does_of_run hon hc
  refine ⟨fun h => does (fun _ => rfl) (prewarmStep_early ?_), fun hst hpos hlate => ⟨_, does (fun _ => rfl) rfl, ?_⟩,
    fun h => does (fun _ => rfl) (salvoCommit_early ?_), fun hst hlate => ⟨_, does (fun _ => rfl) rfl, ?_⟩,
    fun h => does (fun _ => rfl) (salvoSwap_early ?_), fun hst hret hpos hlate => ⟨_, does (fun _ => rfl) rfl, ?_⟩,
    fun hst hret hpos hnow hi hne => ⟨_, does (fun _ => rfl) rfl, ?_⟩, fun hst hret => does (fun _ => rfl) (if_pos ⟨hst, hret⟩),
    fun h => does (fun _ => rfl) (if_pos h), fun hst => ⟨_, does (fun _ => rfl) rfl, salvoCancelDone_spec hs hst⟩⟩
  · rintro ⟨hst, hpos, hlate⟩
    rcases h with h | h | h
    · exact h hst
    · exact absurd hpos (Nat.not_lt.mpr h)
    · exact hlate h
  · have hkeep := prewarmStep_due ⟨hst, hpos, hlate⟩
    exact ⟨by rw [hkeep.run, run_setRun], hkeep.state.trans hst⟩
  · rintro ⟨hst, hlate⟩
    exact h.elim (fun h => h hst) fun h => h hlate
  · exact salvoCommit_spec hs ⟨hst, hlate⟩
  · rintro ⟨hst, hret, hpos, hlate⟩
    rcases h with h | h | h | h
    · exact h hst
    · exact absurd (hret.symm.trans h) (by decide)
    · exact absurd hpos (Nat.not_lt.mpr h)
    · exact h hlate
  · have hdue : swapDue d s := ⟨hst, hret, hpos, hlate⟩
    have hkeep := salvoSwap_due hs hdue
    refine ⟨by rw [hkeep.run, swapTaken, run_setRun], hkeep.state.trans hst, fun hr => ?_, fun hr hi hj => ?_⟩
    · rw [salvoSwap_bad hdue hr]
      exact (changeFailed_spec hs d _).2
    · rw [salvoSwap_sound hdue hr]
      exact ⟨changeSwapped_exchanges hs hi hj, fun k hk hne => changeSwapped_entry_ne hk hne⟩
  · exact salvoRetire_spec ⟨hst, hret, hpos, hnow⟩ hi hne

end Sys2Proof.Claims
end

section
/-! SUPPORT. Lookups in the route table (R121 to R124, R138): the search of a key's two rods, the slot of an insert. -/

namespace Sys2Proof.Machine

open Sys2Proof.Claims

variable {d : Dev} {key : Nat}

/-! ### The fingerprint of a key (R121) -/

theorem crcShift_lt {poly : Nat} (hp : poly < 2 ^ 32) (n : Nat) {c : Nat} (hc : c < 2 ^ 32) : crcShift poly n c < 2 ^ 32 := by
  induction n generalizing c with
  | zero => exact hc
  | succ n ih =>
    have hhalf : c / 2 < 2 ^ 32 := Nat.lt_of_le_of_lt (Nat.div_le_self c 2) hc
    rw [crcShift]
    split
    · exact ih (Nat.xor_lt_two_pow hhalf hp)
    · exact ih hhalf

theorem crcBytes_lt {poly : Nat} (hp : poly < 2 ^ 32) (l : List Byte) {c : Nat} (hc : c < 2 ^ 32) : crcBytes poly c l < 2 ^ 32 := by
  induction l generalizing c with
  | nil => exact hc
  | cons b l ih =>
    have hb : b.toNat < 2 ^ 32 := Nat.lt_trans b.isLt (by decide)
    exact ih (crcShift_lt hp 8 (Nat.xor_lt_two_pow hc hb))

theorem crc32c_lt (l : List Byte) : crc32c l < 2 ^ 32 := Nat.xor_lt_two_pow (crcBytes_lt (by decide) l (by decide)) (by decide)

theorem fingerprint_lt (key : Nat) : fingerprint key < 32768 := by
  have h₀ : hash0 key < 2 ^ 32 := crc32c_lt _
  have h₁ : hash1 key < 2 ^ 32 := crc32c_lt _
  unfold fingerprint
  omega

/-- A digest halfword that is used and has the key's fingerprint. -/
theorem digest_matches (h : Nat) : (h / 32768 = 1 ∧ h % 32768 = fingerprint key) ↔ h = 32768 + fingerprint key := by
  have := fingerprint_lt key
  omega

/-! ### The search -/

theorem holdsKey_slot {k : Nat} (hk : k < 8) (r : Nat) : holdsKey d key (8 * r + k) ↔
    d.digest r k = 32768 + fingerprint key ∧ eKey (d.entry (8 * r + k)) = key ∧ isStream (d.entry (8 * r + k)) = true := by
  have hr : (8 * r + k) / 8 = r := by omega
  have hk : (8 * r + k) % 8 = k := by omega
  rw [holdsKey, hr, hk]

/-- What a search of the slots `l` finds: the first that holds the key, none, or a line that is bad. -/
def foundIn (d : Dev) (key : Nat) (l : List (Nat × Nat)) : Found → Prop
  | .entry i _ => ∃ l₁ r k l₂, l = l₁ ++ (r, k) :: l₂ ∧ i = 8 * r + k ∧ holdsKey d key i ∧
      ∀ p ∈ l₁, ¬ holdsKey d key (8 * p.1 + p.2)
  | .none _ => ∀ p ∈ l, ¬ holdsKey d key (8 * p.1 + p.2)
  | .ecc r => ∃ k, (r, k) ∈ l ∧ d.lineBad (entryAddr (8 * r + k)) = true

/-- A slot that does not hold the key may stand before those searched. -/
theorem foundIn_cons {r k : Nat} {l : List (Nat × Nat)} (hp : ¬ holdsKey d key (8 * r + k)) {x : Found}
    (h : foundIn d key l x) : foundIn d key ((r, k) :: l) x := by
  match x, h with
  | .entry i _, ⟨l₁, r', k', l₂, hl, hi, hkey, hbefore⟩ =>
    refine ⟨(r, k) :: l₁, r', k', l₂, by rw [hl, List.cons_append], hi, hkey, fun y hy => ?_⟩
    rcases List.mem_cons.mp hy with rfl | hy
    · exact hp
    · exact hbefore y hy
  | .none _, h =>
    intro y hy
    rcases List.mem_cons.mp hy with rfl | hy
    · exact hp
    · exact h y hy
  | .ecc _, ⟨k', hk, hbad⟩ => exact ⟨k', List.mem_cons_of_mem _ hk, hbad⟩

theorem searchSlots_finds {l : List (Nat × Nat)} (hl : ∀ p ∈ l, p.2 < 8) (reads : Nat) :
    foundIn d key l (d.searchSlots key l reads) := by
  induction l generalizing reads with
  | nil => exact fun p hp => absurd hp List.not_mem_nil
  | cons p l ih =>
    obtain ⟨r, k⟩ := p
    have hslot := holdsKey_slot (d := d) (key := key) (hl (r, k) List.mem_cons_self) r
    have ih (n : Nat) := ih (fun p hp => hl p (List.mem_cons_of_mem _ hp)) n
    simp only [Dev.searchSlots, digest_matches]
    split
    next hdig =>
      split
      next hbad => exact ⟨k, List.mem_cons_self, hbad⟩
      next =>
        split
        next hkey => exact ⟨[], r, k, l, rfl, rfl, hslot.mpr ⟨hdig, hkey⟩, fun p hp => absurd hp List.not_mem_nil⟩
        next hkey => exact foundIn_cons (fun h => hkey (hslot.mp h).2) (ih _)
    next hdig => exact foundIn_cons (fun h => hdig (hslot.mp h).1) (ih _)

/-! ### The order of the search (R124) -/

theorem mem_searchOrder {p : Nat × Nat} : p ∈ d.searchOrder key ↔ (p.1 = d.rodA key ∨ p.1 = d.rodB key) ∧ p.2 < 8 := by
  obtain ⟨r, k⟩ := p
  by_cases hab : d.rodA key = d.rodB key
  · have horder : d.searchOrder key = (List.range 8).map fun k => (d.rodA key, k) := by
      rw [Dev.searchOrder, if_pos hab, List.append_nil]
    simp only [horder, List.mem_map, List.mem_range, Prod.mk.injEq, ← hab, or_self]
    exact ⟨fun ⟨_, hk, hr, rfl⟩ => ⟨hr.symm, hk⟩, fun ⟨hr, hk⟩ => ⟨k, hk, hr.symm, rfl⟩⟩
  · simp only [Dev.searchOrder, if_neg hab, List.mem_append, List.mem_map, List.mem_range, Prod.mk.injEq]
    constructor
    · rintro (⟨_, hk, hr, rfl⟩ | ⟨_, hk, hr, rfl⟩)
      · exact ⟨.inl hr.symm, hk⟩
      · exact ⟨.inr hr.symm, hk⟩
    · rintro ⟨hr | hr, hk⟩
      · exact .inl ⟨k, hk, hr.symm, rfl⟩
      · exact .inr ⟨k, hk, hr.symm, rfl⟩

/-- Slot `p` may be searched before slot `q`, where rod `a` comes first. -/
def searchedBefore (a : Nat) (p q : Nat × Nat) : Prop := (q.1 = a → p.1 = a) ∧ (p.1 = q.1 → p.2 < q.2)

theorem searchOrder_ordered (d : Dev) (key : Nat) : (d.searchOrder key).Pairwise (searchedBefore (d.rodA key)) := by
  have rod (r : Nat) : ((List.range 8).map fun k => (r, k)).Pairwise (searchedBefore (d.rodA key)) :=
    List.pairwise_map.mpr (List.pairwise_lt_range.imp fun hlt => ⟨id, fun _ => hlt⟩)
  rw [Dev.searchOrder]
  refine List.pairwise_append.mpr ⟨rod _, ?_, fun p hp q hq => ?_⟩
  · split
    · exact .nil
    · exact rod _
  · obtain ⟨_, _, rfl⟩ := List.mem_map.mp hp
    split at hq
    · exact absurd hq List.not_mem_nil
    · next hab =>
      obtain ⟨_, _, rfl⟩ := List.mem_map.mp hq
      exact ⟨fun _ => rfl, fun h => absurd h hab⟩

/-- The search reached rod a before the slot it found: what stands there before it does not hold the key. -/
theorem found_first {l₁ l₂ : List (Nat × Nat)} {r k j : Nat} (hl : d.searchOrder key = l₁ ++ (r, k) :: l₂)
    (hbefore : ∀ p ∈ l₁, ¬ holdsKey d key (8 * p.1 + p.2)) (hj : j < 8) (h : d.rodA key ≠ r ∨ j < k) :
    ¬ holdsKey d key (8 * d.rodA key + j) ∨ 8 * r + k = 8 * d.rodA key + j := by
  have hmem : (d.rodA key, j) ∈ d.searchOrder key := mem_searchOrder.mpr ⟨.inl rfl, hj⟩
  have hord := searchOrder_ordered d key
  rw [hl] at hmem hord
  rcases List.mem_append.mp hmem with hm | hm
  · have hnot := hbefore _ hm
    dsimp only at hnot
    exact .inl hnot
  · rcases List.mem_cons.mp hm with heq | hm
    · obtain ⟨hr, hk⟩ := Prod.mk.inj heq
      rw [hr, hk]
      exact .inr rfl
    · obtain ⟨hrod, hslot⟩ := List.rel_of_pairwise_cons (List.pairwise_append.mp hord).2.1 hm
      have hr : r = d.rodA key := hrod rfl
      have hk : k < j := hslot hr
      omega

/-- A lookup: a bad digest line, or the search of both rods. -/
theorem tableLookup_cases (d : Dev) (key : Nat) :
    (∃ r, (r = d.rodA key ∨ r = d.rodB key) ∧ d.lineBad (digestAddr r 0) = true ∧ d.tableLookup key = .ecc r) ∨
      d.tableLookup key = d.searchSlots key (d.searchOrder key) 0 := by
  simp only [Dev.tableLookup]
  split
  next ha => exact .inl ⟨_, .inl rfl, ha, rfl⟩
  next =>
    split
    next hb => exact .inl ⟨_, .inr rfl, hb, rfl⟩
    next => exact .inr rfl

theorem tableLookup_finds (d : Dev) (key : Nat) :
    (∃ r, (r = d.rodA key ∨ r = d.rodB key) ∧ d.lineBad (digestAddr r 0) = true ∧ d.tableLookup key = .ecc r) ∨
      foundIn d key (d.searchOrder key) (d.tableLookup key) := by
  rcases tableLookup_cases d key with h | h
  · exact .inl h
  · exact .inr (h ▸ searchSlots_finds (fun p hp => (mem_searchOrder.mp hp).2) 0)

/-! ### The slot of an insert (R123) -/

/-- The rod an insert takes: the one with fewer used slots, rod_a on a tie. -/
def insertRod (d : Dev) (key : Nat) : Nat := if d.usedSlots (d.rodB key) < d.usedSlots (d.rodA key) then d.rodB key else d.rodA key

theorem insertRod_least (d : Dev) (key : Nat) : (insertRod d key = d.rodA key ∨ insertRod d key = d.rodB key) ∧
    d.usedSlots (insertRod d key) ≤ d.usedSlots (d.rodA key) ∧ d.usedSlots (insertRod d key) ≤ d.usedSlots (d.rodB key) := by
  rw [insertRod]
  split
  next h => exact ⟨.inr rfl, Nat.le_of_lt h, Nat.le_refl _⟩
  next h => exact ⟨.inl rfl, Nat.le_refl _, Nat.not_lt.mp h⟩

theorem insertSlot_some {i : Nat} (h : d.insertSlot key = some i) : i / 8 = insertRod d key ∧ eType (d.entry i) = 0 := by
  obtain ⟨k, hfree, rfl⟩ := Option.map_eq_some_iff.mp
    (show (d.freeSlot (insertRod d key)).map (8 * insertRod d key + ·) = some i from h)
  have hk : k < 8 := List.mem_range.mp (List.mem_of_find?_eq_some hfree)
  exact ⟨by omega, by simpa using List.find?_some (show List.find? _ _ = some k from hfree)⟩

theorem insertSlot_none (h : d.insertSlot key = none) {k : Nat} (hk : k < 8) : eType (d.entry (8 * insertRod d key + k)) ≠ 0 := by
  have hfree : d.freeSlot (insertRod d key) = none := Option.map_eq_none_iff.mp h
  simpa using List.find?_eq_none.mp hfree k (List.mem_range.mpr hk)

end Sys2Proof.Machine

namespace Sys2Proof.Claims
open Sys2Proof.Machine

theorem tableLookups : TableLookups := by
  intro d key
  have hfind := tableLookup_finds d key
  refine ⟨fun i n h => ?_, fun n h i hi hkey => ?_, fun r h => ?_, fun i h => ?_, fun h k hk => insertSlot_none h hk⟩
  · rw [h] at hfind
    rcases hfind with ⟨_, _, _, h⟩ | ⟨l₁, r, k, l₂, hl, rfl, hkey, hbefore⟩
    · exact absurd h (by simp)
    · obtain ⟨hr, hk⟩ := mem_searchOrder.mp (hl ▸ List.mem_append_right l₁ List.mem_cons_self)
      have hdiv : (8 * r + k) / 8 = r := by omega
      have hmod : (8 * r + k) % 8 = k := by omega
      refine ⟨?_, hkey, fun j hj hfirst => ?_⟩
      · rw [rodOf, hdiv]
        exact hr
      · rw [hdiv, hmod] at hfirst
        exact found_first hl hbefore hj hfirst
  · rw [h] at hfind
    rcases hfind with ⟨_, _, _, h⟩ | hnone
    · exact absurd h (by simp)
    · have hslot : 8 * (i / 8) + i % 8 = i := Nat.div_add_mod i 8
      exact hnone (i / 8, i % 8) (mem_searchOrder.mpr ⟨hi, Nat.mod_lt _ (by decide)⟩) (hslot.symm ▸ hkey)
  · rw [h] at hfind
    rcases hfind with ⟨r', hr, hbad, h⟩ | ⟨k, hmem, hbad⟩
    · obtain rfl : r = r' := Found.ecc.inj h
      exact ⟨hr, .inl hbad⟩
    · obtain ⟨hr, hk⟩ := mem_searchOrder.mp hmem
      exact ⟨hr, .inr ⟨k, hk, hbad⟩⟩
  · obtain ⟨hrod, hfree⟩ := insertSlot_some h
    obtain ⟨hin, ha, hb⟩ := insertRod_least d key
    rw [rodOf, hrod]
    exact ⟨hin, hfree, ha, hb⟩

end Sys2Proof.Claims
end

section
/-! SUPPORT. Ageing (R140): the visit of a stream entry, by whether the entry ages and was hit. -/

namespace Sys2Proof.Machine

open Sys2Proof.Claims

variable {d e : Dev} {i : Nat}

/-- A field put to 0 takes its value away. -/
theorem putBits_zero (v lo w : Nat) : putBits v lo w 0 = v - bits v lo w * 2 ^ lo := by
  have hlow : 2 ^ lo * (v / 2 ^ lo) + v % 2 ^ lo = v := Nat.div_add_mod ..
  have hhigh : 2 ^ w * (v / 2 ^ lo / 2 ^ w) + v / 2 ^ lo % 2 ^ w = v / 2 ^ lo := Nat.div_add_mod ..
  have hdiv : v / 2 ^ lo / 2 ^ w = v / 2 ^ (lo + w) := by rw [Nat.div_div_eq_div_mul, Nat.pow_add]
  have hsum : v / 2 ^ (lo + w) * 2 ^ (lo + w) + bits v lo w * 2 ^ lo + v % 2 ^ lo = v := by
    rw [hdiv] at hhigh
    calc v / 2 ^ (lo + w) * 2 ^ (lo + w) + bits v lo w * 2 ^ lo + v % 2 ^ lo
        = 2 ^ lo * (2 ^ w * (v / 2 ^ (lo + w)) + v / 2 ^ lo % 2 ^ w) + v % 2 ^ lo := by rw [bits, Nat.pow_add]; ring
      _ = v := by rw [hhigh, hlow]
  rw [putBits, Nat.zero_mod, Nat.zero_mul]
  omega

/-! ### The hit state of a line -/

/-- The set with the hit state of line `l` clear. -/
def CacheSet.unhit (c : CacheSet) (l : CacheLine) : CacheSet :=
  { c with lines := c.lines.map fun x => if x.way = l.way then { x with hit := false } else x }

/-- The hit state of the entry's line clear, where it has one. -/
def lineUnhit (i : Nat) (d : Dev) : Dev :=
  match (d.cset (d.setOfEntry i)).find (.stream i) with
  | some l => d.setCset (d.setOfEntry i) ((d.cset (d.setOfEntry i)).unhit l)
  | none => d

theorem cset_setCset (d : Dev) (n : Nat) (c : CacheSet) : (d.setCset n c).cset n = c := tget_tset ..

theorem find_unhit {c : CacheSet} {t : LineTag} {l : CacheLine} (h : c.find t = some l) :
    (c.unhit l).find t = some { l with hit := false } := by
  have htag : (fun x : CacheLine => decide (x.tag = t)) ∘ (fun x => if x.way = l.way then { x with hit := false } else x) =
      fun x => decide (x.tag = t) := by
    funext x
    show decide ((if x.way = l.way then { x with hit := false } else x).tag = t) = _
    split <;> rfl
  rw [CacheSet.find] at h
  rw [CacheSet.find, CacheSet.unhit, List.find?_map, htag, h, Option.map_some, if_pos rfl]

theorem lineUnhit_mem (i : Nat) (d : Dev) : (lineUnhit i d).mem = d.mem := by
  rw [lineUnhit]
  split <;> rfl

theorem lineUnhit_cache (i : Nat) (d : Dev) : CacheOnly d (lineUnhit i d) := by
  rw [lineUnhit]
  split
  · exact (CacheOnly.refl d).setCset _ _
  · exact .refl d

theorem lineUnhit_find {l : CacheLine} (h : ((lineUnhit i d).cset (d.setOfEntry i)).find (.stream i) = some l) : l.hit = false := by
  rw [lineUnhit] at h
  split at h
  next x hx =>
    rw [cset_setCset, find_unhit hx] at h
    obtain rfl := Option.some.inj h
    rfl
  next hx => simp [hx] at h

/-! ### A visit -/

/-- The entry may age. -/
def agesNow (d : Dev) (i : Nat) : Prop := d.rd R.RTE_AGE_period_s ≠ 0 ∧ isStream (d.entry i) = true ∧ eAgeEn (d.entry i) = 1

/-- The entry was hit since the ager's last visit: in DDR4 or in its line. -/
def hitSince (d : Dev) (i : Nat) : Prop := eHit (d.entry i) = 1 ∨
  ∃ l, (d.cset (d.setOfEntry i)).find (.stream i) = some l ∧ l.hit = true

/-- The entry removed for its age. -/
def agedOut (i : Nat) (d : Dev) : Dev :=
  (((((lineUnhit i d).dropLine (d.setOfEntry i) (.stream i)).freeEntry i).dropSid (eSid (d.entry i))).rteCount 8).raise Ev.routeAged
    (eSid (d.entry i) % 65536)

theorem agesNow_iff : agesNow d i ↔ ¬ (d.rd R.RTE_AGE_period_s = 0 ∨ isStream (d.entry i) = false ∨ eAgeEn (d.entry i) = 0) := by
  have : eAgeEn (d.entry i) < 2 := bits_lt ..
  rw [agesNow, not_or, not_or, Bool.not_eq_false]
  refine and_congr_right fun _ => and_congr_right fun _ => ?_
  omega

theorem agerVisit_off (h : ¬ agesNow d i) : agerVisit i d = d := if_pos (not_not.mp fun hn => h (agesNow_iff.mpr hn))

/-- A visit of an entry that ages, by whether it was hit (`b`). -/
theorem agerVisit_ages (h : agesNow d i) : ∃ b : Bool, (b = true ↔ hitSince d i) ∧ agerVisit i d =
    if b = false ∧ ePendSlot (d.entry i) = 0 then agedOut i d else (lineUnhit i d).setEntry i (putBits (d.entry i) 326 1 0) := by
  cases hl : (d.cset (d.setOfEntry i)).find (.stream i) with
  | none =>
    refine ⟨eHit (d.entry i) == 1, by simp [hitSince, hl], ?_⟩
    simp only [agerVisit, if_neg (agesNow_iff.mp h), agedOut, lineUnhit, hl, Bool.or_false]
  | some l =>
    refine ⟨eHit (d.entry i) == 1 || l.hit, by simp [hitSince, hl], ?_⟩
    simp only [agerVisit, if_neg (agesNow_iff.mp h), agedOut, lineUnhit, hl, CacheSet.unhit]

theorem agerVisit_stays (h : agesNow d i) (hs : hitSince d i ∨ ePendSlot (d.entry i) ≠ 0) :
    agerVisit i d = (lineUnhit i d).setEntry i (putBits (d.entry i) 326 1 0) := by
  obtain ⟨b, hb, hvisit⟩ := agerVisit_ages h
  rw [hvisit, if_neg]
  rintro ⟨hf, hp⟩
  rcases hs with hs | hs
  · exact absurd (hb.mpr hs) (by simp [hf])
  · exact hs hp

theorem agerVisit_removes (h : agesNow d i) (hs : ¬ hitSince d i) (hp : ePendSlot (d.entry i) = 0) : agerVisit i d = agedOut i d := by
  obtain ⟨b, hb, hvisit⟩ := agerVisit_ages h
  rw [hvisit, if_pos ⟨Bool.eq_false_iff.mpr fun ht => hs (hb.mp ht), hp⟩]

theorem agedOut_mem (i : Nat) (d : Dev) :
    (agedOut i d).mem = (((lineUnhit i d).dropLine (d.setOfEntry i) (.stream i)).freeEntry i).mem := by
  rw [agedOut, raise_mem]
  rfl

theorem agedOut_count (i : Nat) (d : Dev) :
    (agedOut i d).rd R.RTE_CNT_count [8] = (d.rd R.RTE_CNT_count [8] + 1) % 2 ^ 64 := by
  have hcache : CacheOnly d (((lineUnhit i d).dropLine (d.setOfEntry i) (.stream i)).freeEntry i) :=
    ((lineUnhit_cache i d).dropLine ..).freeEntry i
  rw [agedOut, raise_rd _ _ (by decide) (by rw [rteCountKey]; decide)]
  generalize ((lineUnhit i d).dropLine (d.setOfEntry i) (.stream i)).freeEntry i = e at hcache
  rw [← hcache.rd, Dev.rteCount, Dev.bumpWrap, rd_wr, Dev.dropSid, rd_wr_ne _ _ _ _ _ _ (by decide)]
  rfl

theorem agedOut_sid (i : Nat) (d : Dev) : tget 0 (agedOut i d).rte.sids (eSid (d.entry i)) = 0 := by
  rw [agedOut, raise_rte]
  exact tget_tset 0 _ _ 0

end Sys2Proof.Machine

namespace Sys2Proof.Claims
open Sys2Proof.Machine

theorem ageingAndTheTable : AgeingAndTheTable := by
  intro d hon i e ages cached hit
  have hi : (i : Nat) < 2 ^ 24 := i.isLt
  refine ⟨fun h => ?_, fun h hs => ⟨_, does_of_run hon fun _ => rfl, ?_⟩, fun h hs hp => ⟨_, does_of_run hon fun _ => rfl, ?_⟩⟩
  · have := does_of_run (c := .agerVisit i) hon fun _ => rfl
    rwa [agerVisit_off h] at this
  · rw [agerVisit_stays h hs]
    refine ⟨?_, fun l hl => ?_, fun a ha => ?_⟩
    · rw [entry_setEntry (putBits_lt (entry_lt ..) (by decide) _), putBits_zero]
      rfl
    · refine lineUnhit_find (i := i) (d := d) ?_
      rw [← hl, Dev.cset, Dev.cset, setEntry_rte]
    · rw [Dev.setEntry, byte_store_out _ _ ha, Dev.byte, lineUnhit_mem, Dev.byte]
  · rw [agerVisit_removes h hs hp]
    refine ⟨?_, ?_, agedOut_sid i d, agedOut_count i d, fun j hj hne => ?_⟩
    · rw [entry_of_mem (agedOut_mem ..), entry_freeEntry hi]
    · rw [digest_of_mem (agedOut_mem ..), digest_freeEntry]
    · rw [entry_of_mem (agedOut_mem ..), entry_freeEntry_ne hj hne, dropLine_entry_ne hne, entry_of_mem (lineUnhit_mem ..)]

/-- Settles O19: the lookup by the search of the two rods in their order, the ager by whether the entry was hit. -/
theorem routeTable : Obligations.RouteTable := ⟨tableLookups, ageingAndTheTable⟩

end Sys2Proof.Claims
end

section
/-! SUPPORT. Frames leave the ingress buffer: what freed cells and a default action change (O18). -/

namespace Sys2Proof.Machine

open Sys2Proof.Claims

/-- `e` differs from `d` in a port's registers and XOFF states, in outputs and in the event block at most. -/
structure PortOnly (d e : Dev) : Prop where
  eq : e = { d with regs := e.regs, out := e.out, evt := e.evt, prt := { d.prt with xoff := e.prt.xoff } }
  regs : ∀ k, 0x200000 ≤ k → k < 0x600000 → ∀ x, tget x e.regs k = tget x d.regs k

namespace PortOnly

theorem refl (d : Dev) : PortOnly d d := ⟨rfl, fun _ _ _ _ => rfl⟩

variable {a d e : Dev} {q p : Nat}

theorem trans (h : PortOnly a d) (g : PortOnly d e) : PortOnly a e :=
  ⟨by rw [g.eq, h.eq], fun k hlo hhi x => (g.regs k hlo hhi x).trans (h.regs k hlo hhi x)⟩

theorem wr (h : PortOnly d e) {f : Field} {ix : List Nat} (hk : f.key ix < 0x200000) (v : Nat) : PortOnly d (e.wr f ix v) :=
  h.trans ⟨rfl, fun _ hlo _ _ => tget_tset_ne _ _ _ _ _ (by omega)⟩

theorem emit (h : PortOnly d e) (o : Out) : PortOnly d (e.emit o) := h.trans ⟨rfl, fun _ _ _ _ => rfl⟩

theorem xoff (h : PortOnly d e) (g : Dev → Table Bool) : PortOnly d (e.withPrt fun s => { s with xoff := g e }) :=
  h.trans ⟨rfl, fun _ _ _ _ => rfl⟩

theorem raise (h : PortOnly d e) {src : Nat} (hs : src < 320) (info : Nat) : PortOnly d (e.raise src info) := by
  have g := raise_eventsOnly e hs info
  exact h.trans ⟨by rw [g.eq], fun k _ hhi => g.regs k (by omega)⟩

theorem ite {c : Prop} [Decidable c] {x y : Dev} (hx : PortOnly d x) (hy : PortOnly d y) : PortOnly d (if c then x else y) := by
  split
  · exact hx
  · exact hy

theorem sendPfc (h : PortOnly d e) (hq : q < 2) : PortOnly d (e.sendPfc q p 0) := by
  refine List.foldlRecOn _ _ h fun x hx s hs => ?_
  have hs : s < 4 := by fin_cases hs <;> decide
  have hk (k : Nat) (hk : k < 16) : R.PRT_CNT_count.key [q, s, k] < 0x200000 := by rw [prtCountKey]; omega
  split
  · rw [if_pos rfl]
    exact ((hx.emit _).wr (hk 14 (by decide)) _).wr (hk 15 (by decide)) _
  · exact hx

theorem freeCells (h : PortOnly d e) (hq : q < 2) (hp : p < 8) (n : Nat) : PortOnly d (e.freeCells q p n) := by
  have hk : R.PRT_BUF_OCC_cells.key [q, p] < 0x200000 := by rw [occKey]; omega
  have hw := h.wr hk (e.rd R.PRT_BUF_OCC_cells [q, p] - n)
  exact .ite ((hw.xoff fun x => tset false x.prt.xoff (8 * q + p) false).sendPfc hq) hw

theorem dropPri (h : PortOnly d e) (hq : q < 2) (hp : p < 8) : PortOnly d (e.dropPri q p) := by
  have hk : R.PRT_DROP_PRI_count.key [q, p] < 0x200000 := by rw [dropPriKey]; omega
  exact (h.wr hk _).raise (by unfold Ev.port; omega) _

section
variable (h : PortOnly d e)
include h

theorem mem : e.mem = d.mem := by rw [h.eq]
theorem med : e.med = d.med := by rw [h.eq]
theorem rte : e.rte = d.rte := by rw [h.eq]
theorem ingress : e.prt.ingress = d.prt.ingress := by rw [h.eq]
theorem rd {f : Field} {ix : List Nat} (hlo : 0x200000 ≤ f.key ix) (hhi : f.key ix < 0x600000) : e.rd f ix = d.rd f ix :=
  h.regs _ hlo hhi _

end

end PortOnly

theorem defaultKey (c : Nat) : R.RTE_DEFAULT_kind.key [c] = 0x200200 + 64 * c ∧ R.RTE_DEFAULT_id.key [c] = 0x200204 + 64 * c :=
  ⟨key_one rfl c, key_one rfl c⟩

section
variable {d : Dev} {f : IngFrame} {c : Nat} (hq : f.port < 2) (hp : f.pri < 8) (hc : c = 1 ∨ c = 2 ∨ c = 4)
include hq hp

theorem leaveIngress_port (d : Dev) : PortOnly d (d.leaveIngress f) := (PortOnly.refl d).freeCells hq hp _

include hc

/-- RTE_DEFAULT of a class is read as it stood before the frame's cells are freed. -/
theorem leaveIngress_default (d : Dev) : (d.leaveIngress f).rd R.RTE_DEFAULT_kind [c] = d.rd R.RTE_DEFAULT_kind [c] ∧
    (d.leaveIngress f).rd R.RTE_DEFAULT_id [c] = d.rd R.RTE_DEFAULT_id [c] := by
  have h := leaveIngress_port hq hp d
  obtain ⟨hkind, hid⟩ := defaultKey c
  exact ⟨h.rd (by omega) (by omega), h.rd (by omega) (by omega)⟩

theorem defaultAction_drover (hk : d.rd R.RTE_DEFAULT_kind [c] = 1) (hid : d.rd R.RTE_DEFAULT_id [c] < 96) :
    d.defaultAction f c =
      (d.leaveIngress f).pushDrv (d.rd R.RTE_DEFAULT_id [c]) { frame := { f with bytes := noFcs f.bytes } } := by
  obtain ⟨hkind, hdrv⟩ := leaveIngress_default hq hp hc d
  have hlooked : (c == 0 || c == 3) = false := by rcases hc with rfl | rfl | rfl <;> rfl
  have hbad : badDest 1 (d.rd R.RTE_DEFAULT_id [c]) = false := by simp [badDest]; omega
  simp [Dev.defaultAction, hkind, hdrv, hk, hlooked, hbad, reservedKind]

theorem defaultAction_drop (hk : d.rd R.RTE_DEFAULT_kind [c] = 0) : d.defaultAction f c = d.leaveIngress f := by
  obtain ⟨hkind, -⟩ := leaveIngress_default hq hp hc d
  have hlooked : (c == 0 || c == 3) = false := by rcases hc with rfl | rfl | rfl <;> rfl
  simp [Dev.defaultAction, hkind, hk, hlooked, badDest, reservedKind]

end

/-! ### A frame routed -/

theorem cachedEntry_congr {d e : Dev} (hm : e.mem = d.mem) (hr : e.rte = d.rte) (key : Nat) : e.cachedEntry key = d.cachedEntry key := by
  have hc (n : Nat) : e.cset n = d.cset n := by rw [Dev.cset, hr, Dev.cset]
  have he (i : Nat) : e.entry i = d.entry i := entry_of_mem hm i
  simp only [Dev.cachedEntry, hc, he]

theorem cachedNeg_congr {d e : Dev} (hr : e.rte = d.rte) (key : Nat) : e.cachedNeg key = d.cachedNeg key := by
  rw [Dev.cachedNeg, Dev.cset, hr, Dev.cachedNeg, Dev.cset]

/-- The class of default a frame takes that is routed by no key: the engine off (4), not IP (2), no key (1). -/
def defaultClass (d : Dev) (f : IngFrame) : Nat := if d.rd R.RTE_CFG_en = 0 then 4 else if (parse f.bytes).ip = 0 then 2 else 1

theorem defaultClass_cases (d : Dev) (f : IngFrame) : defaultClass d f = 1 ∨ defaultClass d f = 2 ∨ defaultClass d f = 4 := by
  unfold defaultClass
  split
  · exact .inr (.inr rfl)
  · split
    · exact .inr (.inl rfl)
    · exact .inl rfl

variable {d : Dev} {f : IngFrame}

theorem route_default (h : d.rd R.RTE_CFG_en = 0 ∨ (parse f.bytes).ip = 0 ∨ d.keyOf f.port f.sp (parse f.bytes) = none) :
    d.route f = d.defaultAction f (defaultClass d f) := by
  rw [Dev.route, defaultClass]
  by_cases hen : d.rd R.RTE_CFG_en = 0
  · rw [if_pos hen, if_pos hen]
  · rw [if_neg hen, if_neg hen]
    by_cases hip : (parse f.bytes).ip = 0
    · rw [if_pos hip, if_pos hip]
    · rw [if_neg hip, if_neg hip, (h.resolve_left hen).resolve_left hip]

/-- The device once a frame whose key is not cached has been counted (RTE_CNT 0, and 2 when its key waits for no lookup). -/
def missCounted (d : Dev) (key : Nat) : Dev := if d.keyWaits key then d.rteCount 0 else (d.rteCount 0).rteCount 2

theorem route_miss {key : Nat} (hen : d.rd R.RTE_CFG_en ≠ 0) (hip : (parse f.bytes).ip ≠ 0)
    (hkey : d.keyOf f.port f.sp (parse f.bytes) = some key) (hc : d.cachedEntry key = none) (hn : d.cachedNeg key = false) :
    d.route f = (missCounted d key).enterMiss f key := by
  have hc' : (d.rteCount 0).cachedEntry key = none := (cachedEntry_congr (by rfl) (by rfl) key).trans hc
  have hn' : (d.rteCount 0).cachedNeg key = false := (cachedNeg_congr (by rfl) key).trans hn
  rw [Dev.route, if_neg hen, if_neg hip, hkey, missCounted]
  show (if d.keyWaits key then _ else _) = _
  split
  next => rfl
  next => 
    rw [hc']
    exact if_neg (by rw [hn']; decide)

theorem missCounted_within (d : Dev) (key : Nat) : RegsWithin (0x204000 ≤ ·) d (missCounted d key) := by
  have hk (k : Nat) : 0x204000 ≤ R.RTE_CNT_count.key [k] := by rw [rteCountKey]; omega
  exact .ite ((RegsWithin.refl _ d).wr (hk 0) _) (((RegsWithin.refl _ d).wr (hk 0) _).wr (hk 2) _)

theorem missCounted_count (d : Dev) (key : Nat) :
    (missCounted d key).rd R.RTE_CNT_count [0] = (d.rd R.RTE_CNT_count [0] + 1) % 2 ^ 64 := by
  unfold missCounted
  split
  · exact rd_wr ..
  · exact (rd_wr_ne _ _ _ _ _ _ (by rw [rteCountKey, rteCountKey]; decide)).trans (rd_wr ..)

/-! ### The miss queues -/

theorem missKeys {q p : Nat} (hq : q < 2) (hp : p < 8) : R.RTE_MISS_LIM_level.key [p] < 0x204000 ∧
    R.RTE_MISS_OCC_frames.key [q] < 0x204000 ∧ R.RTE_MISS_DROP_count.key [q, p] < 0x204000 := by
  have hlim : R.RTE_MISS_LIM_level.key [p] = 0x200800 + 32 * p := key_one rfl p
  have hocc : R.RTE_MISS_OCC_frames.key [q] = 0x200A00 + 64 * q := key_one rfl q
  have hdrop : R.RTE_MISS_DROP_count.key [q, p] = 0x203000 + 512 * q + 64 * p := key_two rfl q p
  omega

/-- `e` differs from `d` in the occupancy of the miss queues, their storms and the event block at most. -/
structure MissOccOnly (d e : Dev) : Prop where
  eq : e = { d with regs := e.regs, evt := e.evt, rte := { d.rte with storm := e.rte.storm } }
  regs : ∀ k, 0x201000 ≤ k → k < 0x600000 → ∀ x, tget x e.regs k = tget x d.regs k

namespace MissOccOnly

variable {d e x : Dev}

theorem trans (h : MissOccOnly d e) (g : MissOccOnly e x) : MissOccOnly d x :=
  ⟨by rw [g.eq, h.eq], fun k hlo hhi y => (g.regs k hlo hhi y).trans (h.regs k hlo hhi y)⟩

theorem ite {c : Prop} [Decidable c] {x y : Dev} (hx : MissOccOnly d x) (hy : MissOccOnly d y) : MissOccOnly d (if c then x else y) := by
  split
  · exact hx
  · exact hy

theorem wr (h : MissOccOnly d e) {f : Field} {ix : List Nat} (hk : f.key ix < 0x201000) (v : Nat) : MissOccOnly d (e.wr f ix v) :=
  h.trans ⟨rfl, fun _ hlo _ _ => tget_tset_ne _ _ _ _ _ (by omega)⟩

theorem storm (h : MissOccOnly d e) (g : Table Bool → Table Bool) :
    MissOccOnly d (e.withRte fun r => { r with storm := g r.storm }) :=
  h.trans ⟨rfl, fun _ _ _ _ => rfl⟩

theorem raise (h : MissOccOnly d e) {src : Nat} (hs : src < 320) (info : Nat) : MissOccOnly d (e.raise src info) := by
  have g := raise_eventsOnly e hs info
  exact h.trans ⟨by rw [g.eq], fun k _ hhi => g.regs k (by omega)⟩

end MissOccOnly

theorem setMissOcc_only {q : Nat} (hq : q < 2) (n : Nat) (d : Dev) : MissOccOnly d (d.setMissOcc q n) := by
  have hf : R.RTE_MISS_OCC_frames.key [q] = 0x200A00 + 64 * q := key_one rfl q
  have hp : R.RTE_MISS_OCC_peak.key [q] = 0x200A20 + 64 * q := key_one rfl q
  unfold Dev.setMissOcc
  extract_lets +onlyGivenNames d1 d2
  have h1 : MissOccOnly d d1 := .wr ⟨rfl, fun _ _ _ _ => rfl⟩ (by omega) n
  have h2 : MissOccOnly d d2 := .ite (h1.wr (by omega) n) h1
  exact .ite ((h2.storm (tset false · q true)).raise (by decide) q) (.ite (h2.storm (tset false · q false)) h2)

/-- A frame put in the miss queue of its port, its key in flight. -/
def missQueued (d : Dev) (f : IngFrame) (key : Nat) : Dev :=
  d.withRte fun r => { r with
    missQ := tset [] r.missQ f.port (tget [] r.missQ f.port ++ [(f, key)])
    inflight := if key ∈ r.inflight then r.inflight else r.inflight ++ [key] }

section
variable {key : Nat} {limit : Nat} (hlimit : limit = min 65536 (d.rd R.RTE_MISS_LIM_level [f.pri]))
include hlimit

theorem enterMiss_queued (hq : f.port < 2) (h : d.rd R.RTE_MISS_OCC_frames [f.port] < limit) :
    MissOccOnly (missQueued d f key) (d.enterMiss f key) := by
  rw [Dev.enterMiss, if_neg (by omega)]
  exact setMissOcc_only hq _ _

theorem enterMiss_dropped (h : limit ≤ d.rd R.RTE_MISS_OCC_frames [f.port]) : d.enterMiss f key =
    ((d.leaveIngress f).bumpWrap R.RTE_MISS_DROP_count [f.port, f.pri]).dropPri f.port f.pri :=
  if_pos (hlimit ▸ h)

theorem enterMiss_dropped_spec (hq : f.port < 2) (hp : f.pri < 8) (h : limit ≤ d.rd R.RTE_MISS_OCC_frames [f.port]) :
    (d.enterMiss f key).mem = d.mem ∧ (d.enterMiss f key).prt.ingress = d.prt.ingress ∧ (d.enterMiss f key).rte = d.rte ∧
      (d.enterMiss f key).rd R.RTE_MISS_DROP_count [f.port, f.pri] = (d.rd R.RTE_MISS_DROP_count [f.port, f.pri] + 1) % 2 ^ 64 := by
  have hkey : R.RTE_MISS_DROP_count.key [f.port, f.pri] = 0x203000 + 512 * f.port + 64 * f.pri := key_two rfl _ _
  have hleft : PortOnly d (d.leaveIngress f) := leaveIngress_port hq hp d
  have hdrop := (PortOnly.refl ((d.leaveIngress f).bumpWrap R.RTE_MISS_DROP_count [f.port, f.pri])).dropPri hq hp
  rw [enterMiss_dropped hlimit h]
  refine ⟨hdrop.mem.trans hleft.mem, hdrop.ingress.trans hleft.ingress, hdrop.rte.trans hleft.rte, ?_⟩
  rw [hdrop.rd (by omega) (by omega), Dev.bumpWrap, rd_wr, hleft.rd (by omega) (by omega)]
  rfl

end

end Sys2Proof.Machine
end

namespace Sys2Proof.Claims
open Sys2Proof.Machine

/-- The oldest frame of port `q`, taken from its buffer. -/
def frameTaken (d : Dev) (q : Nat) (rest : List IngFrame) : Dev := d.withPrt fun p => { p with ingress := tset [] p.ingress q rest }

theorem frameRoute_cons {d : Dev} {q : Nat} {f : IngFrame} {rest : List IngFrame} (h : tget [] d.prt.ingress q = f :: rest) :
    frameRoute q d = (frameTaken d q rest).route f := by
  rw [frameRoute, h, frameTaken]

/-- The frame taken has left its buffer, and memory is as it was. -/
def popped (d d' : Dev) (q : Nat) (rest : List IngFrame) : Prop := tget [] d'.prt.ingress q = rest ∧ d'.mem = d.mem

section
variable {d : Dev} {f : IngFrame} {rest : List IngFrame}

theorem popped_of {d' : Dev} (hm : d'.mem = d.mem) (hi : d'.prt.ingress = (frameTaken d f.port rest).prt.ingress) :
    popped d d' f.port rest :=
  ⟨by rw [hi]; exact tget_tset .., hm⟩

variable (hf : tget [] d.prt.ingress f.port = f :: rest)
include hf

section
variable (h : d.rd R.RTE_CFG_en = 0 ∨ (parse f.bytes).ip = 0 ∨ d.keyOf f.port f.sp (parse f.bytes) = none)
include h

theorem frameRoute_default : frameRoute f.port d = (frameTaken d f.port rest).defaultAction f (defaultClass d f) :=
  (frameRoute_cons hf).trans (route_default h)

variable (hq : f.port < 2) (hp : f.pri < 8)
include hq hp

theorem frameRoute_drover (hk : d.rd R.RTE_DEFAULT_kind [defaultClass d f] = 1) (hid : d.rd R.RTE_DEFAULT_id [defaultClass d f] < 96) :
    popped d (frameRoute f.port d) f.port rest ∧ tget [] (frameRoute f.port d).med.drvIn (d.rd R.RTE_DEFAULT_id [defaultClass d f]) =
      tget [] d.med.drvIn (d.rd R.RTE_DEFAULT_id [defaultClass d f]) ++
        [{ frame := { f with bytes := f.bytes.take (f.bytes.length - 4) } }] := by
  have hleft := leaveIngress_port hq hp (frameTaken d f.port rest)
  have hpush := defaultAction_drover (d := frameTaken d f.port rest) hq hp (defaultClass_cases d f) hk hid
  rw [frameRoute_default hf h, hpush]
  refine ⟨popped_of hleft.mem hleft.ingress, (tget_tset ..).trans ?_⟩
  rw [hleft.med]
  rfl

theorem frameRoute_drop (hk : d.rd R.RTE_DEFAULT_kind [defaultClass d f] = 0) :
    popped d (frameRoute f.port d) f.port rest ∧ (frameRoute f.port d).med = d.med := by
  have hleft := leaveIngress_port hq hp (frameTaken d f.port rest)
  rw [frameRoute_default hf h, defaultAction_drop (d := frameTaken d f.port rest) hq hp (defaultClass_cases d f) hk]
  exact ⟨popped_of hleft.mem hleft.ingress, hleft.med⟩

end

section
variable {key : Nat} (hen : d.rd R.RTE_CFG_en ≠ 0) (hip : (parse f.bytes).ip ≠ 0)
  (hkey : d.keyOf f.port f.sp (parse f.bytes) = some key) (hc : d.cachedEntry key = none) (hn : d.cachedNeg key = false)
include hen hip hkey hc hn

theorem frameRoute_miss : frameRoute f.port d = (missCounted (frameTaken d f.port rest) key).enterMiss f key := by
  rw [frameRoute_cons hf]
  exact route_miss hen hip hkey ((cachedEntry_congr (by rfl) (by rfl) key).trans hc) ((cachedNeg_congr (by rfl) key).trans hn)

variable (hq : f.port < 2) {limit : Nat} (hlimit : limit = min 65536 (d.rd R.RTE_MISS_LIM_level [f.pri]))
include hq hlimit

theorem frameRoute_queued (hp : f.pri < 8) (hocc : d.rd R.RTE_MISS_OCC_frames [f.port] < limit) :
    popped d (frameRoute f.port d) f.port rest ∧
    key ∈ (frameRoute f.port d).rte.inflight ∧
    tget [] (frameRoute f.port d).rte.missQ f.port = tget [] d.rte.missQ f.port ++ [(f, key)] ∧
    (frameRoute f.port d).rd R.RTE_CNT_count [0] = (d.rd R.RTE_CNT_count [0] + 1) % 2 ^ 64 := by
  have hx := missCounted_within (frameTaken d f.port rest) key
  have hcnt := missCounted_count (frameTaken d f.port rest) key
  rw [frameRoute_miss hf hen hip hkey hc hn]
  generalize missCounted (frameTaken d f.port rest) key = x at hx hcnt
  obtain ⟨hlim, hoccKey, -⟩ := missKeys hq hp
  have hin : MissOccOnly (missQueued x f key) (x.enterMiss f key) :=
    enterMiss_queued (hlimit.trans (by rw [hx.rd (by omega)]; rfl)) hq (by rw [hx.rd (by omega)]; exact hocc)
  have hrte : x.rte = d.rte := by rw [hx.eq, frameTaken, withPrt_rte]
  refine ⟨popped_of (by rw [hin.eq]; exact hx.mem) (by rw [hin.eq]; exact congrArg (·.prt.ingress) hx.eq), ?_, ?_, ?_⟩
  · have hfl : (x.enterMiss f key).rte.inflight = if key ∈ d.rte.inflight then d.rte.inflight else d.rte.inflight ++ [key] := by
      rw [hin.eq, missQueued, withRte_rte, hrte]
    rw [hfl]
    split
    · assumption
    · exact List.mem_append_right _ (List.mem_singleton_self _)
  · rw [hin.eq, missQueued, withRte_rte, hrte]
    exact tget_tset ..
  · have hk : R.RTE_CNT_count.key [0] = 0x204000 := rteCountKey 0
    exact (hin.regs _ (by omega) (by omega) _).trans hcnt

theorem frameRoute_full (hp : f.pri < 8) (hocc : limit ≤ d.rd R.RTE_MISS_OCC_frames [f.port]) :
    popped d (frameRoute f.port d) f.port rest ∧
    (frameRoute f.port d).rte = d.rte ∧ (frameRoute f.port d).rd R.RTE_MISS_DROP_count [f.port, f.pri] =
      (d.rd R.RTE_MISS_DROP_count [f.port, f.pri] + 1) % 2 ^ 64 := by
  have hx := missCounted_within (frameTaken d f.port rest) key
  rw [frameRoute_miss hf hen hip hkey hc hn]
  generalize missCounted (frameTaken d f.port rest) key = x at hx
  obtain ⟨hlim, hoccKey, hdropKey⟩ := missKeys hq hp
  obtain ⟨hmem, hing, hrte, hdrop⟩ := enterMiss_dropped_spec (d := x) (f := f) (key := key)
    (hlimit.trans (by rw [hx.rd (by omega)]; rfl)) hq hp (by rw [hx.rd (by omega)]; exact hocc)
  refine ⟨popped_of (hmem.trans hx.mem) (hing.trans (congrArg (·.prt.ingress) hx.eq)),
    hrte.trans (congrArg (·.rte) hx.eq), hdrop.trans ?_⟩
  rw [hx.rd (by omega)]
  rfl

end
end

end Sys2Proof.Claims

section
/-! SUPPORT. What leaves the miss queues and the keys in flight as they are: the media unit's stages and the route engine's. -/

namespace Sys2Proof.Machine

/-- The miss queues are `w` and the keys in flight are `l`. -/
def MissesAre (w : Table (List (IngFrame × Nat))) (l : List Nat) (d : Dev) : Prop := d.rte.missQ = w ∧ d.rte.inflight = l

namespace MissesAre

variable {w : Table (List (IngFrame × Nat))} {l : List Nat} {d e : Dev}

/-! ### Control flow -/

section
variable {α β : Type} {c : Prop} [Decidable c]

theorem ite {a b : Dev} (ha : MissesAre w l a) (hb : MissesAre w l b) : MissesAre w l (if c then a else b) := by
  split
  · exact ha
  · exact hb

theorem iteFst {a b : Dev × α} (ha : MissesAre w l a.1) (hb : MissesAre w l b.1) : MissesAre w l (if c then a else b).1 := by
  split
  · exact ha
  · exact hb

theorem foldl {f : Dev → α → Dev} {xs : List α} (h : MissesAre w l d) (hf : ∀ d x, MissesAre w l d → MissesAre w l (f d x)) :
    MissesAre w l (xs.foldl f d) :=
  List.foldlRecOn xs f h fun d hd x _ => hf d x hd

theorem ofFst {p : Dev × α} {a : α} (hp : p = (d, a)) (h : MissesAre w l p.1) : MissesAre w l d := by rwa [hp] at h

end

/-- What changes neither the miss queues nor the keys in flight. -/
theorem same (h : MissesAre w l d) (hw : e.rte.missQ = d.rte.missQ := by rfl) (hl : e.rte.inflight = d.rte.inflight := by rfl) :
    MissesAre w l e := ⟨hw.trans h.1, hl.trans h.2⟩

theorem ofRte (h : MissesAre w l d) (he : e.rte = d.rte) : MissesAre w l e := h.same (by rw [he]) (by rw [he])

theorem ofCache (h : MissesAre w l d) (he : CacheOnly d e) : MissesAre w l e := h.same (by rw [he]) (by rw [he])

/-! ### Registers, memory and events -/

theorem wr {f : Field} {ix : List Nat} {v : Nat} (h : MissesAre w l d) : MissesAre w l (d.wr f ix v) := h.same
theorem bump {f : Field} {ix : List Nat} {n : Nat} (h : MissesAre w l d) : MissesAre w l (d.bump f ix n) := h.same
theorem bumpWrap {f : Field} {ix : List Nat} {n : Nat} (h : MissesAre w l d) : MissesAre w l (d.bumpWrap f ix n) := h.same
theorem raise {src info : Nat} (h : MissesAre w l d) : MissesAre w l (d.raise src info) := h.ofRte (raise_rte ..)
theorem store {a n v : Nat} (h : MissesAre w l d) : MissesAre w l (d.store a n v) := h.ofRte (store_rte ..)
theorem setBytes {a : Nat} {x : List Byte} (h : MissesAre w l d) : MissesAre w l (d.setBytes a x) := h.ofRte (setBytes_rte ..)
theorem tapAcct {tenant sid port len ts : Nat} (h : MissesAre w l d) : MissesAre w l (d.tapAcct tenant sid port len ts) := h.same
theorem sendPfc {q p n : Nat} (h : MissesAre w l d) : MissesAre w l (d.sendPfc q p n) :=
  h.foldl fun _ _ h => .ite (.ite h.same h.same) h
theorem freeCells {q p n : Nat} (h : MissesAre w l d) : MissesAre w l (d.freeCells q p n) := .ite (sendPfc h.same) h.same
theorem leaveIngress {f : IngFrame} (h : MissesAre w l d) : MissesAre w l (d.leaveIngress f) := h.freeCells

/-! ### Media (chapter 05) -/

theorem medCount {k n : Nat} (h : MissesAre w l d) : MissesAre w l (d.medCount k n) := h.same
theorem count64 {a n : Nat} (h : MissesAre w l d) : MissesAre w l (d.count64 a n) := h.store

theorem sidCount {sid bytes : Nat} {drop bad : Bool} (h : MissesAre w l d) : MissesAre w l (d.sidCount sid bytes drop bad) := by
  unfold Dev.sidCount
  refine .ite h ?_
  extract_lets +onlyGivenNames _ _ _ d1 d2 d3
  have h1 : MissesAre w l d1 := .ite (medCount h.store.same) h
  have h3 : MissesAre w l d3 := .ite h1.count64.count64.count64 h1.count64.count64
  exact .ite h3.count64 h3

theorem withMed {f : MedSt → MedSt} (h : MissesAre w l d) : MissesAre w l (d.withMed f) := h.same
theorem rxStat {i lo n v : Nat} (h : MissesAre w l d) : MissesAre w l (d.rxStat i lo n v) := h.same
theorem rxBump {i lo n k : Nat} (h : MissesAre w l d) : MissesAre w l (d.rxBump i lo n k) := h.same
theorem pairStat {i lo n v : Nat} (h : MissesAre w l d) : MissesAre w l (d.pairStat i lo n v) := h.same
theorem pairBump {i lo n k : Nat} (h : MissesAre w l d) : MissesAre w l (d.pairBump i lo n k) := h.same
theorem setHist {cfg b : Nat} {on : Bool} (h : MissesAre w l d) : MissesAre w l (d.setHist cfg b on) := .ite h.same h.same
theorem clearHist {cfg size : Nat} (h : MissesAre w l d) : MissesAre w l (d.clearHist cfg size) := h.foldl fun _ _ h => h.setHist
theorem pairStart {p cfg size x : Nat} (h : MissesAre w l d) : MissesAre w l (d.pairStart p cfg size x) :=
  h.clearHist.pairStat.setHist.same
theorem setLate {p n : Nat} (h : MissesAre w l d) : MissesAre w l (d.setLate p n) := h.same
theorem pairLost {p n : Nat} (h : MissesAre w l d) : MissesAre w l (d.pairLost p n) := .ite h h.pairBump.medCount
theorem pairForward {p k : Nat} (h : MissesAre w l d) : MissesAre w l (d.pairForward p k) := h.pairBump
theorem legLive {p k : Nat} (h : MissesAre w l d) : MissesAre w l (d.legLive p k) := .ite h h.pairStat.raise

theorem slide {p cfg size x n : Nat} (h : MissesAre w l d) : MissesAre w l (d.slide p cfg size x n) := by
  induction n with
  | zero => exact h
  | succ n ih => exact .setHist (.ite ih.pairLost ih)

/-- `MissesAre` of a pair's device, as a predicate of the pair: the pairs are compared before what they hold. -/
def OfPair {α : Type} (w : Table (List (IngFrame × Nat))) (l : List Nat) (p : Dev × α) : Prop := MissesAre w l p.1

theorem OfPair.mk {α : Type} {a : α} (h : MissesAre w l d) : OfPair w l (d, a) := h

theorem OfPair.ite {α : Type} {c : Prop} [Decidable c] {a b : Dev × α} (ha : OfPair w l a) (hb : OfPair w l b) :
    OfPair w l (if c then a else b) := by
  split
  · exact ha
  · exact hb

theorem mergeFrame {p k x part : Nat} (h : MissesAre w l d) : MissesAre w l (mergeFrame p k x part d).1 := by
  show OfPair w l _
  unfold Machine.mergeFrame
  split
  refine .ite (.mk h.medCount) ?_
  extract_lets +onlyGivenNames _ d1
  have h1 : MissesAre w l d1 := h.withMed
  refine .ite (.mk h1.pairStart.pairStat.pairForward.legLive) ?_
  extract_lets +onlyGivenNames _ _ _ d2 _ d3
  have h2 : MissesAre w l d2 := .ite h1.pairLost.clearHist h1.slide
  refine .ite (.mk h2.setHist.pairStat.setLate.pairForward.legLive) ?_
  refine .ite (.ite (.mk h1.pairStart.pairBump.raise.pairForward.legLive) (.mk h1.pairBump.setLate.medCount)) ?_
  exact .ite (.mk h1.setLate.pairBump.medCount.legLive) (.mk h1.setLate.setHist.pairForward.legLive)

theorem setSlot {ctx k : Nat} {s : StoreSlot} (h : MissesAre w l d) : MissesAre w l (d.setSlot ctx k s) := h.same
theorem setCur {ctx : Nat} {c : StoreCur} (h : MissesAre w l d) : MissesAre w l (d.setCur ctx c) := h.same
theorem storeDrop {ctx lo k : Nat} (h : MissesAre w l d) : MissesAre w l (d.storeDrop ctx lo k) := h.rxBump.medCount
theorem writeRecord {cfg k j : Nat} {f : IngFrame} {body : List Byte} {leg xseq ts : Nat} (h : MissesAre w l d) :
    MissesAre w l (d.writeRecord cfg k j f body leg xseq ts) := h.store.setBytes

theorem storeFrame {ctx : Nat} {f : IngFrame} {x leg : Nat} (h : MissesAre w l d) : MissesAre w l (storeFrame ctx f x leg d) := by
  unfold Machine.storeFrame
  extract_lets +onlyGivenNames _ _ _ _ _ _ _ _ _ place
  have hplace : ∀ d k, MissesAre w l d → MissesAre w l (place d k) := fun _ _ h =>
    .ite h.storeDrop (.ite h.storeDrop h.writeRecord.setSlot.setCur)
  refine .ite h.storeDrop ?_
  split
  · exact hplace _ _ h
  · refine .ite (.ite h.setCur h) (.ite h.storeDrop ?_)
    split
    · exact .ite h.storeDrop h.storeDrop.setCur.raise
    · exact hplace _ _ h.setSlot.setCur.rxStat

theorem rxPass {ctx ts : Nat} (h : MissesAre w l d) : MissesAre w l (d.rxPass ctx ts) := by
  unfold Dev.rxPass
  extract_lets +onlyGivenNames _ d1
  have h1 : MissesAre w l d1 := h.same
  exact .ite h1.rxStat.raise h1

theorem seqExtend {ctx pair : Nat} {p27 : Bool} {r : Rtp} (h : MissesAre w l d) : MissesAre w l (d.seqExtend ctx pair p27 r).1 := by
  unfold Dev.seqExtend
  split
  extract_lets +onlyGivenNames _ _ _ _ _ _ _ d1 d2
  have h1 : MissesAre w l d1 := .ite h.rxBump h
  have h2 : MissesAre w l d2 := .ite h1.rxStat h1
  exact .iteFst h h2.rxStat

/-! ### The route engine (chapter 04) -/

theorem rteCount {k n : Nat} (h : MissesAre w l d) : MissesAre w l (d.rteCount k n) := h.same
theorem setEntry {i v : Nat} (h : MissesAre w l d) : MissesAre w l (d.setEntry i v) := h.store
theorem putStream {i image : Nat} (h : MissesAre w l d) : MissesAre w l (d.putStream i image) := h.setEntry.store
theorem holdSid {sid i : Nat} (h : MissesAre w l d) : MissesAre w l (d.holdSid sid i) := h.same
theorem loadLine {set : Nat} {t : LineTag} {pin hit : Bool} (h : MissesAre w l d) : MissesAre w l (d.loadLine set t pin hit) :=
  h.ofCache ((CacheOnly.refl d).loadLine ..)
theorem dropLine {set : Nat} {t : LineTag} (h : MissesAre w l d) : MissesAre w l (d.dropLine set t) :=
  h.ofCache ((CacheOnly.refl d).dropLine ..)
theorem pushDrv {n : Nat} {r : RxFrame} (h : MissesAre w l d) : MissesAre w l (d.pushDrv n r) := h.same

theorem defaultAction {f : IngFrame} {c : Nat} (h : MissesAre w l d) : MissesAre w l (d.defaultAction f c) := by
  unfold Dev.defaultAction
  extract_lets +onlyGivenNames d1
  have h1 : MissesAre w l d1 := h.leaveIngress
  refine .ite h1.medCount (.ite h1.rteCount ?_)
  split
  · exact h1.pushDrv
  · exact h1.same
  · exact .ite h1.medCount h1.storeFrame
  · exact h1

theorem moveDest {img old new : Nat} (h : MissesAre w l d) : MissesAre w l (d.moveDest img old new) :=
  h.foldl fun _ _ h => .ite h.setEntry h

theorem deliverDrover {img : Nat} {r : RxFrame} {marker : Bool} (h : MissesAre w l d) : MissesAre w l (d.deliverDrover img r marker) := by
  unfold Dev.deliverDrover
  split
  · exact h.pushDrv
  · refine .ite ?_ (pushDrv (.ite h.same h))
    extract_lets +onlyGivenNames d1 d2 _
    have h1 : MissesAre w l d1 := h.same
    have h2 : MissesAre w l d2 := h1.moveDest.bumpWrap
    exact h2.same.pushDrv.pushDrv

theorem handOn {img : Nat} {f : IngFrame} {x : Nat} (h : MissesAre w l d) : MissesAre w l (d.handOn img f x) := by
  unfold Dev.handOn
  extract_lets +onlyGivenNames _ _ d1 _ _
  have h1 : MissesAre w l d1 := .ite h.tapAcct h
  split
  · exact h1.deliverDrover
  · exact h1.same
  · exact h1.storeFrame
  · exact h1.same
  · exact h1

theorem routeBy {f : IngFrame} {img : Nat} (h : MissesAre w l d) : MissesAre w l (d.routeBy f img) := by
  unfold Dev.routeBy
  extract_lets +onlyGivenNames d1
  have h1 : MissesAre w l d1 := h.leaveIngress
  refine .ite h1.sidCount.medCount (.ite h1.sidCount.rxBump.medCount ?_)
  extract_lets +onlyGivenNames d2 _
  have h2 : MissesAre w l d2 := h1.rxPass
  split
  next d3 _ hd3 =>
  have h3 : MissesAre w l d3 := .ofFst hd3 (.iteFst h2 h2.seqExtend)
  split
  next d4 _ hd4 =>
  have h4 : MissesAre w l d4 := .ofFst hd4 (.iteFst h3.mergeFrame h3)
  exact .ite h4.sidCount (.ite h4.sidCount (.ite h4.sidCount.rteCount h4.sidCount.handOn))

theorem routeEcc {rod : Nat} (h : MissesAre w l d) : MissesAre w l (d.routeEcc rod) := h.wr.wr.bump.raise
theorem countStale {i t : Nat} (h : MissesAre w l d) : MissesAre w l (d.countStale i t) := h.foldl fun _ _ h => .ite h.bumpWrap h

theorem markHit {i : Nat} (h : MissesAre w l d) : MissesAre w l (d.markHit i) := by
  unfold Dev.markHit
  extract_lets +onlyGivenNames _ _
  split
  · exact h.same
  · exact h.setEntry

theorem useEntry {f : IngFrame} {i : Nat} (h : MissesAre w l d) : MissesAre w l (d.useEntry f i) := by
  unfold Dev.useEntry
  extract_lets +onlyGivenNames d1
  have h1 : MissesAre w l d1 := h.markHit
  split
  · exact h1.rteCount.routeEcc.defaultAction
  · exact h1.defaultAction
  · exact routeBy (.ite h1.countStale h1)

theorem learn {q key : Nat} (h : MissesAre w l d) : MissesAre w l (d.learn q key).1 := by
  unfold Dev.learn
  extract_lets +onlyGivenNames _ _ no
  have hno : ∀ d, MissesAre w l d → MissesAre w l (no d).1 := fun _ h => h.rteCount
  refine .iteFst (hno _ h) ?_
  split
  · exact hno _ h
  · refine .iteFst (hno _ h) ?_
    split
    · exact hno _ h.raise
    · extract_lets +onlyGivenNames d1 _ d2
      have h1 : MissesAre w l d1 := h.putStream.holdSid.dropLine
      clear_value d1
      have h2 : MissesAre w l d2 := h1.same
      exact h2.rteCount.raise

theorem loadFound {i : Nat} (h : MissesAre w l d) : MissesAre w l (d.loadFound i) := by
  unfold Dev.loadFound
  exact .ite h (.ite h.loadLine.loadLine h.loadLine)

end MissesAre

end Sys2Proof.Machine
end

section
/-! SUPPORT. The end of a table lookup: the frames of its key leave the miss queues, the others keep their order (O18). -/

namespace Sys2Proof.Machine

open Sys2Proof.Claims

/-- The frames of other keys in the miss queue of port `q`. -/
def othersWait (d : Dev) (key q : Nat) : List (IngFrame × Nat) := (tget [] d.rte.missQ q).filter fun x => x.2 != key

/-- The miss queues without the frames of a key. -/
def missQWithout (d : Dev) (key : Nat) : Table (List (IngFrame × Nat)) :=
  tset [] (tset [] d.rte.missQ 0 (othersWait d key 0)) 1 (othersWait d key 1)

/-- What a lookup that has ended leaves waiting. -/
def KeyTaken (d : Dev) (key : Nat) (e : Dev) : Prop := MissesAre (missQWithout d key) (d.rte.inflight.filter (· ≠ key)) e

theorem MissOccOnly.misses {d e : Dev} (h : MissOccOnly d e) {w : Table (List (IngFrame × Nat))} {l : List Nat}
    (hd : MissesAre w l d) : MissesAre w l e := hd.same (by rw [h.eq]) (by rw [h.eq])

theorem takeWaiting_misses (d : Dev) (key : Nat) : KeyTaken d key (d.takeWaiting key).1 :=
  (setMissOcc_only (by decide) _ _).misses ((setMissOcc_only (by decide) _ _).misses ⟨rfl, rfl⟩)

theorem missLookupDone_misses {d : Dev} {n key : Nat} (h : d.rte.inflight[n]? = some key) : KeyTaken d key (missLookupDone n d) := by
  rw [missLookupDone, h, KeyTaken]
  dsimp only
  have h1 := takeWaiting_misses d key
  unfold KeyTaken at h1
  split
  · exact h1.routeEcc.foldl fun _ _ h => h.rteCount.defaultAction
  · exact h1.rteCount.loadFound.foldl fun _ _ h => h.useEntry
  next reads _ =>
    have h2 := (h1.rteCount (k := 5) (n := reads)).rteCount (k := 3) (n := 1)
    split
    · exact h2.loadLine.foldl fun _ _ h => h.defaultAction
    · split
      · exact h2.learn.loadLine.foldl fun _ _ h => h.defaultAction
      · exact h2.learn.loadFound.foldl fun _ _ h => h.useEntry

theorem missQWithout_at (d : Dev) (key : Nat) {q : Nat} (hq : q < 2) : tget [] (missQWithout d key) q = othersWait d key q := by
  rcases (by omega : q = 0 ∨ q = 1) with rfl | rfl
  · exact (tget_tset_ne _ _ _ _ _ (by decide)).trans (tget_tset ..)
  · exact tget_tset ..

namespace KeyTaken

variable {d e : Dev} {key q : Nat} (h : KeyTaken d key e)
include h

theorem not_inflight : key ∉ e.rte.inflight := by simp [h.2]

theorem waitsFor_eq (hq : q < 2) (k : Nat) : waitsFor e q k = (othersWait d key q).filter fun x => x.2 == k := by
  rw [waitsFor, h.1, missQWithout_at d key hq]

theorem waitsFor_key (hq : q < 2) : waitsFor e q key = [] := by
  rw [h.waitsFor_eq hq, othersWait, List.filter_filter, List.filter_eq_nil_iff]
  simp

theorem waitsFor_other (hq : q < 2) {k : Nat} (hk : k ≠ key) : waitsFor e q k = waitsFor d q k := by
  rw [h.waitsFor_eq hq, othersWait, List.filter_filter, waitsFor]
  refine List.filter_congr fun x _ => ?_
  by_cases hx : x.2 = k
  · simp [hx, hk]
  · simp [hx]

end KeyTaken

end Sys2Proof.Machine
end

section
/-! SUPPORT. The route engine's setup: RTE_CFG, the table's clear, the learn log (O18). -/

namespace Sys2Proof.Machine

open Sys2Proof.Claims

/-- en and active written. -/
def enWritten (d : Dev) (v : Nat) : Dev := (d.wr R.RTE_CFG_en [] v).wr R.RTE_STATUS_active [] v

theorem enWritten_rd (d : Dev) (v : Nat) : (enWritten d v).rd R.RTE_CFG_en = v % 2 ∧ (enWritten d v).rd R.RTE_STATUS_active = v % 2 ∧
    (enWritten d v).rd R.RTE_CFG_hash_log = d.rd R.RTE_CFG_hash_log :=
  ⟨(rd_wr_ne _ _ _ _ _ _ (by decide)).trans (rd_wr ..), rd_wr ..,
    (rd_wr_ne _ _ _ _ _ _ (by decide)).trans (rd_wr_ne _ _ _ _ _ _ (by decide))⟩

section
variable {d : Dev} {r : Req} {v : Nat} (hl : d.locked r = false)
include hl

/-- With the engine on only en is written. -/
theorem writeRteCfg_on (hen : d.rd R.RTE_CFG_en = 1) :
    writeRteCfg r (ones 32) v d = (enWritten d v, Sts.busy) := by
  have hb : bits (ones 32) 1 5 ≠ 0 := by decide
  have hm : (ones 32).testBit 0 = true := by decide
  simp [writeRteCfg, enWritten, hl, hen, hb, hm]

variable (hen : d.rd R.RTE_CFG_en = 0)
include hen

/-- The device once a write of RTE_CFG with the engine off has set hash_log. -/
def hashWritten (d : Dev) (v : Nat) : Dev := d.wr R.RTE_CFG_hash_log [] (d.rd R.RTE_CFG_hash_log &&& (31 - 31) ||| bits v 1 5 &&& 31)

/-- Whether a write that sets en is refused: the table clears, or memory is not ready. -/
theorem writeRteCfg_off : writeRteCfg r (ones 32) v d =
    if v.testBit 0 = true ∧ (d.flag R.RTE_STATUS_clearing = true ∨ d.rd R.SYS_READY_ddr_ecc = 0) then
      ((hashWritten d v).wr R.RTE_STATUS_en_refused [] 1, Sts.busy)
    else (enWritten (hashWritten d v) v, Sts.ok) := by
  have hb : bits (ones 32) 1 5 = 31 := by decide
  have hm : (ones 32).testBit 0 = true := by decide
  have hc : (hashWritten d v).flag R.RTE_STATUS_clearing = d.flag R.RTE_STATUS_clearing :=
    congrArg (· != 0) (rd_wr_ne _ _ _ _ _ _ (by decide))
  have hr : (hashWritten d v).rd R.SYS_READY_ddr_ecc = d.rd R.SYS_READY_ddr_ecc := rd_wr_ne _ _ _ _ _ _ (by decide)
  rw [← hc, ← hr]
  simp only [writeRteCfg, hl, hen, hb, hm, hashWritten, Bool.false_eq_true, if_false, ne_eq, Nat.reduceEqDiff, not_false_eq_true,
    and_self, true_and, if_true, Nat.zero_ne_one, and_false]
  rfl

theorem writeRteCfg_enables (h : v.testBit 0 = false ∨ (d.rd R.RTE_STATUS_clearing = 0 ∧ d.rd R.SYS_READY_ddr_ecc ≠ 0)) :
    writeRteCfg r (ones 32) v d = (enWritten (hashWritten d v) v, Sts.ok) := by
  rw [writeRteCfg_off hl hen, if_neg]
  rintro ⟨hv, hbad⟩
  obtain ⟨hcl, hecc⟩ := h.resolve_left (by rw [hv]; decide)
  rw [Dev.flag, hcl] at hbad
  exact hecc (hbad.resolve_left (by decide))

theorem writeRteCfg_refused (hv : v.testBit 0 = true) (h : d.rd R.RTE_STATUS_clearing = 1 ∨ d.rd R.SYS_READY_ddr_ecc = 0) :
    writeRteCfg r (ones 32) v d = ((hashWritten d v).wr R.RTE_STATUS_en_refused [] 1, Sts.busy) := by
  rw [writeRteCfg_off hl hen, if_pos]
  exact ⟨hv, h.imp_left fun hc => by rw [Dev.flag, hc]; rfl⟩

omit hl hen in
theorem hashWritten_rd (d : Dev) (v : Nat) : (hashWritten d v).rd R.RTE_CFG_hash_log = v / 2 % 32 := by
  have h : bits v 1 5 &&& 31 = bits v 1 5 % 32 := Nat.and_two_pow_sub_one_eq_mod _ 5
  rw [hashWritten, rd_wr, Nat.sub_self, Nat.and_zero, Nat.zero_or, h]
  simp [bits, R.RTE_CFG_hash_log]

end

theorem enRefused_rd (d : Dev) (v : Nat) :
    ((hashWritten d v).wr R.RTE_STATUS_en_refused [] 1).rd R.RTE_CFG_en = d.rd R.RTE_CFG_en ∧
      ((hashWritten d v).wr R.RTE_STATUS_en_refused [] 1).rd R.RTE_STATUS_en_refused = 1 :=
  ⟨(rd_wr_ne _ _ _ _ _ _ (by decide)).trans (rd_wr_ne _ _ _ _ _ _ (by decide)), rd_wr ..⟩

/-! ### The clear -/

theorem tableClear_on {d : Dev} (h : d.rd R.RTE_CFG_en = 1) : tableClear d = (d, Sts.busy) := if_pos h

/-- The device whose table of entries and digests is zeroed. -/
def tableZeroed (d : Dev) : Dev :=
  { d with
    mem := d.mem.filter fun c => !decide (0x1000000000 ≤ c.1 ∧ c.1 < 0x1042000000)
    ddr := { d.ddr with bad := d.ddr.bad.filter fun a => !decide (0x1000000000 ≤ a ∧ a < 0x1042000000) } }

theorem tableClear_off {d : Dev} (h : d.rd R.RTE_CFG_en = 0) : tableClear d =
    ((((tableZeroed d).withRte fun r => { r with cache := [], sids := [] }).wr R.RTE_STATUS_clearing [] 1).wr R.RTE_STATUS_streams [] 0,
      Sts.ok) :=
  if_neg (by rw [h]; decide)

theorem tableZeroed_byte (d : Dev) (a : Nat) :
    (tableZeroed d).byte a = if 0x1000000000 ≤ a ∧ a < 0x1042000000 then 0 else d.byte a := by
  have h := tget_filter (memDefault a) d.mem (fun a => decide (0x1000000000 ≤ a ∧ a < 0x1042000000)) a
  rw [Dev.byte, tableZeroed, h]
  by_cases ha : 0x1000000000 ≤ a ∧ a < 0x1042000000
  · rw [if_pos ha, if_pos (decide_eq_true ha), memDefault, if_neg (by omega)]
  · rw [if_neg ha, if_neg (by simpa using ha), Dev.byte]

theorem clearing_rd (d : Dev) :
    ((d.wr R.RTE_STATUS_clearing [] 1).wr R.RTE_STATUS_streams [] 0).rd R.RTE_STATUS_clearing = 1 ∧
      ((d.wr R.RTE_STATUS_clearing [] 1).wr R.RTE_STATUS_streams [] 0).rd R.RTE_STATUS_streams = 0 :=
  ⟨(rd_wr_ne _ _ _ _ _ _ (by decide)).trans (rd_wr ..), rd_wr ..⟩

theorem ofLe_zeros {l : List Byte} (h : ∀ b ∈ l, b = 0) : ofLe l = 0 := by
  induction l with
  | nil => rfl
  | cons b l ih => simp [ofLe, h b, ih fun x hx => h x (List.mem_cons_of_mem _ hx)]

theorem load_zeros {d : Dev} {a n : Nat} (h : ∀ k, k < n → d.byte (a + k) = 0) : d.load a n = 0 :=
  ofLe_zeros (by simpa [Dev.bytes] using h)

theorem tableZeroed_load (d : Dev) {a n : Nat} (hlo : 0x1000000000 ≤ a) (hhi : a + n ≤ 0x1042000000) : (tableZeroed d).load a n = 0 :=
  load_zeros fun k hk => (tableZeroed_byte d (a + k)).trans (if_pos (by omega))

theorem tableZeroed_entry (d : Dev) {i : Nat} (h : i < 2 ^ 24) : (tableZeroed d).entry i = 0 :=
  tableZeroed_load d (by unfold entryAddr; omega) (by unfold entryAddr; omega)

theorem tableZeroed_digest (d : Dev) {r k : Nat} (hr : r < 2 ^ 21) (hk : k < 8) : (tableZeroed d).digest r k = 0 :=
  tableZeroed_load d (by unfold digestAddr; omega) (by unfold digestAddr; omega)

/-! ### The learn log -/

theorem readLearnLog_nil {d : Dev} (h : d.rte.learnLog = []) (u : Nat) : readLearnLog u d = (d, 0) := by
  rw [readLearnLog, h]

theorem readLearnLog_cons {d : Dev} {key i : Nat} {l : List (Nat × Nat)} (h : d.rte.learnLog = (key, i) :: l) (u : Fin 8) :
    readLearnLog u d = ({ d with rte := { d.rte with learnLog := if u = 5 then l else (key, i) :: l } },
      (key + i * 2 ^ 320 + 2 ^ 344) / 2 ^ (64 * (u : Nat)) % 2 ^ 64) := by
  rw [readLearnLog, h]
  dsimp only
  by_cases hu : u = 5
  · subst hu
    rfl
  · have hne : (u : Nat) ≠ 5 := fun h => hu (Fin.ext h)
    simp only [if_neg hu, if_neg hne]
    rw [← h]
    rfl

end Sys2Proof.Machine

namespace Sys2Proof.Claims
open Sys2Proof.Machine

/-- Settles O18: by the frame's class, by its key, by the end of its key's lookup, and by each of the setup's cases. -/
theorem framesThroughTheRouteEngine : Obligations.FramesThroughTheRouteEngine := by
  intro d hon
  have does {c : Instr} {g : Dev → Dev} (hc : ∀ x, exec c x = Machine.run x g) : Does c d (g d) := does_of_run hon hc
  have ends {c : Instr} {inp : Fin 101} {desc : Bool} {g : Dev → Dev × Nat} {v : Nat} {e : Dev} {st : Nat} (hrun : d.island 78 = 0)
      (hc : ∀ s, exec c s = runOn 78 ⟨inp, desc⟩ s fun d => (g d).1.complete ⟨inp, desc⟩ (g d).2 v) (h : g d = (e, st))
      (hst : st ≠ 1 ∧ st ≠ 3 ∧ st ≠ 4) : Does c d (said e inp st v) := by
    have := does_runOn hon hrun hc
    rwa [h, complete_accepted _ _ _ hst] at this
  refine ⟨fun q hq => ?_, fun q f rest hf hport hp => ?_, fun n key hkey => ?_, fun n hn => ?_, fun inp desc v hrun hl => ?_,
    fun inp hrun => ?_, does (c := .routeClearDone) fun _ => rfl, fun inp u hrun => ?_⟩
  · have h := does (c := .frameRoute q) fun _ => rfl
    rwa [frameRoute, hq] at h
  · have hq : f.port < 2 := hport ▸ q.isLt
    have hdoes := does (c := .frameRoute q) fun _ => rfl
    rw [← hport] at hf hdoes ⊢
    refine ⟨fun h => ⟨fun hk hid => ⟨_, hdoes, frameRoute_drover hf h hq hp hk hid⟩,
        fun hk => ⟨_, hdoes, frameRoute_drop hf h hq hp hk⟩⟩,
      fun key hen hip hkey hc hn => ⟨fun hocc => ⟨_, hdoes, frameRoute_queued hf hen hip hkey hc hn hq rfl hp hocc⟩,
        fun hocc => ⟨_, hdoes, frameRoute_full hf hen hip hkey hc hn hq rfl hp hocc⟩⟩⟩
  · have h := missLookupDone_misses hkey
    exact ⟨_, does fun _ => rfl, h.not_inflight, fun q hq => ⟨h.waitsFor_key hq, fun k hk => h.waitsFor_other hq hk⟩⟩
  · have h := does (c := .missLookupDone n) fun _ => rfl
    rwa [missLookupDone, hn] at h
  · obtain ⟨hon1, hon2, hon3⟩ := enWritten_rd d v.toNat
    obtain ⟨hoff1, hoff2, hoff3⟩ := enWritten_rd (hashWritten d v.toNat) v.toNat
    obtain ⟨hre1, hre2⟩ := enRefused_rd d v.toNat
    exact ⟨fun hen h => ⟨_, ends hrun (fun _ => rfl) (writeRteCfg_enables hl hen h) (by decide), rfl,
        hoff3.trans (hashWritten_rd d v.toNat), hoff1, hoff2, rfl⟩,
      fun hen hv h => ⟨_, ends hrun (fun _ => rfl) (writeRteCfg_refused hl hen hv h) (by decide), rfl,
        hre1.trans hen, hre2⟩,
      fun hen => ⟨_, ends hrun (fun _ => rfl) (writeRteCfg_on hl hen) (by decide), rfl, hon3, hon1⟩⟩
  · obtain ⟨hcl, hst⟩ := clearing_rd ((tableZeroed d).withRte fun r => { r with cache := [], sids := [] })
    exact ⟨fun hen => ends hrun (fun _ => rfl) (tableClear_on hen) (by decide),
      fun hen => ⟨_, ends hrun (fun _ => rfl) (tableClear_off hen) (by decide), rfl, hcl, hst, rfl,
        fun i hi => tableZeroed_entry d hi, fun r k hr hk => tableZeroed_digest d hr hk,
        fun a ha => (tableZeroed_byte d a).trans (if_neg (by omega))⟩⟩
  · have h := does_runOn (c := .learnLogRead inp u) hon hrun fun _ => rfl
    rw [complete_accepted _ _ _ (by decide)] at h
    exact ⟨fun hlog => by rwa [readLearnLog_nil hlog] at h, fun key i l hlog _ _ => by rwa [readLearnLog_cons hlog] at h⟩

end Sys2Proof.Claims
end

section
/-! SUPPORT. Instructions that block, and faults with an address (O7). -/

namespace Sys2Proof.Machine

open Sys2Proof.Claims

variable {d : Dev} {i : Issue} {w : Nat}

/-! ### Blocking (R196) -/

theorem isSemAcq_of_opKey {key : Nat} (hk : opKey w = some key) (h : key / 256 ≠ 0x33) : isSemAcq w = false := by
  rw [isSemAcq, (major_of_opKey hk).1]
  simp [h]

/-- An instruction other than SEM.ACQ whose meaning blocks. -/
theorem does_blocked {c : Instr} {key fine : Nat} {f : QOp} (h : Fetches d i w) (hk : opKey w = some key) (hsem : key / 256 ≠ 0x33)
    (hc : ∀ s, exec c s = issue i key f s fine)
    (hf : f (ctxOf i w fine) (devOf d i w) (thrOf d i w) = .block (devOf d i w) (thrOf d i w)) : Does c d (blocked d i w) := by
  have := does_issue h hk hc
  rw [hf] at this
  simpa [Dev.retire, ctxOf, isSemAcq_of_opKey hk hsem, devOf, thrOf, blocked] using this

theorem thrState_setThrState {n t : Nat} (ht : t < 8) (d : Dev) {x : Nat} (hx : x < 4) : (d.setThrState n t x).thrState n t = x := by
  have h : bits (putBits (d.rd R.DRV_STATUS_thr_state [n]) (2 * t) 2 x % 2 ^ 16) (2 * t) 2 = x := by
    refine Nat.eq_of_testBit_eq fun k => ?_
    rw [testBit_bits, Nat.testBit_mod_two_pow, testBit_putBits]
    by_cases hk : k < 2
    · rw [if_pos (by omega), Nat.add_sub_cancel_left, decide_eq_true hk, decide_eq_true (by omega), Bool.true_and, Bool.true_and]
    · have hlt : x < 2 ^ k := Nat.lt_of_lt_of_le (show x < 2 ^ 2 from hx) (Nat.pow_le_pow_right (by decide) (Nat.not_lt.mp hk))
      rw [decide_eq_false hk, Bool.false_and, Nat.testBit_lt_two_pow hlt]
  rw [Dev.thrState, Dev.setThrState, rd_wr]
  exact h

/-! ### Faults with an address (R222) -/

/-- The device once a fault with an address is recorded whole, counted, and set as a cause. -/
def faultRecordedAt (d : Dev) (n t code a : Nat) : Dev :=
  ((((faultNoted d n t code).wr R.DRV_THR_FAULT_addr [n, t] a).wr R.DRV_THR_FAULT_time [n, t]
    ((faultNoted d n t code).wr R.DRV_THR_FAULT_addr [n, t] a).nowRaw).drvCount n 10).drvCause n 0

theorem fault_at_eq (d : Dev) (n t code a : Nat) : d.fault n t code (some a) =
    let e := faultRecordedAt d n t code a
    let x := d.thr n t
    if d.flag R.DRV_THR_FAULT_active [n, t] = false ∧ (e.rd R.DRV_CFG_trap_en [n]).testBit t then
      ((e.wr R.DRV_THR_FAULT_active [n, t] 1).setThr n t
        { x with pc := e.rd R.DRV_THR_VEC_trap [n, t] / 4 * 4, wait := none, asked := false, cmp := none }).setThrState n t 1
    else (e.setThr n t { x with wait := none, asked := false, cmp := none, due := 0 }).setThrState n t 3 := rfl

theorem faultRecordedAt_within {n t : Nat} (hn : n < 96) (d : Dev) (code a : Nat) :
    RegsWithin (faultKept n t) (faultNoted d n t code) (faultRecordedAt d n t code a) := by
  have haddr : R.DRV_THR_FAULT_addr.key [n, t] = 0x1000820 + 32768 * n + 256 * t := key_two rfl n t
  have htime : R.DRV_THR_FAULT_time.key [n, t] = 0x1000880 + 32768 * n + 256 * t := key_two rfl n t
  have hcount : R.DRV_CNT_count.key [n, 10] = 0x1004000 + 32768 * n + 64 * 10 := key_two rfl n 10
  have hcause : (drvEvtFields.getD 0 R.DRV_EVT_sw).key [n] = 0x1000080 + 32768 * n := key_one rfl n
  refine drvCause_within ((((RegsWithin.refl _ _).wr ?_ _).wr ?_ _).wr ?_ _) hn ?_ fun _ => faultKept_of_event <;>
    (unfold faultKept; omega)

/-- What a fault with an address comes to: it is recorded, and the thread is left with its registers. -/
theorem fault_at_ends {n t : Nat} (hn : n < 96) (d : Dev) (code a : Nat) : ∃ e x st,
    d.fault n t code (some a) = (e.setThr n t x).setThrState n t st ∧ RegsWithin (faultKept n t) (faultNoted d n t code) e ∧
      x.s = (d.thr n t).s ∧ x.v = (d.thr n t).v ∧ x.m = (d.thr n t).m := by
  have h := faultRecordedAt_within (t := t) hn d code a
  rw [fault_at_eq]
  extract_lets e x
  split
  · exact ⟨_, _, _, rfl, h.wr faultKept_active 1, rfl, rfl, rfl⟩
  · exact ⟨_, _, _, rfl, h, rfl, rfl, rfl⟩

/-- Code and pc of a fault, read once the thread's state is set. -/
theorem fault_rd {n t code st : Nat} {b e : Dev} {x : Thr} (hw : RegsWithin (faultKept n t) b e)
    (hb : b.regs = (faultNoted d n t code).regs) (hcode : code < 16) :
    ((e.setThr n t x).setThrState n t st).rd R.DRV_THR_FAULT_code [n, t] =
        (if d.flag R.DRV_THR_FAULT_active [n, t] then 9 else code) ∧
      ((e.setThr n t x).setThrState n t st).rd R.DRV_THR_FAULT_pc [n, t] = (d.thr n t).pc % 2 ^ 16 := by
  have hstate : R.DRV_STATUS_thr_state.key [n] = 0x1000040 + 32768 * n := key_one rfl n
  have hcodeKey : R.DRV_THR_FAULT_code.key [n, t] = 0x1000800 + 32768 * n + 256 * t := key_two rfl n t
  have hpcKey : R.DRV_THR_FAULT_pc.key [n, t] = 0x1000810 + 32768 * n + 256 * t := key_two rfl n t
  obtain ⟨hc, hp⟩ := faultNoted_rd d n t hcode
  have kept {f : Field} (hf : f.key [n, t] ≠ R.DRV_STATUS_thr_state.key [n]) (hk : ¬ faultKept n t (f.key [n, t])) :
      ((e.setThr n t x).setThrState n t st).rd f [n, t] = (faultNoted d n t code).rd f [n, t] :=
    (rd_wr_ne _ _ _ _ _ _ hf).trans ((hw.rd hk).trans (rd_of_regs hb _ _))
  exact ⟨(kept (by omega) (by unfold faultKept; omega)).trans hc, (kept (by omega) (by unfold faultKept; omega)).trans hp⟩

/-- An instruction of a fetched word that comes to a fault with an address. -/
theorem faults_at_of {c : Instr} {key fine code a : Nat} {f : QOp} (h : Fetches d i w) (hk : opKey w = some key)
    (hc : ∀ s, exec c s = issue i key f s fine)
    (hf : f (ctxOf i w fine) (devOf d i w) (thrOf d i w) = .fault (devOf d i w) code (some a)) (hcode : code < 16) :
    faults c d i code := by
  have hdoes := does_issue h hk hc
  rw [hf] at hdoes
  obtain ⟨e, x, st, he, hw, hs, hv, hm⟩ := fault_at_ends (t := i.t) i.n.isLt (devOf d i w) code a
  obtain ⟨hrc, hrp⟩ := fault_rd (x := x) (st := st) hw rfl hcode
  have hend : Dev.retire (ctxOf i w fine) (.fault (devOf d i w) code (some a)) = (e.setThr i.n i.t x).setThrState i.n i.t st := he
  have hthr : (devOf d i w).thr i.n i.t = thrOf d i w := thr_setThr ..
  have hself : self ((e.setThr i.n i.t x).setThrState i.n i.t st) i = x := thr_setThr ..
  have hdrv : e.drv = (devOf d i w).drv := by rw [hw.eq]; rfl
  rw [hthr] at hs hv hm hrp
  rw [hend] at hdoes
  refine ⟨_, hdoes, hw.mem, ?_, fun k => ?_, hrc, hrp⟩
  · show tget {} e.drv.drv _ = _
    rw [hdrv]
    rfl
  · rw [hself]
    simp only [Thr.sreg, Thr.vreg, Thr.mreg, hs, hv, hm]
    exact ⟨rfl, rfl, rfl⟩

end Sys2Proof.Machine
end

section
/-! SUPPORT. DMA instructions (O7). -/

namespace Sys2Proof.Machine

open Sys2Proof.Claims

variable {d : Dev} {i : Issue} {w : Nat}

/-! ### The fields of a descriptor, and the ranges a DMA may touch (R217, R260) -/

theorem vreg_lt (x : Thr) (k : Nat) : x.vreg k < 2 ^ 512 := by
  rw [Thr.vreg]
  exact Nat.mod_lt (tget 0 x.v k) (Nat.two_pow_pos 512)

/-- The field that reaches the top of a number is what stands above it. -/
theorem bits_top {v lo n m : Nat} (hv : v < 2 ^ m) (h : lo + n = m) : bits v lo n = v / 2 ^ lo :=
  Nat.mod_eq_of_lt (Nat.div_lt_of_lt_mul (by rw [← Nat.pow_add, h]; exact hv))

theorem ddSrc_eq (v : Nat) : ddSrc v = v % 2 ^ 40 := by rw [ddSrc, bits, pow_zero, Nat.div_one]

/-- The channel an instruction names. -/
theorem dmaIndex (w : Nat) : wFunc w % 4 = w / 2 ^ 25 % 4 := Nat.mod_mod_of_dvd _ (by decide)

theorem dmaRange_crib {n a len : Nat} {source : Bool} (h : cribRange a len) : ¬ dmaRange n a len source = false := by
  have hc : inCrib a len = true := decide_eq_true h
  rw [dmaRange, hc, Bool.true_or, Bool.true_or]
  decide

theorem place_nowhere {n a : Nat} (h : isNowhere a) : place n a = .nowhere := by
  obtain ⟨hlo, hcrib, himem, hdrove, hreg⟩ := h
  rw [place, if_neg (Nat.not_lt.mpr hlo), if_neg hcrib, if_neg himem, if_neg hdrove, if_neg hreg]

theorem dmaRange_nowhere {n a len : Nat} {source : Bool} (h : isNowhere a) (hlen : 0 < len) : dmaRange n a len source = false := by
  have hc : inCrib a len = false := decide_eq_false fun hin => h.2.1 ⟨hin.1, by omega⟩
  rw [dmaRange, hc, inOneDrove, place_nowhere h]
  rfl

/-! ### DMA.GO -/

/-- A descriptor breaks none of the rules of R260 that raise ILLEGAL_OP. -/
def dmaLegal (v : Nat) : Prop :=
  64 ≤ v / 2 ^ 128 % 2 ^ 25 ∧ v / 2 ^ 128 % 2 ^ 25 ≤ 16777216 ∧ v / 2 ^ 128 % 2 ^ 25 % 64 = 0 ∧ v / 2 ^ 40 % 2 ^ 24 = 0 ∧
    v / 2 ^ 104 % 2 ^ 24 = 0 ∧ v / 2 ^ 153 = 0

theorem dmaLegal_iff {v : Nat} (hv : v < 2 ^ 512) : dmaLegal v ↔ ¬ (ddLen v < 64 ∨ 16777216 < ddLen v ∨ ddLen v % 64 ≠ 0 ∨
    bits v 40 24 ≠ 0 ∨ bits v 104 24 ≠ 0 ∨ bits v 153 359 ≠ 0) := by
  rw [bits_top hv (by rfl : 153 + 359 = 512)]
  simp only [not_or, Nat.not_lt, not_not]
  exact Iff.rfl

/-- What DMA.GO comes to for descriptor `v` on channel `k`. -/
theorem qDmaGo_legal {c : QCtx} {x : Thr} {v k : Nat} (hv : v = x.vreg (wRb c.w)) (hk : k = wFunc c.w % 4) (h : dmaLegal v) :
    qDmaGo c d x =
      if ddSrc v % 64 ≠ 0 then .fault d 3 (some (ddSrc v))
      else if ddDst v % 64 ≠ 0 then .fault d 3 (some (ddDst v))
      else if dmaRange c.n (ddSrc v) (ddLen v) true = false then .fault d 4 (some (ddSrc v))
      else if dmaRange c.n (ddDst v) (ddLen v) false = false then .fault d 4 (some (ddDst v))
      else if 4 ≤ (d.dmaChan c.n k).queue.length then .block d x
      else .go (d.setDma c.n k { d.dmaChan c.n k with queue := (d.dmaChan c.n k).queue ++ [⟨ddSrc v, ddDst v, ddLen v⟩] }) x := by
  subst hv hk
  exact if_neg ((dmaLegal_iff (vreg_lt _ _)).mp h)

theorem qDmaGo_illegal {c : QCtx} {x : Thr} (h : ¬ dmaLegal (x.vreg (wRb c.w))) : qDmaGo c d x = illegal d :=
  if_pos (not_not.mp fun hn => h ((dmaLegal_iff (vreg_lt _ _)).mpr hn))

section
variable (h : Fetches d i w) (hk : opKey w = some 0x3200)
include h hk

theorem faults_dmaGo_illegal (hl : ¬ dmaLegal ((self d i).vreg (wRb w))) : faults (.dmaGo i) d i 1 :=
  faults_of h hk (fun _ => rfl) (qDmaGo_illegal hl) (by decide)

variable {v : Nat} (hv : v = (self d i).vreg (wRb w)) (hl : dmaLegal v)
include hv hl

theorem faults_dmaGo_align (ha : v % 2 ^ 40 % 64 ≠ 0 ∨ v / 2 ^ 64 % 2 ^ 40 % 64 ≠ 0) : faults (.dmaGo i) d i 3 := by
  have hq := qDmaGo_legal (d := devOf d i w) (c := ctxOf i w 0) (x := thrOf d i w) hv rfl hl
  rw [← ddSrc_eq] at ha
  by_cases hs : ddSrc v % 64 ≠ 0
  · exact faults_at_of h hk (fun _ => rfl) (hq.trans (if_pos hs)) (by decide)
  · exact faults_at_of h hk (fun _ => rfl) (hq.trans ((if_neg hs).trans (if_pos (ha.resolve_left hs)))) (by decide)

variable (hs : v % 2 ^ 40 % 64 = 0) (hd : v / 2 ^ 64 % 2 ^ 40 % 64 = 0)
include hs hd

theorem faults_dmaGo_nowhere (hn : isNowhere (v % 2 ^ 40) ∨ isNowhere (v / 2 ^ 64 % 2 ^ 40)) : faults (.dmaGo i) d i 4 := by
  have hq := qDmaGo_legal (d := devOf d i w) (c := ctxOf i w 0) (x := thrOf d i w) hv rfl hl
  rw [← ddSrc_eq] at hs hn
  have hd : ddDst v % 64 = 0 := hd
  rw [if_neg (not_not.mpr hs), if_neg (not_not.mpr hd)] at hq
  have hlen : 0 < ddLen v := Nat.lt_of_lt_of_le (by decide) hl.1
  by_cases hsrc : dmaRange i.n (ddSrc v) (ddLen v) true = false
  · exact faults_at_of h hk (fun _ => rfl) (hq.trans (if_pos hsrc)) (by decide)
  · have hdst := dmaRange_nowhere (n := i.n) (source := false) (hn.resolve_left fun hn => hsrc (dmaRange_nowhere hn hlen)) hlen
    exact faults_at_of h hk (fun _ => rfl) (hq.trans ((if_neg hsrc).trans (if_pos hdst))) (by decide)

variable (hcs : cribRange (v % 2 ^ 40) (v / 2 ^ 128 % 2 ^ 25)) (hcd : cribRange (v / 2 ^ 64 % 2 ^ 40) (v / 2 ^ 128 % 2 ^ 25))
include hcs hcd

omit h hk in
theorem qDmaGo_crib : qDmaGo (ctxOf i w 0) (devOf d i w) (thrOf d i w) =
    if 4 ≤ (d.dmaChan i.n (wFunc w % 4)).queue.length then .block (devOf d i w) (thrOf d i w)
    else .go (devOf (d.setDma i.n (wFunc w % 4) { d.dmaChan i.n (wFunc w % 4) with
      queue := (d.dmaChan i.n (wFunc w % 4)).queue ++ [⟨v % 2 ^ 40, v / 2 ^ 64 % 2 ^ 40, v / 2 ^ 128 % 2 ^ 25⟩] }) i w)
      (thrOf d i w) := by
  have hq := qDmaGo_legal (d := devOf d i w) (c := ctxOf i w 0) (x := thrOf d i w) hv rfl hl
  rw [← ddSrc_eq] at hs hcs ⊢
  have hd : ddDst v % 64 = 0 := hd
  have hcs : cribRange (ddSrc v) (ddLen v) := hcs
  have hcd : cribRange (ddDst v) (ddLen v) := hcd
  rw [if_neg (not_not.mpr hs), if_neg (not_not.mpr hd), if_neg (dmaRange_crib hcs), if_neg (dmaRange_crib hcd)] at hq
  exact hq

end

/-! ### DMA.WAIT and DMA.POLL -/

/-- The status a report writes, without the busy bit. -/
def dmaStatus (ch : DmaChan) : Nat := ch.status + (if ch.busySeen then 4 else 0)

/-- The channel after a report of an idle channel. -/
def dmaCleared (ch : DmaChan) : DmaChan := { ch with status := 0, busySeen := false, busRaised := false }

theorem dmaReport_reports {poll : Bool} {c : QCtx} {x : Thr}
    (h : (d.dmaChan c.n (wFunc c.w % 4)).status ≠ 2 ∨ (d.dmaChan c.n (wFunc c.w % 4)).busRaised = true) :
    let ch := d.dmaChan c.n (wFunc c.w % 4)
    dmaReport poll c d x = .go (if ch.queue.isEmpty then d.setDma c.n (wFunc c.w % 4) (dmaCleared ch) else d)
      (x.setS (wRd c.w) (dmaStatus ch + if poll && !ch.queue.isEmpty then 8 else 0)) := by
  intro ch
  have hno : ¬ (ch.status = 2 ∧ ch.busRaised = false) := fun hn =>
    h.elim (fun h => h hn.1) fun h => absurd (h.symm.trans hn.2) (by decide)
  have hbit (b : Bool) : 4 * bit b = if b then 4 else 0 := by cases b <;> rfl
  rw [dmaReport, if_neg hno, hbit]
  rfl

section
variable {c : Instr} {key k : Nat} {ch : DmaChan} (h : Fetches d i w) (hk : k = wFunc w % 4) (hch : ch = d.dmaChan i.n k)
  (hst : ch.status ≠ 2 ∨ ch.busRaised = true)
include hk hch hst

/-- A report of a fetched instruction: an idle channel is cleared, a busy one shows it to a poll. -/
theorem dmaReport_fetched (poll : Bool) : dmaReport poll (ctxOf i w 0) (devOf d i w) (thrOf d i w) =
    if ch.queue = [] then .go (devOf (d.setDma i.n k (dmaCleared ch)) i w) ((thrOf d i w).setS (wRd w) (dmaStatus ch))
    else .go (devOf d i w) ((thrOf d i w).setS (wRd w) (dmaStatus ch + if poll then 8 else 0)) := by
  subst hk hch
  have hr := dmaReport_reports (d := devOf d i w) (c := ctxOf i w 0) (x := thrOf d i w) (poll := poll) hst
  cases hq : (d.dmaChan i.n (wFunc w % 4)).queue with
  | nil =>
    have he : ((devOf d i w).dmaChan (ctxOf i w 0).n (wFunc (ctxOf i w 0).w % 4)).queue.isEmpty = true := congrArg List.isEmpty hq
    rw [if_pos rfl, hr, he, Bool.not_true, Bool.and_false]
    rfl
  | cons a l =>
    have he : ((devOf d i w).dmaChan (ctxOf i w 0).n (wFunc (ctxOf i w 0).w % 4)).queue.isEmpty = false := congrArg List.isEmpty hq
    rw [if_neg (List.cons_ne_nil a l), hr, he, Bool.not_false, Bool.and_true]
    rfl

include h

/-- WAIT and POLL of an idle channel write its status and clear it. -/
theorem does_dmaReport_idle {poll : Bool} {f : QOp} (hkey : opKey w = some key) (hc : ∀ s, exec c s = issue i key f s)
    (hf : f (ctxOf i w 0) (devOf d i w) (thrOf d i w) = dmaReport poll (ctxOf i w 0) (devOf d i w) (thrOf d i w))
    (hq : ch.queue = []) : Does c d (ran (d.setDma i.n k (dmaCleared ch)) i ((self d i).setS (wRd w) (dmaStatus ch))) := by
  have := does_ran h hkey hc (hf.trans ((dmaReport_fetched hk hch hst poll).trans (if_pos hq)))
  rwa [thrOf, setS_wait, ran_wait] at this

/-- POLL of a busy channel adds the busy bit. -/
theorem does_dmaPoll_busy (hkey : opKey w = some 0x3202) (hq : ch.queue ≠ []) :
    Does (.dmaPoll i) d (ran d i ((self d i).setS (wRd w) (dmaStatus ch + 8))) := by
  have := does_ran (c := .dmaPoll i) h hkey (fun _ => rfl) ((dmaReport_fetched hk hch hst true).trans (if_neg hq))
  rwa [thrOf, setS_wait, ran_wait] at this

end

theorem dmaWait_idle (h : (d.dmaChan i.n (wFunc w % 4)).queue = []) : qDmaWait (ctxOf i w 0) (devOf d i w) (thrOf d i w) =
    dmaReport false (ctxOf i w 0) (devOf d i w) (thrOf d i w) := if_pos (congrArg List.isEmpty h)

theorem does_dmaWait_busy (h : Fetches d i w) (hkey : opKey w = some 0x3201) (hq : (d.dmaChan i.n (wFunc w % 4)).queue ≠ []) :
    Does (.dmaWait i) d (blocked d i w) :=
  does_blocked h hkey (by decide) (fun _ => rfl) (if_neg (by rw [List.isEmpty_iff]; exact hq))

theorem dmaChan_setDma (d : Dev) (n k : Nat) (x : DmaChan) : (d.setDma n k x).dmaChan n k = x := by
  rw [Dev.dmaChan, Dev.drover, Dev.setDma, Dev.setDrover, withDrv_drv, tget_tset, tget_tset]

/-- POLL raises a BUS_ERR not raised yet as a fault, and keeps it. -/
theorem does_dmaPoll_busErr {k : Nat} (h : Fetches d i w) (hkey : opKey w = some 0x3202) (hk : k = wFunc w % 4)
    (hst : (d.dmaChan i.n k).status = 2) (hr : (d.dmaChan i.n k).busRaised = false) : ∃ d', Does (.dmaPoll i) d d' ∧
      d'.dmaChan i.n k = { d.dmaChan i.n k with busRaised := true } ∧ (∀ r, (self d' i).sreg r = (self d i).sreg r) ∧
      d'.rd R.DRV_THR_FAULT_code [i.n, i.t] = (if d.flag R.DRV_THR_FAULT_active [i.n, i.t] then 9 else 6) := by
  subst hk
  have hf : qDmaPoll (ctxOf i w 0) (devOf d i w) (thrOf d i w) = .fault ((devOf d i w).setDma i.n (wFunc w % 4)
    { d.dmaChan i.n (wFunc w % 4) with busRaised := true }) 6 none := if_pos ⟨hst, hr⟩
  have hdoes := does_issue (c := .dmaPoll i) h hkey fun _ => rfl
  rw [hf] at hdoes
  have hthr : ((devOf d i w).setDma i.n (wFunc w % 4) { d.dmaChan i.n (wFunc w % 4) with busRaised := true }).thr i.n i.t =
    thrOf d i w := thr_setThr ..
  have hchan := dmaChan_setDma (devOf d i w) i.n (wFunc w % 4) { d.dmaChan i.n (wFunc w % 4) with busRaised := true }
  have hflag : ((devOf d i w).setDma i.n (wFunc w % 4) { d.dmaChan i.n (wFunc w % 4) with busRaised := true }).flag
    R.DRV_THR_FAULT_active [i.n, i.t] = d.flag R.DRV_THR_FAULT_active [i.n, i.t] := rfl
  generalize (devOf d i w).setDma i.n (wFunc w % 4) { d.dmaChan i.n (wFunc w % 4) with busRaised := true } = b
    at hdoes hthr hchan hflag
  obtain ⟨e, x, st, he, hw, hs, -, -⟩ := fault_ends i.n.isLt i.t.isLt b 6
  obtain ⟨hrc, -⟩ := fault_rd (x := x) (st := st) hw rfl (by decide)
  have hend : Dev.retire (ctxOf i w 0) (.fault b 6 none) = (e.setThr i.n i.t x).setThrState i.n i.t st := he
  have hself : self ((e.setThr i.n i.t x).setThrState i.n i.t st) i = x := thr_setThr ..
  have hdrv : e.drv = b.drv := by rw [hw.eq]; rfl
  rw [hend] at hdoes
  refine ⟨_, hdoes, ?_, fun r => ?_, hflag ▸ hrc⟩
  · show tget {} (tget {} e.drv.drv i.n).dma (wFunc w % 4) = _
    rw [hdrv]
    exact hchan
  · rw [hthr] at hs
    rw [hself, Thr.sreg, hs]
    rfl

end Sys2Proof.Machine

namespace Sys2Proof.Claims
open Sys2Proof.Machine

theorem dmaResults : DmaResults := by
  intro d i w h
  rw [← dmaIndex w]
  intro c ch v src dst len legal status cleared
  refine ⟨fun hk => ⟨fun hl => faults_dmaGo_illegal h hk hl, fun hl => faults_dmaGo_align h hk rfl hl,
      fun hl hs hd => faults_dmaGo_nowhere h hk rfl hl hs hd, fun hl hs hd hcs hcd => ?_⟩,
    fun hk => ⟨does_dmaWait_busy h hk, fun hq hst => does_dmaReport_idle h rfl rfl hst hk (fun _ => rfl) (dmaWait_idle hq) hq⟩,
    fun hk => ⟨fun hq hst => does_dmaReport_idle h rfl rfl hst hk (fun _ => rfl) rfl hq,
      fun hq hst => does_dmaPoll_busy h rfl rfl hst hk hq, does_dmaPoll_busErr h hk rfl⟩⟩
  have hgo := qDmaGo_crib (i := i) (w := w) (d := d) rfl hl hs hd hcs hcd
  refine ⟨fun hq => ?_, fun hq => does_blocked h hk (by decide) (fun _ => rfl) (hgo.trans (if_pos hq))⟩
  have := does_ran (c := .dmaGo i) h hk (fun _ => rfl) (hgo.trans (if_neg (Nat.not_le.mpr hq)))
  rwa [thrOf, ran_wait] at this

end Sys2Proof.Claims
end

section
/-! SUPPORT. CHRD: its fault, its wait, and the entry it reads (O7). -/

namespace Sys2Proof.Machine

open Sys2Proof.Claims

variable {d : Dev} {i : Issue} {w : Nat}

/-! ### The channel entry (R126) -/

/-- The image a read without a change finds, judged for its stream. -/
def chanImage (d : Dev) (idx sid : Nat) : Nat := judgeChan (d.entry idx) idx sid

theorem ePendSlot_eq (e : Nat) : ePendSlot e = e / 2 ^ 320 % 8 := rfl

theorem chanImages_plain {idx : Nat} (h : ePendSlot (d.entry idx) = 0) :
    d.chanImages idx = ({ old := d.entry idx, new := d.entry idx }, none) := if_pos (.inl h)

/-- A drover's count of channel reads is none of the route engine's counters. -/
theorem readsKey_ne (n : Nat) {k : Nat} (hk : k < 16) : R.DRV_CNT_count.key [n, 8] ≠ R.RTE_CNT_count.key [k] := by
  have h : R.DRV_CNT_count.key [n, 8] = 0x1004000 + 32768 * n + 64 * 8 := key_two rfl n 8
  rw [rteCountKey, h]
  omega

/-- Lines loaded, and a read for another stream counted, leave the drovers and their counts. -/
theorem chanEnd {c x : Dev} {n : Nat} (h : CacheOnly c x) (p : Prop) [Decidable p] :
    (if p then x.rteCount 10 else x).drv = c.drv ∧
      (if p then x.rteCount 10 else x).rd R.DRV_CNT_count [n, 8] = c.rd R.DRV_CNT_count [n, 8] := by
  have hk : R.DRV_CNT_count.key [n, 8] ≠ R.RTE_CNT_count.key [10] := readsKey_ne n (by decide)
  have hd : x.drv = c.drv := by rw [h]
  split
  · exact ⟨hd, (rd_wr_ne _ _ _ _ _ _ hk).trans (h.rd _ _)⟩
  · exact ⟨hd, h.rd _ _⟩

/-- A read of a sound entry without a change: both images are the entry judged, and the read is counted. -/
theorem chanRead_sound {idx : Nat} (n sid : Nat) (hb : d.lineBad (entryAddr idx) = false) (hp : ePendSlot (d.entry idx) = 0) :
    ∃ e hit, d.chanRead n idx sid = (e, { old := chanImage d idx sid, new := chanImage d idx sid, hit := hit }) ∧ e.drv = d.drv ∧
      e.rd R.DRV_CNT_count [n, 8] = (d.rd R.DRV_CNT_count [n, 8] + 1) % 2 ^ 64 := by
  have hcnt : ((d.rteCount 12).drvCount n 8).rd R.DRV_CNT_count [n, 8] = (d.rd R.DRV_CNT_count [n, 8] + 1) % 2 ^ 64 := by
    have hk : R.DRV_CNT_count.key [n, 8] ≠ R.RTE_CNT_count.key [12] := readsKey_ne n (by decide)
    rw [Dev.drvCount, Dev.bumpWrap, rd_wr, Dev.rteCount, Dev.bumpWrap, rd_wr_ne _ _ _ _ _ _ hk]
    rfl
  have hent : ((d.rteCount 12).drvCount n 8).entry idx = d.entry idx := entry_of_mem rfl idx
  have hbad : ((d.rteCount 12).drvCount n 8).lineBad (entryAddr idx) = false := (lineBad_of_ddr (by rfl) _).trans hb
  have hdrv : ((d.rteCount 12).drvCount n 8).drv = d.drv := rfl
  rw [Dev.chanRead]
  generalize (d.rteCount 12).drvCount n 8 = c at hcnt hent hbad hdrv
  rw [chanImages_plain (by rw [hent]; exact hp)]
  dsimp only
  rw [if_neg (by rw [hbad]; decide), hent]
  refine ⟨_, _, rfl, ?_⟩
  obtain ⟨hd, hr⟩ := chanEnd (n := n) (List.foldlRecOn _ _ (CacheOnly.refl c) fun x hx t _ => hx.loadLine ..)
    (judgeChan (d.entry idx) idx sid ≠ d.entry idx ∨ judgeChan (d.entry idx) idx sid ≠ d.entry idx)
  exact ⟨hd.trans hdrv, hr.trans hcnt⟩

/-! ### The two registers -/

/-- What CHRD puts in vd + 1 where no change is pending: the image, no time, and whether the lines were cached. -/
def chanHigh (img : Nat) (hit : Bool) : Nat := putBits (putBits (putBits (putBits img 352 96 0) 448 1 0) 449 1 (bit hit)) 450 1 0

theorem chanHigh_low (img : Nat) (hit : Bool) : chanHigh img hit % 2 ^ 352 = img % 2 ^ 352 := by
  have h (v : Nat) : v % 2 ^ 352 = bits v 0 352 := by rw [bits, pow_zero, Nat.div_one]
  rw [h, h, chanHigh]
  repeat rw [bits_putBits_out (by decide)]

theorem chanHigh_mid (img : Nat) (hit : Bool) : chanHigh img hit / 2 ^ 352 % 2 ^ 97 = 0 := by
  refine Nat.eq_of_testBit_eq fun k => ?_
  rw [← bits, testBit_bits, chanHigh]
  simp only [testBit_putBits, Nat.zero_testBit]
  by_cases hk : k < 97
  · rw [if_neg (by omega), if_neg (by omega)]
    by_cases hp : k = 96
    · rw [if_pos (by omega), Bool.and_false]
    · rw [if_neg (by omega), if_pos (by omega), Bool.and_false]
  · simp [hk]

theorem chanHigh_lt {img : Nat} (h : img < 2 ^ 512) (hit : Bool) : chanHigh img hit < 2 ^ 512 :=
  putBits_lt (putBits_lt (putBits_lt (putBits_lt h (by decide) _) (by decide) _) (by decide) _) (by decide) _

theorem chanImage_lt (d : Dev) (idx sid : Nat) : chanImage d idx sid < 2 ^ 512 := by
  have hpow : 2 ^ (8 * 64) = 2 ^ 512 := congrArg (2 ^ ·) (by decide)
  rw [chanImage, judgeChan]
  split
  · exact Nat.two_pow_pos 512
  · exact hpow ▸ entry_lt d idx

theorem chanImage_eq (d : Dev) (idx sid : Nat) : chanImage d idx sid = if d.entry idx % 256 = 0x0C ∧
    (d.entry idx / 2 ^ 8 % 64 ≠ idx % 64 ∨ d.entry idx / 2 ^ 16 % 2 ^ 18 ≠ sid) then 0 else d.entry idx := by
  have htype : eType (d.entry idx) = d.entry idx % 256 := by
    rw [eType, bits, pow_zero, Nat.div_one]
    rfl
  rw [chanImage, judgeChan, htype]
  rfl

/-- Two vector registers written one after the other. -/
theorem vreg_setV_pair (x : Thr) (k a b : Nat) :
    ((x.setV k a).setV (k + 1) b).vreg k = a % 2 ^ 512 ∧ ((x.setV k a).setV (k + 1) b).vreg (k + 1) = b % 2 ^ 512 := by
  rw [Thr.vreg, Thr.vreg, Thr.setV, Thr.setV]
  rw [tget_tset_ne _ _ _ _ _ (by omega), tget_tset, tget_tset, Nat.mod_mod, Nat.mod_mod]
  exact ⟨rfl, rfl⟩

/-! ### The instruction -/

/-- The operands CHRD takes: an even vd, and no bit of ra above 41. -/
def chrdLegal (d : Dev) (i : Issue) (w : Nat) : Prop := wRd w % 2 = 0 ∧ (self d i).sreg (wRa w) / 2 ^ 42 = 0

theorem chrdLegal_iff : chrdLegal d i w ↔ ¬ (wRd w % 2 = 1 ∨ bits ((self d i).sreg (wRa w)) 42 22 ≠ 0) := by
  rw [bits_top (sreg_lt _ _) (by rfl : 42 + 22 = 64), chrdLegal]
  omega

theorem chrd_word (hk : opKey w = some 0x3006) : inFlight w = true := by
  obtain ⟨hm, hs⟩ := major_of_opKey hk
  have hf : wFunc w = 6 := by simpa [opSub, hm] using hs
  show (!((wMajor w == 0x33 && wFunc w == 0) || (wMajor w == 0x30 && (wFunc w == 0 || wFunc w == 3)) ||
    (wMajor w == 0x31 && wFunc w == 2) || wMajor w == 0x32)) = true
  rw [hm, hf]
  rfl

theorem faults_chrd (h : Fetches d i w) (hk : opKey w = some 0x3006) (hl : ¬ chrdLegal d i w) : faults (.chrd i) d i 1 :=
  faults_of h hk (fun _ => rfl) (if_pos (not_not.mp fun hn => hl (chrdLegal_iff.mpr hn))) (by decide)

theorem does_chrd (h : Fetches d i w) (hk : opKey w = some 0x3006) (hl : chrdLegal d i w) : Does (.chrd i) d (blocked d i w) :=
  does_blocked h hk (by decide) (fun _ => rfl) ((if_neg (chrdLegal_iff.mp hl)).trans (if_pos rfl))

/-- What the completion of a read acts under. -/
def chrdCtx (i : Issue) (w : Nat) : QCtx := { n := i.n, t := i.t, w := w, ecc := 0, errs := [], find := {}, fin := true }

theorem longDone_chrd (hk : opKey w = some 0x3006) (hruns : d.droveRuns i.n = true) (hst : d.thrState i.n i.t = 2)
    (hwait : (self d i).wait = some w) :
    longDone i.n i.t 0 [] {} d = Dev.retire (chrdCtx i w) (qChrd (chrdCtx i w) d (self d i)) := by
  have hop : (opKey w).bind longOp = some qChrd := by
    rw [hk]
    rfl
  have hno : ¬ (d.thrState i.n i.t ≠ 2 ∨ (if inFlight w then d.droveRuns i.n else d.issues i.n) = false) := by
    rw [chrd_word hk, hruns, hst]
    simp
  rw [longDone, show (d.thr i.n i.t).wait = some w from hwait]
  dsimp only
  rw [hop]
  exact if_neg hno

theorem qChrd_done {e : Dev} {img : Nat} {hit : Bool} (hl : chrdLegal d i w)
    (hr : d.chanRead i.n ((self d i).sreg (wRa w) % 2 ^ 24) ((self d i).sreg (wRa w) / 2 ^ 24 % 2 ^ 18) =
      (e, { old := img, new := img, hit := hit })) :
    qChrd (chrdCtx i w) d (self d i) = .go e (((self d i).setV (wRd w) img).setV (wRd w + 1) (chanHigh img hit)) := by
  have hidx (a : Nat) : bits a 0 24 = a % 2 ^ 24 := by rw [bits, pow_zero, Nat.div_one]
  rw [← hidx] at hr
  have hr : d.chanRead (chrdCtx i w).n (bits ((self d i).sreg (wRa (chrdCtx i w).w)) 0 24)
    (bits ((self d i).sreg (wRa (chrdCtx i w).w)) 24 18) = (e, { old := img, new := img, hit := hit }) := hr
  have hno : ¬ (wRd (chrdCtx i w).w % 2 = 1 ∨ bits ((self d i).sreg (wRa (chrdCtx i w).w)) 42 22 ≠ 0) := chrdLegal_iff.mp hl
  rw [qChrd, if_neg hno, if_neg (show ¬ (chrdCtx i w).fin = false from show ¬ true = false by decide), hr]
  rfl

/-- A completed read leaves its thread at the next instruction. -/
theorem retire_read {e : Dev} (x : Thr) (hdrv : e.drv = d.drv) (hwait : (self d i).wait = some w) :
    Dev.retire (chrdCtx i w) (.go e x) = ran e i x := by
  have h : ¬ (e.thr i.n i.t).wait = none := by
    rw [Dev.thr, hdrv, show (tget {} d.drv.thr (8 * i.n + i.t)).wait = some w from hwait]
    exact nofun
  exact if_neg h

/-- The registers of a thread that has run and written two vector registers. -/
theorem ran_pair (e : Dev) (i : Issue) (x : Thr) (k a b : Nat) :
    let y := self (ran e i ((x.setV k a).setV (k + 1) b)) i
    y.vreg k = a % 2 ^ 512 ∧ y.vreg (k + 1) = b % 2 ^ 512 ∧ (∀ r, y.sreg r = x.sreg r) ∧ y.pc = (x.pc + 4) % 2 ^ 64 := by
  intro y
  obtain ⟨hlow, hhigh⟩ := vreg_setV_pair x k a b
  have h : y = { (x.setV k a).setV (k + 1) b with pc := (x.pc + 4) % 2 ^ 64, wait := none, asked := false, cmp := none } :=
    thr_setThr ..
  rw [h]
  exact ⟨hlow, hhigh, fun _ => rfl, rfl⟩

theorem ran_thrState (e : Dev) (i : Issue) (x : Thr) : (ran e i x).thrState i.n i.t = 1 := thrState_setThrState i.t.isLt _ (by decide)

theorem ran_count (e : Dev) (i : Issue) (x : Thr) : (ran e i x).rd R.DRV_CNT_count [i.n, 8] = e.rd R.DRV_CNT_count [i.n, 8] := by
  refine rd_wr_ne _ _ _ _ _ _ ?_
  rw [key_two rfl, key_one rfl]
  have hc : R.DRV_CNT_count.pos = 0x1004000 := rfl
  have hs : R.DRV_STATUS_thr_state.pos = 0x1000040 := rfl
  omega

/-- The completion of a read of a sound entry without a change. -/
theorem does_chrdDone (hk : opKey w = some 0x3006) (hon : On d) (hruns : d.droveRuns i.n = true) (hst : d.thrState i.n i.t = 2)
    (hwait : (self d i).wait = some w) (hl : chrdLegal d i w)
    (hb : d.lineBad (entryAddr ((self d i).sreg (wRa w) % 2 ^ 24)) = false)
    (hp : ePendSlot (d.entry ((self d i).sreg (wRa w) % 2 ^ 24)) = 0) :
    ∃ d', Does (.longOpComplete i.n i.t 0 [] {}) d d' ∧
      (let img := chanImage d ((self d i).sreg (wRa w) % 2 ^ 24) ((self d i).sreg (wRa w) / 2 ^ 24 % 2 ^ 18)
       (self d' i).vreg (wRd w) = img % 2 ^ 512 ∧ (self d' i).vreg (wRd w + 1) % 2 ^ 352 = img % 2 ^ 352) ∧
      (self d' i).vreg (wRd w + 1) / 2 ^ 352 % 2 ^ 97 = 0 ∧
      (self d' i).pc = ((self d i).pc + 4) % 2 ^ 64 ∧ d'.thrState i.n i.t = 1 ∧ (∀ r, (self d' i).sreg r = (self d i).sreg r) ∧
      d'.rd R.DRV_CNT_count [i.n, 8] = (d.rd R.DRV_CNT_count [i.n, 8] + 1) % 2 ^ 64 := by
  obtain ⟨x, hit, hread, hdrv, hcnt⟩ := chanRead_sound i.n ((self d i).sreg (wRa w) / 2 ^ 24 % 2 ^ 18) hb hp
  have hlt := chanImage_lt d ((self d i).sreg (wRa w) % 2 ^ 24) ((self d i).sreg (wRa w) / 2 ^ 24 % 2 ^ 18)
  generalize chanImage d ((self d i).sreg (wRa w) % 2 ^ 24) ((self d i).sreg (wRa w) / 2 ^ 24 % 2 ^ 18) = img at hread hlt ⊢
  have hdoes : Does (.longOpComplete i.n i.t 0 [] {}) d (longDone i.n i.t 0 [] {} d) := does_of_run hon fun _ => rfl
  have hrun : longDone i.n i.t 0 [] {} d = ran x i (((self d i).setV (wRd w) img).setV (wRd w + 1) (chanHigh img hit)) := by
    rw [longDone_chrd hk hruns hst hwait, qChrd_done hl hread]
    exact retire_read _ hdrv hwait
  obtain ⟨hlow, hhigh, hs, hpc⟩ := ran_pair x i (self d i) (wRd w) img (chanHigh img hit)
  rw [Nat.mod_eq_of_lt (chanHigh_lt hlt hit)] at hhigh
  rw [hrun] at hdoes
  refine ⟨_, hdoes, ?_⟩
  rw [hlow, hhigh]
  exact ⟨⟨rfl, chanHigh_low img hit⟩, chanHigh_mid img hit, hpc, ran_thrState .., hs, (ran_count ..).trans hcnt⟩

end Sys2Proof.Machine

namespace Sys2Proof.Claims
open Sys2Proof.Machine

theorem channelReadResults : ChannelReadResults := by
  intro d i w hk
  rw [toNat_sval]
  intro a idx sid
  refine ⟨fun h => ⟨fun hbad => faults_chrd h hk fun hl => hbad.elim (by rw [hl.1]; decide) fun hn => hn hl.2,
    fun hrd ha => does_chrd h hk ⟨hrd, ha⟩⟩, fun hon hruns hst hwait hrd ha hb hp => ?_⟩
  have h := does_chrdDone hk hon hruns hst hwait ⟨hrd, ha⟩ hb ((ePendSlot_eq _).trans hp)
  rw [chanImage_eq] at h
  obtain ⟨d', hdoes, ⟨hlow, hhigh⟩, hrest⟩ := h
  exact ⟨d', hdoes, hlow, hhigh, hrest⟩

/-- Settles O7: a read by its operands and at its completion, a DMA instruction by the rules its descriptor and its channel meet. -/
theorem channelReadAndDmaResults : Obligations.ChannelReadAndDmaResults := ⟨channelReadResults, dmaResults⟩

end Sys2Proof.Claims
end

section
/-! SUPPORT. Vector lanes (R234, R243): a vector read lane by lane, and lane-wise instructions. -/

namespace Sys2Proof.Machine

open Sys2Proof.Claims

variable {d : Dev} {i : Issue} {w : Nat}

/-! ### Lanes -/

theorem toNat_laneBv (e v k : Nat) : (laneBv e v k).toNat = lane e v k := by
  rw [laneBv, BitVec.toNat_ofNat, lane, bits, Nat.mul_comm]

theorem laneBv_eq (e v k : Nat) : laneBv e v k = BitVec.ofNat e (lane e v k) := by
  rw [← toNat_laneBv, BitVec.ofNat_toNat, BitVec.setWidth_eq]

/-- The lower `n` lanes of a vector that is put together lane by lane. -/
theorem foldl_lanes (e : Nat) (f : Nat → Nat) (n : Nat) :
    let v := (List.range n).foldl (fun a i => a + f i % 2 ^ e * 2 ^ (i * e)) 0
    v < 2 ^ (n * e) ∧ ∀ k, k < n → lane e v k = f k % 2 ^ e := by
  induction n with
  | zero => simp
  | succ n ih =>
    obtain ⟨hlt, hlane⟩ := ih
    rw [List.range_succ, List.foldl_append, List.foldl_cons, List.foldl_nil]
    dsimp only
    generalize (List.range n).foldl _ 0 = v at hlt hlane
    have htop : f n % 2 ^ e < 2 ^ e := Nat.mod_lt _ (Nat.two_pow_pos e)
    refine ⟨?_, fun k hk => ?_⟩
    · calc v + f n % 2 ^ e * 2 ^ (n * e) < (f n % 2 ^ e + 1) * 2 ^ (n * e) := by rw [Nat.succ_mul]; omega
        _ ≤ 2 ^ e * 2 ^ (n * e) := Nat.mul_le_mul_right _ htop
        _ = 2 ^ ((n + 1) * e) := by rw [← Nat.pow_add, Nat.succ_mul, Nat.add_comm]
    · rcases Nat.lt_succ_iff_lt_or_eq.mp hk with hk | rfl
      · have hsplit : f n % 2 ^ e * 2 ^ (n * e) = 2 ^ (k * e) * (2 ^ e * (f n % 2 ^ e * 2 ^ ((n - k - 1) * e))) := by
          have : n * e = k * e + (e + (n - k - 1) * e) := by
            obtain ⟨m, rfl⟩ := Nat.exists_eq_add_of_lt hk
            have : k + m + 1 - k - 1 = m := by omega
            rw [this]
            ring
          rw [this, Nat.pow_add, Nat.pow_add]
          ring
        rw [← hlane k hk, lane, lane, bits, bits, hsplit, Nat.add_mul_div_left _ _ (Nat.two_pow_pos _), Nat.add_mul_mod_self_left]
      · rw [lane, bits, Nat.add_mul_div_right _ _ (Nat.two_pow_pos _), Nat.div_eq_of_lt hlt, Nat.zero_add, Nat.mod_mod]

theorem ofLanes_lt (e : Nat) (f : Nat → Nat) : ofLanes e f < 2 ^ 512 :=
  Nat.lt_of_lt_of_le (foldl_lanes e f (512 / e)).1 (Nat.pow_le_pow_right Nat.two_pos (Nat.div_mul_le_self 512 e))

theorem lane_ofLanes {e k : Nat} (f : Nat → Nat) (hk : k < 512 / e) : lane e (ofLanes e f) k = f k % 2 ^ e :=
  (foldl_lanes e f (512 / e)).2 k hk

theorem laneBv_ofLanes {e k : Nat} (f : Nat → Nat) (hk : k < 512 / e) : laneBv e (ofLanes e f) k = BitVec.ofNat e (f k) := by
  rw [laneBv_eq, lane_ofLanes f hk]
  exact BitVec.eq_of_toNat_eq (by simp)

theorem maskLanes_lt (e mask old : Nat) (f : Nat → Nat) : maskLanes e mask old f < 2 ^ 512 := ofLanes_lt ..

theorem laneBv_maskLanes {e k : Nat} (mask old : Nat) (f : Nat → Nat) (hk : k < 512 / e) :
    laneBv e (maskLanes e mask old f) k = if mask.testBit k then BitVec.ofNat e (f k) else laneBv e old k := by
  rw [maskLanes, laneBv_ofLanes _ hk, laneBv_eq e old]
  split <;> rfl

/-! ### Numbers of a lane's width -/

theorem toSigned_toNat {e : Nat} (he : 0 < e) (x : BitVec e) : toSigned e x.toNat = x.toInt := by
  have hpow : 2 ^ e = 2 * 2 ^ (e - 1) := by rw [← Nat.pow_succ', Nat.succ_eq_add_one, Nat.sub_add_cancel he]
  rw [toSigned, Nat.mod_eq_of_lt x.isLt, BitVec.toInt_eq_toNat_cond]
  by_cases h : x.toNat < 2 ^ (e - 1)
  · rw [if_pos h, if_pos (by omega)]
  · rw [if_neg h, if_neg (by omega)]

theorem ofNat_ofSigned (e : Nat) (x : Int) : BitVec.ofNat e (ofSigned e x) = BitVec.ofInt e x := by
  refine BitVec.eq_of_toNat_eq ?_
  rw [BitVec.toNat_ofNat, ofSigned, BitVec.toNat_ofInt]
  refine Nat.mod_eq_of_lt ?_
  have h := Int.emod_lt_of_pos x (Int.natCast_pos.mpr (Nat.two_pow_pos e))
  have := Int.emod_nonneg x (Int.natCast_ne_zero.mpr (Nat.two_pow_pos e).ne')
  omega

theorem ofNat_satSigned (e : Nat) (x : Int) : BitVec.ofNat e (ofSigned e (satSigned e x)) = sat e x := by
  rw [ofNat_ofSigned, sat, satSigned]
  have hcast : ((2 ^ (e - 1) : Nat) : Int) = 2 ^ (e - 1) := by push_cast; rfl
  rw [hcast]
  have : (0 : Int) < 2 ^ (e - 1) := by positivity
  congr 1
  generalize (2 : Int) ^ (e - 1) = m at this ⊢
  split
  · omega
  · split <;> omega

end Sys2Proof.Machine
end

section
/-! SUPPORT. VALU and VMULG (Table 07-4), lane by lane. -/

namespace Sys2Proof.Machine

open Sys2Proof.Claims

variable {d : Dev} {i : Issue} {w : Nat}

/-- The numbers `f` computes for a lane are the words of `F`. -/
def LaneMeaning (f : Nat → Nat → Nat → Nat → Nat) (F : (e : Nat) → BitVec e → BitVec e → BitVec e → BitVec e) : Prop :=
  ∀ e, 0 < e → ∀ old a b : BitVec e, BitVec.ofNat e (f e old.toNat a.toNat b.toNat) = F e old a b

/-! ### The operations -/

theorem lane_add : LaneMeaning (fun _ _ a b => a + b) (fun _ _ a b => a + b) := fun e _ _ a b =>
  BitVec.eq_of_toNat_eq (by simp)

theorem lane_sub : LaneMeaning (fun e _ a b => a + 2 ^ e - b) (fun _ _ a b => a - b) := fun e _ _ a b => by
  beta_reduce
  refine BitVec.eq_of_toNat_eq ?_
  have := b.isLt
  rw [BitVec.toNat_ofNat, BitVec.toNat_sub, show a.toNat + 2 ^ e - b.toNat = 2 ^ e - b.toNat + a.toNat by omega]

theorem lane_adds : LaneMeaning (fun e _ a b => ofSigned e (satSigned e (toSigned e a + toSigned e b)))
    (fun e _ a b => sat e (a.toInt + b.toInt)) := fun e he _ a b => by
  beta_reduce
  rw [ofNat_satSigned, toSigned_toNat he, toSigned_toNat he]

theorem lane_subs : LaneMeaning (fun e _ a b => ofSigned e (satSigned e (toSigned e a - toSigned e b)))
    (fun e _ a b => sat e (a.toInt - b.toInt)) := fun e he _ a b => by
  beta_reduce
  rw [ofNat_satSigned, toSigned_toNat he, toSigned_toNat he]

theorem lane_and : LaneMeaning (fun _ _ a b => a &&& b) (fun _ _ a b => a &&& b) := fun e _ _ a b => by
  beta_reduce
  rw [← BitVec.toNat_and, BitVec.ofNat_toNat, BitVec.setWidth_eq]

theorem lane_or : LaneMeaning (fun _ _ a b => a ||| b) (fun _ _ a b => a ||| b) := fun e _ _ a b => by
  beta_reduce
  rw [← BitVec.toNat_or, BitVec.ofNat_toNat, BitVec.setWidth_eq]

theorem lane_xor : LaneMeaning (fun _ _ a b => a ^^^ b) (fun _ _ a b => a ^^^ b) := fun e _ _ a b => by
  beta_reduce
  rw [← BitVec.toNat_xor, BitVec.ofNat_toNat, BitVec.setWidth_eq]

theorem lane_sll : LaneMeaning (fun e _ a b => a * 2 ^ shiftOf e b) (fun e _ a b => a <<< (b.toNat % e)) := fun e _ _ a b =>
  BitVec.eq_of_toNat_eq (by simp [BitVec.toNat_shiftLeft, Nat.shiftLeft_eq, shiftOf])

theorem lane_srl : LaneMeaning (fun e _ a b => a / 2 ^ shiftOf e b) (fun e _ a b => a >>> (b.toNat % e)) := fun e _ _ a b => by
  beta_reduce
  rw [shiftOf, ← Nat.shiftRight_eq_div_pow, ← BitVec.toNat_ushiftRight, BitVec.ofNat_toNat, BitVec.setWidth_eq]

theorem lane_sra : LaneMeaning (fun e _ a b => sraN e a (shiftOf e b)) (fun e _ a b => a.sshiftRight (b.toNat % e)) :=
  fun e he _ a b => by
  beta_reduce
  rw [sraN, ofNat_ofSigned, toSigned_toNat he, shiftOf, BitVec.sshiftRight, Int.shiftRight_eq_div_pow]

theorem lessS_toNat {e : Nat} (he : 0 < e) (a b : BitVec e) : lessS e a.toNat b.toNat = a.slt b := by
  rw [lessS, toSigned_toNat he, toSigned_toNat he, BitVec.slt]

theorem slt_total {e : Nat} {a b : BitVec e} (h : a.slt b = false) (h' : b.slt a = false) : a = b := by
  simp only [BitVec.slt, decide_eq_false_iff_not] at h h'
  exact BitVec.eq_of_toInt_eq (by omega)

theorem slt_asymm {e : Nat} {a b : BitVec e} (h : a.slt b = true) : b.slt a = false := by
  simp only [BitVec.slt, decide_eq_true_eq, decide_eq_false_iff_not] at h ⊢
  omega

theorem ofNat_toNat_ite {e : Nat} (c : Bool) (a b : BitVec e) :
    BitVec.ofNat e (if c then a.toNat else b.toNat) = if c then a else b := by
  cases c <;> simp

theorem lane_min : LaneMeaning (fun e _ a b => minS e a b) (fun _ _ a b => if a.slt b then a else b) := fun e he _ a b => by
  beta_reduce
  rw [minS, lessS_toNat he, ofNat_toNat_ite]
  cases hab : a.slt b with
  | true => simp [slt_asymm hab]
  | false =>
    cases hba : b.slt a with
    | true => rfl
    | false => exact slt_total hab hba

theorem lane_max : LaneMeaning (fun e _ a b => maxS e a b) (fun _ _ a b => if a.slt b then b else a) := fun e he _ a b => by
  beta_reduce
  rw [maxS, lessS_toNat he, ofNat_toNat_ite]

theorem lane_minu : LaneMeaning (fun _ _ a b => min a b) (fun _ _ a b => if a.ult b then a else b) := fun e _ _ a b => by
  beta_reduce
  refine BitVec.eq_of_toNat_eq ?_
  have ha := a.isLt
  by_cases h : a.toNat < b.toNat
  · simp [BitVec.ult, h, Nat.min_eq_left h.le]
  · simp [BitVec.ult, h, Nat.min_eq_right (Nat.not_lt.mp h)]

theorem lane_maxu : LaneMeaning (fun _ _ a b => max a b) (fun _ _ a b => if a.ult b then b else a) := fun e _ _ a b => by
  beta_reduce
  refine BitVec.eq_of_toNat_eq ?_
  by_cases h : a.toNat < b.toNat
  · simp [BitVec.ult, h, Nat.max_eq_right h.le]
  · simp [BitVec.ult, h, Nat.max_eq_left (Nat.not_lt.mp h)]

theorem ofNat_maskOf (e : Nat) (c : Bool) : BitVec.ofNat e (maskOf e c) = allIf e c := by
  cases c with
  | false => rfl
  | true => exact BitVec.eq_of_toNat_eq (by simp [maskOf, allIf, ones])

theorem lane_ceq : LaneMeaning (fun e _ a b => maskOf e (a == b)) (fun e _ a b => allIf e (a == b)) := fun e _ _ a b => by
  beta_reduce
  rw [ofNat_maskOf]
  congr 1
  rw [Bool.eq_iff_iff, beq_iff_eq, beq_iff_eq, BitVec.toNat_inj]

theorem lane_clt : LaneMeaning (fun e _ a b => maskOf e (lessS e a b)) (fun e _ a b => allIf e (a.slt b)) := fun e he _ a b => by
  beta_reduce
  rw [ofNat_maskOf, lessS_toNat he]

theorem lane_cltu : LaneMeaning (fun e _ a b => maskOf e (decide (a < b))) (fun e _ a b => allIf e (a.ult b)) := fun e _ _ a b => by
  beta_reduce
  rw [ofNat_maskOf, BitVec.ult]

theorem lane_bsw : LaneMeaning (fun e _ a _ => bswap (e / 8) a) (fun e _ a _ => BitVec.ofNat e (ofBe (leBytes (e / 8) a.toNat))) :=
  fun _ _ _ _ _ => rfl

theorem ofNat_mulLow {e : Nat} (a b : BitVec e) : BitVec.ofNat e (mulLow e a.toNat b.toNat) = a * b :=
  BitVec.eq_of_toNat_eq (by simp [mulLow])

theorem lane_mul : LaneMeaning (fun e _ a b => mulLow e a b) (fun _ _ a b => a * b) := fun _ _ _ a b => ofNat_mulLow a b

theorem lane_mulh : LaneMeaning (fun e _ a b => mulHighS e a b) (fun e _ a b => BitVec.ofInt e (a.toInt * b.toInt / 2 ^ e)) :=
  fun e he _ a b => by
  beta_reduce
  rw [mulHighS, ofNat_ofSigned, toSigned_toNat he, toSigned_toNat he]
  push_cast
  rfl

theorem lane_mulhu : LaneMeaning (fun e _ a b => mulHighU e a b) (fun e _ a b => BitVec.ofNat e (a.toNat * b.toNat / 2 ^ e)) :=
  fun _ _ _ _ _ => rfl

theorem lane_mac : LaneMeaning (fun e old a b => old + mulLow e a b) (fun _ old a b => old + a * b) := fun e _ old a b =>
  BitVec.eq_of_toNat_eq (by simp [mulLow])

/-! ### The instructions -/

theorem setV_wait (x : Thr) (k v : Nat) (o : Option Nat) :
    ({ x with wait := o } : Thr).setV k v = { x.setV k v with wait := o } := rfl

theorem setM_wait (x : Thr) (k v : Nat) (o : Option Nat) :
    ({ x with wait := o } : Thr).setM k v = { x.setM k v with wait := o } := by
  unfold Thr.setM
  split <;> rfl

/-- An instruction that goes on with a scalar register written. -/
theorem writesRd_of {c : Instr} {key : Nat} {f : QOp} {v : Nat} {r : Word} (h : Fetches d i w) (hk : opKey w = some key)
    (hc : ∀ s, exec c s = issue i key f s)
    (hf : f (ctxOf i w 0) (devOf d i w) (thrOf d i w) = .go (devOf d i w) ((thrOf d i w).setS (wRd w) v)) (hv : v = r.toNat) :
    writesRd c d i w r := by
  have := does_ran h hk hc hf
  rw [thrOf, setS_wait, ran_wait] at this
  rwa [writesRd, ← hv]

/-- An instruction that goes on with a vector register written. -/
theorem writesVd_of {c : Instr} {key : Nat} {f : QOp} {v : Nat} {p : Nat → Prop} (h : Fetches d i w) (hk : opKey w = some key)
    (hc : ∀ s, exec c s = issue i key f s)
    (hf : f (ctxOf i w 0) (devOf d i w) (thrOf d i w) = .go (devOf d i w) ((thrOf d i w).setV (wRd w) v)) (hv : v < 2 ^ 512)
    (hp : p v) : writesVd c d i w p := by
  have := does_ran h hk hc hf
  rw [thrOf, setV_wait, ran_wait] at this
  exact ⟨v, hv, this, hp⟩

/-- An instruction that goes on with a mask register written. -/
theorem does_setM {c : Instr} {key : Nat} {f : QOp} {k v : Nat} (h : Fetches d i w) (hk : opKey w = some key)
    (hc : ∀ s, exec c s = issue i key f s)
    (hf : f (ctxOf i w 0) (devOf d i w) (thrOf d i w) = .go (devOf d i w) ((thrOf d i w).setM k v)) :
    Does c d (ran d i ((self d i).setM k v)) := by
  have := does_ran h hk hc hf
  rwa [thrOf, setM_wait, ran_wait] at this

theorem wElem_eq (w : Nat) : wElem w = 8 * 2 ^ (w / 2 ^ 25 % 4) := by
  rw [wElem, wFunc, bits, Nat.mod_mod_of_dvd _ (by decide)]

theorem laneRow_writes {c : Issue → Instr} {key : Nat} {f : Nat → Nat → Nat → Nat → Nat}
    {F : (e : Nat) → BitVec e → BitVec e → BitVec e → BitVec e} (hF : LaneMeaning f F)
    (hc : ∀ s, exec (c i) s = issue i key (qLanes f) s) (h : Fetches d i w) (hk : opKey w = some key) :
    let e := 8 * 2 ^ (w / 2 ^ 25 % 4)
    let old := (self d i).vreg (wRd w)
    writesVd (c i) d i w fun v => ∀ k, k < 512 / e →
      laneBv e v k = if ((self d i).mreg (wMk w)).testBit k
        then F e (laneBv e old k) (laneBv e ((self d i).vreg (wRa w)) k) (laneBv e ((self d i).vreg (wRb w)) k)
        else laneBv e old k := by
  rw [← wElem_eq]
  have he : 0 < wElem w := Nat.mul_pos (by decide) (Nat.two_pow_pos _)
  refine writesVd_of h hk hc rfl (maskLanes_lt ..) fun k hkl => ?_
  show laneBv (wElem w) (maskLanes (wElem w) _ _ _) k = _
  rw [laneBv_maskLanes _ _ _ hkl, ← hF _ he, toNat_laneBv, toNat_laneBv, toNat_laneBv]
  rfl

end Sys2Proof.Machine

namespace Sys2Proof.Claims
open Sys2Proof.Machine

theorem vectorLaneResults : VectorLaneResults := by
  intro r hr d i w h
  simp only [laneRows, List.mem_cons, List.not_mem_nil, or_false] at hr
  rcases hr with rfl | rfl | rfl | rfl | rfl | rfl | rfl | rfl | rfl | rfl | rfl | rfl | rfl | rfl | rfl | rfl | rfl | rfl | rfl |
    rfl | rfl | rfl
  · exact laneRow_writes lane_add (fun _ => rfl) h
  · exact laneRow_writes lane_sub (fun _ => rfl) h
  · exact laneRow_writes lane_adds (fun _ => rfl) h
  · exact laneRow_writes lane_subs (fun _ => rfl) h
  · exact laneRow_writes lane_and (fun _ => rfl) h
  · exact laneRow_writes lane_or (fun _ => rfl) h
  · exact laneRow_writes lane_xor (fun _ => rfl) h
  · exact laneRow_writes lane_sll (fun _ => rfl) h
  · exact laneRow_writes lane_srl (fun _ => rfl) h
  · exact laneRow_writes lane_sra (fun _ => rfl) h
  · exact laneRow_writes lane_min (fun _ => rfl) h
  · exact laneRow_writes lane_max (fun _ => rfl) h
  · exact laneRow_writes lane_minu (fun _ => rfl) h
  · exact laneRow_writes lane_maxu (fun _ => rfl) h
  · exact laneRow_writes lane_ceq (fun _ => rfl) h
  · exact laneRow_writes lane_clt (fun _ => rfl) h
  · exact laneRow_writes lane_cltu (fun _ => rfl) h
  · exact laneRow_writes lane_bsw (fun _ => rfl) h
  · exact laneRow_writes lane_mul (fun _ => rfl) h
  · exact laneRow_writes lane_mulh (fun _ => rfl) h
  · exact laneRow_writes lane_mulhu (fun _ => rfl) h
  · exact laneRow_writes lane_mac (fun _ => rfl) h

end Sys2Proof.Claims
end

section
/-! SUPPORT. VMISC: splats, moves, crossfade weights, masks (Table 07-4, R168, R233, R247). -/

namespace Sys2Proof.Machine

open Sys2Proof.Claims

variable {d : Dev} {i : Issue} {w : Nat}

theorem splat_writes {c : Instr} {key e : Nat} (hc : ∀ s, exec c s = issue i key (qVspl e) s) (h : Fetches d i w)
    (hk : opKey w = some key) :
    writesVd c d i w fun v => ∀ k, k < 512 / e → laneBv e v k = (sval d i (wRa w)).setWidth e := by
  refine writesVd_of h hk hc rfl (ofLanes_lt ..) fun k hkl => ?_
  have hs : (sval d i (wRa w)).setWidth e = BitVec.ofNat e ((self d i).sreg (wRa w)) := by
    refine BitVec.eq_of_toNat_eq ?_
    rw [BitVec.toNat_setWidth, toNat_sval, BitVec.toNat_ofNat]
  rw [hs]
  exact laneBv_ofLanes _ hkl

/-- The weights of R168 as they stand in the table, and their symmetry. -/
theorem fadeWeight_spec : (∀ m < 0, fadeWeight m = 0) ∧ (∀ m > 31, fadeWeight m = 65536) ∧ fadeWeight 0 = 39 ∧
    fadeWeight 16 = 34376 ∧ fadeWeight 31 = 65497 ∧ ∀ m, 0 ≤ m → m ≤ 31 → fadeWeight m + fadeWeight (31 - m) = 65536 := by
  refine ⟨fun m hm => if_pos hm, fun m hm => ?_, rfl, rfl, rfl, fun m hlo hhi => ?_⟩
  · rw [fadeWeight, if_neg (by omega), if_pos hm]
  · have table : ∀ n : Fin 32, fadeTable.getD n 0 + fadeTable.getD (31 - n) 0 = 65536 := by decide
    have hn : (31 - m).toNat = 31 - m.toNat := by omega
    rw [fadeWeight, if_neg (by omega), if_neg (by omega), fadeWeight, if_neg (by omega), if_neg (by omega), hn]
    exact table ⟨m.toNat, by omega⟩

theorem toInt_sval (k : Nat) : (sval d i k).toInt = toSigned 64 ((self d i).sreg k) := by
  rw [← toSigned_toNat (by decide), toNat_sval]

end Sys2Proof.Machine

namespace Sys2Proof.Claims
open Sys2Proof.Machine

theorem vectorMoveResults : VectorMoveResults := by
  refine ⟨fun p hp d i w h hk => ?_, fun d i w h => ?_⟩
  · simp only [List.mem_cons, List.not_mem_nil, or_false] at hp
    rcases hp with rfl | rfl | rfl | rfl
    · exact splat_writes (fun _ => rfl) h hk
    · exact splat_writes (fun _ => rfl) h hk
    · exact splat_writes (fun _ => rfl) h hk
    · exact splat_writes (fun _ => rfl) h hk
  · rw [toNat_sval]
    refine ⟨fun hk => ?_, fun hk => ?_, fun hk => ?_, fun hk => ?_, fun hk => ?_, fun hk => ?_, fun hk => ?_⟩
    · exact writesRd_of h hk (fun _ => rfl) rfl (toNat_laneBv ..).symm
    · refine writesVd_of h hk (fun _ => rfl) rfl (maskLanes_lt ..) fun k hk8 => ?_
      rw [laneBv_maskLanes _ _ _ hk8, Nat.testBit_two_pow]
      simp only [decide_eq_true_eq, @eq_comm _ k]
      rfl
    · exact writesVd_of h hk (fun _ => rfl) rfl (vreg_lt ..) rfl
    · obtain ⟨hlow, hhigh, h0, h16, h31, hsym⟩ := fadeWeight_spec
      refine ⟨fadeWeight, hlow, hhigh, h0, h16, h31, hsym, ?_⟩
      refine writesVd_of h hk (fun _ => rfl) rfl (ofLanes_lt ..) fun k hk8 => ?_
      rw [laneBv_ofLanes _ hk8, toInt_sval]
      rfl
    · rw [toNat_sval]
      exact does_setM h hk (fun _ => rfl) rfl
    · refine writesRd_of h hk (fun _ => rfl) rfl ?_
      have hlt : (self d i).mreg (wMk w) < 2 ^ 64 := by
        rw [Thr.mreg]
        split
        · decide
        · exact Nat.mod_lt _ (by decide)
      rw [BitVec.toNat_ofNat, Nat.mod_eq_of_lt hlt]
      rfl
    · rw [toNat_sval, Nat.min_comm]
      exact does_setM h hk (fun _ => rfl) rfl

end Sys2Proof.Claims
end

section
/-! SUPPORT. Vector atomics and AES3 moves on a line of the crib or the own drove (R199, R244, R249). -/

namespace Sys2Proof.Machine

open Sys2Proof.Claims

variable {d : Dev} {i : Issue} {w : Nat}

/-! ### Bytes stored beside the threads -/

theorem setBytes_setThr (d : Dev) (n t : Nat) (x : Thr) (a : Nat) (l : List Byte) :
    (d.setThr n t x).setBytes a l = (d.setBytes a l).setThr n t x := by
  induction l generalizing d a with
  | nil => rfl
  | cons b l ih => exact ih (d.setByte a b) (a + 1)

theorem devOf_setBytes (d : Dev) (a : Nat) (l : List Byte) : devOf (d.setBytes a l) i w = (devOf d i w).setBytes a l := by
  have hself : self (d.setBytes a l) i = self d i := by rw [self, Dev.thr, setBytes_drv, self, Dev.thr]
  rw [devOf, thrOf, hself, devOf, setBytes_setThr]
  rfl

theorem serviceRange_idle (d : Dev) (a n : Nat) (h : d.bst.slices = []) : d.serviceRange a n = d := by
  rw [Dev.serviceRange, serviceAt_idle d a h, serviceAt_idle d _ h]

/-! ### Places -/

theorem place_crib {a len : Nat} (h : cribRange a len) (hlen : 0 < len) : place i.n a = .crib (localKey i a) := by
  obtain ⟨hlo, hhi⟩ := h
  have hc : cribBase ≤ a ∧ a < cribBase + 0x40000 := ⟨hlo, by omega⟩
  rw [place, if_neg (by unfold cribBase at hlo; omega), if_pos hc, localKey, if_pos hc]

theorem place_alias {a : Nat} (hlo : droveAlias ≤ a) (hhi : a < droveAlias + 0x400000) : place i.n a = .drove (localKey i a) := by
  unfold droveAlias at hlo hhi
  have hcrib : ¬ (cribBase ≤ a ∧ a < cribBase + 0x40000) := by unfold cribBase; omega
  rw [place, if_neg (by omega), if_neg hcrib, if_neg (by unfold imemBase; omega), if_pos (by unfold droveAlias; omega), localKey,
    if_neg hcrib]

theorem droveOf_alias {a : Nat} (hlo : droveAlias ≤ a) (hhi : a < droveAlias + 0x400000) : droveOf (localKey i a) = i.n / 8 := by
  unfold droveAlias at hlo hhi
  rw [localKey, if_neg (by unfold cribBase; omega), droveOf]
  unfold droveAlias
  omega

theorem runs_of_fetches (h : Fetches d i w) : d.island (64 + (i.n : Nat) / 8) = 0 := by
  have := h.can
  simp only [Dev.canIssue, Dev.issues, Dev.droveRuns, Bool.and_eq_true, beq_iff_eq] at this
  exact this.1.1.1.1

/-- A place an atomic may take: the crib, or the own drove, whose memory answers. -/
inductive LocalPlace (d : Dev) (i : Issue) (a : Nat) : Prop
  | crib (h : place i.n a = .crib (localKey i a))
  | drove (h : place i.n a = .drove (localKey i a)) (hown : droveOf (localKey i a) = i.n / 8) (hon : d.island (64 + (i.n : Nat) / 8) = 0)

theorem localPlace (h : Fetches d i w) {a : Nat} (ha : isLocal a 64) : LocalPlace d i a := by
  rcases ha with ha | ⟨hlo, hhi⟩
  · exact .crib (place_crib ha (by decide))
  · have hhi : a < droveAlias + 0x400000 := by omega
    exact .drove (place_alias hlo hhi) (droveOf_alias hlo hhi) (runs_of_fetches h)

namespace LocalPlace

variable {a : Nat}

theorem not_long (h : LocalPlace d i a) : isLong i.n a = false := by
  cases h with
  | crib h => rw [isLong, h]
  | drove h hown => simp [isLong, h, hown]

theorem load (h : LocalPlace d i a) {c : QCtx} {e : Dev} (hn : c.n = i.n) (hecc : c.ecc = 0) (hisl : e.isl = d.isl)
    (ht : e.bst.slices = []) (len : Nat) : qLoad c e a len = (e, 0, e.bytes (localKey i a) len) := by
  have hsram : (e.serviceAt (localKey i a)).sramEcc c.n (localKey i a) c.ecc = e := by
    rw [serviceAt_idle _ _ ht, hecc, sramEcc_none]
  have hgood : ¬ c.ecc = 2 := by rw [hecc]; decide
  cases h with
  | crib h => rw [qLoad, hn, h, ← hn]; simp only [hsram, if_neg hgood]
  | drove h hown hon =>
    have hon : e.island (64 + droveOf (localKey i a)) = 0 := by rw [Dev.island, hisl, hown]; exact hon
    rw [qLoad, hn, h, ← hn]
    simp only [hsram, if_neg hgood, if_pos hon]

theorem store (h : LocalPlace d i a) {c : QCtx} {e : Dev} (hn : c.n = i.n) (hisl : e.isl = d.isl) (ht : e.bst.slices = [])
    (l : List Byte) : (qStore c e a l).1 = e.setBytes (localKey i a) l := by
  cases h with
  | crib h => rw [qStore, hn, h]; simp only [serviceAt_idle _ _ ht]
  | drove h hown hon =>
    have hon : e.island (64 + droveOf (localKey i a)) = 0 := by rw [Dev.island, hisl, hown]; exact hon
    rw [qStore, hn, h]
    simp only [serviceAt_idle _ _ ht, if_pos hon]

/-- An atomic on a line: the operation's bytes are stored on the device it leaves. -/
theorem atom (h : LocalPlace d i a) {c : QCtx} {e e' : Dev} {x x' : Thr} {l : List Byte} (hal : a % 64 = 0) (hn : c.n = i.n)
    (hecc : c.ecc = 0) (hisl : e.isl = d.isl) (ht : e.bst.slices = []) {f : Dev → Thr → List Byte → Dev × Thr × List Byte}
    (hf : f e x (e.bytes (localKey i a) 64) = (e', x', l)) (hisl' : e'.isl = d.isl) (ht' : e'.bst.slices = []) :
    qAtomOp c e x a 64 f = .go (e'.setBytes (localKey i a) l) x' := by
  have hlong := h.not_long
  have hload := h.load hn hecc hisl ht 64
  have hstore := h.store hn hisl' ht' l
  rw [← hn] at hlong
  rw [qAtomOp, if_neg (not_not.mpr hal)]
  cases h with
  | crib h =>
    rw [← hn] at h
    simp [h, hlong, hload, hf, hstore]
  | drove h =>
    rw [← hn] at h
    simp [h, hlong, hload, hf, hstore]

end LocalPlace

/-! ### What is stored -/

theorem lineIs_maskLanes (d : Dev) (k mask : Nat) (f : Nat → Word → Word) (g : Nat → Nat)
    (hg : ∀ j, j < 8 → BitVec.ofNat 64 (g j) = f j (laneBv 64 (d.load k 64) j)) :
    lineIs d k mask f (maskLanes 64 (mask % 256) (d.load k 64) g) := by
  refine ⟨maskLanes_lt .., fun j hj => ?_⟩
  have hbit : (mask % 256).testBit j = mask.testBit j := by
    rw [show (256 : Nat) = 2 ^ 8 from rfl, Nat.testBit_mod_two_pow, decide_eq_true hj, Bool.true_and]
  rw [laneBv_maskLanes _ _ _ hj, hbit, hg j hj]

theorem storedThere_line (d : Dev) (k v : Nat) : storedThere d k (leBytes 64 v) :=
  ⟨bytes_setBytes .., fun _ h => byte_setBytes_out _ _ _ _ h⟩

/-- Words swapped out are counted as collisions where the line lies in drove memory. -/
theorem vaput_eq {a k mask new : Nat} (h : isLocal a 64) : (devOf d i w).vaput i.n a mask (d.load k 64) new =
    (devOf (collided d a k mask) i w, maskLanes 64 (mask % 256) (d.load k 64) fun j => lane 64 new j) := by
  have hhits : ((List.range 8).filter fun j => mask.testBit j && (lane 64 (d.load k 64) j).testBit 63).length = collisions d k mask := by
    simp only [collisions, BitVec.getLsbD, toNat_laneBv]
  rw [Dev.vaput]
  rw [hhits]
  rcases h with h | ⟨hlo, hhi⟩
  · have hnot : ¬ (droveAlias ≤ a ∧ a < droveAlias + 0x400000 ∧ collisions d k mask ≠ 0) := fun hc => by
      obtain ⟨-, hhi⟩ := h
      have := hc.1
      unfold droveAlias at this
      unfold cribBase at hhi
      omega
    rw [place_crib h (by decide), collided, if_neg hnot]
    rfl
  · have hhi : a < droveAlias + 0x400000 := by omega
    rw [place_alias hlo hhi, collided]
    by_cases hc : collisions d k mask = 0
    · simp [hc]
    · simp only [hlo, hhi, hc, ne_eq, not_false_eq_true, and_self, if_true]
      rfl

theorem collided_isl (d : Dev) (a k mask : Nat) : (collided d a k mask).isl = d.isl := by
  rw [collided]
  split <;> rfl

theorem collided_bst (d : Dev) (a k mask : Nat) : (collided d a k mask).bst = d.bst := by
  rw [collided]
  split <;> rfl

end Sys2Proof.Machine
end

section
/-! SUPPORT. The statement on vector instructions (O4): the atomics, clause by clause. -/

namespace Sys2Proof.Machine

open Sys2Proof.Claims

variable {d : Dev} {i : Issue} {w : Nat}

/-! ### A number within a number of bytes -/

/-- Bytes from `m` on, `n` of them, are a field of the number the bytes spell. -/
theorem bits_ofLe (l : List Byte) (m n : Nat) (h : m + n ≤ l.length) : bits (ofLe l) (8 * m) (8 * n) = ofLe ((l.drop m).take n) := by
  rw [bits, ← pow_bytes, ← pow_bytes]
  induction m generalizing l with
  | zero =>
    rw [pow_zero, Nat.div_one, List.drop_zero]
    induction n generalizing l with
    | zero => simp [ofLe, Nat.mod_one]
    | succ n ih =>
      cases l with
      | nil => simp at h
      | cons b l =>
        have hb : b.toNat < 256 := b.isLt
        have hl : 0 + n ≤ l.length := by simp only [List.length_cons] at h; omega
        rw [List.take_succ_cons, ofLe, ofLe, ← ih l hl, Nat.pow_succ, Nat.mul_comm (256 ^ n), Nat.mod_mul]
        rw [Nat.add_mul_mod_self_left, Nat.mod_eq_of_lt hb, Nat.add_mul_div_left _ _ (by decide), Nat.div_eq_of_lt hb, Nat.zero_add]
  | succ m ih =>
    cases l with
    | nil => simp at h
    | cons b l =>
      have hb : b.toNat < 256 := b.isLt
      have hl : m + n ≤ l.length := by simp only [List.length_cons] at h; omega
      rw [List.drop_succ_cons, ← ih l hl, ofLe, Nat.pow_succ, Nat.mul_comm (256 ^ m), ← Nat.div_div_eq_div_mul,
        Nat.add_mul_div_left _ _ (by decide), Nat.div_eq_of_lt hb, Nat.zero_add]

theorem bytes_drop_take (d : Dev) (a n : Nat) {m k : Nat} (h : m + k ≤ n) : ((d.bytes a n).drop m).take k = d.bytes (a + m) k := by
  refine List.ext_getElem ?_ fun j hj _ => ?_
  · simp only [Dev.bytes, List.length_take, List.length_drop, List.length_map, List.length_range]
    omega
  · simp [Dev.bytes, Nat.add_assoc]

/-- A field of whole bytes of a number in memory is the number of those bytes. -/
theorem bits_load (d : Dev) (a n : Nat) {m k : Nat} (h : m + k ≤ n) : bits (d.load a n) (8 * m) (8 * k) = d.load (a + m) k := by
  rw [Dev.load, bits_ofLe _ _ _ (by simpa [Dev.bytes] using h), bytes_drop_take d a n h, Dev.load]

theorem toNat_word32 (d : Dev) (k j : Nat) (h : j < 8) : (word32 d k j).toNat = lane 32 (d.load k 32) j := by
  rw [word32, BitVec.toNat_ofNat, lane, show j * 32 = 8 * (4 * j) by omega, show (32 : Nat) = 8 * 4 from rfl,
    bits_load _ _ _ (by omega)]
  exact Nat.mod_eq_of_lt (load_lt d _ 4)

/-! ### VAADD, VAPUT, AMOV -/

theorem ecc_ctxOf (h : i.dataEcc = 0) : (ctxOf i w 0).ecc = 0 := by
  show (i.dataEcc : Nat) = 0
  rw [h]
  rfl

/-- The device and the line of an instruction that stores a line and goes on. -/
theorem does_stores {c : Instr} {key a v : Nat} {f : QOp} {e : Dev} (h : Fetches d i w) (hk : opKey w = some key)
    (hc : ∀ s, exec c s = issue i key f s)
    (hf : f (ctxOf i w 0) (devOf d i w) (thrOf d i w) = .go ((devOf e i w).setBytes a (leBytes 64 v)) (thrOf d i w)) :
    Does c d (ran (e.setBytes a (leBytes 64 v)) i (self d i)) := by
  rw [← devOf_setBytes] at hf
  exact (does_ran h hk hc hf :)

theorem cribLoad_good {c : QCtx} {e : Dev} {a len : Nat} (ha : cribRange a len) (hlen : 0 < len) (hn : c.n = i.n)
    (hecc : c.ecc = 0) (ht : e.bst.slices = []) : cribLoad c e a len = (e, 0, e.bytes (localKey i a) len) := by
  have hkey : placeKey c.n a = localKey i a := by rw [placeKey, hn, place_crib ha hlen]
  rw [cribLoad, hkey, serviceRange_idle _ _ _ ht, hecc, sramEcc_none]
  rfl

/-- AMOV on the own drove: the crib's words with bit 63 set are put into the line. -/
theorem qAmov_near {n : Nat} {a b k : Nat} {l : List Byte} {e : Dev} {x : Thr} {c : QCtx} (hal : a % 64 = 0) (hbal : b % 32 = 0)
    (hplace : place n a = .drove k) (hb : cribRange b 32) (hlong : isLong n a = false) (hsrc : cribLoad c e b 32 = (e, 0, l))
    (hn : c.n = n := by rfl) (hfin : c.fin = false := by rfl) (hxa : x.sreg (wRa c.w) = a := by rfl)
    (hxb : x.sreg (wRb c.w) = b := by rfl) :
    qAmov c e x = qAtomOp { c with ecc := 0 } e x a 64 fun d x l' =>
      let r := d.vaput n a (x.mreg (wMk c.w)) (ofLe l') (ofLanes 64 fun j => 2 ^ 63 + lane 32 (ofLe l) j)
      (r.1, x, leBytes 64 r.2) := by
  subst hn
  have hc : inCrib b 32 = true := decide_eq_true hb
  simp only [qAmov, hxa, hxb, hal, hbal, hplace, hc, hlong, hfin, hsrc, ne_eq, not_true_eq_false, if_false, Bool.true_eq_false,
    Bool.false_eq_true, false_and]

/-- An atomic that swaps lanes of `new` into its line. -/
theorem atom_vaput (h : Fetches d i w) {a new : Nat} {c : QCtx} {f : Dev → Thr → List Byte → Dev × Thr × List Byte}
    (ha : isLocal a 64) (hal : a % 64 = 0)
    (hn : c.n = i.n) (hc : c.ecc = 0) (mask : Nat)
    (hf : ∀ l, f (devOf d i w) (thrOf d i w) l =
      (((devOf d i w).vaput i.n a mask (ofLe l) new).1, thrOf d i w, leBytes 64 ((devOf d i w).vaput i.n a mask (ofLe l) new).2)) :
    qAtomOp c (devOf d i w) (thrOf d i w) a 64 f =
      .go ((devOf (collided d a (localKey i a) mask) i w).setBytes (localKey i a)
        (leBytes 64 (maskLanes 64 (mask % 256) (d.load (localKey i a) 64) fun j => lane 64 new j))) (thrOf d i w) := by
  have hput : (devOf d i w).vaput i.n a mask (ofLe ((devOf d i w).bytes (localKey i a) 64)) new = _ := vaput_eq ha
  refine (localPlace h ha).atom (e := devOf d i w) (e' := devOf (collided d a (localKey i a) mask) i w) hal hn hc rfl h.tests ?_
    (collided_isl d a _ mask)
    ((congrArg BstSt.slices (collided_bst d a _ mask)).trans h.tests)
  rw [hf, hput]

section
variable (h : Fetches d i w) (hecc : i.dataEcc = 0)
include h hecc

theorem does_vaadd (hk : opKey w = some 0x2500) (ha : isLocal ((self d i).sreg (wRa w)) 64) (hal : (self d i).sreg (wRa w) % 64 = 0) :
    let k := localKey i ((self d i).sreg (wRa w))
    let mask := (self d i).mreg (wMk w)
    ∃ v, lineIs d k mask (fun j old => sat 64 (old.toInt + (laneBv 64 ((self d i).vreg (wRb w)) j).toInt)) v ∧
      Does (.vaadd i) d (ran (d.setBytes k (leBytes 64 v)) i (self d i)) ∧ storedThere d k (leBytes 64 v) := by
  intro k mask
  refine ⟨_, lineIs_maskLanes d k mask _ (fun j => ofSigned 64 (satSigned 64 (toSigned 64 (lane 64 (d.load k 64) j) +
    toSigned 64 (lane 64 ((self d i).vreg (wRb w)) j)))) fun j _ => ?_, does_stores h hk (fun _ => rfl) ?_, storedThere_line ..⟩
  · rw [ofNat_satSigned, ← toNat_laneBv, ← toNat_laneBv, toSigned_toNat (by decide), toSigned_toNat (by decide)]
  · refine (localPlace h ha).atom (e := devOf d i w) hal rfl (ecc_ctxOf hecc) rfl h.tests ?_ rfl h.tests
    rfl

theorem does_vaput (hk : opKey w = some 0x2501) (ha : isLocal ((self d i).sreg (wRa w)) 64) (hal : (self d i).sreg (wRa w) % 64 = 0) :
    let a := (self d i).sreg (wRa w)
    let k := localKey i a
    let mask := (self d i).mreg (wMk w)
    ∃ v, lineIs d k mask (fun j _ => laneBv 64 ((self d i).vreg (wRb w)) j) v ∧
      Does (.vaput i) d (ran ((collided d a k mask).setBytes k (leBytes 64 v)) i (self d i)) := by
  intro a k mask
  have hatom := atom_vaput h ha hal (c := ctxOf i w 0) (f := fun d x l =>
    let r := d.vaput i.n a (x.mreg (wMk w)) (ofLe l) (x.vreg (wRb w)); (r.1, x, leBytes 64 r.2)) rfl (ecc_ctxOf hecc) mask fun _ => rfl
  exact ⟨_, lineIs_maskLanes d k mask _ (fun j => lane 64 ((self d i).vreg (wRb w)) j) fun j _ => (laneBv_eq ..).symm,
    does_stores h hk (fun _ => rfl) hatom⟩

theorem does_amov (hk : opKey w = some 0x2805) (hlo : droveAlias ≤ (self d i).sreg (wRa w))
    (hhi : (self d i).sreg (wRa w) + 64 ≤ droveAlias + 0x400000) (hal : (self d i).sreg (wRa w) % 64 = 0)
    (hb : cribRange ((self d i).sreg (wRb w)) 32) (hbal : (self d i).sreg (wRb w) % 32 = 0) :
    let a := (self d i).sreg (wRa w)
    let k := localKey i a
    let mask := (self d i).mreg (wMk w)
    ∃ v, lineIs d k mask (fun j _ => BitVec.ofNat 64 (2 ^ 63 + (word32 d (localKey i ((self d i).sreg (wRb w))) j).toNat)) v ∧
      Does (.amov i) d (ran ((collided d a k mask).setBytes k (leBytes 64 v)) i (self d i)) := by
  intro a k mask
  let new := ofLanes 64 fun j => 2 ^ 63 + lane 32 (d.load (localKey i ((self d i).sreg (wRb w))) 32) j
  have hlocal : isLocal a 64 := .inr ⟨hlo, hhi⟩
  have hsrc := cribLoad_good (c := ctxOf i w 0) (e := devOf d i w) hb (by decide) rfl (ecc_ctxOf hecc) h.tests
  have hnear := qAmov_near (x := thrOf d i w) hal hbal (place_alias hlo (by omega)) hb (localPlace h hlocal).not_long hsrc
  have hatom := atom_vaput h hlocal hal (c := { ctxOf i w 0 with ecc := 0 }) (new := new) (f := fun d x l =>
    let r := d.vaput i.n a (x.mreg (wMk w)) (ofLe l) new; (r.1, x, leBytes 64 r.2)) rfl rfl mask fun _ => rfl
  refine ⟨_, lineIs_maskLanes d k mask _ (fun j => lane 64 new j) fun j hj => ?_, does_stores h hk (fun _ => rfl) (hnear.trans hatom)⟩
  rw [← laneBv_eq, laneBv_ofLanes _ hj, toNat_word32 _ _ _ hj]

end

theorem faults_misaligned (h : Fetches d i w) (hal : (self d i).sreg (wRa w) % 64 ≠ 0) :
    (opKey w = some 0x2500 → faults (.vaadd i) d i 3) ∧ (opKey w = some 0x2501 → faults (.vaput i) d i 3) ∧
      (opKey w = some 0x2805 → faults (.amov i) d i 3) :=
  ⟨fun hk => faults_at_of h hk (fun _ => rfl) (if_pos hal) (by decide),
    fun hk => faults_at_of h hk (fun _ => rfl) (if_pos hal) (by decide),
    fun hk => faults_at_of h hk (fun _ => rfl) (if_pos hal) (by decide)⟩

end Sys2Proof.Machine

namespace Sys2Proof.Claims
open Sys2Proof.Machine

theorem vectorAtomicResults : VectorAtomicResults := by
  intro d i w h hecc
  rw [toNat_sval, toNat_sval]
  exact ⟨does_vaadd h hecc, does_vaput h hecc, does_amov h hecc, faults_misaligned h⟩

/-- Settles O4: a lane-wise instruction lane by lane, the moves and masks, the atomics by where their line lies. -/
theorem vectorResults : Obligations.VectorResults := ⟨vectorLaneResults, vectorMoveResults, vectorAtomicResults⟩

end Sys2Proof.Claims
end

section
/-! SUPPORT. Contexts of the media unit: a half read after it is written (Tables 05-11 to 05-14). -/

namespace Sys2Proof.Machine

open Sys2Proof.Claims

variable {d e : Dev}

/-! ### Fields of one bit, fields at bit 0 -/

theorem bits_one (v n : Nat) : bits v n 1 = (v.testBit n).toNat := (Nat.toNat_testBit v n).symm

theorem bits_one_eq_one (v n : Nat) : bits v n 1 = 1 ↔ v.testBit n = true := by
  rw [bits_one]
  cases v.testBit n <;> simp

theorem bits_one_eq_zero (v n : Nat) : bits v n 1 = 0 ↔ v.testBit n = false := by
  rw [bits_one]
  cases v.testBit n <;> simp

theorem bits_low (v w : Nat) : bits v 0 w = v % 2 ^ w := by rw [bits, pow_zero, Nat.div_one]

theorem putBits_low (v w x : Nat) : putBits v 0 w x = v / 2 ^ w * 2 ^ w + x % 2 ^ w := by
  rw [putBits, Nat.zero_add, pow_zero, Nat.mul_one, Nat.mod_one, Nat.add_zero]

/-- A set bit taken away. -/
theorem putBits_clear {v n : Nat} (h : v.testBit n = true) : putBits v n 1 0 = v - 2 ^ n := by
  have hbit : v / 2 ^ n % 2 = 1 := (bits_one_eq_one v n).mpr h
  have hhalf : v / 2 ^ (n + 1) = v / 2 ^ n / 2 := by rw [Nat.pow_succ, Nat.div_div_eq_div_mul]
  have hv := Nat.div_add_mod v (2 ^ n)
  have hq : v / 2 ^ n = 2 * (v / 2 ^ n / 2) + 1 := by omega
  have hmul : 2 ^ n * (v / 2 ^ n) = v / 2 ^ n / 2 * (2 ^ n * 2) + 2 ^ n := by
    conv_lhs => rw [hq]
    ring
  rw [putBits, hhalf, Nat.pow_succ, Nat.zero_mod, Nat.zero_mul]
  omega

/-! ### Receive contexts -/

theorem rxCtx_of_med (h : e.med = d.med) (i : Nat) : e.rxCtx i = d.rxCtx i := by rw [Dev.rxCtx, h, Dev.rxCtx]
theorem pairCtx_of_med (h : e.med = d.med) (i : Nat) : e.pairCtx i = d.pairCtx i := by rw [Dev.pairCtx, h, Dev.pairCtx]
theorem egrCtx_of_med (h : e.med = d.med) (k : Nat) : e.egrCtx k = d.egrCtx k := by rw [Dev.egrCtx, h, Dev.egrCtx]

theorem rxCtx_setRx (d : Dev) (i : Nat) (c : Nat × Nat) : (d.setRx i c).rxCtx i = c := tget_tset ..
theorem rxCtx_setRx_ne {i j : Nat} (h : j ≠ i) (d : Dev) (c : Nat × Nat) : (d.setRx i c).rxCtx j = d.rxCtx j :=
  tget_tset_ne _ _ _ _ _ h

theorem pairCtx_setPair (d : Dev) (i : Nat) (c : Nat × Nat) : (d.setPair i c).pairCtx i = c := tget_tset ..
theorem pairCtx_setPair_ne {i j : Nat} (h : j ≠ i) (d : Dev) (c : Nat × Nat) : (d.setPair i c).pairCtx j = d.pairCtx j :=
  tget_tset_ne _ _ _ _ _ h

theorem egrCtx_setEgr (d : Dev) (k : Nat) (c : Nat × Nat) : (d.setEgr k c).egrCtx k = c := tget_tset ..
theorem egrCtx_setEgr_ne {k j : Nat} (h : j ≠ k) (d : Dev) (c : Nat × Nat) : (d.setEgr k c).egrCtx j = d.egrCtx j :=
  tget_tset_ne _ _ _ _ _ h

theorem rxCtx_rxStat (d : Dev) (i lo w v : Nat) : (d.rxStat i lo w v).rxCtx i = ((d.rxCtx i).1, putBits (d.rxCtx i).2 lo w v) :=
  rxCtx_setRx ..
theorem rxCtx_rxStat_ne {i j : Nat} (h : j ≠ i) (d : Dev) (lo w v : Nat) : (d.rxStat i lo w v).rxCtx j = d.rxCtx j :=
  rxCtx_setRx_ne h ..
theorem pairCtx_pairStat (d : Dev) (i lo w v : Nat) :
    (d.pairStat i lo w v).pairCtx i = ((d.pairCtx i).1, putBits (d.pairCtx i).2 lo w v) := pairCtx_setPair ..
theorem egrCtx_egrStat (d : Dev) (k lo w v : Nat) :
    (d.egrStat k lo w v).egrCtx k = ((d.egrCtx k).1, putBits (d.egrCtx k).2 lo w v) := egrCtx_setEgr ..
theorem egrCtx_egrStat_ne {k j : Nat} (h : j ≠ k) (d : Dev) (lo w v : Nat) : (d.egrStat k lo w v).egrCtx j = d.egrCtx j :=
  egrCtx_setEgr_ne h ..

/-- A status field of a receive context once it has counted `n`. -/
theorem bits_rxBump {lo w : Nat} (d : Dev) (i n : Nat) :
    bits ((d.rxBump i lo w n).rxCtx i).2 lo w = (bits (d.rxCtx i).2 lo w + n) % 2 ^ w := by
  rw [Dev.rxBump, rxCtx_rxStat, bits_putBits_in (Nat.le_refl lo) (Nat.le_refl _), Nat.sub_self, bits_low]

theorem bits_rxBump_out {lo w a m : Nat} (h : a + m ≤ lo ∨ lo + w ≤ a) (d : Dev) (i n : Nat) :
    bits ((d.rxBump i lo w n).rxCtx i).2 a m = bits (d.rxCtx i).2 a m := by
  rw [Dev.rxBump, rxCtx_rxStat, bits_putBits_out h]

theorem rxBump_cfg (d : Dev) (i lo w n : Nat) : ((d.rxBump i lo w n).rxCtx i).1 = (d.rxCtx i).1 := by
  rw [Dev.rxBump, rxCtx_rxStat]

end Sys2Proof.Machine
end

section
/-! SUPPORT. Receive time-outs: a stalled stream, a leg that goes down (R158, R163). -/

namespace Sys2Proof.Machine

open Sys2Proof.Claims

variable {d : Dev}

/-- RECEIVING without a frame for stall_ms. -/
def stallDue (d : Dev) (ctx : Nat) : Prop :=
  (d.rxCtx ctx).2 % 4 = 2 ∧ part (d.rxCtx ctx).1 144 16 ≠ 0 ∧ tget 0 d.med.rxSeen ctx + part (d.rxCtx ctx).1 144 16 * millis ≤ d.clock

theorem streamStall_idle {ctx : Nat} (h : ¬ stallDue d ctx) : streamStall ctx d = d := by
  have hc : ¬ (bits (d.rxCtx ctx).2 0 2 = 2 ∧ bits (d.rxCtx ctx).1 144 16 ≠ 0 ∧
      d.passed (tget 0 d.med.rxSeen ctx + bits (d.rxCtx ctx).1 144 16 * 65536000000) = true) := by
    rwa [bits_low, Dev.passed, decide_eq_true_iff]
  exact if_neg hc

theorem streamStall_due {ctx : Nat} (h : stallDue d ctx) : streamStall ctx d = (d.rxStat ctx 0 2 3).raise Ev.streamStall ctx := by
  have hc : bits (d.rxCtx ctx).2 0 2 = 2 ∧ bits (d.rxCtx ctx).1 144 16 ≠ 0 ∧
      d.passed (tget 0 d.med.rxSeen ctx + bits (d.rxCtx ctx).1 144 16 * 65536000000) = true := by
    rwa [bits_low, Dev.passed, decide_eq_true_iff]
  exact if_pos hc

theorem does_streamStall (hon : On d) (ctx : Fin 65536) (h : stallDue d ctx) :
    ∃ d', Does (.streamStall ctx) d d' ∧ (d'.rxCtx ctx).1 = (d.rxCtx ctx).1 ∧ (d'.rxCtx ctx).2 = (d.rxCtx ctx).2 + 1 ∧
      pends d' 121 ∧ d'.mem = d.mem ∧ ∀ c, c ≠ (ctx : Nat) → d'.rxCtx c = d.rxCtx c := by
  have hctx : ((d.rxStat ctx 0 2 3).raise Ev.streamStall ctx).rxCtx ctx = ((d.rxCtx ctx).1, putBits (d.rxCtx ctx).2 0 2 3) :=
    (rxCtx_of_med (raise_med ..) _).trans (rxCtx_rxStat ..)
  have hst : (d.rxCtx ctx).2 % 4 = 2 := h.1
  refine ⟨_, does_of_run hon fun _ => rfl, ?_⟩
  rw [streamStall_due h]
  refine ⟨by rw [hctx], (congrArg Prod.snd hctx).trans ?_, raise_pends (by decide) .., raise_mem .., fun c hc => ?_⟩
  · rw [putBits_low]
    omega
  · exact (rxCtx_of_med (raise_med ..) _).trans (rxCtx_rxStat_ne hc ..)

/-- A live leg of a pair without a frame for leg_tmo_ms. -/
def legDue (d : Dev) (p l seen : Nat) : Prop :=
  (d.pairCtx p).2.testBit (33 + l) = true ∧ part (d.pairCtx p).1 96 16 ≠ 0 ∧ seen + part (d.pairCtx p).1 96 16 * millis ≤ d.clock

theorem legTimeout_eq {p l seen : Nat} (hseen : tget 0 d.med.legSeen (2 * p + l) = seen + 1) : legTimeout p l d =
    if bits (d.pairCtx p).2 (33 + l) 1 = 1 ∧ bits (d.pairCtx p).1 96 16 ≠ 0 ∧
      d.passed (seen + bits (d.pairCtx p).1 96 16 * 65536000000) = true then
      (d.pairStat p (33 + l) 1 0).raise Ev.mergeLegDown p else d := by
  rw [legTimeout]
  dsimp only
  rw [hseen, Nat.add_sub_cancel]

theorem legTimeout_idle {p l seen : Nat} (hseen : tget 0 d.med.legSeen (2 * p + l) = seen + 1) (h : ¬ legDue d p l seen) :
    legTimeout p l d = d := by
  rw [legTimeout_eq hseen]
  refine if_neg ?_
  rwa [bits_one_eq_one, Dev.passed, decide_eq_true_iff]

theorem legTimeout_due {p l seen : Nat} (hseen : tget 0 d.med.legSeen (2 * p + l) = seen + 1) (h : legDue d p l seen) :
    legTimeout p l d = (d.pairStat p (33 + l) 1 0).raise Ev.mergeLegDown p := by
  rw [legTimeout_eq hseen]
  refine if_pos ?_
  rwa [bits_one_eq_one, Dev.passed, decide_eq_true_iff]

theorem does_mergeLegTimeout (hon : On d) (p : Fin 65536) (l : Fin 2) {seen : Nat}
    (hseen : tget 0 d.med.legSeen (2 * p + l) = seen + 1) (h : legDue d p l seen) :
    ∃ d', Does (.mergeLegTimeout p l) d d' ∧ (d'.pairCtx p).1 = (d.pairCtx p).1 ∧
      (d'.pairCtx p).2 = (d.pairCtx p).2 - 2 ^ (33 + (l : Nat)) ∧ pends d' 122 ∧ d'.mem = d.mem := by
  have hctx : ((d.pairStat p (33 + l) 1 0).raise Ev.mergeLegDown p).pairCtx p = ((d.pairCtx p).1, putBits (d.pairCtx p).2 (33 + l) 1 0) :=
    (pairCtx_of_med (raise_med ..) _).trans (pairCtx_pairStat ..)
  refine ⟨_, does_of_run hon fun _ => rfl, ?_⟩
  rw [legTimeout_due hseen h]
  exact ⟨by rw [hctx], (congrArg Prod.snd hctx).trans (putBits_clear h.1), raise_pends (by decide) .., raise_mem ..⟩

end Sys2Proof.Machine
end

section
/-! SUPPORT. The frame store: releases in mode DELAY and at SYNC boundaries, and their end (R171, R174 to R176). -/

namespace Sys2Proof.Machine

open Sys2Proof.Claims

variable {d e : Dev} {ctx k : Nat} {s : StoreSlot}

/-! ### Slots and cursors -/

theorem slotAt_setSlot (d : Dev) (ctx k : Nat) (s : StoreSlot) : (d.setSlot ctx k s).slotAt ctx k = s := tget_tset ..

theorem slotAt_setSlot_ne {j k : Nat} (h : j ≠ k) (d : Dev) (ctx : Nat) (s : StoreSlot) :
    (d.setSlot ctx k s).slotAt ctx j = d.slotAt ctx j :=
  tget_tset_ne _ _ _ _ _ fun hk => h (Nat.add_left_cancel hk)

theorem curAt_setCur (d : Dev) (ctx : Nat) (c : StoreCur) : (d.setCur ctx c).curAt ctx = c := tget_tset ..

/-- The least of a list by a measure that no other reaches. -/
theorem leastBy_mem {α : Type} {f : α → Nat} {l : List α} {x : α} (h : leastBy f l = some x) : x ∈ l := by
  induction l generalizing x with
  | nil => cases h
  | cons a l ih =>
    rw [leastBy] at h
    cases hl : leastBy f l with
    | none =>
      rw [hl] at h
      cases h
      exact List.mem_cons_self
    | some b =>
      rw [hl] at h
      dsimp only at h
      split at h
      · cases h
        exact List.mem_cons_of_mem _ (ih hl)
      · cases h
        exact List.mem_cons_self

theorem leastBy_nil {α : Type} {f : α → Nat} {l : List α} (h : ∀ x, x ∉ l) : leastBy f l = none := by
  cases l with
  | nil => rfl
  | cons a l => exact absurd List.mem_cons_self (h a)

theorem leastBy_unique {α : Type} {f : α → Nat} {l : List α} {x : α} (hx : x ∈ l) (h : ∀ y ∈ l, y ≠ x → f x < f y) :
    leastBy f l = some x := by
  induction l with
  | nil => cases hx
  | cons a l ih =>
    have htail (y) (hy : y ∈ l) : y ≠ x → f x < f y := h y (List.mem_cons_of_mem _ hy)
    rw [leastBy]
    by_cases hl : x ∈ l
    · rw [ih hl htail]
      dsimp only
      by_cases hax : a = x
      · rw [hax, ite_self]
      · rw [if_pos (h a List.mem_cons_self hax)]
    · obtain rfl : x = a := (List.mem_cons.mp hx).resolve_right hl
      cases hb : leastBy f l with
      | none => rfl
      | some b =>
        have hbl := leastBy_mem hb
        have hlt := htail b hbl fun hbx => hl (hbx ▸ hbl)
        exact if_neg (by omega)

theorem mem_storeSlots {x : Nat × StoreSlot} : x ∈ d.storeSlots ctx ↔
    x.1 ≤ part (d.rxCtx ctx).1 230 16 ∧ d.slotAt ctx x.1 = x.2 ∧ x.2.used = true := by
  obtain ⟨k, s⟩ := x
  simp only [Dev.storeSlots, List.mem_filter, List.mem_map, List.mem_range, Prod.mk.injEq]
  constructor
  · rintro ⟨⟨j, hj, rfl, rfl⟩, hu⟩
    exact ⟨Nat.lt_succ_iff.mp hj, rfl, hu⟩
  · rintro ⟨hk, hs, hu⟩
    exact ⟨⟨k, Nat.lt_succ_iff.mpr hk, rfl, hs⟩, hu⟩

/-! ### A release (R176) -/

/-- The record present at index `j` of slot `k`, as it lies in memory. -/
def recordBytes (d : Dev) (cfg k j : Nat) : List Byte :=
  d.bytes (recordAt cfg k j + 32) (part (d.load (recordAt cfg k j) 32) 112 16)

theorem sent_eq (d : Dev) (ctx k : Nat) (s : StoreSlot) : sent d ctx k s =
    ((List.range (s.count.getD (d.curAt ctx).count)).filter fun j => s.present.elem j).map (recordBytes d (d.rxCtx ctx).1 k) := rfl

/-- What the records `l` leave as they go to the egress streams of port `q`: `e` is `d` behind them. -/
structure RecordsSent (d e : Dev) (ctx cfg k q : Nat) (present l : List Nat) : Prop where
  mem : e.mem = d.mem
  slots : e.med.slots = d.med.slots
  cur : e.med.cur = d.med.cur
  conf : (e.rxCtx ctx).1 = (d.rxCtx ctx).1
  queue : (tget [] e.med.egrIn q).map (·.bytes) =
    (tget [] d.med.egrIn q).map (·.bytes) ++ (l.filter fun j => present.elem j).map (recordBytes d cfg k)
  absent : part (e.rxCtx ctx).2 288 32 =
    (part (d.rxCtx ctx).2 288 32 + (l.length - (l.filter fun j => present.elem j).length)) % 2 ^ 32
  repeated : part (e.rxCtx ctx).2 320 32 = part (d.rxCtx ctx).2 320 32

namespace RecordsSent

variable {cfg q : Nat} {present : List Nat}

theorem nil (d : Dev) : RecordsSent d d ctx cfg k q present [] :=
  ⟨rfl, rfl, rfl, rfl, (List.append_nil _).symm, (Nat.mod_eq_of_lt (bits_lt _ 288 32)).symm, rfl⟩

theorem cons {d e f : Dev} {j : Nat} {l : List Nat} (h : RecordsSent d e ctx cfg k q present [j])
    (g : RecordsSent e f ctx cfg k q present l) : RecordsSent d f ctx cfg k q present (j :: l) := by
  refine ⟨g.mem.trans h.mem, g.slots.trans h.slots, g.cur.trans h.cur, g.conf.trans h.conf, ?_, ?_, g.repeated.trans h.repeated⟩
  · have hbytes : recordBytes e cfg k = recordBytes d cfg k := by
      funext j
      simp only [recordBytes, Dev.load, Dev.bytes, Dev.byte, h.mem]
    rw [g.queue, h.queue, hbytes, List.append_assoc, ← List.map_append, ← List.filter_append, List.singleton_append]
  · have hcount (l : List Nat) : (l.filter fun j => present.elem j).length ≤ l.length := List.length_filter_le ..
    have hj := hcount [j]
    have hl := hcount l
    have hcons : j :: l = [j] ++ l := rfl
    rw [g.absent, h.absent, hcons, List.filter_append, List.length_append, List.length_append]
    omega

end RecordsSent

/-- One record of a release. -/
def sendRecord (cfg ctx k q : Nat) (present : List Nat) (index : Option Nat) (d : Dev) (j : Nat) : Dev :=
  if j ∈ present then
    let a := recordAt cfg k j
    let h := d.load a 32
    let ing := if bits h 96 1 = 1 then some (rawToBeads (bits h 0 96)) else none
    let body := d.bytes (a + 32) (bits h 112 16)
    let e : EgReq := { stream := bits cfg 278 14, bytes := body, index := index, ingress := ing, rel := some (ctx, k) }
    d.withMed fun m => { m with egrIn := tset [] m.egrIn q (tget [] m.egrIn q ++ [e]) }
  else (d.rxBump ctx 288 32).medCount 7

/-- A release whose records have gone: the slot locks, the cursor follows. -/
def releaseStarted (d : Dev) (ctx k : Nat) (index : Option Nat) (again : Bool) (s : StoreSlot) : Dev :=
  let d := (d.setSlot ctx k { s with locked := true, released := true }).rxStat ctx 400 16 k
  (d.setCur ctx { d.curAt ctx with released := s.order + 1 }).withMed fun m =>
    { m with releases := m.releases ++ [⟨ctx, k, index, again⟩] }

theorem startRelease_eq (d : Dev) (ctx k : Nat) (index : Option Nat) (again : Bool) :
    let cfg := (d.rxCtx ctx).1
    let s := d.slotAt ctx k
    d.startRelease ctx k index again =
      releaseStarted ((List.range (s.count.getD (d.curAt ctx).count)).foldl
        (sendRecord cfg ctx k (bits cfg 277 1) s.present index) d) ctx k index again s := rfl

theorem record_sent (cfg ctx k q : Nat) (present : List Nat) (index : Option Nat) (j : Nat) (d : Dev) :
    RecordsSent d (sendRecord cfg ctx k q present index d j) ctx cfg k q present [j] := by
  rw [sendRecord]
  by_cases hj : j ∈ present
  · have hf : [j].filter (fun j => present.elem j) = [j] := by simp [hj]
    rw [if_pos hj]
    refine ⟨rfl, rfl, rfl, rfl, ?_, ?_, rfl⟩
    · rw [hf]
      show (tget [] (tset [] d.med.egrIn q _) q).map _ = _
      rw [tget_tset, List.map_append]
      rfl
    · rw [hf]
      exact (Nat.mod_eq_of_lt (bits_lt _ 288 32)).symm
  · have hf : [j].filter (fun j => present.elem j) = [] := by simp [hj]
    rw [if_neg hj]
    refine ⟨rfl, rfl, rfl, rxBump_cfg .., ?_, ?_, bits_rxBump_out (.inr (by decide)) d ctx 1⟩
    · rw [hf, List.map_nil, List.append_nil]
      rfl
    · rw [hf]
      exact bits_rxBump (lo := 288) (w := 32) d ctx 1

theorem records_sent (cfg ctx k q : Nat) (present : List Nat) (index : Option Nat) (l : List Nat) (d : Dev) :
    RecordsSent d (l.foldl (sendRecord cfg ctx k q present index) d) ctx cfg k q present l := by
  induction l generalizing d with
  | nil => exact .nil d
  | cons j l ih => exact (record_sent cfg ctx k q present index j d).cons (ih _)

/-- What a release started on slot `k` leaves, but for the counts of absent and repeated frames. -/
structure Started (d e : Dev) (ctx k : Nat) (s : StoreSlot) : Prop where
  releases : releases d e ctx k s
  conf : (e.rxCtx ctx).1 = (d.rxCtx ctx).1
  absent : part (e.rxCtx ctx).2 288 32 =
    (part (d.rxCtx ctx).2 288 32 + (s.count.getD (d.curAt ctx).count - (sent d ctx k s).length)) % 2 ^ 32
  repeated : part (e.rxCtx ctx).2 320 32 = part (d.rxCtx ctx).2 320 32
  last : part (e.rxCtx ctx).2 400 16 = k % 2 ^ 16
  cur : e.curAt ctx = { d.curAt ctx with released := s.order + 1 }

section

variable (d : Dev) (ctx k : Nat) (index : Option Nat) (again : Bool) (s : StoreSlot)

theorem releaseStarted_egrIn : (releaseStarted d ctx k index again s).med.egrIn = d.med.egrIn := rfl

theorem releaseStarted_mem : (releaseStarted d ctx k index again s).mem = d.mem := (rfl)

theorem releaseStarted_slots : (releaseStarted d ctx k index again s).med.slots =
    (d.setSlot ctx k { s with locked := true, released := true }).med.slots := rfl

theorem releaseStarted_rx : (releaseStarted d ctx k index again s).med.rx = (d.rxStat ctx 400 16 k).med.rx := rfl

theorem releaseStarted_cur : (releaseStarted d ctx k index again s).med.cur =
    (d.setCur ctx { d.curAt ctx with released := s.order + 1 }).med.cur := (rfl)

theorem releaseStarted_slotAt :
    (releaseStarted d ctx k index again s).slotAt ctx k = { s with locked := true, released := true } := by
  rw [Dev.slotAt, releaseStarted_slots]
  exact tget_tset ..

theorem releaseStarted_slotAt_ne {j : Nat} (h : j ≠ k) :
    (releaseStarted d ctx k index again s).slotAt ctx j = d.slotAt ctx j := by
  rw [Dev.slotAt, releaseStarted_slots]
  exact slotAt_setSlot_ne h d ctx _

theorem releaseStarted_rxCtx :
    (releaseStarted d ctx k index again s).rxCtx ctx = ((d.rxCtx ctx).1, putBits (d.rxCtx ctx).2 400 16 k) := by
  rw [Dev.rxCtx, releaseStarted_rx]
  exact rxCtx_rxStat d ctx 400 16 k

theorem releaseStarted_curAt :
    (releaseStarted d ctx k index again s).curAt ctx = { d.curAt ctx with released := s.order + 1 } := by
  rw [Dev.curAt, releaseStarted_cur]
  exact curAt_setCur d ctx _

end

theorem releaseStarted_spec {d f : Dev} {ctx k : Nat} {s : StoreSlot} (hsent : RecordsSent d f ctx (d.rxCtx ctx).1 k
    (part (d.rxCtx ctx).1 277 1) s.present (List.range (s.count.getD (d.curAt ctx).count))) (index : Option Nat) (again : Bool) :
    Started d (releaseStarted f ctx k index again s) ctx k s := by
  have hout {a : Nat} (ha : a + 32 ≤ 400) : part ((releaseStarted f ctx k index again s).rxCtx ctx).2 a 32 = part (f.rxCtx ctx).2 a 32 := by
    rw [releaseStarted_rxCtx]
    exact bits_putBits_out (.inl ha) ..
  have hc : f.curAt ctx = d.curAt ctx := by rw [Dev.curAt, hsent.cur, Dev.curAt]
  have hslots (j : Nat) : f.slotAt ctx j = d.slotAt ctx j := by rw [Dev.slotAt, hsent.slots, Dev.slotAt]
  refine ⟨⟨?_, releaseStarted_slotAt .., ?_, fun j hj _ => ?_⟩, ?_, ?_, ?_, ?_, ?_⟩
  · rw [releaseStarted_egrIn, sent_eq]
    exact hsent.queue
  · rw [releaseStarted_mem, hsent.mem]
  · rw [releaseStarted_slotAt_ne _ _ _ _ _ _ hj, hslots]
  · rw [releaseStarted_rxCtx, hsent.conf]
  · rw [hout (by decide), hsent.absent, List.length_range, sent_eq, List.length_map]
  · rw [hout (by decide), hsent.repeated]
  · rw [releaseStarted_rxCtx]
    exact (bits_putBits_in (Nat.le_refl 400) (Nat.le_refl _) _ k).trans (bits_low k 16)
  · rw [releaseStarted_curAt, hc]

theorem startRelease_spec (d : Dev) (ctx k : Nat) (index : Option Nat) (again : Bool) :
    Started d (d.startRelease ctx k index again) ctx k (d.slotAt ctx k) := by
  rw [startRelease_eq]
  exact releaseStarted_spec (records_sent ..) index again

end Sys2Proof.Machine
end

section
/-! SUPPORT. The commands of the frame store (R174 to R176). -/

namespace Sys2Proof.Machine

open Sys2Proof.Claims

variable {d : Dev} {ctx k : Nat} {s : StoreSlot}

/-! ### Mode DELAY (R174) -/

/-- The stored frames of mode DELAY that are due and not yet released. -/
def delayDue (d : Dev) (ctx : Nat) : List (Nat × StoreSlot) :=
  (d.storeSlots ctx).filter fun x => !x.2.locked && !x.2.released &&
    d.reached (mediaTime x.2.index (storeRate (d.rxCtx ctx).1) + bits (d.rxCtx ctx).1 320 64)

theorem mem_delayDue {x : Nat × StoreSlot} : x ∈ delayDue d ctx ↔ dueBy d ctx d.now x.1 x.2 ∧ x.2.released = false := by
  simp only [delayDue, List.mem_filter, mem_storeSlots, dueBy, Dev.reached, Bool.and_eq_true, Bool.not_eq_true', decide_eq_true_eq]
  tauto

theorem storeReleaseDelay_eq (ctx : Nat) (d : Dev) : storeReleaseDelay ctx d =
    if (d.rxCtx ctx).1.testBit 13 = false ∨ (d.rxCtx ctx).1.testBit 276 = true then d else
      match leastBy (fun x => x.2.order) (delayDue d ctx) with
      | none => d
      | some x => d.startRelease ctx x.1 none false := by
  simp only [← bits_one_eq_zero, ← bits_one_eq_one]
  rfl

theorem storeReleaseDelay_idle (h : (d.rxCtx ctx).1.testBit 13 = false ∨ (d.rxCtx ctx).1.testBit 276 = true ∨
    ∀ k s, dueBy d ctx d.now k s → s.released = true) : storeReleaseDelay ctx d = d := by
  rw [storeReleaseDelay_eq]
  rcases h with h | h | h
  · exact if_pos (.inl h)
  · exact if_pos (.inr h)
  · rw [leastBy_nil fun x hx => ?_, ite_self]
    obtain ⟨hdue, hr⟩ := mem_delayDue.mp hx
    exact absurd (h _ _ hdue) (by rw [hr]; decide)

theorem storeReleaseDelay_due (hon : (d.rxCtx ctx).1.testBit 13 = true) (hsync : (d.rxCtx ctx).1.testBit 276 = false)
    (hdue : dueBy d ctx d.now k s) (hr : s.released = false)
    (hleast : ∀ j u, dueBy d ctx d.now j u → u.released = false → j ≠ k → s.order < u.order) :
    storeReleaseDelay ctx d = d.startRelease ctx k none false := by
  have hfind : leastBy (fun x => x.2.order) (delayDue d ctx) = some (k, s) := by
    refine leastBy_unique (mem_delayDue.mpr ⟨hdue, hr⟩) fun y hy hne => ?_
    obtain ⟨hyd, hyr⟩ := mem_delayDue.mp hy
    refine hleast y.1 y.2 hyd hyr fun hk => hne (Prod.ext hk ?_)
    rw [← hyd.2.1, ← hdue.2.1, hk]
  rw [storeReleaseDelay_eq, if_neg (by rw [hon, hsync]; decide), hfind]

/-! ### Mode SYNC (R175) -/

/-- A complete stored frame due at a boundary. -/
def syncReady (d : Dev) (ctx b k : Nat) (s : StoreSlot) : Prop := dueBy d ctx b k s ∧ s.count.isSome = true

def syncDue (d : Dev) (ctx b : Nat) : List (Nat × StoreSlot) :=
  (d.storeSlots ctx).filter fun x => !x.2.locked && x.2.count.isSome &&
    decide (mediaTime x.2.index (storeRate (d.rxCtx ctx).1) + bits (d.rxCtx ctx).1 320 64 ≤ b)

theorem mem_syncDue {b : Nat} {x : Nat × StoreSlot} : x ∈ syncDue d ctx b ↔ syncReady d ctx b x.1 x.2 := by
  simp only [syncDue, List.mem_filter, mem_storeSlots, syncReady, dueBy, Bool.and_eq_true, Bool.not_eq_true', decide_eq_true_eq]
  tauto

/-- The cursor moves on to the boundary behind `n`. -/
def pastBoundary (d : Dev) (ctx n : Nat) : Dev := d.setCur ctx { d.curAt ctx with boundary := some (n + 1) }

/-- What boundary `n` releases, the cursor already behind it. -/
def syncRelease (d : Dev) (ctx n b released : Nat) (x : Nat × StoreSlot) : Dev :=
  if x.2.order + 1 > released then
    (d.startRelease ctx x.1 (some n) false).rxBump ctx 352 32
      ((syncDue d ctx b).filter fun y => decide (y.2.order < x.2.order ∧ released < y.2.order + 1)).length
  else if x.2.order + 1 = released then (d.startRelease ctx x.1 (some n) true).rxBump ctx 320 32
  else d

/-- A context that releases at SYNC boundaries. -/
def syncOn (cfg : Nat) : Prop := cfg.testBit 13 = true ∧ cfg.testBit 276 = true ∧ part cfg 384 32 ≠ 0 ∧ part cfg 416 32 ≠ 0

theorem storeSync_idle (h : ¬ syncOn (d.rxCtx ctx).1) : storeSync ctx d = d := by
  refine if_pos ?_
  rw [bits_one_eq_zero, bits_one_eq_zero]
  by_contra hc
  simp only [not_or, Bool.not_eq_false] at hc
  exact h hc

/-- The command at boundary `n`, which falls on time `b`. -/
def syncAt (d : Dev) (ctx n b : Nat) : Dev :=
  if d.reached b = false then d else
    match leastBy (fun x => (d.curAt ctx).order - x.2.order) (syncDue d ctx b) with
    | none => pastBoundary d ctx n
    | some x => syncRelease (pastBoundary d ctx n) ctx n b (d.curAt ctx).released x

theorem storeSync_eq {n : Nat} (h : syncOn (d.rxCtx ctx).1) (hn : (d.curAt ctx).boundary = some n) :
    storeSync ctx d = syncAt d ctx n (syncBoundary (d.rxCtx ctx).1 n).toNat := by
  obtain ⟨hon, hsync, hnum, hden⟩ := h
  have hc : ¬ (bits (d.rxCtx ctx).1 13 1 = 0 ∨ bits (d.rxCtx ctx).1 276 1 = 0 ∨ bits (d.rxCtx ctx).1 384 32 = 0 ∨
      bits (d.rxCtx ctx).1 416 32 = 0) := by
    rw [bits_one_eq_zero, bits_one_eq_zero, hon, hsync]
    rintro (h | h | h | h)
    · cases h
    · cases h
    · exact hnum h
    · exact hden h
  have hstep : storeSync ctx d = syncAt d ctx ((d.curAt ctx).boundary.getD (firstBoundary (d.rxCtx ctx).1 d.now))
      (syncBoundary (d.rxCtx ctx).1 ((d.curAt ctx).boundary.getD (firstBoundary (d.rxCtx ctx).1 d.now))).toNat := if_neg hc
  rw [hstep, hn, Option.getD_some]

theorem syncAt_due {n b : Nat} (hb : b ≤ d.now) : syncAt d ctx n b =
    match leastBy (fun x => (d.curAt ctx).order - x.2.order) (syncDue d ctx b) with
    | none => pastBoundary d ctx n
    | some x => syncRelease (pastBoundary d ctx n) ctx n b (d.curAt ctx).released x :=
  if_neg fun hr => reached_false_iff.mp hr hb

theorem storeSync_early {n : Nat} (h : syncOn (d.rxCtx ctx).1) (hn : (d.curAt ctx).boundary = some n)
    (hb : d.now < (syncBoundary (d.rxCtx ctx).1 n).toNat) : storeSync ctx d = d := by
  rw [storeSync_eq h hn, syncAt, if_pos (reached_false_iff.mpr (Nat.not_le.mpr hb))]

theorem storeSync_none {n : Nat} (h : syncOn (d.rxCtx ctx).1) (hn : (d.curAt ctx).boundary = some n)
    (hb : (syncBoundary (d.rxCtx ctx).1 n).toNat ≤ d.now)
    (hready : ∀ k s, ¬ syncReady d ctx (syncBoundary (d.rxCtx ctx).1 n).toNat k s) : storeSync ctx d = pastBoundary d ctx n := by
  rw [storeSync_eq h hn, syncAt_due hb,
    leastBy_nil fun x hx => hready x.1 x.2 (mem_syncDue.mp hx)]

theorem storeSync_ready {n : Nat} (h : syncOn (d.rxCtx ctx).1) (hn : (d.curAt ctx).boundary = some n)
    (hb : (syncBoundary (d.rxCtx ctx).1 n).toNat ≤ d.now) (hready : syncReady d ctx (syncBoundary (d.rxCtx ctx).1 n).toNat k s)
    (horder : s.order ≤ (d.curAt ctx).order)
    (hnewest : ∀ j u, syncReady d ctx (syncBoundary (d.rxCtx ctx).1 n).toNat j u → j ≠ k → u.order < s.order) :
    storeSync ctx d =
      syncRelease (pastBoundary d ctx n) ctx n (syncBoundary (d.rxCtx ctx).1 n).toNat (d.curAt ctx).released (k, s) := by
  have hfind : leastBy (fun x => (d.curAt ctx).order - x.2.order) (syncDue d ctx (syncBoundary (d.rxCtx ctx).1 n).toNat) =
      some (k, s) := by
    refine leastBy_unique (mem_syncDue.mpr hready) fun y hy hne => ?_
    have hyr := mem_syncDue.mp hy
    have hlt := hnewest y.1 y.2 hyr fun hk => hne (Prod.ext hk (by rw [← hyr.1.2.1, ← hready.1.2.1, hk]))
    show (d.curAt ctx).order - s.order < (d.curAt ctx).order - y.2.order
    omega
  rw [storeSync_eq h hn, syncAt_due hb, hfind]

/-- What a release at a boundary leaves. -/
structure SyncStarted (d e : Dev) (ctx k n : Nat) (s : StoreSlot) : Prop where
  releases : releases d e ctx k s
  boundary : (e.curAt ctx).boundary = some (n + 1)
  released : (e.curAt ctx).released = s.order + 1

theorem pastBoundary_sent (d : Dev) (ctx n k : Nat) (s : StoreSlot) : sent (pastBoundary d ctx n) ctx k s = sent d ctx k s := by
  have hc : ((pastBoundary d ctx n).curAt ctx).count = (d.curAt ctx).count := by rw [pastBoundary, curAt_setCur]
  have hcfg : ((pastBoundary d ctx n).rxCtx ctx).1 = (d.rxCtx ctx).1 := rfl
  have hbytes : recordBytes (pastBoundary d ctx n) = recordBytes d := rfl
  rw [sent_eq, hc, hcfg, hbytes, sent_eq]

theorem releases_of_pastBoundary {e : Dev} {n : Nat} (h : releases (pastBoundary d ctx n) e ctx k s) : releases d e ctx k s := by
  rw [releases, pastBoundary_sent] at h
  exact h

theorem releases_rxBump {e : Dev} (h : releases d e ctx k s) (lo m : Nat) : releases d (e.rxBump ctx lo 32 m) ctx k s := by
  rw [releases] at h ⊢
  exact h

theorem rxBump_curAt (d : Dev) (i lo w m : Nat) : (d.rxBump i lo w m).curAt ctx = d.curAt ctx := rfl

theorem syncStarted (d : Dev) (ctx k n lo m : Nat) (index : Option Nat) (again : Bool) :
    SyncStarted d (((pastBoundary d ctx n).startRelease ctx k index again).rxBump ctx lo 32 m) ctx k n (d.slotAt ctx k) := by
  have h := startRelease_spec (pastBoundary d ctx n) ctx k index again
  have hslot : (pastBoundary d ctx n).slotAt ctx k = d.slotAt ctx k := rfl
  rw [hslot] at h
  refine ⟨releases_rxBump (releases_of_pastBoundary h.releases) lo m, ?_, ?_⟩
  · rw [rxBump_curAt, h.cur, pastBoundary, curAt_setCur]
  · rw [rxBump_curAt, h.cur]

theorem startRelease_repeated (d : Dev) (ctx k : Nat) (index : Option Nat) (again : Bool) :
    bits ((d.startRelease ctx k index again).rxCtx ctx).2 320 32 = bits (d.rxCtx ctx).2 320 32 :=
  (startRelease_spec d ctx k index again).repeated

/-- A release that is not the last one again leaves the count of repeated frames. -/
theorem syncRelease_newer {n b released : Nat} (h : released < (d.slotAt ctx k).order + 1) :
    SyncStarted d (syncRelease (pastBoundary d ctx n) ctx n b released (k, d.slotAt ctx k)) ctx k n (d.slotAt ctx k) ∧
      part ((syncRelease (pastBoundary d ctx n) ctx n b released (k, d.slotAt ctx k)).rxCtx ctx).2 320 32 =
        part (d.rxCtx ctx).2 320 32 := by
  rw [syncRelease, if_pos h]
  exact ⟨syncStarted .., (bits_rxBump_out (.inl (by decide)) ..).trans (startRelease_repeated ..)⟩

theorem syncRelease_again {n b released : Nat} (h : (d.slotAt ctx k).order + 1 = released) :
    SyncStarted d (syncRelease (pastBoundary d ctx n) ctx n b released (k, d.slotAt ctx k)) ctx k n (d.slotAt ctx k) ∧
      part ((syncRelease (pastBoundary d ctx n) ctx n b released (k, d.slotAt ctx k)).rxCtx ctx).2 320 32 =
        (part (d.rxCtx ctx).2 320 32 + 1) % 2 ^ 32 := by
  rw [syncRelease, if_neg (Nat.not_lt.mpr (Nat.le_of_eq h)), if_pos h]
  refine ⟨syncStarted .., (bits_rxBump ..).trans ?_⟩
  rw [startRelease_repeated]
  rfl

theorem syncRelease_spec {n b released : Nat} (hrel : released ≤ (d.slotAt ctx k).order + 1) :
    SyncStarted d (syncRelease (pastBoundary d ctx n) ctx n b released (k, d.slotAt ctx k)) ctx k n (d.slotAt ctx k) ∧
      part ((syncRelease (pastBoundary d ctx n) ctx n b released (k, d.slotAt ctx k)).rxCtx ctx).2 320 32 =
        (part (d.rxCtx ctx).2 320 32 + if released = (d.slotAt ctx k).order + 1 then 1 else 0) % 2 ^ 32 := by
  rcases Nat.lt_or_eq_of_le hrel with hlt | heq
  · obtain ⟨hs, hr⟩ := syncRelease_newer (n := n) (b := b) hlt
    refine ⟨hs, hr.trans ?_⟩
    rw [if_neg (Nat.ne_of_lt hlt)]
    exact (Nat.mod_eq_of_lt (bits_lt _ 320 32)).symm
  · rw [if_pos heq]
    exact syncRelease_again heq.symm

/-! ### The end of a release (R176) -/

theorem storeReleaseDone_none (h : ∀ r ∈ d.med.releases, r.ctx ≠ ctx) : storeReleaseDone ctx d = d := by
  have hf : d.med.releases.find? (fun r => r.ctx = ctx) = none := by
    rw [List.find?_eq_none]
    exact fun r hr => by simpa using h r hr
  rw [storeReleaseDone, hf]

/-- A release ended: its slot unlocks. -/
def releaseDone (d : Dev) (ctx : Nat) (r : Release) : Dev :=
  (d.setSlot ctx r.slot { d.slotAt ctx r.slot with locked := false }).withMed fun m =>
    { m with releases := m.releases.filter (· ≠ r) }

/-- A record of the release that has not left yet. -/
def releaseLeft (d : Dev) (ctx : Nat) (r : Release) : Prop :=
  ∃ e ∈ tget [] d.med.egrIn (part (d.rxCtx ctx).1 277 1), e.rel = some (ctx, r.slot)

theorem releaseLeft_iff {r : Release} : releaseLeft d ctx r ↔
    (tget [] d.med.egrIn (bits (d.rxCtx ctx).1 277 1)).any (fun e => e.rel == some (ctx, r.slot)) = true := by
  simp only [List.any_eq_true, beq_iff_eq]
  rfl

theorem find?_release {a b : List Release} {r : Release} (hsplit : d.med.releases = a ++ r :: b)
    (ha : ∀ x ∈ a, x.ctx ≠ ctx) (hr : r.ctx = ctx) : d.med.releases.find? (fun r => r.ctx = ctx) = some r := by
  rw [hsplit, List.find?_append, List.find?_eq_none.mpr fun x hx => by simpa using ha x hx]
  simp [hr]

theorem storeReleaseDone_left {a b : List Release} {r : Release} (hsplit : d.med.releases = a ++ r :: b)
    (ha : ∀ x ∈ a, x.ctx ≠ ctx) (hr : r.ctx = ctx) (hleft : releaseLeft d ctx r) : storeReleaseDone ctx d = d := by
  rw [storeReleaseDone, find?_release hsplit ha hr]
  exact if_pos (releaseLeft_iff.mp hleft)

theorem storeReleaseDone_gone {a b : List Release} {r : Release} (hsplit : d.med.releases = a ++ r :: b)
    (ha : ∀ x ∈ a, x.ctx ≠ ctx) (hr : r.ctx = ctx) (hleft : ¬ releaseLeft d ctx r) :
    storeReleaseDone ctx d = releaseDone d ctx r := by
  rw [storeReleaseDone, find?_release hsplit ha hr]
  exact if_neg fun h => hleft (releaseLeft_iff.mpr h)

end Sys2Proof.Machine
end

section
/-! SUPPORT. Receive time-outs and the frame store: the obligation (R158, R163, R171, R174 to R176). -/

namespace Sys2Proof.Machine

open Sys2Proof.Claims

variable {d : Dev}

theorem does_storeReleaseDelay (hon : On d) (ctx : Fin 65536) {k : Nat} {s : StoreSlot} (hrun : (d.rxCtx ctx).1.testBit 13 = true)
    (hsync : (d.rxCtx ctx).1.testBit 276 = false) (hdue : dueBy d ctx d.now k s) (hr : s.released = false)
    (hleast : ∀ j u, dueBy d ctx d.now j u → u.released = false → j ≠ k → s.order < u.order) :
    ∃ d', Does (.storeReleaseDelay ctx) d d' ∧ releases d d' ctx k s ∧
      part (d'.rxCtx ctx).2 288 32 =
        (part (d.rxCtx ctx).2 288 32 + (s.count.getD (d.curAt ctx).count - (sent d ctx k s).length)) % 2 ^ 32 ∧
      part (d'.rxCtx ctx).2 400 16 = k % 2 ^ 16 := by
  have h := startRelease_spec d ctx k none false
  rw [hdue.2.1] at h
  refine ⟨_, does_of_run hon fun _ => rfl, ?_⟩
  rw [storeReleaseDelay_due hrun hsync hdue hr hleast]
  exact ⟨h.releases, h.absent, h.last⟩

theorem does_storeSync (hon : On d) (ctx : Fin 65536) {n k : Nat} {s : StoreSlot} (h : syncOn (d.rxCtx ctx).1)
    (hn : (d.curAt ctx).boundary = some n) (hb : (syncBoundary (d.rxCtx ctx).1 n).toNat ≤ d.now)
    (hready : syncReady d ctx (syncBoundary (d.rxCtx ctx).1 n).toNat k s) (horder : s.order ≤ (d.curAt ctx).order)
    (hnewest : ∀ j u, syncReady d ctx (syncBoundary (d.rxCtx ctx).1 n).toNat j u → j ≠ k → u.order < s.order)
    (hrel : (d.curAt ctx).released ≤ s.order + 1) :
    ∃ d', Does (.storeSyncBoundary ctx) d d' ∧ releases d d' ctx k s ∧ (d'.curAt ctx).boundary = some (n + 1) ∧
      (d'.curAt ctx).released = s.order + 1 ∧ part (d'.rxCtx ctx).2 320 32 =
        (part (d.rxCtx ctx).2 320 32 + if (d.curAt ctx).released = s.order + 1 then 1 else 0) % 2 ^ 32 := by
  refine ⟨_, does_of_run hon fun _ => rfl, ?_⟩
  rw [storeSync_ready h hn hb hready horder hnewest]
  obtain rfl : d.slotAt ctx k = s := hready.1.2.1
  obtain ⟨⟨hreleases, hboundary, hreleased⟩, hrepeated⟩ :=
    syncRelease_spec (n := n) (b := (syncBoundary (d.rxCtx ctx).1 n).toNat) hrel
  exact ⟨hreleases, hboundary, hreleased, hrepeated⟩

/-- The command leaves the device as it is. -/
theorem does_stay {c : Instr} {f : Dev → Dev} (h : Does c d (f d)) (hf : f d = d) : Does c d d := by rwa [hf] at h

theorem does_storeReleaseDone (hon : On d) (ctx : Fin 65536) {a b : List Release} {r : Release}
    (hsplit : d.med.releases = a ++ r :: b) (ha : ∀ x ∈ a, x.ctx ≠ (ctx : Nat)) (hr : r.ctx = ctx)
    (hleft : ¬ releaseLeft d ctx r) :
    ∃ d', Does (.storeReleaseDone ctx) d d' ∧ (d'.slotAt ctx r.slot).locked = false ∧ r ∉ d'.med.releases ∧
      d'.regs = d.regs ∧ d'.mem = d.mem ∧ d'.med.egrIn = d.med.egrIn := by
  refine ⟨_, does_of_run hon fun _ => rfl, ?_⟩
  rw [storeReleaseDone_gone hsplit ha hr hleft]
  refine ⟨?_, fun hmem => ?_, rfl, rfl, rfl⟩
  · exact congrArg StoreSlot.locked (slotAt_setSlot d ctx r.slot { d.slotAt ctx r.slot with locked := false })
  · exact of_decide_eq_true (List.mem_filter.mp hmem).2 rfl

end Sys2Proof.Machine

namespace Sys2Proof.Claims

open Sys2Proof.Machine

/-- Settles O22: the time-outs compare the last frame with the command's time; a release is the fold of its records
over the egress queue, and the frame it takes is the only least one of those due. -/
theorem receiveTimersAndTheStore : Obligations.ReceiveTimersAndTheStore := by
  intro d hon
  refine ⟨fun ctx => ⟨fun h => ?_, fun h => does_streamStall hon ctx h⟩,
    fun p l seen hseen => ⟨fun h => ?_, fun h => does_mergeLegTimeout hon p l hseen h⟩,
    fun ctx => ⟨fun h => ?_, fun hrun hsync k s hdue hr hleast => does_storeReleaseDelay hon ctx hrun hsync hdue hr hleast,
      fun h => ?_, fun hrun hsync hnum hden n hn => ⟨fun hb => ?_, fun hb hready => ?_,
        fun hb k s hready horder hnewest hrel => does_storeSync hon ctx ⟨hrun, hsync, hnum, hden⟩ hn hb hready horder hnewest hrel⟩,
      fun h => ?_, fun a r b hsplit ha hr => ⟨fun h => ?_, fun h => does_storeReleaseDone hon ctx hsplit ha hr h⟩⟩⟩
  · exact does_stay (does_of_run hon fun _ => rfl) (streamStall_idle h)
  · exact does_stay (does_of_run hon fun _ => rfl) (legTimeout_idle hseen h)
  · exact does_stay (does_of_run hon fun _ => rfl) (storeReleaseDelay_idle h)
  · refine does_stay (does_of_run hon fun _ => rfl) (storeSync_idle ?_)
    rintro ⟨hrun, hsync, hnum, hden⟩
    rcases h with h | h | h | h
    · exact absurd (hrun.symm.trans h) (by decide)
    · exact absurd (hsync.symm.trans h) (by decide)
    · exact hnum h
    · exact hden h
  · exact does_stay (does_of_run hon fun _ => rfl) (storeSync_early ⟨hrun, hsync, hnum, hden⟩ hn hb)
  · have hdoes : Does (.storeSyncBoundary ctx) d (storeSync ctx d) := does_of_run hon fun _ => rfl
    rwa [storeSync_none ⟨hrun, hsync, hnum, hden⟩ hn hb hready] at hdoes
  · exact does_stay (does_of_run hon fun _ => rfl) (storeReleaseDone_none h)
  · exact does_stay (does_of_run hon fun _ => rfl) (storeReleaseDone_left hsplit ha hr h)

end Sys2Proof.Claims
end

section
/-! SUPPORT. Egress streams: how a frame that keeps its bytes joins its stream (R177, R178, R181, R186, R591). -/

namespace Sys2Proof.Machine

open Sys2Proof.Claims

variable {d : Dev} {q e k : Nat} {req : EgReq} {f : EgFrame}

/-! ### The queues -/

/-- A frame past its eligible time as it joins. -/
def countLate (d : Dev) (k : Nat) (elig : Option Nat) : Dev :=
  match elig with
  | none => d
  | some t => if t < d.now then (d.egrBump k 192 32).medCount 13 else d

/-- The frame counts among its stream's and its port's. -/
def countIn (d : Dev) (q k : Nat) (f : EgFrame) : Dev :=
  ((d.egrStat k 16 16 (d.egrDepth k + 1)).egCount q f).withMed fun m => { m with emptyAt := tset 0 m.emptyAt k 0 }

/-- A STARVED stream that gets a frame is SENDING again. -/
def wakeStream (d : Dev) (q k e : Nat) : Dev :=
  if d.egrState k = 3 then (d.egrStat k 0 3 2).raise Ev.txSending (txInfo q e) else d

/-- An unpaced frame joins the egress queue, a paced one its stream's. -/
def joinQueue (d : Dev) (q k : Nat) (f : EgFrame) : Dev :=
  match f.elig with
  | none => d.withPrt fun x => { x with egq := tset [] x.egq q (tget [] x.egq q ++ [f]) }
  | some _ => d.withMed fun m => { m with egrQ := tset [] m.egrQ k (tget [] m.egrQ k ++ [f]) }

def joinStream (d : Dev) (q k e : Nat) (f : EgFrame) : Dev :=
  joinQueue (wakeStream (countIn (countLate d k f.elig) q k f) q k e) q k f

/-! ### A frame that keeps its bytes -/

/-- The frame of a stream that does not rewrite. -/
def keptFrame (e cfg pri : Nat) (req : EgReq) (elig : Option Nat) : EgFrame :=
  { bytes := req.bytes, len := max 64 (req.bytes.length + 4), src := .stream, pri := pri, sp := bits cfg 7 2, stream := e,
    elig := elig, tsTo := req.tsTo, cut := req.cut }

/-- The bytes a frame counts for in the egress queue. -/
def queuedLen (req : EgReq) : Nat := max 64 (req.bytes.length + 4)

/-- A stream's frame that finds its queue full. -/
def streamFull (d : Dev) (k : Nat) : Prop := bits (d.egrCtx k).1 16 16 ≤ bits (d.egrCtx k).2 16 16
/-- A stream's frame that finds the egress queue full. -/
def portFull (d : Dev) (q n : Nat) : Prop := tget 0 d.prt.egStreamBytes q + n > 2097152 - 65536 ∨ tget 0 d.prt.egBytes q + n > 2097152
/-- The stream's sub-port takes no frames. -/
def portDown (d : Dev) (q s : Nat) : Prop := d.linkUp q s = false ∨ d.faulted q s = true

section

variable (d q e req)

theorem streamEnqueue_off (hoff : bits (d.egrCtx (egrKey q e)).1 0 1 = 0) (hts : req.tsTo = none) :
    d.streamEnqueue q e req = d.medCount 11 := by
  have h : d.streamEnqueue q e req = (d.medCount 11).tsReturn req.tsTo 0 true := if_pos hoff
  rw [h, hts]
  rfl

theorem streamEnqueue_full (hon : bits (d.egrCtx (egrKey q e)).1 0 1 ≠ 0) (hts : req.tsTo = none)
    (hfull : streamFull d (egrKey q e)) : d.streamEnqueue q e req = (d.egrBump (egrKey q e) 224 32).medCount 12 := by
  have h : d.streamEnqueue q e req = ((d.egrBump (egrKey q e) 224 32).medCount 12).tsReturn req.tsTo 0 true :=
    (if_neg hon).trans (if_pos hfull)
  rw [h, hts]
  rfl

theorem streamEnqueue_down (hon : bits (d.egrCtx (egrKey q e)).1 0 1 ≠ 0) (hkeep : bits (d.egrCtx (egrKey q e)).1 5 1 = 0)
    (hasm : req.asm = false) (hfull : ¬ streamFull d (egrKey q e)) (hport : ¬ portFull d q (queuedLen req))
    (hdown : portDown d q (bits (d.egrCtx (egrKey q e)).1 7 2)) :
    d.streamEnqueue q e req = d.prtCount q (bits (d.egrCtx (egrKey q e)).1 7 2) 16 := by
  have hrew : (req.asm || bits (d.egrCtx (egrKey q e)).1 5 1 == 1) = false := by rw [hasm, hkeep]; rfl
  rw [Dev.streamEnqueue]
  dsimp only
  rw [if_neg hon, hrew]
  exact (if_neg hfull).trans ((if_neg hport).trans (if_pos hdown))

theorem streamEnqueue_joins {elig : Option Nat} (hon : bits (d.egrCtx (egrKey q e)).1 0 1 ≠ 0)
    (hkeep : bits (d.egrCtx (egrKey q e)).1 5 1 = 0) (hasm : req.asm = false) (hfull : ¬ streamFull d (egrKey q e))
    (hport : ¬ portFull d q (queuedLen req)) (hup : ¬ portDown d q (bits (d.egrCtx (egrKey q e)).1 7 2))
    (helig : ∀ ts, ∃ rtp, d.eligible (egrKey q e) (d.egrCtx (egrKey q e)).1 req ts = (d, elig, rtp)) :
    ∃ pri, d.streamEnqueue q e req = joinStream d q (egrKey q e) e (keptFrame e (d.egrCtx (egrKey q e)).1 pri req elig) := by
  have hrew : (req.asm || bits (d.egrCtx (egrKey q e)).1 5 1 == 1) = false := by rw [hasm, hkeep]; rfl
  obtain ⟨rtp, hel⟩ := helig (rtpOf (parse (req.bytes ++ [0, 0, 0, 0])).payload).ts
  rw [Dev.streamEnqueue]
  dsimp only
  rw [if_neg hon, hrew, hel]
  exact ⟨_, (if_neg hfull).trans ((if_neg hport).trans (if_neg hup))⟩

end

end Sys2Proof.Machine
end

section
/-! SUPPORT. Egress streams: what a frame that joins its stream leaves (R178, R181, R186, R591). -/

namespace Sys2Proof.Machine

open Sys2Proof.Claims

variable {d : Dev} {q e k : Nat} {f : EgFrame} {elig : Option Nat}

/-! ### Status fields of an egress context -/

theorem egrStat_same {lo w : Nat} (d : Dev) (k v : Nat) : bits ((d.egrStat k lo w v).egrCtx k).2 lo w = v % 2 ^ w := by
  rw [egrCtx_egrStat, bits_putBits_in (Nat.le_refl lo) (Nat.le_refl _), Nat.sub_self, bits_low]

theorem egrStat_other {lo w a m : Nat} (h : a + m ≤ lo ∨ lo + w ≤ a) (d : Dev) (k v : Nat) :
    bits ((d.egrStat k lo w v).egrCtx k).2 a m = bits (d.egrCtx k).2 a m := by
  rw [egrCtx_egrStat, bits_putBits_out h]

theorem egrCtx_raise (d : Dev) (src info k : Nat) : (d.raise src info).egrCtx k = d.egrCtx k := egrCtx_of_med (raise_med ..) k

/-! ### A late frame is counted -/

theorem countLate_med (d : Dev) (k : Nat) (elig : Option Nat) :
    ∃ egr regs, countLate d k elig = { d with med := { d.med with egr := egr }, regs := regs } := by
  unfold countLate
  split
  · exact ⟨d.med.egr, d.regs, rfl⟩
  · split
    · exact ⟨_, _, rfl⟩
    · exact ⟨d.med.egr, d.regs, rfl⟩

theorem countLate_low {a m : Nat} (h : a + m ≤ 192) (d : Dev) (k : Nat) (elig : Option Nat) :
    bits ((countLate d k elig).egrCtx k).2 a m = bits (d.egrCtx k).2 a m := by
  unfold countLate
  split
  · rfl
  · split
    · exact egrStat_other (.inl h) ..
    · rfl

theorem countLate_late (d : Dev) (k t : Nat) : bits ((countLate d k (some t)).egrCtx k).2 192 32 =
    (bits (d.egrCtx k).2 192 32 + if t < d.now then 1 else 0) % 2 ^ 32 := by
  unfold countLate
  dsimp only
  split
  · exact egrStat_same ..
  · exact (Nat.mod_eq_of_lt (bits_lt _ 192 32)).symm

/-! ### The steps behind it -/

theorem countIn_egrCtx (d : Dev) (q k : Nat) (f : EgFrame) :
    (countIn d q k f).egrCtx k = ((d.egrCtx k).1, putBits (d.egrCtx k).2 16 16 (bits (d.egrCtx k).2 16 16 + 1)) := egrCtx_egrStat ..

theorem countIn_egBytes (d : Dev) (q k : Nat) (f : EgFrame) :
    tget 0 (countIn d q k f).prt.egBytes q = tget 0 d.prt.egBytes q + f.len := tget_tset ..

theorem countIn_queues (d : Dev) (q k : Nat) (f : EgFrame) : (countIn d q k f).prt.egq = d.prt.egq ∧
    (countIn d q k f).med.egrQ = d.med.egrQ ∧ (countIn d q k f).med.egrIn = d.med.egrIn ∧ (countIn d q k f).mem = d.mem :=
  ⟨rfl, rfl, rfl, rfl⟩

theorem wakeStream_queues (d : Dev) (q k e : Nat) : (wakeStream d q k e).prt = d.prt ∧ (wakeStream d q k e).mem = d.mem ∧
    (wakeStream d q k e).med.egrQ = d.med.egrQ ∧ (wakeStream d q k e).med.egrIn = d.med.egrIn := by
  rw [wakeStream]
  split
  · rw [raise_prt, raise_mem, raise_med]
    exact ⟨rfl, rfl, rfl, rfl⟩
  · exact ⟨rfl, rfl, rfl, rfl⟩

theorem wakeStream_high {a m : Nat} (h : 3 ≤ a) (d : Dev) (q k e : Nat) :
    bits ((wakeStream d q k e).egrCtx k).2 a m = bits (d.egrCtx k).2 a m := by
  rw [wakeStream]
  split
  · rw [egrCtx_raise]
    exact egrStat_other (.inr h) ..
  · rfl

theorem wakeStream_starved (h : d.egrState k = 3) :
    bits ((wakeStream d q k e).egrCtx k).2 0 3 = 2 ∧ pends (wakeStream d q k e) 126 := by
  rw [wakeStream, if_pos h, egrCtx_raise]
  exact ⟨egrStat_same .., raise_pends (by decide) ..⟩

/-- The queue takes the frame and nothing else changes. -/
structure Queued (d d' : Dev) (q k : Nat) (f : EgFrame) : Prop where
  egr : d'.med.egr = d.med.egr
  egrIn : d'.med.egrIn = d.med.egrIn
  egBytes : d'.prt.egBytes = d.prt.egBytes
  regs : d'.regs = d.regs
  mem : d'.mem = d.mem
  egq : f.elig = none → tget [] d'.prt.egq q = tget [] d.prt.egq q ++ [f]
  egrQ : ∀ t, f.elig = some t → tget [] d'.med.egrQ k = tget [] d.med.egrQ k ++ [f]

theorem joinQueue_queued (d : Dev) (q k : Nat) (f : EgFrame) : Queued d (joinQueue d q k f) q k f := by
  rw [joinQueue]
  split
  next h => exact ⟨rfl, rfl, rfl, rfl, rfl, fun _ => tget_tset .., fun t ht => absurd (h.symm.trans ht) (by simp)⟩
  next h => exact ⟨rfl, rfl, rfl, rfl, rfl, fun hn => absurd (h.symm.trans hn) (by simp), fun _ _ => tget_tset ..⟩

/-! ### The whole -/

/-- A frame has joined its stream. -/
structure Joins (d d' : Dev) (q k : Nat) (f : EgFrame) : Prop where
  egrIn : d'.med.egrIn = d.med.egrIn
  depth : bits (d'.egrCtx k).2 16 16 = (bits (d.egrCtx k).2 16 16 + 1) % 2 ^ 16
  egBytes : tget 0 d'.prt.egBytes q = tget 0 d.prt.egBytes q + f.len
  mem : d'.mem = d.mem
  wakes : bits (d.egrCtx k).2 0 3 = 3 → bits (d'.egrCtx k).2 0 3 = 2 ∧ pends d' 126
  egq : f.elig = none → tget [] d'.prt.egq q = tget [] d.prt.egq q ++ [f]
  egrQ : ∀ t, f.elig = some t → tget [] d'.med.egrQ k = tget [] d.med.egrQ k ++ [f]
  late : ∀ t, f.elig = some t →
    bits (d'.egrCtx k).2 192 32 = (bits (d.egrCtx k).2 192 32 + if t < d.now then 1 else 0) % 2 ^ 32

/-- The stream counts the frame, and a STARVED one wakes. -/
theorem wakeStream_countIn (d : Dev) (q k e : Nat) (f : EgFrame) :
    bits ((wakeStream (countIn d q k f) q k e).egrCtx k).2 16 16 = (bits (d.egrCtx k).2 16 16 + 1) % 2 ^ 16 ∧
      (∀ a m, 32 ≤ a → bits ((wakeStream (countIn d q k f) q k e).egrCtx k).2 a m = bits (d.egrCtx k).2 a m) ∧
      (bits (d.egrCtx k).2 0 3 = 3 → bits ((wakeStream (countIn d q k f) q k e).egrCtx k).2 0 3 = 2 ∧
        pends (wakeStream (countIn d q k f) q k e) 126) := by
  refine ⟨?_, fun a m ha => ?_, fun h => wakeStream_starved ?_⟩
  · rw [wakeStream_high (by decide), countIn_egrCtx, bits_putBits_in (Nat.le_refl 16) (Nat.le_refl _), Nat.sub_self, bits_low]
  · rw [wakeStream_high (by omega), countIn_egrCtx, bits_putBits_out (.inr ha)]
  · rw [Dev.egrState, countIn_egrCtx, bits_putBits_out (.inl (by decide)), h]

theorem joins_of_onTime (d : Dev) (q k e : Nat) (f : EgFrame) :
    let d' := joinQueue (wakeStream (countIn d q k f) q k e) q k f
    d'.med.egrIn = d.med.egrIn ∧ tget 0 d'.prt.egBytes q = tget 0 d.prt.egBytes q + f.len ∧ d'.mem = d.mem ∧
      (f.elig = none → tget [] d'.prt.egq q = tget [] d.prt.egq q ++ [f]) ∧
      (∀ t, f.elig = some t → tget [] d'.med.egrQ k = tget [] d.med.egrQ k ++ [f]) := by
  intro d'
  have hj := joinQueue_queued (wakeStream (countIn d q k f) q k e) q k f
  obtain ⟨hprt, hmem, hq, hin⟩ := wakeStream_queues (countIn d q k f) q k e
  obtain ⟨hceq, hcq, hcin, hcmem⟩ := countIn_queues d q k f
  refine ⟨hj.egrIn.trans (hin.trans hcin), ?_, hj.mem.trans (hmem.trans hcmem), fun h => ?_, fun t ht => ?_⟩
  · rw [hj.egBytes, hprt, countIn_egBytes]
  · rw [hj.egq h, hprt, hceq]
  · rw [hj.egrQ t ht, hq, hcq]

theorem joinStream_joins (d : Dev) (q k e : Nat) (f : EgFrame) : Joins d (joinStream d q k e f) q k f := by
  have hlow {a m : Nat} (h : a + m ≤ 192) := countLate_low h d k f.elig
  have hlate := countLate_late d k
  obtain ⟨egr, regs, hd⟩ := countLate_med d k f.elig
  obtain ⟨hin, hbytes, hmem, hegq, hegrQ⟩ := joins_of_onTime (countLate d k f.elig) q k e f
  obtain ⟨hdepth, hhigh, hwake⟩ := wakeStream_countIn (countLate d k f.elig) q k e f
  have hj := joinQueue_queued (wakeStream (countIn (countLate d k f.elig) q k f) q k e) q k f
  have hctx : (joinStream d q k e f).egrCtx k = (wakeStream (countIn (countLate d k f.elig) q k f) q k e).egrCtx k := by
    rw [joinStream, Dev.egrCtx, hj.egr, Dev.egrCtx]
  have hpends (n : Nat) (h : pends (wakeStream (countIn (countLate d k f.elig) q k f) q k e) n) : pends (joinStream d q k e f) n := by
    rwa [pends, hasBit, joinStream, rd_of_regs hj.regs]
  refine ⟨hin.trans (by rw [hd]), ?_, ?_, hmem.trans (by rw [hd]), fun h => ?_, fun h => ?_, fun t ht => ?_, fun t ht => ?_⟩
  · rw [hctx, hdepth, hlow (by decide)]
  · exact hbytes.trans (by rw [hd])
  · rw [← hlow (by decide)] at h
    obtain ⟨hst, hp⟩ := hwake h
    exact ⟨by rw [hctx, hst], hpends _ hp⟩
  · exact (hegq h).trans (by rw [hd])
  · exact (hegrQ t ht).trans (by rw [hd])
  · rw [hctx, hhigh _ _ (by decide), ht, hlate]

/-! ### The eligible time (R186) -/

section

variable {cfg ts : Nat} {req : EgReq}

theorem eligible_unpaced (hkind : 2 ≤ bits cfg 3 2) : ∃ rtp, d.eligible k cfg req ts = (d, none, rtp) :=
  ⟨none, if_pos hkind⟩

theorem eligible_ingress (hkind : bits cfg 3 2 < 2) (hmode : bits cfg 1 2 = 2) : ∃ rtp, d.eligible k cfg req ts =
    (d, some (match req.ingress with | some t => t + bits cfg 320 32 * 65536 | none => d.now), rtp) := by
  rw [Dev.eligible, if_neg (Nat.not_le.mpr hkind), hmode]
  exact ⟨_, rfl⟩

theorem eligible_given (hkind : bits cfg 3 2 < 2) (hmode : bits cfg 1 2 % 2 = 1) : ∃ rtp, d.eligible k cfg req ts =
    (d, some (req.elig.getD d.now), rtp) := by
  rw [Dev.eligible, if_neg (Nat.not_le.mpr hkind)]
  have hlt : bits cfg 1 2 < 4 := bits_lt cfg 1 2
  obtain h | h : bits cfg 1 2 = 1 ∨ bits cfg 1 2 = 3 := by omega
  · rw [h]
    exact ⟨_, rfl⟩
  · rw [h]
    exact ⟨_, rfl⟩

theorem eligible_audio {n : Nat} (hkind : bits cfg 3 2 = 1) (hmode : bits cfg 1 2 = 0) (hn : req.index = some n)
    (hrate : bits cfg 96 32 ≠ 0) : ∃ rtp, d.eligible k cfg req ts =
      (d, some (ceilDiv ((n + bits cfg 160 7) * beadsPerSec : Nat) (bits cfg 96 32) + toSigned 64 (bits cfg 256 64)).toNat, rtp) := by
  rw [Dev.eligible, hkind, hmode, hn, audioElig, if_neg hrate]
  exact ⟨_, rfl⟩

end

end Sys2Proof.Machine
end

section
/-! SUPPORT. Egress streams: the oldest frame on its way to them (R177, R178, R186). -/

namespace Sys2Proof.Machine

open Sys2Proof.Claims

variable {d : Dev} {q : Fin 2} {r : EgReq} {rest : List EgReq}

/-- The oldest frame for the streams of port `q` taken. -/
def takeEgr (d : Dev) (q : Nat) (rest : List EgReq) : Dev := { d with med := { d.med with egrIn := tset [] d.med.egrIn q rest } }

theorem egressEnqueue_nil {q : Nat} (h : tget [] d.med.egrIn q = []) : egressEnqueue q d = d := by rw [egressEnqueue, h]

theorem egressEnqueue_cons {q : Nat} (h : tget [] d.med.egrIn q = r :: rest) :
    egressEnqueue q d = (takeEgr d q rest).streamEnqueue q r.stream r := by
  rw [egressEnqueue, h]
  rfl

/-- Frame `r` has joined its stream with an eligible time. -/
def entersStream (d : Dev) (q : Fin 2) (r : EgReq) (rest : List EgReq) (elig : Option Nat) : Prop :=
  let k := 2 ^ 14 * (q : Nat) + r.stream
  let st := (d.egrCtx k).2
  ∃ d', Does (.egressStreamEnqueue q) d d' ∧ tget [] d'.med.egrIn q = rest ∧
    part (d'.egrCtx k).2 16 16 = part st 16 16 + 1 ∧ tget 0 d'.prt.egBytes q = tget 0 d.prt.egBytes q + queuedLen r ∧ d'.mem = d.mem ∧
    (st % 8 = 3 → (d'.egrCtx k).2 % 8 = 2 ∧ pends d' 126) ∧
    ∃ f : EgFrame, f.bytes = r.bytes ∧ f.len = queuedLen r ∧ f.src = .stream ∧ f.sp = part (d.egrCtx k).1 7 2 ∧
      f.stream = r.stream ∧ f.elig = elig ∧
      (elig = none → tget [] d'.prt.egq q = tget [] d.prt.egq q ++ [f]) ∧
      (∀ t, elig = some t → tget [] d'.med.egrQ k = tget [] d.med.egrQ k ++ [f] ∧
        part (d'.egrCtx k).2 192 32 = (part st 192 32 + if t < d.now then 1 else 0) % 2 ^ 32)

/-- The stream's queue and the port's have room for the frame. -/
def roomFor (d : Dev) (q : Nat) (r : EgReq) : Prop :=
  ¬ streamFull d (egrKey q r.stream) ∧ ¬ portFull d q (queuedLen r)

theorem roomFor_iff {q : Nat} : roomFor d q r ↔
    part (d.egrCtx (egrKey q r.stream)).2 16 16 < part (d.egrCtx (egrKey q r.stream)).1 16 16 ∧
      tget 0 d.prt.egStreamBytes q + queuedLen r ≤ 2 ^ 21 - 2 ^ 16 ∧ tget 0 d.prt.egBytes q + queuedLen r ≤ 2 ^ 21 := by
  have h := Nat.not_lt (a := 2097152 - 65536) (b := tget 0 d.prt.egStreamBytes q + queuedLen r)
  have h' := Nat.not_lt (a := 2097152) (b := tget 0 d.prt.egBytes q + queuedLen r)
  rw [roomFor, portFull, not_or, gt_iff_lt, gt_iff_lt, h, h', streamFull, Nat.not_le]
  exact Iff.rfl

theorem portDown_iff {q s : Nat} : portDown d q s ↔ hasBit d R.PRT_STATUS_link [q] s = false ∨
    hasBit d R.PRT_STATUS_lfault [q] s = true ∨ hasBit d R.PRT_STATUS_rfault [q] s = true := by
  rw [portDown, linkUp_eq, faulted_eq, Bool.or_eq_true]

/-- The queue's depth is below the limit the context sets, so it counts one more. -/
theorem depth_succ {k : Nat} (h : ¬ streamFull d k) : (bits (d.egrCtx k).2 16 16 + 1) % 2 ^ 16 = bits (d.egrCtx k).2 16 16 + 1 := by
  have hlim := bits_lt (d.egrCtx k).1 16 16
  rw [streamFull] at h
  exact Nat.mod_eq_of_lt (by omega)

theorem entersStream_of {elig : Option Nat} (hon : On d) (hq : tget [] d.med.egrIn q = r :: rest)
    (hen : bits (d.egrCtx (egrKey q r.stream)).1 0 1 ≠ 0) (hkeep : bits (d.egrCtx (egrKey q r.stream)).1 5 1 = 0)
    (hasm : r.asm = false) (hroom : roomFor d q r) (hup : ¬ portDown d q (bits (d.egrCtx (egrKey q r.stream)).1 7 2))
    (helig : ∀ ts, ∃ rtp, (takeEgr d q rest).eligible (egrKey q r.stream) (d.egrCtx (egrKey q r.stream)).1 r ts =
      (takeEgr d q rest, elig, rtp)) : entersStream d q r rest elig := by
  obtain ⟨hfull, hport⟩ := hroom
  obtain ⟨pri, hf⟩ := streamEnqueue_joins (takeEgr d q rest) q r.stream r hen hkeep hasm hfull hport hup helig
  have hj := joinStream_joins (takeEgr d q rest) q (egrKey q r.stream) r.stream
    (keptFrame r.stream (d.egrCtx (egrKey q r.stream)).1 pri r elig)
  have hdoes : Does (.egressStreamEnqueue q) d (egressEnqueue q d) := does_of_run hon fun _ => rfl
  rw [egressEnqueue_cons hq, hf] at hdoes
  refine ⟨_, hdoes, ?_, hj.depth.trans (depth_succ hfull), hj.egBytes, hj.mem, fun h => ?_, _, rfl, rfl, rfl, rfl, rfl, rfl,
    hj.egq, fun t ht => ⟨hj.egrQ t ht, hj.late t ht⟩⟩
  · exact (congrArg (tget [] · (q : Nat)) hj.egrIn).trans (tget_tset ..)
  · obtain ⟨hst, hp⟩ := hj.wakes ((bits_low _ 3).trans h)
    exact ⟨(bits_low _ 3).symm.trans hst, hp⟩

/-- The frame is dropped for a full queue of its stream. -/
theorem does_streamFull (hon : On d) (hq : tget [] d.med.egrIn q = r :: rest)
    (hen : bits (d.egrCtx (egrKey q r.stream)).1 0 1 ≠ 0) (hts : r.tsTo = none) (hfull : streamFull d (egrKey q r.stream)) :
    ∃ d', Does (.egressStreamEnqueue q) d d' ∧ d'.rd R.MED_CNT_count [12] = (d.rd R.MED_CNT_count [12] + 1) % 2 ^ 64 ∧
      part (d'.egrCtx (egrKey q r.stream)).2 224 32 = (part (d.egrCtx (egrKey q r.stream)).2 224 32 + 1) % 2 ^ 32 ∧ d'.prt = d.prt := by
  have hdoes : Does (.egressStreamEnqueue q) d (egressEnqueue q d) := does_of_run hon fun _ => rfl
  rw [egressEnqueue_cons hq, streamEnqueue_full (takeEgr d q rest) q r.stream r hen hts hfull] at hdoes
  exact ⟨_, hdoes, rd_wr .., egrStat_same .., rfl⟩

theorem does_streamOff (hon : On d) (hq : tget [] d.med.egrIn q = r :: rest)
    (hoff : bits (d.egrCtx (egrKey q r.stream)).1 0 1 = 0) (hts : r.tsTo = none) :
    Does (.egressStreamEnqueue q) d ((takeEgr d q rest).medCount 11) := by
  have hdoes : Does (.egressStreamEnqueue q) d (egressEnqueue q d) := does_of_run hon fun _ => rfl
  rwa [egressEnqueue_cons hq, streamEnqueue_off (takeEgr d q rest) q r.stream r hoff hts] at hdoes

theorem does_portDown (hon : On d) (hq : tget [] d.med.egrIn q = r :: rest)
    (hen : bits (d.egrCtx (egrKey q r.stream)).1 0 1 ≠ 0) (hkeep : bits (d.egrCtx (egrKey q r.stream)).1 5 1 = 0)
    (hasm : r.asm = false) (hroom : roomFor d q r) (hdown : portDown d q (bits (d.egrCtx (egrKey q r.stream)).1 7 2)) :
    Does (.egressStreamEnqueue q) d ((takeEgr d q rest).prtCount q (bits (d.egrCtx (egrKey q r.stream)).1 7 2) 16) := by
  obtain ⟨hfull, hport⟩ := hroom
  have hdoes : Does (.egressStreamEnqueue q) d (egressEnqueue q d) := does_of_run hon fun _ => rfl
  rwa [egressEnqueue_cons hq, streamEnqueue_down (takeEgr d q rest) q r.stream r hen hkeep hasm hfull hport hdown] at hdoes

end Sys2Proof.Machine
end

section
/-! SUPPORT. Egress streams: starvation, halt, the audio assembly ring (R169, R180, R181, R213). -/

namespace Sys2Proof.Machine

open Sys2Proof.Claims

variable {d : Dev} {q : Fin 2} {e : Fin 16384}

/-! ### Starvation -/

/-- A SENDING stream empty for starve_ms. -/
def starveDue (d : Dev) (k : Nat) : Prop :=
  (d.egrCtx k).2 % 8 = 2 ∧ part (d.egrCtx k).1 352 16 ≠ 0 ∧ part (d.egrCtx k).2 16 16 = 0 ∧ tget 0 d.med.emptyAt k ≠ 0 ∧
    tget 0 d.med.emptyAt k + part (d.egrCtx k).1 352 16 * millis ≤ d.clock + 1

theorem starveDue_iff {k : Nat} : starveDue d k ↔ d.egrState k = 2 ∧ bits (d.egrCtx k).1 352 16 ≠ 0 ∧ d.egrDepth k = 0 ∧
    tget 0 d.med.emptyAt k ≠ 0 ∧ d.passed (tget 0 d.med.emptyAt k - 1 + bits (d.egrCtx k).1 352 16 * 65536000000) = true := by
  rw [starveDue, Dev.egrState, bits_low, Dev.passed, decide_eq_true_iff]
  refine and_congr_right fun _ => and_congr_right fun _ => and_congr_right fun _ => and_congr_right fun hne => ?_
  have hm : part (d.egrCtx k).1 352 16 * millis = bits (d.egrCtx k).1 352 16 * 65536000000 := rfl
  rw [hm]
  omega

theorem txStarved_eq (q e : Nat) (d : Dev) : txStarved q e d =
    if d.egrState (egrKey q e) = 2 ∧ bits (d.egrCtx (egrKey q e)).1 352 16 ≠ 0 ∧ d.egrDepth (egrKey q e) = 0 ∧
      tget 0 d.med.emptyAt (egrKey q e) ≠ 0 ∧
      d.passed (tget 0 d.med.emptyAt (egrKey q e) - 1 + bits (d.egrCtx (egrKey q e)).1 352 16 * 65536000000) = true then
      (d.egrStat (egrKey q e) 0 3 3).raise Ev.txStarved (txInfo q e) else d := rfl

theorem txStarved_idle {q e : Nat} (h : ¬ starveDue d (egrKey q e)) : txStarved q e d = d := by
  rw [starveDue_iff] at h
  rw [txStarved_eq, if_neg h]

theorem does_txStarved (hon : On d) (h : starveDue d (egrKey q e)) : ∃ d', Does (.txStarved q e) d d' ∧
    (d'.egrCtx (egrKey q e)).2 = (d.egrCtx (egrKey q e)).2 + 1 ∧ (d'.egrCtx (egrKey q e)).1 = (d.egrCtx (egrKey q e)).1 ∧
    pends d' 127 := by
  have hst : (d.egrCtx (egrKey q e)).2 % 8 = 2 := h.1
  rw [starveDue_iff] at h
  refine ⟨_, does_of_run hon fun _ => rfl, ?_⟩
  rw [txStarved_eq, if_pos h, egrCtx_raise, egrCtx_egrStat, putBits_low]
  refine ⟨?_, rfl, raise_pends (by decide) ..⟩
  dsimp only
  omega

/-! ### The halt bit clears -/

theorem hasBit_clearBit (d : Dev) (f : Field) (ix : List Nat) (b : Nat) : hasBit (d.clearBit f ix b) f ix b = false := by
  rw [hasBit, Dev.clearBit, rd_wr, Nat.testBit_mod_two_pow, testBit_withoutBit]
  simp

theorem streamRelease_clears (d : Dev) (q e : Nat) :
    hasBit (d.streamRelease q e) R.MED_TX_HALT_halt [q, e / 64] (e % 64) = false := by
  rw [Dev.streamRelease]
  split
  · exact hasBit_clearBit ..
  · exact hasBit_clearBit ..

theorem streamRelease_mem (d : Dev) (q e : Nat) : (d.streamRelease q e).mem = d.mem ∧ (d.streamRelease q e).out = d.out := by
  rw [Dev.streamRelease]
  split
  · exact ⟨rfl, rfl⟩
  · exact ⟨rfl, rfl⟩

theorem streamRelease_state (d : Dev) (q e : Nat) : (d.streamRelease q e).egrState (egrKey q e) =
    if d.egrState (egrKey q e) = 4 then (if d.egrDepth (egrKey q e) = 0 then 3 else 2) else d.egrState (egrKey q e) := by
  have hclear : (d.clearBit R.MED_TX_HALT_halt [q, e / 64] (e % 64)).egrState (egrKey q e) = d.egrState (egrKey q e) := rfl
  have hdepth : (d.clearBit R.MED_TX_HALT_halt [q, e / 64] (e % 64)).egrDepth (egrKey q e) = d.egrDepth (egrKey q e) := rfl
  rw [Dev.streamRelease]
  rw [hclear, hdepth]
  split
  · rw [Dev.egrState, egrStat_same]
    split
    · rfl
    · rfl
  · exact hclear

theorem does_txHaltClear (hon : On d) (hrun : d.island 78 = 0) (inp : Fin 101) :
    Does (.txHaltClear inp q e) d (said (if d.txHalted q e then d.streamRelease q e else d) inp 0 0) := by
  have h := does_runOn (c := .txHaltClear inp q e) hon hrun fun _ => rfl
  rwa [complete_accepted _ _ _ (by decide)] at h

/-! ### The assembly ring -/

/-- An audio stream whose packets close on schedule, the device in RUN. -/
def asmRuns (d : Dev) (k : Nat) : Prop :=
  (d.egrCtx k).1 % 2 = 1 ∧ part (d.egrCtx k).1 3 2 = 1 ∧ part (d.egrCtx k).1 1 2 = 0 ∧ part (d.egrCtx k).1 160 7 ≠ 0 ∧
    d.rd R.PWR_STAT_state = 0

theorem asmRuns_iff {k : Nat} : asmRuns d k ↔ ¬ (bits (d.egrCtx k).1 0 1 = 0 ∨ bits (d.egrCtx k).1 3 2 ≠ 1 ∨
    bits (d.egrCtx k).1 1 2 ≠ 0 ∨ bits (d.egrCtx k).1 160 7 = 0 ∨ d.rd R.PWR_STAT_state ≠ 0) := by
  have h1 : bits (d.egrCtx k).1 0 1 = (d.egrCtx k).1 % 2 := bits_low _ 1
  rw [asmRuns, h1, not_or, not_or, not_or, not_or, not_not, not_not, not_not, Nat.mod_two_not_eq_zero]
  exact Iff.rfl

/-- The packet taken from its buffer, the next one named. -/
def asmTaken (d : Dev) (k first spp base n : Nat) : Dev :=
  let z := d.setBytes base (List.replicate n 0)
  { z with med := { z.med with audNext := tset 0 z.med.audNext k (first + spp + 1) } }

/-- A packet past its closing time. -/
def asmDone (d : Dev) (q e chans fmt first : Nat) : Dev :=
  let cfg := (d.egrCtx (egrKey q e)).1
  let spp := bits cfg 160 7
  let base := ringBuffer cfg chans (first / spp % 4)
  (asmTaken d (egrKey q e) first spp base (chans * ringLine cfg)).streamEnqueue q e
    { stream := e, bytes := bufferSamples d base chans (ringLine cfg) spp fmt, index := some first, asm := true }

theorem asmClose_stopped {q e chans fmt : Nat} (h : ¬ asmRuns d (egrKey q e)) : asmClose q e chans fmt d = d := by
  rw [asmRuns_iff, not_not] at h
  exact if_pos h

theorem asmClose_runs {q e chans fmt first t : Nat} (h : asmRuns d (egrKey q e)) (hnext : tget 0 d.med.audNext (egrKey q e) = first + 1)
    (ht : audioElig (d.egrCtx (egrKey q e)).1 first = some t) : asmClose q e chans fmt d =
      if d.reached (t - bits (d.egrCtx (egrKey q e)).1 384 32 * 65536) = false then d else asmDone d q e chans fmt first := by
  rw [asmRuns_iff] at h
  rw [asmClose]
  dsimp only
  rw [if_neg h, hnext]
  dsimp only
  rw [ht, asmDone, bufferSamples]
  simp only [Nat.mul_comm 8]
  rfl

theorem closing_iff (d : Dev) (t x : Nat) : d.reached (t - x) = false ↔ d.now + x < t := by
  rw [reached_false_iff]
  omega

end Sys2Proof.Machine
end

section
/-! SUPPORT. Egress streams: the obligation (Table 05-7). -/

namespace Sys2Proof.Machine

open Sys2Proof.Claims

variable {d : Dev} {q : Fin 2} {e : Fin 16384}

theorem ringBuffer_eq (cfg chans b : Nat) : ringBuffer cfg chans b =
    0x40000000 + part cfg 416 4 * 2 ^ 22 + part cfg 420 22 * 64 + b * (chans * ((part cfg 160 7 + 7) / 8 * 64)) := by
  rw [ringBuffer, Nat.mul_assoc b]
  rfl

theorem bits_zero_one (v : Nat) : bits v 0 1 = v % 2 := bits_low v 1

theorem enabled_of {v : Nat} (h : v % 2 = 1) : bits v 0 1 ≠ 0 := by
  rw [bits_zero_one, h]
  exact Nat.one_ne_zero

/-- The closing of a packet whose time has come: the ring's buffer zeroed, the packet on its stream. -/
theorem does_asmDone (hon : On d) {ch : Fin 65} {fmt : Fin 3} {first t base : Nat} (hruns : asmRuns d (egrKey q e))
    (hnext : tget 0 d.med.audNext (egrKey q e) = first + 1) (ht : audioElig (d.egrCtx (egrKey q e)).1 first = some t)
    (hdue : t ≤ d.now + part (d.egrCtx (egrKey q e)).1 384 32 * 65536)
    (hbase : base = ringBuffer (d.egrCtx (egrKey q e)).1 ch (first / part (d.egrCtx (egrKey q e)).1 160 7 % 4)) :
    let spp := part (d.egrCtx (egrKey q e)).1 160 7
    let line := (spp + 7) / 8 * 64
    Does (.asmPacketClose q e ch fmt) d ((asmTaken d (egrKey q e) first spp base (ch * line)).streamEnqueue q e
      { stream := e, bytes := bufferSamples d base ch line spp fmt, index := some first, asm := true }) := by
  have hdoes : Does (.asmPacketClose q e ch fmt) d (asmClose q e ch fmt d) := does_of_run hon fun _ => rfl
  have hlate : ¬ d.reached (t - bits (d.egrCtx (egrKey q e)).1 384 32 * 65536) = false := by
    rw [closing_iff]
    exact Nat.not_lt.mpr hdue
  rw [asmClose_runs hruns hnext ht, if_neg hlate] at hdoes
  rw [hbase]
  exact hdoes

/-- A stream told to go on answers OK; its state follows its queue. -/
theorem does_release (hon : On d) (hrun : d.island 78 = 0) (inp : Fin 101)
    (hb : hasBit d R.MED_TX_HALT_halt [q, e / 64] (e % 64) = true) : ∃ d', Does (.txHaltClear inp q e) d d' ∧
      hasBit d' R.MED_TX_HALT_halt [q, e / 64] (e % 64) = false ∧ d'.out = .access inp 0 0 :: d.out ∧ d'.mem = d.mem ∧
      (d'.egrCtx (egrKey q e)).2 % 8 = if (d.egrCtx (egrKey q e)).2 % 8 = 4 then
        (if part (d.egrCtx (egrKey q e)).2 16 16 = 0 then 3 else 2) else (d.egrCtx (egrKey q e)).2 % 8 := by
  have hdoes := does_txHaltClear (q := q) (e := e) hon hrun inp
  have hhalt : d.txHalted q e = true := hb
  rw [if_pos hhalt] at hdoes
  have hst := streamRelease_state d q e
  rw [Dev.egrState, Dev.egrState, bits_low, bits_low] at hst
  obtain ⟨hmem, hout⟩ := streamRelease_mem d q e
  exact ⟨_, hdoes, streamRelease_clears .., congrArg _ hout, hmem, hst⟩

end Sys2Proof.Machine

namespace Sys2Proof.Claims

open Sys2Proof.Machine

/-- Settles O23: the entry by the order of its checks, the eligible time by kind and mode; starvation, release and the
packets of the ring each by its own condition. -/
theorem egressStreams : Obligations.EgressStreams := by
  intro d hon q
  refine ⟨fun hq => ?_, fun r rest hq hstream hts hasm => ⟨fun hoff => ?_, fun hen hkeep => ⟨fun hfull => ?_,
      fun hroom hdown => ?_, fun hroom hup => ?_⟩⟩,
    fun e => ⟨fun h => ?_, fun h => does_txStarved hon h, fun inp hrun => ⟨fun hb => ?_, fun hb => does_release hon hrun inp hb⟩,
      fun ch fmt first hnext => ⟨fun h => ?_, fun hruns t ht => ⟨fun hearly => ?_, fun hdue => ?_⟩⟩⟩⟩
  · exact does_stay (does_of_run hon fun _ => rfl) (egressEnqueue_nil hq)
  · exact does_streamOff hon hq ((bits_zero_one _).trans hoff) hts
  · exact does_streamFull hon hq (enabled_of hen) hts hfull
  · exact does_portDown hon hq (enabled_of hen) ((bits_one_eq_zero ..).mpr hkeep) hasm
      (roomFor_iff.mpr hroom) (portDown_iff.mpr hdown)
  · have enters {elig : Option Nat} := entersStream_of (elig := elig) hon hq (enabled_of hen)
      ((bits_one_eq_zero ..).mpr hkeep) hasm (roomFor_iff.mpr hroom) (fun h => hup (portDown_iff.mp h))
    refine ⟨fun hkind => enters fun _ => eligible_unpaced hkind, fun hkind hmode => enters fun _ => eligible_given hkind hmode,
      fun hkind hmode => enters fun _ => eligible_ingress hkind hmode,
      fun n hkind hmode hn hrate => enters fun _ => eligible_audio hkind hmode hn hrate⟩
  · exact does_stay (does_of_run hon fun _ => rfl) (txStarved_idle h)
  · have hdoes := does_txHaltClear (q := q) (e := e) hon hrun inp
    have hhalt : d.txHalted q e = false := hb
    rwa [hhalt] at hdoes
  · exact does_stay (does_of_run hon fun _ => rfl) (asmClose_stopped h)
  · refine does_stay (does_of_run hon fun _ => rfl) ?_
    exact (asmClose_runs hruns hnext ht).trans (if_pos ((closing_iff ..).mpr hearly))
  · exact does_asmDone hon hruns hnext ht hdue (ringBuffer_eq ..).symm

end Sys2Proof.Claims
end

section
/-! SUPPORT. The context command: what a write of MED_CTX_CMD starts (R191). -/

namespace Sys2Proof.Machine

open Sys2Proof.Claims

variable {d e : Dev} {r : Req} {op kind port index : Nat}

/-! ### The register -/

/-- Where MED_CTX_CMD keeps its operands, below busy and err. -/
abbrev ctxOperandKey (k : Nat) : Prop := 0x280200 ≤ k ∧ k < 0x280217

/-- The operands of MED_CTX_CMD written whole. -/
def ctxOperands (d : Dev) (op kind port index : Nat) : Dev :=
  (((d.wr R.MED_CTX_CMD_op [] op).wr R.MED_CTX_CMD_kind [] kind).wr R.MED_CTX_CMD_port [] port).wr R.MED_CTX_CMD_index [] index

theorem ctxOperands_within (d : Dev) (op kind port index : Nat) : RegsWithin ctxOperandKey d (ctxOperands d op kind port index) :=
  ((((RegsWithin.refl _ d).wr (by decide) op).wr (by decide) kind).wr (by decide) port).wr (by decide) index

theorem ctxOperands_rd (hop : op < 4) (hkind : kind < 4) (hport : port < 2) (hindex : index < 2 ^ 18) (d : Dev) :
    (ctxOperands d op kind port index).rd R.MED_CTX_CMD_op = op ∧ (ctxOperands d op kind port index).rd R.MED_CTX_CMD_kind = kind ∧
      (ctxOperands d op kind port index).rd R.MED_CTX_CMD_port = port ∧
      (ctxOperands d op kind port index).rd R.MED_CTX_CMD_index = index := by
  refine ⟨?_, ?_, ?_, ?_⟩
  · rw [ctxOperands, rd_wr_ne _ _ _ _ _ _ (by decide), rd_wr_ne _ _ _ _ _ _ (by decide), rd_wr_ne _ _ _ _ _ _ (by decide), rd_wr]
    exact Nat.mod_eq_of_lt hop
  · rw [ctxOperands, rd_wr_ne _ _ _ _ _ _ (by decide), rd_wr_ne _ _ _ _ _ _ (by decide), rd_wr]
    exact Nat.mod_eq_of_lt hkind
  · rw [ctxOperands, rd_wr_ne _ _ _ _ _ _ (by decide), rd_wr]
    exact Nat.mod_eq_of_lt hport
  · rw [ctxOperands, rd_wr]
    exact Nat.mod_eq_of_lt hindex

/-- A field written whole by the word's mask. -/
theorem mixed_whole {lo w : Nat} (h : lo + w ≤ 24) (old v : Nat) :
    (old &&& (ones w - bits (ones 24) lo w)) ||| (bits v lo w &&& bits (ones 24) lo w) = bits v lo w := by
  have hm : bits (ones 24) lo w = ones w := by
    refine Nat.eq_of_testBit_eq fun i => ?_
    rw [testBit_bits, ones, ones, Nat.testBit_two_pow_sub_one, Nat.testBit_two_pow_sub_one]
    by_cases hi : i < w
    · simp [hi, show lo + i < 24 by omega]
    · simp [hi]
  rw [hm, Nat.sub_self, Nat.and_zero, Nat.zero_or, ones, Nat.and_two_pow_sub_one_eq_mod]
  exact Nat.mod_eq_of_lt (bits_lt v lo w)

theorem bits_ctxCmdWord (hop : op < 4) (hkind : kind < 4) (hport : port < 2) (hindex : index < 2 ^ 18) :
    bits (ctxCmdWord op kind port index) 0 2 = op ∧ bits (ctxCmdWord op kind port index) 2 2 = kind ∧
      bits (ctxCmdWord op kind port index) 4 1 = port ∧ bits (ctxCmdWord op kind port index) 5 18 = index := by
  simp only [bits, ctxCmdWord]
  omega

/-- What an operation does before busy sets. -/
def ctxAct (d : Dev) (op kind q i : Nat) : Dev :=
  match op with
  | 0 => d.ctxRead kind q i
  | 1 => d.ctxWrite kind q i
  | _ => d.clrSid i

theorem writeCtxCmd_busy (m v : Nat) (h : d.rd R.MED_CTX_CMD_busy ≠ 0) : writeCtxCmd r m v d = (d, Sts.busy) :=
  if_pos (bne_iff_ne.mpr h)

theorem writeCtxCmd_idle (hop : op < 3) (hkind : kind < 4) (hport : port < 2) (hindex : index < 2 ^ 18)
    (hidle : d.rd R.MED_CTX_CMD_busy = 0) (hlock : d.locked r = false) :
    writeCtxCmd r (ones 24) (ctxCmdWord op kind port index) d =
      ((ctxAct (ctxOperands d op kind port index) op kind port index).wr R.MED_CTX_CMD_busy [] 1, Sts.ok) := by
  have hbusy : ¬ d.flag R.MED_CTX_CMD_busy = true := fun h => bne_iff_ne.mp h hidle
  have herr : ¬ ((ones 24).testBit 24 = true ∧ (ctxCmdWord op kind port index).testBit 24 = true) := fun h =>
    absurd h.1 (by decide)
  have hlock' : ¬ d.locked r = true := by rw [hlock]; decide
  obtain ⟨hbop, hbkind, hbport, hbindex⟩ := bits_ctxCmdWord (Nat.lt_succ_of_lt hop) hkind hport hindex
  obtain ⟨hrop, hrkind, hrport, hrindex⟩ := ctxOperands_rd (Nat.lt_succ_of_lt hop) hkind hport hindex d
  rw [writeCtxCmd, if_neg hbusy, if_neg herr, if_neg (by decide), if_neg hlock', if_neg (by decide)]
  simp only [show R.MED_CTX_CMD_op.width = 2 from rfl, show R.MED_CTX_CMD_kind.width = 2 from rfl,
    show R.MED_CTX_CMD_port.width = 1 from rfl, show R.MED_CTX_CMD_index.width = 18 from rfl]
  rw [mixed_whole (by decide), mixed_whole (by decide), mixed_whole (by decide), mixed_whole (by decide), hbop, hbkind, hbport, hbindex]
  have hfold : (((d.wr R.MED_CTX_CMD_op [] op).wr R.MED_CTX_CMD_kind [] kind).wr R.MED_CTX_CMD_port [] port).wr R.MED_CTX_CMD_index []
    index = ctxOperands d op kind port index := rfl
  rw [hfold, hrop, hrkind, hrport, hrindex]
  interval_cases op
  · rfl
  · rfl
  · rfl

end Sys2Proof.Machine
end

section
/-! SUPPORT. The context command: what reads, refused writes and CLR_SID leave (R152, R191, R192). -/

namespace Sys2Proof.Machine

open Sys2Proof.Claims

variable {d e x : Dev}

/-- Where MED_CTX_CMD keeps its operands, and where MED_CTX_DATA stands. -/
abbrev ctxKey (k : Nat) : Prop := ctxOperandKey k ∨ 0x280400 ≤ k ∧ k < 0x280800

/-! ### The end of a command -/

/-- A command accepted: busy sets, the access completes. -/
def ctxEnd (x : Dev) (inp : Nat) : Dev := said (x.wr R.MED_CTX_CMD_busy [] 1) inp 0 0

theorem ctxEnd_busy (x : Dev) (inp : Nat) : (ctxEnd x inp).rd R.MED_CTX_CMD_busy = 1 := by
  rw [ctxEnd, said_rd, rd_wr]
  rfl

theorem ctxEnd_rd {f : Field} {ix : List Nat} (hf : f.key ix ≠ 0x280217) (x : Dev) (inp : Nat) :
    (ctxEnd x inp).rd f ix = x.rd f ix := by
  rw [ctxEnd, said_rd]
  exact rd_wr_ne _ _ _ _ _ _ hf

theorem ctxEnd_state (x : Dev) (inp : Nat) : (ctxEnd x inp).med = x.med ∧ (ctxEnd x inp).mem = x.mem ∧
    (ctxEnd x inp).out = .access inp 0 0 :: x.out := ⟨rfl, rfl, rfl⟩

/-- What the command shows and answers, whatever it did to the contexts. -/
def ctxDone (d d' : Dev) (inp : Nat) : Prop := d'.rd R.MED_CTX_CMD_busy = 1 ∧ d'.out = .access inp 0 0 :: d.out

theorem ctxDone_ctxEnd (h : x.out = d.out) (inp : Nat) : ctxDone d (ctxEnd x inp) inp :=
  ⟨ctxEnd_busy .., by rw [(ctxEnd_state x inp).2.2, h]⟩

/-! ### A refusal -/

def ctxRefused (d d' : Dev) (inp : Nat) : Prop :=
  ctxDone d d' inp ∧ d'.rd R.MED_CTX_CMD_err = 1 ∧ d'.med = d.med ∧ d'.mem = d.mem ∧ (d.rd R.MED_CTX_CMD_err = 0 → pends d' 129)

theorem ctxErr_err (x : Dev) (i : Nat) : (x.ctxErr i).rd R.MED_CTX_CMD_err = 1 := by
  rw [Dev.ctxErr]
  split
  · exact rd_wr ..
  · rw [raise_rd _ _ (by decide) (by decide)]
    exact rd_wr ..

theorem ctxErr_rd {f : Field} {ix : List Nat} (hf : f.key ix ≠ 0x280218) (hk : f.key ix < 0x600000) (x : Dev) (i : Nat) :
    (x.ctxErr i).rd f ix = x.rd f ix := by
  rw [Dev.ctxErr]
  split
  · exact rd_wr_ne _ _ _ _ _ _ hf
  · rw [raise_rd _ _ (by decide) hk]
    exact rd_wr_ne _ _ _ _ _ _ hf

theorem ctxErr_state (x : Dev) (i : Nat) : (x.ctxErr i).med = x.med ∧ (x.ctxErr i).mem = x.mem ∧ (x.ctxErr i).out = x.out := by
  rw [Dev.ctxErr]
  split
  · exact ⟨rfl, rfl, rfl⟩
  · exact ⟨raise_med .., raise_mem .., raise_out ..⟩

theorem ctxErr_pends (h : x.rd R.MED_CTX_CMD_err = 0) (i : Nat) : pends (x.ctxErr i) 129 := by
  have hflag : ¬ x.flag R.MED_CTX_CMD_err = true := fun hf => bne_iff_ne.mp hf h
  rw [Dev.ctxErr, if_neg hflag]
  exact raise_pends (by decide) ..

theorem ctxEnd_pends {n : Nat} (h : pends x n) (inp : Nat) : pends (ctxEnd x inp) n := by
  have hkey : R.EVT_PEND_pend.key [n / 64] = 0x600800 + 64 * (n / 64) := key_one rfl _
  rw [pends, hasBit, ctxEnd_rd (by rw [hkey]; omega)]
  exact h

theorem RegsWithin.med {K : Nat → Prop} (h : RegsWithin K d e) : e.med = d.med := by rw [h.eq]

theorem ctxRefused_ctxErr (h : RegsWithin ctxKey d x) (i inp : Nat) : ctxRefused d (ctxEnd (x.ctxErr i) inp) inp := by
  obtain ⟨hmed, hmem, hout⟩ := ctxErr_state x i
  have hend := ctxEnd_state (x.ctxErr i) inp
  refine ⟨ctxDone_ctxEnd (hout.trans h.out) inp, ?_, hmed.trans h.med, hmem.trans h.mem,
    fun herr => ctxEnd_pends (ctxErr_pends ?_ i) inp⟩
  · rw [ctxEnd_rd (by decide), ctxErr_err]
  · rw [h.rd (by decide), herr]

/-! ### A read -/

/-- A context's two halves shown. -/
def ctxShow (x : Dev) (c : Nat × Nat) : Dev := (x.wr R.MED_CTX_DATA_cfg [] c.1).wr R.MED_CTX_DATA_stat [] c.2

theorem ctxShow_within (h : RegsWithin ctxKey d x) (c : Nat × Nat) : RegsWithin ctxKey d (ctxShow x c) :=
  (h.wr (by decide) _).wr (by decide) _

theorem ctxShow_rd (x : Dev) (c : Nat × Nat) : (ctxShow x c).rd R.MED_CTX_DATA_cfg = c.1 % 2 ^ R.MED_CTX_DATA_cfg.width ∧
    (ctxShow x c).rd R.MED_CTX_DATA_stat = c.2 % 2 ^ R.MED_CTX_DATA_stat.width :=
  ⟨(rd_wr_ne _ _ _ _ _ _ (by decide)).trans (rd_wr ..), rd_wr ..⟩

theorem ctxRead_some {kind q i : Nat} {c : Nat × Nat} (h : x.readCtx kind q i = some c) : x.ctxRead kind q i = ctxShow x c := by
  rw [Dev.ctxRead, h]
  rfl

theorem ctxRead_none {kind q i : Nat} (h : x.readCtx kind q i = none) : x.ctxRead kind q i = (ctxShow x (0, 0)).ctxErr i := by
  rw [Dev.ctxRead, h]
  rfl

theorem readCtx_of_med (h : x.med = d.med) (kind q i : Nat) : x.readCtx kind q i = d.readCtx kind q i := by
  unfold Dev.readCtx
  rw [rxCtx_of_med h, pairCtx_of_med h, egrCtx_of_med h]

theorem ctxWrite_none {kind q i : Nat} (h : x.readCtx kind q i = none) : x.ctxWrite kind q i = x.ctxErr i := by
  have below {n : Nat} {c : Nat × Nat} (h : (if i < n then some c else none) = none) : n ≤ i := by
    by_contra hlt
    rw [if_pos (Nat.not_le.mp hlt)] at h
    cases h
  unfold Dev.readCtx at h
  unfold Dev.ctxWrite
  split at h
  · exact if_pos (.inl (below h))
  · exact if_pos (.inl (below h))
  · exact if_pos (.inl (below h))
  · rfl

/-! ### CLR_SID -/

theorem leBytes_zero_getD (n i : Nat) : (leBytes n 0).getD i 0 = 0 := by
  induction n generalizing i with
  | zero => rfl
  | succ n ih =>
    cases i with
    | zero => rfl
    | succ i => exact ih i

theorem byte_store_zero (d : Dev) (a n j : Nat) : (d.store a n 0).byte j = if a ≤ j ∧ j < a + n then 0 else d.byte j := by
  rw [Dev.store, byte_setBytes, length_leBytes, leBytes_zero_getD]

theorem store_med (d : Dev) (a n v : Nat) : (d.store a n v).med = d.med := setBytes_med ..
theorem store_out (d : Dev) (a n v : Nat) : (d.store a n v).out = d.out := setBytes_out ..

theorem clrSid_state (x : Dev) (sid : Nat) : (x.clrSid sid).med = x.med ∧ (x.clrSid sid).out = x.out := by
  rw [Dev.clrSid]
  split
  · simp only [store_med, store_out, and_self]
  · simp only [store_med, store_out, and_self]

theorem clrSid_good {sid : Nat} (h : x.lineBad (sidAddr sid) = false) : x.clrSid sid = x.store (sidAddr sid) 32 0 := by
  rw [Dev.clrSid]
  exact if_neg (by rw [h]; decide)

end Sys2Proof.Machine
end

section
/-! SUPPORT. The context command: a configuration replaced (R152, R158, R181, R192). -/

namespace Sys2Proof.Machine

open Sys2Proof.Claims

variable {d x : Dev} {i cfg : Nat}

/-! ### Receive and pair contexts -/

/-- The status half of a receive context whose configuration becomes `cfg`. -/
def rxStatus (cfg : Nat) (c : Nat × Nat) : Nat := if cfg % 2 = 0 then c.2 / 4 * 4 else if c.1 % 2 = 0 then 1 else c.2

theorem putBits_state_zero (v w : Nat) : putBits v 0 w 0 = v / 2 ^ w * 2 ^ w := by
  rw [putBits_low, Nat.zero_mod, Nat.add_zero]

/-- A receive context started anew, its store empty. -/
def rxAnew (x : Dev) (i cfg : Nat) : Dev :=
  (x.setRx i (cfg, 1)).withMed fun m => { m with
    cur := tset {} m.cur i {}
    slots := m.slots.filter fun e => decide (e.1 / 65536 ≠ i) }

theorem writeRx_disable (h : cfg % 2 = 0) (x : Dev) (i : Nat) :
    x.writeRx i cfg = x.setRx i (cfg, putBits (x.rxCtx i).2 0 2 0) := if_pos ((bits_zero_one cfg).trans h)

theorem writeRx_anew (h : cfg % 2 ≠ 0) (hold : (x.rxCtx i).1 % 2 = 0) : x.writeRx i cfg = rxAnew x i cfg :=
  (if_neg fun h0 => h ((bits_zero_one cfg).symm.trans h0)).trans (if_pos ((bits_zero_one _).trans hold))

theorem writeRx_keep (h : cfg % 2 ≠ 0) (hold : (x.rxCtx i).1 % 2 ≠ 0) : x.writeRx i cfg = x.setRx i (cfg, (x.rxCtx i).2) :=
  (if_neg fun h0 => h ((bits_zero_one cfg).symm.trans h0)).trans (if_neg fun h0 => hold ((bits_zero_one _).symm.trans h0))

/-- What a legal write of a receive context leaves. -/
structure RxWritten (d x : Dev) (i cfg : Nat) : Prop where
  mem : x.mem = d.mem
  out : x.out = d.out
  same : x.rxCtx i = (cfg, rxStatus cfg (d.rxCtx i))
  others : ∀ j, j ≠ i → x.rxCtx j = d.rxCtx j

theorem writeRx_written (x : Dev) (i cfg : Nat) : RxWritten x (x.writeRx i cfg) i cfg := by
  by_cases hcfg : cfg % 2 = 0
  · rw [writeRx_disable hcfg]
    refine ⟨rfl, rfl, ?_, fun j hj => rxCtx_setRx_ne hj ..⟩
    rw [rxCtx_setRx, rxStatus, if_pos hcfg, putBits_state_zero]
    rfl
  · by_cases hold : (x.rxCtx i).1 % 2 = 0
    · rw [writeRx_anew hcfg hold]
      refine ⟨rfl, rfl, ?_, fun j hj => rxCtx_setRx_ne hj x (cfg, 1)⟩
      rw [rxStatus, if_neg hcfg, if_pos hold]
      exact rxCtx_setRx x i (cfg, 1)
    · rw [writeRx_keep hcfg hold]
      refine ⟨rfl, rfl, ?_, fun j hj => rxCtx_setRx_ne hj ..⟩
      rw [rxCtx_setRx, rxStatus, if_neg hcfg, if_neg hold]

/-- The status half of a pair context whose configuration becomes `cfg`. -/
def pairStatus (cfg : Nat) (c : Nat × Nat) : Nat := if c.1 % 2 = 0 ∧ cfg % 2 = 1 then putBits c.2 32 1 0 else c.2

theorem writePair_eq (x : Dev) (i cfg : Nat) : x.writePair i cfg = x.setPair i (cfg, pairStatus cfg (x.pairCtx i)) := by
  rw [pairStatus, ← bits_zero_one, ← bits_zero_one]
  rfl

theorem pairStatus_started (c : Nat × Nat) (h : c.1 % 2 = 0) (hcfg : cfg % 2 = 1) : (pairStatus cfg c).testBit 32 = false := by
  rw [pairStatus, if_pos ⟨h, hcfg⟩, ← bits_one_eq_zero, bits_putBits_in (Nat.le_refl 32) (Nat.le_refl _)]
  rfl

theorem pairStatus_kept (c : Nat × Nat) (h : c.1 % 2 = 1 ∨ cfg % 2 = 0) : pairStatus cfg c = c.2 :=
  if_neg (by omega)

/-! ### Egress contexts -/

theorem egFrees_prt (q : Nat) (l : List EgFrame) (d : Dev) :
    l.foldl (fun d f => d.egFree q f) d = { d with prt := (l.foldl (fun d f => d.egFree q f) d).prt } := by
  induction l generalizing d with
  | nil => rfl
  | cons f l ih =>
    rw [List.foldl_cons, ih]
    rfl

/-- The queues without the stream's frames. -/
def streamGone (d : Dev) (q e : Nat) : Dev :=
  let mine := fun (f : EgFrame) => f.src == .stream && f.stream == e
  { d with
    med := { d.med with egrQ := tset [] d.med.egrQ (egrKey q e) [] }
    prt := { d.prt with
      egq := tset [] d.prt.egq q ((tget [] d.prt.egq q).filter fun f => !mine f)
      fifo := (List.range 4).foldl (fun t s =>
        tset [] t (4 * q + s) ((tget [] t (4 * q + s)).filter fun f => !mine f)) d.prt.fifo } }

theorem dropStream_eq (d : Dev) (q e : Nat) : ∃ prt,
    d.dropStream q e = ({ streamGone d q e with prt := prt } : Dev).egrStat (egrKey q e) 16 16 0 :=
  ⟨_, congrArg (fun d : Dev => d.egrStat (egrKey q e) 16 16 0) (egFrees_prt q _ (streamGone d q e))⟩

theorem dropStream_egrCtx_ne {j q e : Nat} (h : j ≠ egrKey q e) (d : Dev) : (d.dropStream q e).egrCtx j = d.egrCtx j := by
  obtain ⟨prt, hd⟩ := dropStream_eq d q e
  rw [hd, egrCtx_egrStat_ne h]
  rfl

theorem dropStream_state (d : Dev) (q e : Nat) : (d.dropStream q e).mem = d.mem ∧ (d.dropStream q e).out = d.out ∧
    tget [] (d.dropStream q e).med.egrQ (egrKey q e) = [] := by
  obtain ⟨prt, hd⟩ := dropStream_eq d q e
  rw [hd]
  exact ⟨rfl, rfl, tget_tset [] d.med.egrQ (egrKey q e) []⟩

/-- The stream with its frames dropped if it was enabled. -/
def disabled (d : Dev) (q e : Nat) : Dev := if bits (d.egrCtx (egrKey q e)).1 0 1 = 1 then d.dropStream q e else d

theorem disabled_state (d : Dev) (q e : Nat) : (disabled d q e).mem = d.mem ∧ (disabled d q e).out = d.out ∧
    ∀ j, j ≠ egrKey q e → (disabled d q e).egrCtx j = d.egrCtx j := by
  obtain ⟨hmem, hout, _⟩ := dropStream_state d q e
  rw [disabled]
  split
  · exact ⟨hmem, hout, fun j hj => dropStream_egrCtx_ne hj d⟩
  · exact ⟨rfl, rfl, fun _ _ => rfl⟩

theorem disabled_queue {q e : Nat} (h : (d.egrCtx (egrKey q e)).1 % 2 = 1) : tget [] (disabled d q e).med.egrQ (egrKey q e) = [] := by
  rw [disabled, if_pos ((bits_zero_one _).trans h)]
  exact (dropStream_state d q e).2.2

theorem writeEgr_disable {q e : Nat} (h : cfg % 2 = 0) (d : Dev) : d.writeEgr q e cfg =
    (disabled d q e).setEgr (egrKey q e) (cfg, putBits ((disabled d q e).egrCtx (egrKey q e)).2 0 3 0) :=
  if_pos ((bits_zero_one cfg).trans h)

/-- A stream enabled anew. -/
def enabled (d : Dev) (q e cfg : Nat) : Dev :=
  (d.setEgr (egrKey q e) (cfg, if d.txHalted q e then 4 else 1)).withMed fun m => { m with
    vidN := tset 0 m.vidN (egrKey q e) 0
    emptyAt := tset 0 m.emptyAt (egrKey q e) 0
    audNext := tset 0 m.audNext (egrKey q e) (d.firstPacket cfg + 1) }

theorem writeEgr_enable {q e : Nat} (h : cfg % 2 = 1) (hold : (d.egrCtx (egrKey q e)).1 % 2 = 0) :
    d.writeEgr q e cfg = enabled d q e cfg :=
  (if_neg (enabled_of h)).trans (if_pos ((bits_zero_one _).trans hold))

theorem writeEgr_keep {q e : Nat} (h : cfg % 2 = 1) (hold : (d.egrCtx (egrKey q e)).1 % 2 = 1) :
    d.writeEgr q e cfg = d.setEgr (egrKey q e) (cfg, (d.egrCtx (egrKey q e)).2) :=
  (if_neg (enabled_of h)).trans (if_neg (enabled_of hold))

/-- What a legal write of an egress context leaves. -/
structure EgrWritten (d x : Dev) (q e cfg : Nat) : Prop where
  mem : x.mem = d.mem
  out : x.out = d.out
  conf : (x.egrCtx (egrKey q e)).1 = cfg
  others : ∀ j, j ≠ egrKey q e → x.egrCtx j = d.egrCtx j
  off : cfg % 2 = 0 → (x.egrCtx (egrKey q e)).2 % 8 = 0
  anew : (d.egrCtx (egrKey q e)).1 % 2 = 0 → cfg % 2 = 1 →
    (x.egrCtx (egrKey q e)).2 = if hasBit d R.MED_TX_HALT_halt [q, e / 64] (e % 64) then 4 else 1
  kept : (d.egrCtx (egrKey q e)).1 % 2 = 1 → cfg % 2 = 1 → (x.egrCtx (egrKey q e)).2 = (d.egrCtx (egrKey q e)).2
  dropped : cfg % 2 = 0 → (d.egrCtx (egrKey q e)).1 % 2 = 1 → tget [] x.med.egrQ (egrKey q e) = []

theorem writeEgr_written (d : Dev) (q e cfg : Nat) : EgrWritten d (d.writeEgr q e cfg) q e cfg := by
  rcases Nat.mod_two_eq_zero_or_one cfg with hcfg | hcfg
  · obtain ⟨hmem, hout, hothers⟩ := disabled_state d q e
    have hon : cfg % 2 ≠ 1 := by omega
    rw [writeEgr_disable hcfg]
    refine ⟨hmem, hout, ?_, fun j hj => ?_, fun _ => ?_, fun _ h => absurd h hon, fun _ h => absurd h hon, fun _ h => disabled_queue h⟩
    · rw [egrCtx_setEgr]
    · rw [egrCtx_setEgr_ne hj, hothers j hj]
    · rw [egrCtx_setEgr, putBits_state_zero]
      exact Nat.mul_mod_left ..
  · have hoff : cfg % 2 ≠ 0 := by omega
    rcases Nat.mod_two_eq_zero_or_one (d.egrCtx (egrKey q e)).1 with hold | hold
    · have hctx : (enabled d q e cfg).egrCtx (egrKey q e) = (cfg, if d.txHalted q e then 4 else 1) := egrCtx_setEgr d ..
      rw [writeEgr_enable hcfg hold]
      exact ⟨rfl, rfl, by rw [hctx], fun j hj => egrCtx_setEgr_ne hj d _, fun h => absurd h hoff, fun _ _ => congrArg Prod.snd hctx,
        fun h => absurd (hold.symm.trans h) (by decide), fun h => absurd h hoff⟩
    · rw [writeEgr_keep hcfg hold]
      exact ⟨rfl, rfl, by rw [egrCtx_setEgr], fun j hj => egrCtx_setEgr_ne hj d _, fun h => absurd h hoff,
        fun h => absurd (hold.symm.trans h) (by decide), fun _ _ => by rw [egrCtx_setEgr], fun h => absurd h hoff⟩

end Sys2Proof.Machine
end

section
/-! SUPPORT. The context command: the obligation (Tables 05-11 to 05-14). -/

namespace Sys2Proof.Machine

open Sys2Proof.Claims

variable {d : Dev} {inp : Fin 101} {desc : Bool}

/-- The command register is free and the access may write it. -/
def ctxIdle (d : Dev) (inp : Fin 101) (desc : Bool) : Prop := d.rd R.MED_CTX_CMD_busy = 0 ∧ d.locked ⟨inp, desc⟩ = false

/-! ### The commands -/

theorem ok_plain : Sts.ok ≠ 1 ∧ Sts.ok ≠ 3 ∧ Sts.ok ≠ 4 := by decide
theorem busy_plain : Sts.busy ≠ 1 ∧ Sts.busy ≠ 3 ∧ Sts.busy ≠ 4 := by decide

section

variable (hon : On d) (hrun : d.island 78 = 0) (hidle : ctxIdle d inp desc)
include hon hrun hidle

theorem does_ctxRead (kind : Fin 4) (p : Fin 2) (i : BitVec 18) : Does (.ctxRead inp desc kind p i) d
    (ctxEnd ((ctxOperands d 0 kind p i.toNat).ctxRead kind p i.toNat) inp) := by
  have h := does_runOn (c := .ctxRead inp desc kind p i) hon hrun fun _ => rfl
  rwa [writeCtxCmd_idle (by decide) kind.isLt p.isLt i.isLt hidle.1 hidle.2, complete_accepted _ _ _ ok_plain] at h

theorem does_ctxWrite (kind : Fin 4) (p : Fin 2) (i : BitVec 18) : Does (.ctxWrite inp desc kind p i) d
    (ctxEnd ((ctxOperands d 1 kind p i.toNat).ctxWrite kind p i.toNat) inp) := by
  have h := does_runOn (c := .ctxWrite inp desc kind p i) hon hrun fun _ => rfl
  rwa [writeCtxCmd_idle (by decide) kind.isLt p.isLt i.isLt hidle.1 hidle.2, complete_accepted _ _ _ ok_plain] at h

theorem does_clrSid (i : BitVec 18) : Does (.clrSid inp desc i) d (ctxEnd ((ctxOperands d 2 0 0 i.toNat).clrSid i.toNat) inp) := by
  have h := does_runOn (c := .clrSid inp desc i) hon hrun fun _ => rfl
  rwa [writeCtxCmd_idle (by decide) (by decide) (by decide) i.isLt hidle.1 hidle.2, complete_accepted _ _ _ ok_plain] at h

end

theorem does_ctxBusy (hon : On d) (hrun : d.island 78 = 0) (hbusy : d.rd R.MED_CTX_CMD_busy ≠ 0) (kind : Fin 4) (p : Fin 2)
    (i : BitVec 18) : Does (.ctxRead inp desc kind p i) d (said d inp 27 0) ∧
      Does (.ctxWrite inp desc kind p i) d (said d inp 27 0) ∧ Does (.clrSid inp desc i) d (said d inp 27 0) := by
  have hread := does_runOn (c := .ctxRead inp desc kind p i) hon hrun fun _ => rfl
  have hwrite := does_runOn (c := .ctxWrite inp desc kind p i) hon hrun fun _ => rfl
  have hclr := does_runOn (c := .clrSid inp desc i) hon hrun fun _ => rfl
  rw [writeCtxCmd_busy _ _ hbusy, complete_accepted _ _ _ busy_plain] at hread hwrite hclr
  exact ⟨hread, hwrite, hclr⟩

/-! ### Reads and refusals -/

theorem ctxOperands_ctxKey (d : Dev) (op kind port index : Nat) : RegsWithin ctxKey d (ctxOperands d op kind port index) :=
  (ctxOperands_within ..).mono fun _ => .inl

theorem readCtx_named {kind : Fin 4} {p : Fin 2} {i : Nat} {c : Nat × Nat} (h : (kind = 0 ∧ i < 65536 ∧ c = d.rxCtx i) ∨
    (kind = 1 ∧ i < 65536 ∧ c = d.pairCtx i) ∨ (kind = 2 ∧ i < 16384 ∧ c = d.egrCtx (egrKey p i))) :
    d.readCtx kind p i = some c := by
  obtain ⟨rfl, hi, rfl⟩ | ⟨rfl, hi, rfl⟩ | ⟨rfl, hi, rfl⟩ := h
  · exact if_pos hi
  · exact if_pos hi
  · exact if_pos hi

theorem readCtx_beyond {kind : Fin 4} {p : Fin 2} {i : Nat} (h : kind = 3 ∨ (kind < 2 ∧ 65536 ≤ i) ∨ (kind = 2 ∧ 16384 ≤ i)) :
    d.readCtx kind p i = none := by
  obtain rfl | ⟨hk, hi⟩ | ⟨rfl, hi⟩ := h
  · rfl
  · obtain rfl | rfl : kind = 0 ∨ kind = 1 := by omega
    · exact if_neg (Nat.not_lt.mpr hi)
    · exact if_neg (Nat.not_lt.mpr hi)
  · exact if_neg (Nat.not_lt.mpr hi)

/-- A read shows the context and changes none. -/
theorem ctxRead_shows {op kind p i : Nat} {c : Nat × Nat} (h : d.readCtx kind p i = some c) (inp : Nat) :
    let d' := ctxEnd ((ctxOperands d op kind p i).ctxRead kind p i) inp
    ctxDone d d' inp ∧ d'.rd R.MED_CTX_DATA_cfg = c.1 % 2 ^ R.MED_CTX_DATA_cfg.width ∧
      d'.rd R.MED_CTX_DATA_stat = c.2 % 2 ^ R.MED_CTX_DATA_stat.width ∧ d'.med = d.med ∧ d'.mem = d.mem := by
  intro d'
  have hops := ctxOperands_ctxKey d op kind p i
  have hshow := ctxShow_within hops c
  obtain ⟨hcfg, hstat⟩ := ctxShow_rd (ctxOperands d op kind p i) c
  have hd' : d' = ctxEnd (ctxShow (ctxOperands d op kind p i) c) inp :=
    congrArg (ctxEnd · inp) (ctxRead_some ((readCtx_of_med hops.med ..).trans h))
  rw [hd']
  refine ⟨ctxDone_ctxEnd hshow.out inp, ?_, ?_, hshow.med, hshow.mem⟩
  · rw [ctxEnd_rd (by decide), hcfg]
  · rw [ctxEnd_rd (by decide), hstat]

/-- A read of no context: zeros, err. -/
theorem ctxRead_refused {op kind p i : Nat} (h : d.readCtx kind p i = none) (inp : Nat) :
    let d' := ctxEnd ((ctxOperands d op kind p i).ctxRead kind p i) inp
    ctxRefused d d' inp ∧ d'.rd R.MED_CTX_DATA_cfg = 0 ∧ d'.rd R.MED_CTX_DATA_stat = 0 := by
  intro d'
  have hops := ctxOperands_ctxKey d op kind p i
  obtain ⟨hcfg, hstat⟩ := ctxShow_rd (ctxOperands d op kind p i) (0, 0)
  have hd' : d' = ctxEnd ((ctxShow (ctxOperands d op kind p i) (0, 0)).ctxErr i) inp :=
    congrArg (ctxEnd · inp) (ctxRead_none ((readCtx_of_med hops.med ..).trans h))
  rw [hd']
  refine ⟨ctxRefused_ctxErr (ctxShow_within hops _) i inp, ?_, ?_⟩
  · rw [ctxEnd_rd (by decide), ctxErr_rd (by decide) (by decide), hcfg, Nat.zero_mod]
  · rw [ctxEnd_rd (by decide), ctxErr_rd (by decide) (by decide), hstat, Nat.zero_mod]

theorem ctxWrite_refused {op kind p i : Nat} (h : d.readCtx kind p i = none) (inp : Nat) :
    ctxRefused d (ctxEnd ((ctxOperands d op kind p i).ctxWrite kind p i) inp) inp := by
  have hops := ctxOperands_ctxKey d op kind p i
  rw [ctxWrite_none ((readCtx_of_med hops.med ..).trans h)]
  exact ctxRefused_ctxErr hops i inp

/-! ### Writes -/

theorem ctxOperands_data (d : Dev) (op kind port index : Nat) :
    (ctxOperands d op kind port index).rd R.MED_CTX_DATA_cfg = d.rd R.MED_CTX_DATA_cfg :=
  (ctxOperands_within ..).rd (by decide)

/-- A write goes by the kind's check of the data under its mask. -/
theorem ctxWrite_cases {kind p i op port index : Nat} {bad : Bool} {good : Dev} (d : Dev)
    (h : (ctxOperands d op kind port index).ctxWrite kind p i =
      if bad = true then (ctxOperands d op kind port index).ctxErr i else good) (inp : Nat) :
    (bad = true → ctxRefused d (ctxEnd ((ctxOperands d op kind port index).ctxWrite kind p i) inp) inp) ∧
      (bad = false → (ctxOperands d op kind port index).ctxWrite kind p i = good) := by
  rw [h]
  refine ⟨fun hb => ?_, fun hb => ?_⟩
  · rw [if_pos hb]
    exact ctxRefused_ctxErr (ctxOperands_ctxKey ..) i inp
  · rw [hb]
    rfl

theorem ctxWrite_rx {i : Nat} (hi : i < 65536) (d : Dev) (op p : Nat) : (ctxOperands d op 0 p i).ctxWrite 0 p i =
    if rxBad (d.rd R.MED_CTX_DATA_cfg &&& ctxMask 0) = true then (ctxOperands d op 0 p i).ctxErr i
    else (ctxOperands d op 0 p i).writeRx i (d.rd R.MED_CTX_DATA_cfg &&& ctxMask 0) := by
  rw [Dev.ctxWrite, ctxOperands_data]
  simp only [ge_iff_le, Nat.not_le.mpr hi, false_or]

theorem ctxWrite_pair {i : Nat} (hi : i < 65536) (d : Dev) (op p : Nat) : (ctxOperands d op 1 p i).ctxWrite 1 p i =
    if pairBad (d.rd R.MED_CTX_DATA_cfg &&& ctxMask 1) = true then (ctxOperands d op 1 p i).ctxErr i
    else (ctxOperands d op 1 p i).writePair i (d.rd R.MED_CTX_DATA_cfg &&& ctxMask 1) := by
  rw [Dev.ctxWrite, ctxOperands_data]
  simp only [ge_iff_le, Nat.not_le.mpr hi, false_or]

theorem ctxWrite_egr {i : Nat} (hi : i < 16384) (d : Dev) (op p : Nat) : (ctxOperands d op 2 p i).ctxWrite 2 p i =
    if egrBad (d.rd R.MED_CTX_DATA_cfg &&& ctxMask 2) = true then (ctxOperands d op 2 p i).ctxErr i
    else (ctxOperands d op 2 p i).writeEgr p i (d.rd R.MED_CTX_DATA_cfg &&& ctxMask 2) := by
  rw [Dev.ctxWrite, ctxOperands_data]
  simp only [ge_iff_le, Nat.not_le.mpr hi, false_or]

theorem ctxOperands_halted (d : Dev) (op kind port index q e b : Nat) :
    hasBit (ctxOperands d op kind port index) R.MED_TX_HALT_halt [q, e] b = hasBit d R.MED_TX_HALT_halt [q, e] b := by
  have hkey : R.MED_TX_HALT_halt.key [q, e] = 0x2C0000 + 16384 * q + 64 * e := key_two rfl _ _
  rw [hasBit, (ctxOperands_within d op kind port index).rd (by rw [hkey]; omega), hasBit]

/-! ### What each kind's legal write leaves -/

section

variable {d : Dev} {i : Nat}

/-- The data a write of a context of this kind holds. -/
def ctxData (d : Dev) (kind : Nat) : Nat := d.rd R.MED_CTX_DATA_cfg &&& ctxMask kind

theorem ctxWrite_rx_written (hi : i < 65536) (hgood : rxBad (ctxData d 0) = false) (op p inp : Nat) :
    let d' := ctxEnd ((ctxOperands d op 0 p i).ctxWrite 0 p i) inp
    ctxDone d d' inp ∧ d'.rxCtx i = (ctxData d 0, rxStatus (ctxData d 0) (d.rxCtx i)) ∧
      (∀ j, j ≠ i → d'.rxCtx j = d.rxCtx j) ∧ d'.mem = d.mem := by
  have hops := ctxOperands_ctxKey d op 0 p i
  have hw := writeRx_written (ctxOperands d op 0 p i) i (ctxData d 0)
  have hctx (j : Nat) := rxCtx_of_med hops.med j
  intro d'
  have hd' : d' = ctxEnd ((ctxOperands d op 0 p i).writeRx i (ctxData d 0)) inp :=
    congrArg (ctxEnd · inp) ((ctxWrite_cases d (ctxWrite_rx hi d op p) inp).2 hgood)
  rw [hd']
  exact ⟨ctxDone_ctxEnd (hw.out.trans hops.out) inp, hw.same.trans (by rw [hctx]), fun j hj => (hw.others j hj).trans (hctx j),
    hw.mem.trans hops.mem⟩

theorem ctxWrite_pair_written (hi : i < 65536) (hgood : pairBad (ctxData d 1) = false) (op p inp : Nat) :
    let d' := ctxEnd ((ctxOperands d op 1 p i).ctxWrite 1 p i) inp
    ctxDone d d' inp ∧ d'.pairCtx i = (ctxData d 1, pairStatus (ctxData d 1) (d.pairCtx i)) ∧
      (∀ j, j ≠ i → d'.pairCtx j = d.pairCtx j) ∧ d'.mem = d.mem := by
  have hops := ctxOperands_ctxKey d op 1 p i
  have hctx (j : Nat) := pairCtx_of_med hops.med j
  intro d'
  have hd' : d' = ctxEnd ((ctxOperands d op 1 p i).setPair i (ctxData d 1, pairStatus (ctxData d 1) (d.pairCtx i))) inp := by
    rw [← hctx, ← writePair_eq]
    exact congrArg (ctxEnd · inp) ((ctxWrite_cases d (ctxWrite_pair hi d op p) inp).2 hgood)
  rw [hd']
  exact ⟨ctxDone_ctxEnd hops.out inp, pairCtx_setPair (ctxOperands d op 1 p i) i _,
    fun j hj => (pairCtx_setPair_ne hj (ctxOperands d op 1 p i) _).trans (hctx j), hops.mem⟩

theorem ctxWrite_egr_written (hi : i < 16384) (hgood : egrBad (ctxData d 2) = false) (op p inp : Nat) :
    let d' := ctxEnd ((ctxOperands d op 2 p i).ctxWrite 2 p i) inp
    ctxDone d d' inp ∧ EgrWritten d { d' with out := d.out } p i (ctxData d 2) := by
  have hops := ctxOperands_ctxKey d op 2 p i
  have hw := writeEgr_written (ctxOperands d op 2 p i) p i (ctxData d 2)
  have hctx (j : Nat) := egrCtx_of_med hops.med j
  intro d'
  have hd' : d' = ctxEnd ((ctxOperands d op 2 p i).writeEgr p i (ctxData d 2)) inp :=
    congrArg (ctxEnd · inp) ((ctxWrite_cases d (ctxWrite_egr hi d op p) inp).2 hgood)
  rw [hd']
  have hanew := hw.anew
  have hkept := hw.kept
  have hdropped := hw.dropped
  rw [hctx] at hanew hkept hdropped
  rw [ctxOperands_halted] at hanew
  exact ⟨ctxDone_ctxEnd (hw.out.trans hops.out) inp, hw.mem.trans hops.mem, rfl, hw.conf,
    fun j hj => (hw.others j hj).trans (hctx j), hw.off, hanew, hkept, hdropped⟩

end

/-- CLR_SID on a line that is not bad zeroes the sid's 32 bytes and no other. -/
theorem clrSid_bytes {sid : Nat} (d : Dev) (op kind p : Nat) (h : d.lineBad (sidAddr sid) = false) (inp a : Nat) :
    (ctxEnd ((ctxOperands d op kind p sid).clrSid sid) inp).byte a =
      if sidAddr sid ≤ a ∧ a < sidAddr sid + 32 then 0 else d.byte a := by
  have hops := ctxOperands_ctxKey d op kind p sid
  have hbad : (ctxOperands d op kind p sid).lineBad (sidAddr sid) = false := by rwa [Dev.lineBad, hops.ddr]
  have hend (x : Dev) : (ctxEnd x inp).byte a = x.byte a := rfl
  rw [hend, clrSid_good hbad, byte_store_zero, hops.byte]

end Sys2Proof.Machine

namespace Sys2Proof.Claims

open Sys2Proof.Machine

/-- The command's end, a busy register, reads, refusals and CLR_SID. -/
theorem contextReads {d : Dev} (hon : On d) {inp : Fin 101} {desc : Bool} (hrun : d.island 78 = 0) (hidle : ctxIdle d inp desc)
    (kind : Fin 4) (p : Fin 2) (i : BitVec 18) :
    (∀ c, (kind = 0 ∧ i.toNat < 65536 ∧ c = d.rxCtx i.toNat) ∨ (kind = 1 ∧ i.toNat < 65536 ∧ c = d.pairCtx i.toNat) ∨
        (kind = 2 ∧ i.toNat < 16384 ∧ c = d.egrCtx (2 ^ 14 * (p : Nat) + i.toNat)) →
      ∃ d', Does (.ctxRead inp desc kind p i) d d' ∧ ctxDone d d' inp ∧ d'.rd R.MED_CTX_DATA_cfg = c.1 % 2 ^ 512 ∧
        d'.rd R.MED_CTX_DATA_stat = c.2 % 2 ^ 512 ∧ d'.med = d.med ∧ d'.mem = d.mem) ∧
    (kind = 3 ∨ (kind < 2 ∧ 65536 ≤ i.toNat) ∨ (kind = 2 ∧ 16384 ≤ i.toNat) →
      (∃ d', Does (.ctxRead inp desc kind p i) d d' ∧ ctxRefused d d' inp ∧ d'.rd R.MED_CTX_DATA_cfg = 0 ∧
        d'.rd R.MED_CTX_DATA_stat = 0) ∧
      (∃ d', Does (.ctxWrite inp desc kind p i) d d' ∧ ctxRefused d d' inp)) ∧
    (∃ d', Does (.clrSid inp desc i) d d' ∧ ctxDone d d' inp ∧ d'.med = d.med ∧
      (d.lineBad (0x1054000000 + 32 * i.toNat) = false →
        ∀ a, d'.byte a = if 0x1054000000 + 32 * i.toNat ≤ a ∧ a < 0x1054000000 + 32 * i.toNat + 32 then 0 else d.byte a)) := by
  have hops := ctxOperands_ctxKey d 2 0 0 i.toNat
  obtain ⟨hmed, hout⟩ := clrSid_state (ctxOperands d 2 0 0 i.toNat) i.toNat
  exact ⟨fun c hc => ⟨_, does_ctxRead hon hrun hidle kind p i, ctxRead_shows (readCtx_named hc) inp⟩,
    fun h => ⟨⟨_, does_ctxRead hon hrun hidle kind p i, ctxRead_refused (readCtx_beyond h) inp⟩,
      ⟨_, does_ctxWrite hon hrun hidle kind p i, ctxWrite_refused (readCtx_beyond h) inp⟩⟩,
    ⟨_, does_clrSid hon hrun hidle i, ctxDone_ctxEnd (hout.trans hops.out) inp, hmed.trans hops.med,
      fun h a => clrSid_bytes d 2 0 0 h inp a⟩⟩

/-- Settles O25: the operands set, the operation of its kind runs on the contexts as they were, busy sets. -/
theorem contextCommands : Obligations.ContextCommands := by
  intro d hon inp desc hrun
  refine ⟨⟨_, does_of_run hon fun _ => rfl, rd_wr .., rfl, rfl⟩,
    fun kind p i => ⟨fun hbusy => does_ctxBusy hon hrun hbusy kind p i, fun hidle => contextReads hon hrun hidle kind p i⟩,
    fun hidle p i h => ?_⟩
  have writes (kind : Fin 4) := does_ctxWrite hon hrun hidle kind p (BitVec.ofNatLT i h)
  rw [BitVec.toNat_ofNatLT] at writes
  refine ⟨fun hi => ⟨⟨fun hbad => ?_, fun hgood => ?_⟩, fun hbad => ?_, fun hgood => ?_⟩, fun hi => ⟨fun hbad => ?_, fun hgood => ?_⟩⟩
  · exact ⟨_, writes 0, (ctxWrite_cases d (ctxWrite_rx hi d 1 p) inp).1 hbad⟩
  · obtain ⟨hdone, hsame, hothers, hmem⟩ := ctxWrite_rx_written hi hgood 1 p inp
    exact ⟨_, writes 0, hdone, congrArg Prod.fst hsame, hothers, hmem, congrArg Prod.snd hsame⟩
  · exact ⟨_, writes 1, (ctxWrite_cases d (ctxWrite_pair hi d 1 p) inp).1 hbad⟩
  · obtain ⟨hdone, hsame, hothers, hmem⟩ := ctxWrite_pair_written hi hgood 1 p inp
    exact ⟨_, writes 1, hdone, congrArg Prod.fst hsame, hothers, hmem,
      fun hold hcfg => (congrArg (fun c => c.2.testBit 32) hsame).trans (pairStatus_started _ hold hcfg),
      fun hold => (congrArg Prod.snd hsame).trans (pairStatus_kept _ hold)⟩
  · exact ⟨_, writes 2, (ctxWrite_cases d (ctxWrite_egr hi d 1 p) inp).1 hbad⟩
  · obtain ⟨hdone, hw⟩ := ctxWrite_egr_written hi hgood 1 p inp
    exact ⟨_, writes 2, hdone, hw.conf, hw.others, hw.mem, hw.off, hw.anew, hw.kept, hw.dropped⟩

end Sys2Proof.Claims
end

section
/-! SUPPORT. The Tally's taps: the counts of a tap path, the parameters in force (R511, R534). -/

namespace Sys2Proof.Machine

open Sys2Proof.Claims

variable {d e : Dev}

/-- A command whose meaning changes the device in OFF as well. -/
theorem does_always {c : Instr} {g : Dev → Dev} (d : Dev) (h : ∀ s, exec c s = runAlways s g) : Does c d (g d) :=
  fun _ => (h _).trans rfl

/-! ### The Tally's state -/

theorem tlyRuns_iff : d.tlyRuns = true ↔ tallyRuns d := by
  rw [Dev.tlyRuns, tallyRuns, Bool.and_eq_true, beq_iff_eq]

theorem tlyRuns_false_iff : d.tlyRuns = false ↔ ¬ tallyRuns d := by
  rw [← tlyRuns_iff, Bool.not_eq_true]

theorem sealState_zero_iff : sealState d = 0 ↔ d.tallyAuth = 0 := by
  have hseal : sealState d = if d.tallyAuth = 0 then 0 else if d.tly.params.sealed then 2 else 1 := rfl
  rw [hseal]
  by_cases h : d.tallyAuth = 0
  · simp [h]
  · cases d.tly.params.sealed <;> simp [h]

theorem bits_tlyParams (d : Dev) (lo w : Nat) : bits d.tlyParams.cfg lo w = inForce d lo w := by
  by_cases h : d.tallyAuth = 0
  · rw [Dev.tlyParams, inForce, if_pos h, if_pos (sealState_zero_iff.mpr h)]
    rfl
  · rw [Dev.tlyParams, inForce, if_neg h, if_neg (mt sealState_zero_iff.mp h)]
    rfl

theorem prog_tlyParams (d : Dev) (p : Nat) : d.tlyParams.prog p = slotOf d p := by
  by_cases h : d.tallyAuth = 0
  · rw [Dev.tlyParams, slotOf, if_pos h, if_pos (sealState_zero_iff.mpr h)]
    rfl
  · rw [Dev.tlyParams, slotOf, if_neg h, if_neg (mt sealState_zero_iff.mp h)]
    rfl

/-! ### Counters -/

theorem tlyCountKey (k : Nat) : R.TLY_CNT_count.key [k] = 0x881000 + 64 * k := key_one rfl _

theorem tlyCount_same (d : Dev) (k n : Nat) :
    (d.tlyCount k n).rd R.TLY_CNT_count [k] = (d.rd R.TLY_CNT_count [k] + n) % 2 ^ 64 := rd_wr ..

theorem tlyCount_ne {j k : Nat} (h : j ≠ k) (d : Dev) (n : Nat) :
    (d.tlyCount k n).rd R.TLY_CNT_count [j] = d.rd R.TLY_CNT_count [j] :=
  rd_wr_ne _ _ _ _ _ _ (by rw [tlyCountKey, tlyCountKey]; omega)

theorem pendKey (n : Nat) : R.EVT_PEND_pend.key [n / 64] = 0x600800 + 64 * (n / 64) := key_one rfl _

/-- What is pending stays so as another field is written. -/
theorem pends_wr {n : Nat} {f : Field} {ix : List Nat} (hf : R.EVT_PEND_pend.key [n / 64] ≠ f.key ix) (v : Nat) (h : pends d n) :
    pends (d.wr f ix v) n := by
  rwa [pends, hasBit, rd_wr_ne _ _ _ _ _ _ hf]

theorem pends_tlyCount {n : Nat} (hn : n < 320) (k m : Nat) (h : pends d n) : pends (d.tlyCount k m) n :=
  pends_wr (by rw [pendKey, tlyCountKey]; omega) _ h

/-- What is pending stays so as another source raises. -/
theorem pends_setBit {n src : Nat} (h : pends d n) : pends (d.setBit R.EVT_PEND_pend [src / 64] (src % 64)) n := by
  by_cases hw : n / 64 = src / 64
  · have hbit : n % 64 < R.EVT_PEND_pend.width := Nat.mod_lt _ (by decide)
    rw [pends, hasBit, hw] at h
    rw [pends, hasBit, hw, Dev.setBit, rd_wr, Nat.testBit_mod_two_pow, withBit, Nat.testBit_or, h, Bool.true_or, Bool.and_true]
    exact decide_eq_true hbit
  · exact pends_wr (by rw [pendKey, pendKey]; omega) _ h

theorem pends_raise {n src : Nat} (hn : n < 320) (info : Nat) (h : pends d n) : pends (d.raise src info) n := by
  have hpend := pendKey n
  have hhpend : R.EVT_HPEND_pend.key [src / 64] = 0x600A00 + 64 * (src / 64) := key_one rfl _
  unfold Dev.raise Dev.raiseAt
  split
  · exact h
  · extract_lets p q r
    have hp : pends p n := pends_setBit h
    have hq : pends q n := by
      unfold q
      split
      · exact pends_wr (by rw [hpend, hhpend]; omega) _ hp
      · exact hp
    split
    · split
      · exact hq
      · unfold Dev.acceptRaise
        split
        · exact hq
        · exact pends_wr (by rw [hpend]; simp [Field.key, R.EVT_STAT_q_lost]; omega) _ hq
    · exact hq

/-! ### A notice -/

theorem tlyRaise_eventsOnly (d : Dev) {src : Nat} (hs : src < 320) (info : Nat) : EventsOnly d (d.tlyRaise src info) := by
  rw [Dev.tlyRaise]
  split
  · exact .refl d
  · exact raise_eventsOnly d hs info

theorem tlyRaise_noticed {src : Nat} (hdef : evtDefaultH src ≠ 0) (info : Nat) (d : Dev) : noticed d (d.tlyRaise src info) src := by
  intro hoff
  rw [Dev.tlyRaise, hoff]
  exact raise_pends hdef info d

theorem pends_tlyRaise {n src : Nat} (hn : n < 320) (info : Nat) (h : pends d n) : pends (d.tlyRaise src info) n := by
  rw [Dev.tlyRaise]
  split
  · exact h
  · exact pends_raise hn info h

/-! ### A message taken from its path (R511) -/

/-- What taking a message's count leaves. -/
structure TapTaken (d e : Dev) (path count : Nat) : Prop where
  eq : e = { d with regs := e.regs, evt := e.evt, tly := { d.tly with expect := e.tly.expect } }
  counted : tapCounted d e path count
  others : ∀ k, k ≠ 0 → e.rd R.TLY_CNT_count [k] = d.rd R.TLY_CNT_count [k]

/-- The count that the path is to bring next. -/
def tapNext (d : Dev) (path count : Nat) : Dev :=
  d.withTly fun y => { y with expect := tset 0 y.expect path ((count + 1) % 65536 + 1) }

theorem tapNext_expect (d : Dev) (path count : Nat) : tget 0 (tapNext d path count).tly.expect path = (count + 1) % 65536 + 1 :=
  tget_tset 0 d.tly.expect path ((count + 1) % 65536 + 1)

/-- The messages a path lost. -/
def tapLost (d : Dev) (path count : Nat) : Nat := (count + 65536 - (tget 0 d.tly.expect path - 1)) % 65536

theorem tapGap_eq (d : Dev) (path count : Nat) : d.tapGap path count =
    if tget 0 d.tly.expect path = 0 ∨ tget 0 d.tly.expect path = count + 1 then tapNext d path count
    else ((tapNext d path count).tlyCount 0 (tapLost d path count)).tlyRaise Ev.tlyTapGap path := rfl

theorem tapTaken_inOrder {path count : Nat} (h : tget 0 d.tly.expect path = 0 ∨ tget 0 d.tly.expect path = count + 1) :
    TapTaken d (tapNext d path count) path count :=
  ⟨rfl, ⟨tapNext_expect .., fun _ => rfl, fun h0 h1 => absurd h (not_or.mpr ⟨h0, h1⟩)⟩, fun _ _ => rfl⟩

theorem tapTaken_gap {path count : Nat} (h : ¬ (tget 0 d.tly.expect path = 0 ∨ tget 0 d.tly.expect path = count + 1)) :
    TapTaken d (((tapNext d path count).tlyCount 0 (tapLost d path count)).tlyRaise Ev.tlyTapGap path) path count := by
  have hraise := tlyRaise_eventsOnly ((tapNext d path count).tlyCount 0 (tapLost d path count)) (src := Ev.tlyTapGap) (by decide) path
  have hrd (k : Nat) := hraise.rd R.TLY_CNT_count [k] (.inr (by rw [tlyCountKey]; omega))
  refine ⟨?_, ⟨?_, fun h' => absurd h' h, fun _ _ => ⟨?_, ?_⟩⟩, fun k hk => ?_⟩
  · rw [hraise.eq]
    rfl
  · rw [hraise.eq]
    exact tapNext_expect d path count
  · rw [tallyCounted, hrd, tlyCount_same, Nat.mod_mod]
    rfl
  · exact tlyRaise_noticed (by decide) path ((tapNext d path count).tlyCount 0 (tapLost d path count))
  · rw [hrd, tlyCount_ne hk]
    rfl

theorem tapGap_taken (d : Dev) (path count : Nat) : TapTaken d (d.tapGap path count) path count := by
  rw [tapGap_eq]
  split
  next h => exact tapTaken_inOrder h
  next h => exact tapTaken_gap h

/-- What a tap counted stays counted where its path, its counter and what is pending stay. -/
theorem tapCounted_keeps {f : Dev} {path count : Nat} (h : tapCounted d e path count)
    (hexpect : tget 0 f.tly.expect path = tget 0 e.tly.expect path) (hcnt : f.rd R.TLY_CNT_count [0] = e.rd R.TLY_CNT_count [0])
    (hpend : pends e 297 → pends f 297) : tapCounted d f path count := by
  obtain ⟨hnext, hsame, hgap⟩ := h
  refine ⟨hexpect.trans hnext, fun hin => ?_, fun h0 h1 => ?_⟩
  · rw [tallyCounted, hcnt]
    exact hsame hin
  · obtain ⟨hlost, hnote⟩ := hgap h0 h1
    refine ⟨?_, fun hoff => hpend (hnote hoff)⟩
    rw [tallyCounted, hcnt]
    exact hlost

end Sys2Proof.Machine
end

section
/-! SUPPORT. The Tally's taps: accounting and the pulse per second (R525, R527). -/

namespace Sys2Proof.Machine

open Sys2Proof.Claims

variable {d e : Dev}

/-! ### ACCT (R525) -/

/-- A frame's message taken from the accounting path. -/
def acctTaken (d : Dev) (rest : List TapAcct) : Dev := { d with tly := { d.tly with acctQ := rest } }

/-- The period, tenant and port a frame counts for, and the second it credits. -/
def acctKey (d : Dev) (x : TapAcct) : Nat := svcKey (periodOf (rawToBeads x.ts) (cfgSvc d.tlyParams.cfg)) x.tenant x.port
def acctCredit (x : TapAcct) : Nat × Nat × Nat × Nat := (rawToBeads x.ts / beadsPerSec, x.sid, x.tenant, x.port)

/-- A frame of `len` bytes put to a period, which credits a second anew or does not. -/
def svcAdd (s : TlySvc) (len : Nat) (new : Bool) : TlySvc := { frames := s.frames + 1, bytes := s.bytes + len, secs := s.secs + bit new }

/-- A frame measured. -/
def acctMeasured (d : Dev) (x : TapAcct) : Dev :=
  let new := decide (acctCredit x ∉ d.tly.credited)
  d.withTly fun y => { y with
    svc := tset {} y.svc (acctKey d x) (svcAdd (tget {} d.tly.svc (acctKey d x)) x.len new)
    credited := if new then acctCredit x :: y.credited else y.credited }

theorem acctTap_nil (h : d.tly.acctQ = []) : acctTap d = d := by rw [acctTap, h]

theorem acctTap_stopped {x : TapAcct} {rest : List TapAcct} (h : d.tly.acctQ = x :: rest) (hstop : ¬ tallyRuns d) :
    acctTap d = acctTaken d rest := by
  rw [acctTap, h]
  exact if_pos (tlyRuns_false_iff.mpr hstop)

theorem acctTap_runs {x : TapAcct} {rest : List TapAcct} (h : d.tly.acctQ = x :: rest) (hrun : tallyRuns d) : acctTap d =
    let e := ((acctTaken d rest).tapGap 2 x.count).tlyCount 6
    if e.tly.aligned = false then e else acctMeasured e x := by
  have hr : ¬ (acctTaken d rest).tlyRuns = false := fun hf => tlyRuns_false_iff.mp hf hrun
  rw [acctTap, h]
  exact if_neg hr

/-- What a taken message leaves, its count included, whatever is measured then. -/
theorem acctCounted (d : Dev) (count : Nat) (rest : List TapAcct) :
    let e := ((acctTaken d rest).tapGap 2 count).tlyCount 6
    e = { d with regs := e.regs, evt := e.evt, tly := { d.tly with acctQ := rest, expect := e.tly.expect } } ∧
      tapCounted d e 2 count ∧ tallyCounted d e 6 1 := by
  intro e
  have ht := tapGap_taken (acctTaken d rest) 2 count
  refine ⟨?_, tapCounted_keeps (e := (acctTaken d rest).tapGap 2 count) ht.counted rfl (tlyCount_ne (by decide) ..)
    (pends_tlyCount (by decide) 6 1), ?_⟩
  · have heq : e = ((acctTaken d rest).tapGap 2 count).tlyCount 6 := rfl
    rw [heq, ht.eq]
    rfl
  · rw [tallyCounted, tlyCount_same, Nat.mod_mod, ht.others 6 (by decide)]
    rfl

theorem acctKey_eq (h : e.tlyParams = d.tlyParams) (x : TapAcct) :
    acctKey e x = (4096 * (rawToBeads x.ts / (svcLen d * second)) + x.tenant) * 2 + x.port := by
  rw [acctKey, h, svcLen, ← bits_tlyParams]
  rfl

theorem acctMeasured_tly_svc (e : Dev) (x : TapAcct) : (acctMeasured e x).tly.svc = tset {} e.tly.svc (acctKey e x)
    (svcAdd (tget {} e.tly.svc (acctKey e x)) x.len (decide (acctCredit x ∉ e.tly.credited))) := rfl

theorem acctMeasured_svc_ne {j : Nat} (x : TapAcct) (h : j ≠ acctKey e x) :
    tget {} (acctMeasured e x).tly.svc j = tget {} e.tly.svc j := by
  rw [acctMeasured_tly_svc, tget_tset_ne _ _ _ _ _ h]

theorem acctMeasured_svc (e : Dev) (x : TapAcct) : tget {} (acctMeasured e x).tly.svc (acctKey e x) =
    svcAdd (tget {} e.tly.svc (acctKey e x)) x.len (decide (acctCredit x ∉ e.tly.credited)) := by
  rw [acctMeasured_tly_svc, tget_tset]

theorem acctMeasured_credited (e : Dev) (x : TapAcct) : (acctMeasured e x).tly.credited =
    if acctCredit x ∈ e.tly.credited then e.tly.credited else acctCredit x :: e.tly.credited := by
  have h : (acctMeasured e x).tly.credited =
    if decide (acctCredit x ∉ e.tly.credited) = true then acctCredit x :: e.tly.credited else e.tly.credited := rfl
  rw [h]
  by_cases hc : acctCredit x ∈ e.tly.credited <;> simp [hc]

/-! ### PPS (R527) -/

def ppsTaken (d : Dev) (rest : List (Nat × Nat)) : Dev := { d with tly := { d.tly with ppsQ := rest } }

/-- An edge's error and its second put to a period. -/
def tieAdd (s : TlyTie) (e : Int) (sec : Nat) (beyond : Bool) : TlyTie :=
  { edges := s.edges + 1, secs := if sec ∈ s.secs then s.secs else sec :: s.secs
    lo := if s.edges = 0 then e else min s.lo e, hi := if s.edges = 0 then e else max s.hi e
    sum := s.sum + e, alarmed := s.alarmed || beyond }

def tieKey (d : Dev) (t : Nat) : Nat := periodOf t (cfgTie d.tlyParams.cfg)
def tieBeyond (d : Dev) (t : Nat) : Bool := decide (cfgTieLimit d.tlyParams.cfg * 65536 < (tieOf t).natAbs)

/-- The errors of the edge's period with the edge. -/
def tieNext (d : Dev) (t : Nat) : TlyTie :=
  tieAdd (tget {} d.tly.tie (tieKey d t)) (tieOf t) (((t : Int) - tieOf t).toNat / beadsPerSec) (tieBeyond d t)

/-- The edge in its period. -/
def tieAdded (d : Dev) (t : Nat) : Dev :=
  d.withTly fun y => { y with tie := tset {} y.tie (tieKey d t) (tieNext d t) }

/-- An edge measured; the first of its period beyond the limit raises the alarm. -/
def ppsMeasured (d : Dev) (t : Nat) : Dev :=
  if tieBeyond d t = true ∧ (tget {} d.tly.tie (tieKey d t)).alarmed = false then (tieAdded d t).tlyRaise Ev.tlyTieAlarm 0
  else tieAdded d t

theorem ppsTap_nil (h : d.tly.ppsQ = []) : ppsTap d = d := by rw [ppsTap, h]

theorem ppsTap_stopped {count ts : Nat} {rest : List (Nat × Nat)} (h : d.tly.ppsQ = (count, ts) :: rest) (hstop : ¬ tallyRuns d) :
    ppsTap d = ppsTaken d rest := by
  rw [ppsTap, h]
  exact if_pos (tlyRuns_false_iff.mpr hstop)

theorem ppsTap_runs {count ts : Nat} {rest : List (Nat × Nat)} (h : d.tly.ppsQ = (count, ts) :: rest) (hrun : tallyRuns d) :
    ppsTap d = let e := (ppsTaken d rest).tapGap 3 count
      if e.tly.aligned = false then e else ppsMeasured e (rawToBeads ts) := by
  have hr : ¬ (ppsTaken d rest).tlyRuns = false := fun hf => tlyRuns_false_iff.mp hf hrun
  rw [ppsTap, h]
  exact if_neg hr

/-- The error of an edge is its distance from the nearest whole second. -/
theorem tieOf_eq {t nearest : Nat} {edge : Int} (h : (t : Int) = (nearest : Int) * second + edge) (hhi : edge * 2 ≤ second)
    (hlo : -(second : Int) < edge * 2) : tieOf t = edge ∧ ((t : Int) - tieOf t).toNat / beadsPerSec = nearest := by
  have hsec : second = beadsPerSec := rfl
  have hpos : 0 < beadsPerSec := by decide
  rw [hsec] at h hhi hlo
  have htie : tieOf t = edge := by
    rw [tieOf]
    generalize hB : beadsPerSec = B at *
    rcases Int.lt_or_le edge 0 with hneg | hnonneg
    · obtain ⟨n, rfl⟩ : ∃ n, nearest = n + 1 := by
        cases nearest with
        | zero => omega
        | succ n => exact ⟨n, rfl⟩
      have ht : t = B * n + ((B : Int) + edge).toNat := by
        zify
        rw [Int.toNat_of_nonneg (by omega), h]
        push_cast
        ring
      have hmod : t % B = ((B : Int) + edge).toNat := by
        rw [ht, Nat.mul_add_mod, Nat.mod_eq_of_lt (by omega)]
      rw [hmod, if_neg (by omega)]
      omega
    · have ht : t = B * nearest + edge.toNat := by
        zify
        rw [Int.toNat_of_nonneg hnonneg, h]
        ring
      have hmod : t % B = edge.toNat := by
        rw [ht, Nat.mul_add_mod, Nat.mod_eq_of_lt (by omega)]
      rw [hmod, if_pos (by omega)]
      omega
  refine ⟨htie, ?_⟩
  have hwhole : ((t : Int) - edge).toNat = nearest * beadsPerSec := by
    have : (t : Int) - edge = ((nearest * beadsPerSec : Nat) : Int) := by push_cast; omega
    rw [this, Int.toNat_natCast]
  rw [htie, hwhole, Nat.mul_div_cancel _ hpos]

theorem tieAdded_tly_tie (d : Dev) (t : Nat) : (tieAdded d t).tly.tie = tset {} d.tly.tie (tieKey d t) (tieNext d t) := rfl

theorem tieAdded_tie_ne {t j : Nat} (h : j ≠ tieKey d t) : tget {} (tieAdded d t).tly.tie j = tget {} d.tly.tie j := by
  rw [tieAdded_tly_tie, tget_tset_ne _ _ _ _ _ h]

theorem tieAdded_tie (d : Dev) (t : Nat) : tget {} (tieAdded d t).tly.tie (tieKey d t) = tieNext d t := by
  rw [tieAdded_tly_tie, tget_tset]

theorem mem_tieAdd_secs {s : TlyTie} {e : Int} {sec : Nat} {beyond : Bool} (x : Nat) :
    x ∈ (tieAdd s e sec beyond).secs ↔ x = sec ∨ x ∈ s.secs := by
  rw [tieAdd]
  dsimp only
  split
  next h => exact ⟨.inr, fun hx => hx.elim (fun h0 => h0 ▸ h) id⟩
  next h => exact List.mem_cons

/-- The measure changes the period's errors, and raises the alarm at most. -/
theorem ppsMeasured_eventsOnly (d : Dev) (t : Nat) : EventsOnly (tieAdded d t) (ppsMeasured d t) := by
  rw [ppsMeasured]
  split
  · exact tlyRaise_eventsOnly _ (by decide) 0
  · exact .refl _

theorem ppsMeasured_alarm {t : Nat} (hb : tieBeyond d t = true) (hold : (tget {} d.tly.tie (tieKey d t)).alarmed = false) :
    noticed d (ppsMeasured d t) 299 := by
  rw [ppsMeasured, if_pos ⟨hb, hold⟩]
  exact tlyRaise_noticed (by decide) 0 (tieAdded d t)

theorem ppsMeasured_pends {n t : Nat} (hn : n < 320) (h : pends d n) : pends (ppsMeasured d t) n := by
  rw [ppsMeasured]
  split
  · exact pends_tlyRaise hn 0 h
  · exact h

theorem tieBeyond_iff (d : Dev) {t : Nat} {edge : Int} (h : tieOf t = edge) :
    tieBeyond d t = true ↔ inForce d 64 32 * 65536 < edge.natAbs := by
  rw [tieBeyond, decide_eq_true_iff, h, ← bits_tlyParams]
  rfl

theorem tieKey_eq (h : e.tlyParams = d.tlyParams) (t : Nat) : tieKey e t = t / (tieLen d * second) := by
  rw [tieKey, h, tieLen, ← bits_tlyParams]
  rfl

end Sys2Proof.Machine
end

section
/-! SUPPORT. The Tally's taps: what an accounting message and an edge leave (R525, R527). -/

namespace Sys2Proof.Claims

open Sys2Proof.Machine

variable {d : Dev}

/-! ### ACCT -/

/-- What the Tally measures of a frame while its replica is aligned. -/
def acctResult (d d' : Dev) (x : TapAcct) : Prop :=
  let t := rawToBeads x.ts
  let k := (4096 * (t / (svcLen d * second)) + x.tenant) * 2 + x.port
  let old := tget {} d.tly.svc k
  let credit := (t / second, x.sid, x.tenant, x.port)
  (∀ j, j ≠ k → tget {} d'.tly.svc j = tget {} d.tly.svc j) ∧
  (credit ∈ d.tly.credited → d'.tly.credited = d.tly.credited ∧
    tget {} d'.tly.svc k = { frames := old.frames + 1, bytes := old.bytes + x.len, secs := old.secs }) ∧
  (credit ∉ d.tly.credited → (∀ c, c ∈ d'.tly.credited ↔ c = credit ∨ c ∈ d.tly.credited) ∧
    tget {} d'.tly.svc k = { frames := old.frames + 1, bytes := old.bytes + x.len, secs := old.secs + 1 })

theorem acctResult_measured {e : Dev} (hparams : e.tlyParams = d.tlyParams) (hsvc : e.tly.svc = d.tly.svc)
    (hcredited : e.tly.credited = d.tly.credited) (x : TapAcct) : acctResult d (acctMeasured e x) x := by
  have hkey := acctKey_eq hparams x
  have hcredit : (rawToBeads x.ts / second, x.sid, x.tenant, x.port) = acctCredit x := rfl
  have hat := acctMeasured_svc e x
  have hall := acctMeasured_credited e x
  have hne (j : Nat) := acctMeasured_svc_ne (e := e) (j := j) x
  rw [hkey] at hat hne
  rw [hsvc, hcredited] at hat
  rw [hcredited] at hall
  rw [hsvc] at hne
  rw [acctResult, hcredit]
  refine ⟨hne, fun hin => ⟨?_, ?_⟩, fun hnew => ⟨fun c => ?_, ?_⟩⟩
  · rw [hall, if_pos hin]
  · rw [hat, decide_eq_false (not_not.mpr hin)]
    rfl
  · rw [hall, if_neg hnew, List.mem_cons]
  · rw [hat, decide_eq_true hnew]
    rfl

theorem acctTap_taken {x : TapAcct} {rest : List TapAcct} (h : d.tly.acctQ = x :: rest) (hrun : tallyRuns d) :
    ∃ d', Does .acctTap d d' ∧ d'.mem = d.mem ∧ d'.tly.acctQ = rest ∧ tapCounted d d' 2 x.count ∧ tallyCounted d d' 6 1 ∧
      (d.tly.aligned = false → d'.tly.svc = d.tly.svc ∧ d'.tly.credited = d.tly.credited) ∧
      (d.tly.aligned = true → acctResult d d' x) := by
  have hdoes := does_always (c := .acctTap) d fun _ => rfl
  rw [acctTap_runs h hrun] at hdoes
  obtain ⟨heq, htap, hsix⟩ := acctCounted d x.count rest
  revert hdoes heq htap hsix
  dsimp only
  generalize ((acctTaken d rest).tapGap 2 x.count).tlyCount 6 = e
  intro hdoes heq htap hsix
  have haligned : e.tly.aligned = d.tly.aligned := by rw [heq]
  have hstate : e.mem = d.mem ∧ e.tly.acctQ = rest ∧ e.tly.svc = d.tly.svc ∧ e.tly.credited = d.tly.credited ∧
      e.tlyParams = d.tlyParams := by rw [heq]; exact ⟨rfl, rfl, rfl, rfl, rfl⟩
  obtain ⟨hmem, hq, hsvc, hcredited, hparams⟩ := hstate
  rw [haligned] at hdoes
  refine ⟨_, hdoes, ?_⟩
  by_cases hal : d.tly.aligned = false
  · rw [if_pos hal]
    exact ⟨hmem, hq, htap, hsix, fun _ => ⟨hsvc, hcredited⟩, fun ht => absurd (hal.symm.trans ht) (by decide)⟩
  · rw [if_neg hal]
    exact ⟨hmem, hq, htap, hsix, fun hf => absurd hf hal, fun _ => acctResult_measured hparams hsvc hcredited x⟩

/-! ### PPS -/

/-- What the Tally measures of an edge while its replica is aligned. -/
def ppsResult (d d' : Dev) (ts : Nat) : Prop :=
  ∀ (edge : Int) (nearest : Nat), (rawToBeads ts : Int) = (nearest : Int) * second + edge → edge * 2 ≤ second →
    -(second : Int) < edge * 2 →
    let k := rawToBeads ts / (tieLen d * second)
    let old := tget {} d.tly.tie k
    let now_ := tget {} d'.tly.tie k
    let beyond := inForce d 64 32 * 65536 < edge.natAbs
    (∀ j, j ≠ k → tget {} d'.tly.tie j = tget {} d.tly.tie j) ∧ now_.edges = old.edges + 1 ∧ now_.sum = old.sum + edge ∧
    now_.lo = (if old.edges = 0 then edge else min old.lo edge) ∧ now_.hi = (if old.edges = 0 then edge else max old.hi edge) ∧
    (∀ sec, sec ∈ now_.secs ↔ sec = nearest ∨ sec ∈ old.secs) ∧
    (beyond → now_.alarmed = true ∧ (old.alarmed = false → noticed d d' 299)) ∧ (¬ beyond → now_.alarmed = old.alarmed)

theorem ppsResult_measured {e : Dev} (hparams : e.tlyParams = d.tlyParams) (htie : e.tly.tie = d.tly.tie) (hoff : e.pwr = d.pwr)
    (ts : Nat) : ppsResult d (ppsMeasured e (rawToBeads ts)) ts := by
  intro edge nearest hedge hhi hlo
  obtain ⟨herr, hsec⟩ := tieOf_eq hedge hhi hlo
  have hkey := tieKey_eq hparams (rawToBeads ts)
  have hraise := ppsMeasured_eventsOnly e (rawToBeads ts)
  have hsame : (ppsMeasured e (rawToBeads ts)).tly.tie = (tieAdded e (rawToBeads ts)).tly.tie := by rw [hraise.eq]
  have hnow := tieAdded_tie e (rawToBeads ts)
  have hne (j : Nat) := tieAdded_tie_ne (d := e) (t := rawToBeads ts) (j := j)
  have hforce : inForce e 64 32 = inForce d 64 32 := by rw [← bits_tlyParams, hparams, bits_tlyParams]
  have hbeyond := tieBeyond_iff e herr
  have halarm := ppsMeasured_alarm (d := e) (t := rawToBeads ts)
  rw [tieNext, hsec, herr, hkey, htie] at hnow
  rw [hkey, htie] at hne halarm
  rw [hforce] at hbeyond
  rw [hsame]
  dsimp only
  rw [hnow]
  refine ⟨hne, rfl, rfl, rfl, rfl, mem_tieAdd_secs, fun hb => ⟨?_, fun hold => ?_⟩, fun hb => ?_⟩
  · exact (congrArg (_ || ·) (hbeyond.mpr hb)).trans (Bool.or_true _)
  · exact fun hon => halarm (hbeyond.mpr hb) hold ((congrArg PwrSt.off hoff).trans hon)
  · exact (congrArg (_ || ·) (Bool.eq_false_iff.mpr (mt hbeyond.mp hb))).trans (Bool.or_false _)

theorem ppsTap_taken {count ts : Nat} {rest : List (Nat × Nat)} (h : d.tly.ppsQ = (count, ts) :: rest) (hrun : tallyRuns d) :
    ∃ d', Does .ppsTap d d' ∧ d'.mem = d.mem ∧ d'.tly.ppsQ = rest ∧ tapCounted d d' 3 count ∧
      (d.tly.aligned = false → d'.tly.tie = d.tly.tie) ∧ (d.tly.aligned = true → ppsResult d d' ts) := by
  have hdoes := does_always (c := .ppsTap) d fun _ => rfl
  rw [ppsTap_runs h hrun] at hdoes
  obtain ⟨heq, htap, -⟩ := tapGap_taken (ppsTaken d rest) 3 count
  revert hdoes heq htap
  dsimp only
  generalize (ppsTaken d rest).tapGap 3 count = e
  intro hdoes heq htap
  have htap : tapCounted d e 3 count := htap
  have hstate : e.tly.aligned = d.tly.aligned ∧ e.mem = d.mem ∧ e.tly.ppsQ = rest ∧ e.tly.tie = d.tly.tie ∧
      e.tlyParams = d.tlyParams ∧ e.pwr = d.pwr := by rw [heq]; exact ⟨rfl, rfl, rfl, rfl, rfl, rfl⟩
  obtain ⟨haligned, hmem, hq, htie, hparams, hpwr⟩ := hstate
  rw [haligned] at hdoes
  refine ⟨_, hdoes, ?_⟩
  by_cases hal : d.tly.aligned = false
  · rw [if_pos hal]
    exact ⟨hmem, hq, htap, fun _ => htie, fun ht => absurd (hal.symm.trans ht) (by decide)⟩
  · have hraise := ppsMeasured_eventsOnly e (rawToBeads ts)
    have hcnt : (ppsMeasured e (rawToBeads ts)).rd R.TLY_CNT_count [0] = e.rd R.TLY_CNT_count [0] :=
      hraise.rd _ _ (.inr (by rw [tlyCountKey]; omega))
    have hkept : (ppsMeasured e (rawToBeads ts)).mem = e.mem ∧ (ppsMeasured e (rawToBeads ts)).tly.ppsQ = e.tly.ppsQ ∧
        (ppsMeasured e (rawToBeads ts)).tly.expect = e.tly.expect := by rw [hraise.eq]; exact ⟨rfl, rfl, rfl⟩
    obtain ⟨hkmem, hkq, hkexpect⟩ := hkept
    rw [if_neg hal]
    exact ⟨hkmem.trans hmem, hkq.trans hq, tapCounted_keeps htap (by rw [hkexpect]) hcnt (ppsMeasured_pends (by decide)),
      fun hf => absurd hf hal, fun _ => ppsResult_measured hparams htie hpwr ts⟩

end Sys2Proof.Claims
end

section
/-! SUPPORT. The Tally's taps: audio samples (R166, R518, R519). -/

namespace Sys2Proof.Machine

open Sys2Proof.Claims

variable {d e f : Dev} {p m : Nat}

/-! ### What measuring leaves -/

/-- Channels, programmes and the Tally's counters 1 to 9 change at most; a format error stays recorded. -/
structure Measures (d e : Dev) : Prop where
  eq : e = { d with regs := e.regs, tly := { d.tly with chans := e.tly.chans, runs := e.tly.runs } }
  regs : ∀ k, k < 0x881040 → ∀ x, tget x e.regs k = tget x d.regs k
  fmt : ∀ p, (d.tlyRun p).fmtErr = true → (e.tlyRun p).fmtErr = true

namespace Measures

theorem refl (d : Dev) : Measures d d := ⟨rfl, fun _ _ _ => rfl, fun _ h => h⟩

theorem trans (h : Measures d e) (g : Measures e f) : Measures d f :=
  ⟨by rw [g.eq, h.eq], fun k hk x => (g.regs k hk x).trans (h.regs k hk x), fun p hp => g.fmt p (h.fmt p hp)⟩

theorem tlyCount (d : Dev) {k : Nat} (hk : k ≠ 0) (n : Nat) : Measures d (d.tlyCount k n) :=
  ⟨rfl, fun _ hlt _ => tget_tset_ne _ _ _ _ _ (by rw [tlyCountKey]; omega), fun _ h => h⟩

theorem setTlyChan (d : Dev) (p m : Nat) (x : TlyChan) : Measures d (d.setTlyChan p m x) := ⟨rfl, fun _ _ _ => rfl, fun _ h => h⟩

theorem params (h : Measures d e) : e.tlyParams = d.tlyParams := by rw [h.eq]; rfl
theorem now (h : Measures d e) : e.now = d.now := by rw [h.eq]; rfl

end Measures

/-- A format error recorded for a programme. -/
def formatError (d : Dev) (p : Nat) : Dev := d.setTlyRun p { d.tlyRun p with fmtErr := true }

theorem formatError_self (d : Dev) (p : Nat) : ((formatError d p).tlyRun p).fmtErr = true :=
  congrArg TlyRun.fmtErr (tget_tset ({} : TlyRun) d.tly.runs p { d.tlyRun p with fmtErr := true })

theorem formatError_measures (d : Dev) (p : Nat) : Measures d (formatError d p) := by
  refine ⟨rfl, fun _ _ _ => rfl, fun q hq => ?_⟩
  by_cases hqp : q = p
  · rw [hqp]
    exact formatError_self ..
  · have h : (formatError d p).tlyRun q = d.tlyRun q := tget_tset_ne _ _ d.tly.runs p _ hqp
    rw [h, hq]

/-! ### The samples of a channel -/

/-- The sample a channel holds for an index. -/
def heldAt (d : Dev) (p m n : Nat) : Option Int := tget none (d.tlyChan p m).samples n

/-- A sample more than two seconds old. -/
def sampleLate (d : Dev) (n : Nat) : Prop := n * beadsPerSec + 96000 * beadsPerSec < d.now * 48000

/-- A step of measuring that leaves the samples of channel `m` of programme `p`. -/
structure Spares (p m : Nat) (d e : Dev) : Prop where
  measures : Measures d e
  held : ∀ n, heldAt e p m n = heldAt d p m n

namespace Spares

theorem refl (p m : Nat) (d : Dev) : Spares p m d d := ⟨.refl d, fun _ => rfl⟩

theorem trans (h : Spares p m d e) (g : Spares p m e f) : Spares p m d f :=
  ⟨h.measures.trans g.measures, fun n => (g.held n).trans (h.held n)⟩

theorem formatError (d : Dev) (p m q : Nat) : Spares p m d (formatError d q) := ⟨formatError_measures d q, fun _ => rfl⟩

end Spares

theorem putSample_late {n : Nat} (h : sampleLate d n) (p m : Nat) (v : Int) : d.putSample p m n v = d.tlyCount 4 := if_pos h

theorem putSample_second {n : Nat} (h : ¬ sampleLate d n) (hs : heldAt d p m n ≠ none) (v : Int) :
    d.putSample p m n v = d.tlyCount 5 :=
  (if_neg h).trans (if_pos (Option.isSome_iff_ne_none.mpr hs))

/-- The first sample of an index kept. -/
def sampleKept (d : Dev) (p m n : Nat) (v : Int) : Dev :=
  d.setTlyChan p m { d.tlyChan p m with samples := tset none (d.tlyChan p m).samples n (some v) }

theorem putSample_first {n : Nat} (h : ¬ sampleLate d n) (hs : heldAt d p m n = none) (v : Int) :
    d.putSample p m n v = sampleKept d p m n v :=
  (if_neg h).trans (if_neg fun hsome => Option.isSome_iff_ne_none.mp hsome hs)

theorem tlyChan_sampleKept (d : Dev) (p m n : Nat) (v : Int) : (sampleKept d p m n v).tlyChan p m =
    { d.tlyChan p m with samples := tset none (d.tlyChan p m).samples n (some v) } :=
  tget_tset ({} : TlyChan) d.tly.chans (16 * p + m) { d.tlyChan p m with samples := tset none (d.tlyChan p m).samples n (some v) }

theorem heldAt_sampleKept (d : Dev) (p m n : Nat) (v : Int) (j : Nat) : heldAt (sampleKept d p m n v) p m j =
    tget none (tset none (d.tlyChan p m).samples n (some v)) j := by rw [heldAt, tlyChan_sampleKept]

theorem putSample_measures (d : Dev) (p m n : Nat) (v : Int) : Measures d (d.putSample p m n v) := by
  by_cases hl : sampleLate d n
  · rw [putSample_late hl]
    exact .tlyCount d (by decide) 1
  · by_cases hs : heldAt d p m n = none
    · rw [putSample_first hl hs]
      exact .setTlyChan ..
    · rw [putSample_second hl hs]
      exact .tlyCount d (by decide) 1

theorem putSample_spares {q l : Nat} (h : 16 * p + m ≠ 16 * q + l) (d : Dev) (n : Nat) (v : Int) :
    Spares p m d (d.putSample q l n v) := by
  refine ⟨putSample_measures .., fun j => ?_⟩
  by_cases hl : sampleLate d n
  · rw [putSample_late hl]
    rfl
  · by_cases hs : heldAt d q l n = none
    · have hchan : (sampleKept d q l n v).tlyChan p m = d.tlyChan p m := tget_tset_ne _ _ d.tly.chans (16 * q + l) _ h
      rw [putSample_first hl hs, heldAt, hchan, heldAt]
    · rw [putSample_second hl hs]
      rfl

theorem putSample_keeps {n : Nat} (h : sampleLate d n ∨ heldAt d p m n ≠ none) (v : Int) (j : Nat) :
    heldAt (d.putSample p m n v) p m j = heldAt d p m j := by
  by_cases hl : sampleLate d n
  · rw [putSample_late hl]
    rfl
  · rw [putSample_second hl (h.resolve_left hl)]
    rfl

theorem putSample_ne {n j : Nat} (h : j ≠ n) (d : Dev) (p m : Nat) (v : Int) :
    heldAt (d.putSample p m n v) p m j = heldAt d p m j := by
  by_cases hk : sampleLate d n ∨ heldAt d p m n ≠ none
  · exact putSample_keeps hk v j
  · obtain ⟨hl, hs⟩ := not_or.mp hk
    rw [putSample_first hl (not_not.mp hs), heldAt_sampleKept, tget_tset_ne _ _ _ _ _ h, heldAt]

theorem putSample_same {n : Nat} (hl : ¬ sampleLate d n) (hs : heldAt d p m n = none) (v : Int) :
    heldAt (d.putSample p m n v) p m n = some v := by
  rw [putSample_first hl hs, heldAt_sampleKept, tget_tset]

/-! ### The samples of a frame for one channel -/

/-- The first `c` samples of a frame put to a channel from index `n0` on. -/
def putSamples (d : Dev) (p m n0 : Nat) (v : Nat → Int) (c : Nat) : Dev :=
  (List.range c).foldl (fun d i => d.putSample p m (n0 + i) (v i)) d

theorem putSamples_succ (d : Dev) (p m n0 : Nat) (v : Nat → Int) (c : Nat) :
    putSamples d p m n0 v (c + 1) = (putSamples d p m n0 v c).putSample p m (n0 + c) (v c) := by
  rw [putSamples, List.range_succ, List.foldl_append, List.foldl_cons, List.foldl_nil, putSamples]

theorem putSamples_measures (d : Dev) (p m n0 : Nat) (v : Nat → Int) (c : Nat) : Measures d (putSamples d p m n0 v c) := by
  induction c with
  | zero => exact .refl d
  | succ c ih =>
    rw [putSamples_succ]
    exact ih.trans (putSample_measures ..)

theorem putSamples_spares {q l : Nat} (h : 16 * p + m ≠ 16 * q + l) (d : Dev) (n0 : Nat) (v : Nat → Int) (c : Nat) :
    Spares p m d (putSamples d q l n0 v c) := by
  induction c with
  | zero => exact .refl p m d
  | succ c ih =>
    rw [putSamples_succ]
    exact ih.trans (putSample_spares h ..)

theorem putSamples_outside (d : Dev) (p m n0 : Nat) (v : Nat → Int) {c j : Nat} (h : j < n0 ∨ n0 + c ≤ j) :
    heldAt (putSamples d p m n0 v c) p m j = heldAt d p m j := by
  induction c with
  | zero => rfl
  | succ c ih => rw [putSamples_succ, putSample_ne (by omega), ih (by omega)]

theorem Measures.sampleLate_iff (h : Measures d e) (n : Nat) : sampleLate e n ↔ sampleLate d n := by
  rw [sampleLate, sampleLate, h.now]

theorem putSamples_keeps (d : Dev) (p m n0 : Nat) (v : Nat → Int) {c i : Nat} (hi : i < c)
    (h : sampleLate d (n0 + i) ∨ heldAt d p m (n0 + i) ≠ none) :
    heldAt (putSamples d p m n0 v c) p m (n0 + i) = heldAt d p m (n0 + i) := by
  induction c with
  | zero => cases hi
  | succ c ih =>
    rw [putSamples_succ]
    rcases Nat.lt_succ_iff_lt_or_eq.mp hi with hlt | rfl
    · rw [putSample_ne (by omega), ih hlt]
    · have hout := putSamples_outside d p m n0 v (c := i) (j := n0 + i) (.inr (Nat.le_refl _))
      rw [← hout, ← (putSamples_measures d p m n0 v i).sampleLate_iff] at h
      rw [putSample_keeps h, hout]

theorem putSamples_first (d : Dev) (p m n0 : Nat) (v : Nat → Int) {c i : Nat} (hi : i < c)
    (hl : ¬ sampleLate d (n0 + i)) (hs : heldAt d p m (n0 + i) = none) :
    heldAt (putSamples d p m n0 v c) p m (n0 + i) = some (v i) := by
  induction c with
  | zero => cases hi
  | succ c ih =>
    rw [putSamples_succ]
    rcases Nat.lt_succ_iff_lt_or_eq.mp hi with hlt | rfl
    · rw [putSample_ne (by omega), ih hlt]
    · have hout := putSamples_outside d p m n0 v (c := i) (j := n0 + i) (.inr (Nat.le_refl _))
      exact putSample_same (mt ((putSamples_measures d p m n0 v i).sampleLate_iff _).mp hl) (hout.trans hs) _

/-- The value of sample `i` of a channel in a frame. -/
def sampleValue (c : Nat) (l : List Byte) (i : Nat) : Int :=
  let raw := ofBe ((l.drop ((i * chChans c + chIndex c) * chBytes c)).take (chBytes c))
  if chBytes c = 2 then toSigned 16 raw * 256 else toSigned 24 raw

theorem takeChan_eq (d : Dev) (p m n0 c : Nat) (l : List Byte) :
    d.takeChan p m n0 c l = putSamples d p m n0 (sampleValue c l) (l.length / (chChans c * chBytes c)) := rfl

/-! ### The sample index (R166) -/

theorem toSigned_near {x : Int} {v : Nat} (hlo : -2 ^ 31 ≤ x) (hhi : x < 2 ^ 31) (h : (v : Int) % 2 ^ 32 = x % 2 ^ 32) :
    toSigned 32 v = x := by
  have hv : ((v % 2 ^ 32 : Nat) : Int) = x % 2 ^ 32 := by rw [← h]; norm_cast
  rw [toSigned]
  split
  · omega
  · push_cast
    omega

/-- The index nearest the frame's time that its RTP timestamp allows. -/
theorem sampleIndexOf_eq {t r ofs n0 : Nat} (h : (n0 + ofs) % 2 ^ 32 = r % 2 ^ 32)
    (hlo : (n0 : Int) < t * 48000 / second + 2 ^ 31) (hhi : (t * 48000 / second : Int) ≤ n0 + 2 ^ 31) :
    Dev.measureAudio.sampleIndexOf t r ofs = n0 := by
  have hsec : second = beadsPerSec := rfl
  have hnear : (t * 48000 / beadsPerSec : Int) = ((t * 48000 / beadsPerSec : Nat) : Int) := by push_cast; rfl
  rw [hsec, hnear] at hlo hhi
  rw [Dev.measureAudio.sampleIndexOf]
  generalize t * 48000 / beadsPerSec = near at *
  rw [toSigned_near (x := (n0 : Int) - near) (by omega) (by omega) (by omega)]
  omega

end Sys2Proof.Machine
end

section
/-! SUPPORT. The Tally's taps: an audio frame measured by the programmes that name its stream (R518, R519). -/

namespace Sys2Proof.Machine

open Sys2Proof.Claims

variable {d : Dev} {p m : Nat}

/-! ### Folds that reach a channel once -/

section

variable {l : List Nat} {f : Dev × Bool → Nat → Dev × Bool} {r : Dev × Bool}

theorem foldl_spares (h : ∀ y ∈ l, ∀ b, Measures r.1 b.1 → Spares p m b.1 (f b y).1) : Spares p m r.1 (l.foldl f r).1 :=
  List.foldlRecOn (motive := fun b => Spares p m r.1 b.1) l f (.refl p m r.1) fun b hb y hy => hb.trans (h y hy b hb.measures)

/-- A fold whose steps spare a channel but for the step of one element. -/
theorem foldl_once {x : Nat} (hx : x ∈ l) (hnd : l.Nodup)
    (h : ∀ y ∈ l, y ≠ x → ∀ b, Measures r.1 b.1 → Spares p m b.1 (f b y).1)
    (hself : ∀ b, Measures r.1 b.1 → Measures b.1 (f b x).1) :
    ∃ b, Spares p m r.1 b.1 ∧ Spares p m (f b x).1 (l.foldl f r).1 := by
  obtain ⟨l₁, l₂, rfl⟩ := List.append_of_mem hx
  have hdis : x ∉ l₁ ∧ x ∉ l₂ := by
    rw [List.nodup_append, List.nodup_cons] at hnd
    obtain ⟨_, ⟨hx₂, _⟩, hdisj⟩ := hnd
    exact ⟨fun hx₁ => hdisj x hx₁ x List.mem_cons_self rfl, hx₂⟩
  have hfirst : Spares p m r.1 (l₁.foldl f r).1 := foldl_spares fun y hy b hb =>
    h y (List.mem_append_left _ hy) (fun hyx => hdis.1 (hyx ▸ hy)) b hb
  refine ⟨_, hfirst, ?_⟩
  rw [List.foldl_append, List.foldl_cons]
  have hmid := hfirst.measures.trans (hself _ hfirst.measures)
  exact foldl_spares fun y hy b hb =>
    h y (List.mem_append_right _ (List.mem_cons_of_mem _ hy)) (fun hyx => hdis.2 (hyx ▸ hy)) b (hmid.trans hb)

end

/-! ### A frame for one channel, for one programme, for all -/

/-- Channel `m` of programme `p` measures the frame: its samples, or a format error. -/
def audioChan (x : TapAudio) (p v n0 : Nat) (r : Dev × Bool) (m : Nat) : Dev × Bool :=
  if x.payload.length % (chChans (progChan v m) * chBytes (progChan v m)) ≠ 0 then (formatError r.1 p, true)
  else (r.1.takeChan p m n0 (progChan v m) x.payload, r.2)

theorem audioChan_odd (x : TapAudio) (p v n0 : Nat) (r : Dev × Bool) (m : Nat)
    (h : x.payload.length % (chChans (progChan v m) * chBytes (progChan v m)) ≠ 0) :
    audioChan x p v n0 r m = (formatError r.1 p, true) := if_pos h

theorem audioChan_even (x : TapAudio) (p v n0 : Nat) (r : Dev × Bool) (m : Nat)
    (h : x.payload.length % (chChans (progChan v m) * chBytes (progChan v m)) = 0) : audioChan x p v n0 r m =
      (putSamples r.1 p m n0 (sampleValue (progChan v m) x.payload) (x.payload.length / (chChans (progChan v m) * chBytes (progChan v m))),
        r.2) := if_neg (not_not.mpr h)

/-- The channels of a slot that name stream `k`. -/
def streamChans (v k : Nat) : List Nat := (progChans v).filter fun m => chStream (progChan v m) == k

/-- Programme `p`, with slot `v`, measures the frame. -/
def audioProg (x : TapAudio) (p v : Nat) (r : Dev × Bool) : Dev × Bool :=
  (streamChans v (16384 * x.port + x.stream)).foldl
    (audioChan x p v (Dev.measureAudio.sampleIndexOf (rawToBeads x.ts) x.rtpTs (progOfs v))) r

/-- Every programme measures the frame. -/
def audioProgs (x : TapAudio) (d : Dev) : Dev × Bool :=
  d.enabledProgs.foldl (fun r p => audioProg x p (r.1.tlyParams.prog p) r) (d, false)

theorem measureAudio_eq (x : TapAudio) (d : Dev) : d.measureAudio x =
    let r := audioProgs x (d.rateFrame (16384 * x.port + x.stream) x.rtpTs (rawToBeads x.ts))
    if r.2 then r.1.tlyCount 9 else r.1 := rfl

theorem audioChan_measures (x : TapAudio) (p v n0 : Nat) (r : Dev × Bool) (m : Nat) : Measures r.1 (audioChan x p v n0 r m).1 := by
  rw [audioChan]
  split
  · exact formatError_measures ..
  · rw [takeChan_eq]
    exact putSamples_measures ..

theorem audioChan_spares {q j : Nat} (h : 16 * p + m ≠ 16 * q + j) (x : TapAudio) (v n0 : Nat) (r : Dev × Bool) :
    Spares p m r.1 (audioChan x q v n0 r j).1 := by
  rw [audioChan]
  split
  · exact .formatError ..
  · rw [takeChan_eq]
    exact putSamples_spares h ..

theorem mem_streamChans {v k : Nat} : m ∈ streamChans v k ↔ m < 16 ∧
    (part v (32 * m) 32).testBit 0 = true ∧ part (part v (32 * m) 32) 1 1 * 16384 + part (part v (32 * m) 32) 2 14 = k := by
  rw [streamChans, progChans, List.mem_filter, List.mem_filter, List.mem_range, beq_iff_eq, and_assoc]
  exact Iff.rfl

theorem streamChans_nodup (v k : Nat) : (streamChans v k).Nodup := (List.nodup_range.filter _).filter _

theorem audioProg_measures (x : TapAudio) (p v : Nat) (r : Dev × Bool) : Measures r.1 (audioProg x p v r).1 :=
  List.foldlRecOn (motive := fun b => Measures r.1 b.1) _ _ (.refl r.1) fun b hb y _ => hb.trans (audioChan_measures x p v _ b y)

/-- Another programme, or one without the channel among those it measures, spares it. -/
theorem audioProg_spares {q v : Nat} (hm : m < 16) (h : q ≠ p ∨ m ∉ streamChans v k) (x : TapAudio)
    (hk : k = 16384 * x.port + x.stream) (r : Dev × Bool) : Spares p m r.1 (audioProg x q v r).1 := by
  refine foldl_spares fun j hj b _ => audioChan_spares ?_ x v _ b
  have hj16 : j < 16 := (mem_streamChans.mp hj).1
  rcases h with hq | hnot
  · omega
  · intro heq
    have hjm : j = m := by omega
    exact hnot (hk ▸ hjm ▸ hj)

theorem mem_enabledProgs : p ∈ d.enabledProgs ↔ p < 256 ∧ (slotOf d p).testBit 576 = true := by
  rw [Dev.enabledProgs, List.mem_filter, List.mem_range, prog_tlyParams]
  exact Iff.rfl

theorem enabledProgs_nodup (d : Dev) : d.enabledProgs.Nodup := List.nodup_range.filter _

/-- The slot a programme is measured by does not change as frames are measured. -/
theorem Measures.prog {e : Dev} (h : Measures d e) (p : Nat) : e.tlyParams.prog p = slotOf d p := by
  rw [h.params, prog_tlyParams]

/-- Channel `m` of programme `p` measures frames of stream `k`. -/
def measuresStream (d : Dev) (p m k : Nat) : Prop :=
  (slotOf d p).testBit 576 = true ∧ (part (slotOf d p) (32 * m) 32).testBit 0 = true ∧
    part (part (slotOf d p) (32 * m) 32) 1 1 * 16384 + part (part (slotOf d p) (32 * m) 32) 2 14 = k

theorem audioProgs_measures (x : TapAudio) (d : Dev) : Measures d (audioProgs x d).1 :=
  List.foldlRecOn (motive := fun b : Dev × Bool => Measures d b.1) _ _ (.refl d) fun b hb y _ => hb.trans (audioProg_measures x y _ b)

theorem audioProgs_spares (hm : m < 16) (x : TapAudio) (h : ¬ measuresStream d p m (16384 * x.port + x.stream)) :
    Spares p m d (audioProgs x d).1 := by
  refine foldl_spares (r := (d, false)) fun q hq b hb => audioProg_spares hm ?_ x rfl b
  rw [hb.prog, mem_streamChans]
  by_cases hqp : q = p
  · refine .inr fun ⟨_, hen, hstream⟩ => h ?_
    subst hqp
    exact ⟨(mem_enabledProgs.mp hq).2, hen, hstream⟩
  · exact .inl hqp

/-- The channel's own step, with what stood before it and stands after it. -/
theorem audioProgs_once (hp : p < 256) (hm : m < 16) (x : TapAudio) (h : measuresStream d p m (16384 * x.port + x.stream)) :
    ∃ b, Spares p m d b.1 ∧ Spares p m (audioChan x p (slotOf d p)
      (Dev.measureAudio.sampleIndexOf (rawToBeads x.ts) x.rtpTs (progOfs (slotOf d p))) b m).1 (audioProgs x d).1 := by
  obtain ⟨hen, hchan, hstream⟩ := h
  obtain ⟨b, hb, hlast⟩ := foldl_once (p := p) (m := m) (r := (d, false))
    (f := fun r q => audioProg x q (r.1.tlyParams.prog q) r) (mem_enabledProgs.mpr ⟨hp, hen⟩) (enabledProgs_nodup d)
    (fun q _ hq b _ => audioProg_spares hm (.inl hq) x rfl b) (fun b _ => audioProg_measures x p _ b)
  rw [hb.measures.prog] at hlast
  obtain ⟨c, hc, hclast⟩ := foldl_once (p := p) (m := m) (r := b) (f := audioChan x p (slotOf d p)
    (Dev.measureAudio.sampleIndexOf (rawToBeads x.ts) x.rtpTs (progOfs (slotOf d p))))
    (mem_streamChans.mpr ⟨hm, hchan, hstream⟩) (streamChans_nodup ..)
    (fun j _ hj b _ => audioChan_spares (by omega) x _ _ b) (fun b _ => audioChan_measures ..)
  exact ⟨c, hb.trans hc, hclast.trans hlast⟩

/-! ### The rate check (R520) -/

/-- A frame of the second its stream's check stands at drops nothing. -/
theorem rateFrame_sameSecond {k t : Nat} (rtp : Nat) (h : ∀ r, tget none d.tly.rates k = some r → r.sec = t / beadsPerSec) :
    ∃ rates, d.rateFrame k rtp t = { d with tly := { d.tly with rates := rates } } := by
  rw [Dev.rateFrame]
  split
  next r hr => rw [if_pos (h r hr)]; exact ⟨_, rfl⟩
  next => exact ⟨_, rfl⟩

end Sys2Proof.Machine
end

section
/-! SUPPORT. The Tally's taps: what an audio message leaves (R166, R518 to R520). -/

namespace Sys2Proof.Machine

open Sys2Proof.Claims

variable {d e f : Dev} {p m : Nat}

/-! ### What no audio message changes -/

/-- Channels, programmes, rate checks and the Tally's counters 1 to 9 change at most. -/
structure AudioOnly (d e : Dev) : Prop where
  eq : e = { d with regs := e.regs, tly := { d.tly with chans := e.tly.chans, runs := e.tly.runs, rates := e.tly.rates } }
  regs : ∀ k, k < 0x881040 → ∀ x, tget x e.regs k = tget x d.regs k

namespace AudioOnly

theorem refl (d : Dev) : AudioOnly d d := ⟨rfl, fun _ _ _ => rfl⟩

theorem trans (h : AudioOnly d e) (g : AudioOnly e f) : AudioOnly d f :=
  ⟨by rw [g.eq, h.eq], fun k hk x => (g.regs k hk x).trans (h.regs k hk x)⟩

theorem rates (d : Dev) (t : Table (Option TlyRate)) : AudioOnly d { d with tly := { d.tly with rates := t } } :=
  ⟨rfl, fun _ _ _ => rfl⟩

theorem rd (h : AudioOnly d e) {f : Field} {ix : List Nat} (hk : f.key ix < 0x881040) : e.rd f ix = d.rd f ix := h.regs _ hk _

theorem pends {n : Nat} (hn : n < 320) (h : AudioOnly d e) (hp : Claims.pends d n) : Claims.pends e n := by
  rwa [Claims.pends, hasBit, h.rd (by rw [pendKey]; omega)]

end AudioOnly

theorem Measures.audioOnly (h : Measures d e) : AudioOnly d e := ⟨by rw [h.eq], h.regs⟩

/-- The samples of a second dropped from one channel. -/
def dropChan (d : Dev) (p sec m : Nat) : Dev :=
  d.setTlyChan p m { d.tlyChan p m with
    samples := (d.tlyChan p m).samples.filter fun (e : Nat × Option Int) => decide (e.1 / 48000 ≠ sec) }

theorem dropSecond_measures (d : Dev) (k sec : Nat) : Measures d (d.dropSecond k sec) := by
  refine List.foldlRecOn (motive := fun e : Dev => Measures d e) _ _ (.refl d) fun e he p _ => ?_
  dsimp only
  split
  · exact he
  · have hdrop : Measures d ((streamChans (e.tlyParams.prog p) k).foldl (fun d m => dropChan d p sec m) e) :=
      List.foldlRecOn (motive := fun e : Dev => Measures d e) _ _ he fun e he m _ => he.trans (.setTlyChan ..)
    exact hdrop.trans (formatError_measures _ p)

theorem rateFrame_audioOnly (d : Dev) (k rtp t : Nat) : AudioOnly d (d.rateFrame k rtp t) := by
  have last {e : Dev} (h : AudioOnly d e) (r : Option TlyRate) :
      AudioOnly d (e.withTly fun y => { y with rates := tset none y.rates k r }) := h.trans (.rates ..)
  rw [Dev.rateFrame]
  refine last ?_ _
  split
  next r _ =>
    split
    · exact .refl d
    · have hgone := last (.refl d) none
      split
      · exact hgone.trans ((dropSecond_measures _ k r.sec).trans (.tlyCount _ (by decide) _)).audioOnly
      · exact hgone
  next => exact .refl d

/-- What the programmes leave once the frames in error are counted. -/
theorem measureAudio_measures (x : TapAudio) (d : Dev) :
    Measures (audioProgs x (d.rateFrame (16384 * x.port + x.stream) x.rtpTs (rawToBeads x.ts))).1 (d.measureAudio x) := by
  rw [measureAudio_eq]
  dsimp only
  split
  · exact .tlyCount _ (by decide) 1
  · exact .refl _

theorem measureAudio_held (x : TapAudio) (d : Dev) (p m n : Nat) : heldAt (d.measureAudio x) p m n =
    heldAt (audioProgs x (d.rateFrame (16384 * x.port + x.stream) x.rtpTs (rawToBeads x.ts))).1 p m n := by
  rw [measureAudio_eq]
  dsimp only
  split
  · rfl
  · rfl

theorem measureAudio_audioOnly (x : TapAudio) (d : Dev) : AudioOnly d (d.measureAudio x) :=
  ((rateFrame_audioOnly d _ _ _).trans (audioProgs_measures x _).audioOnly).trans (measureAudio_measures x d).audioOnly

/-! ### A sample's value -/

theorem toSigned_ofNat {w : Nat} (hw : 0 < w) (v : Nat) : toSigned w v = (BitVec.ofNat w v).toInt := by
  rw [← toSigned_toNat hw, BitVec.toNat_ofNat, toSigned, toSigned, Nat.mod_mod]

/-- The bytes of a channel's sample in a frame, as Table 16-1 lays them out. -/
theorem sampleValue_eq (c : Nat) (l : List Byte) (i : Nat) :
    let width := 2 + part c 30 1
    let raw := ofBe ((l.drop (i * ((part c 22 6 + 1) * width) + part c 16 6 * width)).take width)
    sampleValue c l i = if width = 2 then (BitVec.ofNat 16 raw).toInt * 256 else (BitVec.ofNat 24 raw).toInt := by
  intro width raw
  have hraw : raw = ofBe ((l.drop ((i * chChans c + chIndex c) * chBytes c)).take (chBytes c)) := by
    rw [Nat.add_mul, Nat.mul_assoc]
    rfl
  rw [← toSigned_ofNat (by decide), ← toSigned_ofNat (by decide), hraw]
  rfl

end Sys2Proof.Machine

namespace Sys2Proof.Claims

open Sys2Proof.Machine

variable {d e : Dev}

/-- What a channel holds of an audio frame measured while the replica is aligned. -/
def audioResult (d d' : Dev) (x : TapAudio) : Prop :=
  let t := rawToBeads x.ts
  let k := 16384 * x.port + x.stream
  (∀ r, tget none d.tly.rates k = some r → r.sec = t / second) → 2 ^ 31 * second ≤ t * 48000 →
  ∀ p m, p < 256 → m < 16 →
    let v := slotOf d p
    let c := part v (32 * m) 32
    let mine := v.testBit 576 = true ∧ c.testBit 0 = true ∧ part c 1 1 * 16384 + part c 2 14 = k
    let width := 2 + part c 30 1
    let step := (part c 22 6 + 1) * width
    let held := fun (e : Dev) n => tget none (e.tlyChan p m).samples n
    (¬ mine → ∀ n, held d' n = held d n) ∧
    (mine → x.payload.length % step ≠ 0 → (∀ n, held d' n = held d n) ∧ (d'.tlyRun p).fmtErr = true) ∧
    (mine → x.payload.length % step = 0 → ∀ (n0 : Nat),
      (n0 + part v 512 32) % 2 ^ 32 = x.rtpTs % 2 ^ 32 → (n0 : Int) < t * 48000 / second + 2 ^ 31 →
      (t * 48000 / second : Int) ≤ n0 + 2 ^ 31 →
      (∀ n, n < n0 ∨ n0 + x.payload.length / step ≤ n → held d' n = held d n) ∧
      (∀ i, i < x.payload.length / step → let n := n0 + i
        let late := n * second + 2 * 48000 * second < d.now * 48000
        let raw := ofBe ((x.payload.drop (i * step + part c 16 6 * width)).take width)
        (late ∨ held d n ≠ none → held d' n = held d n) ∧
        (¬ late → held d n = none →
          held d' n = some (if width = 2 then (BitVec.ofNat 16 raw).toInt * 256 else (BitVec.ofNat 24 raw).toInt))))

/-- The samples of a frame, those at hand `b` when the channel's turn comes being the device's own. -/
theorem heldAt_putSamples {b : Dev} {p m : Nat} (hheld : ∀ n, heldAt b p m n = heldAt d p m n) (hnow : b.now = d.now)
    (n0 count : Nat) (v : Nat → Int) :
    let d' := putSamples b p m n0 v count
    (∀ n, n < n0 ∨ n0 + count ≤ n → heldAt d' p m n = heldAt d p m n) ∧
      ∀ i, i < count → (sampleLate d (n0 + i) ∨ heldAt d p m (n0 + i) ≠ none → heldAt d' p m (n0 + i) = heldAt d p m (n0 + i)) ∧
        (¬ sampleLate d (n0 + i) → heldAt d p m (n0 + i) = none → heldAt d' p m (n0 + i) = some (v i)) := by
  have hlate (n : Nat) : sampleLate b n ↔ sampleLate d n := by rw [sampleLate, hnow, sampleLate]
  refine ⟨fun n hn => (putSamples_outside b p m n0 v hn).trans (hheld n), fun i hi => ⟨fun h => ?_, fun hl hs => ?_⟩⟩
  · rw [← hlate, ← hheld] at h
    exact (putSamples_keeps b p m n0 v hi h).trans (hheld _)
  · exact putSamples_first b p m n0 v hi (mt (hlate _).mp hl) ((hheld _).trans hs)

/-- The result, from the device `a` that the programmes find and the device `d'` that the frame leaves. -/
theorem audioResult_of {a d' : Dev} {x : TapAudio} (hfinal : Measures (audioProgs x a).1 d')
    (hleaves : ∀ p m n, heldAt d' p m n = heldAt (audioProgs x a).1 p m n) (hparams : a.tlyParams = d.tlyParams)
    (hchans : a.tly.chans = d.tly.chans) (hnow : a.now = d.now) : audioResult d d' x := by
  unfold audioResult
  intro t k _ _ p m hp hm v c mine width step held
  have hheld (n : Nat) : held d' n = heldAt (audioProgs x a).1 p m n := hleaves p m n
  have hstart (n : Nat) : heldAt a p m n = held d n := by rw [heldAt, Dev.tlyChan, hchans]; rfl
  have hslot : slotOf a p = v := by rw [← prog_tlyParams, hparams, prog_tlyParams]
  have hmine : measuresStream a p m k ↔ mine := by rw [measuresStream, hslot]
  refine ⟨fun hnot n => ?_, fun h hodd => ?_, fun h heven n0 hn0 hlo hhi => ?_⟩
  · exact (hheld n).trans (((audioProgs_spares hm x (mt hmine.mp hnot)).held n).trans (hstart n))
  · obtain ⟨b, hb, hlast⟩ := audioProgs_once hp hm x (hmine.mpr h)
    rw [hslot, audioChan_odd x p v _ b m hodd] at hlast
    exact ⟨fun n => (hheld n).trans ((hlast.held n).trans ((hb.held n).trans (hstart n))),
      hfinal.fmt p (hlast.measures.fmt p (formatError_self b.1 p))⟩
  · obtain ⟨b, hb, hlast⟩ := audioProgs_once hp hm x (hmine.mpr h)
    have hindex : Dev.measureAudio.sampleIndexOf (rawToBeads x.ts) x.rtpTs (progOfs v) = n0 := sampleIndexOf_eq hn0 hlo hhi
    rw [hslot, audioChan_even x p v _ b m heven, hindex] at hlast
    have hend (n : Nat) := (hheld n).trans (hlast.held n)
    obtain ⟨hout, hin⟩ := heldAt_putSamples (fun n => (hb.held n).trans (hstart n)) (hb.measures.now.trans hnow) n0
      (x.payload.length / step) (sampleValue c x.payload)
    refine ⟨fun n hn => (hend n).trans (hout n hn), fun i hi => ⟨fun hkeep => (hend _).trans ((hin i hi).1 hkeep), fun hl hs => ?_⟩⟩
    exact ((hend _).trans ((hin i hi).2 hl hs)).trans (congrArg some (sampleValue_eq c x.payload i))

theorem audioResult_measured (hparams : e.tlyParams = d.tlyParams) (hchans : e.tly.chans = d.tly.chans)
    (hrates : e.tly.rates = d.tly.rates) (hnow : e.now = d.now) (x : TapAudio) : audioResult d (e.measureAudio x) x := by
  intro hsec
  obtain ⟨rates, hrate⟩ := rateFrame_sameSecond (d := e) x.rtpTs (hrates.symm ▸ hsec)
  have hfinal := measureAudio_measures x e
  have hheld := measureAudio_held x e
  rw [hrate] at hfinal hheld
  exact audioResult_of hfinal hheld hparams hchans hnow hsec

end Sys2Proof.Claims
end

section
/-! SUPPORT. The Tally's taps: the obligation (Table 16-1). -/

namespace Sys2Proof.Machine

open Sys2Proof.Claims

variable {d : Dev} {x : TapAudio} {rest : List TapAudio} {q : Nat}

/-- A frame's message taken from a port's audio path. -/
def audioTaken (d : Dev) (q : Nat) (rest : List TapAudio) : Dev :=
  { d with tly := { d.tly with audioQ := tset [] d.tly.audioQ q rest } }

theorem audioTaken_queue (d : Dev) (q : Nat) (rest : List TapAudio) : tget [] (audioTaken d q rest).tly.audioQ q = rest :=
  tget_tset [] d.tly.audioQ q rest

theorem audioTap_nil (h : tget [] d.tly.audioQ q = []) : audioTap q d = d := by rw [audioTap, h]

theorem audioTap_stopped (h : tget [] d.tly.audioQ q = x :: rest) (hstop : ¬ tallyRuns d) : audioTap q d = audioTaken d q rest := by
  rw [audioTap, h]
  exact if_pos (tlyRuns_false_iff.mpr hstop)

theorem audioTap_runs (h : tget [] d.tly.audioQ q = x :: rest) (hrun : tallyRuns d) : audioTap q d =
    let e := (audioTaken d q rest).tapGap q x.count
    if e.tly.aligned = true then e.measureAudio x else e := by
  have hr : ¬ (audioTaken d q rest).tlyRuns = false := fun hf => tlyRuns_false_iff.mp hf hrun
  rw [audioTap, h]
  exact if_neg hr

end Sys2Proof.Machine

namespace Sys2Proof.Claims

open Sys2Proof.Machine

variable {d : Dev}

theorem audioTap_taken (q : Fin 2) {x : TapAudio} {rest : List TapAudio} (h : tget [] d.tly.audioQ q = x :: rest) (hrun : tallyRuns d) :
    ∃ d', Does (.audioTap q) d d' ∧ d'.mem = d.mem ∧ tget [] d'.tly.audioQ q = rest ∧ tapCounted d d' q x.count ∧
      (d.tly.aligned = false → d'.tly.chans = d.tly.chans) ∧ (d.tly.aligned = true → audioResult d d' x) := by
  have hdoes := does_always (c := .audioTap q) d fun _ => rfl
  rw [audioTap_runs h hrun] at hdoes
  have hqueue := audioTaken_queue d q rest
  obtain ⟨heq, htap, -⟩ := tapGap_taken (audioTaken d q rest) q x.count
  revert hdoes heq htap
  dsimp only
  generalize (audioTaken d q rest).tapGap q x.count = e
  intro hdoes heq htap
  have htap : tapCounted d e q x.count := htap
  have hstate : e.tly.aligned = d.tly.aligned ∧ e.mem = d.mem ∧ e.tly.audioQ = (audioTaken d q rest).tly.audioQ ∧
      e.tly.chans = d.tly.chans ∧ e.tly.rates = d.tly.rates ∧ e.tlyParams = d.tlyParams ∧ e.now = d.now := by
    rw [heq]
    exact ⟨rfl, rfl, rfl, rfl, rfl, rfl, rfl⟩
  obtain ⟨haligned, hmem, hq, hchans, hrates, hparams, hnow⟩ := hstate
  rw [← hq] at hqueue
  rw [haligned] at hdoes
  refine ⟨_, hdoes, ?_⟩
  by_cases hal : d.tly.aligned = true
  · have honly := measureAudio_audioOnly x e
    have hkept : (e.measureAudio x).mem = e.mem ∧ (e.measureAudio x).tly.audioQ = e.tly.audioQ ∧
        (e.measureAudio x).tly.expect = e.tly.expect := by rw [honly.eq]; exact ⟨rfl, rfl, rfl⟩
    obtain ⟨hkmem, hkq, hkexpect⟩ := hkept
    have hcnt : (e.measureAudio x).rd R.TLY_CNT_count [0] = e.rd R.TLY_CNT_count [0] := honly.rd (by rw [tlyCountKey]; omega)
    rw [if_pos hal]
    exact ⟨hkmem.trans hmem, by rw [hkq, hqueue], tapCounted_keeps htap (by rw [hkexpect]) hcnt (honly.pends (by decide)),
      fun hf => absurd (hf.symm.trans hal) (by decide), fun _ => audioResult_measured hparams hchans hrates hnow x⟩
  · rw [if_neg hal]
    exact ⟨hmem, hqueue, htap, fun _ => hchans, fun ht => absurd ht hal⟩

/-- Settles O48: a message leaves its queue and is counted; the sums of ACCT and PPS go to the period of the message's time;
a channel's samples are those of the one step of the frame's measuring that is its own. -/
theorem tallyTaps : Obligations.TallyTaps := by
  intro d
  refine ⟨fun h => ?_, fun x rest h _ _ => ⟨fun hstop => ?_, fun hrun => acctTap_taken h hrun⟩, fun h => ?_,
    fun count ts rest h => ⟨fun hstop => ?_, fun hrun => ppsTap_taken h hrun⟩,
    fun q => ⟨fun h => ?_, fun x rest h => ⟨fun hstop => ?_, fun hrun => audioTap_taken q h hrun⟩⟩⟩
  · exact does_stay (does_always d fun _ => rfl) (acctTap_nil h)
  · have hdoes := does_always (c := .acctTap) d fun _ => rfl
    rwa [acctTap_stopped h hstop] at hdoes
  · exact does_stay (does_always d fun _ => rfl) (ppsTap_nil h)
  · have hdoes := does_always (c := .ppsTap) d fun _ => rfl
    rwa [ppsTap_stopped h hstop] at hdoes
  · exact does_stay (does_always d fun _ => rfl) (audioTap_nil h)
  · have hdoes := does_always (c := .audioTap q) d fun _ => rfl
    rw [audioTap_stopped h hstop] at hdoes
    exact ⟨_, hdoes, audioTaken_queue .., rfl, rfl⟩

end Sys2Proof.Claims
end
